-- ==== Sys2Proof/Word.lean ====
section
/-! DEFINITION. The word of the register space, the lanes and the records (R8, R204): 32 bits. -/
namespace Sys2Proof

/-- A 32-bit register, record, lane or descriptor word. -/
abbrev Word := BitVec 32

/-- A byte. -/
abbrev Byte := BitVec 8

end Sys2Proof
end

