-- ==== Sys2Proof/Syntax.lean ====
section
/-! DEFINITION. The commands of the KLM-48 block: `Instr` has one constructor for each row of spec/opcode_table.json, and
the structures above it are the operands. The table gives no row a bit pattern, so an operand is what the row's rule says
the step is handed: a register write carries its source and value, an event of the analogue or serial world carries what
the device measures or receives there, and an event whose data the device already holds carries only the unit it concerns. -/
namespace Sys2Proof

/-- Management sources of R531, in the order of the profile bits: local SPI, upstream lane, downstream lane, PCIe host. -/
inductive Source where
  | spi | upLane | downLane | pcie
  deriving DecidableEq, Repr

/-- What the checker self-test of R430 found: bit b of `banks` a bank checker, bit q of `lqs` a lane-quad checker, bit e of
`engines` the CRC engine of an encoder-verify or hub check engine; small memories; a voter or the crossing check of group 48
to 50. -/
structure SelfTest where
  banks : Nat
  lqs : Nat
  engines : Nat
  smallMem : Bool
  core : Bool
  deriving DecidableEq, Repr

/-- A command descriptor (R322) as it reaches the device that executes it: its source, the lane it arrived on (63: the
host), the identity of R326, and the eight descriptor words W0 to W7. -/
structure Cmd where
  src : Source
  port : Nat
  origin : Nat
  ring : Nat
  seq : Nat
  w : List Word
  deriving DecidableEq, Repr

/-- Converter codes of one channel over the frame that ends: (L, H) per sample instant (R94, R95). -/
structure ChanCodes where
  n : Nat
  codes : List (Int × Int)
  deriving DecidableEq, Repr

/-- A disagreement the refresh of R405 or R406 finds: register address (0xFFFF for state without one), bit, the copy that
differs, and the second copy when two differ. -/
structure VoterHit where
  addr : Nat
  bit : Nat
  copy : Nat
  second : Option Nat
  deriving DecidableEq, Repr

/-- What a frame boundary reads from the world: VIN in mV and input power in 10 mW of the frame that ends (R477), the
converter codes of its channels, the voter refresh's findings, and which of the three-fold computations of R408 found no
majority (0 tracker, 1 servo, 2 cross-calibration, 3 domain decisions). -/
structure FrameInput where
  vinMv : Nat
  power : Nat
  codes : List ChanCodes
  voters : List VoterHit
  noMajority : List Nat
  deriving DecidableEq, Repr

/-- Factors of one sub-converter (R103, steps 2 to 5): gain on which 0x0040_0000 is 1.0, offset in units of 1/16 S16 LSB, sampling skew in
femtoseconds, worst capacitor weight error in parts per million. -/
structure SubCal where
  gain : Nat
  ofs : Int
  skewFs : Int
  capPpm : Nat
  deriving DecidableEq, Repr

/-- What foreground calibration measured on a channel (R103, R135): the four factors, on-die sampler delay D_S in units of 2^-16 ns,
discriminator offset in units of 1/16 S16 LSB, and the sub-converters of the low-gain and the high-gain converter. -/
structure CalResult where
  n : Nat
  gl : Nat
  ol : Int
  gh : Nat
  oh : Int
  ds : Nat
  disc : Int
  low : List SubCal
  high : List SubCal
  deriving DecidableEq, Repr

/-- Characters that reach the receiver of a lane from a comma on, as one lane frame of the partner (R348, R355): reference cycle of the
comma, counted from the boundary that opened the present frame (negative: before it), character within that cycle, bit position of the word
boundary, and the ten-bit characters with the bit received first on top. -/
structure LaneRx where
  cyc : Int
  sub : Nat
  slip : Nat
  chars : List Nat
  deriving DecidableEq, Repr

/-- What a lane receives where a lane frame was due: a lane frame, a signal in which none can be framed, or nothing. -/
inductive LaneArrival where
  | frame (rx : LaneRx)
  | noise (chars : List Nat)
  | silence
  deriving DecidableEq, Repr

/-- What happens at a crossing group (R387 to R389): the sender produces a value; an event its domain counts happens; the receiver sees the flag
and loads the hold register, which `bad` says has an error in some byte; the sender sees the acknowledge. The group carries values and an event
count, each through a hold register of its own: `count` names the count's. -/
inductive CrossStep where
  | send (val : Word)
  | happen
  | load (count bad : Bool)
  | ack (count : Bool)
  deriving DecidableEq, Repr

/-- A host request to BAR0 (R555, R556): offset, number of DWs, all byte enables set, and the data of a write. -/
structure BarReq where
  offset : Nat
  dws : Nat
  allBe : Bool
  data : Option (List Word)
  deriving DecidableEq, Repr

/-- A word of a capability whose content the manual gives and whose place it does not (R557): the MSI-X table and PBA words, and the lower and
upper DW of the Device Serial Number. -/
inductive CfgCap where
  | msixTable | msixPba | serialLo | serialHi
  deriving DecidableEq, Repr

/-- A host request to the endpoint's configuration space (R301, R522, R557): a read of the word at an offset or of a word of a capability, or a
write of a field that the device obeys, wherever its capability lies: the Max_Payload_Size and Max_Read_Request_Size codes of Device Control, the
low or high half of BAR0's address, MSI-X Enable and Function Mask, and PowerState D0. -/
inductive CfgReq where
  | read (offset : Nat)
  | cap (c : CfgCap)
  | deviceControl (payload readReq : Nat)
  | bar0 (high : Bool) (val : Word)
  | msix (enable mask : Bool)
  | powerD0
  deriving DecidableEq, Repr

/-- A PCI Express read completion (READ_COMPLETION): the 512 bytes of the doorbell bitmap, the eight index words (POST,
CONFIRM) of one line, or a command descriptor of a ring. -/
inductive Completion where
  | bitmap (bytes : List Nat)
  | indexLine (byte : Nat) (words : List (Nat × Nat))
  | descriptor (ring : Nat) (w : List Word)
  deriving DecidableEq, Repr

/-- A unit that R419 assays and R423 logs: bank word or small-memory word at a location, a triplicated element at a
register address, lane, channel pipeline, record assembly, engine, crossing group, FIFO index, self-test. -/
structure UnitId where
  unit : Nat
  loc : Nat
  deriving DecidableEq, Repr

/-- The steps of spec/opcode_table.json, in the table's order. -/
inductive Instr where
  /-- VIN_VALID (R518): VIN rises above 5.8 V and the device begins the power-up timeline with its internal rails. -/
  | vinValid (test : SelfTest)
  /-- CONVERTER_STOP (R477): VIN falls below 5.5 V, the converter stops, and the device loses power. -/
  | converterStop (blown : Nat)
  /-- NRESET_ASSERT (R579): nRESET is held low and the device is reset. -/
  | nresetAssert (blown : Nat)
  /-- NRESET_RELEASE (R579): nRESET is released and bring-up restarts at step 2 with the rails kept. -/
  | nresetRelease (test : SelfTest)
  /-- ROLE_FIXED (R18): Once the hallmark has been read and REFCLK is present, the device latches ROLE[1:0], increments BOOT_COUNT, builds the capability list and opens frame 0. -/
  | roleFixed
  /-- REF_WAIT_ALERT (R527): After 100 ms of waiting at step 2 for REFCLK, ALERT is driven active. -/
  | refWaitAlert
  /-- FRAME_BOUNDARY (R25): The Sluice tick: FI advances and the pending switches, power changes, headgate actions, queued writes, lane frames and tally sweep run in order. -/
  | frameBoundary (inp : FrameInput)
  /-- GLB_ROLE_CFG_WRITE (R40): A write to UPLINK_MASK is refused if it would leave no uplink, and otherwise reruns the budget check and is queued to the next boundary. -/
  | glbRoleCfgWrite (src : Source) (val : Word)
  /-- GLB_DEVICE_NUMBER_WRITE (R41): A write of DEVNUM and VALID is queued to the next frame boundary. -/
  | glbDeviceNumberWrite (src : Source) (val : Word)
  /-- REGISTER_WRITE (R548): A write to a register that has no behaviour of its own, with the access-type and precedence rules applied. -/
  | registerWrite (src : Source) (addr : Nat) (val : Word)
  /-- COARSE_STEP (R51): When a domain reaches TRACKING while the clock is UNTIMED or FREE, the clock is set from it at the next boundary and the stored stamps are discarded. -/
  | coarseStep
  /-- CLOCK_LOCKED (R53): After 16 consecutive in-threshold updates on a qualified, refined domain, the clock goes from COARSE to LOCKED. -/
  | clockLocked
  /-- DOMAIN_QUALIFIED (R60): 16 consecutive in-threshold valid exchanges, or 4 PPS edges for a source, make a domain QUALIFIED. -/
  | domainQualified (d : Nat)
  /-- DOMAIN_LOST (R60): No valid input for LOST_TIMEOUT frames, or 2 s for a PPS source, makes the domain LOST. -/
  | domainLost (d : Nat)
  /-- ASYM_WATCH_CONFIRM (R64): Domain Y stays QUALIFIED with no step for 64 updates, so X becomes SUSPECT and a switch may follow. -/
  | asymWatchConfirm
  /-- ASYM_WATCH_EXPIRY (R64): WINDOW frames pass with Y neither stepping nor confirming, and X becomes SUSPECT. -/
  | asymWatchExpiry
  /-- PPS_EDGE (R65): A PPS_IN edge is stamped, is checked against the band, and gives theta_d for a source domain. -/
  | ppsEdge (rising : Bool) (cyc : Nat) (j : Nat) (code : Nat)
  /-- TOD_MESSAGE (R67): A 16-byte TOD_IN message is checked and accepted or rejected, and it sets the time or checks SEC at the next edge. -/
  | todMessage (bytes : List Byte)
  /-- TOD_GAP_TIMEOUT (R66): A gap of more than 1 ms between TOD_IN bytes discards the partial message. -/
  | todGapTimeout
  /-- TXQ_POP (R68): A write of POP moves the oldest queue entry into the entry registers. -/
  | txqPop (src : Source)
  /-- TIM_NOW_CAPTURE (R74): A read of TIM_NOW_SEC_LO captures the whole clock and FI in one cycle. -/
  | timNowCapture (cyc : Nat)
  /-- PREFER_SWITCH (R61): A TIM_CTRL write whose PREFER names the other domain requests a switch, which is refused unless that domain is QUALIFIED or FORCE applies. -/
  | preferSwitch (src : Source) (val : Word)
  /-- HOLD_REQ (R62): Setting or clearing TIM_CTRL.HOLD_REQ requests holdover or releases it. -/
  | holdReq (src : Source) (set : Bool)
  /-- FREE_DECLARE (R72): Writing FREE while UNTIMED makes the clock FREE from the next boundary. -/
  | freeDeclare (src : Source)
  /-- DOM_CFG_WRITE (R59): A write of a domain's port and enable is checked against the role, and a refused port sets CFG_ERR. -/
  | domCfgWrite (src : Source) (d : Nat) (val : Word)
  /-- CLEAR_SUSPECT (R64): CLEAR_A or CLEAR_B returns a SUSPECT domain to TRACKING. -/
  | clearSuspect (src : Source) (a b : Bool)
  /-- HEADGATE_ACTION (R69): An arriving headgate action is compared with its target and held, executed late, or refused for lateness, a full queue or no time. -/
  | headgateAction (c : Cmd)
  /-- CANCEL (R70): Command 0x04 cancels the held headgate action with the given tag at step 5, or answers not found. -/
  | cancel (c : Cmd)
  /-- FG_CAL_START (R104): When FG_WAIT has elapsed after the ramp, or after a channel's own entry into service, foreground calibration starts. -/
  | fgCalStart (chan : Option Nat)
  /-- FG_CAL_DONE (R103): Foreground calibration ends after 160 ms, and new factors take effect or the channel fails and stays provisional. -/
  | fgCalDone (results : List CalResult)
  /-- RECAL_START (R107): CH_CAL_CTRL.START requests a recalibration rotation of the named quads, and is refused if one is active. -/
  | recalStart (src : Source) (quads : Nat) (force : Bool)
  /-- RECAL_ABORT (R107): CH_CAL_CTRL.ABORT ends the rotation after the quad in progress. -/
  | recalAbort (src : Source)
  /-- BG_CAL_SWAP (R108): At the end of a slot, a background-calibrated sub-converter is swapped in after one frame of agreement in shadow, or is rejected. -/
  | bgCalSwap (n : Nat) (high : Bool) (diff : Int) (gl : Nat) (ol : Int) (sub : SubCal)
  /-- DISCRIMINATOR_HIT (R111): A channel's discriminator fires on an armed edge and hands the hit to its TDC and trigger units. -/
  | discriminatorHit (n : Nat) (rising : Bool) (cyc j : Nat) (lo hi : Int)
  /-- TDC_CONVERSION_DONE (R127): The vernier coincidence fires and the raw result is converted into a hit instant. -/
  | tdcConversionDone (n : Nat) (code : Nat)
  /-- TDC_CONVERSION_TIMEOUT (R130): No coincidence after 136 fast periods, so the conversion is discarded, counted as ERR, and assayed. -/
  | tdcConversionTimeout (n : Nat)
  /-- SLOW_LOCK_ACQUIRED (R131): The phase error of the slow oscillator stays within ±2 ps for 1,024 cycles, and SLOW_LOCK is set. -/
  | slowLockAcquired (n : Nat)
  /-- FAST_LOCK_CHECK (R131): The TDC has been idle for 160 slow periods, and a lock check trims the fast oscillator by one step. -/
  | fastLockCheck (n : Nat) (early : Bool) (cyc : Nat)
  /-- FORCED_LOCK_CHECK (R131): No lock check has run for 64 frames, so the TDC is taken for one check at the boundary. -/
  | forcedLockCheck (n : Nat) (early : Bool)
  /-- TDC_LOCK_LOST (R132): SLOW_LOCK or FAST_LOCK is lost, an event is raised, and hits go unstamped. -/
  | tdcLockLost (n : Nat) (slow : Bool)
  /-- LIN_CAL_START (R134): A linearity calibration begins at the first boundary with both locks: at bring-up, for a newly powered channel, on request, or automatically. -/
  | linCalStart (n : Nat)
  /-- LIN_CAL_DONE (R133): After 100 ms the histogram gives a new table, or the calibration fails. -/
  | linCalDone (n : Nat) (hist : List Nat)
  /-- TDC_CAL_START (R134): TDC_CAL_CTRL.START queues a linearity calibration of the named quads, and is refused while one is active. -/
  | tdcCalStart (src : Source) (quads : Nat)
  /-- STAT_START (R143): TDC_STAT_CTRL.START clears the accumulators and starts or restarts the interval-statistics engine. -/
  | statStart (src : Source) (val : Word)
  /-- STAT_ABORT (R143): TDC_STAT_CTRL.ABORT stops the engine without setting DONE. -/
  | statAbort (src : Source)
  /-- STAT_DONE (R143): After 2^K values the engine latches mean, deviation, minimum and maximum and sets DONE. -/
  | statDone
  /-- LENDER_CONVERSION (R145): A lender channel stamps a recovered-clock edge for the phase average, in full or share mode. -/
  | lenderConversion (d : Nat) (cyc j code : Nat)
  /-- PHASE_AVG_DONE (R145): After 2^PHASE_AVG_K conversions the mean phase passes to the time path at the next boundary. -/
  | phaseAvgDone (d : Nat)
  /-- TRIGGER_DECISION (R164): A trigger unit's condition is met at sample x, and the trigger opens, extends or is refused a capture, with fusion and association. -/
  | triggerDecision (n : Nat) (fi x : Nat)
  /-- MASK_REARM (R179): TRG_MASK_CFG.REARM resumes a stopped mask test at the next boundary. -/
  | maskRearm (src : Source) (q : Nat)
  /-- TRG_MASK_DATA_WRITE (R199): A write stores an envelope value into the shadow and advances POINT. -/
  | trgMaskDataWrite (src : Source) (val : Word)
  /-- TRG_MASK_COMMIT (R180): The shadow envelopes of the named quads are copied to the active envelopes at the next boundary. -/
  | trgMaskCommit (src : Source) (quads : Nat)
  /-- TRG_DEAD_CAPTURE (R195): A read of TRG_DEAD_LO captures the selected 48-bit dead-sample count. -/
  | trgDeadCapture
  /-- CAPTURE_CLOSE (R172): The last sample of a capture is merged, the capture closes, and the 16-sample re-arm begins. -/
  | captureClose (n : Nat)
  /-- RECORD_ASSEMBLED (R210): Record assembly builds a hit record from the ring, with crossing, TDC stamp and seam map, in duplicate and compared. -/
  | recordAssembled (n : Nat) (differ : Bool)
  /-- STREAM_CFG_WRITE (R183): A write to TRG_STREAM_CFG runs the uplink budget check and is accepted or refused, with an event. -/
  | streamCfgWrite (src : Source) (slot : Nat) (val : Word)
  /-- CHANNEL_DISABLE (R481): Clearing CH_CTRL.ENABLE starts drain then dark: CLOSING, then DRAINING, with stream slots stopped. -/
  | channelDisable (src : Source) (n : Nat)
  /-- CHANNEL_ENABLE (R483): Setting CH_CTRL.ENABLE returns a closing or draining channel to ON, or starts powering a dark one under admission. -/
  | channelEnable (src : Source) (n : Nat)
  /-- CHANNEL_DRAIN_END (R481): Once the last capture has closed and every record has left, the channel goes DARK and an event is raised. -/
  | channelDrainEnd (n : Nat)
  /-- DOMAIN_IN_SERVICE (R479): 20 frames after powering starts, a channel or lane-quad domain enters service. -/
  | domainInService (code : Nat)
  /-- MEMORY_INIT_DONE (R480): A memory domain has cleared its banks, enters service at F+283, and begins scrubbing. -/
  | memoryInitDone (m : Nat)
  /-- COMPRESS_VERIFY_DONE (R259): An engine finishes encoding and verifying a record, which is released compressed, EXPANDED and raw, or raw after a failed verify. -/
  | compressVerifyDone (e : Nat) (emitted : Option (List Word))
  /-- RECORD_BYPASS (R262): A record that has not entered an engine by the end of the frame after assembly is written raw and counted as BYPASS. -/
  | recordBypass
  /-- RECORD_FIFO_WRITE (R224): A record closes into the record FIFO and its index, or it is dropped for lack of room with a loss record. -/
  | recordFifoWrite
  /-- FRAME_SUMMARY_WRITE (R216): The front-end writes the frame summary after the last record of the frame, or withholds it when the reserve is full. -/
  | frameSummaryWrite
  /-- UPLINK_SEND (R226): The uplink scheduler begins sending a record on an uplink when it can finish by the deadline, after checking the index. -/
  | uplinkSend (l : Nat)
  /-- RECORD_WITHDRAW (R226): At the boundary that opens F+16 (F+48 in a cell), records of F not yet begun are withdrawn with loss records. -/
  | recordWithdraw
  /-- UPLINK_COPY_ABANDON (R226): An uplink leaves service mid-record, the copy is abandoned and resent elsewhere or withdrawn. -/
  | uplinkCopyAbandon (l : Nat)
  /-- FLUSH (R234): REC_FIFO_CTRL.FLUSH requests a flush of the record FIFO. -/
  | flush (src : Source)
  /-- FLUSH_EXECUTE (R227): At the reader's next record boundary the FIFO is flushed, with replacements by class. -/
  | flushExecute
  /-- REC_DIAG_READ (R232): A read of REC_DIAG_DATA returns the selected queue word and latches REC_DIAG_TAG. -/
  | recDiagRead
  /-- LANE_FRAME_RECEIVED (R355): A received lane frame is accepted or rejected on comma position, code errors and CRC, and its contents are used. -/
  | laneFrameReceived (l : Nat) (rx : LaneArrival)
  /-- LANE_FRAMED (R357): 4 consecutive lane frames are accepted at trickle, and a BLIND lane becomes FRAMED. -/
  | laneFramed (l : Nat)
  /-- BLIND_RETRY (R360): A lane still not FRAMED 1,000 frames after entering BLIND restarts clock recovery and alignment. -/
  | blindRetry (l : Nat)
  /-- LANE_RAISE (R362): After 16 accepted frames with the raise conditions met, the lane sends RATE_NEXT, trains, and switches to full rate. -/
  | laneRaise (l : Nat)
  /-- RAISE_TIMEOUT (R357): No full-rate lane frame within 16 frames of the switch, so the lane falls to BLIND. -/
  | raiseTimeout (l : Nat)
  /-- FRAMING_LOST (R357): 8 consecutive expected lane frames are rejected or missing, so the lane falls to BLIND and its queued messages are removed. -/
  | framingLost (l : Nat)
  /-- LANE_ENABLE (R357): Setting LN_CTRL.ENABLE takes a DARK lane to BLIND once its lane-quad domain is powered. -/
  | laneEnable (src : Source) (l : Nat)
  /-- LANE_DISABLE (R484): Clearing LN_CTRL.ENABLE ends the current lane frame, idles the lane and takes it DARK. -/
  | laneDisable (src : Source) (l : Nat)
  /-- LANE_IDLE_ENTER (R363): Setting LN_CTRL.IDLE sends a last lane frame with IDLE_NEXT and enters electrical idle. -/
  | laneIdleEnter (src : Source) (l : Nat)
  /-- LANE_IDLE_EXIT (R364): Clearing IDLE leaves electrical idle EXIT_LEAD cycles before a comma, with a training burst. -/
  | laneIdleExit (src : Source) (l : Nat)
  /-- LANE_ATTEST_SET (R359): Software writes LN_CTRL.ATTESTED to let the partner in. -/
  | laneAttestSet (src : Source) (l : Nat) (set : Bool)
  /-- ASSAY_START (R369): LN_CTRL.ASSAY_START starts a lane assay, with a log entry of KIND 0xD. -/
  | assayStart (src : Source) (l : Nat)
  /-- LANE_ASSAY_VERDICT (R370): The lane assay reaches lasting, transient or inconclusive by its error limits or frame counts. -/
  | laneAssayVerdict (l : Nat)
  /-- EYE_SCAN_START (R371): LN_EYE_CTRL.START starts comparing the offset sampler at one point. -/
  | eyeScanStart (src : Source) (l : Nat) (val : Word)
  /-- EYE_SCAN_DONE (R371): After 2^(20+DWELL_LOG2) bits, the disagreements are latched and DONE is set. -/
  | eyeScanDone (l : Nat) (errors : Nat)
  /-- LANE_FIFO_SLIP (R390): A lane crossing FIFO fill outside 4 to 12 words flushes the crossing and rejects the lane frame. -/
  | laneFifoSlip (l : Nat) (fill : Nat)
  /-- COMMAND_RECEIVED (R365): A command message arriving on a lane is checked for trust, rate limits, identity and address, and is executed, forwarded, or answered. -/
  | commandReceived (l : Nat)
  /-- REPLY_EVENT_RECEIVED (R367): A reply or event from a downstream port is queued upward, or is written by a hub into its event ring. -/
  | replyEventReceived (l : Nat)
  /-- READ (R323): Command 0x01 returns 1 to 4 register words. -/
  | read (c : Cmd)
  /-- WRITE (R323): Command 0x02 writes a register under a mask and returns the result. -/
  | write (c : Cmd)
  /-- TRIGGER (R168): Command 0x03, a headgate action, fires headgate triggers on the named channels. -/
  | trigger (c : Cmd)
  /-- ECHO (R323): Command 0x05 returns its operands unchanged. -/
  | echo (c : Cmd)
  /-- RELEASE (R500): Command 0x10 with the KEY releases the device from cold hold, or is refused. -/
  | release (c : Cmd)
  /-- ATTEST (R525): Command 0x11 starts an HMAC computation over the nonce, number and profile digest, one at a time. -/
  | attest (c : Cmd)
  /-- ATTEST_DONE (R525): The HMAC computation ends and the reply carries the first 16 bytes of the output. -/
  | attestDone
  /-- ASSIGN (R523): Command 0x12 sets the device number if the serial number matches. -/
  | assign (c : Cmd)
  /-- RECORD_RECEIVED (R275): A record taken whole from a downstream port is accepted into the receive FIFO, or is discarded as unassociated, future, late or partial. -/
  | recordReceived (l : Nat)
  /-- HUB_RECORD_CHECK (R263): A hub check engine decodes a record and marks it CORRUPT on failure, with a log entry and a port assay. -/
  | hubRecordCheck (p : Nat)
  /-- HORIZON_VERDICT (R277): At F+40 or F+56 each partner set is judged whole, late or absent, and the frame's records are merged, deduplicated and sorted. -/
  | horizonVerdict
  /-- BUILDER_PROCESS (R284): At F+56+J the coincidence builder forms groups for the anchors of F and emits bundles. -/
  | builderProcess
  /-- ROUTE_DATA_WRITE (R296): A write to MRG_ROUTE_DATA captures the entry number and takes effect at the next boundary. -/
  | routeDataWrite (src : Source) (val : Word)
  /-- HR_CTRL_WRITE (R336): A write to HR_CTRL.ENABLE starts the ring engine, or is refused while rings are not OFF. -/
  | hrCtrlWrite (src : Source) (val : Word)
  /-- RING_ENABLE (R307): An enable through HR_RING_OP reads and checks the ring table entry and index word at the boundary. -/
  | ringEnable (r : Nat) (entry : List Word) (post confirm : Nat)
  /-- RING_DISABLE (R332): A disable through HR_RING_OP takes the ring to STOPPING at the next boundary. -/
  | ringDisable (src : Source) (r : Nat)
  /-- RING_STOPPED (R332): After the final descriptor and head word, the ring-stopped event is written and the ring becomes OFF. -/
  | ringStopped (r : Nat)
  /-- INDEX_WORD_APPLY (R311): The arrived index words are checked and applied, and confirmed egress words are released. -/
  | indexWordApply
  /-- ENTRY_OPEN (R314): When the ring has a record and HEAD < P, the hub opens entry HEAD and fills its buffer. -/
  | entryOpen (r : Nat) (buf : Nat)
  /-- ENTRY_CLOSE (R314): An entry closes on lack of room, ENTRY_FRAMES, the F+126 deadline or a disable. -/
  | entryClose (r : Nat)
  /-- ENTRY_WRITEBACK (R318): In the next frame the descriptor, then the head word with HEAD advanced, are written. -/
  | entryWriteback (r : Nat)
  /-- HEAD_WORD_HEARTBEAT (R317): After HEARTBEAT frames without a write, the head word is refreshed. -/
  | headWordHeartbeat (r : Nat)
  /-- MSIX_SEND (R321): A pending vector whose HOLD has passed sends one MSI-X message, or sets its PBA bit when masked. -/
  | msixSend (v : Nat)
  /-- REPLY_TIMEOUT (R330): An outstanding command with no reply after REPLY_TIMEOUT frames is answered timeout. -/
  | replyTimeout
  /-- EVENTS_LOST_WRITE (R331): When an event ring frees entries, an events-lost descriptor and then the held descriptors are written. -/
  | eventsLostWrite (r : Nat)
  /-- EGRESS_DEADLINE (R230): Records still waiting at the end of F+128 are replaced by loss records for ring full or link down. -/
  | egressDeadline
  /-- LINK_DOWN (R333): The PCI Express link goes down, and the hub writes and sweeps nothing while egress waits. -/
  | linkDown
  /-- LINK_RETRAIN (R333): The link trains again, every enabled receive and event ring is rewound, and the index lines are reread. -/
  | linkRetrain
  /-- AER_EGRESS_ERROR (R231): An uncorrectable AER error on an egress write rewinds the queue. -/
  | aerEgressError (r : Nat)
  /-- PCIE_PERST (R334): PCIE_PERSTn assertion disables every ring, resets the Host rings block, and empties the egress pool. -/
  | pciePerst
  /-- FUNCTION_LEVEL_RESET (R334): A Function Level Reset disables every ring and empties the egress pool. -/
  | functionLevelReset
  /-- D3HOT_ENTRY (R334): A move to D3hot disables every ring and empties the egress pool. -/
  | d3hotEntry
  /-- BAR0_ACCESS (R556): A host request to BAR0 is served one DW at a time, or answered Unsupported Request. -/
  | bar0Access (req : BarReq)
  /-- CONFIG_REQUEST (R522): A configuration request is completed, or gets Retry Status before the endpoint is ready. -/
  | configRequest (q : CfgReq)
  /-- SPI_FRAME (R553): An SPI frame between nCS edges reads words or writes one register, with status on MISO. -/
  | spiFrame (mosi : List Bool) (words : Nat)
  /-- CROSSING_TRANSFER (R388): A multi-bit value crosses by hold and flag, and is loaded or refused on a check error and resent. -/
  | crossingTransfer (g : Nat) (x : CrossStep)
  /-- CROSSING_FLUSH (R392): A reset of one side of a crossing group flushes the surviving side's half. -/
  | crossingFlush (g : Nat) (held : Bool)
  /-- PIPELINE_MISMATCH (R409): The duplicated channel pipelines disagree in a cycle, samples are poisoned, and captures are written off. -/
  | pipelineMismatch (n : Nat) (cyc : Nat)
  /-- SCRUB_READ (R417): The scrubber reads the next word in an idle cycle, correcting and writing back or flagging it uncorrectable. -/
  | scrubRead (mem : Nat) (flips : Nat)
  /-- SCRUB_ROUND_END (R418): Every powered bank completes a lap, the round ends, and a long lap sets LAP_LONG. -/
  | scrubRoundEnd
  /-- ASSAY_BEGIN (R420): A waiting assay begins when its unit is free. -/
  | assayBegin (u : UnitId)
  /-- ASSAY_COMPLETE (R419): An assay ends with transient or lasting, the log entry is updated, and the lasting consequences apply. -/
  | assayComplete (u : UnitId) (lasting : Bool)
  /-- RETIRE_START (R425): MEM_RETIRE_OP.START starts retiring a page or bank, or is refused. -/
  | retireStart (src : Source) (val : Word)
  /-- RETIRE_DONE (R426): A page copy completes or a pool page is released, the spare takes its place, and BUSY clears. -/
  | retireDone
  /-- HK_ENABLE (R466): HK_CTRL.ENABLE starts or stops conversions at the next boundary. -/
  | hkEnable (src : Source) (val : Word)
  /-- HK_CONVERSION_END (R452): A housekeeping conversion ends, and its result is corrected and kept or discarded. -/
  | hkConversionEnd (raw : Int) (ovld refLow limit : Bool)
  /-- HK_LEAD_END (R454): The excitation lead of a burst ends and conversions start with 3 discards. -/
  | hkLeadEnd
  /-- HK_REST_END (R454): The rest of a burst ends and a new burst begins with the excitation on. -/
  | hkRestEnd
  /-- HK_SELFCAL (R459): HK_CTRL.SELFCAL starts a self-calibration at the next conversion boundary, or is refused. -/
  | hkSelfcal (src : Source)
  /-- HK_SELFCAL_DONE (R460): After 36 ms the 16 factors are written, failed gains keep theirs, and CAL_DONE is set. -/
  | hkSelfcalDone (means : List (Int × Int))
  /-- HKBLANK_ASSERT (R457): HKBLANK rises, and the conversion in progress is discarded and the filter cleared. -/
  | hkblankAssert
  /-- HKBLANK_RELEASE (R457): HKBLANK falls, and conversions restart with 3 blanked discards. -/
  | hkblankRelease
  /-- EXC_LIMIT (R453): The excitation driver cannot hold its output, so EXC_LIMIT is set and an event is raised. -/
  | excLimit
  /-- HK_MON_CFG_WRITE (R474): A write to HK_MON_CFG takes effect at once on the HKMON output. -/
  | hkMonCfgWrite (src : Source) (val : Word)
  /-- HK_RESULT_CAPTURE (R472): A read of HK_RESULT captures the result and its info together. -/
  | hkResultCapture
  /-- PWR_MEM_CTRL_WRITE (R485): A change of MD_EN powers a memory domain under admission, or darkens it after the checks. -/
  | pwrMemCtrlWrite (src : Source) (val : Word)
  /-- POWER_OVER_TRIP (R489): POWER_OVER has held for 65,536 frames, and the device trips with cause 0x2. -/
  | powerOverTrip
  /-- SENSOR_GATE_END (R491): The 64 µs gate ends and every sensor's count becomes a reading, accepted or rejected. -/
  | sensorGateEnd (counts : List Nat)
  /-- COLD_HOLD_ENTRY (R497): The last non-kept lane-quad domain goes dark, the state becomes COLD_HOLD, and an event is raised. -/
  | coldHoldEntry
  /-- HOLD_REQ_WRITE (R516): PWR_HOLD.HOLD_REQ requests a trip with cause 0x4 at the next boundary. -/
  | holdReqWrite (src : Source)
  /-- PWR_RELEASE_WRITE (R500): A write of KEY to PWR_RELEASE releases cold hold, or is refused as too hot or as a wrong key. -/
  | pwrReleaseWrite (src : Source) (key : Word)
  /-- HOLD_RELEASED (R501): After an accepted release, the domains power again and the state becomes NORMAL. -/
  | holdReleased
  /-- LDG_DATA_READ (R517): A read of LDG_DATA returns the ledger word and advances WORD. -/
  | ldgDataRead
  /-- REFCLK_LOST (R528): REFCLK is absent for more than 1 µs, so the PLL holds, the clock goes to holdover, and REF_LOST is set. -/
  | refclkLost
  /-- REFCLK_RETURN (R528): REFCLK returns and the PLL starts to relock. -/
  | refclkReturn
  /-- PLL_RELOCK (R528): The PLL relocks and the device raises the reference-returned event with the frames of absence. -/
  | pllRelock
  /-- HM_PROG_DATA_WRITE (R541): A write stores a hallmark staging word and advances WORD. -/
  | hmProgDataWrite (src : Source) (val : Word)
  /-- PROGRAM (R533): HM_PROG_CTRL.PROGRAM checks the sealing conditions and starts blowing the customer area, or refuses. -/
  | program (src : Source)
  /-- SEAL_DONE (R533): The sealing session ends with SEALED blown and RWL locked, or fails on read-back. -/
  | sealDone (readBackOk : Bool)
  /-- ROLE_STRAP_CHANGE (R18): ROLE[1:0] changes after the latch and the new value appears only in GLB_ROLE_STATUS.STRAP_LIVE. -/
  | roleStrapChange (strap : Nat)
  /-- PCIE_PERST_RELEASE (R522): PCIE_PERSTn is released, which starts the 30 ms count to endpoint readiness. -/
  | pciePerstRelease
  /-- LINK_UP (R478): The PCI Express link trains for the first time after a reset; LINK_UP is set, and at ×8 or ×4 the unused quads go dark at the next boundary. -/
  | linkUp (width : Nat)
  /-- READ_COMPLETION (R311): A PCI Express read completion for the doorbell bitmap, an index line or a descriptor arrives; the outstanding sweep read clears and the line is applied at the next boundary. -/
  | readCompletion (c : Completion)
  /-- FLT_LOG_CAPTURE (R440): A read of FLT_LOG_DATA0 captures the selected fault log entry, which the three other data registers then return. -/
  | fltLogCapture
  /-- ONE_COPY_DIFFERS (R405): The per-core-cycle refresh of a device-updated triplicated element finds a copy that differs, rewrites it from the majority, logs the error and raises a voter assay. -/
  | oneCopyDiffers (addr bit copy : Nat)
  /-- RAIL_LIMIT_TRIP (R586): An internal rail leaves its limits, for example under a fast field ramp; PGOOD is released and the device loses power. -/
  | railLimitTrip (blown : Nat)
  deriving DecidableEq, Repr

end Sys2Proof
end

