-- ==== Sys2Proof/Machine/Arith.lean ====
section
/-! DEFINITION. Plain arithmetic shared by every family: bits of a number, two's complement, saturation, words and bytes,
and tables held as lists of (key, value) pairs with keys rising. -/
namespace Sys2Proof.Machine

/-- Bits [lo + width - 1 : lo] of `n` (R7). -/
def bits (n lo width : Nat) : Nat := n / 2 ^ lo % 2 ^ width

/-- Bit `i` of `n` as a truth value. -/
def bitOf (n i : Nat) : Bool := n / 2 ^ i % 2 == 1

/-- 1 for true. -/
def b2n (b : Bool) : Nat := if b then 1 else 0

/-- The number whose bits [lo + width - 1 : lo] are `v`, other bits 0. -/
def fieldAt (lo width v : Nat) : Nat := v % 2 ^ width * 2 ^ lo

/-- A word built from (low bit, width, value) fields that do not overlap. -/
def pack (fs : List (Nat × Nat × Nat)) : Nat := (fs.map fun f => fieldAt f.1 f.2.1 f.2.2).sum

/-- `n` with bit `i` set. -/
def setBit (n i : Nat) : Nat := if bitOf n i then n else n + 2 ^ i

/-- `n` with bit `i` cleared. -/
def clearBit (n i : Nat) : Nat := if bitOf n i then n - 2 ^ i else n

/-- Positions of the set bits of `n` below `w`, lowest first. -/
def setBits (n w : Nat) : List Nat := (List.range w).filter fun i => bitOf n i

/-- Number of set bits of `n` below `w`. -/
def popCount (n w : Nat) : Nat := (setBits n w).length

/-- The mask with the bits named in the list set. -/
def maskOf (l : List Nat) : Nat := l.foldl setBit 0

/-- Two's complement reading of the low `w` bits. -/
def toSigned (w n : Nat) : Int :=
  if n % 2 ^ w < 2 ^ (w - 1) then (n % 2 ^ w : Int) else (n % 2 ^ w : Int) - 2 ^ w

/-- The low `w` bits of an integer in two's complement. -/
def ofSigned (w : Nat) (i : Int) : Nat := (i % (2 ^ w : Int)).toNat

/-- `i` held within a signed field of `w` bits. -/
def satSigned (w : Nat) (i : Int) : Int := max (-(2 ^ (w - 1) : Int)) (min i (2 ^ (w - 1) - 1))

/-- `i` held between `lo` and `hi`. -/
def clampI (lo hi i : Int) : Int := max lo (min i hi)

/-- `n` held between `lo` and `hi`. -/
def clampN (lo hi n : Nat) : Nat := max lo (min n hi)

/-- Floor division of an integer by a positive number. -/
def floorDiv (a : Int) (b : Int) : Int := Int.fdiv a b

/-- Rounding to the nearest integer, halves toward plus infinity: floor (a / b + 1/2). -/
def roundDiv (a b : Int) : Int := Int.fdiv (2 * a + b) (2 * b)

/-- Largest r with r² ≤ n, by one bit a step from bit `k` down. -/
def isqrtFrom (n : Nat) : Nat → Nat → Nat
  | 0, r => if (r + 1) * (r + 1) ≤ n then r + 1 else r
  | k + 1, r => let c := r + 2 ^ (k + 1)
                isqrtFrom n k (if c * c ≤ n then c else r)

/-- Integer square root of a number below 2^128. -/
def isqrt (n : Nat) : Nat := isqrtFrom n 64 0

/-- Signed difference a - b of two 32-bit frame indices (R11). -/
def fiDiff (a b : Nat) : Int := toSigned 32 (a + 2 ^ 32 - b % 2 ^ 32)

/-- The unsigned difference a - b of two 32-bit counts (R305). -/
def cntDiff (a b : Nat) : Nat := (a + 2 ^ 32 - b % 2 ^ 32) % 2 ^ 32

/-- Word `k` of a list of numbers, 0 beyond its end. -/
def nth (l : List Nat) (k : Nat) : Nat := l.getD k 0

/-- A number as a 32-bit word. -/
def w32 (n : Nat) : Word := BitVec.ofNat 32 n

/-- Words as numbers. -/
def natsOf (ws : List Word) : List Nat := ws.map BitVec.toNat

/-- Numbers as words. -/
def wordsOf (ns : List Nat) : List Word := ns.map w32

/-- The four bytes of a word, least significant first (R8). -/
def wordBytes (n : Nat) : List Nat := [n % 256, n / 256 % 256, n / 65536 % 256, n / 16777216 % 256]

/-- The bytes of words in the order sent. -/
def bytesOf (ns : List Nat) : List Nat := ns.flatMap wordBytes

/-- Words from bytes, least significant first, a final part filled with 0. -/
def wordsOfBytes : List Nat → List Nat
  | a :: b :: c :: d :: t => (a + 256 * b + 65536 * c + 16777216 * d) :: wordsOfBytes t
  | [a, b, c] => [a + 256 * b + 65536 * c]
  | [a, b] => [a + 256 * b]
  | [a] => [a]
  | [] => []

/-- 16-bit values two to a word, the first in [15:0], a final half of 0 (R213). -/
def packHalves : List Nat → List Nat
  | a :: b :: t => (a % 65536 + 65536 * (b % 65536)) :: packHalves t
  | [a] => [a % 65536]
  | [] => []

/-- The halves of words in the same order. -/
def halvesOf (ns : List Nat) : List Nat := ns.flatMap fun n => [n % 65536, n / 65536 % 65536]

/-- The value at key `k`, or `dflt` where the table has none. -/
def getT {α : Type} (dflt : α) (k : Nat) : List (Nat × α) → α
  | [] => dflt
  | (j, v) :: t => if j = k then v else getT dflt k t

/-- The table with `v` at key `k`, keys rising. -/
def putT {α : Type} (k : Nat) (v : α) : List (Nat × α) → List (Nat × α)
  | [] => [(k, v)]
  | (j, w) :: t => if k < j then (k, v) :: (j, w) :: t else if k = j then (k, v) :: t else (j, w) :: putT k v t

/-- The table without key `k`. -/
def delT {α : Type} (k : Nat) (t : List (Nat × α)) : List (Nat × α) := t.filter fun p => p.1 ≠ k

/-- Writing a table whose unlisted keys read 0, in canonical form: a value of 0 removes the entry. -/
def putZ (k v : Nat) (t : List (Nat × Nat)) : List (Nat × Nat) := if v = 0 then delT k t else putT k v t

/-- Whether keys rise strictly and no entry is 0: the canonical form of a table whose unlisted keys read 0. -/
def wfZ : List (Nat × Nat) → Bool
  | [] => true
  | [p] => p.2 != 0
  | p :: q :: t => p.2 != 0 && decide (p.1 < q.1) && wfZ (q :: t)

/-- The first element of least key. -/
def minBy? {α : Type} (key : α → Int) : List α → Option α
  | [] => none
  | x :: t => match minBy? key t with
              | none => some x
              | some y => if key x ≤ key y then some x else some y

/-- Insertion before the first element that `lt` puts after `x`: earlier elements stay before equal ones. -/
def insertBy {α : Type} (lt : α → α → Bool) (x : α) : List α → List α
  | [] => [x]
  | y :: t => if lt x y then x :: y :: t else y :: insertBy lt x t

/-- Stable insertion sort: equal elements keep their order. -/
def sortBy {α : Type} (lt : α → α → Bool) (l : List α) : List α := l.foldl (fun acc x => insertBy lt x acc) []

/-- Elements without later repeats. -/
def dedupBy {α : Type} (eq : α → α → Bool) : List α → List α
  | [] => []
  | x :: t => x :: (dedupBy eq t).filter fun y => !eq x y

/-- The position of the first element that meets `p`. -/
def firstIdx? {α : Type} (p : α → Bool) : Nat → List α → Option Nat
  | _, [] => none
  | i, x :: t => if p x then some i else firstIdx? p (i + 1) t

/-- `l` with `f` applied to the first element that meets `p`. -/
def updFirst {α : Type} (p : α → Bool) (f : α → α) : List α → List α
  | [] => []
  | x :: t => if p x then f x :: t else x :: updFirst p f t

/-- Numbers lo, lo + 1, …, hi − 1. -/
def rangeFrom (lo hi : Nat) : List Nat := (List.range (hi - lo)).map (· + lo)

end Sys2Proof.Machine
end

