-- ==== Sys2Proof/Machine/Crc.lean ====
section
/-! DEFINITION. CRC-32C (R17, in the reflected form of R213), and SHA-256 with HMAC (R525). The constants of SHA-256 are
those of FIPS 180-4, which R525 names and does not print (PRESUMED, log entry 9). -/
namespace Sys2Proof.Machine

/-- One bit of the reflected CRC-32C division. -/
def crcBit (c : Nat) : Nat := if c % 2 = 1 then c / 2 ^^^ 0x82F63B78 else c / 2

/-- One byte of the reflected CRC-32C division. -/
def crcByte (c b : Nat) : Nat :=
  crcBit (crcBit (crcBit (crcBit (crcBit (crcBit (crcBit (crcBit (c ^^^ (b % 256)))))))))

/-- CRC-32C of bytes: initial value and final exclusive-or 0xFFFF_FFFF. -/
def crc32c (bs : List Nat) : Nat := bs.foldl crcByte 0xFFFFFFFF ^^^ 0xFFFFFFFF

/-- CRC-32C of words, each least significant byte first. -/
def crcWords (ws : List Nat) : Nat := crc32c (bytesOf ws)

/-- The primes up to 311, of which there are 64: a number below 19² that none of the seven primes below 19 divides is prime. -/
def shaPrimes : List Nat :=
  let small := [2, 3, 5, 7, 11, 13, 17]
  small ++ (rangeFrom 18 312).filter fun n => small.all fun p => n % p != 0

/-- Largest r below 2^`k` above `r` whose `e`-th power does not pass `n`, bit by bit from bit k - 1 down. -/
def rootFrom (e n : Nat) : Nat → Nat → Nat
  | 0, r => r
  | k + 1, r => rootFrom e n k (if (r + 2 ^ k) ^ e ≤ n then r + 2 ^ k else r)

/-- First 32 bits of the fractional part of the `e`-th root of `p`. -/
def rootFrac (e p : Nat) : Nat := rootFrom e (p * 2 ^ (32 * e)) 37 0 % 2 ^ 32

/-- The 64 round constants of SHA-256: fractional parts of the cube roots of the first 64 primes. -/
def shaK : List Nat := shaPrimes.map (rootFrac 3)

/-- The initial hash value of SHA-256: fractional parts of the square roots of the first 8 primes. -/
def shaH0 : List Nat := (shaPrimes.take 8).map (rootFrac 2)

/-- Rotation of a 32-bit number to the right. -/
def rotr (n x : Nat) : Nat := x / 2 ^ n + x % 2 ^ n * 2 ^ (32 - n)

/-- Sum modulo 2^32. -/
def add32 (a b : Nat) : Nat := (a + b) % 2 ^ 32

/-- The next word of the message schedule from the 16 before it, newest first. -/
def shaNext (w : List Nat) : Nat :=
  let w2 := nth w 1
  let w15 := nth w 14
  let s1 := rotr 17 w2 ^^^ rotr 19 w2 ^^^ w2 / 1024
  let s0 := rotr 7 w15 ^^^ rotr 18 w15 ^^^ w15 / 8
  (s1 + nth w 6 + s0 + nth w 15) % 2 ^ 32

/-- The schedule of `n` further words, newest first. -/
def shaExtend : Nat → List Nat → List Nat
  | 0, w => w
  | n + 1, w => shaExtend n (shaNext w :: w)

/-- One round on the eight working variables a to h. -/
def shaRound (v : List Nat) (kw : Nat) : List Nat :=
  match v with
  | [a, b, c, d, e, f, g, h] =>
    let t1 := (h + (rotr 6 e ^^^ rotr 11 e ^^^ rotr 25 e) + ((e &&& f) ^^^ ((e ^^^ 0xFFFFFFFF) &&& g)) + kw) % 2 ^ 32
    let t2 := (rotr 2 a ^^^ rotr 13 a ^^^ rotr 22 a) + ((a &&& b) ^^^ (a &&& c) ^^^ (b &&& c))
    [add32 t1 t2, a, b, c, add32 d t1, e, f, g]
  | _ => v

/-- Compression of one block of 16 words. -/
def shaBlock (h : List Nat) (blk : List Nat) : List Nat :=
  let ws := (shaExtend 48 blk.reverse).reverse
  let v := (List.zipWith (· + ·) shaK ws).foldl shaRound h
  List.zipWith add32 h v

/-- Words of a big-endian byte string. -/
def beWords : List Nat → List Nat
  | a :: b :: c :: d :: t => (a * 16777216 + b * 65536 + c * 256 + d) :: beWords t
  | _ => []

/-- Bytes of a word, most significant first. -/
def beBytes (n : Nat) : List Nat := [n / 16777216 % 256, n / 65536 % 256, n / 256 % 256, n % 256]

/-- The message with its padding: 0x80, zeros and the length in bits as 64 bits. -/
def shaPad (m : List Nat) : List Nat :=
  let z := (119 - m.length % 64) % 64
  m ++ [0x80] ++ List.replicate z 0 ++ beBytes (m.length * 8 / 2 ^ 32) ++ beBytes (m.length * 8)

/-- Blocks of 16 words, `n` at most. -/
def shaBlocks : Nat → List Nat → List Nat → List Nat
  | 0, h, _ => h
  | _ + 1, h, [] => h
  | n + 1, h, ws => shaBlocks n (shaBlock h (ws.take 16)) (ws.drop 16)

/-- SHA-256 of a byte string, 32 bytes. -/
def sha256 (m : List Nat) : List Nat :=
  let ws := beWords (shaPad m)
  (shaBlocks (ws.length / 16) shaH0 ws).flatMap beBytes

/-- HMAC-SHA-256 with a key of at most 64 bytes (FIPS 198-1). -/
def hmacSha256 (key m : List Nat) : List Nat :=
  let k := key ++ List.replicate (64 - key.length) 0
  sha256 (k.map (· ^^^ 0x5c) ++ sha256 (k.map (· ^^^ 0x36) ++ m))

end Sys2Proof.Machine
end

