-- ==== Sys2Proof/Machine/Codec.lean ====
section
/-! DEFINITION. Sample payloads (06, 07): raw packing (R213, R215), the compressed bit stream (R246 to R254), the device's choice of
code (R255) and the decoder with its checks (R261). -/
namespace Sys2Proof.Machine

/-! ### Raw packing -/

/-- Bytes of the samples in the raw packing, without padding (R213, R215): 2 or 3 to a sample, least significant first. -/
def sampleBytes (w : Nat) (xs : List Int) : List Nat :=
  xs.flatMap fun x => (wordBytes (ofSigned w x)).take (w / 8)

/-- Raw payload words. -/
def rawPayload (w : Nat) (xs : List Int) : List Nat := wordsOfBytes (sampleBytes w xs)

/-- Length of the raw payload of n samples (R254). -/
def rawLen (w n : Nat) : Nat := (n * (w / 8) + 3) / 4

/-- The sample check word (R213). -/
def checkWord (w : Nat) (xs : List Int) : Nat := crc32c (sampleBytes w xs)

/-! ### Prediction and residuals (R250, R251) -/

/-- wrap(v) of R251. -/
def wrapW (w : Nat) (v : Int) : Int := (v + 2 ^ (w - 1)) % 2 ^ w - 2 ^ (w - 1)

/-- Zigzag value of a residual. -/
def zigzag (e : Int) : Nat := if 0 ≤ e then (2 * e).toNat else (-2 * e - 1).toNat

/-- Residual of a zigzag value. -/
def unzigzag (u : Nat) : Int := if u % 2 = 0 then ((u / 2 : Nat) : Int) else -(((u + 1) / 2 : Nat) : Int)

/-- Prediction from the two samples before (x1 the nearer) and r[i], r[i−1] (R250). -/
def predict (p : Nat) (x1 x2 r r1 : Int) : Int :=
  match p with
  | 0 => 0
  | 1 => x1
  | 2 => 2 * x1 - x2
  | 3 => x1 + r - r1
  | _ => x1 + floorDiv (r - r1) 2

/-- Zigzag residuals of (sample, reference sample) pairs under predictor p. -/
def residuals (w p : Nat) : Int → Int → Int → List (Int × Int) → List Nat
  | _, _, _, [] => []
  | x1, x2, r1, (x, r) :: t => zigzag (wrapW w (x - predict p x1 x2 r r1)) :: residuals w p x x1 r t

/-! ### Codes (R249, R252) -/

/-- Length of the code of u. -/
def codeCost (w u k : Nat) : Nat :=
  if k = 15 then w else if u / 2 ^ k < 15 then u / 2 ^ k + 1 + k else 15 + w

/-- The low n bits of v, most significant first (R248). -/
def msbBits (n v : Nat) : List Bool := ((List.range n).map fun i => bitOf v i).reverse

/-- The code of u. -/
def codeBits (w u k : Nat) : List Bool :=
  if k = 15 then msbBits w u
  else if u / 2 ^ k < 15 then List.replicate (u / 2 ^ k) false ++ true :: msbBits k u
  else List.replicate 15 false ++ msbBits w u

/-- Bits packed into words from bit 31 down, the last word filled with 0 (R248, R253). -/
def packBits : Nat → List Bool → List Nat
  | 0, _ => []
  | n + 1, bs => ((bs.take 32 ++ List.replicate (32 - bs.length) false).foldl (fun a b => 2 * a + b2n b) 0) :: packBits n (bs.drop 32)

/-! ### Encoding (R255) -/

/-- The smallest block, lowest PRED and then lowest K on a tie: predictor, K and the residuals. -/
def chooseCode (w : Nat) (ps : List Nat) (x1 x2 r1 : Int) (blk : List (Int × Int)) : Option (Nat × Nat × List Nat) :=
  let us := ps.map fun p => (p, residuals w p x1 x2 r1 blk)
  let cand := us.flatMap fun q => (List.range 16).map fun k => (q.1, k, q.2)
  minBy? (fun c => ((c.2.2.map fun u => codeCost w u c.2.1).sum : Int)) cand

/-- The blocks of a record from a block border on; `n` bounds the blocks. -/
def encodeBlocks (w : Nat) (ps : List Nat) : Nat → Int → Int → Int → List (Int × Int) → List Bool
  | 0, _, _, _, _ => []
  | n + 1, x1, x2, r1, xs =>
    match xs with
    | [] => []
    | _ =>
      let blk := xs.take 32
      let code := match chooseCode w ps x1 x2 r1 blk with
        | some c => msbBits 3 c.1 ++ msbBits 4 c.2.1 ++ c.2.2.flatMap fun u => codeBits w u c.2.1
        | none => []
      let e := blk.reverse
      let last := (e.getD 0 (x1, r1))
      let prev := (e.getD 1 (x1, r1))
      code ++ encodeBlocks w ps n last.1 prev.1 last.2 (xs.drop 32)

/-- The preamble word (R247). -/
def preamble (ref : Option (Nat × Nat)) : Nat :=
  match ref with
  | some r => pack [(0, 4, 1), (4, 1, 1), (5, 6, r.1), (16, 16, r.2)]
  | none => 1

/-- The compressed payload of samples with allowed predictors `ps`; `ref` names the reference, `rs` are its samples. -/
def encodeRecord (w : Nat) (ps : List Nat) (ref : Option (Nat × Nat)) (xs rs : List Int) : List Nat :=
  let pairs := xs.zipIdx.map fun p => (p.1, rs.getD p.2 0)
  let bs := encodeBlocks w ps ((xs.length + 31) / 32) 0 0 0 pairs
  preamble ref :: packBits ((bs.length + 31) / 32) bs

/-! ### Decoding (R261) -/

/-- n bits from the front of a stream. -/
def takeBits (n : Nat) (bs : List Bool) : Option (Nat × List Bool) :=
  if bs.length < n then none else some ((bs.take n).foldl (fun a b => 2 * a + b2n b) 0, bs.drop n)

/-- Zero bits at the front, at most 15. -/
def zeroRun (bs : List Bool) : Nat := ((bs.take 15).takeWhile (!·)).length

/-- One code. -/
def takeCode (w k : Nat) (bs : List Bool) : Option (Nat × List Bool) :=
  if k = 15 then takeBits w bs
  else
    let q := zeroRun bs
    if q = 15 then takeBits w (bs.drop 15)
    else if bs.length ≤ q then none
    else (takeBits k (bs.drop (q + 1))).map fun r => (q * 2 ^ k + r.1, r.2)

/-- What a decoder makes of a payload: a cause of R261 or the samples. -/
inductive Decoded where
  | bad (cause : Nat)
  | ok (xs : List Int)
  deriving DecidableEq, Repr

/-- Samples from index `i` on, `n` to go, under predictor p and parameter k of the current block. -/
def decodeGo (w : Nat) (ref : Option (List Int)) : Nat → Nat → Nat → Nat → Int → Int → List Int → List Bool → Decoded
  | 0, _, _, _, _, _, acc, bs => if 32 ≤ bs.length || bs.any id then .bad 4 else .ok acc.reverse
  | n + 1, i, p, k, x1, x2, acc, bs =>
    let head : Option (Nat × Nat × List Bool) :=
      if i % 32 = 0 then
        match takeBits 3 bs with
        | none => none
        | some a => (takeBits 4 a.2).map fun b => (a.1, b.1, b.2)
      else some (p, k, bs)
    match head with
    | none => .bad 3
    | some (p, k, bs) =>
      if 4 < p || (3 ≤ p && ref.isNone) then .bad 2
      else match takeCode w k bs with
        | none => .bad 3
        | some (u, bs) =>
          let rs := ref.getD []
          let at' (j : Nat) : Int := if j = 0 then 0 else rs.getD (j - 1) 0
          let x := wrapW w (predict p x1 x2 (at' (i + 1)) (at' i) + unzigzag u)
          decodeGo w ref n (i + 1) p k x x1 (x :: acc) bs

/-- A compressed payload decoded to n samples of width w. `ref` is the reference's samples where XREF may use them. -/
def decodePayload (w n : Nat) (ref : Option (List Int)) (ws : List Nat) : Decoded :=
  decodeGo w ref n 0 0 0 0 0 [] ((ws.drop 1).flatMap fun x => msbBits 32 x)

/-- The preamble's checks (R261): 0x3 before 0x1 where there is none, 0x1 for its version and reserved bits. -/
def preambleCause (ws : List Nat) : Option Nat :=
  match ws with
  | [] => some 3
  | p :: _ => if p % 16 ≠ 1 ∨ bits p 11 5 ≠ 0 then some 1 else none

/-- The channel and SEQ of the reference a preamble names. -/
def preambleRef (ws : List Nat) : Option (Nat × Nat) :=
  match ws with
  | [] => none
  | p :: _ => if bitOf p 4 then some (bits p 5 6, bits p 16 16) else none

/-- The samples of a raw payload of n samples as it stands. -/
def rawSamples (w n : Nat) (ws : List Nat) : List Int :=
  let bs := bytesOf ws
  (List.range n).map fun i =>
    toSigned w (((bs.drop (i * (w / 8))).take (w / 8)).foldr (fun b a => b + 256 * a) 0)

/-- The check of a decoded payload against the check word (0x5). -/
def checked (w check : Nat) : Decoded → Decoded
  | .bad c => .bad c
  | .ok xs => if checkWord w xs = check then .ok xs else .bad 5

end Sys2Proof.Machine
end

