-- ==== Sys2Proof/Config.lean ====
section
/-! DEFINITION. What an implementation fixes and the manual leaves open: free values, with no body, so that no proof can
rest on a number (log entries 3 and 4). -/
namespace Sys2Proof.Config

/-- FREE VALUE. CODE of an event of classes 0x01 to 0x06: R329 sends the reader to the owning chapters, which name the
causes (time, acquisition, TDC, triggers, records, merging) and give no numbers. `cause` is the model's index of the cause
within the class, no code of the device. -/
opaque eventCode : (cls cause : Nat) → Nat

/-- FREE VALUE. Data word `k` (4 to 7) of such an event beyond the words the model's cause names. -/
opaque eventData : (cls cause k : Nat) → Nat

/-- FREE VALUE number `n`: a value the manual calls undefined or does not state; `State.free` counts them. -/
opaque freeValue : (n : Nat) → Nat

end Sys2Proof.Config
end

