-- ==== Sys2Proof/Machine/Regs.lean ====
section
/-! DEFINITION. The register map (R566, and the field table of every register's own rule): one `Fld` per field with its
address, place, width, access type (R14), reset value and whether a software write reaches the device's behaviour only at
the next frame boundary (`sync`, R25 and the field's own description), and `regTable`, the registers by address.
A reset marked "Per role", "From hallmark", "Fused", "From ledger" or "Strap value" is 0 here: R550 says such a field reads
0 until step 2 or step 3 of bring-up loads it. -/
namespace Sys2Proof.Machine

/-- Access types of R14. -/
inductive Access where
  | rw | ro | w1c | w1s | wo | rwl
  deriving DecidableEq, Repr

/-- One register field: address of its word, lowest bit, width, access type, reset value, and whether a write takes
effect at the next frame boundary. -/
structure Fld where
  addr : Nat
  lo : Nat
  width : Nat
  acc : Access
  reset : Nat
  sync : Bool
  deriving DecidableEq, Repr

/-- The field's key in the register store: its bit position in the register space. -/
def Fld.key (f : Fld) : Nat := f.addr * 32 + f.lo

/-- A register, or a row of registers at one stride (R13), with the fields of its word. -/
structure RegDesc where
  base : Nat
  stride : Nat
  count : Nat
  flds : Nat → List Fld

/-- Whether address `a` is one of the register's words (R546: bits [1:0] already cleared). -/
def RegDesc.covers (d : RegDesc) (a : Nat) : Bool :=
  decide (d.base ≤ a) && decide ((a - d.base) % d.stride = 0) && decide ((a - d.base) / d.stride < d.count)

namespace Reg

/-- R558. -/
def ID_PART_PART : Fld := ⟨0x0, 0, 16, .ro, 72, false⟩
/-- R558. -/
def ID_PART_VENDOR : Fld := ⟨0x0, 16, 16, .ro, 7548, false⟩
/-- R558. -/
def ID_STEP_LETTER : Fld := ⟨0x4, 0, 8, .ro, 0, false⟩
/-- R558. -/
def ID_STEP_DIGIT : Fld := ⟨0x4, 8, 8, .ro, 0, false⟩
/-- R558. -/
def ID_STEP_GRADE : Fld := ⟨0x4, 16, 2, .ro, 0, false⟩
/-- R558. -/
def ID_CAP_ROOT_FIRST : Fld := ⟨0x8, 0, 8, .ro, 0, false⟩
/-- R558. -/
def ID_SERIAL_LO_SERIAL_LO : Fld := ⟨0xC, 0, 32, .ro, 0, false⟩
/-- R558. -/
def ID_SERIAL_HI_SERIAL_HI : Fld := ⟨0x10, 0, 32, .ro, 0, false⟩
/-- R558. -/
def ID_LOT_LOT : Fld := ⟨0x14, 0, 24, .ro, 0, false⟩
/-- R558. -/
def ID_LOT_WAFER : Fld := ⟨0x14, 24, 5, .ro, 0, false⟩
/-- R558. -/
def ID_DIE_DIE_X : Fld := ⟨0x18, 0, 8, .ro, 0, false⟩
/-- R558. -/
def ID_DIE_DIE_Y : Fld := ⟨0x18, 8, 8, .ro, 0, false⟩
/-- R558. -/
def ID_PATTERN_PATTERN : Fld := ⟨0x1C, 0, 32, .ro, 1520766960, false⟩
/-- R39. -/
def GLB_ROLE_STATUS_STRAP_LATCHED : Fld := ⟨0x100, 0, 2, .ro, 0, false⟩
/-- R39. -/
def GLB_ROLE_STATUS_STRAP_LIVE : Fld := ⟨0x100, 2, 2, .ro, 0, false⟩
/-- R39. -/
def GLB_ROLE_STATUS_PERMITTED : Fld := ⟨0x100, 4, 3, .ro, 0, false⟩
/-- R39. -/
def GLB_ROLE_STATUS_ACTIVE_ROLE : Fld := ⟨0x100, 7, 2, .ro, 3, false⟩
/-- R39. -/
def GLB_ROLE_STATUS_ROLE_FIXED : Fld := ⟨0x100, 9, 1, .ro, 0, false⟩
/-- R39. -/
def GLB_ROLE_STATUS_ROLE_REFUSED : Fld := ⟨0x100, 10, 1, .ro, 0, false⟩
/-- R39. -/
def GLB_ROLE_STATUS_CFG_REFUSED : Fld := ⟨0x100, 11, 1, .w1c, 0, false⟩
/-- R40. -/
def GLB_ROLE_CFG_UPLINK_MASK : Fld := ⟨0x104, 0, 8, .rw, 255, true⟩
/-- R41. -/
def GLB_DEVICE_NUMBER_DEVNUM : Fld := ⟨0x108, 0, 16, .rw, 0, true⟩
/-- R41. -/
def GLB_DEVICE_NUMBER_VALID : Fld := ⟨0x108, 16, 1, .rw, 0, true⟩
/-- R42. -/
def GLB_LADDER_LATE_LATE_RECORDS : Fld := ⟨0x10C, 0, 32, .ro, 0, false⟩
/-- R43. -/
def GLB_LADDER_LOSS_LOSS_RECORDS : Fld := ⟨0x110, 0, 32, .ro, 0, false⟩
/-- R44. -/
def GLB_SLUICE_SLIP_SLIP_SHORT : Fld := ⟨0x114, 0, 16, .ro, 0, false⟩
/-- R44. -/
def GLB_SLUICE_SLIP_SLIP_LONG : Fld := ⟨0x114, 16, 16, .ro, 0, false⟩
/-- R536. -/
def GLB_BRINGUP_STATUS_RAILS_OK : Fld := ⟨0x118, 0, 1, .ro, 0, false⟩
/-- R536. -/
def GLB_BRINGUP_STATUS_HM_READ_DONE : Fld := ⟨0x118, 1, 1, .ro, 0, false⟩
/-- R536. -/
def GLB_BRINGUP_STATUS_REF_WAIT : Fld := ⟨0x118, 2, 1, .ro, 0, false⟩
/-- R536. -/
def GLB_BRINGUP_STATUS_ROLE_FIXED : Fld := ⟨0x118, 3, 1, .ro, 0, false⟩
/-- R536. -/
def GLB_BRINGUP_STATUS_RAMP_DONE : Fld := ⟨0x118, 4, 1, .ro, 0, false⟩
/-- R536. -/
def GLB_BRINGUP_STATUS_ANY_FRAMED : Fld := ⟨0x118, 5, 1, .ro, 0, false⟩
/-- R536. -/
def GLB_BRINGUP_STATUS_ANY_ATTESTED : Fld := ⟨0x118, 6, 1, .ro, 0, false⟩
/-- R536. -/
def GLB_BRINGUP_STATUS_ANY_FULL : Fld := ⟨0x118, 7, 1, .ro, 0, false⟩
/-- R536. -/
def GLB_BRINGUP_STATUS_DATA_STARTED : Fld := ⟨0x118, 8, 1, .ro, 0, false⟩
/-- R536. -/
def GLB_BRINGUP_STATUS_FULL_SERVICE : Fld := ⟨0x118, 9, 1, .ro, 0, false⟩
/-- R537. -/
def GLB_DATA_START_FI : Fld := ⟨0x11C, 0, 32, .ro, 0, false⟩
/-- R537. -/
def GLB_FULL_SERVICE_FI_FI : Fld := ⟨0x120, 0, 32, .ro, 0, false⟩
/-- R72. -/
def TIM_CTRL_SERVO_EN : Fld := ⟨0x1000, 0, 1, .rw, 1, false⟩
/-- R72. -/
def TIM_CTRL_AUTO_SWITCH : Fld := ⟨0x1000, 1, 1, .rw, 1, false⟩
/-- R72. -/
def TIM_CTRL_PREFER : Fld := ⟨0x1000, 2, 1, .rw, 0, false⟩
/-- R72. -/
def TIM_CTRL_FORCE : Fld := ⟨0x1000, 3, 1, .wo, 0, false⟩
/-- R72. -/
def TIM_CTRL_HOLD_REQ : Fld := ⟨0x1000, 4, 1, .rw, 0, false⟩
/-- R72. -/
def TIM_CTRL_FREE : Fld := ⟨0x1000, 5, 1, .rw, 0, false⟩
/-- R72. -/
def TIM_CTRL_PHASE_AVG_K : Fld := ⟨0x1000, 8, 5, .rw, 8, false⟩
/-- R72. -/
def TIM_CTRL_SWITCH_REFUSED : Fld := ⟨0x1000, 16, 1, .w1c, 0, false⟩
/-- R73. -/
def TIM_STATUS_CLK_STATE : Fld := ⟨0x1004, 0, 3, .ro, 0, false⟩
/-- R73. -/
def TIM_STATUS_SELECTED : Fld := ⟨0x1004, 3, 1, .ro, 0, false⟩
/-- R73. -/
def TIM_STATUS_DOM_A_STATE : Fld := ⟨0x1004, 4, 3, .ro, 0, false⟩
/-- R73. -/
def TIM_STATUS_DOM_B_STATE : Fld := ⟨0x1004, 7, 3, .ro, 0, false⟩
/-- R73. -/
def TIM_STATUS_STAMPS_REFINED : Fld := ⟨0x1004, 10, 1, .ro, 0, false⟩
/-- R73. -/
def TIM_STATUS_ASYM_WATCH : Fld := ⟨0x1004, 11, 1, .ro, 0, false⟩
/-- R73. -/
def TIM_STATUS_TOD_MISMATCH : Fld := ⟨0x1004, 12, 1, .w1c, 0, false⟩
/-- R73. -/
def TIM_STATUS_PPS_OUT_OF_BAND : Fld := ⟨0x1004, 13, 1, .w1c, 0, false⟩
/-- R73. -/
def TIM_STATUS_STEPPED : Fld := ⟨0x1004, 14, 1, .w1c, 0, false⟩
/-- R74. -/
def TIM_NOW_SEC_LO_SEC_LO : Fld := ⟨0x1008, 0, 32, .ro, 0, false⟩
/-- R74. -/
def TIM_NOW_SEC_HI_SEC_HI : Fld := ⟨0x100C, 0, 16, .ro, 0, false⟩
/-- R74. -/
def TIM_NOW_SEC_HI_FRAC : Fld := ⟨0x100C, 16, 16, .ro, 0, false⟩
/-- R74. -/
def TIM_NOW_NS_NS : Fld := ⟨0x1010, 0, 30, .ro, 0, false⟩
/-- R74. -/
def TIM_NOW_FI_FI : Fld := ⟨0x1014, 0, 32, .ro, 0, false⟩
/-- R75. -/
def TIM_SERVO_KP_KP : Fld := ⟨0x1018, 0, 16, .rw, 128, true⟩
/-- R76. -/
def TIM_SERVO_KI_KI : Fld := ⟨0x101C, 0, 16, .rw, 4096, true⟩
/-- R77. -/
def TIM_SERVO_LIMITS_SLEW_LIMIT : Fld := ⟨0x1020, 0, 13, .rw, 6553, false⟩
/-- R77. -/
def TIM_SERVO_LIMITS_LOCK_THRESH : Fld := ⟨0x1020, 16, 16, .rw, 1311, false⟩
/-- R78. -/
def TIM_SERVO_INTEG_INTEG : Fld := ⟨0x1024, 0, 32, .ro, 0, false⟩
/-- R79. -/
def TIM_DOM_CFG_PORT (i : Nat) : Fld := ⟨0x1030 + 0x4 * i, 0, 6, .rw, 0, false⟩
/-- R79. -/
def TIM_DOM_CFG_ENABLE (i : Nat) : Fld := ⟨0x1030 + 0x4 * i, 6, 1, .rw, 0, false⟩
/-- R79. -/
def TIM_DOM_CFG_CFG_ERR (i : Nat) : Fld := ⟨0x1030 + 0x4 * i, 7, 1, .w1c, 0, false⟩
/-- R79. -/
def TIM_DOM_CFG_EXPECT_ID (i : Nat) : Fld := ⟨0x1030 + 0x4 * i, 8, 8, .rw, 0, false⟩
/-- R79. -/
def TIM_DOM_CFG_LOST_TIMEOUT (i : Nat) : Fld := ⟨0x1030 + 0x4 * i, 16, 8, .rw, 16, false⟩
/-- R80. -/
def TIM_DOM_ASYM_ASYM (i : Nat) : Fld := ⟨0x1038 + 0x4 * i, 0, 32, .rw, 0, true⟩
/-- R81. -/
def TIM_DOM_OFS_OFS (i : Nat) : Fld := ⟨0x1040 + 0x4 * i, 0, 32, .ro, 2147483648, false⟩
/-- R82. -/
def TIM_DOM_DELAY_DELAY (i : Nat) : Fld := ⟨0x1048 + 0x4 * i, 0, 32, .ro, 0, false⟩
/-- R83. -/
def TIM_ASYM_CTRL_STEP_THRESH : Fld := ⟨0x1050, 0, 16, .rw, 3277, false⟩
/-- R83. -/
def TIM_ASYM_CTRL_WINDOW : Fld := ⟨0x1050, 16, 10, .rw, 1000, false⟩
/-- R83. -/
def TIM_ASYM_CTRL_CLEAR_A : Fld := ⟨0x1050, 26, 1, .wo, 0, false⟩
/-- R83. -/
def TIM_ASYM_CTRL_CLEAR_B : Fld := ⟨0x1050, 27, 1, .wo, 0, false⟩
/-- R84. -/
def TIM_HOLD_FRAMES_FRAMES : Fld := ⟨0x1054, 0, 32, .ro, 0, false⟩
/-- R85. -/
def TIM_SRC_CFG_DOMAIN_ID : Fld := ⟨0x1060, 0, 8, .rw, 0, false⟩
/-- R85. -/
def TIM_SRC_CFG_PPS_POL : Fld := ⟨0x1060, 8, 1, .rw, 0, false⟩
/-- R85. -/
def TIM_SRC_CFG_TOD_EN : Fld := ⟨0x1060, 9, 1, .rw, 1, false⟩
/-- R86. -/
def TIM_PPS_CORR_PPS_CORR : Fld := ⟨0x1064, 0, 32, .rw, 0, false⟩
/-- R87. -/
def TIM_TOD_STATUS_LAST_SEQ : Fld := ⟨0x1068, 0, 16, .ro, 0, false⟩
/-- R87. -/
def TIM_TOD_STATUS_LAST_FLAGS : Fld := ⟨0x1068, 16, 8, .ro, 0, false⟩
/-- R87. -/
def TIM_TOD_STATUS_BAD_MSG : Fld := ⟨0x1068, 24, 4, .ro, 0, false⟩
/-- R88. -/
def TIM_HG_CTRL_GRACE : Fld := ⟨0x1080, 0, 8, .rw, 16, false⟩
/-- R88. -/
def TIM_HG_CTRL_HELD : Fld := ⟨0x1080, 8, 7, .ro, 0, false⟩
/-- R89. -/
def TIM_HG_STATS_LATE_EXEC : Fld := ⟨0x1084, 0, 16, .ro, 0, false⟩
/-- R89. -/
def TIM_HG_STATS_REFUSED : Fld := ⟨0x1084, 16, 16, .ro, 0, false⟩
/-- R90. -/
def TIM_TXQ_CTRL_POP : Fld := ⟨0x1090, 0, 1, .wo, 0, false⟩
/-- R90. -/
def TIM_TXQ_CTRL_LEVEL : Fld := ⟨0x1090, 1, 5, .ro, 0, false⟩
/-- R90. -/
def TIM_TXQ_CTRL_OVF : Fld := ⟨0x1090, 8, 1, .w1c, 0, false⟩
/-- R90. -/
def TIM_TXQ_CTRL_DROPS : Fld := ⟨0x1090, 16, 16, .ro, 0, false⟩
/-- R91. -/
def TIM_TXQ_ENTRY_ID : Fld := ⟨0x1094, 0, 8, .ro, 0, false⟩
/-- R91. -/
def TIM_TXQ_ENTRY_LANE : Fld := ⟨0x1094, 8, 6, .ro, 0, false⟩
/-- R91. -/
def TIM_TXQ_ENTRY_VALID : Fld := ⟨0x1094, 14, 1, .ro, 0, false⟩
/-- R91. -/
def TIM_TXQ_FI_FI : Fld := ⟨0x1098, 0, 32, .ro, 0, false⟩
/-- R91. -/
def TIM_TXQ_OFS_OFS : Fld := ⟨0x109C, 0, 32, .ro, 0, false⟩
/-- R112. -/
def CH_CTRL_ENABLE (i : Nat) : Fld := ⟨0x2000 + 0x40 * i, 0, 1, .rw, 0, true⟩
/-- R112. -/
def CH_CTRL_COUPLING (i : Nat) : Fld := ⟨0x2000 + 0x40 * i, 1, 1, .rw, 1, true⟩
/-- R112. -/
def CH_CTRL_MERGE_MODE (i : Nat) : Fld := ⟨0x2000 + 0x40 * i, 2, 2, .rw, 0, true⟩
/-- R112. -/
def CH_CTRL_TRK_EN (i : Nat) : Fld := ⟨0x2000 + 0x40 * i, 4, 1, .rw, 1, false⟩
/-- R113. -/
def CH_STATUS_POWERED (i : Nat) : Fld := ⟨0x2004 + 0x40 * i, 0, 1, .ro, 0, false⟩
/-- R113. -/
def CH_STATUS_PROVISIONAL (i : Nat) : Fld := ⟨0x2004 + 0x40 * i, 1, 1, .ro, 1, false⟩
/-- R113. -/
def CH_STATUS_CAL_ACTIVE (i : Nat) : Fld := ⟨0x2004 + 0x40 * i, 2, 1, .ro, 0, false⟩
/-- R113. -/
def CH_STATUS_TRK_ALARM (i : Nat) : Fld := ⟨0x2004 + 0x40 * i, 3, 1, .w1c, 0, false⟩
/-- R113. -/
def CH_STATUS_BG_REJECT (i : Nat) : Fld := ⟨0x2004 + 0x40 * i, 4, 1, .w1c, 0, false⟩
/-- R113. -/
def CH_STATUS_CAL_FAIL (i : Nat) : Fld := ⟨0x2004 + 0x40 * i, 5, 1, .w1c, 0, false⟩
/-- R113. -/
def CH_STATUS_TRK_PAIRS (i : Nat) : Fld := ⟨0x2004 + 0x40 * i, 16, 16, .ro, 0, false⟩
/-- R114. -/
def CH_OFFSET_DAC_CODE (i : Nat) : Fld := ⟨0x2008 + 0x40 * i, 0, 12, .rw, 0, true⟩
/-- R115. -/
def CH_DISC_THRESH (i : Nat) : Fld := ⟨0x200C + 0x40 * i, 0, 14, .rw, 0, true⟩
/-- R115. -/
def CH_DISC_EDGE (i : Nat) : Fld := ⟨0x200C + 0x40 * i, 14, 2, .rw, 0, true⟩
/-- R115. -/
def CH_DISC_HYST (i : Nat) : Fld := ⟨0x200C + 0x40 * i, 16, 4, .rw, 2, true⟩
/-- R116. -/
def CH_DEC_LOG2D (i : Nat) : Fld := ⟨0x2010 + 0x40 * i, 0, 5, .rw, 2, true⟩
/-- R116. -/
def CH_DEC_FMT (i : Nat) : Fld := ⟨0x2010 + 0x40 * i, 5, 1, .rw, 0, true⟩
/-- R117. -/
def CH_LG_GAIN_GL (i : Nat) : Fld := ⟨0x2014 + 0x40 * i, 0, 24, .rw, 4194304, true⟩
/-- R118. -/
def CH_LG_OFS_OL (i : Nat) : Fld := ⟨0x2018 + 0x40 * i, 0, 20, .rw, 0, true⟩
/-- R119. -/
def CH_HG_GAIN_GH (i : Nat) : Fld := ⟨0x201C + 0x40 * i, 0, 24, .rw, 4194304, true⟩
/-- R120. -/
def CH_HG_OFS_OH (i : Nat) : Fld := ⟨0x2020 + 0x40 * i, 0, 20, .rw, 0, true⟩
/-- R121. -/
def CH_MERGE_STATS_SEAMS (i : Nat) : Fld := ⟨0x2024 + 0x40 * i, 0, 16, .ro, 0, false⟩
/-- R121. -/
def CH_MERGE_STATS_CLIPS (i : Nat) : Fld := ⟨0x2024 + 0x40 * i, 16, 16, .ro, 0, false⟩
/-- R147. -/
def CH_TDC_CTRL_TDC_EN (i : Nat) : Fld := ⟨0x2028 + 0x40 * i, 0, 1, .rw, 1, false⟩
/-- R147. -/
def CH_TDC_CTRL_XCAL_EN (i : Nat) : Fld := ⟨0x2028 + 0x40 * i, 1, 1, .rw, 1, false⟩
/-- R148. -/
def CH_TDC_STATUS_SLOW_LOCK (i : Nat) : Fld := ⟨0x202C + 0x40 * i, 0, 1, .ro, 0, false⟩
/-- R148. -/
def CH_TDC_STATUS_FAST_LOCK (i : Nat) : Fld := ⟨0x202C + 0x40 * i, 1, 1, .ro, 0, false⟩
/-- R148. -/
def CH_TDC_STATUS_LIN_VALID (i : Nat) : Fld := ⟨0x202C + 0x40 * i, 2, 1, .ro, 0, false⟩
/-- R148. -/
def CH_TDC_STATUS_LIN_ACTIVE (i : Nat) : Fld := ⟨0x202C + 0x40 * i, 3, 1, .ro, 0, false⟩
/-- R148. -/
def CH_TDC_STATUS_LIN_FAIL (i : Nat) : Fld := ⟨0x202C + 0x40 * i, 4, 1, .w1c, 0, false⟩
/-- R148. -/
def CH_TDC_STATUS_XC_ALARM (i : Nat) : Fld := ⟨0x202C + 0x40 * i, 5, 1, .w1c, 0, false⟩
/-- R148. -/
def CH_TDC_STATUS_ALIGN_RANGE (i : Nat) : Fld := ⟨0x202C + 0x40 * i, 6, 1, .w1c, 0, false⟩
/-- R148. -/
def CH_TDC_STATUS_LENT (i : Nat) : Fld := ⟨0x202C + 0x40 * i, 7, 1, .ro, 0, false⟩
/-- R148. -/
def CH_TDC_STATUS_XC_PAIRS (i : Nat) : Fld := ⟨0x202C + 0x40 * i, 16, 16, .ro, 0, false⟩
/-- R149. -/
def CH_TDC_DELAY_DELAY (i : Nat) : Fld := ⟨0x2030 + 0x40 * i, 0, 19, .rw, 0, true⟩
/-- R150. -/
def CH_BOARD_DELAY_BOARD (i : Nat) : Fld := ⟨0x2034 + 0x40 * i, 0, 17, .rw, 0, true⟩
/-- R151. -/
def CH_ALIGN_TRIM (i : Nat) : Fld := ⟨0x2038 + 0x40 * i, 0, 14, .ro, 0, false⟩
/-- R151. -/
def CH_ALIGN_PKG (i : Nat) : Fld := ⟨0x2038 + 0x40 * i, 16, 16, .ro, 0, false⟩
/-- R152. -/
def CH_TDC_COUNTS_BUSY (i : Nat) : Fld := ⟨0x203C + 0x40 * i, 0, 16, .ro, 0, false⟩
/-- R152. -/
def CH_TDC_COUNTS_UNAVAIL (i : Nat) : Fld := ⟨0x203C + 0x40 * i, 16, 12, .ro, 0, false⟩
/-- R152. -/
def CH_TDC_COUNTS_ERR (i : Nat) : Fld := ⟨0x203C + 0x40 * i, 28, 4, .ro, 0, false⟩
/-- R122. -/
def CH_CAL_CTRL_QUAD_MASK : Fld := ⟨0x2C00, 0, 12, .rw, 4095, false⟩
/-- R122. -/
def CH_CAL_CTRL_START : Fld := ⟨0x2C00, 12, 1, .wo, 0, false⟩
/-- R122. -/
def CH_CAL_CTRL_FORCE : Fld := ⟨0x2C00, 13, 1, .rw, 0, false⟩
/-- R122. -/
def CH_CAL_CTRL_ABORT : Fld := ⟨0x2C00, 14, 1, .wo, 0, false⟩
/-- R122. -/
def CH_CAL_CTRL_FG_WAIT : Fld := ⟨0x2C00, 16, 16, .rw, 800, false⟩
/-- R123. -/
def CH_CAL_STATUS_FG_DONE : Fld := ⟨0x2C04, 0, 1, .ro, 0, false⟩
/-- R123. -/
def CH_CAL_STATUS_ROT_ACTIVE : Fld := ⟨0x2C04, 1, 1, .ro, 0, false⟩
/-- R123. -/
def CH_CAL_STATUS_CUR_QUAD : Fld := ⟨0x2C04, 2, 4, .ro, 15, false⟩
/-- R123. -/
def CH_CAL_STATUS_CAL_REFUSED : Fld := ⟨0x2C04, 6, 1, .w1c, 0, false⟩
/-- R123. -/
def CH_CAL_STATUS_BG_ACTIVE : Fld := ⟨0x2C04, 7, 1, .ro, 0, false⟩
/-- R123. -/
def CH_CAL_STATUS_FAIL_QUADS : Fld := ⟨0x2C04, 8, 12, .w1c, 0, false⟩
/-- R124. -/
def CH_TRK_CFG_SHIFT : Fld := ⟨0x2C08, 0, 4, .rw, 4, false⟩
/-- R124. -/
def CH_TRK_CFG_MIN_PAIRS : Fld := ⟨0x2C08, 4, 16, .rw, 256, false⟩
/-- R125. -/
def CH_BG_CFG_BG_EN : Fld := ⟨0x2C0C, 0, 1, .rw, 1, false⟩
/-- R125. -/
def CH_BG_CFG_SLOT_MS : Fld := ⟨0x2C0C, 8, 8, .rw, 4, false⟩
/-- R153. -/
def TDC_CAL_CTRL_QUAD_MASK : Fld := ⟨0x2C10, 0, 12, .rw, 4095, false⟩
/-- R153. -/
def TDC_CAL_CTRL_START : Fld := ⟨0x2C10, 12, 1, .wo, 0, false⟩
/-- R153. -/
def TDC_CAL_CTRL_AUTO_DT : Fld := ⟨0x2C10, 16, 8, .rw, 8, false⟩
/-- R154. -/
def TDC_CAL_STATUS_BOOT_DONE : Fld := ⟨0x2C14, 0, 1, .ro, 0, false⟩
/-- R154. -/
def TDC_CAL_STATUS_ACTIVE : Fld := ⟨0x2C14, 1, 1, .ro, 0, false⟩
/-- R154. -/
def TDC_CAL_STATUS_REFUSED : Fld := ⟨0x2C14, 2, 1, .w1c, 0, false⟩
/-- R154. -/
def TDC_CAL_STATUS_FAIL_QUADS : Fld := ⟨0x2C14, 3, 12, .w1c, 0, false⟩
/-- R155. -/
def TDC_LUT_ACCESS_CHAN : Fld := ⟨0x2C18, 0, 6, .rw, 0, false⟩
/-- R155. -/
def TDC_LUT_ACCESS_CODE : Fld := ⟨0x2C18, 6, 7, .rw, 0, false⟩
/-- R155. -/
def TDC_LUT_ACCESS_ENTRY : Fld := ⟨0x2C18, 16, 15, .ro, 64, false⟩
/-- R156. -/
def TDC_FUSE_CFG_AGREE : Fld := ⟨0x2C1C, 0, 16, .rw, 6554, false⟩
/-- R156. -/
def TDC_FUSE_CFG_ASSOC : Fld := ⟨0x2C1C, 16, 6, .rw, 32, false⟩
/-- R157. -/
def TDC_XCAL_CFG_SHIFT : Fld := ⟨0x2C20, 0, 4, .rw, 6, false⟩
/-- R157. -/
def TDC_XCAL_CFG_MIN_SLOPE : Fld := ⟨0x2C20, 4, 12, .rw, 400, false⟩
/-- R157. -/
def TDC_XCAL_CFG_XC_LIMIT : Fld := ⟨0x2C20, 16, 16, .rw, 3277, false⟩
/-- R158. -/
def TDC_LEND_LEND_A : Fld := ⟨0x2C24, 0, 6, .rw, 0, true⟩
/-- R158. -/
def TDC_LEND_LEND_B : Fld := ⟨0x2C24, 6, 6, .rw, 1, true⟩
/-- R158. -/
def TDC_LEND_MODE_A : Fld := ⟨0x2C24, 12, 1, .rw, 0, true⟩
/-- R158. -/
def TDC_LEND_MODE_B : Fld := ⟨0x2C24, 13, 1, .rw, 0, true⟩
/-- R159. -/
def TDC_STAT_CTRL_START : Fld := ⟨0x2C30, 0, 1, .wo, 0, false⟩
/-- R159. -/
def TDC_STAT_CTRL_ABORT : Fld := ⟨0x2C30, 1, 1, .wo, 0, false⟩
/-- R159. -/
def TDC_STAT_CTRL_MODE : Fld := ⟨0x2C30, 2, 1, .rw, 0, false⟩
/-- R159. -/
def TDC_STAT_CTRL_K : Fld := ⟨0x2C30, 3, 5, .rw, 0, false⟩
/-- R159. -/
def TDC_STAT_CTRL_START_SRC : Fld := ⟨0x2C30, 8, 8, .rw, 0, false⟩
/-- R159. -/
def TDC_STAT_CTRL_STOP_SRC : Fld := ⟨0x2C30, 16, 8, .rw, 0, false⟩
/-- R159. -/
def TDC_STAT_CTRL_SPAN_LOG2 : Fld := ⟨0x2C30, 24, 4, .rw, 6, false⟩
/-- R160. -/
def TDC_STAT_STATUS_RUNNING : Fld := ⟨0x2C34, 0, 1, .ro, 0, false⟩
/-- R160. -/
def TDC_STAT_STATUS_DONE : Fld := ⟨0x2C34, 1, 1, .ro, 0, false⟩
/-- R160. -/
def TDC_STAT_STATUS_COUNT : Fld := ⟨0x2C34, 2, 21, .ro, 0, false⟩
/-- R161. -/
def TDC_STAT_MEAN_MEAN : Fld := ⟨0x2C38, 0, 32, .ro, 0, false⟩
/-- R161. -/
def TDC_STAT_DEV_DEV : Fld := ⟨0x2C3C, 0, 32, .ro, 0, false⟩
/-- R161. -/
def TDC_STAT_MIN_MIN : Fld := ⟨0x2C40, 0, 32, .ro, 0, false⟩
/-- R161. -/
def TDC_STAT_MAX_MAX : Fld := ⟨0x2C44, 0, 32, .ro, 0, false⟩
/-- R162. -/
def TDC_STAT_FLAGS_NEAR : Fld := ⟨0x2C48, 0, 16, .ro, 0, false⟩
/-- R162. -/
def TDC_STAT_FLAGS_UNPAIRED : Fld := ⟨0x2C48, 16, 16, .ro, 0, false⟩
/-- R186. -/
def CH_CAPTURE_LEN_DIV8 (i : Nat) : Fld := ⟨0x3000 + 0x20 * i, 0, 11, .rw, 128, true⟩
/-- R186. -/
def CH_CAPTURE_PRE (i : Nat) : Fld := ⟨0x3000 + 0x20 * i, 12, 12, .rw, 256, true⟩
/-- R186. -/
def CH_CAPTURE_POLICY (i : Nat) : Fld := ⟨0x3000 + 0x20 * i, 24, 1, .rw, 0, true⟩
/-- R187. -/
def CH_TRGA_CTRL_TYPE (i : Nat) : Fld := ⟨0x3004 + 0x20 * i, 0, 4, .rw, 0, true⟩
/-- R187. -/
def CH_TRGA_CTRL_DIR (i : Nat) : Fld := ⟨0x3004 + 0x20 * i, 4, 2, .rw, 1, true⟩
/-- R187. -/
def CH_TRGA_CTRL_MULT (i : Nat) : Fld := ⟨0x3004 + 0x20 * i, 6, 2, .rw, 0, true⟩
/-- R187. -/
def CH_TRGA_CTRL_CAPTURE_EN (i : Nat) : Fld := ⟨0x3004 + 0x20 * i, 8, 1, .rw, 1, true⟩
/-- R187. -/
def CH_TRGA_CTRL_PARAM (i : Nat) : Fld := ⟨0x3004 + 0x20 * i, 10, 11, .rw, 1, true⟩
/-- R187. -/
def CH_TRGA_CTRL_PARAM2 (i : Nat) : Fld := ⟨0x3004 + 0x20 * i, 21, 11, .rw, 0, true⟩
/-- R188. -/
def CH_TRGA_LEVEL_LEVEL (i : Nat) : Fld := ⟨0x3008 + 0x20 * i, 0, 16, .rw, 0, true⟩
/-- R188. -/
def CH_TRGA_LEVEL_LEVEL2 (i : Nat) : Fld := ⟨0x3008 + 0x20 * i, 16, 16, .rw, 0, true⟩
/-- R187. -/
def CH_TRGB_CTRL_TYPE (i : Nat) : Fld := ⟨0x300C + 0x20 * i, 0, 4, .rw, 0, true⟩
/-- R187. -/
def CH_TRGB_CTRL_DIR (i : Nat) : Fld := ⟨0x300C + 0x20 * i, 4, 2, .rw, 1, true⟩
/-- R187. -/
def CH_TRGB_CTRL_MULT (i : Nat) : Fld := ⟨0x300C + 0x20 * i, 6, 2, .rw, 0, true⟩
/-- R187. -/
def CH_TRGB_CTRL_CAPTURE_EN (i : Nat) : Fld := ⟨0x300C + 0x20 * i, 8, 1, .rw, 1, true⟩
/-- R187. -/
def CH_TRGB_CTRL_PARAM (i : Nat) : Fld := ⟨0x300C + 0x20 * i, 10, 11, .rw, 1, true⟩
/-- R187. -/
def CH_TRGB_CTRL_PARAM2 (i : Nat) : Fld := ⟨0x300C + 0x20 * i, 21, 11, .rw, 0, true⟩
/-- R188. -/
def CH_TRGB_LEVEL_LEVEL (i : Nat) : Fld := ⟨0x3010 + 0x20 * i, 0, 16, .rw, 0, true⟩
/-- R188. -/
def CH_TRGB_LEVEL_LEVEL2 (i : Nat) : Fld := ⟨0x3010 + 0x20 * i, 16, 16, .rw, 0, true⟩
/-- R189. -/
def CH_TRG_REF_LO_FILL (i : Nat) : Fld := ⟨0x3014 + 0x20 * i, 0, 16, .ro, 0, false⟩
/-- R189. -/
def CH_TRG_REF_LO_REARM (i : Nat) : Fld := ⟨0x3014 + 0x20 * i, 16, 16, .ro, 0, false⟩
/-- R190. -/
def CH_TRG_REF_HI_BUSY (i : Nat) : Fld := ⟨0x3018 + 0x20 * i, 0, 16, .ro, 0, false⟩
/-- R190. -/
def CH_TRG_REF_HI_OFF (i : Nat) : Fld := ⟨0x3018 + 0x20 * i, 16, 16, .ro, 0, false⟩
/-- R191. -/
def CH_TRG_STATUS_CAPTURE_OPEN (i : Nat) : Fld := ⟨0x301C + 0x20 * i, 0, 1, .ro, 0, false⟩
/-- R191. -/
def CH_TRG_STATUS_AT_LIMIT (i : Nat) : Fld := ⟨0x301C + 0x20 * i, 1, 1, .ro, 0, false⟩
/-- R191. -/
def CH_TRG_STATUS_FILLED (i : Nat) : Fld := ⟨0x301C + 0x20 * i, 2, 1, .ro, 0, false⟩
/-- R191. -/
def CH_TRG_STATUS_CAPTURES (i : Nat) : Fld := ⟨0x301C + 0x20 * i, 16, 16, .ro, 0, false⟩
/-- R192. -/
def TRG_QUAD_MULT_K (i : Nat) : Fld := ⟨0x3600 + 0x4 * i, 0, 3, .rw, 2, true⟩
/-- R192. -/
def TRG_QUAD_MULT_W (i : Nat) : Fld := ⟨0x3600 + 0x4 * i, 8, 8, .rw, 8, true⟩
/-- R193. -/
def TRG_DEV_MULT_M : Fld := ⟨0x3630, 0, 6, .rw, 2, true⟩
/-- R193. -/
def TRG_DEV_MULT_W : Fld := ⟨0x3630, 8, 8, .rw, 8, true⟩
/-- R194. -/
def TRG_DEAD_SEL_CHAN : Fld := ⟨0x3634, 0, 6, .rw, 0, false⟩
/-- R194. -/
def TRG_DEAD_SEL_REASON : Fld := ⟨0x3634, 8, 2, .rw, 0, false⟩
/-- R195. -/
def TRG_DEAD_LO_COUNT_LO : Fld := ⟨0x3638, 0, 32, .ro, 0, false⟩
/-- R195. -/
def TRG_DEAD_HI_COUNT_HI : Fld := ⟨0x363C, 0, 16, .ro, 0, false⟩
/-- R196. -/
def TRG_MASK_CFG_ENABLE (i : Nat) : Fld := ⟨0x3640 + 0x4 * i, 0, 1, .rw, 0, true⟩
/-- R196. -/
def TRG_MASK_CFG_ANCHOR (i : Nat) : Fld := ⟨0x3640 + 0x4 * i, 1, 2, .rw, 0, true⟩
/-- R196. -/
def TRG_MASK_CFG_STEP_LOG2 (i : Nat) : Fld := ⟨0x3640 + 0x4 * i, 3, 3, .rw, 0, true⟩
/-- R196. -/
def TRG_MASK_CFG_STOP (i : Nat) : Fld := ⟨0x3640 + 0x4 * i, 6, 1, .rw, 0, true⟩
/-- R196. -/
def TRG_MASK_CFG_STOPPED (i : Nat) : Fld := ⟨0x3640 + 0x4 * i, 7, 1, .ro, 0, false⟩
/-- R196. -/
def TRG_MASK_CFG_REARM (i : Nat) : Fld := ⟨0x3640 + 0x4 * i, 8, 1, .wo, 0, false⟩
/-- R196. -/
def TRG_MASK_CFG_CHAN_MASK (i : Nat) : Fld := ⟨0x3640 + 0x4 * i, 12, 4, .rw, 15, true⟩
/-- R197. -/
def TRG_MASK_VIOL_VIOL (i : Nat) : Fld := ⟨0x3670 + 0x4 * i, 0, 16, .ro, 0, false⟩
/-- R197. -/
def TRG_MASK_VIOL_STOPS (i : Nat) : Fld := ⟨0x3670 + 0x4 * i, 16, 16, .ro, 0, false⟩
/-- R198. -/
def TRG_MASK_ADDR_QUAD : Fld := ⟨0x36A0, 0, 4, .rw, 0, false⟩
/-- R198. -/
def TRG_MASK_ADDR_ENV : Fld := ⟨0x36A0, 4, 1, .rw, 0, false⟩
/-- R198. -/
def TRG_MASK_ADDR_POINT : Fld := ⟨0x36A0, 5, 9, .rw, 0, false⟩
/-- R199. -/
def TRG_MASK_DATA_VALUE : Fld := ⟨0x36A4, 0, 16, .rw, 32767, false⟩
/-- R200. -/
def TRG_MASK_COMMIT_QUADS : Fld := ⟨0x36A8, 0, 12, .wo, 0, false⟩
/-- R201. -/
def TRG_STREAM_CFG_ENABLE (i : Nat) : Fld := ⟨0x3700 + 0x8 * i, 0, 1, .rw, 0, true⟩
/-- R201. -/
def TRG_STREAM_CFG_CHAN (i : Nat) : Fld := ⟨0x3700 + 0x8 * i, 1, 6, .rw, 0, true⟩
/-- R201. -/
def TRG_STREAM_CFG_LANE (i : Nat) : Fld := ⟨0x3700 + 0x8 * i, 7, 2, .rw, 0, true⟩
/-- R201. -/
def TRG_STREAM_CFG_RESERVE (i : Nat) : Fld := ⟨0x3700 + 0x8 * i, 16, 9, .rw, 0, true⟩
/-- R202. -/
def TRG_STREAM_STATUS_ACTIVE (i : Nat) : Fld := ⟨0x3704 + 0x8 * i, 0, 1, .ro, 0, false⟩
/-- R202. -/
def TRG_STREAM_STATUS_GAP (i : Nat) : Fld := ⟨0x3704 + 0x8 * i, 1, 1, .ro, 0, false⟩
/-- R202. -/
def TRG_STREAM_STATUS_CAL_SKIPPED (i : Nat) : Fld := ⟨0x3704 + 0x8 * i, 2, 1, .w1c, 0, false⟩
/-- R202. -/
def TRG_STREAM_STATUS_LANE_GONE (i : Nat) : Fld := ⟨0x3704 + 0x8 * i, 3, 1, .w1c, 0, false⟩
/-- R202. -/
def TRG_STREAM_STATUS_MARK_OVF (i : Nat) : Fld := ⟨0x3704 + 0x8 * i, 8, 8, .ro, 0, false⟩
/-- R202. -/
def TRG_STREAM_STATUS_SPILL (i : Nat) : Fld := ⟨0x3704 + 0x8 * i, 16, 16, .ro, 0, false⟩
/-- R203. -/
def TRG_BUDGET_STATUS_REFUSED : Fld := ⟨0x3720, 0, 1, .w1c, 0, false⟩
/-- R203. -/
def TRG_BUDGET_STATUS_REASON : Fld := ⟨0x3720, 1, 3, .ro, 0, false⟩
/-- R203. -/
def TRG_BUDGET_STATUS_SLOT : Fld := ⟨0x3720, 4, 2, .ro, 0, false⟩
/-- R203. -/
def TRG_BUDGET_STATUS_FLOOR : Fld := ⟨0x3720, 8, 9, .ro, 0, false⟩
/-- R264. -/
def CMP_CTRL_HIT_EN : Fld := ⟨0x4000, 0, 1, .rw, 1, true⟩
/-- R264. -/
def CMP_CTRL_STREAM_EN : Fld := ⟨0x4000, 1, 1, .rw, 1, true⟩
/-- R264. -/
def CMP_CTRL_PRED_MASK : Fld := ⟨0x4000, 4, 5, .rw, 31, true⟩
/-- R264. -/
def CMP_CTRL_XCH_QUADS : Fld := ⟨0x4000, 12, 12, .rw, 0, true⟩
/-- R265. -/
def CMP_STATUS_ENC_ENGINES : Fld := ⟨0x4004, 0, 8, .ro, 0, false⟩
/-- R265. -/
def CMP_STATUS_CHK_ENGINES : Fld := ⟨0x4004, 8, 16, .ro, 0, false⟩
/-- R266. -/
def CMP_REC_STATS_COMPRESSED : Fld := ⟨0x4008, 0, 16, .ro, 0, false⟩
/-- R266. -/
def CMP_REC_STATS_DEPENDENT : Fld := ⟨0x4008, 16, 16, .ro, 0, false⟩
/-- R267. -/
def CMP_RAW_STATS_EXPANDED : Fld := ⟨0x400C, 0, 16, .ro, 0, false⟩
/-- R267. -/
def CMP_RAW_STATS_BYPASS : Fld := ⟨0x400C, 16, 16, .ro, 0, false⟩
/-- R268. -/
def CMP_VERIFY_STATS_VERIFY_FAIL : Fld := ⟨0x4010, 0, 16, .ro, 0, false⟩
/-- R268. -/
def CMP_VERIFY_STATS_LAST_CAUSE : Fld := ⟨0x4010, 16, 4, .ro, 0, false⟩
/-- R269. -/
def CMP_WORDS_IN_WORDS_IN : Fld := ⟨0x4014, 0, 32, .ro, 0, false⟩
/-- R270. -/
def CMP_WORDS_OUT_WORDS_OUT : Fld := ⟨0x4018, 0, 32, .ro, 0, false⟩
/-- R271. -/
def CMP_CHECK_STATS_CORRUPT : Fld := ⟨0x401C, 0, 16, .ro, 0, false⟩
/-- R271. -/
def CMP_CHECK_STATS_NO_REF : Fld := ⟨0x401C, 16, 16, .ro, 0, false⟩
/-- R272. -/
def CMP_CHECK_LAST_PORT : Fld := ⟨0x4020, 0, 6, .ro, 0, false⟩
/-- R272. -/
def CMP_CHECK_LAST_CAUSE : Fld := ⟨0x4020, 6, 4, .ro, 0, false⟩
/-- R272. -/
def CMP_CHECK_LAST_DEVNUM : Fld := ⟨0x4020, 16, 16, .ro, 0, false⟩
/-- R375. -/
def LN_CTRL_ENABLE (i : Nat) : Fld := ⟨0x5000 + 0x80 * i, 0, 1, .rw, 0, true⟩
/-- R375. -/
def LN_CTRL_IDLE (i : Nat) : Fld := ⟨0x5000 + 0x80 * i, 1, 1, .rw, 0, true⟩
/-- R375. -/
def LN_CTRL_FULL_EN (i : Nat) : Fld := ⟨0x5000 + 0x80 * i, 2, 1, .rw, 1, true⟩
/-- R375. -/
def LN_CTRL_DATA_EN (i : Nat) : Fld := ⟨0x5000 + 0x80 * i, 3, 1, .rw, 1, true⟩
/-- R375. -/
def LN_CTRL_ATTESTED (i : Nat) : Fld := ⟨0x5000 + 0x80 * i, 4, 1, .rw, 0, true⟩
/-- R375. -/
def LN_CTRL_ALIGN_MODE (i : Nat) : Fld := ⟨0x5000 + 0x80 * i, 5, 1, .rw, 0, true⟩
/-- R375. -/
def LN_CTRL_SLIP (i : Nat) : Fld := ⟨0x5000 + 0x80 * i, 6, 4, .rw, 0, true⟩
/-- R375. -/
def LN_CTRL_ASSAY_START (i : Nat) : Fld := ⟨0x5000 + 0x80 * i, 10, 1, .wo, 0, false⟩
/-- R375. -/
def LN_CTRL_TX_INVERT (i : Nat) : Fld := ⟨0x5000 + 0x80 * i, 11, 1, .rw, 0, true⟩
/-- R375. -/
def LN_CTRL_RX_INVERT (i : Nat) : Fld := ⟨0x5000 + 0x80 * i, 12, 1, .rw, 0, true⟩
/-- R375. -/
def LN_CTRL_SWING (i : Nat) : Fld := ⟨0x5000 + 0x80 * i, 16, 2, .rw, 2, true⟩
/-- R375. -/
def LN_CTRL_DEEMPH (i : Nat) : Fld := ⟨0x5000 + 0x80 * i, 18, 3, .rw, 3, true⟩
/-- R375. -/
def LN_CTRL_CTLE (i : Nat) : Fld := ⟨0x5000 + 0x80 * i, 21, 3, .rw, 4, true⟩
/-- R376. -/
def LN_STATUS_LSTATE (i : Nat) : Fld := ⟨0x5004 + 0x80 * i, 0, 3, .ro, 0, false⟩
/-- R376. -/
def LN_STATUS_RATE (i : Nat) : Fld := ⟨0x5004 + 0x80 * i, 3, 1, .ro, 0, false⟩
/-- R376. -/
def LN_STATUS_DATA_SERVICE (i : Nat) : Fld := ⟨0x5004 + 0x80 * i, 4, 1, .ro, 0, false⟩
/-- R376. -/
def LN_STATUS_PARTNER_READY (i : Nat) : Fld := ⟨0x5004 + 0x80 * i, 5, 1, .ro, 0, false⟩
/-- R376. -/
def LN_STATUS_PARTNER_FULL_OK (i : Nat) : Fld := ⟨0x5004 + 0x80 * i, 6, 1, .ro, 0, false⟩
/-- R376. -/
def LN_STATUS_ASSAY_ACTIVE (i : Nat) : Fld := ⟨0x5004 + 0x80 * i, 7, 1, .ro, 0, false⟩
/-- R376. -/
def LN_STATUS_ASSAY_VERDICT (i : Nat) : Fld := ⟨0x5004 + 0x80 * i, 8, 2, .ro, 0, false⟩
/-- R376. -/
def LN_STATUS_FACING_ERR (i : Nat) : Fld := ⟨0x5004 + 0x80 * i, 10, 1, .w1c, 0, false⟩
/-- R376. -/
def LN_STATUS_ATTEST_LOST (i : Nat) : Fld := ⟨0x5004 + 0x80 * i, 11, 1, .w1c, 0, false⟩
/-- R376. -/
def LN_STATUS_SLIP_IN_USE (i : Nat) : Fld := ⟨0x5004 + 0x80 * i, 12, 4, .ro, 0, false⟩
/-- R376. -/
def LN_STATUS_PARTNER_LANE (i : Nat) : Fld := ⟨0x5004 + 0x80 * i, 16, 6, .ro, 0, false⟩
/-- R377. -/
def LN_TX_PHASE_PHASE (i : Nat) : Fld := ⟨0x5008 + 0x80 * i, 0, 8, .rw, 75, true⟩
/-- R378. -/
def LN_RX_STATS_FRAMES_OK (i : Nat) : Fld := ⟨0x500C + 0x80 * i, 0, 32, .ro, 0, false⟩
/-- R378. -/
def LN_ERR_STATS_CRC_FAIL (i : Nat) : Fld := ⟨0x5010 + 0x80 * i, 0, 16, .ro, 0, false⟩
/-- R378. -/
def LN_ERR_STATS_CODE_ERR (i : Nat) : Fld := ⟨0x5010 + 0x80 * i, 16, 12, .ro, 0, false⟩
/-- R378. -/
def LN_ERR_STATS_FRAMING_LOSS (i : Nat) : Fld := ⟨0x5010 + 0x80 * i, 28, 4, .ro, 0, false⟩
/-- R378. -/
def LN_RETRY_RETRIES (i : Nat) : Fld := ⟨0x5014 + 0x80 * i, 0, 16, .ro, 0, false⟩
/-- R378. -/
def LN_RETRY_RAISES (i : Nat) : Fld := ⟨0x5014 + 0x80 * i, 16, 16, .ro, 0, false⟩
/-- R378. -/
def LN_MG_STATS_BUSY (i : Nat) : Fld := ⟨0x5018 + 0x80 * i, 0, 8, .ro, 0, false⟩
/-- R378. -/
def LN_MG_STATS_REFUSED (i : Nat) : Fld := ⟨0x5018 + 0x80 * i, 8, 8, .ro, 0, false⟩
/-- R378. -/
def LN_MG_STATS_DROPPED (i : Nat) : Fld := ⟨0x5018 + 0x80 * i, 16, 8, .ro, 0, false⟩
/-- R378. -/
def LN_MG_STATS_DISCARDED (i : Nat) : Fld := ⟨0x5018 + 0x80 * i, 24, 8, .ro, 0, false⟩
/-- R378. -/
def LN_ASSAY_ERR_PRBS_ERR (i : Nat) : Fld := ⟨0x501C + 0x80 * i, 0, 16, .ro, 0, false⟩
/-- R378. -/
def LN_ASSAY_ERR_CRC_ERR (i : Nat) : Fld := ⟨0x501C + 0x80 * i, 16, 16, .ro, 0, false⟩
/-- R378. -/
def LN_ASSAY_WORDS_WORDS (i : Nat) : Fld := ⟨0x5020 + 0x80 * i, 0, 32, .ro, 0, false⟩
/-- R379. -/
def LN_EYE_CTRL_H (i : Nat) : Fld := ⟨0x5024 + 0x80 * i, 0, 6, .rw, 0, false⟩
/-- R379. -/
def LN_EYE_CTRL_V (i : Nat) : Fld := ⟨0x5024 + 0x80 * i, 6, 7, .rw, 0, false⟩
/-- R379. -/
def LN_EYE_CTRL_DWELL_LOG2 (i : Nat) : Fld := ⟨0x5024 + 0x80 * i, 13, 4, .rw, 0, false⟩
/-- R379. -/
def LN_EYE_CTRL_START (i : Nat) : Fld := ⟨0x5024 + 0x80 * i, 17, 1, .wo, 0, false⟩
/-- R379. -/
def LN_EYE_CTRL_BUSY (i : Nat) : Fld := ⟨0x5024 + 0x80 * i, 18, 1, .ro, 0, false⟩
/-- R379. -/
def LN_EYE_CTRL_DONE (i : Nat) : Fld := ⟨0x5024 + 0x80 * i, 19, 1, .ro, 0, false⟩
/-- R380. -/
def LN_EYE_ERR_ERRORS (i : Nat) : Fld := ⟨0x5028 + 0x80 * i, 0, 32, .ro, 0, false⟩
/-- R381. -/
def LN_MG_CFG_REQ_LIMIT : Fld := ⟨0x6800, 0, 3, .rw, 4, false⟩
/-- R381. -/
def LN_MG_CFG_EXEC_LIMIT : Fld := ⟨0x6800, 8, 5, .rw, 16, false⟩
/-- R381. -/
def LN_MG_CFG_UP_QUEUE : Fld := ⟨0x6800, 16, 6, .rw, 16, false⟩
/-- R382. -/
def LN_ASSAY_CFG_ASSAY_FRAMES : Fld := ⟨0x6804, 0, 16, .rw, 1000, false⟩
/-- R382. -/
def LN_ASSAY_CFG_CRC_LIMIT : Fld := ⟨0x6804, 16, 8, .rw, 4, false⟩
/-- R382. -/
def LN_ASSAY_CFG_MIN_KWORDS : Fld := ⟨0x6804, 24, 8, .rw, 4, false⟩
/-- R383. -/
def LN_SERVICE_LO_LANES_LO : Fld := ⟨0x6808, 0, 32, .ro, 0, false⟩
/-- R383. -/
def LN_SERVICE_HI_LANES_HI : Fld := ⟨0x680C, 0, 16, .ro, 0, false⟩
/-- R233. -/
def MEM_LAYOUT_BANKS_USED : Fld := ⟨0x7000, 0, 16, .ro, 0, false⟩
/-- R233. -/
def MEM_LAYOUT_BANKS_SPARE : Fld := ⟨0x7000, 16, 16, .ro, 0, false⟩
/-- R234. -/
def REC_FIFO_CTRL_FLUSH : Fld := ⟨0x7004, 0, 1, .wo, 0, false⟩
/-- R234. -/
def REC_FIFO_CTRL_FLUSH_BUSY : Fld := ⟨0x7004, 1, 1, .ro, 0, false⟩
/-- R234. -/
def REC_FIFO_CTRL_RESERVE_PAGES : Fld := ⟨0x7004, 8, 8, .rw, 32, true⟩
/-- R235. -/
def REC_FIFO_LEVEL_PAGES_USED : Fld := ⟨0x7008, 0, 9, .ro, 0, false⟩
/-- R235. -/
def REC_FIFO_LEVEL_HIGH_WATER : Fld := ⟨0x7008, 16, 9, .ro, 0, false⟩
/-- R236. -/
def REC_FIFO_STATS_DROPPED : Fld := ⟨0x700C, 0, 16, .ro, 0, false⟩
/-- R236. -/
def REC_FIFO_STATS_WITHDRAWN : Fld := ⟨0x700C, 16, 16, .ro, 0, false⟩
/-- R237. -/
def REC_FIFO_FLUSHES_FLUSHES : Fld := ⟨0x7010, 0, 16, .ro, 0, false⟩
/-- R237. -/
def REC_FIFO_FLUSHES_WRITTEN_OFF : Fld := ⟨0x7010, 16, 16, .ro, 0, false⟩
/-- R238. -/
def REC_DIAG_SEL_QUEUE : Fld := ⟨0x7014, 0, 12, .rw, 0, false⟩
/-- R238. -/
def REC_DIAG_SEL_WORD : Fld := ⟨0x7014, 12, 16, .rw, 0, false⟩
/-- R239. -/
def REC_DIAG_DATA_DATA : Fld := ⟨0x7018, 0, 32, .ro, 0, false⟩
/-- R240. -/
def REC_DIAG_TAG_NOT_VALID : Fld := ⟨0x701C, 0, 1, .ro, 1, false⟩
/-- R240. -/
def REC_DIAG_TAG_OPEN : Fld := ⟨0x701C, 1, 1, .ro, 0, false⟩
/-- R240. -/
def REC_DIAG_TAG_CORRECTED : Fld := ⟨0x701C, 2, 1, .ro, 0, false⟩
/-- R240. -/
def REC_DIAG_TAG_UNCORRECTABLE : Fld := ⟨0x701C, 3, 1, .ro, 0, false⟩
/-- R240. -/
def REC_DIAG_TAG_SENT : Fld := ⟨0x701C, 4, 1, .ro, 0, false⟩
/-- R241. -/
def EGR_SEL_RING : Fld := ⟨0x7020, 0, 12, .rw, 0, false⟩
/-- R242. -/
def EGR_STATUS_PAGES : Fld := ⟨0x7024, 0, 11, .ro, 0, false⟩
/-- R242. -/
def EGR_STATUS_MARKS : Fld := ⟨0x7024, 16, 16, .ro, 0, false⟩
/-- R243. -/
def EGR_POOL_FREE_PAGES : Fld := ⟨0x7028, 0, 11, .ro, 1024, false⟩
/-- R243. -/
def EGR_POOL_LOW_WATER : Fld := ⟨0x7028, 16, 11, .ro, 1024, false⟩
/-- R244. -/
def EGR_STATS_REWINDS : Fld := ⟨0x702C, 0, 16, .ro, 0, false⟩
/-- R244. -/
def EGR_STATS_RESENT : Fld := ⟨0x702C, 16, 16, .ro, 0, false⟩
/-- R443. -/
def MEM_SCRUB_CFG_LAP_LIMIT : Fld := ⟨0x7100, 0, 16, .rw, 4096, false⟩
/-- R444. -/
def MEM_SCRUB_LAP_LAST_LAP : Fld := ⟨0x7104, 0, 16, .ro, 0, false⟩
/-- R444. -/
def MEM_SCRUB_LAP_MAX_LAP : Fld := ⟨0x7104, 16, 15, .ro, 0, false⟩
/-- R444. -/
def MEM_SCRUB_LAP_LAP_LONG : Fld := ⟨0x7104, 31, 1, .w1c, 0, false⟩
/-- R444. -/
def MEM_SCRUB_LAPS_ROUNDS : Fld := ⟨0x7108, 0, 32, .ro, 0, false⟩
/-- R445. -/
def MEM_RETIRE_OP_PAGE : Fld := ⟨0x710C, 0, 11, .rw, 0, false⟩
/-- R445. -/
def MEM_RETIRE_OP_BANK : Fld := ⟨0x710C, 11, 4, .rw, 0, false⟩
/-- R445. -/
def MEM_RETIRE_OP_SCOPE : Fld := ⟨0x710C, 15, 1, .rw, 0, false⟩
/-- R445. -/
def MEM_RETIRE_OP_START : Fld := ⟨0x710C, 16, 1, .wo, 0, false⟩
/-- R445. -/
def MEM_RETIRE_OP_BUSY : Fld := ⟨0x710C, 17, 1, .ro, 0, false⟩
/-- R445. -/
def MEM_RETIRE_OP_RESULT : Fld := ⟨0x710C, 18, 3, .ro, 0, false⟩
/-- R446. -/
def MEM_SPARE_SPARE_PAGES : Fld := ⟨0x7110, 0, 11, .ro, 0, false⟩
/-- R446. -/
def MEM_SPARE_REMAPPED : Fld := ⟨0x7110, 16, 11, .ro, 0, false⟩
/-- R446. -/
def MEM_BANK_RETIRED_BANKS : Fld := ⟨0x7114, 0, 16, .ro, 0, false⟩
/-- R447. -/
def MEM_RETIRE_MAP_RETIRED (i : Nat) : Fld := ⟨0x7140 + 0x4 * i, 0, 32, .ro, 0, false⟩
/-- R447. -/
def MEM_SUSPECT_MAP_SUSPECT (i : Nat) : Fld := ⟨0x7240 + 0x4 * i, 0, 32, .w1c, 0, false⟩
/-- R291. -/
def MRG_UPLINK_CFG_MIRROR : Fld := ⟨0x8000, 0, 1, .rw, 0, true⟩
/-- R291. -/
def MRG_UPLINK_CFG_GROUP : Fld := ⟨0x8000, 8, 8, .rw, 0, false⟩
/-- R292. -/
def MRG_STATUS_PARTNER_SPLIT : Fld := ⟨0x8004, 0, 1, .ro, 0, false⟩
/-- R292. -/
def MRG_STATUS_GROUP_EMPTY : Fld := ⟨0x8004, 1, 1, .ro, 0, false⟩
/-- R293. -/
def MRG_DEDUP_STATS_DUPLICATES : Fld := ⟨0x8008, 0, 16, .ro, 0, false⟩
/-- R293. -/
def MRG_DEDUP_STATS_RETIRED : Fld := ⟨0x8008, 16, 16, .ro, 0, false⟩
/-- R293. -/
def MRG_RX_STATS_PARTIAL : Fld := ⟨0x800C, 0, 16, .ro, 0, false⟩
/-- R293. -/
def MRG_RX_STATS_FUTURE : Fld := ⟨0x800C, 16, 8, .ro, 0, false⟩
/-- R293. -/
def MRG_RX_STATS_UNASSOC : Fld := ⟨0x800C, 24, 8, .ro, 0, false⟩
/-- R294. -/
def MRG_HUB_CTRL_BUILD_EN : Fld := ⟨0x8010, 0, 1, .rw, 0, true⟩
/-- R294. -/
def MRG_HUB_CTRL_UNSELECTED : Fld := ⟨0x8010, 1, 1, .rw, 0, true⟩
/-- R295. -/
def MRG_RING_SEL0_STREAM_RING : Fld := ⟨0x8014, 0, 12, .rw, 0, false⟩
/-- R295. -/
def MRG_RING_SEL0_ACCT_RING : Fld := ⟨0x8014, 16, 12, .rw, 0, false⟩
/-- R295. -/
def MRG_RING_SEL1_RESIDUE_RING : Fld := ⟨0x8018, 0, 12, .rw, 0, false⟩
/-- R293. -/
def MRG_BUILD_STATS_GROUPS : Fld := ⟨0x801C, 0, 16, .ro, 0, false⟩
/-- R293. -/
def MRG_BUILD_STATS_WRITTEN_OFF : Fld := ⟨0x801C, 16, 16, .ro, 0, false⟩
/-- R296. -/
def MRG_ROUTE_ADDR_DEVNUM : Fld := ⟨0x8020, 0, 16, .rw, 0, false⟩
/-- R296. -/
def MRG_ROUTE_DATA_PRIMARY : Fld := ⟨0x8024, 0, 6, .rw, 0, false⟩
/-- R296. -/
def MRG_ROUTE_DATA_P_VALID : Fld := ⟨0x8024, 6, 1, .rw, 0, false⟩
/-- R296. -/
def MRG_ROUTE_DATA_ALTERNATE : Fld := ⟨0x8024, 7, 6, .rw, 0, false⟩
/-- R296. -/
def MRG_ROUTE_DATA_A_VALID : Fld := ⟨0x8024, 13, 1, .rw, 0, false⟩
/-- R293. -/
def MRG_MGMT_STATS_FORWARDED : Fld := ⟨0x8028, 0, 16, .ro, 0, false⟩
/-- R293. -/
def MRG_MGMT_STATS_UNREACHABLE : Fld := ⟨0x8028, 16, 16, .ro, 0, false⟩
/-- R297. -/
def MRG_PORT_DEV_DEVNUM (i : Nat) : Fld := ⟨0x8100 + 0x4 * i, 0, 16, .rw, 0, true⟩
/-- R297. -/
def MRG_PORT_DEV_VALID (i : Nat) : Fld := ⟨0x8100 + 0x4 * i, 16, 1, .rw, 0, true⟩
/-- R298. -/
def MRG_PORT_LOSS_LATE (i : Nat) : Fld := ⟨0x8200 + 0x4 * i, 0, 16, .ro, 0, false⟩
/-- R298. -/
def MRG_PORT_LOSS_ABSENT (i : Nat) : Fld := ⟨0x8200 + 0x4 * i, 16, 16, .ro, 0, false⟩
/-- R299. -/
def MRG_SEL_CFG_ENABLE (i : Nat) : Fld := ⟨0x8300 + 0x10 * i, 0, 1, .rw, 0, true⟩
/-- R299. -/
def MRG_SEL_CFG_WINDOW_NS (i : Nat) : Fld := ⟨0x8300 + 0x10 * i, 16, 16, .rw, 0, true⟩
/-- R299. -/
def MRG_SEL_COND_MIN_MULT (i : Nat) : Fld := ⟨0x8304 + 0x10 * i, 0, 8, .rw, 1, true⟩
/-- R299. -/
def MRG_SEL_COND_MIN_DEV (i : Nat) : Fld := ⟨0x8304 + 0x10 * i, 8, 8, .rw, 1, true⟩
/-- R299. -/
def MRG_SEL_COND_MIN_REQ (i : Nat) : Fld := ⟨0x8304 + 0x10 * i, 16, 4, .rw, 0, true⟩
/-- R299. -/
def MRG_SEL_COND_RING (i : Nat) : Fld := ⟨0x8304 + 0x10 * i, 20, 12, .rw, 0, true⟩
/-- R299. -/
def MRG_SEL_REQ_REQ_SETS (i : Nat) : Fld := ⟨0x8308 + 0x10 * i, 0, 32, .rw, 0, true⟩
/-- R299. -/
def MRG_SEL_VETO_VETO_SETS (i : Nat) : Fld := ⟨0x830C + 0x10 * i, 0, 32, .rw, 0, true⟩
/-- R299. -/
def MRG_SEL_STATS_ACCEPTED (i : Nat) : Fld := ⟨0x8380 + 0x4 * i, 0, 32, .ro, 0, false⟩
/-- R300. -/
def MRG_SET_DEV_DEVNUM (i : Nat) : Fld := ⟨0x8400 + 0x10 * i, 0, 16, .rw, 0, true⟩
/-- R300. -/
def MRG_SET_DEV_CARE (i : Nat) : Fld := ⟨0x8400 + 0x10 * i, 16, 16, .rw, 65535, true⟩
/-- R300. -/
def MRG_SET_CHLO_CHAN_LO (i : Nat) : Fld := ⟨0x8404 + 0x10 * i, 0, 32, .rw, 0, true⟩
/-- R300. -/
def MRG_SET_CHHI_CHAN_HI (i : Nat) : Fld := ⟨0x8408 + 0x10 * i, 0, 16, .rw, 0, true⟩
/-- R336. -/
def HR_CTRL_ENABLE : Fld := ⟨0x9000, 0, 1, .rw, 0, true⟩
/-- R336. -/
def HR_CTRL_CTRL_REFUSED : Fld := ⟨0x9000, 1, 1, .w1c, 0, false⟩
/-- R337. -/
def HR_TABLE_BASE_LO_ADDR_LO : Fld := ⟨0x9004, 0, 32, .rw, 0, false⟩
/-- R337. -/
def HR_TABLE_BASE_HI_ADDR_HI : Fld := ⟨0x9008, 0, 32, .rw, 0, false⟩
/-- R337. -/
def HR_TALLY_BASE_LO_ADDR_LO : Fld := ⟨0x900C, 0, 32, .rw, 0, false⟩
/-- R337. -/
def HR_TALLY_BASE_HI_ADDR_HI : Fld := ⟨0x9010, 0, 32, .rw, 0, false⟩
/-- R337. -/
def HR_INDEX_BASE_LO_ADDR_LO : Fld := ⟨0x9014, 0, 32, .rw, 0, false⟩
/-- R337. -/
def HR_INDEX_BASE_HI_ADDR_HI : Fld := ⟨0x9018, 0, 32, .rw, 0, false⟩
/-- R337. -/
def HR_HEAD_BASE_LO_ADDR_LO : Fld := ⟨0x901C, 0, 32, .rw, 0, false⟩
/-- R337. -/
def HR_HEAD_BASE_HI_ADDR_HI : Fld := ⟨0x9020, 0, 32, .rw, 0, false⟩
/-- R338. -/
def HR_RING_OP_RING : Fld := ⟨0x9024, 0, 12, .rw, 0, false⟩
/-- R338. -/
def HR_RING_OP_OP : Fld := ⟨0x9024, 12, 2, .wo, 0, false⟩
/-- R338. -/
def HR_RING_OP_BUSY : Fld := ⟨0x9024, 14, 1, .ro, 0, false⟩
/-- R338. -/
def HR_RING_OP_RESULT : Fld := ⟨0x9024, 15, 3, .ro, 0, false⟩
/-- R339. -/
def HR_RING_STATE_STATE : Fld := ⟨0x9028, 0, 2, .ro, 0, false⟩
/-- R339. -/
def HR_RING_STATE_TYPE : Fld := ⟨0x9028, 2, 2, .ro, 0, false⟩
/-- R339. -/
def HR_RING_STATE_ERROR : Fld := ⟨0x9028, 4, 1, .ro, 0, false⟩
/-- R339. -/
def HR_RING_STATE_HEAD_LO : Fld := ⟨0x9028, 16, 16, .ro, 0, false⟩
/-- R340. -/
def HR_EVT_CFG_EVENT_RING : Fld := ⟨0x902C, 0, 12, .rw, 0, false⟩
/-- R340. -/
def HR_EVT_CFG_REPLY_TIMEOUT : Fld := ⟨0x902C, 16, 16, .rw, 1000, false⟩
/-- R341. -/
def HR_TALLY_STATS_SKIPPED : Fld := ⟨0x9030, 0, 16, .ro, 0, false⟩
/-- R341. -/
def HR_TALLY_STATS_DEFERRED : Fld := ⟨0x9030, 16, 16, .ro, 0, false⟩
/-- R342. -/
def HR_DROP_STATS_NO_RING : Fld := ⟨0x9034, 0, 16, .ro, 0, false⟩
/-- R342. -/
def HR_DROP_STATS_EVT_DROPPED : Fld := ⟨0x9034, 16, 12, .ro, 0, false⟩
/-- R343. -/
def HR_RING_ERR_RING : Fld := ⟨0x9038, 0, 12, .ro, 0, false⟩
/-- R343. -/
def HR_RING_ERR_CAUSE : Fld := ⟨0x9038, 12, 4, .ro, 0, false⟩
/-- R343. -/
def HR_RING_ERR_COUNT : Fld := ⟨0x9038, 16, 16, .ro, 0, false⟩
/-- R344. -/
def HR_LINK_STATUS_LINK_UP : Fld := ⟨0x903C, 0, 1, .ro, 0, false⟩
/-- R344. -/
def HR_LINK_STATUS_D3HOT : Fld := ⟨0x903C, 1, 1, .ro, 0, false⟩
/-- R344. -/
def HR_LINK_STATUS_DOWN_EVENTS : Fld := ⟨0x903C, 16, 16, .ro, 0, false⟩
/-- R345. -/
def HR_LOSS_UNWRITTEN_COUNT : Fld := ⟨0x9040, 0, 32, .ro, 0, false⟩
/-- R346. -/
def HR_VEC_HOLD_HOLD0 (i : Nat) : Fld := ⟨0x9100 + 0x4 * i, 0, 8, .rw, 1, false⟩
/-- R346. -/
def HR_VEC_HOLD_HOLD1 (i : Nat) : Fld := ⟨0x9100 + 0x4 * i, 8, 8, .rw, 1, false⟩
/-- R346. -/
def HR_VEC_HOLD_HOLD2 (i : Nat) : Fld := ⟨0x9100 + 0x4 * i, 16, 8, .rw, 1, false⟩
/-- R346. -/
def HR_VEC_HOLD_HOLD3 (i : Nat) : Fld := ⟨0x9100 + 0x4 * i, 24, 8, .rw, 1, false⟩
/-- R507. -/
def PWR_STATUS_ADMIT_REFUSED : Fld := ⟨0xA000, 0, 1, .w1c, 0, false⟩
/-- R507. -/
def PWR_STATUS_POWER_OVER : Fld := ⟨0xA000, 1, 1, .ro, 0, false⟩
/-- R507. -/
def PWR_STATUS_PGOOD : Fld := ⟨0xA000, 2, 1, .ro, 0, false⟩
/-- R507. -/
def PWR_STATUS_LAST_REFUSED : Fld := ⟨0xA000, 3, 6, .ro, 0, false⟩
/-- R508. -/
def PWR_INPUT_VIN_MV : Fld := ⟨0xA004, 0, 16, .ro, 0, false⟩
/-- R508. -/
def PWR_INPUT_P_MEAS : Fld := ⟨0xA004, 16, 16, .ro, 0, false⟩
/-- R508. -/
def PWR_CLASS_LIMIT_12 : Fld := ⟨0xA008, 0, 1, .ro, 0, false⟩
/-- R508. -/
def PWR_CLASS_LIMIT_14 : Fld := ⟨0xA008, 1, 1, .ro, 0, false⟩
/-- R508. -/
def PWR_CLASS_CEILING : Fld := ⟨0xA008, 16, 16, .ro, 0, false⟩
/-- R508. -/
def PWR_WEIGHT_CH_MW : Fld := ⟨0xA00C, 0, 8, .ro, 0, false⟩
/-- R508. -/
def PWR_WEIGHT_LQ_10MW : Fld := ⟨0xA00C, 8, 8, .ro, 0, false⟩
/-- R508. -/
def PWR_WEIGHT_MD_MW : Fld := ⟨0xA00C, 16, 8, .ro, 0, false⟩
/-- R509. -/
def PWR_MEM_CTRL_MD_EN : Fld := ⟨0xA010, 0, 4, .rw, 0, true⟩
/-- R509. -/
def PWR_MEM_CTRL_RESULT : Fld := ⟨0xA010, 4, 3, .ro, 0, false⟩
/-- PWR_DOMAIN_STATE (R510): the state of lane quad `q`. -/
def PWR_DOM_LQ (q : Nat) : Fld := ⟨0xA014, 2 * q, 2, .ro, 0, false⟩
/-- PWR_DOMAIN_STATE (R510): the state of memory domain `m`. -/
def PWR_DOM_MD (m : Nat) : Fld := ⟨0xA014, 24 + 2 * m, 2, .ro, 0, false⟩
/-- PWR_CH_STATE (R511): the state of channel `n`. -/
def PWR_CH_STATE (n : Nat) : Fld := ⟨0xA018 + 4 * (n / 10), 3 * (n % 10), 3, .ro, 0, false⟩
/-- R512. -/
def PWR_THERM_CFG_WARN : Fld := ⟨0xA030, 0, 8, .rw, 100, false⟩
/-- R512. -/
def PWR_THERM_CFG_THROTTLE : Fld := ⟨0xA030, 8, 8, .rw, 110, false⟩
/-- R513. -/
def PWR_SHED_LO_CH_LO : Fld := ⟨0xA034, 0, 32, .rw, 0, false⟩
/-- R513. -/
def PWR_SHED_HI_CH_HI : Fld := ⟨0xA038, 0, 16, .rw, 0, false⟩
/-- R513. -/
def PWR_SHED_HI_LQ : Fld := ⟨0xA038, 16, 12, .rw, 0, false⟩
/-- R514. -/
def PWR_THERM_STATUS_T_J : Fld := ⟨0xA03C, 0, 16, .ro, 0, false⟩
/-- R514. -/
def PWR_THERM_STATUS_HOT_SENSOR : Fld := ⟨0xA03C, 16, 4, .ro, 0, false⟩
/-- R514. -/
def PWR_THERM_STATUS_STATE : Fld := ⟨0xA03C, 20, 3, .ro, 0, false⟩
/-- R514. -/
def PWR_THERM_STATUS_CAUSE : Fld := ⟨0xA03C, 23, 4, .ro, 0, false⟩
/-- R514. -/
def PWR_THERM_STATUS_ACCEPTED : Fld := ⟨0xA03C, 27, 5, .ro, 0, false⟩
/-- R515. -/
def PWR_SENSOR_SEL_SENSOR : Fld := ⟨0xA040, 0, 4, .rw, 0, false⟩
/-- R515. -/
def PWR_SENSOR_DATA_T16 : Fld := ⟨0xA044, 0, 16, .ro, 0, false⟩
/-- R515. -/
def PWR_SENSOR_DATA_COUNT : Fld := ⟨0xA044, 16, 16, .ro, 0, false⟩
/-- R515. -/
def PWR_SENSOR_FUSE_N0 : Fld := ⟨0xA048, 0, 16, .ro, 0, false⟩
/-- R515. -/
def PWR_SENSOR_FUSE_SLOPE_MAG : Fld := ⟨0xA048, 16, 16, .ro, 0, false⟩
/-- R515. -/
def PWR_SENSOR_FLAGS_BAD : Fld := ⟨0xA04C, 0, 16, .ro, 0, false⟩
/-- R515. -/
def PWR_SENSOR_FLAGS_REJECTED : Fld := ⟨0xA04C, 16, 16, .ro, 0, false⟩
/-- R516. -/
def PWR_RELEASE_KEY : Fld := ⟨0xA050, 0, 32, .wo, 0, false⟩
/-- R516. -/
def PWR_HOLD_HOLD_REQ : Fld := ⟨0xA054, 0, 1, .w1s, 0, false⟩
/-- R516. -/
def PWR_HOLD_RELEASE_RESULT : Fld := ⟨0xA054, 1, 2, .ro, 0, false⟩
/-- R517. -/
def LDG_ADDR_WORD : Fld := ⟨0xA060, 0, 12, .rw, 0, false⟩
/-- R517. -/
def LDG_DATA_DATA : Fld := ⟨0xA064, 0, 32, .ro, 0, false⟩
/-- R517. -/
def LDG_STATUS_NEXT_SLOT : Fld := ⟨0xA068, 0, 8, .ro, 0, false⟩
/-- R517. -/
def LDG_STATUS_WRITE_ERR : Fld := ⟨0xA068, 8, 8, .ro, 0, false⟩
/-- R517. -/
def LDG_STATUS_BUSY : Fld := ⟨0xA068, 16, 1, .ro, 0, false⟩
/-- R466. -/
def HK_CTRL_ENABLE : Fld := ⟨0xB000, 0, 1, .rw, 0, true⟩
/-- R466. -/
def HK_CTRL_SELFCAL : Fld := ⟨0xB000, 1, 1, .wo, 0, false⟩
/-- R466. -/
def HK_CTRL_EVT_EVERY : Fld := ⟨0xB000, 8, 8, .rw, 0, false⟩
/-- R467. -/
def HK_CONV_CFG_P_SEL : Fld := ⟨0xB004, 0, 5, .rw, 31, false⟩
/-- R467. -/
def HK_CONV_CFG_N_SEL : Fld := ⟨0xB004, 5, 5, .rw, 18, false⟩
/-- R467. -/
def HK_CONV_CFG_REF_SEL : Fld := ⟨0xB004, 10, 1, .rw, 0, false⟩
/-- R467. -/
def HK_CONV_CFG_GAIN : Fld := ⟨0xB004, 11, 3, .rw, 0, false⟩
/-- R467. -/
def HK_CONV_CFG_EXC_USE : Fld := ⟨0xB004, 14, 1, .rw, 0, false⟩
/-- R467. -/
def HK_CONV_CFG_OW_EN : Fld := ⟨0xB004, 15, 1, .rw, 0, false⟩
/-- R467. -/
def HK_CONV_CFG_OW_MAG : Fld := ⟨0xB004, 16, 1, .rw, 0, false⟩
/-- R467. -/
def HK_CONV_CFG_OW_DIR : Fld := ⟨0xB004, 17, 1, .rw, 0, false⟩
/-- R468. -/
def HK_RATE_DEC_HALF : Fld := ⟨0xB008, 0, 19, .rw, 78125, false⟩
/-- R469. -/
def HK_EXC_CTRL_MODE : Fld := ⟨0xB00C, 0, 2, .rw, 0, false⟩
/-- R469. -/
def HK_EXC_CTRL_PULSED : Fld := ⟨0xB00C, 2, 1, .rw, 0, false⟩
/-- R469. -/
def HK_EXC_CTRL_LEVEL : Fld := ⟨0xB00C, 4, 12, .rw, 0, false⟩
/-- R469. -/
def HK_EXC_CTRL_KEEP : Fld := ⟨0xB00C, 16, 8, .rw, 1, false⟩
/-- R470. -/
def HK_EXC_LEAD_LEAD_US : Fld := ⟨0xB010, 0, 17, .rw, 1000, false⟩
/-- R470. -/
def HK_EXC_REST_REST_US : Fld := ⟨0xB014, 0, 17, .rw, 1000, false⟩
/-- R471. -/
def HK_STATUS_PHASE : Fld := ⟨0xB018, 0, 3, .ro, 0, false⟩
/-- R471. -/
def HK_STATUS_EXC_ON : Fld := ⟨0xB018, 3, 1, .ro, 0, false⟩
/-- R471. -/
def HK_STATUS_EXC_LIMIT : Fld := ⟨0xB018, 4, 1, .w1c, 0, false⟩
/-- R471. -/
def HK_STATUS_REF_LOW : Fld := ⟨0xB018, 5, 1, .w1c, 0, false⟩
/-- R471. -/
def HK_STATUS_CAL_DONE : Fld := ⟨0xB018, 6, 1, .w1c, 0, false⟩
/-- R471. -/
def HK_STATUS_CAL_REFUSED : Fld := ⟨0xB018, 7, 1, .w1c, 0, false⟩
/-- R471. -/
def HK_STATUS_CAL_VALID : Fld := ⟨0xB018, 8, 1, .ro, 0, false⟩
/-- R472. -/
def HK_RESULT_VALUE : Fld := ⟨0xB01C, 0, 24, .ro, 0, false⟩
/-- R472. -/
def HK_RESULT_CLAMP : Fld := ⟨0xB01C, 24, 1, .ro, 0, false⟩
/-- R472. -/
def HK_RESULT_REF_LOW : Fld := ⟨0xB01C, 25, 1, .ro, 0, false⟩
/-- R472. -/
def HK_RESULT_UNCAL : Fld := ⟨0xB01C, 26, 1, .ro, 1, false⟩
/-- R472. -/
def HK_RESULT_OW : Fld := ⟨0xB01C, 27, 1, .ro, 0, false⟩
/-- R472. -/
def HK_RESULT_EXC_LIMIT : Fld := ⟨0xB01C, 28, 1, .ro, 0, false⟩
/-- R472. -/
def HK_RESULT_INFO_SEQ : Fld := ⟨0xB020, 0, 16, .ro, 0, false⟩
/-- R472. -/
def HK_RESULT_INFO_P_SEL : Fld := ⟨0xB020, 16, 5, .ro, 0, false⟩
/-- R472. -/
def HK_RESULT_INFO_N_SEL : Fld := ⟨0xB020, 21, 5, .ro, 0, false⟩
/-- R472. -/
def HK_RESULT_INFO_GAIN : Fld := ⟨0xB020, 26, 3, .ro, 0, false⟩
/-- R472. -/
def HK_RESULT_INFO_REF_SEL : Fld := ⟨0xB020, 29, 1, .ro, 0, false⟩
/-- R473. -/
def HK_COUNTS_DISCARDED : Fld := ⟨0xB024, 0, 16, .ro, 0, false⟩
/-- R473. -/
def HK_COUNTS_BLANKED : Fld := ⟨0xB024, 16, 16, .ro, 0, false⟩
/-- R474. -/
def HK_MON_CFG_ENABLE : Fld := ⟨0xB028, 0, 1, .rw, 0, false⟩
/-- R474. -/
def HK_MON_CFG_MP : Fld := ⟨0xB028, 1, 4, .rw, 0, false⟩
/-- R474. -/
def HK_MON_CFG_MN : Fld := ⟨0xB028, 5, 4, .rw, 1, false⟩
/-- R474. -/
def HK_MON_CFG_MGAIN : Fld := ⟨0xB028, 9, 3, .rw, 0, false⟩
/-- R475. -/
def HK_CAL_OFS_OFS (i : Nat) : Fld := ⟨0xB040 + 0x8 * i, 0, 24, .rw, 0, false⟩
/-- R475. -/
def HK_CAL_GAIN_GAIN_F (i : Nat) : Fld := ⟨0xB044 + 0x8 * i, 0, 24, .rw, 4194304, false⟩
/-- R437. -/
def FLT_STATUS_BEYOND_MODEL : Fld := ⟨0xC000, 0, 1, .ro, 0, false⟩
/-- R437. -/
def FLT_STATUS_DOUBLE_BYTE : Fld := ⟨0xC000, 1, 1, .w1c, 0, false⟩
/-- R437. -/
def FLT_STATUS_TWO_COPIES : Fld := ⟨0xC000, 2, 1, .w1c, 0, false⟩
/-- R437. -/
def FLT_STATUS_INDEX : Fld := ⟨0xC000, 3, 1, .w1c, 0, false⟩
/-- R437. -/
def FLT_STATUS_REF_LOST : Fld := ⟨0xC000, 4, 1, .w1c, 0, false⟩
/-- R437. -/
def FLT_STATUS_BOTH_DOMAINS : Fld := ⟨0xC000, 5, 1, .w1c, 0, false⟩
/-- R437. -/
def FLT_STATUS_JUNCTION : Fld := ⟨0xC000, 6, 1, .w1c, 0, false⟩
/-- R437. -/
def FLT_STATUS_ASSAYS_WAITING : Fld := ⟨0xC000, 8, 5, .ro, 0, false⟩
/-- R437. -/
def FLT_STATUS_ASSAY_ACTIVE : Fld := ⟨0xC000, 13, 1, .ro, 0, false⟩
/-- R438. -/
def FLT_LOG_STATUS_ENTRIES : Fld := ⟨0xC004, 0, 9, .ro, 0, false⟩
/-- R438. -/
def FLT_LOG_STATUS_NEXT_SEQ : Fld := ⟨0xC004, 16, 16, .ro, 0, false⟩
/-- R439. -/
def FLT_LOG_SEL_SLOT : Fld := ⟨0xC008, 0, 8, .rw, 0, false⟩
/-- R440. -/
def FLT_LOG_DATA0_W0 : Fld := ⟨0xC00C, 0, 32, .ro, 0, false⟩
/-- R440. -/
def FLT_LOG_DATA1_W1 : Fld := ⟨0xC010, 0, 32, .ro, 0, false⟩
/-- R440. -/
def FLT_LOG_DATA2_W2 : Fld := ⟨0xC014, 0, 32, .ro, 0, false⟩
/-- R440. -/
def FLT_LOG_DATA3_W3 : Fld := ⟨0xC018, 0, 32, .ro, 0, false⟩
/-- R441. -/
def FLT_COUNT_MEM_CORRECTED : Fld := ⟨0xC01C, 0, 16, .ro, 0, false⟩
/-- R441. -/
def FLT_COUNT_MEM_UNCORRECTABLE : Fld := ⟨0xC01C, 16, 16, .ro, 0, false⟩
/-- R441. -/
def FLT_COUNT_VOTE_FIXED : Fld := ⟨0xC020, 0, 16, .ro, 0, false⟩
/-- R441. -/
def FLT_COUNT_VOTE_TWO_COPY : Fld := ⟨0xC020, 16, 16, .ro, 0, false⟩
/-- R441. -/
def FLT_COUNT_ASSAY_TRANSIENT : Fld := ⟨0xC024, 0, 12, .ro, 0, false⟩
/-- R441. -/
def FLT_COUNT_ASSAY_LASTING : Fld := ⟨0xC024, 12, 8, .ro, 0, false⟩
/-- R441. -/
def FLT_COUNT_ASSAY_INCONCLUSIVE : Fld := ⟨0xC024, 20, 6, .ro, 0, false⟩
/-- R441. -/
def FLT_COUNT_ASSAY_NOT_ASSAYED : Fld := ⟨0xC024, 26, 6, .ro, 0, false⟩
/-- R441. -/
def FLT_LOG_OVERWRITES_OVERWRITES : Fld := ⟨0xC028, 0, 32, .ro, 0, false⟩
/-- R442. -/
def FLT_SELFTEST_BANK_FAIL : Fld := ⟨0xC02C, 0, 16, .ro, 0, false⟩
/-- R442. -/
def FLT_SELFTEST_SMALL_MEM_FAIL : Fld := ⟨0xC02C, 16, 1, .ro, 0, false⟩
/-- R442. -/
def FLT_SELFTEST_CORE_FAIL : Fld := ⟨0xC02C, 17, 1, .ro, 0, false⟩
/-- R442. -/
def FLT_SELFTEST_LQ_FAIL : Fld := ⟨0xC02C, 18, 12, .ro, 0, false⟩
/-- R442. -/
def FLT_SELFTEST_FATAL : Fld := ⟨0xC02C, 30, 1, .ro, 0, false⟩
/-- R442. -/
def FLT_SELFTEST_DONE : Fld := ⟨0xC02C, 31, 1, .ro, 0, false⟩
/-- R538. -/
def HM_STATUS_SEALED : Fld := ⟨0xD000, 0, 1, .ro, 0, false⟩
/-- R538. -/
def HM_STATUS_CRC_FAIL : Fld := ⟨0xD000, 1, 1, .ro, 0, false⟩
/-- R538. -/
def HM_STATUS_RWL_LOCKED : Fld := ⟨0xD000, 2, 1, .ro, 0, false⟩
/-- R538. -/
def HM_STATUS_DISAGREE : Fld := ⟨0xD000, 16, 16, .ro, 0, false⟩
/-- R539. -/
def HM_READ_ADDR_WORD : Fld := ⟨0xD004, 0, 8, .rw, 0, false⟩
/-- R539. -/
def HM_READ_DATA_DATA : Fld := ⟨0xD008, 0, 32, .ro, 0, false⟩
/-- R540. -/
def HM_DENIED_COUNT : Fld := ⟨0xD00C, 0, 16, .ro, 0, false⟩
/-- R540. -/
def HM_DENIED_LAST_GROUP : Fld := ⟨0xD00C, 16, 4, .ro, 0, false⟩
/-- R540. -/
def HM_DENIED_LAST_SOURCE : Fld := ⟨0xD00C, 20, 2, .ro, 0, false⟩
/-- R541. -/
def HM_PROG_ADDR_WORD : Fld := ⟨0xD010, 0, 4, .rwl, 0, false⟩
/-- R541. -/
def HM_PROG_DATA_DATA : Fld := ⟨0xD014, 0, 32, .rwl, 0, false⟩
/-- R541. -/
def HM_PROG_CONFIRM_SERIAL_LO : Fld := ⟨0xD018, 0, 32, .rwl, 0, false⟩
/-- R542. -/
def HM_PROG_CTRL_PROGRAM : Fld := ⟨0xD01C, 0, 1, .wo, 0, false⟩
/-- R542. -/
def HM_PROG_CTRL_BUSY : Fld := ⟨0xD01C, 1, 1, .ro, 0, false⟩
/-- R542. -/
def HM_PROG_CTRL_RESULT : Fld := ⟨0xD01C, 2, 3, .ro, 0, false⟩
/-- R543. -/
def HM_ATTEST_STATS_ANSWERED : Fld := ⟨0xD020, 0, 16, .ro, 0, false⟩
/-- R543. -/
def HM_ATTEST_STATS_BUSY : Fld := ⟨0xD020, 16, 16, .ro, 0, false⟩
/-- R398. -/
def XC_SEL_GROUP : Fld := ⟨0xE000, 0, 6, .rw, 0, false⟩
/-- R399. -/
def XC_COUNTS_FLUSHES : Fld := ⟨0xE004, 0, 16, .ro, 0, false⟩
/-- R399. -/
def XC_COUNTS_CHECK_ERR : Fld := ⟨0xE004, 16, 12, .ro, 0, false⟩
/-- R399. -/
def XC_COUNTS_HELD : Fld := ⟨0xE004, 28, 1, .ro, 0, false⟩
/-- R400. -/
def XC_TOTAL_FLUSHES : Fld := ⟨0xE008, 0, 24, .ro, 0, false⟩
/-- R400. -/
def XC_TOTAL_CHECK_ERR : Fld := ⟨0xE008, 24, 8, .ro, 0, false⟩

end Reg

open Reg

/-- The Identity and Global block (R544). -/
def regsIdentityAndGlobal : List RegDesc :=
  [⟨0x0, 0x4, 1, fun _ => [ID_PART_PART, ID_PART_VENDOR]⟩,
   ⟨0x4, 0x4, 1, fun _ => [ID_STEP_LETTER, ID_STEP_DIGIT, ID_STEP_GRADE]⟩,
   ⟨0x8, 0x4, 1, fun _ => [ID_CAP_ROOT_FIRST]⟩,
   ⟨0xc, 0x4, 1, fun _ => [ID_SERIAL_LO_SERIAL_LO]⟩,
   ⟨0x10, 0x4, 1, fun _ => [ID_SERIAL_HI_SERIAL_HI]⟩,
   ⟨0x14, 0x4, 1, fun _ => [ID_LOT_LOT, ID_LOT_WAFER]⟩,
   ⟨0x18, 0x4, 1, fun _ => [ID_DIE_DIE_X, ID_DIE_DIE_Y]⟩,
   ⟨0x1c, 0x4, 1, fun _ => [ID_PATTERN_PATTERN]⟩,
   ⟨0x100, 0x4, 1, fun _ => [GLB_ROLE_STATUS_STRAP_LATCHED, GLB_ROLE_STATUS_STRAP_LIVE, GLB_ROLE_STATUS_PERMITTED, GLB_ROLE_STATUS_ACTIVE_ROLE, GLB_ROLE_STATUS_ROLE_FIXED, GLB_ROLE_STATUS_ROLE_REFUSED, GLB_ROLE_STATUS_CFG_REFUSED]⟩,
   ⟨0x104, 0x4, 1, fun _ => [GLB_ROLE_CFG_UPLINK_MASK]⟩,
   ⟨0x108, 0x4, 1, fun _ => [GLB_DEVICE_NUMBER_DEVNUM, GLB_DEVICE_NUMBER_VALID]⟩,
   ⟨0x10c, 0x4, 1, fun _ => [GLB_LADDER_LATE_LATE_RECORDS]⟩,
   ⟨0x110, 0x4, 1, fun _ => [GLB_LADDER_LOSS_LOSS_RECORDS]⟩,
   ⟨0x114, 0x4, 1, fun _ => [GLB_SLUICE_SLIP_SLIP_SHORT, GLB_SLUICE_SLIP_SLIP_LONG]⟩,
   ⟨0x118, 0x4, 1, fun _ => [GLB_BRINGUP_STATUS_RAILS_OK, GLB_BRINGUP_STATUS_HM_READ_DONE, GLB_BRINGUP_STATUS_REF_WAIT, GLB_BRINGUP_STATUS_ROLE_FIXED, GLB_BRINGUP_STATUS_RAMP_DONE, GLB_BRINGUP_STATUS_ANY_FRAMED, GLB_BRINGUP_STATUS_ANY_ATTESTED, GLB_BRINGUP_STATUS_ANY_FULL, GLB_BRINGUP_STATUS_DATA_STARTED, GLB_BRINGUP_STATUS_FULL_SERVICE]⟩,
   ⟨0x11c, 0x4, 1, fun _ => [GLB_DATA_START_FI]⟩,
   ⟨0x120, 0x4, 1, fun _ => [GLB_FULL_SERVICE_FI_FI]⟩]

/-- The Time block (R544). -/
def regsTime : List RegDesc :=
  [⟨0x1000, 0x4, 1, fun _ => [TIM_CTRL_SERVO_EN, TIM_CTRL_AUTO_SWITCH, TIM_CTRL_PREFER, TIM_CTRL_FORCE, TIM_CTRL_HOLD_REQ, TIM_CTRL_FREE, TIM_CTRL_PHASE_AVG_K, TIM_CTRL_SWITCH_REFUSED]⟩,
   ⟨0x1004, 0x4, 1, fun _ => [TIM_STATUS_CLK_STATE, TIM_STATUS_SELECTED, TIM_STATUS_DOM_A_STATE, TIM_STATUS_DOM_B_STATE, TIM_STATUS_STAMPS_REFINED, TIM_STATUS_ASYM_WATCH, TIM_STATUS_TOD_MISMATCH, TIM_STATUS_PPS_OUT_OF_BAND, TIM_STATUS_STEPPED]⟩,
   ⟨0x1008, 0x4, 1, fun _ => [TIM_NOW_SEC_LO_SEC_LO]⟩,
   ⟨0x100c, 0x4, 1, fun _ => [TIM_NOW_SEC_HI_SEC_HI, TIM_NOW_SEC_HI_FRAC]⟩,
   ⟨0x1010, 0x4, 1, fun _ => [TIM_NOW_NS_NS]⟩,
   ⟨0x1014, 0x4, 1, fun _ => [TIM_NOW_FI_FI]⟩,
   ⟨0x1018, 0x4, 1, fun _ => [TIM_SERVO_KP_KP]⟩,
   ⟨0x101c, 0x4, 1, fun _ => [TIM_SERVO_KI_KI]⟩,
   ⟨0x1020, 0x4, 1, fun _ => [TIM_SERVO_LIMITS_SLEW_LIMIT, TIM_SERVO_LIMITS_LOCK_THRESH]⟩,
   ⟨0x1024, 0x4, 1, fun _ => [TIM_SERVO_INTEG_INTEG]⟩,
   ⟨0x1030, 0x4, 2, fun i => [TIM_DOM_CFG_PORT i, TIM_DOM_CFG_ENABLE i, TIM_DOM_CFG_CFG_ERR i, TIM_DOM_CFG_EXPECT_ID i, TIM_DOM_CFG_LOST_TIMEOUT i]⟩,
   ⟨0x1038, 0x4, 2, fun i => [TIM_DOM_ASYM_ASYM i]⟩,
   ⟨0x1040, 0x4, 2, fun i => [TIM_DOM_OFS_OFS i]⟩,
   ⟨0x1048, 0x4, 2, fun i => [TIM_DOM_DELAY_DELAY i]⟩,
   ⟨0x1050, 0x4, 1, fun _ => [TIM_ASYM_CTRL_STEP_THRESH, TIM_ASYM_CTRL_WINDOW, TIM_ASYM_CTRL_CLEAR_A, TIM_ASYM_CTRL_CLEAR_B]⟩,
   ⟨0x1054, 0x4, 1, fun _ => [TIM_HOLD_FRAMES_FRAMES]⟩,
   ⟨0x1060, 0x4, 1, fun _ => [TIM_SRC_CFG_DOMAIN_ID, TIM_SRC_CFG_PPS_POL, TIM_SRC_CFG_TOD_EN]⟩,
   ⟨0x1064, 0x4, 1, fun _ => [TIM_PPS_CORR_PPS_CORR]⟩,
   ⟨0x1068, 0x4, 1, fun _ => [TIM_TOD_STATUS_LAST_SEQ, TIM_TOD_STATUS_LAST_FLAGS, TIM_TOD_STATUS_BAD_MSG]⟩,
   ⟨0x1080, 0x4, 1, fun _ => [TIM_HG_CTRL_GRACE, TIM_HG_CTRL_HELD]⟩,
   ⟨0x1084, 0x4, 1, fun _ => [TIM_HG_STATS_LATE_EXEC, TIM_HG_STATS_REFUSED]⟩,
   ⟨0x1090, 0x4, 1, fun _ => [TIM_TXQ_CTRL_POP, TIM_TXQ_CTRL_LEVEL, TIM_TXQ_CTRL_OVF, TIM_TXQ_CTRL_DROPS]⟩,
   ⟨0x1094, 0x4, 1, fun _ => [TIM_TXQ_ENTRY_ID, TIM_TXQ_ENTRY_LANE, TIM_TXQ_ENTRY_VALID]⟩,
   ⟨0x1098, 0x4, 1, fun _ => [TIM_TXQ_FI_FI]⟩,
   ⟨0x109c, 0x4, 1, fun _ => [TIM_TXQ_OFS_OFS]⟩]

/-- The Channels block (R544). -/
def regsChannels : List RegDesc :=
  [⟨0x2000, 0x40, 48, fun i => [CH_CTRL_ENABLE i, CH_CTRL_COUPLING i, CH_CTRL_MERGE_MODE i, CH_CTRL_TRK_EN i]⟩,
   ⟨0x2004, 0x40, 48, fun i => [CH_STATUS_POWERED i, CH_STATUS_PROVISIONAL i, CH_STATUS_CAL_ACTIVE i, CH_STATUS_TRK_ALARM i, CH_STATUS_BG_REJECT i, CH_STATUS_CAL_FAIL i, CH_STATUS_TRK_PAIRS i]⟩,
   ⟨0x2008, 0x40, 48, fun i => [CH_OFFSET_DAC_CODE i]⟩,
   ⟨0x200c, 0x40, 48, fun i => [CH_DISC_THRESH i, CH_DISC_EDGE i, CH_DISC_HYST i]⟩,
   ⟨0x2010, 0x40, 48, fun i => [CH_DEC_LOG2D i, CH_DEC_FMT i]⟩,
   ⟨0x2014, 0x40, 48, fun i => [CH_LG_GAIN_GL i]⟩,
   ⟨0x2018, 0x40, 48, fun i => [CH_LG_OFS_OL i]⟩,
   ⟨0x201c, 0x40, 48, fun i => [CH_HG_GAIN_GH i]⟩,
   ⟨0x2020, 0x40, 48, fun i => [CH_HG_OFS_OH i]⟩,
   ⟨0x2024, 0x40, 48, fun i => [CH_MERGE_STATS_SEAMS i, CH_MERGE_STATS_CLIPS i]⟩,
   ⟨0x2028, 0x40, 48, fun i => [CH_TDC_CTRL_TDC_EN i, CH_TDC_CTRL_XCAL_EN i]⟩,
   ⟨0x202c, 0x40, 48, fun i => [CH_TDC_STATUS_SLOW_LOCK i, CH_TDC_STATUS_FAST_LOCK i, CH_TDC_STATUS_LIN_VALID i, CH_TDC_STATUS_LIN_ACTIVE i, CH_TDC_STATUS_LIN_FAIL i, CH_TDC_STATUS_XC_ALARM i, CH_TDC_STATUS_ALIGN_RANGE i, CH_TDC_STATUS_LENT i, CH_TDC_STATUS_XC_PAIRS i]⟩,
   ⟨0x2030, 0x40, 48, fun i => [CH_TDC_DELAY_DELAY i]⟩,
   ⟨0x2034, 0x40, 48, fun i => [CH_BOARD_DELAY_BOARD i]⟩,
   ⟨0x2038, 0x40, 48, fun i => [CH_ALIGN_TRIM i, CH_ALIGN_PKG i]⟩,
   ⟨0x203c, 0x40, 48, fun i => [CH_TDC_COUNTS_BUSY i, CH_TDC_COUNTS_UNAVAIL i, CH_TDC_COUNTS_ERR i]⟩,
   ⟨0x2c00, 0x4, 1, fun _ => [CH_CAL_CTRL_QUAD_MASK, CH_CAL_CTRL_START, CH_CAL_CTRL_FORCE, CH_CAL_CTRL_ABORT, CH_CAL_CTRL_FG_WAIT]⟩,
   ⟨0x2c04, 0x4, 1, fun _ => [CH_CAL_STATUS_FG_DONE, CH_CAL_STATUS_ROT_ACTIVE, CH_CAL_STATUS_CUR_QUAD, CH_CAL_STATUS_CAL_REFUSED, CH_CAL_STATUS_BG_ACTIVE, CH_CAL_STATUS_FAIL_QUADS]⟩,
   ⟨0x2c08, 0x4, 1, fun _ => [CH_TRK_CFG_SHIFT, CH_TRK_CFG_MIN_PAIRS]⟩,
   ⟨0x2c0c, 0x4, 1, fun _ => [CH_BG_CFG_BG_EN, CH_BG_CFG_SLOT_MS]⟩,
   ⟨0x2c10, 0x4, 1, fun _ => [TDC_CAL_CTRL_QUAD_MASK, TDC_CAL_CTRL_START, TDC_CAL_CTRL_AUTO_DT]⟩,
   ⟨0x2c14, 0x4, 1, fun _ => [TDC_CAL_STATUS_BOOT_DONE, TDC_CAL_STATUS_ACTIVE, TDC_CAL_STATUS_REFUSED, TDC_CAL_STATUS_FAIL_QUADS]⟩,
   ⟨0x2c18, 0x4, 1, fun _ => [TDC_LUT_ACCESS_CHAN, TDC_LUT_ACCESS_CODE, TDC_LUT_ACCESS_ENTRY]⟩,
   ⟨0x2c1c, 0x4, 1, fun _ => [TDC_FUSE_CFG_AGREE, TDC_FUSE_CFG_ASSOC]⟩,
   ⟨0x2c20, 0x4, 1, fun _ => [TDC_XCAL_CFG_SHIFT, TDC_XCAL_CFG_MIN_SLOPE, TDC_XCAL_CFG_XC_LIMIT]⟩,
   ⟨0x2c24, 0x4, 1, fun _ => [TDC_LEND_LEND_A, TDC_LEND_LEND_B, TDC_LEND_MODE_A, TDC_LEND_MODE_B]⟩,
   ⟨0x2c30, 0x4, 1, fun _ => [TDC_STAT_CTRL_START, TDC_STAT_CTRL_ABORT, TDC_STAT_CTRL_MODE, TDC_STAT_CTRL_K, TDC_STAT_CTRL_START_SRC, TDC_STAT_CTRL_STOP_SRC, TDC_STAT_CTRL_SPAN_LOG2]⟩,
   ⟨0x2c34, 0x4, 1, fun _ => [TDC_STAT_STATUS_RUNNING, TDC_STAT_STATUS_DONE, TDC_STAT_STATUS_COUNT]⟩,
   ⟨0x2c38, 0x4, 1, fun _ => [TDC_STAT_MEAN_MEAN]⟩,
   ⟨0x2c3c, 0x4, 1, fun _ => [TDC_STAT_DEV_DEV]⟩,
   ⟨0x2c40, 0x4, 1, fun _ => [TDC_STAT_MIN_MIN]⟩,
   ⟨0x2c44, 0x4, 1, fun _ => [TDC_STAT_MAX_MAX]⟩,
   ⟨0x2c48, 0x4, 1, fun _ => [TDC_STAT_FLAGS_NEAR, TDC_STAT_FLAGS_UNPAIRED]⟩]

/-- The Trigger and capture block (R544). -/
def regsTriggerAndCapture : List RegDesc :=
  [⟨0x3000, 0x20, 48, fun i => [CH_CAPTURE_LEN_DIV8 i, CH_CAPTURE_PRE i, CH_CAPTURE_POLICY i]⟩,
   ⟨0x3004, 0x20, 48, fun i => [CH_TRGA_CTRL_TYPE i, CH_TRGA_CTRL_DIR i, CH_TRGA_CTRL_MULT i, CH_TRGA_CTRL_CAPTURE_EN i, CH_TRGA_CTRL_PARAM i, CH_TRGA_CTRL_PARAM2 i]⟩,
   ⟨0x3008, 0x20, 48, fun i => [CH_TRGA_LEVEL_LEVEL i, CH_TRGA_LEVEL_LEVEL2 i]⟩,
   ⟨0x300c, 0x20, 48, fun i => [CH_TRGB_CTRL_TYPE i, CH_TRGB_CTRL_DIR i, CH_TRGB_CTRL_MULT i, CH_TRGB_CTRL_CAPTURE_EN i, CH_TRGB_CTRL_PARAM i, CH_TRGB_CTRL_PARAM2 i]⟩,
   ⟨0x3010, 0x20, 48, fun i => [CH_TRGB_LEVEL_LEVEL i, CH_TRGB_LEVEL_LEVEL2 i]⟩,
   ⟨0x3014, 0x20, 48, fun i => [CH_TRG_REF_LO_FILL i, CH_TRG_REF_LO_REARM i]⟩,
   ⟨0x3018, 0x20, 48, fun i => [CH_TRG_REF_HI_BUSY i, CH_TRG_REF_HI_OFF i]⟩,
   ⟨0x301c, 0x20, 48, fun i => [CH_TRG_STATUS_CAPTURE_OPEN i, CH_TRG_STATUS_AT_LIMIT i, CH_TRG_STATUS_FILLED i, CH_TRG_STATUS_CAPTURES i]⟩,
   ⟨0x3600, 0x4, 12, fun i => [TRG_QUAD_MULT_K i, TRG_QUAD_MULT_W i]⟩,
   ⟨0x3630, 0x4, 1, fun _ => [TRG_DEV_MULT_M, TRG_DEV_MULT_W]⟩,
   ⟨0x3634, 0x4, 1, fun _ => [TRG_DEAD_SEL_CHAN, TRG_DEAD_SEL_REASON]⟩,
   ⟨0x3638, 0x4, 1, fun _ => [TRG_DEAD_LO_COUNT_LO]⟩,
   ⟨0x363c, 0x4, 1, fun _ => [TRG_DEAD_HI_COUNT_HI]⟩,
   ⟨0x3640, 0x4, 12, fun i => [TRG_MASK_CFG_ENABLE i, TRG_MASK_CFG_ANCHOR i, TRG_MASK_CFG_STEP_LOG2 i, TRG_MASK_CFG_STOP i, TRG_MASK_CFG_STOPPED i, TRG_MASK_CFG_REARM i, TRG_MASK_CFG_CHAN_MASK i]⟩,
   ⟨0x3670, 0x4, 12, fun i => [TRG_MASK_VIOL_VIOL i, TRG_MASK_VIOL_STOPS i]⟩,
   ⟨0x36a0, 0x4, 1, fun _ => [TRG_MASK_ADDR_QUAD, TRG_MASK_ADDR_ENV, TRG_MASK_ADDR_POINT]⟩,
   ⟨0x36a4, 0x4, 1, fun _ => [TRG_MASK_DATA_VALUE]⟩,
   ⟨0x36a8, 0x4, 1, fun _ => [TRG_MASK_COMMIT_QUADS]⟩,
   ⟨0x3700, 0x8, 4, fun i => [TRG_STREAM_CFG_ENABLE i, TRG_STREAM_CFG_CHAN i, TRG_STREAM_CFG_LANE i, TRG_STREAM_CFG_RESERVE i]⟩,
   ⟨0x3704, 0x8, 4, fun i => [TRG_STREAM_STATUS_ACTIVE i, TRG_STREAM_STATUS_GAP i, TRG_STREAM_STATUS_CAL_SKIPPED i, TRG_STREAM_STATUS_LANE_GONE i, TRG_STREAM_STATUS_MARK_OVF i, TRG_STREAM_STATUS_SPILL i]⟩,
   ⟨0x3720, 0x4, 1, fun _ => [TRG_BUDGET_STATUS_REFUSED, TRG_BUDGET_STATUS_REASON, TRG_BUDGET_STATUS_SLOT, TRG_BUDGET_STATUS_FLOOR]⟩]

/-- The Compression block (R544). -/
def regsCompression : List RegDesc :=
  [⟨0x4000, 0x4, 1, fun _ => [CMP_CTRL_HIT_EN, CMP_CTRL_STREAM_EN, CMP_CTRL_PRED_MASK, CMP_CTRL_XCH_QUADS]⟩,
   ⟨0x4004, 0x4, 1, fun _ => [CMP_STATUS_ENC_ENGINES, CMP_STATUS_CHK_ENGINES]⟩,
   ⟨0x4008, 0x4, 1, fun _ => [CMP_REC_STATS_COMPRESSED, CMP_REC_STATS_DEPENDENT]⟩,
   ⟨0x400c, 0x4, 1, fun _ => [CMP_RAW_STATS_EXPANDED, CMP_RAW_STATS_BYPASS]⟩,
   ⟨0x4010, 0x4, 1, fun _ => [CMP_VERIFY_STATS_VERIFY_FAIL, CMP_VERIFY_STATS_LAST_CAUSE]⟩,
   ⟨0x4014, 0x4, 1, fun _ => [CMP_WORDS_IN_WORDS_IN]⟩,
   ⟨0x4018, 0x4, 1, fun _ => [CMP_WORDS_OUT_WORDS_OUT]⟩,
   ⟨0x401c, 0x4, 1, fun _ => [CMP_CHECK_STATS_CORRUPT, CMP_CHECK_STATS_NO_REF]⟩,
   ⟨0x4020, 0x4, 1, fun _ => [CMP_CHECK_LAST_PORT, CMP_CHECK_LAST_CAUSE, CMP_CHECK_LAST_DEVNUM]⟩]

/-- The Lanes block (R544). -/
def regsLanes : List RegDesc :=
  [⟨0x5000, 0x80, 48, fun i => [LN_CTRL_ENABLE i, LN_CTRL_IDLE i, LN_CTRL_FULL_EN i, LN_CTRL_DATA_EN i, LN_CTRL_ATTESTED i, LN_CTRL_ALIGN_MODE i, LN_CTRL_SLIP i, LN_CTRL_ASSAY_START i, LN_CTRL_TX_INVERT i, LN_CTRL_RX_INVERT i, LN_CTRL_SWING i, LN_CTRL_DEEMPH i, LN_CTRL_CTLE i]⟩,
   ⟨0x5004, 0x80, 48, fun i => [LN_STATUS_LSTATE i, LN_STATUS_RATE i, LN_STATUS_DATA_SERVICE i, LN_STATUS_PARTNER_READY i, LN_STATUS_PARTNER_FULL_OK i, LN_STATUS_ASSAY_ACTIVE i, LN_STATUS_ASSAY_VERDICT i, LN_STATUS_FACING_ERR i, LN_STATUS_ATTEST_LOST i, LN_STATUS_SLIP_IN_USE i, LN_STATUS_PARTNER_LANE i]⟩,
   ⟨0x5008, 0x80, 48, fun i => [LN_TX_PHASE_PHASE i]⟩,
   ⟨0x500c, 0x80, 48, fun i => [LN_RX_STATS_FRAMES_OK i]⟩,
   ⟨0x5010, 0x80, 48, fun i => [LN_ERR_STATS_CRC_FAIL i, LN_ERR_STATS_CODE_ERR i, LN_ERR_STATS_FRAMING_LOSS i]⟩,
   ⟨0x5014, 0x80, 48, fun i => [LN_RETRY_RETRIES i, LN_RETRY_RAISES i]⟩,
   ⟨0x5018, 0x80, 48, fun i => [LN_MG_STATS_BUSY i, LN_MG_STATS_REFUSED i, LN_MG_STATS_DROPPED i, LN_MG_STATS_DISCARDED i]⟩,
   ⟨0x501c, 0x80, 48, fun i => [LN_ASSAY_ERR_PRBS_ERR i, LN_ASSAY_ERR_CRC_ERR i]⟩,
   ⟨0x5020, 0x80, 48, fun i => [LN_ASSAY_WORDS_WORDS i]⟩,
   ⟨0x5024, 0x80, 48, fun i => [LN_EYE_CTRL_H i, LN_EYE_CTRL_V i, LN_EYE_CTRL_DWELL_LOG2 i, LN_EYE_CTRL_START i, LN_EYE_CTRL_BUSY i, LN_EYE_CTRL_DONE i]⟩,
   ⟨0x5028, 0x80, 48, fun i => [LN_EYE_ERR_ERRORS i]⟩,
   ⟨0x6800, 0x4, 1, fun _ => [LN_MG_CFG_REQ_LIMIT, LN_MG_CFG_EXEC_LIMIT, LN_MG_CFG_UP_QUEUE]⟩,
   ⟨0x6804, 0x4, 1, fun _ => [LN_ASSAY_CFG_ASSAY_FRAMES, LN_ASSAY_CFG_CRC_LIMIT, LN_ASSAY_CFG_MIN_KWORDS]⟩,
   ⟨0x6808, 0x4, 1, fun _ => [LN_SERVICE_LO_LANES_LO]⟩,
   ⟨0x680c, 0x4, 1, fun _ => [LN_SERVICE_HI_LANES_HI]⟩]

/-- The Memory and code block (R544). -/
def regsMemoryAndCode : List RegDesc :=
  [⟨0x7000, 0x4, 1, fun _ => [MEM_LAYOUT_BANKS_USED, MEM_LAYOUT_BANKS_SPARE]⟩,
   ⟨0x7004, 0x4, 1, fun _ => [REC_FIFO_CTRL_FLUSH, REC_FIFO_CTRL_FLUSH_BUSY, REC_FIFO_CTRL_RESERVE_PAGES]⟩,
   ⟨0x7008, 0x4, 1, fun _ => [REC_FIFO_LEVEL_PAGES_USED, REC_FIFO_LEVEL_HIGH_WATER]⟩,
   ⟨0x700c, 0x4, 1, fun _ => [REC_FIFO_STATS_DROPPED, REC_FIFO_STATS_WITHDRAWN]⟩,
   ⟨0x7010, 0x4, 1, fun _ => [REC_FIFO_FLUSHES_FLUSHES, REC_FIFO_FLUSHES_WRITTEN_OFF]⟩,
   ⟨0x7014, 0x4, 1, fun _ => [REC_DIAG_SEL_QUEUE, REC_DIAG_SEL_WORD]⟩,
   ⟨0x7018, 0x4, 1, fun _ => [REC_DIAG_DATA_DATA]⟩,
   ⟨0x701c, 0x4, 1, fun _ => [REC_DIAG_TAG_NOT_VALID, REC_DIAG_TAG_OPEN, REC_DIAG_TAG_CORRECTED, REC_DIAG_TAG_UNCORRECTABLE, REC_DIAG_TAG_SENT]⟩,
   ⟨0x7020, 0x4, 1, fun _ => [EGR_SEL_RING]⟩,
   ⟨0x7024, 0x4, 1, fun _ => [EGR_STATUS_PAGES, EGR_STATUS_MARKS]⟩,
   ⟨0x7028, 0x4, 1, fun _ => [EGR_POOL_FREE_PAGES, EGR_POOL_LOW_WATER]⟩,
   ⟨0x702c, 0x4, 1, fun _ => [EGR_STATS_REWINDS, EGR_STATS_RESENT]⟩,
   ⟨0x7100, 0x4, 1, fun _ => [MEM_SCRUB_CFG_LAP_LIMIT]⟩,
   ⟨0x7104, 0x4, 1, fun _ => [MEM_SCRUB_LAP_LAST_LAP, MEM_SCRUB_LAP_MAX_LAP, MEM_SCRUB_LAP_LAP_LONG]⟩,
   ⟨0x7108, 0x4, 1, fun _ => [MEM_SCRUB_LAPS_ROUNDS]⟩,
   ⟨0x710c, 0x4, 1, fun _ => [MEM_RETIRE_OP_PAGE, MEM_RETIRE_OP_BANK, MEM_RETIRE_OP_SCOPE, MEM_RETIRE_OP_START, MEM_RETIRE_OP_BUSY, MEM_RETIRE_OP_RESULT]⟩,
   ⟨0x7110, 0x4, 1, fun _ => [MEM_SPARE_SPARE_PAGES, MEM_SPARE_REMAPPED]⟩,
   ⟨0x7114, 0x4, 1, fun _ => [MEM_BANK_RETIRED_BANKS]⟩,
   ⟨0x7140, 0x4, 64, fun i => [MEM_RETIRE_MAP_RETIRED i]⟩,
   ⟨0x7240, 0x4, 64, fun i => [MEM_SUSPECT_MAP_SUSPECT i]⟩]

/-- The Merge block (R544). -/
def regsMerge : List RegDesc :=
  [⟨0x8000, 0x4, 1, fun _ => [MRG_UPLINK_CFG_MIRROR, MRG_UPLINK_CFG_GROUP]⟩,
   ⟨0x8004, 0x4, 1, fun _ => [MRG_STATUS_PARTNER_SPLIT, MRG_STATUS_GROUP_EMPTY]⟩,
   ⟨0x8008, 0x4, 1, fun _ => [MRG_DEDUP_STATS_DUPLICATES, MRG_DEDUP_STATS_RETIRED]⟩,
   ⟨0x800c, 0x4, 1, fun _ => [MRG_RX_STATS_PARTIAL, MRG_RX_STATS_FUTURE, MRG_RX_STATS_UNASSOC]⟩,
   ⟨0x8010, 0x4, 1, fun _ => [MRG_HUB_CTRL_BUILD_EN, MRG_HUB_CTRL_UNSELECTED]⟩,
   ⟨0x8014, 0x4, 1, fun _ => [MRG_RING_SEL0_STREAM_RING, MRG_RING_SEL0_ACCT_RING]⟩,
   ⟨0x8018, 0x4, 1, fun _ => [MRG_RING_SEL1_RESIDUE_RING]⟩,
   ⟨0x801c, 0x4, 1, fun _ => [MRG_BUILD_STATS_GROUPS, MRG_BUILD_STATS_WRITTEN_OFF]⟩,
   ⟨0x8020, 0x4, 1, fun _ => [MRG_ROUTE_ADDR_DEVNUM]⟩,
   ⟨0x8024, 0x4, 1, fun _ => [MRG_ROUTE_DATA_PRIMARY, MRG_ROUTE_DATA_P_VALID, MRG_ROUTE_DATA_ALTERNATE, MRG_ROUTE_DATA_A_VALID]⟩,
   ⟨0x8028, 0x4, 1, fun _ => [MRG_MGMT_STATS_FORWARDED, MRG_MGMT_STATS_UNREACHABLE]⟩,
   ⟨0x8100, 0x4, 40, fun i => [MRG_PORT_DEV_DEVNUM i, MRG_PORT_DEV_VALID i]⟩,
   ⟨0x8200, 0x4, 40, fun i => [MRG_PORT_LOSS_LATE i, MRG_PORT_LOSS_ABSENT i]⟩,
   ⟨0x8300, 0x10, 8, fun i => [MRG_SEL_CFG_ENABLE i, MRG_SEL_CFG_WINDOW_NS i]⟩,
   ⟨0x8304, 0x10, 8, fun i => [MRG_SEL_COND_MIN_MULT i, MRG_SEL_COND_MIN_DEV i, MRG_SEL_COND_MIN_REQ i, MRG_SEL_COND_RING i]⟩,
   ⟨0x8308, 0x10, 8, fun i => [MRG_SEL_REQ_REQ_SETS i]⟩,
   ⟨0x830c, 0x10, 8, fun i => [MRG_SEL_VETO_VETO_SETS i]⟩,
   ⟨0x8380, 0x4, 8, fun i => [MRG_SEL_STATS_ACCEPTED i]⟩,
   ⟨0x8400, 0x10, 32, fun i => [MRG_SET_DEV_DEVNUM i, MRG_SET_DEV_CARE i]⟩,
   ⟨0x8404, 0x10, 32, fun i => [MRG_SET_CHLO_CHAN_LO i]⟩,
   ⟨0x8408, 0x10, 32, fun i => [MRG_SET_CHHI_CHAN_HI i]⟩]

/-- The Host rings block (R544). -/
def regsHostRings : List RegDesc :=
  [⟨0x9000, 0x4, 1, fun _ => [HR_CTRL_ENABLE, HR_CTRL_CTRL_REFUSED]⟩,
   ⟨0x9004, 0x4, 1, fun _ => [HR_TABLE_BASE_LO_ADDR_LO]⟩,
   ⟨0x9008, 0x4, 1, fun _ => [HR_TABLE_BASE_HI_ADDR_HI]⟩,
   ⟨0x900c, 0x4, 1, fun _ => [HR_TALLY_BASE_LO_ADDR_LO]⟩,
   ⟨0x9010, 0x4, 1, fun _ => [HR_TALLY_BASE_HI_ADDR_HI]⟩,
   ⟨0x9014, 0x4, 1, fun _ => [HR_INDEX_BASE_LO_ADDR_LO]⟩,
   ⟨0x9018, 0x4, 1, fun _ => [HR_INDEX_BASE_HI_ADDR_HI]⟩,
   ⟨0x901c, 0x4, 1, fun _ => [HR_HEAD_BASE_LO_ADDR_LO]⟩,
   ⟨0x9020, 0x4, 1, fun _ => [HR_HEAD_BASE_HI_ADDR_HI]⟩,
   ⟨0x9024, 0x4, 1, fun _ => [HR_RING_OP_RING, HR_RING_OP_OP, HR_RING_OP_BUSY, HR_RING_OP_RESULT]⟩,
   ⟨0x9028, 0x4, 1, fun _ => [HR_RING_STATE_STATE, HR_RING_STATE_TYPE, HR_RING_STATE_ERROR, HR_RING_STATE_HEAD_LO]⟩,
   ⟨0x902c, 0x4, 1, fun _ => [HR_EVT_CFG_EVENT_RING, HR_EVT_CFG_REPLY_TIMEOUT]⟩,
   ⟨0x9030, 0x4, 1, fun _ => [HR_TALLY_STATS_SKIPPED, HR_TALLY_STATS_DEFERRED]⟩,
   ⟨0x9034, 0x4, 1, fun _ => [HR_DROP_STATS_NO_RING, HR_DROP_STATS_EVT_DROPPED]⟩,
   ⟨0x9038, 0x4, 1, fun _ => [HR_RING_ERR_RING, HR_RING_ERR_CAUSE, HR_RING_ERR_COUNT]⟩,
   ⟨0x903c, 0x4, 1, fun _ => [HR_LINK_STATUS_LINK_UP, HR_LINK_STATUS_D3HOT, HR_LINK_STATUS_DOWN_EVENTS]⟩,
   ⟨0x9040, 0x4, 1, fun _ => [HR_LOSS_UNWRITTEN_COUNT]⟩,
   ⟨0x9100, 0x4, 16, fun i => [HR_VEC_HOLD_HOLD0 i, HR_VEC_HOLD_HOLD1 i, HR_VEC_HOLD_HOLD2 i, HR_VEC_HOLD_HOLD3 i]⟩]

/-- The Power and thermal block (R544). -/
def regsPowerAndThermal : List RegDesc :=
  [⟨0xa000, 0x4, 1, fun _ => [PWR_STATUS_ADMIT_REFUSED, PWR_STATUS_POWER_OVER, PWR_STATUS_PGOOD, PWR_STATUS_LAST_REFUSED]⟩,
   ⟨0xa004, 0x4, 1, fun _ => [PWR_INPUT_VIN_MV, PWR_INPUT_P_MEAS]⟩,
   ⟨0xa008, 0x4, 1, fun _ => [PWR_CLASS_LIMIT_12, PWR_CLASS_LIMIT_14, PWR_CLASS_CEILING]⟩,
   ⟨0xa00c, 0x4, 1, fun _ => [PWR_WEIGHT_CH_MW, PWR_WEIGHT_LQ_10MW, PWR_WEIGHT_MD_MW]⟩,
   ⟨0xa010, 0x4, 1, fun _ => [PWR_MEM_CTRL_MD_EN, PWR_MEM_CTRL_RESULT]⟩,
   ⟨0xA014, 4, 1, fun _ => (List.range 12).map PWR_DOM_LQ ++ (List.range 4).map PWR_DOM_MD⟩,
   ⟨0xA018, 4, 5, fun i => (List.range (if i = 4 then 8 else 10)).map (fun j => PWR_CH_STATE (10 * i + j))⟩,
   ⟨0xa030, 0x4, 1, fun _ => [PWR_THERM_CFG_WARN, PWR_THERM_CFG_THROTTLE]⟩,
   ⟨0xa034, 0x4, 1, fun _ => [PWR_SHED_LO_CH_LO]⟩,
   ⟨0xa038, 0x4, 1, fun _ => [PWR_SHED_HI_CH_HI, PWR_SHED_HI_LQ]⟩,
   ⟨0xa03c, 0x4, 1, fun _ => [PWR_THERM_STATUS_T_J, PWR_THERM_STATUS_HOT_SENSOR, PWR_THERM_STATUS_STATE, PWR_THERM_STATUS_CAUSE, PWR_THERM_STATUS_ACCEPTED]⟩,
   ⟨0xa040, 0x4, 1, fun _ => [PWR_SENSOR_SEL_SENSOR]⟩,
   ⟨0xa044, 0x4, 1, fun _ => [PWR_SENSOR_DATA_T16, PWR_SENSOR_DATA_COUNT]⟩,
   ⟨0xa048, 0x4, 1, fun _ => [PWR_SENSOR_FUSE_N0, PWR_SENSOR_FUSE_SLOPE_MAG]⟩,
   ⟨0xa04c, 0x4, 1, fun _ => [PWR_SENSOR_FLAGS_BAD, PWR_SENSOR_FLAGS_REJECTED]⟩,
   ⟨0xa050, 0x4, 1, fun _ => [PWR_RELEASE_KEY]⟩,
   ⟨0xa054, 0x4, 1, fun _ => [PWR_HOLD_HOLD_REQ, PWR_HOLD_RELEASE_RESULT]⟩,
   ⟨0xa060, 0x4, 1, fun _ => [LDG_ADDR_WORD]⟩,
   ⟨0xa064, 0x4, 1, fun _ => [LDG_DATA_DATA]⟩,
   ⟨0xa068, 0x4, 1, fun _ => [LDG_STATUS_NEXT_SLOT, LDG_STATUS_WRITE_ERR, LDG_STATUS_BUSY]⟩]

/-- The Housekeeping block (R544). -/
def regsHousekeeping : List RegDesc :=
  [⟨0xb000, 0x4, 1, fun _ => [HK_CTRL_ENABLE, HK_CTRL_SELFCAL, HK_CTRL_EVT_EVERY]⟩,
   ⟨0xb004, 0x4, 1, fun _ => [HK_CONV_CFG_P_SEL, HK_CONV_CFG_N_SEL, HK_CONV_CFG_REF_SEL, HK_CONV_CFG_GAIN, HK_CONV_CFG_EXC_USE, HK_CONV_CFG_OW_EN, HK_CONV_CFG_OW_MAG, HK_CONV_CFG_OW_DIR]⟩,
   ⟨0xb008, 0x4, 1, fun _ => [HK_RATE_DEC_HALF]⟩,
   ⟨0xb00c, 0x4, 1, fun _ => [HK_EXC_CTRL_MODE, HK_EXC_CTRL_PULSED, HK_EXC_CTRL_LEVEL, HK_EXC_CTRL_KEEP]⟩,
   ⟨0xb010, 0x4, 1, fun _ => [HK_EXC_LEAD_LEAD_US]⟩,
   ⟨0xb014, 0x4, 1, fun _ => [HK_EXC_REST_REST_US]⟩,
   ⟨0xb018, 0x4, 1, fun _ => [HK_STATUS_PHASE, HK_STATUS_EXC_ON, HK_STATUS_EXC_LIMIT, HK_STATUS_REF_LOW, HK_STATUS_CAL_DONE, HK_STATUS_CAL_REFUSED, HK_STATUS_CAL_VALID]⟩,
   ⟨0xb01c, 0x4, 1, fun _ => [HK_RESULT_VALUE, HK_RESULT_CLAMP, HK_RESULT_REF_LOW, HK_RESULT_UNCAL, HK_RESULT_OW, HK_RESULT_EXC_LIMIT]⟩,
   ⟨0xb020, 0x4, 1, fun _ => [HK_RESULT_INFO_SEQ, HK_RESULT_INFO_P_SEL, HK_RESULT_INFO_N_SEL, HK_RESULT_INFO_GAIN, HK_RESULT_INFO_REF_SEL]⟩,
   ⟨0xb024, 0x4, 1, fun _ => [HK_COUNTS_DISCARDED, HK_COUNTS_BLANKED]⟩,
   ⟨0xb028, 0x4, 1, fun _ => [HK_MON_CFG_ENABLE, HK_MON_CFG_MP, HK_MON_CFG_MN, HK_MON_CFG_MGAIN]⟩,
   ⟨0xb040, 0x8, 8, fun i => [HK_CAL_OFS_OFS i]⟩,
   ⟨0xb044, 0x8, 8, fun i => [HK_CAL_GAIN_GAIN_F i]⟩]

/-- The Fault log and recovery block (R544). -/
def regsFaultLogAndRecovery : List RegDesc :=
  [⟨0xc000, 0x4, 1, fun _ => [FLT_STATUS_BEYOND_MODEL, FLT_STATUS_DOUBLE_BYTE, FLT_STATUS_TWO_COPIES, FLT_STATUS_INDEX, FLT_STATUS_REF_LOST, FLT_STATUS_BOTH_DOMAINS, FLT_STATUS_JUNCTION, FLT_STATUS_ASSAYS_WAITING, FLT_STATUS_ASSAY_ACTIVE]⟩,
   ⟨0xc004, 0x4, 1, fun _ => [FLT_LOG_STATUS_ENTRIES, FLT_LOG_STATUS_NEXT_SEQ]⟩,
   ⟨0xc008, 0x4, 1, fun _ => [FLT_LOG_SEL_SLOT]⟩,
   ⟨0xc00c, 0x4, 1, fun _ => [FLT_LOG_DATA0_W0]⟩,
   ⟨0xc010, 0x4, 1, fun _ => [FLT_LOG_DATA1_W1]⟩,
   ⟨0xc014, 0x4, 1, fun _ => [FLT_LOG_DATA2_W2]⟩,
   ⟨0xc018, 0x4, 1, fun _ => [FLT_LOG_DATA3_W3]⟩,
   ⟨0xc01c, 0x4, 1, fun _ => [FLT_COUNT_MEM_CORRECTED, FLT_COUNT_MEM_UNCORRECTABLE]⟩,
   ⟨0xc020, 0x4, 1, fun _ => [FLT_COUNT_VOTE_FIXED, FLT_COUNT_VOTE_TWO_COPY]⟩,
   ⟨0xc024, 0x4, 1, fun _ => [FLT_COUNT_ASSAY_TRANSIENT, FLT_COUNT_ASSAY_LASTING, FLT_COUNT_ASSAY_INCONCLUSIVE, FLT_COUNT_ASSAY_NOT_ASSAYED]⟩,
   ⟨0xc028, 0x4, 1, fun _ => [FLT_LOG_OVERWRITES_OVERWRITES]⟩,
   ⟨0xc02c, 0x4, 1, fun _ => [FLT_SELFTEST_BANK_FAIL, FLT_SELFTEST_SMALL_MEM_FAIL, FLT_SELFTEST_CORE_FAIL, FLT_SELFTEST_LQ_FAIL, FLT_SELFTEST_FATAL, FLT_SELFTEST_DONE]⟩]

/-- The Hallmark view block (R544). -/
def regsHallmarkView : List RegDesc :=
  [⟨0xd000, 0x4, 1, fun _ => [HM_STATUS_SEALED, HM_STATUS_CRC_FAIL, HM_STATUS_RWL_LOCKED, HM_STATUS_DISAGREE]⟩,
   ⟨0xd004, 0x4, 1, fun _ => [HM_READ_ADDR_WORD]⟩,
   ⟨0xd008, 0x4, 1, fun _ => [HM_READ_DATA_DATA]⟩,
   ⟨0xd00c, 0x4, 1, fun _ => [HM_DENIED_COUNT, HM_DENIED_LAST_GROUP, HM_DENIED_LAST_SOURCE]⟩,
   ⟨0xd010, 0x4, 1, fun _ => [HM_PROG_ADDR_WORD]⟩,
   ⟨0xd014, 0x4, 1, fun _ => [HM_PROG_DATA_DATA]⟩,
   ⟨0xd018, 0x4, 1, fun _ => [HM_PROG_CONFIRM_SERIAL_LO]⟩,
   ⟨0xd01c, 0x4, 1, fun _ => [HM_PROG_CTRL_PROGRAM, HM_PROG_CTRL_BUSY, HM_PROG_CTRL_RESULT]⟩,
   ⟨0xd020, 0x4, 1, fun _ => [HM_ATTEST_STATS_ANSWERED, HM_ATTEST_STATS_BUSY]⟩]

/-- The Crossings and debug block (R544). -/
def regsCrossingsAndDebug : List RegDesc :=
  [⟨0xe000, 0x4, 1, fun _ => [XC_SEL_GROUP]⟩,
   ⟨0xe004, 0x4, 1, fun _ => [XC_COUNTS_FLUSHES, XC_COUNTS_CHECK_ERR, XC_COUNTS_HELD]⟩,
   ⟨0xe008, 0x4, 1, fun _ => [XC_TOTAL_FLUSHES, XC_TOTAL_CHECK_ERR]⟩]

/-- Every register of R566 but the capability entries, which hold no state (R560). -/
def regTable : List RegDesc :=
  regsIdentityAndGlobal ++ regsTime ++ regsChannels ++ regsTriggerAndCapture ++ regsCompression ++ regsLanes ++ regsMemoryAndCode ++ regsMerge ++ regsHostRings ++ regsPowerAndThermal ++ regsHousekeeping ++ regsFaultLogAndRecovery ++ regsHallmarkView ++ regsCrossingsAndDebug

/-- The fields of the word at address `a`; none for reserved space (R545). -/
def fieldsAt (a : Nat) : List Fld :=
  match regTable.find? (fun d => d.covers a) with
  | some d => d.flds ((a - d.base) / d.stride)
  | none => []

end Sys2Proof.Machine
end

