-- ==== Sys2Proof/Machine/State.lean ====
section
/-! DEFINITION. The state of one KLM-48, as plain data. Register fields live in `regs` (last written value or the device's own
value, by bit position in the register space, unlisted: the field's reset value) and, for the fields whose writes wait for a
frame boundary, once more in `force` (the value the device works with). Everything else the manual gives the device and
software cannot read as one field stands in the structures below. A row of like things (channels, lanes, rings) is a list of
(index, value) pairs; an unlisted index holds the structure's `init`. Frames are counted by `fn` = SEC × 1,000,000 + FS, whose
low 32 bits are FI (R47); instants are counted in units of 2^-16 ns from `fn` 0. -/
namespace Sys2Proof.Machine

/-- Where the device stands in the power-up timeline of R518: no power; nRESET held; step 2 ended and step 3 waiting
(REFCLK may be absent, R527); role taken and running; held (role refused under R19 or fatal under R430). -/
inductive Boot where
  | off | resetHeld | waiting | running | held
  deriving DecidableEq, Repr

/-- The local clock at the boundary that opened the present frame (R45, R46): SEC, FS, the excess of the boundary's cycle
edge over FS × 1,000 ns, the reference cycles this frame holds, and the correction u spread over it (R58). -/
structure Clk where
  sec : Nat
  fs : Nat
  exc : Nat
  cyc : Nat
  u : Int
  deriving DecidableEq, Repr

/-- A time domain's tracking state beyond its registers (R57, R60, R63): the newest valid input of this frame, the previous
input's frame and θ, U (the sum of the servo's own steps since), the step s of the last update, counts of consecutive
in-threshold inputs and of frames without one, what the partner advertises, whether the port's stamps are refined, and the
phase average of R145 (φ0, sum, conversions, latched mean, mean in force since the last boundary). -/
structure Dom where
  fresh : Option Int
  lastFn : Option Nat
  lastTheta : Int
  sumU : Int
  step : Option Int
  goodRun : Nat
  idle : Nat
  hops : Nat
  id : Nat
  partnerQual : Bool
  refined : Bool
  phi0 : Option Int
  phSum : Int
  phN : Nat
  phMean : Option Int
  phase : Option Int
  deriving DecidableEq, Repr

/-- A domain nobody has heard from. -/
def Dom.init : Dom :=
  { fresh := none, lastFn := none, lastTheta := 0, sumU := 0, step := none, goodRun := 0, idle := 0, hops := 15, id := 0,
    partnerQual := false, refined := false, phi0 := none, phSum := 0, phN := 0, phMean := none, phase := none }

/-- An open asymmetry watch (R64): domain X, its step, the frame F it opened, Y's run of updates without a step, and whether
it put the clock in HOLDOVER. -/
structure Watch where
  x : Nat
  sX : Int
  fn : Nat
  yRun : Nat
  held : Bool
  deriving DecidableEq, Repr

/-- A TOD_IN message of right form that waits for the edge it names (R66, R67): SECONDS, FLAGS, SOURCE_ID, SEQ, and the frame in which
it ended. -/
structure Tod where
  sec : Nat
  flags : Nat
  src : Nat
  seq : Nat
  fn : Nat
  deriving DecidableEq, Repr

/-- PPS_IN and TOD_IN (R65 to R67): frame of the last accepted edge (none since WAIT or LOST), frame of the last accepted edge of all,
messages waiting for the next edge, bytes of a partial message, and whether the message of the last edge had SOURCE_HOLDOVER set. -/
structure Pps where
  lastFn : Option Nat
  edgeFn : Option Nat
  msgs : List Tod
  buf : List Nat
  srcHold : Bool
  deriving DecidableEq, Repr

/-- A frame-synchronous write or command waiting for step 5 of R25: a register word, a command, or a route-table entry with
the number captured at the write (R296). -/
inductive Queued where
  | reg (src : Source) (addr : Nat) (val : Word)
  | cmd (c : Cmd)
  | route (entry : Nat) (val : Word)
  deriving DecidableEq, Repr

/-- An entry of the transmit time-stamp queue (R68). -/
structure TxqE where
  id : Nat
  lane : Nat
  fi : Nat
  ofs : Nat
  deriving DecidableEq, Repr

/-- A management message (R326) in a queue: KIND, ORIGIN, RING, MSG_SEQ, the eight body words, the lane it came from (63: this
device), and its place in its lane frame. -/
structure Msg where
  kind : Nat
  origin : Nat
  ring : Nat
  seq : Nat
  body : List Word
  port : Nat
  idx : Nat
  deriving DecidableEq, Repr

/-- A merged sample in the capture ring (R100) with what the device knows of it. -/
structure Sample where
  v : Int
  low : Bool
  clip : Bool
  prov : Bool
  pois : Bool
  deriving DecidableEq, Repr

/-- A sample the merge has corrected on both paths and not yet decided, because the 8 samples after it are not all here (R97):
both rounded and clamped values, whether each is clipped (R99), endangered (R96), provisional, poisoned (R409), and the
MERGE_MODE of its frame. -/
structure Cand where
  lo : Int
  hi : Int
  loClip : Bool
  hiClip : Bool
  endg : Bool
  prov : Bool
  pois : Bool
  mode : Nat
  deriving DecidableEq, Repr

/-- The merged samples of one frame: `fn`, device-wide number of sample 0, the frame's clock (R94) and the samples. -/
structure RingFrame where
  fn : Nat
  first : Int
  exc : Nat
  cyc : Nat
  u : Int
  smp : List Sample
  deriving DecidableEq, Repr

/-- What became of a discriminator hit (R127 to R130, R588): conversion running with slow edge E, stamped at t, TDC busy, or
unavailable. -/
inductive HitState where
  | converting (e : Int) | stamped (t : Int) | busy | unavail
  deriving DecidableEq, Repr

/-- A discriminator hit (R111): direction, estimated instant t̂ (R588), and the reference cycle that contains it. -/
structure Hit where
  rising : Bool
  est : Int
  cycFrom : Int
  cycTo : Int
  st : HitState
  deriving DecidableEq, Repr

/-- A capture (R172, R174). Samples are counted device-wide, instants in fifths of 2^-16 ns. First and last sample, trigger
sample with its frame and index there, source and units fired, kind and quality with t_x, t and fused time (R136 to R139),
geometry, extensions, first sample dead under it (R176), frames of triggers refused
because of it, written off (R409), cut (R185), stage: open, closed, assembled. -/
structure Cap where
  start : Int
  last : Int
  x : Int
  fn : Nat
  xi : Nat
  srcB : Bool
  ua : Bool
  ub : Bool
  kind : Nat
  quality : Nat
  tx : Option Int
  tdc : Option Int
  fused : Int
  post : Nat
  extend : Bool
  exts : List (Nat × Bool × Bool)
  more : Nat
  deadFrom : Option Int
  refs : List Nat
  off : Bool
  cut : Bool
  stage : Nat
  deriving DecidableEq, Repr

/-- Background rotation of one converter (R108): the sub-converter out of service, the frame its slot began, and the factors of a swap that
waits for the boundary. -/
structure Bg where
  out : Nat
  slotFn : Nat
  swap : Option SubCal
  deriving DecidableEq, Repr

/-- One channel beyond its registers: range merge (R97: range in use, window start, samples waiting for the 8 after them,
endangered flags of the last 8 merged, mode of the last merged), capture ring with the first sample since the restart and the
number merged, captures oldest first, hits, core cycles of the present frame whose samples are poisoned, calibration (R104 to
R106: frame of its own entry into service while it waits, frame its calibration began), what calibration handed to the converters, the
sampler and the discriminator (R103, R135; nothing: nominal), background rotation of both converters (R108), arming of the discriminator's
directions (R111), TDC table (none: nominal), linearity calibration owed or asked for (R134), a lock lost and not regained, slow-edge count
when the TDC was last taken, lock checks (R131: outcomes, frame and slow-edge count of the last, steps of the fast control DAC), domain and
frame of the last lent conversion (R144, R145), cross-calibration pairs (frame, δ in fifths), updates due at the next boundary, headgate triggers fired (frame, sample, unit B), mask anchors (R178), samples already decided. -/
structure Chan where
  low : Bool
  winStart : Int
  tail : List Cand
  hist : List Bool
  prevMode : Nat
  since : Int
  merged : Int
  ring : List RingFrame
  acquiring : Bool
  caps : List Cap
  hits : List Hit
  pois : List Nat
  nominal : Bool
  calFailed : Bool
  provUntil : Nat
  fgDue : Option Nat
  calFn : Option Nat
  dS : Option Nat
  subL : List SubCal
  subH : List SubCal
  discOfs : Int
  bgL : Bg
  bgH : Bg
  armR : Bool
  armF : Bool
  table : Option (List Nat)
  linDue : Bool
  linWant : Bool
  lockLost : Bool
  lastE : Option Int
  checks : List Bool
  lastCheck : Nat
  checkE : Option Int
  dac : Int
  lent : Option (Nat × Nat)
  pairs : List (Nat × Int)
  pendTrk : Option (Int × Nat)
  pendBg : Option (Nat × Int)
  hg : List (Nat × Nat × Bool)
  anchors : List Int
  decided : List Int
  deriving DecidableEq, Repr

/-- A channel at reset: dark, in high gain, nothing captured, on nominal factors and nominal table. -/
def Chan.init : Chan :=
  { low := false, winStart := 0, tail := [], hist := [], prevMode := 0, since := 0, merged := 0, ring := [], acquiring := false,
    caps := [], hits := [], pois := [], nominal := true, calFailed := false, provUntil := 0, fgDue := none, calFn := none,
    dS := none, subL := [], subH := [], discOfs := 0, bgL := { out := 8, slotFn := 0, swap := none },
    bgH := { out := 8, slotFn := 0, swap := none }, armR := false, armF := false,
    table := none, linDue := true, linWant := false, lockLost := false, lastE := none, checks := [], lastCheck := 0, checkE := none, dac := 0,
    lent := none, pairs := [], pendTrk := none, pendBg := none,
    hg := [], anchors := [], decided := [] }

/-- A stop of a quad's mask test (R179): quad, first violating sample, channel (63: a spoilt envelope, R432), and sample 0 of the frame in
which the test resumed. -/
structure MaskStop where
  q : Nat
  x : Int
  n : Nat
  resume : Option Int
  deriving DecidableEq, Repr

/-- The stream record a slot owes for one frame (R181): whether the slot started with that frame, channel and format in force, trigger marks
(sample, unit A, unit B, opened), boundaries since its frame opened. -/
structure Job where
  fn : Nat
  start : Bool
  chan : Nat
  log2d : Nat
  fmt : Nat
  marks : List (Int × Bool × Bool × Bool)
  age : Nat
  deriving DecidableEq, Repr

/-- A stream slot (R181, R109): span in progress (sum, samples, flags, first sample with its frame, index, time offset and range,
seams in it), range of the last sample taken, and the records owed. -/
structure Slot where
  sum : Int
  cnt : Nat
  clip : Bool
  prov : Bool
  pois : Bool
  first : Int
  firstFn : Nat
  firstIdx : Nat
  firstOfs : Nat
  firstLow : Bool
  seams : List (Int × Bool)
  prevLow : Bool
  lastFmt : Option (Nat × Nat × Nat)
  jobs : List Job
  deriving DecidableEq, Repr

def Slot.init : Slot :=
  { sum := 0, cnt := 0, clip := false, prov := false, pois := false, first := 0, firstFn := 0, firstIdx := 0, firstOfs := 0, firstLow := false,
    seams := [], prevLow := false, lastFmt := none, jobs := [] }

/-- One frame: its clock, the settings, envelopes and continuous anchors in force in it (R171), number of its sample 0, channels that acquire, that
take triggers and that are under calibration while running (R176), boundaries since it opened; and its account for the summary
(R216): dead samples per channel, reasons, first refused trigger (sample, channel, case), records counted out; whether the horizon
has judged it, with the verdict of each port that stands in a partner set (R277, R279). -/
structure FStat where
  fn : Nat
  base : Int
  cyc : Nat
  exc : Nat
  u : Int
  clkState : Nat
  selected : Nat
  stepped : Bool
  force : List (Nat × Nat)
  env : List (Nat × Nat)
  anchor : List (Nat × Int)
  acq : List Nat
  accept : List Nat
  calib : List Nat
  age : Nat
  dead : List (Nat × Nat)
  reasons : Nat
  refused : Option (Nat × Nat × Nat)
  nHit : Nat
  nStream : Nat
  nLoss : Nat
  nDrop : Nat
  nDup : Nat
  judged : Bool
  ports : List (Nat × Nat)
  summed : Bool
  gone : Bool
  deriving DecidableEq, Repr

/-- A record between assembly and the record FIFO (R210, R224): type, channel, slot, frame, SEQ, fixed, extension, mark and seam
words, samples with their width and the number of the first, frame of assembly, frame in which it closed, by whose settings it is compressed
(R245), engine that holds it, channel and SEQ of its reference (R256), and once it is finished its ENC and payload. -/
structure Asm where
  typ : Nat
  chan : Nat
  slot : Nat
  fn : Nat
  seq : Nat
  head : List Word
  smp : List Int
  width : Nat
  first : Int
  asmFn : Nat
  cfgFn : Nat
  engine : Option Nat
  ref : Option (Nat × Nat)
  enc : Nat
  out : List Word
  deriving DecidableEq, Repr

/-- Fields of a loss record (R218). -/
structure Loss where
  dev : Nat
  chan : Nat
  fn : Nat
  writer : Nat
  port : Nat
  reason : Nat
  known : Bool
  last : Option (Nat × Nat × Bool)
  stream : Bool
  maybe : Bool
  seqValid : Bool
  count : Nat
  firstSeq : Nat
  seq : Nat
  deriving DecidableEq, Repr

/-- A record in the record FIFO or uplink record FIFO, with its index entry (R223, R224): words, TYPE, CHAN, DEVNUM, frame, first
word in record memory, lanes on which a copy has begun, lanes on which one has left whole, whether it has counted as spilled (R184), whether a bad
word has been found in it while copies of it still run (R223), and the fields of an own loss. -/
structure FRec where
  id : Nat
  words : List Word
  typ : Nat
  chan : Nat
  dev : Nat
  fn : Nat
  addr : Nat
  begun : List Nat
  left : List Nat
  spilled : Bool
  bad : Bool
  loss : Option Loss
  own : Bool
  deriving DecidableEq, Repr

/-- A record received whole (R275) or held by the hub's builder: port, frame, words, arrival number, whether the hub check has seen it, whether a
memory error wrote it off (R432). -/
structure RxRec where
  port : Nat
  fn : Nat
  words : List Word
  arr : Nat
  checked : Bool
  lost : Bool
  deriving DecidableEq, Repr

/-- What a lane is sending in a region: the record, its frame, the words still to go with the place of the next in record memory, and whether
the copy ends with them although its record does not (R223, R226). -/
structure TxItem where
  id : Nat
  fn : Nat
  stream : Bool
  started : Bool
  words : List Word
  addr : Nat
  cut : Bool
  deriving DecidableEq, Repr

/-- A region of a lane as received (R353, R355): the record in progress, whether the region is in step, words of a record already counted as
discarded that may still follow, and the region's length in the last accepted lane frame. -/
structure RxRegion where
  part : List Word
  sync : Bool
  owed : Nat
  len : Nat
  deriving DecidableEq, Repr

/-- A region of which nothing has been received: what comes before the first record that starts in it belongs to none. -/
def RxRegion.init : RxRegion := { part := [], sync := false, owed := 65535, len := 0 }

/-- The lane frame a lane is sending (R349): its frame, rate, number of words and of characters of fill after them, and header words W0 and W2 to W13 (R352). Its payload
is taken while the frame lasts (log entry 24). -/
structure OpenLf where
  fn : Nat
  full : Bool
  len : Nat
  fill : Nat
  hdr : List Word
  deriving DecidableEq, Repr

/-- One lane beyond its registers (R353 to R371): runs of accepted and rejected frames and of frames meeting the raise conditions, frame
it entered BLIND, frame before which it does not raise again, whether transmitter and receiver are at full rate and a full-rate frame
has been accepted, frame of RATE_NEXT, frames announced as training, state held before IDLE (0 once the exit is done), whether the frame being
sent is the last one before idle or before DARK, what the partner last said and whether the last frame not accepted was missing, stamps of R56
(FI, OFS), partner's stamp (TX_FI, own frame, offset), place of the last accepted comma in eighths of a reference cycle with the cycles of its
frame (none while a comma may stand anywhere), running disparity received and sent, regions in progress, records and messages received, commands to forward,
replies leaving by this lane, messages from below waiting to go up, records in sending, the lane frame being sent, frame an eye-scan point
began. -/
structure Lane where
  okRun : Nat
  badRun : Nat
  raiseRun : Nat
  sinceFn : Nat
  noRaiseUntil : Nat
  txFull : Bool
  rxFull : Bool
  rxGot : Bool
  switchFn : Nat
  trainUntil : Nat
  prevState : Nat
  idleNext : Bool
  toDark : Bool
  partnerIdle : Bool
  partnerDev : Nat
  partnerNum : Bool
  heard : Bool
  miswired : Bool
  lastMissing : Bool
  assayReq : Bool
  txStamps : List (Nat × Nat)
  rxStamp : Option (Nat × Nat × Int)
  rxRefined : Bool
  commaAt : Option (Int × Nat)
  rxRd : Option Bool
  txRd : Bool
  recRx : RxRegion
  strRx : RxRegion
  recIn : List (List Word)
  msgIn : List Msg
  fwdQ : List Msg
  ansQ : List Msg
  upQ : List Msg
  tx : List TxItem
  openLf : Option OpenLf
  eyeFn : Nat
  deriving DecidableEq, Repr

def Lane.init : Lane :=
  { okRun := 0, badRun := 0, raiseRun := 0, sinceFn := 0, noRaiseUntil := 0, txFull := false, rxFull := false, rxGot := false,
    switchFn := 0, trainUntil := 0, prevState := 0, idleNext := false, toDark := false, partnerIdle := false, partnerDev := 0,
    partnerNum := false, heard := false, miswired := false, lastMissing := false, assayReq := false, txStamps := [], rxStamp := none, rxRefined := false,
    commaAt := none, rxRd := none, txRd := false, recRx := RxRegion.init, strRx := RxRegion.init, recIn := [], msgIn := [], fwdQ := [], ansQ := [], upQ := [],
    tx := [],
    openLf := none, eyeFn := 0 }

/-- Interval-statistics engine (R141 to R143): exact accumulators, the values' range, unused start and stop hits, φ0. -/
structure Stat where
  sum : Int
  sumSq : Int
  mn : Int
  mx : Int
  phi0 : Option Int
  starts : List Int
  stops : List Int
  deriving DecidableEq, Repr

/-- An entry of a receive or event ring (R313, R314, R327): its count, buffer, the records or descriptor words in it, frame it
opened and closed, and how far it has come: open, closed, written; OPEN of its descriptor. -/
structure Entry where
  j : Nat
  buf : Nat
  recs : List (List Word)
  openFn : Nat
  closeFn : Nat
  cont : Bool
  more : Bool
  isOpen : Bool
  closed : Bool
  written : Bool
  deriving DecidableEq, Repr

/-- A ring (R305, R306): state (0 OFF, 1 ON, 2 STOPPING), the table entry latched at enable, the three counts, head-word flags, whether
the final head word and the ring-stopped event are out; egress queue (R228): records waiting, entries not yet confirmed, records that
wait in the builder for a free page (R230), place of the queue's first word in its page, pages held (R229), records that wait as
members of a bundle with the SEQ of its header, and the bundle of the record last put into an entry (R313); descriptors fetched of a command ring, descriptors an event ring has dropped. -/
structure Ring where
  st : Nat
  typ : Nat
  base : Nat
  log2 : Nat
  vec : Nat
  intEn : Bool
  bufKb : Nat
  entFrames : Nat
  hb : Nat
  replyRing : Nat
  head : Nat
  post : Nat
  confirm : Nat
  rewinds : Nat
  error : Bool
  stopped : Bool
  finalHead : Bool
  wait : List (List Word)
  entries : List Entry
  hold : List (List Word)
  qStart : Nat
  pages : Nat
  members : List (Nat × List Word)
  cur : Option Nat
  lastHeadFn : Nat
  lost : Nat
  fetched : Nat
  deriving DecidableEq, Repr

def Ring.init : Ring :=
  { st := 0, typ := 0, base := 0, log2 := 0, vec := 0, intEn := false, bufKb := 0, entFrames := 0, hb := 0, replyRing := 0,
    head := 0, post := 0, confirm := 0, rewinds := 0, error := false, stopped := false, finalHead := false, wait := [],
    entries := [], hold := [], qStart := 0, pages := 0, members := [], cur := none, lastHeadFn := 0, lost := 0, fetched := 0 }

/-- A command the hub has sent down and not yet seen answered (R330): MSG_SEQ, frame of its timeout, the command. -/
structure Outst where
  seq : Nat
  due : Nat
  cmd : Cmd
  deriving DecidableEq, Repr

/-- A multi-bit crossing (R388): the sender's hold register, whether the receiver has loaded it and its acknowledge is on the way, the shadow, and
the value the receiver holds. -/
structure Hold where
  reg : Option Word
  loaded : Bool
  shadow : Option Word
  got : Word
  deriving DecidableEq, Repr

/-- A crossing group (R385, R387, R388): the crossing of its values and that of its event count, the sender's count, the events the receiver has
taken from differences of it, flushes, values refused, and whether the far side stands still. -/
structure Cross where
  val : Hold
  cnt : Hold
  count : Word
  events : Nat
  flushes : Nat
  checkErr : Nat
  held : Bool
  deriving DecidableEq, Repr

def Hold.init : Hold := { reg := none, loaded := false, shadow := none, got := 0 }

def Cross.init : Cross := { val := Hold.init, cnt := Hold.init, count := 0, events := 0, flushes := 0, checkErr := 0, held := false }

/-- A raised assay (R419, R420): unit, log slot of the entry that raised it, running or waiting, frame it began, the copy in error of a
triplicated element (3 for any other unit), and whether the error has come again while it runs. -/
structure Assay where
  u : UnitId
  slot : Nat
  running : Bool
  fn : Nat
  copy : Nat
  again : Bool
  deriving DecidableEq, Repr

/-- What drives HKMON (R464, R465): 0 V, the ball pair MP and MN at gain 2^MGAIN, or the value that such a pair had when it was last
tracked. -/
inductive HkMon where
  | ground
  | tracking (mp mn gain : Nat)
  | holding (mp mn gain : Nat)
  deriving DecidableEq, Repr

/-- The housekeeping converter beyond its registers (R454 to R461): settings in force, writes waiting for the frame and for the
conversion boundary, discards to go and whether they count as BLANKED, kept conversions to go in the burst, flags since the
last kept result, results since the last event, result waiting to be posted, newest posted result and info (R472), self-calibration
requested and the phase it interrupted, phase before blanking, the frame since the role was fixed in
which the present conversion, lead, rest or self-calibration began (while a self-calibration is blanked, the frames it has run), what drives
HKMON. -/
structure Hk where
  cfg : List (Nat × Nat)
  atFrame : List (Nat × Word)
  atConv : List (Nat × Word)
  disc : Nat
  discBlank : Bool
  keep : Nat
  evtN : Nat
  post : Option (Nat × Nat)
  live : Nat × Nat
  calReq : Bool
  calFrom : Nat
  blanked : Option Nat
  lastLowEvt : Option Nat
  since : Nat
  mon : HkMon
  deriving DecidableEq, Repr

/-- A trip in progress or held (R497, R500): opening frame, cause, LEDGER_SEQ of its entry, frame in which cold hold began. -/
structure Trip where
  fn : Nat
  cause : Nat
  seq : Nat
  holdFn : Nat
  deriving DecidableEq, Repr

/-- What leaves the device: a lane frame with the number of K28.0 after it, the running disparity it begins at and whether its characters are inverted (`sentChars` gives them), K28.0 in its place, training, electrical idle; a host-memory write, the clearing of a byte (R310), or a read request; an
MSI-X message; a completion of BAR0 or configuration space (`cfgDone`: of a write); MISO. The newest is first. -/
inductive Out where
  | laneFrame (l : Nat) (full : Bool) (ws : List Word) (fill : Nat) (rd inv : Bool)
  | fill (l : Nat)
  | training (l : Nat)
  | idle (l : Nat)
  | hostWrite (addr : Nat) (ws : List Word)
  | hostClear (addr : Nat)
  | hostRead (addr bytes : Nat)
  | msix (v : Nat)
  | barData (ws : List Word)
  | barUr
  | cfgData (w : Word)
  | cfgDone
  | cfgRetry
  | miso (hdr : Word) (ws : List Word)
  deriving DecidableEq, Repr

/-- Balls and what the board shows on them (R18, R386, R570, R572, R573): ROLE straps, REFCLK presence with the frame it was
lost (once back, the frames of absence) and whether the PLL is relocking (R528), PGOOD, TRIP, the ALERT cause of R527, HKBLANK, PCIE_PERSTn asserted with the
frame it was released in frames since the role was fixed, and whether MISO's status bits 22 and 21 are up (R553), and whether VIO is present (R574). -/
structure Pins where
  strap : Nat
  refPresent : Bool
  refLostFn : Option Nat
  refRelock : Bool
  pgood : Bool
  trip : Bool
  refAlert : Bool
  hkBlank : Bool
  perst : Bool
  perstFn : Nat
  spiDenied : Bool
  spiShort : Bool
  vio : Bool
  deriving DecidableEq, Repr

/-- The hallmark's antifuses (R529): the three copies of each word, by word, blown bits only (a word not listed is unblown). -/
structure Fuses where
  a : List (Nat × Nat)
  b : List (Nat × Nat)
  c : List (Nat × Nat)
  deriving DecidableEq, Repr

/-- What the device keeps of the hallmark: its words as read at bring-up (R529), staging words (R541), self-test findings
waiting for step 3 (R430), whether a sealing session runs (R533), and whether the events of R529 and R430 wait for the first
upward route. -/
structure Hm where
  view : List (Nat × Nat)
  stage : List (Nat × Nat)
  test : SelfTest
  sealing : Bool
  disEvt : Bool
  testEvt : Bool
  deriving DecidableEq, Repr

/-- The time path: clock, domains, asymmetry watch, servo integrator in units of 2^-32 ns (16 fractional bits, R58), run of
in-threshold servo updates, whether CLOCK_LOCKED asks for LOCKED at the next boundary, pending switch, PPS and TOD, held headgate actions in order of receipt (R70), transmit time-stamp
queue, domain whose coarse step the next boundary takes, whether the present frame is the stepped one (R51). -/
structure Tm where
  clk : Clk
  doms : List (Nat × Dom)
  watch : Option Watch
  integ : Int
  lockRun : Nat
  lockPend : Bool
  swPend : Option Nat
  pps : Pps
  held : List Cmd
  txq : List TxqE
  stepPend : Option Nat
  stepped : Bool
  deriving DecidableEq, Repr

/-- Acquisition, TDC and triggers: channels, stream slots, envelopes by (quad × 2 + env) × 512 + point, active and shadow
(R180), quads whose commit or re-arm waits and whose active envelope a memory error has spoilt (R432), anchor of continuous mode (R178), stops of the
tests and the boundaries at which a REARM took effect (R179),
dead-sample counts by channel × 4 + reason (R176), number of the present frame's sample 0, frames oldest first (the last one the
present), recalibration rotation (R107: quads to go, FORCE, frame the present quad began, a request that waits), bring-up
calibration (R104: channels in it, frame it is due, frame it began, FG_WAIT at FG_DONE), linearity requests and runs by channel
(R134), sensor temperature of each quad's last calibration, statistics. -/
structure Acq where
  chans : List (Nat × Chan)
  slots : List (Nat × Slot)
  envA : List (Nat × Nat)
  envS : List (Nat × Nat)
  commit : Nat
  rearm : Nat
  envBad : Nat
  anchor : List (Nat × Int)
  stops : List MaskStop
  rearms : List (Nat × Int)
  dead : List (Nat × Nat)
  base : Int
  fstats : List FStat
  rot : List Nat
  rotForce : Bool
  rotFn : Nat
  rotReq : Option (Nat × Bool)
  fgBoot : List Nat
  fgDue : Option Nat
  fgFn : Option Nat
  fgWait : Option Nat
  linReq : List Nat
  linRun : List (Nat × Nat)
  linBoot : List Nat
  linTemp : List (Nat × Nat)
  stat : Stat
  deriving DecidableEq, Repr

/-- Records: SEQ counters of R208 (0-47 hit, 100-103 stream, 200 summary, 201 loss, 202 cell summary, 1000 + r bundle headers),
records in compression, records ready for the FIFO, the record FIFO (R224), next record name, words written into record memory,
pages of the pool (R222, R426), reason of a flush that waits (R227), channels and frames of which a record is lost, by kind,
with the reason and the SEQ of the first lost (R220), frames whose own summary waits for room in the reserve and forwarded accounting records
that wait for it (R221, R225), data-start frame (R520). -/
structure Rcd where
  seqs : List (Nat × Nat)
  asm : List Asm
  ready : List Asm
  fifo : List FRec
  nextId : Nat
  fifoWr : Nat
  pool : Nat
  flush : Option Nat
  lostKeys : List (Nat × Nat × Bool × Nat × Nat)
  sumWait : List Nat
  accWait : List (Nat × List Word)
  startFn : Option Nat
  deriving DecidableEq, Repr

/-- Management: this device's replies and events waiting to go up (R367), its message count, identities of the last 64 accepted
commands (R326), commands executed this frame (R366), the port last served for sending upward, the port whose command was last executed, ATTEST in computation (R525), frame
until which RENUM is sent (R38). -/
structure Mg where
  ownQ : List Msg
  msgSeq : Nat
  seen : List (Nat × Nat)
  execN : Nat
  upRot : Nat
  rotPort : Nat
  attest : Option (Cmd × Nat)
  renumUntil : Nat
  deriving DecidableEq, Repr

/-- Merging: receive FIFOs as one list in order of arrival (R275), data-service frames per port (R277), previous numbers of ports
(R275), route table (R296), hit records in the builder (R284), frames waiting for it with their J (R287). -/
structure Mrg where
  rxFifo : List RxRec
  arrivals : Nat
  svcFn : List (Nat × Nat)
  portPrev : List (Nat × (Nat × Nat))
  routes : List (Nat × Word)
  bwait : List RxRec
  bjs : List (Nat × Nat)
  deriving DecidableEq, Repr

/-- Host rings: rings; operation of R338 (1 enable waiting for its boundary, 2 disable waiting, 3 enable whose reads are out); tally sweep
(R310): index lines outstanding (an empty list: the bitmap), last byte, index words read with the frame of arrival, index lines to reread
after a retrain (R333); ring last fetched from (R325), outstanding commands and those that timed out (R330), vectors pending and the frame of each vector's last message (R321), MSI-X table words and PBA, sweeps
skipped since the last event and its frame, link width, whether the link has been up since reset and whether it is trained now, what the host has set in configuration space (the
Max_Payload_Size and Max_Read_Request_Size codes, BAR0's address, MSI-X Enable and Function Mask), vectors whose message leaves at the end of
the frame, loss records unwritten
(count, first FI, last FI). -/
structure Hr where
  rings : List (Nat × Ring)
  ringOp : Option (Nat × Nat)
  sweepOut : Option (List Nat)
  lastByte : Nat
  lines : List (Nat × Nat × Nat × Nat)
  reread : Option Nat
  rrRing : Nat
  outst : List Outst
  dead : List Nat
  vecPend : List Nat
  vecLast : List (Nat × Nat)
  msix : List (Nat × Nat)
  skipEvt : Nat × Nat
  width : Nat
  everUp : Bool
  trained : Bool
  payload : Nat
  readReq : Nat
  bar0 : Nat
  msixOn : Bool
  msixMask : Bool
  msixDue : List Nat
  lossWait : Nat × Nat × Nat
  deriving DecidableEq, Repr

/-- Faults: log slots of four words (R422), entries written since reset, overwrites since the last event and its frame, raised
assays, next word of each scrubber (16: small memories), the frame since the role was fixed in which its lap began, the longest lap of each
memory since the last round, pages a retirement waits for with the spare page taken for each, remapped pages (page of R222, page that holds its
words), and where the record FIFO and the log were being written when the present frame opened. -/
structure Flt where
  log : List (Nat × List Word)
  logSeq : Nat
  ovr : Nat × Nat
  assays : List Assay
  scrub : List (Nat × Nat)
  lapFrom : List (Nat × Nat)
  laps : List (Nat × Nat)
  retiring : List (Nat × Option Nat)
  remap : List (Nat × Nat)
  fifoFrom : Nat
  logFrom : Nat
  deriving DecidableEq, Repr

/-- Power and thermal: frame each domain started powering (R479), power-ons waiting for a boundary, input power of the last 1,024
frames (R487), frames POWER_OVER has held (R489), consecutive rejections per sensor (R492), a gate's readings waiting to apply,
newest counts (R491), trip, accepted release (R500) and whether records have yet to resume after one (R501), channels of the ramp not
yet in service (R519), whether throttle actions are in force (R495), whether full service has been reached (R521), frames since the
role was fixed. A power-on in `req` is the domain code, plus 64 when admission applies (R488). `shown` holds, while steps 4 and 5 of a
boundary run, the power-state words as its step 3 leaves them (R25); it is empty otherwise. -/
structure Pw where
  startFn : List (Nat × Nat)
  req : List Nat
  hist : List Nat
  overFrames : Nat
  rejects : List (Nat × Nat)
  gate : Option (List Nat)
  counts : List Nat
  trip : Option Trip
  release : Bool
  resume : Bool
  ramp : List Nat
  throttle : Bool
  fullOnce : Bool
  frames : Nat
  shown : List (Nat × Nat)
  deriving DecidableEq, Repr

/-- Everything the device holds beyond its antifuses and the errors in its stored words. -/
structure Dev where
  /-- Counter of the free values drawn so far (the model's own field). -/
  free : Nat
  /-- What has left the device, newest first (the model's own record of its balls). -/
  out : List Out
  boot : Boot
  /-- Register fields by key, unlisted: reset value. -/
  regs : List (Nat × Nat)
  /-- Frame-synchronous fields as in force, unlisted: reset value. -/
  force : List (Nat × Nat)
  /-- Writes and commands waiting for step 5 of R25, in order of receipt. -/
  queue : List Queued
  pins : Pins
  hm : Hm
  /-- The ledger's words that are not 0 (R502), by word address. -/
  ledger : List (Nat × Nat)
  /-- Ledger slots that do not keep what is written into them (R505; the model's own field for the MRAM's condition). -/
  ldgWeak : List Nat
  tm : Tm
  acq : Acq
  rcd : Rcd
  lanes : List (Nat × Lane)
  mg : Mg
  mrg : Mrg
  hr : Hr
  cross : List (Nat × Cross)
  flt : Flt
  hk : Hk
  pw : Pw
  deriving DecidableEq, Repr

/-- The state of the block. -/
structure State where
  /-- Commands waiting to be carried out, first in, first out (the model's own queue). -/
  pending : List Instr
  /-- The hallmark's antifuses, which keep their contents without power (R529). -/
  fuses : Fuses
  /-- The addressed SRAM's stored-bit errors (R412, R413): word index → the bits of the 52-bit stored form that differ from the
  code of the data written there; small memories at 2^22 + memory × 2^16 + word. Words rise strictly; an unlisted word has
  no error; no entry is 0. The data themselves stand in the structures that own the memory. -/
  ecc : List (Nat × Nat)
  dev : Dev
  deriving DecidableEq, Repr

/-- Why a command stops. -/
inductive Fault where
  /-- The command names a channel, lane, quad, ring or other unit the device does not have (R4, R12). Raised by the meanings
  whose operand is an index. Safe: the hardware has no such unit. -/
  | noSuchUnit
  deriving DecidableEq, Repr

/-- Why a command has no meaning. -/
inductive Refusal where
  /-- An arm of `exec` not reached yet. Safe. -/
  | notModelled (mnemonic : String)
  deriving DecidableEq, Repr

/-- `n` entries of one value from key `k` on. -/
def rowOf (k n v : Nat) : List (Nat × Nat) := (List.range n).map fun i => (k + i, v)

/-- The hallmark of an unsealed part as Zhotra delivers it (R530, R559): serial number 1, lot 1, wafer 1, die 0, 0, grade HR,
stepping B2, nominal constants everywhere, CRC in word 127. DESIGN CHOICE (log entry 5): the manual gives no part's words. -/
def factoryWords : List (Nat × Nat) :=
  [(0, 1), (2, 0x01000001), (3, 0x22010000)] ++ rowOf 4 24 0x38503850 ++ rowOf 28 48 29491 ++ rowOf 76 16 0xA0006400
    ++ [(92, 0x785596), (127, 0xdf4ea3ef)]

/-- A ledger without entries (R502): both header copies with NEXT_SEQ 0, BOOT_COUNT 0 and NEXT_SLOT 2. DESIGN CHOICE (log
entry 6). -/
def emptyLedger : List (Nat × Nat) :=
  [(0, 0x14C44), (4, 2), (15, 0xaa754d77), (16, 0x14C44), (20, 2), (31, 0xaa754d77)]

/-- The self-test that finds nothing. -/
def SelfTest.clean : SelfTest := { banks := 0, lqs := 0, engines := 0, smallMem := false, core := false }

/-- The device without power, every register at the Reset column of its table (log entry 2 says where a run starts). -/
def Dev.reset : Dev :=
  { free := 0
    out := []
    boot := .off
    regs := []
    force := []
    queue := []
    pins := { strap := 0, refPresent := true, refLostFn := none, refRelock := false, pgood := false, trip := false,
              refAlert := false, hkBlank := false, perst := true, perstFn := 0, spiDenied := false, spiShort := false, vio := false }
    hm := { view := [], stage := [], test := SelfTest.clean, sealing := false, disEvt := false, testEvt := false }
    ledger := emptyLedger
    ldgWeak := []
    tm := { clk := { sec := 0, fs := 0, exc := 0, cyc := 250, u := 0 }, doms := [], watch := none, integ := 0, lockRun := 0, lockPend := false,
            swPend := none, pps := { lastFn := none, edgeFn := none, msgs := [], buf := [], srcHold := false }, held := [], txq := [],
            stepPend := none, stepped := false }
    acq := { chans := [], slots := [], envA := [], envS := [], commit := 0, rearm := 0, envBad := 0, anchor := [], stops := [],
             rearms := [], dead := [],
             base := 0, fstats := [], rot := [], rotForce := false, rotFn := 0, rotReq := none, fgBoot := [], fgDue := none,
             fgFn := none, fgWait := none, linReq := [], linRun := [], linBoot := [], linTemp := [],
             stat := { sum := 0, sumSq := 0, mn := 0, mx := 0, phi0 := none, starts := [], stops := [] } }
    rcd := { seqs := [], asm := [], ready := [], fifo := [], nextId := 0, fifoWr := 0, pool := 0, flush := none, lostKeys := [],
             sumWait := [], accWait := [], startFn := none }
    lanes := []
    mg := { ownQ := [], msgSeq := 0, seen := [], execN := 0, upRot := 0, rotPort := 47, attest := none, renumUntil := 0 }
    mrg := { rxFifo := [], arrivals := 0, svcFn := [], portPrev := [], routes := [], bwait := [], bjs := [] }
    hr := { rings := [], ringOp := none, sweepOut := none, lastByte := 0, lines := [], reread := none, rrRing := 0, outst := [],
            dead := [], vecPend := [], vecLast := [], msix := [], skipEvt := (0, 0), width := 0, everUp := false, trained := false,
            payload := 0, readReq := 2, bar0 := 0, msixOn := false, msixMask := false, msixDue := [],
            lossWait := (0, 0, 0) }
    cross := []
    flt := { log := [], logSeq := 0, ovr := (0, 0), assays := [], scrub := [], lapFrom := [], laps := [], retiring := [], remap := [],
             fifoFrom := 0, logFrom := 0 }
    hk := { cfg := [], atFrame := [], atConv := [], disc := 0, discBlank := false, keep := 0, evtN := 0, post := none,
            live := (0x4000000, 0), calReq := false, calFrom := 0, blanked := none, lastLowEvt := none, since := 0, mon := .ground }
    pw := { startFn := [], req := [], hist := [], overFrames := 0, rejects := [], gate := none, counts := [], trip := none, release := false, resume := false, ramp := [],
            throttle := false, fullOnce := false, frames := 0, shown := [] } }

/-- The device as delivered, before VIN rises: nothing waits, no stored word holds an error. -/
def State.reset : State :=
  { pending := [], fuses := { a := factoryWords, b := factoryWords, c := factoryWords }, ecc := [], dev := Dev.reset }

end Sys2Proof.Machine
end

