-- ==== Sys2Proof/Machine/Ops.lean ====
section
/-! DEFINITION. The named operations every meaning is written with: outcomes, register fields, units of the device, time,
role, what leaves the device, events and replies. -/
namespace Sys2Proof.Machine

/-- The outcome type of `exec` and `step`. -/
abbrev Res := Host.Outcome State Fault Refusal

/-- A meaning that changes only the device part of the state: antifuses, stored-bit errors and queue stay. -/
def onDev (f : Dev → Dev) (s : State) : Res := .next { s with dev := f s.dev }

/-- A meaning about unit `i` of `n`: a unit the device does not have is the fault `noSuchUnit` (R4, R12). -/
def onUnit (n i : Nat) (f : Dev → Dev) (s : State) : Res :=
  if i < n then onDev f s else .fault .noSuchUnit

/-- A step that waits for a condition: where it does not hold, the event cannot come about and nothing changes (log entry
10). -/
def whenD (c : Bool) (f : Dev → Dev) (d : Dev) : Dev := if c then f d else d

/-! ### Register fields -/

/-- The field's value: last written, or the device's own. -/
def Dev.get (d : Dev) (f : Fld) : Nat := getT f.reset f.key d.regs

/-- The field set to `v` modulo its width. -/
def Dev.set (d : Dev) (f : Fld) (v : Nat) : Dev := { d with regs := putT f.key (v % 2 ^ f.width) d.regs }

/-- The value the device works with: for a frame-synchronous field the one in force (R25). -/
def Dev.eff (d : Dev) (f : Fld) : Nat := if f.sync then getT f.reset f.key d.force else d.get f

/-- The value in force set to `v`. -/
def Dev.setForce (d : Dev) (f : Fld) (v : Nat) : Dev := { d with force := putT f.key (v % 2 ^ f.width) d.force }

/-- A field the device itself writes, in force and as read. -/
def Dev.setBoth (d : Dev) (f : Fld) (v : Nat) : Dev := (d.set f v).setForce f v

/-- A one-bit field as a truth value. -/
def Dev.flag (d : Dev) (f : Fld) : Bool := d.get f != 0

/-- A one-bit field in force as a truth value. -/
def Dev.effB (d : Dev) (f : Fld) : Bool := d.eff f != 0

/-- A one-bit field set from a truth value. -/
def Dev.setB (d : Dev) (f : Fld) (b : Bool) : Dev := d.set f (b2n b)

/-- A signed field. -/
def Dev.getI (d : Dev) (f : Fld) : Int := toSigned f.width (d.get f)

/-- A signed field in force. -/
def Dev.effI (d : Dev) (f : Fld) : Int := toSigned f.width (d.eff f)

/-- A signed field set. -/
def Dev.setI (d : Dev) (f : Fld) (i : Int) : Dev := d.set f (ofSigned f.width i)

/-- A signed field the device itself writes, in force and as read. -/
def Dev.setBothI (d : Dev) (f : Fld) (i : Int) : Dev := d.setBoth f (ofSigned f.width i)

/-- A counter that wraps, increased by `k`. -/
def Dev.addWrap (d : Dev) (f : Fld) (k : Nat) : Dev := d.set f (d.get f + k)

/-- A counter that saturates, increased by `k`. -/
def Dev.addSat (d : Dev) (f : Fld) (k : Nat) : Dev := d.set f (min (d.get f + k) (2 ^ f.width - 1))

/-! ### Free values -/

/-- The next free value, with the counter advanced (log entry 3). -/
def Dev.draw (d : Dev) : Nat × Dev := (Config.freeValue d.free, { d with free := d.free + 1 })

/-! ### Role -/

/-- Roles of R18; `noRole` before the role step and after a refusal. -/
inductive Role where
  | frontEnd | cell | hub | noRole
  deriving DecidableEq, Repr

/-- The role of ACTIVE_ROLE (R39). -/
def roleOfNat : Nat → Role
  | 0 => .frontEnd
  | 1 => .cell
  | 2 => .hub
  | _ => .noRole

def Dev.role (d : Dev) : Role := roleOfNat (d.get Reg.GLB_ROLE_STATUS_ACTIVE_ROLE)

/-- Whether the device has taken its role and runs. -/
def Dev.up (d : Dev) : Bool := d.boot == .running

/-- Downstream lanes of the role (R21). -/
def Role.downLanes : Role → Nat
  | .cell => 40
  | .hub => 32
  | _ => 0

/-- Uplink lanes of the role, uplink i first (R21, R40). -/
def Role.uplinks : Role → List Nat
  | .frontEnd => [0, 1, 2, 3]
  | .cell => [40, 41, 42, 43, 44, 45, 46, 47]
  | _ => []

/-- Lanes that carry lane frames in the role (R21, R372, R374). -/
def Role.lanes : Role → List Nat
  | .frontEnd => List.range 4
  | .cell => List.range 48
  | .hub => List.range 32
  | .noRole => []

/-- Whether the role uses lane `l` in lane mode. -/
def Role.usesLane (r : Role) (l : Nat) : Bool := r.lanes.contains l

/-- Whether lane `l` is upstream in the role. -/
def Role.isUp (r : Role) (l : Nat) : Bool := r.uplinks.contains l

/-- Uplinks that UPLINK_MASK in force enables for data (R40). -/
def Dev.maskedUplinks (d : Dev) : List Nat :=
  let m := d.eff Reg.GLB_ROLE_CFG_UPLINK_MASK
  ((d.role.uplinks.zipIdx).filter fun p => bitOf m p.2).map (·.1)

/-! ### Units -/

def Dev.chan (d : Dev) (n : Nat) : Chan := getT Chan.init n d.acq.chans
def Dev.setChan (d : Dev) (n : Nat) (c : Chan) : Dev := { d with acq := { d.acq with chans := putT n c d.acq.chans } }
def Dev.updChan (d : Dev) (n : Nat) (f : Chan → Chan) : Dev := d.setChan n (f (d.chan n))
def Dev.slot (d : Dev) (k : Nat) : Slot := getT Slot.init k d.acq.slots
def Dev.setSlot (d : Dev) (k : Nat) (c : Slot) : Dev := { d with acq := { d.acq with slots := putT k c d.acq.slots } }
def Dev.lane (d : Dev) (l : Nat) : Lane := getT Lane.init l d.lanes
def Dev.setLane (d : Dev) (l : Nat) (x : Lane) : Dev := { d with lanes := putT l x d.lanes }
def Dev.updLane (d : Dev) (l : Nat) (f : Lane → Lane) : Dev := d.setLane l (f (d.lane l))
def Dev.dom (d : Dev) (k : Nat) : Dom := getT Dom.init k d.tm.doms
def Dev.setDom (d : Dev) (k : Nat) (x : Dom) : Dev := { d with tm := { d.tm with doms := putT k x d.tm.doms } }
def Dev.updDom (d : Dev) (k : Nat) (f : Dom → Dom) : Dev := d.setDom k (f (d.dom k))
def Dev.ring (d : Dev) (r : Nat) : Ring := getT Ring.init r d.hr.rings
def Dev.setRing (d : Dev) (r : Nat) (x : Ring) : Dev := { d with hr := { d.hr with rings := putT r x d.hr.rings } }
def Dev.updRing (d : Dev) (r : Nat) (f : Ring → Ring) : Dev := d.setRing r (f (d.ring r))
def Dev.xing (d : Dev) (g : Nat) : Cross := getT Cross.init g d.cross
def Dev.setXing (d : Dev) (g : Nat) (x : Cross) : Dev := { d with cross := putT g x d.cross }

/-- A channel domain that is powered and in service: ON, CLOSING, DRAINING or LENT (R511). -/
def Dev.chanOn (d : Dev) (n : Nat) : Bool := [2, 3, 4, 5].contains (d.get (Reg.PWR_CH_STATE n))

/-- A channel in state ON (R511). -/
def Dev.chanIsOn (d : Dev) (n : Nat) : Bool := d.get (Reg.PWR_CH_STATE n) == 2

/-- Whether a lane-quad domain is on (R510). -/
def Dev.lqOn (d : Dev) (q : Nat) : Bool := d.get (Reg.PWR_DOM_LQ q) == 2

/-- Whether a memory domain is on (R510). -/
def Dev.mdOn (d : Dev) (m : Nat) : Bool := d.get (Reg.PWR_DOM_MD m) == 3

/-! ### Time -/

/-- The frame count: SEC × 1,000,000 + FS (R47). -/
def Dev.fn (d : Dev) : Nat := d.tm.clk.sec * 1000000 + d.tm.clk.fs

/-- The frame index FI (R47). -/
def Dev.fi (d : Dev) : Nat := d.fn % 2 ^ 32

/-- One frame in units of 2^-16 ns: 1,000 ns. -/
def frameUnits : Int := 65536000

/-- One reference cycle in units of 2^-16 ns: 4 ns. -/
def cycleUnits : Int := 262144

/-- Offset in the frame of the edge of reference cycle `c`, with the correction u spread over N cycles: the first r cycles
take one unit more (R58). -/
def edgeOfs (exc cyc : Nat) (u : Int) (c : Nat) : Int :=
  let q := floorDiv u cyc
  let r := (u - q * cyc).toNat
  exc + cycleUnits * c + q * c + min c r

/-- The instant of the edge of cycle `c` of the present frame. -/
def Dev.edge (d : Dev) (c : Nat) : Int :=
  frameUnits * d.fn + edgeOfs d.tm.clk.exc d.tm.clk.cyc d.tm.clk.u c

/-- The three words of a DT (R49) for SEC, FS and a record time offset. -/
def dtWords (sec fs ofs : Nat) : List Nat :=
  [sec % 2 ^ 32, sec / 2 ^ 32 % 65536 + fs % 65536 * 65536, fs / 65536 % 16 + ofs % 2 ^ 20 * 16]

/-- Frame count of an instant. -/
def instFn (t : Int) : Nat := (floorDiv t frameUnits).toNat

/-- Record time offset of an instant in the frame that contains it (R48): truncated to units of 2^-10 ns. -/
def instOfs (t : Int) : Nat := (floorDiv (t - frameUnits * floorDiv t frameUnits) 64).toNat

/-- DT of an instant (R48, R49). -/
def dtOfInst (t : Int) : List Nat :=
  let fn := instFn t
  dtWords (fn / 1000000) (fn % 1000000) (instOfs t)

/-- DT of the boundary that opened the present frame. -/
def Dev.dtNow (d : Dev) : List Nat :=
  dtWords d.tm.clk.sec d.tm.clk.fs (d.tm.clk.exc / 64)

/-- CLK_STATE (R50): 0 UNTIMED, 1 FREE, 2 COARSE, 3 LOCKED, 4 HOLDOVER. -/
def Dev.clkState (d : Dev) : Nat := d.get Reg.TIM_STATUS_CLK_STATE

/-! ### What leaves the device -/

/-- Record of an output. -/
def Dev.emit (d : Dev) (o : Out) : Dev := { d with out := o :: d.out }

/-! ### Device number, SEQ -/

/-- The device number in force (R41). -/
def Dev.devnum (d : Dev) : Nat := d.eff Reg.GLB_DEVICE_NUMBER_DEVNUM

/-- Whether it is valid. -/
def Dev.numbered (d : Dev) : Bool := d.effB Reg.GLB_DEVICE_NUMBER_VALID

/-- SEQ counter `k` of R208, and the device with it advanced. -/
def Dev.nextSeq (d : Dev) (k : Nat) : Nat × Dev :=
  let v := getT 0 k d.rcd.seqs
  (v, { d with rcd := { d.rcd with seqs := putT k ((v + 1) % 2 ^ 32) d.rcd.seqs } })

/-! ### Messages upward, events and replies -/

/-- Whether lane `l` is in data service (R358). -/
def Dev.inData (d : Dev) (l : Nat) : Bool := d.flag (Reg.LN_STATUS_DATA_SERVICE l)

/-- LSTATE of a lane (R356): 0 DARK, 1 BLIND, 2 FRAMED, 3 RAISING, 4 FULL, 5 IDLE, 6 PCIE. -/
def Dev.lstate (d : Dev) (l : Nat) : Nat := d.get (Reg.LN_STATUS_LSTATE l)

/-- The upward lane of replies and events (R290): domain A's port when in data service, else domain B's port, else the lowest
enabled uplink, one that UPLINK_MASK enables (R280). A domain port counts only while its domain is enabled on an uplink (log entry 11). -/
def Dev.upLane (d : Dev) : Option Nat :=
  let isPort (k : Nat) : Bool := d.flag (Reg.TIM_DOM_CFG_ENABLE k) && d.role.isUp (d.get (Reg.TIM_DOM_CFG_PORT k))
  if isPort 0 && d.inData (d.get (Reg.TIM_DOM_CFG_PORT 0)) then some (d.get (Reg.TIM_DOM_CFG_PORT 0))
  else if isPort 1 then some (d.get (Reg.TIM_DOM_CFG_PORT 1))
  else d.maskedUplinks.head?

/-- UP_QUEUE in use: 0 acts as 1, values above 32 act as 32 (R381). -/
def Dev.upQueue (d : Dev) : Nat := clampN 1 32 (d.get Reg.LN_MG_CFG_UP_QUEUE)

/-- A reply or event of this device into its own upward queue, or counted as dropped on the upward lane (R367). -/
def Dev.postUp (d : Dev) (m : Msg) : Dev :=
  if d.mg.ownQ.length < d.upQueue then { d with mg := { d.mg with ownQ := d.mg.ownQ ++ [m] } }
  else match d.upLane with
    | some l => d.addSat (Reg.LN_MG_STATS_DROPPED l) 1
    | none => d

/-! ### Pages of the egress pool (R222, R229, R241 to R243) -/

/-- Words a list of records takes. -/
def wordCount (rs : List (List Word)) : Nat := (rs.map List.length).sum

/-- Words of a queue not yet released. -/
def Ring.words (g : Ring) : Nat := wordCount g.wait + (g.entries.map fun e => wordCount e.recs).sum

/-- Pages the queue's words lie in. -/
def Ring.need (g : Ring) : Nat := (g.qStart + g.words + 1023) / 1024

/-- Pages the queue holds: pages behind the release position go back at a boundary only. -/
def Ring.held (g : Ring) : Nat := max g.pages g.need

/-- Pages on the free list. -/
def Dev.freePages (d : Dev) : Nat := d.rcd.pool - (d.hr.rings.map fun p => p.2.held).sum

/-- A ring changed, and EGR_POOL with it. -/
def Dev.putRing (d : Dev) (r : Nat) (g : Ring) : Dev :=
  let d := d.setRing r g
  let f := d.freePages
  (d.set Reg.EGR_POOL_FREE_PAGES f).set Reg.EGR_POOL_LOW_WATER (min f (d.get Reg.EGR_POOL_LOW_WATER))

/-- Count j of the next entry to open. -/
def Ring.nextJ (g : Ring) : Nat := (g.head + (g.entries.filter fun e => !e.written).length) % 2 ^ 32

/-- Entries of an event ring that are free (R305): every entry not confirmed holds a slot, written or, after a rewind, still to be written again. -/
def Ring.freeEntries (g : Ring) : Nat := 2 ^ g.log2 - cntDiff g.nextJ g.confirm

/-- Descriptors a hub in cold hold has in its core buffer (R499): those waiting and those written and not yet confirmed. -/
def Dev.coreBuffered (d : Dev) : Nat :=
  (d.hr.rings.map fun p => if p.2.typ = 3 then p.2.wait.length + p.2.entries.length else 0).sum

/-- Whether event ring `g` has room to hold one more descriptor: 256 beyond its free entries (R331), or 64 in all in cold hold
(R499). -/
def Dev.eventRoom (d : Dev) (g : Ring) : Bool :=
  if d.get Reg.PWR_THERM_STATUS_STATE = 4 then decide (d.coreBuffered < 64)
  else decide (g.wait.length < g.freeEntries + 256)

/-- A reply or event descriptor into event ring `r` of a hub (R330, R331, R335): held while the ring is on and has room;
discarded and counted otherwise. -/
def Dev.toEventRing (d : Dev) (r : Nat) (ws : List Nat) : Dev :=
  let g := d.ring r
  if g.st = 1 ∧ g.typ = 3 then
    if d.eventRoom g then d.putRing r { g with wait := g.wait ++ [wordsOf ws] }
    else (d.setRing r { g with lost := g.lost + 1 }).addWrap Reg.HR_DROP_STATS_EVT_DROPPED 1
  else d.addWrap Reg.HR_DROP_STATS_EVT_DROPPED 1

/-- An event descriptor raised by device `dev` (R327, R329), ENTRY 0. -/
def Dev.eventDesc (d : Dev) (cls code : Nat) (data : List Nat) : List Nat :=
  [2 + cls * 256 + d.devnum * 65536, code % 65536, d.fi, 0, nth data 0, nth data 1, nth data 2, nth data 3].map (· % 2 ^ 32)

/-- Raising an event: a hub writes it to EVENT_RING, any other device sends it up (R330, R367). A device that has no role
raises none: nothing carries it. -/
def Dev.raise (d : Dev) (cls code : Nat) (data : List Nat) : Dev :=
  match d.role with
  | .hub => d.toEventRing (d.get Reg.HR_EVT_CFG_EVENT_RING) (d.eventDesc cls code data)
  | .noRole => d
  | _ =>
    let m : Msg := { kind := 3, origin := d.devnum, ring := 0, seq := d.mg.msgSeq, body := wordsOf (d.eventDesc cls code data),
                     port := 63, idx := 0 }
    { d with mg := { d.mg with msgSeq := (d.mg.msgSeq + 1) % 2 ^ 32 } }.postUp m

/-- An event of classes 0x01 to 0x06, whose code the manual does not state: the code and the data words the manual does not
name are free values (log entry 4); `data` are the words it names. -/
def Dev.raiseOpen (d : Dev) (cls cause : Nat) (data : List Nat) : Dev :=
  d.raise cls (Config.eventCode cls cause)
    (data ++ (rangeFrom data.length 4).map fun k => Config.eventData cls cause (k + 4))

/-- A reply descriptor (R327, R328): W7[2:0] carries the clock state in every reply to a headgate action. -/
def Dev.replyDesc (d : Dev) (c : Cmd) (status : Nat) (data : List Nat) : List Nat :=
  let hg := bitOf (nth (natsOf c.w) 0) 11
  let w7 := if hg then nth data 3 / 8 * 8 + d.clkState else nth data 3
  [1 + status * 256 + d.devnum * 65536, nth (natsOf c.w) 1 % 65536 + (c.ring % 4096) * 65536, d.fi, 0,
    nth data 0, nth data 1, nth data 2, w7].map (· % 2 ^ 32)

/-- One more in a count of lane `l`, of the 48 lanes there are. -/
def Dev.countLane (d : Dev) (f : Nat → Fld) (l : Nat) : Dev := if l < 48 then d.addSat (f l) 1 else d

/-- A reply that leaves by lane `l` itself (R366), at most UP_QUEUE of them (log entry 12); counted as dropped where it finds no room. -/
def Dev.postLane (d : Dev) (l : Nat) (m : Msg) : Dev :=
  if (d.lane l).ansQ.length < d.upQueue then d.updLane l fun x => { x with ansQ := x.ansQ ++ [m] }
  else d.countLane Reg.LN_MG_STATS_DROPPED l

/-- A reply to a command: into the reply ring of the host's command ring (R330), up under R290 and R367, or back down the port a
downstream command came from (log entry 12). A command of SPI has no reply. -/
def Dev.reply (d : Dev) (c : Cmd) (status : Nat) (data : List Nat) : Dev :=
  let m : Msg := { kind := 2, origin := c.origin, ring := c.ring, seq := c.seq, body := wordsOf (d.replyDesc c status data),
                   port := 63, idx := 0 }
  match c.src with
  | .pcie => d.toEventRing (d.ring c.ring).replyRing (d.replyDesc c status data)
  | .upLane => d.postUp m
  | .downLane => d.postLane c.port m
  | .spi => d

/-- A busy reply (R366): retry frame FI + 8 + (p mod 8), `full` the port whose queue was full or 63; it leaves on the port the
command came by and counts there. -/
def Dev.busyAt (d : Dev) (c : Cmd) (retry full : Nat) : Dev :=
  let data := [(d.fi + retry) % 2 ^ 32, full]
  let m : Msg := { kind := 2, origin := c.origin, ring := c.ring, seq := c.seq, body := wordsOf (d.replyDesc c 9 data),
                   port := 63, idx := 0 }
  match c.src with
  | .pcie => d.toEventRing (d.ring c.ring).replyRing (d.replyDesc c 9 data)
  | .spi => d
  | _ => (d.postLane c.port m).countLane Reg.LN_MG_STATS_BUSY c.port

/-- A status 0x0A reply, counted on the lane the command came by (R365, R378). -/
def Dev.notPermitted (d : Dev) (c : Cmd) : Dev :=
  match c.src with
  | .upLane | .downLane => (d.reply c 0x0A []).countLane Reg.LN_MG_STATS_REFUSED c.port
  | _ => d.reply c 0x0A []

end Sys2Proof.Machine
end

