-- ==== Sys2Proof/Machine/Flags.lean ====
section
/-! DEFINITION. The status and flag rules every register shares (R14, R545 to R551): reading a field, writing a field by its
access type, and putting a frame-synchronous field into force. -/
namespace Sys2Proof.Machine

/-- What a read of a field gives: a WO field reads 0 (R14). -/
def Dev.readField (d : Dev) (f : Fld) : Nat :=
  match f.acc with
  | .wo => 0
  | _ => d.get f

/-- The word made of the fields' values (R545: bits no field covers read 0). -/
def Dev.readFields (d : Dev) (fs : List Fld) : Nat :=
  (fs.map fun f => fieldAt f.lo f.width (d.readField f)).sum

/-- A software write of `v` to one field, by its access type (R14, R534). A WO field holds nothing: its act is its own
rule's. -/
def Dev.writeField (d : Dev) (f : Fld) (v : Nat) : Dev :=
  match f.acc with
  | .rw => d.set f v
  | .ro => d
  | .w1c => d.set f (d.get f &&& (2 ^ f.width - 1 - v % 2 ^ f.width))
  | .w1s => d.set f (d.get f ||| v % 2 ^ f.width)
  | .wo => d
  | .rwl => if d.flag Reg.HM_STATUS_RWL_LOCKED then d else d.set f v

/-- A software write of a word to the fields of its register (R546). -/
def Dev.writeFields (d : Dev) (fs : List Fld) (w : Nat) : Dev :=
  fs.foldl (fun d f => d.writeField f (bits w f.lo f.width)) d

/-- The written value of the word's frame-synchronous fields put into force (R25, step 5), and read back from then on. -/
def Dev.forceFields (d : Dev) (fs : List Fld) (w : Nat) : Dev :=
  fs.foldl (fun d f => if f.sync && f.acc == .rw then d.setBoth f (bits w f.lo f.width) else d) d

/-- A write waiting for the next boundary (R25). -/
def Dev.enqueue (d : Dev) (q : Queued) : Dev := { d with queue := d.queue ++ [q] }

/-- A software write to a register without behaviour of its own: every field takes the value by its access type, and the
frame-synchronous fields wait for the next boundary. -/
def Dev.plainWrite (d : Dev) (src : Source) (addr w : Nat) : Dev :=
  let fs := fieldsAt addr
  let d := d.writeFields fs w
  if fs.any (fun f => f.sync && f.acc == .rw) then d.enqueue (.reg src addr (w32 w)) else d

/-- Whether the word at an address holds a frame-synchronous field. -/
def syncAt (addr : Nat) : Bool := (fieldsAt addr).any fun f => f.sync && f.acc == .rw

end Sys2Proof.Machine
end

