-- ==== Sys2Proof/Machine/Faults.lean ====
section
/-! DEFINITION. Detected errors (12_radiation_faults_and_recovery.md): the per-byte code, the fault log, assays, the cause bits of
FLT_STATUS, and the ledger (R502 to R505), which lasting verdicts, trips and releases write. -/
namespace Sys2Proof.Machine

/-! ### The ledger -/

/-- Word `a` of the ledger. -/
def Dev.ldgWord (d : Dev) (a : Nat) : Nat := getT 0 a d.ledger

/-- The 16 words of slot `s`. -/
def Dev.ldgSlot (d : Dev) (s : Nat) : List Nat := (List.range 16).map fun i => d.ldgWord (16 * s + i)

/-- A ledger with the words written from address `a` on. -/
def ldgPut (l : List (Nat × Nat)) (a : Nat) (ws : List Nat) : List (Nat × Nat) :=
  ws.zipIdx.foldl (fun l p => putZ (a + p.2) (p.1 % 2 ^ 32) l) l

/-- Whether a slot ends with the CRC-32C of its first 60 bytes (R502). -/
def ldgSlotOk (ws : List Nat) : Bool := nth ws 15 == crcWords (ws.take 15)

/-- The header copy the device trusts (R502): the one whose CRC is valid and whose NEXT_SEQ is larger, with equal ones the one of the later
boot; with no valid copy, an empty ledger (log entry 14). -/
def Dev.ldgHeader (d : Dev) : Nat × List Nat :=
  let a := d.ldgSlot 0
  let b := d.ldgSlot 1
  match ldgSlotOk a, ldgSlotOk b with
  | true, true => if nth a 1 < nth b 1 ∨ (nth a 1 = nth b 1 ∧ nth a 2 < nth b 2) then (1, b) else (0, a)
  | true, false => (0, a)
  | false, true => (1, b)
  | false, false => (1, [0x00014C44, 0, 0, 0, 2])

/-- A header copy of these values written over the copy not trusted (R502), and shown in LDG_STATUS. -/
def Dev.ldgSetHeader (d : Dev) (seq boot overwrites slot : Nat) : Dev :=
  let copy := 1 - d.ldgHeader.1
  let ws := [0x00014C44, seq % 2 ^ 32, boot % 2 ^ 32, overwrites % 2 ^ 32, slot] ++ List.replicate 10 0
  ({ d with ledger := ldgPut d.ledger (16 * copy) (ws ++ [crcWords ws]) }).set Reg.LDG_STATUS_NEXT_SLOT slot

/-- The slot after `s` in the circle of slots 2 to 255. -/
def ldgNext (s : Nat) : Nat := if 255 ≤ s then 2 else s + 1

/-- A slot written with 15 words and their CRC; a slot that does not keep what is written is left with a bad CRC and counted
(R505; log entry 15 for `ldgWeak`). It answers whether the read-back was good. -/
def Dev.ldgWriteSlot (d : Dev) (slot : Nat) (ws : List Nat) : Bool × Dev :=
  let crc := crcWords ws
  if d.ldgWeak.contains slot then
    (false, ({ d with ledger := ldgPut d.ledger (16 * slot) (ws ++ [crc ^^^ 1]) }).addSat Reg.LDG_STATUS_WRITE_ERR 1)
  else (true, { d with ledger := ldgPut d.ledger (16 * slot) (ws ++ [crc]) })

/-- An entry (R503, R505) of the given TYPE and payload W8 onward: written into NEXT_SLOT, once more into the following slot
after a bad read-back, then the header updated; a slot written before counts as overwritten. It answers the entry's
LEDGER_SEQ. -/
def Dev.ldgEntry (d : Dev) (typ : Nat) (payload : List Nat) : Nat × Dev :=
  let h := d.ldgHeader.2
  let seq := nth h 1
  let slot := nth h 4
  let used (s : Nat) : Nat := b2n ((d.ldgSlot s).any (· != 0))
  let w0 := typ + 16 + d.devnum * 65536
  let w7 := d.clkState + d.get Reg.GLB_ROLE_STATUS_ACTIVE_ROLE * 8
  let ws := [w0, seq, nth h 2, d.fi] ++ d.dtNow ++ [w7] ++ payload ++ List.replicate (7 - payload.length) 0
  let first := d.ldgWriteSlot slot ws
  if first.1 then (seq, first.2.ldgSetHeader (seq + 1) (nth h 2) (nth h 3 + used slot) (ldgNext slot))
  else
    let slot2 := ldgNext slot
    let second := first.2.ldgWriteSlot slot2 ws
    (seq, second.2.ldgSetHeader (seq + 1) (nth h 2) (nth h 3 + used slot + used slot2) (ldgNext slot2))

/-- BOOT_COUNT increased at the role-fixed step (R505). -/
def Dev.ldgBoot (d : Dev) : Dev :=
  let h := d.ldgHeader.2
  d.ldgSetHeader (nth h 1) (nth h 2 + 1) (nth h 3) (nth h 4)

/-! ### The per-byte code (R412 to R414), on error patterns -/

/-- The 13 stored bits of byte `k` in a 52-bit pattern, in the order of positions 1 to 12 and then c4 (R412, R413). -/
def byteBits (e k : Nat) : List Bool :=
  let d (i : Nat) := bitOf e (8 * k + i)
  let c (i : Nat) := bitOf e (32 + 5 * k + i)
  [c 0, c 1, d 0, c 2, d 1, d 2, d 3, c 3, d 4, d 5, d 6, d 7, c 4]

/-- The syndrome s of a byte: the exclusive-or of the positions in error (R414; the code is linear). -/
def byteS (e k : Nat) : Nat :=
  (((byteBits e k).take 12).zipIdx.filter fun p => p.1).foldl (fun a p => a ^^^ (p.2 + 1)) 0

/-- The parity p of the 13 stored bits of a byte (R414). -/
def byteP (e k : Nat) : Nat := ((byteBits e k).filter id).length % 2

/-- What a read makes of a byte (R414). -/
inductive ByteRead where
  | clean | corrected | uncorrectable
  deriving DecidableEq, Repr

def byteRead (e k : Nat) : ByteRead :=
  match byteS e k, byteP e k with
  | 0, 0 => .clean
  | s, 1 => if s ≤ 12 then .corrected else .uncorrectable
  | _, _ => .uncorrectable

/-- What a read makes of a word: uncorrectable if any byte is, else corrected if any byte is. -/
def wordRead (e : Nat) : ByteRead :=
  let rs := (List.range 4).map (byteRead e)
  if rs.contains .uncorrectable then .uncorrectable else if rs.contains .corrected then .corrected else .clean

/-- The 13 bits of byte `k` as a mask within the 52-bit word. -/
def byteMask (k : Nat) : Nat := 255 * 2 ^ (8 * k) + 31 * 2 ^ (32 + 5 * k)

/-- Position of a byte's bit 1 to 12 in the 52-bit word. -/
def bitPlace (k pos : Nat) : Nat :=
  nth [32 + 5 * k, 33 + 5 * k, 8 * k, 34 + 5 * k, 8 * k + 1, 8 * k + 2, 8 * k + 3, 35 + 5 * k, 8 * k + 4, 8 * k + 5, 8 * k + 6,
    8 * k + 7] (pos - 1)

/-- The error pattern left in one byte after the device's correction (R414, R416). -/
def correctByte (e k : Nat) : Nat :=
  match byteRead e k with
  | .corrected => if byteS e k = 0 then e ^^^ 2 ^ (36 + 5 * k) else e ^^^ 2 ^ bitPlace k (byteS e k)
  | _ => e

/-- The error pattern left after a read has corrected what it can and written the word back. -/
def correctWord (e : Nat) : Nat := (List.range 4).foldl correctByte e

/-- The first failing byte of a word. -/
def firstBad (e : Nat) : Nat := (firstIdx? (fun k => byteRead e k != .clean) 0 (List.range 4)).getD 0

/-- DETAIL of a memory entry (R423): s in [27:24], p in [28] of the first failing byte. -/
def memDetail (e : Nat) : Nat := byteS e (firstBad e) + 16 * byteP e (firstBad e)

/-! ### Cause bits -/

/-- The word of FLT_STATUS. -/
def Dev.fltStatus (d : Dev) : Nat := d.readFields (fieldsAt 0xC000)

/-- BEYOND_MODEL: 1 while a cause bit is set (R435, R437). -/
def Dev.setBeyond (d : Dev) : Dev :=
  d.setB Reg.FLT_STATUS_BEYOND_MODEL
    (d.flag Reg.FLT_STATUS_DOUBLE_BYTE || d.flag Reg.FLT_STATUS_TWO_COPIES || d.flag Reg.FLT_STATUS_INDEX
      || d.flag Reg.FLT_STATUS_REF_LOST || d.flag Reg.FLT_STATUS_BOTH_DOMAINS || d.flag Reg.FLT_STATUS_JUNCTION)

/-- Raising a cause bit of R434, with event 0x0003 (R435). -/
def Dev.breach (d : Dev) (f : Fld) : Dev :=
  if d.flag f then d
  else
    let d := (d.setB f true).setBeyond
    d.raise 9 3 [d.fltStatus]

/-! ### Fault log and assays -/

/-- Assays waiting and running, shown in FLT_STATUS (R437). -/
def Dev.setAssays (d : Dev) (l : List Assay) : Dev :=
  let d := { d with flt := { d.flt with assays := l } }
  (d.set Reg.FLT_STATUS_ASSAYS_WAITING (l.filter fun a => !a.running).length).setB Reg.FLT_STATUS_ASSAY_ACTIVE
    (l.any fun a => a.running)

/-- Words of log slot `s`. -/
def Dev.logSlot (d : Dev) (s : Nat) : List Nat := natsOf (getT [0, 0, 0, 0] s d.flt.log)

/-- Log slot `s` written. -/
def Dev.setLogSlot (d : Dev) (s : Nat) (ws : List Nat) : Dev :=
  { d with flt := { d.flt with log := putT s (wordsOf ws) d.flt.log } }

/-- Whether units of this kind are assayed (R419): a FIFO index and the self-test are not. -/
def assayable (unit : Nat) : Bool := decide (1 ≤ unit ∧ unit ≤ 8)

/-- The overwrite of the oldest entry: counted, and reported at most once per 1,000 frames (R422, R424). -/
def Dev.logOverwrite (d : Dev) : Dev :=
  let d := d.addWrap Reg.FLT_LOG_OVERWRITES_OVERWRITES 1
  let n := d.flt.ovr.1 + 1
  if n = 1 ∧ d.flt.ovr.2 = 0 ∨ d.flt.ovr.2 + 1000 ≤ d.fn then
    ({ d with flt := { d.flt with ovr := (0, d.fn) } }).raise 9 6 [n]
  else { d with flt := { d.flt with ovr := (n, d.flt.ovr.2) } }

/-- One more record written off because of the error behind the assay of a unit that waits or runs (COUNT, R423). -/
def Dev.logCount (d : Dev) (unit loc : Nat) : Dev :=
  match d.flt.assays.find? fun a => a.u == { unit := unit, loc := loc } with
  | none => d
  | some a =>
    let ws := d.logSlot (a.slot % 256)
    let w3 := nth ws 3
    if w3 % 65536 = a.slot % 65536 then d.setLogSlot (a.slot % 256) (ws.set 3 (w3 % 65536 + min 65535 (w3 / 65536 + 1) * 65536)) else d

/-- An error that joins the assay of its unit (R419, R420): seen again while the assay runs, of a triplicated element in the same copy. -/
def Assay.joined (a : Assay) (detail : Nat) : Assay :=
  if a.running && (a.u.unit != 3 || a.copy == detail % 4) then { a with again := true } else a

/-- A detected error (R419 to R424): it joins the unit's assay, or writes a log entry, raises event 0x0001 and raises an assay.
`loc` names the unit (R423 without the byte bits), `byte` stands in [22:21], `count` is the records written off. -/
def Dev.logError (d : Dev) (unit kind action : Nat) (beyond : Bool) (detail loc byte count : Nat) : Dev :=
  let u : UnitId := { unit := unit, loc := loc }
  match d.flt.assays.find? fun a => a.u == u with
  | some a =>
    let ws := d.logSlot (a.slot % 256)
    let d : Dev := { d with flt := { d.flt with assays := d.flt.assays.map fun b => if b.u == u then b.joined detail else b } }
    if nth ws 3 % 65536 = a.slot % 65536 then
      let w0 := nth ws 0
      let rep := min 255 (bits w0 16 8 + 1)
      let cnt := min 65535 (nth ws 3 / 65536 + count)
      d.setLogSlot (a.slot % 256)
        [w0 - fieldAt 16 8 (bits w0 16 8) + fieldAt 16 8 rep, nth ws 1, nth ws 2, nth ws 3 % 65536 + cnt * 65536]
    else d
  | none =>
    let waiting := (d.flt.assays.filter fun a => !a.running).length
    let noAssay := assayable unit && decide (16 ≤ waiting)
    let q := d.flt.logSeq
    let w0 := pack [(0, 4, unit), (4, 4, kind), (10, 3, action), (13, 1, b2n beyond), (14, 1, b2n noAssay), (24, 8, detail)]
    let w2 := loc + byte * 2 ^ 21
    let w3 := q % 65536 + min 65535 count * 65536
    let d := if 256 ≤ q then d.logOverwrite else d
    let d := d.setLogSlot (q % 256) [w0, d.fi, w2, w3]
    let d : Dev := { d with flt := { d.flt with logSeq := q + 1 } }
    let d := (d.set Reg.FLT_LOG_STATUS_ENTRIES (min 256 (q + 1))).set Reg.FLT_LOG_STATUS_NEXT_SEQ (q + 1)
    let d := d.raise 9 1 [w0, w2, w3]
    if noAssay then d.addSat Reg.FLT_COUNT_ASSAY_NOT_ASSAYED 1
    else if assayable unit then
      d.setAssays (d.flt.assays ++ [{ u := u, slot := q, running := false, fn := d.fn, copy := if unit = 3 then detail % 4 else 3, again := false }])
    else d

/-- A verdict written into the entry that raised the assay, with its event and count (R419, R422, R441): 1 transient, 2 lasting,
3 inconclusive. A lasting one goes to the ledger (R421). -/
def Dev.verdict (d : Dev) (u : UnitId) (v : Nat) : Dev :=
  match d.flt.assays.find? fun a => a.u == u with
  | none => d
  | some a =>
    let ws := d.logSlot (a.slot % 256)
    let mine := nth ws 3 % 65536 == a.slot % 65536
    let ws' := [nth ws 0 + v * 256, nth ws 1, nth ws 2, nth ws 3]
    let d := d.setAssays (d.flt.assays.filter fun a => a.u != u)
    let d := if mine then (d.setLogSlot (a.slot % 256) ws').raise 9 2 [nth ws' 0, nth ws' 2, nth ws' 3] else d
    let d := match v with
      | 1 => d.addWrap Reg.FLT_COUNT_ASSAY_TRANSIENT 1
      | 2 => d.addSat Reg.FLT_COUNT_ASSAY_LASTING 1
      | _ => d.addSat Reg.FLT_COUNT_ASSAY_INCONCLUSIVE 1
    if v = 2 then (d.ldgEntry 2 ws').2 else d

/-! ### Crossing groups (R385, R392) -/

/-- Whether the role uses crossing group g: lane receivers of its lanes, PCI Express of a hub, SPI, always-on (R385, R398). -/
def Dev.usesGroup (d : Dev) (g : Nat) : Bool :=
  if g < 48 then d.role.usesLane g else if g = 48 then d.role == .hub else decide (g ≤ 50)

/-- A crossing flushed (R392): what has been loaded stands. -/
def Hold.flush (h : Hold) : Hold := { h with reg := none, loaded := false, shadow := none }

/-- A reset of one side of group g: the surviving side flushes its half and counts it (R392, R399, R400). `held` says whether the far side
stays in reset or without clock (log entry 35). -/
def Dev.flushGroup (d : Dev) (g : Nat) (held : Bool) : Dev :=
  if !d.usesGroup g then d
  else
    let x := d.xing g
    let d := d.setXing g { x with val := x.val.flush, cnt := x.cnt.flush, flushes := (x.flushes + 1) % 65536, held := held }
    if g = 49 then d else d.addWrap Reg.XC_TOTAL_FLUSHES 1

/-- The far side of group g runs. -/
def Dev.unholdGroup (d : Dev) (g : Nat) : Dev := if (d.xing g).held then d.setXing g { d.xing g with held := false } else d

end Sys2Proof.Machine
end

