-- ==== Sys2Proof/Machine/Gate.lean ====
section
/-! DEFINITION. Who may write what (R531, R532): register groups, the protection profile, and the gate every register write of
a source passes. -/
namespace Sys2Proof.Machine

/-- Number of a management source (R531). -/
def srcNum : Source → Nat
  | .spi => 0
  | .upLane => 1
  | .downLane => 2
  | .pcie => 3

/-- Group of an address (R531): that of the block base at or below it. -/
def groupOf (addr : Nat) : Nat :=
  if addr < 0x100 then 0
  else if addr < 0x1000 then 1
  else if addr < 0x5000 then addr / 0x1000 + 1
  else if addr < 0x7000 then 6
  else min 14 (addr / 0x1000)

/-- Word `w` of the hallmark as read at bring-up (R529). -/
def Dev.hmWord (d : Dev) (w : Nat) : Nat := getT 0 w d.hm.view

/-- Whether the profile denies a source a group (R530, R531): while SEALED is 0 it denies nothing. -/
def Dev.profileDenies (d : Dev) (s : Source) (g : Nat) : Bool :=
  let b := 4 * g + srcNum s
  d.flag Reg.HM_STATUS_SEALED && bitOf (d.hmWord (129 + b / 32)) (b % 32)

/-- Whether a source may write a group (R532): a downstream lane never; the PCIe host only of a hub. -/
def Dev.mayWriteGroup (d : Dev) (s : Source) (g : Nat) : Bool :=
  match s with
  | .downLane => false
  | .pcie => d.role == .hub && !d.profileDenies s g
  | _ => !d.profileDenies s g

/-- Whether a source may write an address: the programming registers of group 13 only from SPI and the PCIe host (R532). -/
def Dev.mayWrite (d : Dev) (s : Source) (addr : Nat) : Bool :=
  let prog := decide (0xD010 ≤ addr ∧ addr ≤ 0xD01C)
  d.mayWriteGroup s (groupOf addr) && !(prog && s == .upLane)

/-- Whether a source may read an address (R532): always, but for a downstream lane whose group's bit is blown. -/
def Dev.mayRead (d : Dev) (s : Source) (addr : Nat) : Bool :=
  match s with
  | .downLane => !d.profileDenies s (groupOf addr)
  | _ => true

/-- A denial as HM_DENIED records it (R540). -/
def Dev.deny (d : Dev) (s : Source) (g : Nat) : Dev :=
  ((d.addWrap Reg.HM_DENIED_COUNT 1).set Reg.HM_DENIED_LAST_GROUP g).set Reg.HM_DENIED_LAST_SOURCE (srcNum s)

/-- Whether the device takes register writes of a source at an address (R554): the running device all of them, a held device those of SPI
to the Hallmark view block. -/
def Dev.open? (d : Dev) (s : Source) (addr : Nat) : Bool := d.up || (d.boot == .held && s == .spi && groupOf addr == 13)

/-- A register write: taken from a source that may write the address, recorded as a denial otherwise (R532). -/
def Dev.gated (d : Dev) (s : Source) (addr : Nat) (f : Dev → Dev) : Dev :=
  if !d.open? s addr then d else if d.mayWrite s addr then f d else d.deny s (groupOf addr)

end Sys2Proof.Machine
end

