-- ==== Sys2Proof/Machine/Time.lean ====
section
/-! DEFINITION. System time (02_system_time_and_headgate_actions.md): clock, timing exchange, servo, domains A and B,
asymmetry watch, domain source, transmit time-stamp queue, and the arrival of headgate actions. -/
namespace Sys2Proof.Machine

/-! ### Formats -/

/-- diff(a, b) of R47 on (FI, OFS) pairs. -/
def stampDiff (a b : Nat × Int) : Int := fiDiff a.1 b.1 * frameUnits + (a.2 - b.2)

/-- Rounding to nearest with halves away from zero (R58). -/
def roundAway (a b : Int) : Int :=
  if 0 ≤ a then floorDiv (2 * a + b) (2 * b) else -floorDiv (2 * -a + b) (2 * b)

/-! ### Events, states -/

/-- Causes of class 0x01 events, by the model's own numbers (log entry 4): 1 clock state, 2 domain state, 3 switch, 4 watch
opened, 5 watch verdict, 6 TOD mismatch, 7 leap flags. -/
def Dev.timeEvent (d : Dev) (cause : Nat) (data : List Nat) : Dev := d.raiseOpen 1 cause data

/-- A change of the clock state, at a boundary and before the record of the frame it opens is made (R50): the register and an event
(R64). -/
def Dev.setClkState (d : Dev) (st : Nat) : Dev :=
  if d.clkState = st then d else (d.set Reg.TIM_STATUS_CLK_STATE st).timeEvent 1 []

/-- State of domain `k` (R60): 0 OFF, 1 WAIT, 2 TRACKING, 3 QUALIFIED, 4 LOST, 5 SUSPECT. -/
def domStateFld (k : Nat) : Fld := if k = 0 then Reg.TIM_STATUS_DOM_A_STATE else Reg.TIM_STATUS_DOM_B_STATE

def Dev.domState (d : Dev) (k : Nat) : Nat := d.get (domStateFld k)

/-- Whether domain `k` is enabled on PPS_IN (R65). -/
def Dev.isSource (d : Dev) (k : Nat) : Bool :=
  d.flag (Reg.TIM_DOM_CFG_ENABLE k) && d.get (Reg.TIM_DOM_CFG_PORT k) == 63

/-- A change of a domain's state, with its event (R64). A domain that leaves the count for QUALIFIED starts it again; a source's first edge
after WAIT or LOST has none before it (R65). -/
def Dev.setDomState (d : Dev) (k st : Nat) : Dev :=
  if d.domState k = st then d
  else
    let d := (d.set (domStateFld k) st).updDom k fun x => { x with goodRun := 0 }
    let d := if d.isSource k && (st == 1 || st == 4) then { d with tm := { d.tm with pps := { d.tm.pps with lastFn := none } } } else d
    d.timeEvent 2 []

/-- FLT_STATUS.BOTH_DOMAINS (R434): both enabled domains lost or suspect at once. -/
def Dev.bothDomains (d : Dev) : Dev :=
  if (d.domState 0 = 4 ∨ d.domState 0 = 5) ∧ (d.domState 1 = 4 ∨ d.domState 1 = 5) then
    d.breach Reg.FLT_STATUS_BOTH_DOMAINS
  else d

/-- The domain the servo follows (R61). -/
def Dev.selected (d : Dev) : Nat := d.get Reg.TIM_STATUS_SELECTED

/-- The switch the next boundary makes (R61): a pending one, or the automatic one away from a LOST domain. -/
def Dev.switchTarget (d : Dev) : Option Nat :=
  match d.tm.swPend with
  | some k => some k
  | none =>
    if d.flag Reg.TIM_CTRL_AUTO_SWITCH && d.domState d.selected == 4 && d.domState (1 - d.selected) == 3 then some (1 - d.selected)
    else none

/-- The domain that will be selected at the next boundary. -/
def Dev.nextSelected (d : Dev) : Nat := d.switchTarget.getD d.selected

/-- The asymmetry watch as it stands after a change, with its status bit. -/
def Dev.setWatch (d : Dev) (w : Option Watch) : Dev :=
  ({ d with tm := { d.tm with watch := w } }).setB Reg.TIM_STATUS_ASYM_WATCH w.isSome

/-! ### Timing exchange slot -/

/-- OFS_A or OFS_B: the latest θ of domain `k`, 0x8000_0000 when unknown (R54, R81). -/
def Dev.domOfs (d : Dev) (k : Nat) : Nat := d.get (Reg.TIM_DOM_OFS_OFS k)

/-- Hop count advertised for domain `k` (R54). -/
def Dev.domHops (d : Dev) (k : Nat) : Nat :=
  if [0, 1, 4].contains (d.domState k) || d.domOfs k == 0x80000000 then 15
  else if d.isSource k then 0 else min 15 ((d.dom k).hops + 1)

/-- Identifier advertised for domain `k` (R54). -/
def Dev.domId (d : Dev) (k : Nat) : Nat :=
  if [0, 1, 4].contains (d.domState k) then 0
  else if d.isSource k then d.get Reg.TIM_SRC_CFG_DOMAIN_ID else (d.dom k).id

/-- The mean phase that refines this device's stamps on lane `l` (R55, R145), none while they are raw: refinement runs for a domain
port. -/
def Dev.stampPhase (d : Dev) (l : Nat) : Option Int :=
  (List.range 2).findSome? fun k =>
    if d.flag (Reg.TIM_DOM_CFG_ENABLE k) && d.get (Reg.TIM_DOM_CFG_PORT k) == l && (d.dom k).refined then (d.dom k).phase else none

/-- A raw stamp on lane `l`, and the refined one where refinement runs (R55). -/
def Dev.refine (d : Dev) (l : Nat) (raw : Int) : Int := raw + (d.stampPhase l).getD 0

/-- The timing exchange slot sent on lane `l` in a lane frame whose comma is stamped `ofs` after the boundary (R54). RX_VALID is 0 in
BLIND (R356). -/
def Dev.slotWords (d : Dev) (l : Nat) (ofs : Int) : List Nat :=
  let x := d.lane l
  let rx := if d.lstate l = 1 then none else x.rxStamp
  let num := d.numbered
  let renum := decide (d.fn < d.mg.renumUntil)
  let w0 := pack [(0, 4, 1), (4, 3, d.clkState), (7, 1, b2n (d.stampPhase l).isSome), (8, 1, b2n rx.isSome),
    (9, 1, b2n (rx.isSome && x.rxRefined)), (10, 1, b2n (d.isSource 0)), (11, 1, b2n (d.isSource 1)), (12, 1, b2n renum),
    (13, 1, b2n num), (16, 16, if num then d.devnum else 0)]
  let echo := match rx with
    | some r => [r.1, ofSigned 32 (((r.2.1 : Int) - d.fn) * frameUnits + r.2.2)]
    | none => [0, 0]
  let w7 := pack [(0, 8, d.domId 0), (8, 4, d.domHops 0), (12, 3, d.domState 0), (16, 8, d.domId 1), (24, 4, d.domHops 1),
    (28, 3, d.domState 1)]
  [w0, d.fi, ofSigned 32 ofs] ++ echo ++ [d.domOfs 0, d.domOfs 1, w7]

/-- θ as TIM_DOM_OFS and the slots show it (R57, R81). DESIGN CHOICE (log entry 46): a θ that 32 bits cannot hold shows the nearest value
they can, short of the one that means "unknown". -/
def ofsWord (theta : Int) : Nat := ofSigned 32 (clampI (-2147483647) 2147483647 theta)

/-- θ of an input for domain `k` taken into the domain: the registers, the partner's word, and the state (R57, R60). -/
def Dev.takeTheta (d : Dev) (k : Nat) (theta : Int) (delay : Nat) : Dev :=
  let d := (d.set (Reg.TIM_DOM_OFS_OFS k) (ofsWord theta)).set (Reg.TIM_DOM_DELAY_DELAY k) delay
  let d := d.updDom k fun x => { x with fresh := some theta, idle := 0 }
  if d.domState k = 1 ∨ d.domState k = 4 then d.setDomState k 2 else d

/-- Whether a slot received on lane `l` gives a valid exchange for domain `k` (R56). -/
def Dev.exchangeValid (d : Dev) (l k : Nat) (slot : List Nat) : Bool :=
  let w0 := nth slot 0
  let w7 := nth slot 7
  let id := bits w7 (16 * k) 8
  let hops := bits w7 (16 * k + 8) 4
  let st := bits w7 (16 * k + 12) 3
  let expect := d.get (Reg.TIM_DOM_CFG_EXPECT_ID k)
  bitOf w0 8 && (d.lane l).txStamps.any (fun p => p.1 == nth slot 3) && d.effB (Reg.LN_CTRL_ATTESTED l) && decide (hops < 15)
    && (if expect = 0 then id != 0 else id == expect) && (st == 2 || st == 3) && nth slot (5 + k) != 0x80000000

/-- The four instants of R57 and what follows from them, for domain `k`; `ofs` is the own stamp of the comma. -/
def Dev.exchange (d : Dev) (l k : Nat) (slot : List Nat) (ofs : Int) : Dev :=
  if d.flag (Reg.TIM_DOM_CFG_ENABLE k) && d.get (Reg.TIM_DOM_CFG_PORT k) == l && d.role.isUp l && d.exchangeValid l k slot then
    let t1 := (nth slot 1, (nth slot 2 : Int))
    let t2 := (d.fi, ofs)
    let t3 := match (d.lane l).txStamps.find? fun p => p.1 == nth slot 3 with
      | some p => (p.1, (p.2 : Int))
      | none => (0, 0)
    let t4 := (nth slot 1, toSigned 32 (nth slot 4))
    let meas := Int.tdiv (stampDiff t2 t1 - stampDiff t4 t3) 2
    let delay := Int.tdiv (stampDiff t2 t1 + stampDiff t4 t3) 2
    let theta := meas - d.effI (Reg.TIM_DOM_ASYM_ASYM k) + toSigned 32 (nth slot (5 + k))
    let w7 := nth slot 7
    let d := d.updDom k fun x => { x with hops := bits w7 (16 * k + 8) 4, id := bits w7 (16 * k) 8,
                                          partnerQual := bits w7 (16 * k + 12) 3 == 3 }
    d.takeTheta k theta (ofSigned 32 delay)
  else d

/-- The slot of an accepted lane frame whose comma has the raw stamp `raw`: the receipt stamp to echo, and an exchange for each domain on
this port. -/
def Dev.takeSlot (d : Dev) (l : Nat) (slot : List Nat) (raw : Int) : Dev :=
  let ofs := d.refine l raw
  let refined := (d.stampPhase l).isSome
  let d := d.updLane l fun x => { x with rxStamp := some (nth slot 1, d.fn, ofs), rxRefined := refined }
  (d.exchange l 0 slot ofs).exchange l 1 slot ofs

/-! ### Servo and domain steps, at the close of a frame -/

/-- SLEW_LIMIT in use (R58, R77). -/
def Dev.slew (d : Dev) : Int := d.get Reg.TIM_SERVO_LIMITS_SLEW_LIMIT

/-- Step s of domain `k` at an update: θ − θ′ − U, none at the first input (R60). -/
def Dom.stepOf (x : Dom) : Option Int :=
  match x.fresh, x.lastFn with
  | some th, some _ => some (th - x.lastTheta - x.sumU)
  | _, _ => none

/-- Whether domain `k` has stepped in this update (R63). -/
def Dev.domStepped (d : Dev) (k : Nat) : Option Int :=
  match (d.dom k).stepOf with
  | some s => if d.domState k = 3 ∧ s.natAbs > d.get Reg.TIM_ASYM_CTRL_STEP_THRESH then some s else none
  | none => none

/-- Two steps are alike (R63). -/
def Dev.alike (d : Dev) (a b : Int) : Bool := decide ((a - b).natAbs ≤ d.get Reg.TIM_ASYM_CTRL_STEP_THRESH)

/-- The count toward QUALIFIED, and the fall back when the partner no longer advertises it (R60). -/
def Dev.countQualified (d : Dev) (k : Nat) : Dev :=
  let x := d.dom k
  match x.fresh with
  | none => d.updDom k fun x => { x with idle := x.idle + 1, step := none }
  | some _ =>
    let pq := if d.isSource k then !d.tm.pps.srcHold else x.partnerQual
    let good := match x.stepOf with
      | some s => pq && decide (s.natAbs ≤ d.get Reg.TIM_SERVO_LIMITS_LOCK_THRESH)
      | none => false
    let run := if good then x.goodRun + 1 else 0
    let d := if d.domState k = 3 ∧ pq = false then d.setDomState k 2 else d
    d.updDom k fun x => { x with goodRun := run, step := x.stepOf }

/-- A watch whose verdict makes X SUSPECT (R64). -/
def Dev.suspectX (d : Dev) (w : Watch) : Dev :=
  (((d.setWatch none).setDomState w.x 5).bothDomains).timeEvent 5 []

/-- Y has confirmed after 64 updates (R64): X is SUSPECT, and with AUTO_SWITCH the next boundary switches to Y. -/
def Dev.asymConfirm (d : Dev) : Dev :=
  match d.tm.watch with
  | some w =>
    if d.up && decide (64 ≤ w.yRun) then
      let d := d.suspectX w
      if d.selected = w.x ∧ d.flag Reg.TIM_CTRL_AUTO_SWITCH = true then
        { d with tm := { d.tm with swPend := some (1 - w.x) } }
      else d
    else d
  | none => d

/-- WINDOW in use (R83). -/
def Dev.window (d : Dev) : Nat := max 1 (d.get Reg.TIM_ASYM_CTRL_WINDOW)

/-- The update of frame F + WINDOW is past and Y has neither stepped nor confirmed (R64). -/
def Dev.asymExpiry (d : Dev) : Dev :=
  match d.tm.watch with
  | some w => if d.up && decide (w.fn + d.window < d.fn) && decide (w.yRun < 64) then d.suspectX w else d
  | none => d

/-- The step rules of R63 and R64 for one update: the steps of A and B, before the states change. -/
def Dev.judgeSteps (d : Dev) : Dev :=
  let sA := d.domStepped 0
  let sB := d.domStepped 1
  let st (k : Nat) := if k = 0 then sA else sB
  match d.tm.watch with
  | some w =>
    let y := 1 - w.x
    match st y, st w.x with
    | some s, _ =>
      if d.alike s w.sX then (d.setWatch none).timeEvent 5 []
      else ((((d.setWatch none).setDomState 0 5).setDomState 1 5).bothDomains).timeEvent 5 []
    | none, some _ =>
      let d := (((d.setWatch none).setDomState w.x 5).bothDomains).timeEvent 5 []
      if d.selected = w.x ∧ d.flag Reg.TIM_CTRL_AUTO_SWITCH = true ∧ d.domState y = 3 then
        { d with tm := { d.tm with swPend := some y } }
      else d
    | none, none =>
      let run := if d.domState y = 3 then (if (d.dom y).fresh.isSome then w.yRun + 1 else w.yRun) else 0
      { d with tm := { d.tm with watch := some { w with yRun := run } } }
  | none =>
    match sA, sB with
    | some a, some b =>
      if d.alike a b then d else ((d.setDomState 0 5).setDomState 1 5).bothDomains
    | some a, none =>
      if d.domState 1 = 3 then
        (d.setWatch (some { x := 0, sX := a, fn := d.fn, yRun := 0, held := d.selected == 0 })).timeEvent 4 []
      else d
    | none, some b =>
      if d.domState 0 = 3 then
        (d.setWatch (some { x := 1, sX := b, fn := d.fn, yRun := 0, held := d.selected == 1 })).timeEvent 4 []
      else d
    | none, none => d

/-- Whether the servo holds: HOLDOVER, no time yet, or a watch or a suspect domain that stops it from this update (R58, R62,
R64). -/
def Dev.servoHolds (d : Dev) : Bool :=
  !(d.clkState == 2 || d.clkState == 3) || (match d.tm.watch with | some w => w.held | none => false)
    || d.domState d.selected == 5

/-- One servo update (R58) on the newest input of the selected domain: the correction u of the next frame, and the integrator. DESIGN CHOICE
(log entry 48): INTEG shows the floor of the integrator; a frame without an exchange neither adds to nor breaks the run of R53. -/
def Dev.servo (d : Dev) (input : Option Int) : Int × Dev :=
  let slew := d.slew
  if d.flag Reg.TIM_CTRL_SERVO_EN = false then (0, d)
  else
    let hold := -roundAway d.tm.integ 65536
    match (if d.servoHolds then none else input) with
    | none => (clampI (-slew) slew hold, d)
    | some e =>
      let ki : Int := d.eff Reg.TIM_SERVO_KI_KI
      let kp : Int := d.eff Reg.TIM_SERVO_KP_KP
      let integ := clampI (-slew * 65536) (slew * 65536) (d.tm.integ + ki * e)
      let u := -roundAway (kp * e * 256 + integ) 65536
      let run := if e.natAbs ≤ d.get Reg.TIM_SERVO_LIMITS_LOCK_THRESH then d.tm.lockRun + 1 else 0
      if u < -slew ∨ slew < u then (clampI (-slew) slew u, { d with tm := { d.tm with lockRun := run } })
      else
        let d := { d with tm := { d.tm with integ := integ, lockRun := run } }
        (u, d.setI Reg.TIM_SERVO_INTEG_INTEG (floorDiv integ 65536))

/-- After the update: the input of this frame becomes the previous one, and U gathers the step just computed (R60). -/
def Dev.rollDomain (d : Dev) (k : Nat) (u : Int) : Dev :=
  d.updDom k fun x => match x.fresh with
    | some th => { x with fresh := none, lastFn := some d.fn, lastTheta := th, sumU := u }
    | none => { x with sumU := x.sumU + u }

/-- The time path's work at the close of a frame (R58, R60, R63): a watch whose verdict is due ends before another update could change it,
then steps judged, count toward QUALIFIED, servo. A computation without a
majority (R408: `noDec` the domain decisions, `noServo` the servo) runs as if no input had arrived. -/
def Dev.closeTime (d : Dev) (noDec noServo : Bool) : Int × Dev :=
  let inputs := [(d.dom 0).fresh, (d.dom 1).fresh]
  let drop (d : Dev) (k : Nat) : Dev := d.updDom k fun x => { x with fresh := none }
  let d := if noDec then drop (drop d 0) 1 else d
  let d := d.asymConfirm.asymExpiry.judgeSteps
  let d := (d.countQualified 0).countQualified 1
  let r := d.servo (if noServo then none else inputs.getD d.selected none)
  (r.1, (r.2.rollDomain 0 r.1).rollDomain 1 r.1)

/-! ### The boundary -/

/-- Reference cycles of a frame that opens with excess `exc` and takes correction `u` (R46): the first edge at or past
1,000 ns. -/
def frameCycles (exc : Int) (u : Int) : Nat :=
  (floorDiv (frameUnits - exc - u + cycleUnits - 1) cycleUnits).toNat

/-- The boundary (R46, R47, R51): the next frame of the local clock with correction `u`; a coarse step of the domain named by
`stepPend` subtracts its θ. -/
def Dev.advanceClock (d : Dev) (u : Int) : Dev :=
  let c := d.tm.clk
  let t := frameUnits * d.fn + (c.exc : Int) + cycleUnits * c.cyc + c.u
  let step : Option Int := d.tm.stepPend.map fun k => (d.dom k).lastTheta
  let t' := match step with
    | some th => max 0 (t - th)
    | none => t
  let fn := instFn t'
  let exc := (t' - frameUnits * fn).toNat
  let clk : Clk := { sec := fn / 1000000, fs := fn % 1000000, exc := exc, cyc := frameCycles exc u, u := u }
  { d with tm := { d.tm with clk := clk, stepped := step.isSome } }

/-- What the coarse step leaves (R51): COARSE, STEPPED, the domain selected, no stored stamps, offsets in the new clock. -/
def Dev.afterStep (d : Dev) : Dev :=
  match d.tm.stepPend with
  | none => d
  | some k =>
    let th := (d.dom k).lastTheta
    let ls := d.lanes.map fun p => (p.1, { p.2 with txStamps := [], rxStamp := none })
    let shift (d : Dev) (j : Nat) : Dev :=
      let d := d.updDom j fun x => { x with lastTheta := x.lastTheta - th, sumU := 0 }
      if d.domOfs j = 0x80000000 then d
      else d.set (Reg.TIM_DOM_OFS_OFS j) (ofsWord (d.dom j).lastTheta)
    let d := { d with lanes := ls, tm := { d.tm with stepPend := none, lockRun := 0 } }
    let d := (shift (shift d 0) 1).set Reg.TIM_STATUS_SELECTED k
    (d.setB Reg.TIM_STATUS_STEPPED true).setClkState 2

/-- A count of a slipped frame as it closes (R24, R44); the stepped frame is none. -/
def Dev.countSlip (d : Dev) : Dev :=
  if d.tm.stepped then d
  else if d.tm.clk.cyc = 249 then d.addWrap Reg.GLB_SLUICE_SLIP_SLIP_SHORT 1
  else if d.tm.clk.cyc = 251 then d.addWrap Reg.GLB_SLUICE_SLIP_SLIP_LONG 1
  else d

/-- Step 2 of R25: a pending switch, or the automatic switch away from a LOST domain (R61). -/
def Dev.switchDomain (d : Dev) : Dev :=
  let target := d.switchTarget
  let d := { d with tm := { d.tm with swPend := none } }
  match target with
  | some k => if k = d.selected then d else (d.set Reg.TIM_STATUS_SELECTED k).timeEvent 3 []
  | none => d

/-- Entry into and exit from HOLDOVER at a boundary (R62, R528), FREE declared (R72), and the count of holdover frames (R84). A clock in
FREE stays there until the coarse step (R52); HOLD_REQ goes before a FREE declared with it (log entry 47). -/
def Dev.holdoverRules (d : Dev) : Dev :=
  let sel := d.domState d.selected
  let watchHeld := match d.tm.watch with | some w => w.held | none => false
  let hold := d.flag Reg.TIM_CTRL_HOLD_REQ || watchHeld || !d.pins.refPresent
  if (d.clkState = 0 ∨ d.clkState = 2 ∨ d.clkState = 3) ∧ (sel = 4 ∨ sel = 5 ∨ hold = true) then
    (d.set Reg.TIM_HOLD_FRAMES_FRAMES 1).setClkState 4
  else if d.clkState = 0 ∧ d.flag Reg.TIM_CTRL_FREE = true then d.setClkState 1
  else if d.clkState = 4 then
    if sel = 3 ∧ hold = false then
      ({ d with tm := { d.tm with lockRun := 0 } }).setClkState 2
    else d.addSat Reg.TIM_HOLD_FRAMES_FRAMES 1
  else d

/-- Whether the update just made completes the conditions of LOCKED (R53): with CLOCK_LOCKED in hand the boundary after that update enters
it, without it the boundary after the next. -/
def Dev.locksNow (d : Dev) : Bool :=
  d.clkState == 2 && d.domState d.selected == 3 && (d.dom d.selected).refined
    && decide ((if d.tm.lockPend then 16 else 17) ≤ d.tm.lockRun)

/-- Step 2 of R25 and the clock state: a switch, HOLDOVER and FREE, and LOCKED (R53) where COARSE stays. -/
def Dev.clockStates (d : Dev) : Dev :=
  let lock := d.locksNow
  let d := (({ d with tm := { d.tm with lockPend := false } }).switchDomain).holdoverRules
  if lock && d.clkState == 2 then d.setClkState 3 else d

/-- STAMPS_REFINED follows the selected domain (R73). -/
def Dev.refinedStatus (d : Dev) : Dev :=
  d.setB Reg.TIM_STATUS_STAMPS_REFINED (d.dom d.selected).refined

/-! ### Rows -/

/-- COARSE_STEP: the preferred domain if it is TRACKING, otherwise the other one, gives the step the next boundary takes. -/
def Dev.coarseStep (d : Dev) : Dev :=
  let track (k : Nat) : Bool := d.domState k == 2 || d.domState k == 3
  let pref := d.get Reg.TIM_CTRL_PREFER
  if d.up && (d.clkState == 0 || d.clkState == 1) then
    if track pref then { d with tm := { d.tm with stepPend := some pref } }
    else if track (1 - pref) then { d with tm := { d.tm with stepPend := some (1 - pref) } }
    else d
  else d

def execCoarseStep (s : State) : Res := onDev Dev.coarseStep s

/-- CLOCK_LOCKED (R53): the boundary that follows makes a COARSE clock LOCKED if the conditions hold after the update of this frame. -/
def Dev.clockLocked (d : Dev) : Dev :=
  whenD (d.up && d.clkState == 2) (fun d => { d with tm := { d.tm with lockPend := true } }) d

def execClockLocked (s : State) : Res := onDev Dev.clockLocked s

/-- DOMAIN_QUALIFIED (R60): 16 consecutive good exchanges, 4 edges for a source. -/
def Dev.domainQualified (d : Dev) (k : Nat) : Dev :=
  whenD (d.up && d.domState k == 2 && decide ((if d.isSource k then 4 else 16) ≤ (d.dom k).goodRun))
    (fun d => d.setDomState k 3) d

def execDomainQualified (k : Nat) (s : State) : Res := onUnit 2 k (fun d => d.domainQualified k) s

/-- Frames without valid input before LOST (R60, R79): 2 s for a PPS source. -/
def Dev.lostAfter (d : Dev) (k : Nat) : Nat :=
  if d.isSource k then 2000000 else max 1 (d.get (Reg.TIM_DOM_CFG_LOST_TIMEOUT k))

/-- DOMAIN_LOST (R60). -/
def Dev.domainLost (d : Dev) (k : Nat) : Dev :=
  whenD (d.up && (d.domState k == 2 || d.domState k == 3) && decide (d.lostAfter k ≤ (d.dom k).idle))
    (fun d => (d.setDomState k 4).bothDomains) d

def execDomainLost (k : Nat) (s : State) : Res := onUnit 2 k (fun d => d.domainLost k) s

/-- ASYM_WATCH_CONFIRM (R64). -/
def execAsymWatchConfirm (s : State) : Res := onDev Dev.asymConfirm s

/-- ASYM_WATCH_EXPIRY (R64). -/
def execAsymWatchExpiry (s : State) : Res := onDev Dev.asymExpiry s

/-- The whole second nearest to an instant, in the clock's units. -/
def nearestSecond (t : Int) : Int :=
  frameUnits * 1000000 * roundDiv t (frameUnits * 1000000)

/-- One message at the edge it names (R67): accepted when it ended at least 10 ms before, with its SEQ, FLAGS and leap event; rejected and
counted otherwise. -/
def Dev.judgeTod (d : Dev) (m : Tod) : Dev :=
  if m.fn + 10000 ≤ d.fn then
    let d := (d.set Reg.TIM_TOD_STATUS_LAST_SEQ m.seq).set Reg.TIM_TOD_STATUS_LAST_FLAGS m.flags
    if bitOf m.flags 1 || bitOf m.flags 2 then d.timeEvent 7 [m.src] else d
  else d.addSat Reg.TIM_TOD_STATUS_BAD_MSG 1

/-- An accepted edge takes the messages that wait for it (R67): the last accepted one applies. -/
def Dev.edgeMessages (d : Dev) : Option Tod × Dev :=
  let ok := (d.tm.pps.msgs.filter fun m => decide (m.fn + 10000 ≤ d.fn)).getLast?
  let hold := match ok with
    | some m => bitOf m.flags 3
    | none => false
  let fn := d.fn
  let d := d.tm.pps.msgs.foldl Dev.judgeTod d
  (ok, { d with tm := { d.tm with pps := { d.tm.pps with lastFn := some fn, edgeFn := some fn, msgs := [], srcHold := hold } } })

/-- An in-band edge for source domain `k` at instant `t` (R65, R67): θ from the message while the domain waits, from the nearest second
otherwise. Without a message a clock that is UNTIMED cannot name SEC (R85). DESIGN CHOICE (log entry 49): a DOMAIN_ID of 0 gives no θ in any
state, so a source that has one is LOST in time. -/
def Dev.ppsTheta (d : Dev) (k : Nat) (t : Int) : Dev :=
  let corr := d.getI Reg.TIM_PPS_CORR_PPS_CORR
  let r := d.edgeMessages
  let d := r.2
  let waiting := d.domState k == 1 || d.domState k == 4
  if d.get Reg.TIM_SRC_CFG_DOMAIN_ID = 0 then d
  else match r.1 with
    | some m =>
      let want : Int := frameUnits * 1000000 * m.sec
      if waiting then d.takeTheta k (t - want - corr) 0
      else
        let d := if nearestSecond (t - corr) = want then d
                 else (d.setB Reg.TIM_STATUS_TOD_MISMATCH true).timeEvent 6 [m.src]
        d.takeTheta k (t - corr - nearestSecond (t - corr)) 0
    | none =>
      if waiting && d.clkState == 0 then d
      else d.takeTheta k (t - corr - nearestSecond (t - corr)) 0

/-- Lender channel of domain `k` (R144, R158): fixed in the cell and hub roles. -/
def Dev.lender (d : Dev) (k : Nat) : Nat :=
  if d.role != .frontEnd then k
  else
    let v := if k = 0 then d.eff Reg.TDC_LEND_LEND_A else d.eff Reg.TDC_LEND_LEND_B
    if v < 48 then v else k

/-- Slow edges counted up to edge 0 of cycle `cyc` of the present frame (R129); samples count ten to a cycle. -/
def Dev.edgeCount (d : Dev) (cyc : Nat) : Int := 16 * (floorDiv d.acq.base 10 + cyc)

/-- Whether the TDC of channel `n` is free at slow-edge count `e` (R129). -/
def Dev.tdcIdle (d : Dev) (n : Nat) (e : Int) : Bool :=
  match (d.chan n).lastE with
  | some l => decide (l + 160 ≤ e)
  | none => true

/-- Whether the lender stamps: both locks, no linearity calibration, a valid table (R145). -/
def Dev.lenderOk (d : Dev) (n : Nat) : Bool :=
  d.flag (Reg.CH_TDC_STATUS_SLOW_LOCK n) && d.flag (Reg.CH_TDC_STATUS_FAST_LOCK n) && !d.flag (Reg.CH_TDC_STATUS_LIN_ACTIVE n)
    && d.flag (Reg.CH_TDC_STATUS_LIN_VALID n)

/-- The PPS_IN edge of the configured polarity, stamped `t`, for source domain `k` (R65): the first after WAIT or LOST starts the count, one in
band gives θ, any other is ignored. -/
def Dev.ppsStamped (d : Dev) (k : Nat) (t : Int) : Dev :=
  match d.tm.pps.lastFn with
  | none => d.edgeMessages.2
  | some f =>
    if f + 999900 ≤ d.fn ∧ d.fn ≤ f + 1000100 then d.ppsTheta k t else d.setB Reg.TIM_STATUS_PPS_OUT_OF_BAND true

/-- A whole TOD_IN message (R66, R67): its form and the 50 ms after the last edge are checked now, the rest at the edge it names. DESIGN
CHOICE (log entry 50): a type nibble other than 0 is no message of this format and is rejected. -/
def Dev.todWhole (d : Dev) (b : List Nat) : Dev :=
  let le (i n : Nat) : Nat := ((rangeFrom i (i + n)).map fun j => nth b j * 256 ^ (j - i)).sum
  let ok := nth b 0 == 0xC7 && nth b 1 == 0x01 && le 12 4 == crc32c (b.take 12)
  let late := match d.tm.pps.edgeFn with
    | some f => decide (d.fn < f + 50000)
    | none => false
  if ok && !late then
    let m : Tod := { sec := le 2 6, flags := nth b 8, src := nth b 9, seq := le 10 2, fn := d.fn }
    { d with tm := { d.tm with pps := { d.tm.pps with msgs := d.tm.pps.msgs ++ [m] } } }
  else d.addSat Reg.TIM_TOD_STATUS_BAD_MSG 1

/-- Bytes taken in 16 at a time, at most `n` messages; what is left over is the partial message. -/
def todBytes : Nat → List Nat → Dev → Dev
  | 0, buf, d => { d with tm := { d.tm with pps := { d.tm.pps with buf := buf } } }
  | n + 1, buf, d =>
    if buf.length < 16 then { d with tm := { d.tm with pps := { d.tm.pps with buf := buf } } }
    else todBytes n (buf.drop 16) (d.todWhole (buf.take 16))

/-- TOD_MESSAGE: bytes join the partial message, and every 16 make a message. -/
def Dev.todMessage (d : Dev) (bytes : List Byte) : Dev :=
  if d.up && d.flag Reg.TIM_SRC_CFG_TOD_EN then
    let buf := d.tm.pps.buf ++ bytes.map BitVec.toNat
    todBytes (buf.length / 16 + 1) buf d
  else d

def execTodMessage (bytes : List Byte) (s : State) : Res := onDev (fun d => d.todMessage bytes) s

/-- TOD_GAP_TIMEOUT (R66). -/
def Dev.todGap (d : Dev) : Dev := { d with tm := { d.tm with pps := { d.tm.pps with buf := [] } } }

def execTodGapTimeout (s : State) : Res := onDev Dev.todGap s

/-- The transmit time-stamp queue with its LEVEL (R90). -/
def Dev.setTxq (d : Dev) (q : List TxqE) : Dev :=
  ({ d with tm := { d.tm with txq := q } }).set Reg.TIM_TXQ_CTRL_LEVEL q.length

/-- An entry for a stamped message (R68): dropped when 16 are held. -/
def Dev.txqAdd (d : Dev) (e : TxqE) : Dev :=
  if d.tm.txq.length < 16 then d.setTxq (d.tm.txq ++ [e])
  else (d.setB Reg.TIM_TXQ_CTRL_OVF true).addWrap Reg.TIM_TXQ_CTRL_DROPS 1

/-- A POP (R68, R91). -/
def Dev.txqPop (d : Dev) : Dev :=
  match d.tm.txq with
  | [] => d.setB Reg.TIM_TXQ_ENTRY_VALID false
  | e :: t =>
    let d := (d.setTxq t).setB Reg.TIM_TXQ_ENTRY_VALID true
    (((d.set Reg.TIM_TXQ_ENTRY_ID e.id).set Reg.TIM_TXQ_ENTRY_LANE e.lane).set Reg.TIM_TXQ_FI_FI e.fi).set
      Reg.TIM_TXQ_OFS_OFS e.ofs

/-- A read of TIM_NOW_SEC_LO in reference cycle `cyc` captures the clock and FI (R74). -/
def Dev.captureNow (d : Dev) (cyc : Nat) : Dev :=
  let t := d.edge cyc
  let fn := instFn t
  let rem := (t - frameUnits * fn).toNat
  let sec := fn / 1000000
  let ns := fn % 1000000 * 1000 + rem / 65536
  (((((d.set Reg.TIM_NOW_SEC_LO_SEC_LO sec).set Reg.TIM_NOW_SEC_HI_SEC_HI (sec / 2 ^ 32)).set Reg.TIM_NOW_SEC_HI_FRAC
    (rem % 65536)).set Reg.TIM_NOW_NS_NS ns)).set Reg.TIM_NOW_FI_FI fn

def execTimNowCapture (cyc : Nat) (s : State) : Res := onDev (fun d => whenD d.up (fun d => d.captureNow cyc) d) s

/-- The PREFER part of a TIM_CTRL write (R61): a switch to the named domain at the next boundary, or a refusal. DESIGN CHOICE (log entry 53):
while a switch away is pending, naming the domain selected now is a request like any other. -/
def Dev.requestSwitch (d : Dev) (prefer : Nat) (force : Bool) : Dev :=
  if prefer = d.nextSelected then d.set Reg.TIM_CTRL_PREFER prefer
  else if d.domState prefer = 3 ∨ (force = true ∧ d.domState prefer = 2) then
    { d.set Reg.TIM_CTRL_PREFER prefer with tm := { d.tm with swPend := some prefer } }
  else d.setB Reg.TIM_CTRL_SWITCH_REFUSED true

/-- A write of TIM_CTRL (R72). -/
def Dev.writeTimCtrl (d : Dev) (w : Nat) : Dev :=
  let old := d.get Reg.TIM_CTRL_PREFER
  let d := (d.writeFields (fieldsAt 0x1000) w).set Reg.TIM_CTRL_PREFER old
  d.requestSwitch (bits w 2 1) (bitOf w 3)

/-- Ports domain `k` may use (R59): upstream lanes of the role, or PPS_IN unless it stands for the other domain. -/
def Dev.portOk (d : Dev) (k port : Nat) : Bool :=
  d.role.isUp port || (port == 63 && d.get (Reg.TIM_DOM_CFG_PORT (1 - k)) != 63)

/-- Domain `k` from the start, OFF or in WAIT: its offset is unknown, a PPS source has no delay (R82), and a watch on it ends without a
verdict (log entry 13). -/
def Dev.restartDom (d : Dev) (k st : Nat) : Dev :=
  let d := match d.tm.watch with
    | some w => if w.x = k then d.setWatch none else d
    | none => d
  let pps := { d.tm.pps with lastFn := if d.isSource k then none else d.tm.pps.lastFn }
  let d : Dev := { d with tm := { d.tm with pps := pps } }
  let d := if d.get (Reg.TIM_DOM_CFG_PORT k) = 63 then d.set (Reg.TIM_DOM_DELAY_DELAY k) 0 else d
  ((d.setDom k Dom.init).set (Reg.TIM_DOM_OFS_OFS k) 0x80000000).setDomState k st

/-- A write of TIM_DOM_CFG (R59, R79): a refused port leaves PORT and sets CFG_ERR, and the write's other fields take effect (DESIGN CHOICE, log
entry 51); ENABLE and a new port start the domain in WAIT (log entry 13). -/
def Dev.writeDomCfg (d : Dev) (k w : Nat) : Dev :=
  let old := d.get (Reg.TIM_DOM_CFG_PORT k)
  let port := bits w 0 6
  let ok := d.portOk k port
  let d := d.writeFields (fieldsAt (0x1030 + 4 * k)) w
  let d := if ok then d else (d.set (Reg.TIM_DOM_CFG_PORT k) old).setB (Reg.TIM_DOM_CFG_CFG_ERR k) true
  if d.flag (Reg.TIM_DOM_CFG_ENABLE k) = false then d.restartDom k 0
  else if d.domState k = 0 ∨ d.get (Reg.TIM_DOM_CFG_PORT k) ≠ old then d.restartDom k 1
  else d

/-- CLEAR_A and CLEAR_B (R64, R83). DESIGN CHOICE (log entry 52): the device does not look whether TIM_DOM_ASYM was written before. -/
def Dev.clearSuspect (d : Dev) (a b : Bool) : Dev :=
  let one (d : Dev) (k : Nat) (c : Bool) : Dev := if c && d.domState k == 5 then d.setDomState k 2 else d
  one (one d 0 a) 1 b

/-- A write of TIM_SERVO_LIMITS (R77): SLEW_LIMIT above 6,553 stores 6,553, 0 stores 1. -/
def Dev.writeServoLimits (d : Dev) (w : Nat) : Dev :=
  (d.set Reg.TIM_SERVO_LIMITS_SLEW_LIMIT (clampN 1 6553 (bits w 0 13))).set Reg.TIM_SERVO_LIMITS_LOCK_THRESH (bits w 16 16)

/-! ### Headgate actions -/

/-- The held actions with HELD (R88). -/
def Dev.setHeldActions (d : Dev) (l : List Cmd) : Dev :=
  ({ d with tm := { d.tm with held := l } }).set Reg.TIM_HG_CTRL_HELD l.length

/-- Tag of a command (R322). -/
def cmdTag (c : Cmd) : Nat := nth (natsOf c.w) 1 % 65536

/-- TARGET_FI of a command (R322). -/
def cmdTarget (c : Cmd) : Nat := nth (natsOf c.w) 2

/-- A refused headgate action (R70, R89). -/
def Dev.refuseAction (d : Dev) (c : Cmd) (status : Nat) : Dev :=
  (d.reply c status []).addWrap Reg.TIM_HG_STATS_REFUSED 1

/-- The arrival of a headgate action (R69 to R71): refused without time, late beyond the grace, or when 64 are held, in that order (DESIGN
CHOICE, log entry 54); otherwise held for the boundary that executes it. -/
def Dev.headgateArrive (d : Dev) (c : Cmd) : Dev :=
  let df := fiDiff (cmdTarget c) ((d.fi + 1) % 2 ^ 32)
  if d.clkState = 0 then d.refuseAction c 4
  else if df < 0 ∧ (d.get Reg.TIM_HG_CTRL_GRACE : Int) < -df then d.refuseAction c 2
  else if 64 ≤ d.tm.held.length then d.refuseAction c 3
  else d.setHeldActions (d.tm.held ++ [c])

/-- A cancel at step 5 (R70): the first held action with the tag is removed and answered, or the cancel finds none. -/
def Dev.cancelTag (d : Dev) (c : Cmd) : Dev :=
  let tag := nth (natsOf c.w) 4 % 65536
  match d.tm.held.find? fun h => cmdTag h == tag with
  | some h =>
    let rest := d.tm.held.eraseP fun h => cmdTag h == tag
    ((d.setHeldActions rest).reply h 5 []).reply c 0 []
  | none => d.reply c 6 []

end Sys2Proof.Machine
end

