-- ==== Sys2Proof/Machine/Acquire.lean ====
section
/-! DEFINITION. Dual-gain waveform acquisition (03_dual_gain_waveform_acquisition.md): correction, range merge, capture ring,
cross-gain tracker, foreground and background calibration. Samples enter the model frame by frame: the boundary that ends a
frame takes the converter codes of that frame (log entry 16). -/
namespace Sys2Proof.Machine

/-! ### Frames and samples -/

/-- Value of a frame-synchronous field in the frame. -/
def FStat.val (s : FStat) (f : Fld) : Nat := getT f.reset f.key s.force

/-- Signed value of such a field. -/
def FStat.valI (s : FStat) (f : Fld) : Int := toSigned f.width (s.val f)

/-- Samples per channel in a frame (R94). -/
def FStat.samples (s : FStat) : Nat := 10 * s.cyc

/-- The frame numbered `fn` among those kept. -/
def Dev.frameOf (d : Dev) (fn : Nat) : Option FStat := d.acq.fstats.find? fun s => s.fn == fn

/-- The kept frame that holds device-wide sample `i`. -/
def Dev.frameAt (d : Dev) (i : Int) : Option FStat :=
  d.acq.fstats.find? fun s => decide (s.base ≤ i) && decide (i < s.base + s.samples)

/-- A frame's account changed. -/
def Dev.updFrame (d : Dev) (fn : Nat) (f : FStat → FStat) : Dev :=
  { d with acq := { d.acq with fstats := updFirst (fun s => s.fn == fn) f d.acq.fstats } }

/-- Instant of sample `k` of a frame, in fifths of 2^-16 ns from frame 0 (R94). -/
def instant5 (fn exc cyc : Nat) (u : Int) (k : Nat) : Int :=
  5 * (frameUnits * fn + edgeOfs exc cyc u (k / 10)) + 131072 * (k % 10 : Nat)

/-- Instant of sample `k` of a kept frame. -/
def FStat.instant5 (s : FStat) (k : Nat) : Int := Machine.instant5 s.fn s.exc s.cyc s.u k

/-- Record time offset of sample `k` from the boundary of its own frame (R94, R48). -/
def FStat.sampleOfs (s : FStat) (k : Nat) : Nat := (floorDiv (s.instant5 k - 5 * frameUnits * s.fn) 320).toNat

/-- The ring frame that holds sample `i`. -/
def Chan.ringAt (c : Chan) (i : Int) : Option RingFrame :=
  c.ring.find? fun r => decide (r.first ≤ i) && decide (i < r.first + r.smp.length)

/-- Sample `i` of the capture ring. -/
def Chan.sample (c : Chan) (i : Int) : Option Sample :=
  match c.ringAt i with
  | some r => r.smp[(i - r.first).toNat]?
  | none => none

/-- Sample `i` since the channel's last restart. -/
def Chan.live (c : Chan) (i : Int) : Option Sample := if c.since ≤ i then c.sample i else none

/-- The `n` samples from `i` on, as far as the ring holds them. -/
def Chan.slice (c : Chan) (i : Int) (n : Nat) : List Sample :=
  c.ring.flatMap fun r =>
    let from' := max i r.first
    let to' := min (i + n) (r.first + r.smp.length)
    if from' < to' then (r.smp.drop (from' - r.first).toNat).take (to' - from').toNat else []

/-! ### Correction and merge -/

/-- A rail code (R99). -/
def atRail (code : Int) : Bool := code == 2047 || code == -2048

/-- s_l in units of 2^-26 S16 LSB (R95). -/
def corrL (gl : Nat) (ol code : Int) : Int := (256 * code - ol) * gl

/-- s_h in units of 2^-26 S16 LSB (R95). -/
def corrH (gh : Nat) (oh code : Int) : Int := (16 * code - oh) * gh

/-- floor(s + 1/2) before the clamp (R95). -/
def roundS (s : Int) : Int := floorDiv (s + 33554432) 67108864

/-- The four correction factors in force (R95). -/
structure Corr where
  gl : Nat
  ol : Int
  gh : Nat
  oh : Int
  deriving DecidableEq, Repr

def Dev.corr (d : Dev) (n : Nat) : Corr :=
  { gl := d.eff (Reg.CH_LG_GAIN_GL n), ol := d.effI (Reg.CH_LG_OFS_OL n), gh := d.eff (Reg.CH_HG_GAIN_GH n),
    oh := d.effI (Reg.CH_HG_OFS_OH n) }

/-- A code pair made a candidate of the merge (R95, R96, R99). -/
def Corr.cand (k : Corr) (mode : Nat) (prov pois : Bool) (code : Int × Int) : Cand :=
  let l := roundS (corrL k.gl k.ol code.1)
  let h := roundS (corrH k.gh k.oh code.2)
  { lo := satSigned 16 l
    hi := satSigned 16 h
    loClip := atRail code.1 || satSigned 16 l != l
    hiClip := atRail code.2 || satSigned 16 h != h
    endg := decide (1919 ≤ code.2) || decide (code.2 ≤ -1920)
    prov := prov
    pois := pois
    mode := mode }

/-- MERGE_MODE as it acts (R112): 0 automatic, 1 low gain only, 2 high gain only. -/
def mergeMode (m : Nat) : Nat := if m = 3 then 0 else m

/-- The merge between two samples: range, window start, endangered flags of the last 8 samples, mode of the last sample, number of
the next one, seams and clipped samples counted. -/
structure MergeSt where
  low : Bool
  start : Int
  hist : List Bool
  mode : Nat
  idx : Int
  seams : Nat
  clips : Nat
  deriving DecidableEq, Repr

/-- One step of R97 and R98: `ahead` says that one of the next 8 samples is endangered. -/
def MergeSt.step (m : MergeSt) (ahead : Bool) (s : Cand) : MergeSt × Sample :=
  let near := s.endg || ahead || m.hist.any id
  let start := if s.mode = 0 ∧ m.mode ≠ 0 ∧ m.low = true then m.idx else m.start
  let low :=
    if s.mode = 1 then true
    else if s.mode = 2 then false
    else if m.low then near || decide (m.idx < start + 32)
    else near
  let v := if low then s.lo else s.hi
  let clip := if low then s.loClip else s.hiClip
  ({ low := low
     start := if low && !m.low then m.idx else start
     hist := (s.endg :: m.hist).take 8
     mode := s.mode
     idx := m.idx + 1
     seams := m.seams + b2n (low != m.low)
     clips := m.clips + b2n clip },
   { v := v, low := low, clip := clip, prov := s.prov, pois := s.pois })

/-- The merge over the candidates that have 8 samples after them, or over all of them when nothing follows (`flush`; log entry
17): samples newest first, and candidates left. -/
def mergeGo (flush : Bool) : MergeSt → List Sample → List Cand → MergeSt × List Sample × List Cand
  | m, acc, [] => (m, acc, [])
  | m, acc, s :: rest =>
    if flush || 8 ≤ (rest.take 8).length then
      let r := m.step ((rest.take 8).any fun c => c.endg) s
      mergeGo flush r.1 (r.2 :: acc) rest
    else (m, acc, s :: rest)

/-- Ring frames kept: those of which a sample lies within the newest 16,384 (R222). The list is newest first. -/
def keepRing : Nat → List RingFrame → List RingFrame
  | _, [] => []
  | n, r :: t => if 16384 ≤ n then [] else r :: keepRing (n + r.smp.length) t

/-- The channel after the merge of candidates `new`, which belong to frame `fr` (none: the channel stops and only waiting samples
are merged). It answers the seams and clipped samples made. -/
def Chan.mergeIn (c : Chan) (fr : Option RingFrame) (new : List Cand) : Nat × Nat × Chan :=
  let m0 : MergeSt := { low := c.low, start := c.winStart, hist := c.hist, mode := c.prevMode, idx := c.merged, seams := 0, clips := 0 }
  let r := mergeGo fr.isNone m0 [] (c.tail ++ new)
  let out := r.2.1.reverse
  let old := match c.ring.reverse with
    | [] => []
    | x :: t => { x with smp := x.smp ++ out.take c.tail.length } :: t
  let ring := match fr with
    | some f => { f with smp := out.drop c.tail.length } :: old
    | none => old
  (r.1.seams, r.1.clips,
   { c with low := r.1.low, winStart := r.1.start, hist := r.1.hist, prevMode := r.1.mode, merged := r.1.idx, tail := r.2.2,
            ring := (keepRing 0 ring).reverse })

/-- Seams and clips counted (R121). -/
def Dev.countMerge (d : Dev) (n : Nat) (seams clips : Nat) : Dev :=
  (d.addWrap (Reg.CH_MERGE_STATS_SEAMS n) seams).addWrap (Reg.CH_MERGE_STATS_CLIPS n) clips

/-! ### Cross-gain tracker -/

/-- Sums over the pairs of a frame (R101), values in units of 2^-26 S16 LSB. -/
structure TrkSums where
  n : Nat
  h : Int
  l : Int
  hh : Int
  hl : Int
  deriving DecidableEq, Repr

/-- 1,638 S16 units in units of 2^-26. -/
def trkBand : Int := 1638 * 67108864

/-- The sums of a frame's code pairs. -/
def trkSums (k : Corr) (codes : List (Int × Int)) : TrkSums :=
  codes.foldl (fun a c =>
    let l := corrL k.gl k.ol c.1
    let h := corrH k.gh k.oh c.2
    if !atRail c.1 && !atRail c.2 && decide (l.natAbs < trkBand.natAbs) && decide (h.natAbs < trkBand.natAbs) then
      { n := a.n + 1, h := a.h + h, l := a.l + l, hh := a.hh + h * h, hl := a.hl + h * l }
    else a) { n := 0, h := 0, l := 0, hh := 0, hl := 0 }

/-- Causes of class 0x02 events, by the model's own numbers (log entry 4): 1 tracker alarm, 2 calibration failed, 3 swap
rejected. -/
def Dev.acqEvent (d : Dev) (cause : Nat) (n : Nat) : Dev := d.raiseOpen 2 cause [n]

/-- A register value outside its field is a value the manual does not state (log entry 18): a free value takes its place. -/
def Dev.fitOr (d : Dev) (ok : Bool) (v : Int) : Int × Dev :=
  if ok then (v, d) else let r := d.draw; ((r.1 : Int), r.2)

/-- The tracker's update of channel `n` from the sums of the frame that ends (R101, R102): new OH and GH, if any. -/
def Dev.trackUpdate (d : Dev) (n : Nat) (k : Corr) (s : TrkSums) : Option (Int × Nat) × Dev :=
  let d := d.set (Reg.CH_STATUS_TRK_PAIRS n) (min s.n 65535)
  if d.flag (Reg.CH_CTRL_TRK_EN n) = false ∨ s.n < max 1 (d.get Reg.CH_TRK_CFG_MIN_PAIRS) then (none, d)
  else
    let nn : Int := s.n
    let den := nn * s.hh - s.h * s.h
    let num := nn * s.hl - s.h * s.l - den
    let gain := decide (10000 * nn * nn * 4503599627370496 ≤ den)
    let eo := s.l - s.h
    let sh : Int := 2 ^ d.get Reg.CH_TRK_CFG_SHIFT
    if (64 * 67108864 * nn).natAbs < eo.natAbs ∨ (gain = true ∧ den.natAbs < (64 * num).natAbs) then
      (none, (d.setB (Reg.CH_STATUS_TRK_ALARM n) true).acqEvent 1 n)
    else
      let oh := k.oh - roundAway (16 * eo) (nn * 67108864 * sh)
      let gh := if gain then k.gh + roundAway (k.gh * num) (den * sh) else (k.gh : Int)
      let r1 := d.fitOr (satSigned 20 oh == oh) oh
      let r2 := r1.2.fitOr (decide (0 ≤ gh) && decide (gh < 16777216)) gh
      (some (r1.1, ofSigned 24 r2.1), r2.2)

/-- Whether one of two registers is written at this boundary. -/
def wrote (ws : List Nat) (a b : Nat) : Bool := ws.contains a || ws.contains b

/-- A sub-converter on nominal factors. -/
def nominalSub : SubCal := { gain := 4194304, ofs := 0, skewFs := 0, capPpm := 0 }

/-- The nine sub-converters of a converter, nominal before a calibration has handed any over (R104). -/
def nineSubs (l : List SubCal) : List SubCal := if l.length = 9 then l else List.replicate 9 nominalSub

/-- A swap takes place at the boundary that opens frame `fn` (R108): the sub-converter returns, the next one leaves service, and its slot
begins. -/
def Chan.swapIn (c : Chan) (high : Bool) (fn : Nat) : Chan :=
  let b := if high then c.bgH else c.bgL
  match b.swap with
  | none => c
  | some f =>
    let next : Bg := { out := (b.out + 1) % 9, slotFn := fn, swap := none }
    if high then { c with bgH := next, subH := (nineSubs c.subH).set b.out f }
    else { c with bgL := next, subL := (nineSubs c.subL).set b.out f }

/-- The tracker and background updates due at this boundary (R101, R102, R108), discarded for registers software writes at the
same boundary (`ws`: addresses written). -/
def Dev.applyFactors (d : Dev) (ws : List Nat) (n : Nat) : Dev :=
  let c := d.chan n
  let d := match c.pendTrk with
    | some p =>
      if wrote ws (Reg.CH_HG_OFS_OH n).addr (Reg.CH_HG_GAIN_GH n).addr then d
      else (d.setBothI (Reg.CH_HG_OFS_OH n) p.1).setBoth (Reg.CH_HG_GAIN_GH n) p.2
    | none => d
  let d := match c.pendBg with
    | some p =>
      if wrote ws (Reg.CH_LG_OFS_OL n).addr (Reg.CH_LG_GAIN_GL n).addr then d
      else (d.setBothI (Reg.CH_LG_OFS_OL n) p.2).setBoth (Reg.CH_LG_GAIN_GL n) p.1
    | none => d
  if c.pendTrk.isNone && c.pendBg.isNone && c.bgL.swap.isNone && c.bgH.swap.isNone then d
  else
    let fn := d.fn + 1
    d.updChan n fun c => { (c.swapIn false fn).swapIn true fn with pendTrk := none, pendBg := none }

/-! ### The close of a frame -/

/-- Whether the samples of the present frame are provisional (R106, R528). -/
def Dev.provisional (d : Dev) (n : Nat) : Bool :=
  let c := d.chan n
  c.nominal || c.calFailed || decide (d.fn < c.provUntil) || !d.pins.refPresent || d.pins.refRelock

/-- Codes of a channel in the frame: those the input gives, code 0 where it gives none (log entry 16). -/
def codesOf (inp : FrameInput) (n len : Nat) : List (Int × Int) :=
  let l := match inp.codes.find? fun c => c.n == n with
    | some c => c.codes
    | none => []
  l.take len ++ List.replicate (len - l.length) (0, 0)

/-- The frame of channel `n` closes (R95 to R101): correction, tracker, merge. The update computed a frame before takes effect
at this boundary, the one computed now at the next. -/
def Dev.closeChan (d : Dev) (inp : FrameInput) (ws : List Nat) (n : Nat) : Dev :=
  let c := d.chan n
  if !c.acquiring then d.applyFactors ws n
  else
    let clk := d.tm.clk
    let codes := codesOf inp n (10 * clk.cyc)
    let k := d.corr n
    let prov := d.provisional n
    let mode := mergeMode (d.eff (Reg.CH_CTRL_MERGE_MODE n))
    let cands := codes.zipIdx.map fun p => k.cand mode prov (c.pois.contains (p.2 / 5)) p.1
    let fr : RingFrame := { fn := d.fn, first := d.acq.base, exc := clk.exc, cyc := clk.cyc, u := clk.u, smp := [] }
    let r := c.mergeIn (some fr) cands
    let d := (d.setChan n { r.2.2 with pois := [] }).countMerge n r.1 r.2.1
    let d := d.setB (Reg.CH_STATUS_PROVISIONAL n) prov
    let t := if inp.noMajority.contains 0 then (none, d) else d.trackUpdate n k (trkSums k codes)
    (t.2.applyFactors ws n).updChan n fun c => { c with pendTrk := t.1 }

/-- Every channel's frame closes. -/
def Dev.closeFrames (d : Dev) (inp : FrameInput) (ws : List Nat) : Dev :=
  (List.range 48).foldl (fun d n => d.closeChan inp ws n) d

/-! ### Starting and stopping -/

/-- A channel starts or restarts (R97): high gain unless MERGE_MODE holds it low, nothing behind it; the slots of its background rotation
begin again. -/
def Dev.startChan (d : Dev) (n : Nat) : Dev :=
  let mode := mergeMode (d.eff (Reg.CH_CTRL_MERGE_MODE n))
  let base := d.acq.base
  let fn := d.fn
  let d := d.updChan n fun c =>
    { c with acquiring := true, since := base, merged := base, winStart := base, hist := [], tail := [], low := mode == 1,
             prevMode := mode, pois := [], anchors := [], bgL := { c.bgL with slotFn := fn, swap := none },
             bgH := { c.bgH with slotFn := fn, swap := none } }
  (d.setB (Reg.CH_TRG_STATUS_FILLED n) false).updFrame d.fn fun s =>
    { s with acq := n :: s.acq, accept := n :: s.accept.filter (· != n), calib := s.calib.filter (· != n) }

/-- A channel stops acquiring with the frame before (R185, R481): the samples that wait are merged. -/
def Dev.stopChan (d : Dev) (n : Nat) : Dev :=
  let c := d.chan n
  if !c.acquiring then d
  else
    let r := c.mergeIn none []
    ((d.setChan n { r.2.2 with acquiring := false }).countMerge n r.1 r.2.1).updFrame d.fn fun s =>
      { s with acq := s.acq.filter (· != n), accept := s.accept.filter (· != n) }

/-- A capture of a channel that has stopped for a calibration ends with the last sample before it, TRUNCATED (R185). -/
def Chan.cutCap (c : Chan) (k : Cap) : Cap :=
  if !c.acquiring && k.stage == 0 && decide (c.merged ≤ k.last) then { k with last := c.merged - 1, cut := true } else k

/-- The captures of a channel that stops for a calibration end with its last sample (R185). -/
def Dev.cutCaps (d : Dev) (n : Nat) : Dev := d.updChan n fun c => { c with caps := c.caps.map c.cutCap }

/-! ### Sampling-clock alignment -/

/-- TRIM_n (R135), truncated to 2^-12 ns (log entry 19) and held in its range, with ALIGN_RANGE where it was clamped. Before foreground
calibration has measured D_S there is no TRIM to form, and the register keeps its value (log entry 19). -/
def Dev.align (d : Dev) (n : Nat) : Dev :=
  match (d.chan n).dS with
  | none => d
  | some ds =>
    let t : Int := d.get (Reg.CH_ALIGN_PKG n) + ds + d.eff (Reg.CH_BOARD_DELAY_BOARD n) - 16384
    let q := floorDiv t 16
    let d := d.set (Reg.CH_ALIGN_TRIM n) (clampI 0 16383 q).toNat
    if q < 0 ∨ 16383 < q then d.setB (Reg.CH_TDC_STATUS_ALIGN_RANGE n) true else d

/-! ### Foreground calibration -/

/-- Frames of a foreground calibration (R103): 160 ms. -/
def fgFrames : Nat := 160000

/-- A channel's foreground calibration begins: it delivers no samples (R103), and a capture still open is cut (R185). -/
def Dev.calBegin (d : Dev) (n : Nat) : Dev :=
  let fn := d.fn
  ((((d.stopChan n).cutCaps n).setB (Reg.CH_STATUS_CAL_ACTIVE n) true).updChan n fun c => { c with calFn := some fn, fgDue := none })

/-- A channel's calibration is abandoned or over: CAL_ACTIVE clears. -/
def Dev.calClear (d : Dev) (n : Nat) : Dev :=
  (d.setB (Reg.CH_STATUS_CAL_ACTIVE n) false).updChan n fun c => { c with calFn := none }

/-- FG_WAIT of a channel first powered later (R122): the value in force at FG_DONE. -/
def Dev.laterWait (d : Dev) : Nat := d.acq.fgWait.getD (d.get Reg.CH_CAL_CTRL_FG_WAIT)

/-- FG_CAL_START (R104): bring-up calibration of every powered channel, or a channel's own. -/
def Dev.fgCalStart (d : Dev) (who : Option Nat) : Dev :=
  if !d.up || d.role != .frontEnd then d
  else match who with
    | none =>
      match d.acq.fgDue with
      | some r =>
        if d.fn < r + 1000 * d.get Reg.CH_CAL_CTRL_FG_WAIT then d
        else
          let ns := (List.range 48).filter fun n => d.chanIsOn n
          let fn := d.fn
          let d := ns.foldl Dev.calBegin d
          { d with acq := { d.acq with fgBoot := ns, fgDue := none, fgFn := some fn } }
      | none => d
    | some n =>
      match (d.chan n).fgDue with
      | some r =>
        if d.fn < r + 1000 * d.laterWait || !d.chanIsOn n || d.flag (Reg.CH_STATUS_CAL_ACTIVE n) then d else d.calBegin n
      | none => d

def execFgCalStart (who : Option Nat) (s : State) : Res :=
  match who with
  | some n => onUnit 48 n (fun d => d.fgCalStart who) s
  | none => onDev (fun d => d.fgCalStart who) s

/-- A gain within ±10 % of nominal, and an offset within ±40 mV, which is 26,214 units of 1/16 S16 LSB (R105). -/
def gainOk (g : Nat) : Bool := decide (9 * 4194304 ≤ 10 * g) && decide (10 * g ≤ 11 * 4194304)
def ofsOk (o : Int) : Bool := decide (o.natAbs ≤ 26214)

/-- A sub-converter's factors lie in their bands (R105): gain, offset, skew within ±10 ps, capacitor weights within 2 %. -/
def SubCal.ok (x : SubCal) : Bool := gainOk x.gain && ofsOk x.ofs && decide (x.skewFs.natAbs ≤ 10000) && decide (x.capPpm ≤ 20000)

/-- The accepted bands of R105 for what every step of R103 returns. -/
def calOk (r : CalResult) : Bool :=
  gainOk r.gl && gainOk r.gh && ofsOk r.ol && ofsOk r.oh && ofsOk r.disc && (r.low ++ r.high).all SubCal.ok

/-- A channel's calibration ends (R103, R105): new factors, or the old ones with CAL_FAIL; the channel restarts. -/
def Dev.calEnd (d : Dev) (r : CalResult) : Dev :=
  let n := r.n
  let d := d.calClear n
  let d :=
    if calOk r then
      let d := (((d.setBoth (Reg.CH_LG_GAIN_GL n) r.gl).setBothI (Reg.CH_LG_OFS_OL n) r.ol).setBoth (Reg.CH_HG_GAIN_GH n)
        r.gh).setBothI (Reg.CH_HG_OFS_OH n) r.oh
      (d.updChan n fun c => { c with nominal := false, calFailed := false, dS := some r.ds, subL := r.low, subH := r.high,
                                     discOfs := r.disc, pendTrk := none, pendBg := none }).align n
    else
      let d := (d.setB (Reg.CH_STATUS_CAL_FAIL n) true).updChan n fun c => { c with calFailed := true }
      (d.set Reg.CH_CAL_STATUS_FAIL_QUADS (setBit (d.get Reg.CH_CAL_STATUS_FAIL_QUADS) (n / 4))).acqEvent 2 n
  if d.chanIsOn n then d.startChan n else d

/-- FG_DONE once every channel of the bring-up calibration has ended (R104), with the FG_WAIT then in force (R122). -/
def Dev.fgDone (d : Dev) : Dev :=
  if d.acq.fgFn.isSome && !d.flag Reg.CH_CAL_STATUS_FG_DONE
      && d.acq.fgBoot.all (fun n => !d.flag (Reg.CH_STATUS_CAL_ACTIVE n)) then
    let w := d.get Reg.CH_CAL_CTRL_FG_WAIT
    ({ d with acq := { d.acq with fgWait := some w } }).setB Reg.CH_CAL_STATUS_FG_DONE true
  else d

/-- FG_CAL_DONE (R103): the channels whose 160 ms have passed end with the results measured. -/
def Dev.fgCalDone (d : Dev) (rs : List CalResult) : Dev :=
  if !d.up then d
  else
    let due (d : Dev) (n : Nat) : Bool := match (d.chan n).calFn with
      | some f => decide (n < 48) && decide (f + fgFrames ≤ d.fn)
      | none => false
    (rs.foldl (fun d r => if due d r.n then d.calEnd r else d) d).fgDone

def execFgCalDone (rs : List CalResult) (s : State) : Res := onDev (fun d => d.fgCalDone rs) s

/-! ### Recalibration while running -/

/-- Whether a rotation runs or is requested (R107). -/
def Dev.rotBusy (d : Dev) : Bool := d.flag Reg.CH_CAL_STATUS_ROT_ACTIVE || d.acq.rotReq.isSome

/-- A START (R107): refused while a rotation is active or throttle actions are in force (R495), else queued to the next boundary. -/
def Dev.recalStart (d : Dev) (quads : Nat) (force : Bool) : Dev :=
  if d.rotBusy || d.pw.throttle then d.setB Reg.CH_CAL_STATUS_CAL_REFUSED true
  else { d with acq := { d.acq with rotReq := some (quads, force) } }

/-- An ABORT (R107): the rotation ends with the quad in progress. -/
def Dev.recalAbort (d : Dev) : Dev := { d with acq := { d.acq with rot := [], rotReq := none } }

/-- A write of CH_CAL_CTRL (R122) in the front-end role: after FG_DONE it leaves FG_WAIT as it is. -/
def Dev.writeCalCtrl (d : Dev) (w : Nat) : Dev :=
  let wait := d.get Reg.CH_CAL_CTRL_FG_WAIT
  let d := d.writeFields (fieldsAt 0x2C00) w
  let d := if d.flag Reg.CH_CAL_STATUS_FG_DONE then d.set Reg.CH_CAL_CTRL_FG_WAIT wait else d
  let d := if bitOf w 12 then d.recalStart (d.get Reg.CH_CAL_CTRL_QUAD_MASK) (d.flag Reg.CH_CAL_CTRL_FORCE) else d
  if bitOf w 14 then d.recalAbort else d

/-- RECAL_START: CH_CAL_CTRL written with the mask, FORCE and START. -/
def execRecalStart (src : Source) (quads : Nat) (force : Bool) (s : State) : Res :=
  onDev (fun d => d.gated src 0x2C00 fun d =>
    whenD (d.role == .frontEnd)
      (fun d => (((d.set Reg.CH_CAL_CTRL_QUAD_MASK quads).setB Reg.CH_CAL_CTRL_FORCE force).recalStart (quads % 4096) force)) d) s

def execRecalAbort (src : Source) (s : State) : Res :=
  onDev (fun d => d.gated src 0x2C00 fun d => whenD (d.role == .frontEnd) Dev.recalAbort d) s

/-- The slot, if any, that streams channel `n` (R181). -/
def Dev.slotOf (d : Dev) (n : Nat) : Option Nat :=
  (List.range 4).find? fun k => d.flag (Reg.TRG_STREAM_STATUS_ACTIVE k) && d.eff (Reg.TRG_STREAM_CFG_CHAN k) == n

/-- The quad begins (R107, R185): its enabled channels calibrate together; stream channels are skipped without FORCE. -/
def Dev.quadBegin (d : Dev) (q : Nat) : Dev :=
  let fn := d.fn
  let d := (rangeFrom (4 * q) (4 * q + 4)).foldl (fun d n =>
    if !d.chanIsOn n then d
    else match d.slotOf n, d.acq.rotForce with
      | some k, false => d.setB (Reg.TRG_STREAM_STATUS_CAL_SKIPPED k) true
      | _, _ => (d.calBegin n).updFrame fn fun s => { s with calib := n :: s.calib }) d
  ({ d with acq := { d.acq with rotFn := fn } }).set Reg.CH_CAL_STATUS_CUR_QUAD q

/-- Whether a channel of quad `q` is under calibration. -/
def Dev.quadCal (d : Dev) (q : Nat) : Bool :=
  (rangeFrom (4 * q) (4 * q + 4)).any fun n => d.flag (Reg.CH_STATUS_CAL_ACTIVE n)

/-- The next quad that has a channel to calibrate; quads without one take no time (log entry 20). -/
def rotGo : List Nat → Dev → Dev
  | [], d =>
    ({ d with acq := { d.acq with rot := [] } }.setB Reg.CH_CAL_STATUS_ROT_ACTIVE false).set Reg.CH_CAL_STATUS_CUR_QUAD 15
  | q :: t, d =>
    let d := ({ d with acq := { d.acq with rot := t } }).quadBegin q
    if d.quadCal q then d else rotGo t d

/-- The rotation at a boundary (R107): a request begins, and the next quad follows the one that has ended. -/
def Dev.rotBoundary (d : Dev) : Dev :=
  match d.acq.rotReq with
  | some r =>
    let d := { d with acq := { d.acq with rotReq := none, rotForce := r.2 } }
    rotGo (setBits r.1 12) (d.setB Reg.CH_CAL_STATUS_ROT_ACTIVE true)
  | none =>
    if d.flag Reg.CH_CAL_STATUS_ROT_ACTIVE && !d.quadCal (d.get Reg.CH_CAL_STATUS_CUR_QUAD) then rotGo d.acq.rot d else d

/-- BG_ACTIVE (R108, R495): background rotation runs after foreground calibration while BG_EN is 1 and no throttle action pauses it. The slots
begin where it does. -/
def Dev.bgBoundary (d : Dev) : Dev :=
  let on := d.flag Reg.CH_CAL_STATUS_FG_DONE && d.flag Reg.CH_BG_CFG_BG_EN && !d.pw.throttle
  let fn := d.fn
  let start (c : Chan) : Chan := { c with bgL := { c.bgL with slotFn := fn }, bgH := { c.bgH with slotFn := fn } }
  let d := if on && !d.flag Reg.CH_CAL_STATUS_BG_ACTIVE then
      ((List.range 48).filter fun n => (d.chan n).acquiring).foldl (fun d n => d.updChan n start) d
    else d
  d.setB Reg.CH_CAL_STATUS_BG_ACTIVE on

/-- Frames of a slot (R125): SLOT_MS, where 0 acts as 1. -/
def Dev.slotFrames (d : Dev) : Nat := 1000 * max 1 (d.get Reg.CH_BG_CFG_SLOT_MS)

/-- BG_CAL_SWAP (R108): the slot of the high-gain (`high`) or low-gain converter of channel `n` ends with the present frame, over which the
returning sub-converter ran in shadow. It agreed within ±4 codes, and with the next boundary it returns, with GL and OL where the converter is
the low-gain one; or it is rejected and has the next slot too. -/
def Dev.bgCalSwap (d : Dev) (n : Nat) (high : Bool) (diff : Int) (gl : Nat) (ol : Int) (sub : SubCal) : Dev :=
  let b := if high then (d.chan n).bgH else (d.chan n).bgL
  let put (b : Bg) (c : Chan) : Chan := if high then { c with bgH := b } else { c with bgL := b }
  if d.up && d.flag Reg.CH_CAL_STATUS_FG_DONE && d.flag Reg.CH_BG_CFG_BG_EN && !d.pw.throttle && (d.chan n).acquiring
      && decide (b.slotFn + d.slotFrames ≤ d.fn + 1) && b.swap.isNone then
    if diff.natAbs ≤ 4 then
      d.updChan n fun c =>
        let c := put { b with swap := some sub } c
        if high then c else { c with pendBg := some (gl % 16777216, satSigned 20 ol) }
    else
      let fn := d.fn + 1
      ((d.updChan n (put { b with slotFn := fn })).setB (Reg.CH_STATUS_BG_REJECT n) true).acqEvent 3 n
  else d

def execBgCalSwap (n : Nat) (high : Bool) (diff : Int) (gl : Nat) (ol : Int) (sub : SubCal) (s : State) : Res :=
  onUnit 48 n (fun d => d.bgCalSwap n high diff gl ol sub) s

/-- A write of CH_CTRL, CH_OFFSET_DAC or a board delay as it takes effect (R92, R93, R135): provisional frames, new alignment. -/
def Dev.analogEffect (d : Dev) (n : Nat) (coupling dac board : Bool) : Dev :=
  let fn := d.fn
  let d := if coupling then d.updChan n fun c => { c with provUntil := max c.provUntil (fn + 32) } else d
  let d := if dac then d.updChan n fun c => { c with provUntil := max c.provUntil (fn + 1) } else d
  if board then d.align n else d

end Sys2Proof.Machine
end

