-- ==== Sys2Proof/Machine/Fifo.lean ====
section
/-! DEFINITION. Records in general and the record FIFO of a front-end or cell device (06_records_and_record_memory.md): header
words, loss records (R218 to R221), room and reserve (R225), flush (R227). -/
namespace Sys2Proof.Machine

/-! ### Header words -/

/-- W0 of a record (R205). -/
def recW0 (typ enc chan dev : Nat) : Nat := pack [(0, 4, typ), (4, 2, enc), (8, 6, chan), (16, 16, dev)]

/-- W1 of a record (R205). -/
def recW1 (len seq : Nat) : Nat := pack [(0, 16, len), (16, 16, seq)]

def recTyp (w : List Nat) : Nat := bits (nth w 0) 0 4
def recEnc (w : List Nat) : Nat := bits (nth w 0) 4 2
def recChan (w : List Nat) : Nat := bits (nth w 0) 8 6
def recDev (w : List Nat) : Nat := bits (nth w 0) 16 16
def recLen (w : List Nat) : Nat := bits (nth w 1) 0 16
def recSeq (w : List Nat) : Nat := bits (nth w 1) 16 16
def recFi (w : List Nat) : Nat := nth w 2

/-- Words of a hit or stream record before its payload: fixed, extension or mark, and seam words (R210, R214). -/
def recFixed (w : List Nat) : Nat :=
  if recTyp w = 1 then 9 + (bits (nth w 3) 24 4 + 1) / 2 + (bits (nth w 5) 20 6 + 1) / 2
  else 6 + (bits (nth w 3) 22 5 + 1) / 2 + (bits (nth w 5) 20 6 + 1) / 2

/-- Payload of a hit or stream record. -/
def recPayload (w : List Nat) : List Nat := (w.drop (recFixed w)).take (w.length - recFixed w - 1)

/-- Channel and SEQ of the reference a compressed hit record depends on (R247, R257). -/
def recRef (w : List Nat) : Option (Nat × Nat) := if recTyp w = 1 ∧ recEnc w = 2 then preambleRef (recPayload w) else none

/-- Whether record `x` depends on record `r` (R257). -/
def dependsOn (x r : List Nat) : Bool :=
  recRef x == some (recChan r, recSeq r) && recTyp r == 1 && recDev x == recDev r && recFi x == recFi r

/-- Device number as in force for a frame (R38). -/
def Dev.devnumAt (d : Dev) (fn : Nat) : Nat :=
  match d.frameOf fn with
  | some s => s.val Reg.GLB_DEVICE_NUMBER_DEVNUM
  | none => d.devnum

/-- Whether the device records frame `fn`: from the data-start frame on (R520). -/
def Dev.recording (d : Dev) (fn : Nat) : Bool :=
  match d.rcd.startFn with
  | some s => decide (s ≤ fn)
  | none => false

/-! ### Loss records -/

/-- The six words of a loss record (R218). -/
def lossWords (l : Loss) : List Nat :=
  [recW0 4 0 l.chan l.dev, recW1 6 l.seq, l.fn % 2 ^ 32,
    pack [(0, 16, l.writer), (16, 6, l.port), (22, 4, l.reason), (26, 1, b2n l.known), (27, 1, b2n l.last.isSome),
      (28, 1, b2n l.stream), (29, 1, b2n l.maybe), (30, 1, b2n l.seqValid)],
    pack [(0, 16, l.count), (16, 16, if l.seqValid then l.firstSeq else 0)],
    match l.last with
    | some p => pack [(0, 12, p.1), (12, 6, p.2.1), (18, 1, b2n p.2.2)]
    | none => 0]

/-- A loss of the device's own channel (R221, front-end rows): `k` records from SEQ `seq` on. -/
def Dev.ownLoss (d : Dev) (chan fn reason seq k : Nat) (stream : Bool) : Loss :=
  { dev := d.devnumAt fn, chan := chan, fn := fn, writer := d.devnumAt fn, port := 63, reason := reason, known := true, last := none,
    stream := stream, maybe := false, seqValid := true, count := k, firstSeq := seq, seq := 0 }

/-- The loss record of a trigger refused because of a written-off capture (R409, R220): it names no lost record. -/
def Dev.refusedLoss (d : Dev) (chan fn : Nat) : Loss :=
  { d.ownLoss chan fn 8 0 0 false with known := false, seqValid := false }

/-- Same key under R220. -/
def Loss.sameKey (a b : Loss) : Bool :=
  a.fn == b.fn && a.dev == b.dev && a.chan == b.chan && a.stream == b.stream && a.reason == b.reason && a.port == b.port

/-- Whether SEQ `a` comes after SEQ `b` (R208). -/
def seqAfter (a b : Nat) : Bool :=
  let k := (a + 65536 - b % 65536) % 65536
  decide (0 < k) && decide (k < 32768)

/-- A further loss `b` added to an unsent loss record `a` of its key (R220). -/
def Loss.join (a b : Loss) : Loss :=
  if b.count = 0 then { a with known := false }
  else if a.count = 0 ∧ a.known = false then
    { a with count := b.count, seqValid := b.seqValid, firstSeq := b.firstSeq }
  else { a with count := min 65535 (a.count + b.count), known := a.known && b.known,
                firstSeq := if a.seqValid && b.seqValid && seqAfter a.firstSeq b.firstSeq then b.firstSeq else a.firstSeq }

/-! ### Room -/

/-- Words of the FIFO's ring: 256 pages of 1,024 (R222). -/
def fifoWords : Nat := 262144

/-- Words from the oldest record kept to the write position; a full ring comes back to its start. -/
def Dev.fifoSpan (d : Dev) : Nat :=
  match d.rcd.fifo with
  | [] => 0
  | r :: _ => let n := (d.rcd.fifoWr + fifoWords - r.addr) % fifoWords
              if n = 0 then fifoWords else n

/-- Words an open record has stored (R224): none before it enters an engine, W0 to the seam words while the engine holds it, all of them once
its payload stands. -/
def Asm.stored (a : Asm) : Nat :=
  if a.engine.isSome then 3 + a.head.length else if a.enc = 0 then 0 else 3 + a.head.length + a.out.length + 1

/-- Words of open records (R224). -/
def Dev.openWords (d : Dev) : Nat := ((d.rcd.asm ++ d.rcd.ready).map Asm.stored).sum

/-- Pages in use, by closed and open records, with `k` words more. -/
def Dev.fifoPages (d : Dev) (k : Nat) : Nat :=
  let n := d.fifoSpan + d.openWords + k
  let start := match d.rcd.fifo with
    | [] => d.rcd.fifoWr
    | r :: _ => r.addr
  if n = 0 then 0 else (start % 1024 + n + 1023) / 1024

/-- RESERVE_PAGES as it acts (R234). -/
def Dev.reservePages (d : Dev) : Nat := clampN 32 128 (d.eff Reg.REC_FIFO_CTRL_RESERVE_PAGES)

/-- REC_FIFO_LEVEL after a change (R235). -/
def Dev.fifoLevel (d : Dev) : Dev :=
  let p := d.fifoPages 0
  (d.set Reg.REC_FIFO_LEVEL_PAGES_USED p).set Reg.REC_FIFO_LEVEL_HIGH_WATER (max p (d.get Reg.REC_FIFO_LEVEL_HIGH_WATER))

/-- The open records changed. -/
def Dev.setOpen (d : Dev) (asm ready : List Asm) : Dev := ({ d with rcd := { d.rcd with asm := asm, ready := ready } }).fifoLevel

/-- The FIFO's list changed. -/
def Dev.setFifo (d : Dev) (l : List FRec) : Dev := ({ d with rcd := { d.rcd with fifo := l } }).fifoLevel

/-- A record entered with its index entry (R224). -/
def Dev.fifoPush (d : Dev) (ws : List Nat) (fn : Nat) (loss : Option Loss) (own : Bool) : Dev :=
  let r : FRec := { id := d.rcd.nextId, words := wordsOf ws, typ := recTyp ws, chan := recChan ws, dev := recDev ws, fn := fn,
                    addr := d.rcd.fifoWr, begun := [], left := [], spilled := false, bad := false, loss := loss, own := own }
  let rcd := { d.rcd with fifo := d.rcd.fifo ++ [r], nextId := d.rcd.nextId + 1, fifoWr := (d.rcd.fifoWr + ws.length) % fifoWords }
  ({ d with rcd := rcd }).fifoLevel

/-- Whether FIFO record `r` covers word `a` of the FIFO's ring. -/
def FRec.covers (r : FRec) (a : Nat) : Bool := decide ((a + fifoWords - r.addr) % fifoWords < r.words.length)

/-! ### Losing records -/

/-- Whether a FIFO record is the device's own summary of frame `fn`. -/
def FRec.isSummary (r : FRec) (fn : Nat) : Bool := r.own && r.fn == fn && (r.typ == 3 || r.typ == 5)

/-- The summary of a frame dropped (R225): it is not written any more, and counts once. -/
def Dev.dropSummary (d : Dev) (fn : Nat) : Dev :=
  let d := { d with rcd := { d.rcd with sumWait := d.rcd.sumWait.filter (· != fn) } }
  (d.updFrame fn fun s => { s with gone := true }).addWrap Reg.REC_FIFO_STATS_DROPPED 1

/-- The summary of a frame withheld (R225): not written, or withdrawn from the FIFO before it has begun. One that has begun or is withheld
already stays as it is. -/
def Dev.withhold (d : Dev) (fn : Nat) : Dev :=
  match d.frameOf fn with
  | none => d
  | some s =>
    if s.gone then d
    else if !s.summed then d.dropSummary fn
    else if d.rcd.fifo.any fun r => r.isSummary fn && r.begun.isEmpty then
      (d.setFifo (d.rcd.fifo.filter fun r => !(r.isSummary fn && r.begun.isEmpty))).dropSummary fn
    else d

/-- Whether a summary or a forwarded accounting record waits for room in the reserve, ahead of any later one (R225). -/
def Dev.reserveTaken (d : Dev) : Bool := !d.rcd.sumWait.isEmpty || !d.rcd.accWait.isEmpty

/-- An unsent loss record in the FIFO changed, words and fields. -/
def FRec.withLoss (r : FRec) (l : Loss) : FRec :=
  { r with loss := some l, words := wordsOf (lossWords l), chan := l.chan }

/-- The first unsent loss record that meets `p`. -/
def unsentLoss (p : Loss → Bool) (l : List FRec) : Option FRec :=
  l.find? fun r => r.begun.isEmpty && r.left.isEmpty && (match r.loss with | some x => p x | none => false)

/-- A loss (R220, R225): into an unsent record of its key, into a new one, into the newest unsent one of its frame and device, or
the frame's summary is withheld. -/
def Dev.lose (d : Dev) (l : Loss) : Dev :=
  if !d.recording l.fn then d
  else match unsentLoss (fun x => x.sameKey l) d.rcd.fifo with
    | some r =>
      d.setFifo (d.rcd.fifo.map fun q => if q.id = r.id then (match q.loss with | some x => q.withLoss (x.join l) | none => q) else q)
    | none =>
      if !d.reserveTaken && decide (d.fifoPages 6 ≤ d.rcd.pool) then
        let n := d.nextSeq 201
        let l := { l with seq := n.1 % 65536 }
        let d := (n.2.fifoPush (lossWords l) l.fn (some l) true).addWrap Reg.GLB_LADDER_LOSS_LOSS_RECORDS 1
        d.updFrame l.fn fun s => { s with nLoss := s.nLoss + 1 }
      else match unsentLoss (fun x => x.fn == l.fn && x.dev == l.dev) d.rcd.fifo.reverse with
        | some r =>
          let wide (x : Loss) : Loss :=
            { x with count := min 65535 (x.count + l.count), known := x.known && l.known, chan := 63, seqValid := false, stream := false }
          d.setFifo (d.rcd.fifo.map fun q => if q.id = r.id then (match q.loss with | some x => q.withLoss (wide x) | none => q) else q)
        | none => d.withhold l.fn

/-- The first loss of channel `chan` in frame `fn`, by kind: reason and SEQ (R220). -/
def Dev.lostKey (d : Dev) (chan fn : Nat) (stream : Bool) : Option (Nat × Nat) :=
  (d.rcd.lostKeys.find? fun k => k.1 == chan && k.2.1 == fn && k.2.2.1 == stream).map (·.2.2.2)

/-- The reason under which a record of SEQ `seq` is dropped, because an earlier one of its channel, frame and kind is lost (R220). -/
def Dev.lostReason (d : Dev) (chan fn seq : Nat) (stream : Bool) : Option Nat :=
  match d.lostKey chan fn stream with
  | some k => if seqAfter seq k.2 then some k.1 else none
  | none => none

/-- A front-end's loss of one hit or stream record (R220): later records of the channel and frame are dropped with it. -/
def Dev.loseOwn (d : Dev) (chan fn reason seq : Nat) (stream : Bool) : Dev :=
  let reason := (d.lostReason chan fn seq stream).getD reason
  let d := d.lose (d.ownLoss chan fn reason seq 1 stream)
  let first := match d.lostKey chan fn stream with
    | some k => seqAfter k.2 seq
    | none => true
  if first then
    let rest := d.rcd.lostKeys.filter fun k => !(k.1 == chan && k.2.1 == fn && k.2.2.1 == stream)
    { d with rcd := { d.rcd with lostKeys := (chan, fn, stream, reason, seq) :: rest } }
  else d

/-- The loss of a FIFO record for a reason (R221, R227): an own hit or stream record, or in a cell device a forwarded one, by the
originating device and without SEQ. -/
def Dev.loseFRec (d : Dev) (r : FRec) (reason : Nat) : Dev :=
  if r.own then d.loseOwn r.chan r.fn reason (recSeq (natsOf r.words)) (r.typ == 2)
  else
    d.lose { d.ownLoss 63 r.fn reason 0 1 (r.typ == 2) with dev := r.dev, seqValid := false }

/-- What takes the place of a discarded record, by class (R227). -/
def Dev.replaceFRec (d : Dev) (r : FRec) (reason : Nat) : Dev :=
  if r.typ = 1 ∨ r.typ = 2 then d.loseFRec r reason
  else if r.own = true ∧ r.loss.isSome = true then
    match r.loss with
    | some l => d.fifoPush (lossWords l) r.fn (some l) true
    | none => d
  else if r.own then d.fifoPush (natsOf r.words) r.fn none true
  else d.withhold r.fn

/-- A flush requested (R227); one in progress absorbs it, and a recovery action's reason 0x8 stands. -/
def Dev.requestFlush (d : Dev) (reason : Nat) : Dev :=
  let r := match d.rcd.flush with
    | some q => max q reason
    | none => reason
  ({ d with rcd := { d.rcd with flush := some r } }).setB Reg.REC_FIFO_CTRL_FLUSH_BUSY true

/-- Whether lane `x` is sending record `id`: a copy has started and will leave whole. -/
def Lane.sends (x : Lane) (id : Nat) : Bool := x.tx.any fun t => t.id == id && t.started && !t.cut

/-- Whether any lane is. -/
def Dev.isSending (d : Dev) (id : Nat) : Bool := d.lanes.any fun p => p.2.sends id

/-- A lane gives up its copy of record `id`: one not started goes, one that has started ends here (R223, R226, R353). -/
def Lane.cutItem (x : Lane) (id : Nat) : Lane :=
  { x with tx := x.tx.filterMap fun t =>
      if t.id ≠ id ∨ t.cut = true then some t else if t.started then some { t with words := [], cut := true } else none }

/-- A lane's copy of record `id`, whose word at place `bad` of record memory is bad: one not started goes, one that has not passed the word ends
before it, one that has goes on (R223). -/
def Lane.spoilItem (x : Lane) (id bad : Nat) : Lane :=
  { x with tx := x.tx.filterMap fun t =>
      if t.id ≠ id ∨ t.cut = true then some t
      else if !t.started then none
      else
        let k := (bad + fifoWords - t.addr) % fifoWords
        if k < t.words.length then some { t with words := t.words.take k, cut := true } else some t }

/-- Every lane's copies changed. -/
def Dev.mapLanes (d : Dev) (f : Lane → Lane) : Dev := { d with lanes := d.lanes.map fun p => (p.1, f p.2) }

/-- One record removed from the FIFO, its copies cut; a loss is written only when no copy has left whole (R223). -/
def Dev.dropRec (d : Dev) (r : FRec) (reason : Nat) : Dev :=
  let d := (d.setFifo (d.rcd.fifo.filter fun q => q.id != r.id)).mapLanes fun x => x.cutItem r.id
  if r.left.isEmpty then d.replaceFRec r reason else d

/-- Whether the loss of record `r` takes record `q`, not begun, with it: a later one of the same channel and frame (R220), or one that
depends on it (R257). -/
def FRec.goesWith (q r : FRec) : Bool :=
  q.own && (q.typ == 1 || q.typ == 2) && q.begun.isEmpty
    && ((q.typ == r.typ && q.chan == r.chan && q.fn == r.fn && seqAfter (recSeq (natsOf q.words)) (recSeq (natsOf r.words)))
      || dependsOn (natsOf q.words) (natsOf r.words))

/-- The records lost with those of `gone`; `n` bounds the rounds. -/
def lostWith (fifo : List FRec) : Nat → List FRec → List FRec
  | 0, gone => gone
  | n + 1, gone =>
    let more := fifo.filter fun q => !(gone.any fun r => r.id == q.id) && gone.any q.goesWith
    if more.isEmpty then gone else lostWith fifo n (gone ++ more)

/-- The records that go with record `r` when it is lost, itself first: those that depend on it (R257) and the later ones of its channel and
frame (R220). -/
def Dev.offWith (d : Dev) (r : FRec) : List FRec :=
  if r.left.isEmpty then
    lostWith d.rcd.fifo d.rcd.fifo.length (r :: d.rcd.fifo.filter fun q => dependsOn (natsOf q.words) (natsOf r.words))
  else [r]

/-- A record of the FIFO whose word at place `bad` is bad, written off with REASON 0x8 (R223). While a copy that has passed the word goes on, the
record stays for its sake, and nothing begins it again. -/
def Dev.writeOff (d : Dev) (r : FRec) (bad : Nat) : Dev :=
  if r.bad then d.mapLanes fun x => x.spoilItem r.id bad
  else
    let d := (d.addWrap Reg.REC_FIFO_FLUSHES_WRITTEN_OFF 1).mapLanes fun x => x.spoilItem r.id bad
    if d.isSending r.id then
      let mark (q : FRec) : FRec := { q with bad := true, begun := q.begun.filter fun l => q.left.contains l || (d.lane l).sends q.id }
      d.setFifo (d.rcd.fifo.map fun q => if q.id = r.id then mark q else q)
    else (d.offWith r).foldl (fun d q => d.dropRec q 8) d

/-- A flush (R227) once the reader is at a record boundary: what is being sent goes on; everything else is discarded and accounted for, loss
records first, so that a later loss of their key adds to the restated record. A record of which a copy has left whole needs no loss record. -/
def Dev.flushNow (d : Dev) (reason : Nat) : Dev :=
  let gone := d.rcd.fifo.filter fun r => !d.isSending r.id
  let d := (gone.foldl (fun d r => d.mapLanes fun x => x.cutItem r.id) d).setFifo (d.rcd.fifo.filter fun r => d.isSending r.id)
  let d := { d with rcd := { d.rcd with flush := none } }
  let d := ((d.setB Reg.REC_FIFO_CTRL_FLUSH_BUSY false).addWrap Reg.REC_FIFO_FLUSHES_FLUSHES 1).addWrap
    Reg.REC_FIFO_FLUSHES_WRITTEN_OFF gone.length
  ((gone.filter (·.loss.isSome) ++ gone.filter (·.loss.isNone)).filter (·.left.isEmpty)).foldl (fun d r => d.replaceFRec r reason) d

end Sys2Proof.Machine
end

