-- ==== Sys2Proof/Machine/Sensor.lean ====
section
/-! DEFINITION. Temperature sensors (R490 to R493): readings, neighbours, and the sensor that serves a quad. -/
namespace Sys2Proof.Machine

/-- N0 of sensor `s` (R515, R530). -/
def Dev.senN0 (d : Dev) (s : Nat) : Nat := d.hmWord (76 + s) % 65536

/-- SLOPE_MAG of sensor `s` (R515, R530). -/
def Dev.senSlope (d : Dev) (s : Nat) : Nat := d.hmWord (76 + s) / 65536

/-- A count as a temperature in units of 1/16 °C (R491). -/
def Dev.t16 (d : Dev) (s n : Nat) : Int := 400 + floorDiv ((d.senSlope s : Int) * ((d.senN0 s : Int) - (n : Int))) 65536

/-- The newest reading of sensor `s`. -/
def Dev.reading (d : Dev) (s : Nat) : Int := d.t16 s (nth d.pw.counts s)

/-- Whether a temperature lies in the band of R492. -/
def inBand (t : Int) : Bool := decide (-960 ≤ t) && decide (t ≤ 2400)

/-- Whether sensor `s` is marked bad. -/
def Dev.senBad (d : Dev) (s : Nat) : Bool := bitOf (d.get Reg.PWR_SENSOR_FLAGS_BAD) s

/-- The next sensor from `s` in ring direction `step` that is not marked bad and reads in band (R492). -/
def Dev.ringNext (d : Dev) (s step : Nat) : Option Nat :=
  ((rangeFrom 1 16).map fun i => (s + i * step) % 16).find? fun q => !d.senBad q && inBand (d.reading q)

/-- Whether a sensor's reading differs by more than 15 °C from a neighbour's. -/
def Dev.farFrom (d : Dev) (s : Nat) : Option Nat → Bool
  | some q => decide (240 < (d.reading s - d.reading q).natAbs)
  | none => false

/-- Whether the newest reading of sensor `s` is rejected (R492). -/
def Dev.rejects (d : Dev) (s : Nat) : Bool :=
  !inBand (d.reading s) || (d.farFrom s (d.ringNext s 15) && d.farFrom s (d.ringNext s 1))

/-- Whether the reading of sensor `s` of the latest gate was accepted. -/
def Dev.accepted (d : Dev) (s : Nat) : Bool :=
  !d.pw.counts.isEmpty && !d.senBad s && !bitOf (d.get Reg.PWR_SENSOR_FLAGS_REJECTED) s

/-- Ring distance of two sensors. -/
def ringDist (a b : Nat) : Nat := min ((a + 16 - b) % 16) ((b + 16 - a) % 16)

/-- The temperature of quad `q` (R490): its own sensor's, or that of the nearest accepted one, the lower-numbered on a tie. -/
def Dev.quadTemp (d : Dev) (q : Nat) : Option Int :=
  (minBy? (fun s => (ringDist q s : Int)) ((List.range 16).filter d.accepted)).map d.reading

end Sys2Proof.Machine
end

