-- ==== Sys2Proof/Machine/Tdc.lean ====
section
/-! DEFINITION. Vernier edge timing (04_vernier_edge_timing.md): conversions, oscillator locks, linearity tables,
cross-calibration, interval statistics, and lending to the time path. -/
namespace Sys2Proof.Machine

/-- Causes of class 0x03 events, by the model's own numbers (log entry 4): 1 lock lost, 2 relocked, 3 linearity failed, 4
cross-calibration alarm. -/
def Dev.tdcEvent (d : Dev) (cause n : Nat) : Dev := d.raiseOpen 3 cause [n]

/-- PKG + TDC_DELAY + BOARD of channel `n` (R128). -/
def Dev.pathDelay (d : Dev) (n : Nat) : Int :=
  d.get (Reg.CH_ALIGN_PKG n) + d.eff (Reg.CH_TDC_DELAY_DELAY n) + d.eff (Reg.CH_BOARD_DELAY_BOARD n)

/-- T_n[K] (R128, R133): nominal 128 K + 64 without a table. -/
def Chan.tOf (c : Chan) (code : Nat) : Nat :=
  match c.table with
  | some t => nth t code
  | none => 128 * code + 64

/-! ### Hits -/

/-- Whether both oscillators are locked (R131). -/
def Dev.tdcLocked (d : Dev) (n : Nat) : Bool :=
  d.flag (Reg.CH_TDC_STATUS_SLOW_LOCK n) && d.flag (Reg.CH_TDC_STATUS_FAST_LOCK n)

/-- Whether channel `n` lends its TDC in full mode (R144, R145). -/
def Dev.lentFull (d : Dev) (n : Nat) : Bool :=
  (List.range 2).any fun k =>
    d.flag (Reg.TIM_DOM_CFG_ENABLE k) && d.lender k == n
      && (d.role != .frontEnd || d.effB (if k = 0 then Reg.TDC_LEND_MODE_A else Reg.TDC_LEND_MODE_B))

/-- Hits that cannot be stamped for want of the TDC itself (R132, R134, R145). -/
def Dev.tdcUnavail (d : Dev) (n : Nat) : Bool :=
  !d.tdcLocked n || d.flag (Reg.CH_TDC_STATUS_LIN_ACTIVE n) || (d.chan n).linDue || d.lentFull n

/-- The reference cycle of one frame, as its two edges, that contains instant `t` at or after the frame's first edge (R46, R58). -/
def cycleIn (fn exc cyc : Nat) (u t : Int) : Int × Int :=
  let e (c : Nat) : Int := frameUnits * fn + edgeOfs exc cyc u c
  let c0 := (floorDiv (t - e 0) cycleUnits).toNat
  let c := if t < e c0 then c0 - 1 else if e (c0 + 1) ≤ t then c0 + 1 else c0
  (e c, e (c + 1))

/-- The reference cycle, as its two edges, that contains instant `t`: of the present frame, of the kept frame that contains it, or, before
every frame kept, on a grid of 4 ns (log entry 21). -/
def Dev.cycleOf (d : Dev) (t : Int) : Int × Int :=
  let e0 := d.edge 0
  if e0 ≤ t then cycleIn d.fn d.tm.clk.exc d.tm.clk.cyc d.tm.clk.u t
  else match (d.acq.fstats.filter fun s => decide (s.fn < d.fn) && decide (frameUnits * s.fn + s.exc ≤ t)).getLast? with
    | some s => cycleIn s.fn s.exc s.cyc s.u t
    | none =>
      let k := floorDiv (t - e0) cycleUnits
      (e0 + k * cycleUnits, e0 + (k + 1) * cycleUnits)

/-- Whether the discriminator of channel `n` fires in a direction (R111, R115): EDGE 1 rising, 2 falling, 3 both. -/
def Dev.discOn (d : Dev) (n : Nat) (rising : Bool) : Bool :=
  bitOf (d.eff (Reg.CH_DISC_EDGE n)) (if rising then 0 else 1)

/-- The arming of both directions after the input has gone down to `lo` and up to `hi`, in threshold DAC steps, since the channel's last
DISCRIMINATOR_HIT or since a direction was selected (R111): the rising direction arms below the threshold less 4 × HYST steps, the falling one
above the threshold plus as much. -/
def Dev.armDisc (d : Dev) (n : Nat) (lo hi : Int) : Dev :=
  let thr := d.effI (Reg.CH_DISC_THRESH n)
  let h : Int := 4 * d.eff (Reg.CH_DISC_HYST n)
  d.updChan n fun c => { c with armR := c.armR || decide (lo < thr - h), armF := c.armF || decide (thr + h < hi) }

/-- A fire of channel `n` (R111, R129, R588): the direction is disarmed, and the hit goes to the TDC; its slow edge E is edge `j` of reference
cycle `cyc` (with SLOW_LOCK 0, `cyc` is the cycle in which it reached the TDC). -/
def Dev.discFire (d : Dev) (n : Nat) (rising : Bool) (cyc j : Nat) : Dev :=
  let slow := d.flag (Reg.CH_TDC_STATUS_SLOW_LOCK n)
  let e := d.edge cyc + (if slow then 16384 * (j : Int) else 0)
  let est := e - d.pathDelay n
  let w := d.cycleOf est
  let count := d.edgeCount cyc + j
  let un := d.tdcUnavail n
  let free := d.tdcIdle n count && d.flag (Reg.CH_TDC_CTRL_TDC_EN n)
  let st : HitState := if un then .unavail else if free then .converting e else .busy
  let d := if un || !free then d.addWrap (Reg.CH_TDC_COUNTS_BUSY n) 1 else d
  let d := if un then d.addWrap (Reg.CH_TDC_COUNTS_UNAVAIL n) 1 else d
  d.updChan n fun c =>
    { c with hits := c.hits ++ [{ rising := rising, est := est, cycFrom := w.1, cycTo := w.2, st := st }]
             lastE := if !un && free then some count else c.lastE
             armR := c.armR && !rising
             armF := c.armF && rising }

/-- DISCRIMINATOR_HIT (R111): the input crosses the threshold of channel `n` in one direction, which fires if EDGE selects it and it is armed
(log entry 22). -/
def Dev.discHit (d : Dev) (n : Nat) (rising : Bool) (cyc j : Nat) (lo hi : Int) : Dev :=
  if d.up && d.role == .frontEnd && (d.chan n).acquiring then
    let d := d.armDisc n lo hi
    let armed := if rising then (d.chan n).armR else (d.chan n).armF
    if armed && d.discOn n rising then d.discFire n rising cyc j else d
  else d

def execDiscriminatorHit (n : Nat) (rising : Bool) (cyc j : Nat) (lo hi : Int) (s : State) : Res :=
  onUnit 48 n (fun d => d.discHit n rising cyc j lo hi) s

/-- Whether a hit's conversion still runs. -/
def Hit.running (h : Hit) : Bool :=
  match h.st with
  | .converting _ => true
  | _ => false

/-! ### Interval statistics -/

/-- N = 2^K (R159). -/
def Dev.statN (d : Dev) : Nat := 2 ^ min 20 (d.get Reg.TDC_STAT_CTRL_K)

/-- A source byte (R159): a channel's discriminator, the reference edge, or none. -/
inductive StatSrc where
  | chan (n : Nat) | ref | none
  deriving DecidableEq, Repr

def statSrc (b : Nat) : StatSrc :=
  match b / 64 with
  | 0 => .chan (b % 64)
  | 2 => .ref
  | _ => .none

/-- A value enters the statistics while fewer than N have (R142, R143). -/
def Dev.statAdd (d : Dev) (x : Int) : Dev :=
  let n := d.get Reg.TDC_STAT_STATUS_COUNT
  if d.statN ≤ n then d
  else
    let s := d.acq.stat
    let s := { s with sum := s.sum + x, sumSq := s.sumSq + x * x, mn := if n = 0 then x else min s.mn x,
                      mx := if n = 0 then x else max s.mx x }
    let d := { d with acq := { d.acq with stat := s } }.set Reg.TDC_STAT_STATUS_COUNT (n + 1)
    if x.natAbs < 256 then d.addSat Reg.TDC_STAT_FLAGS_NEAR 1 else d

/-- Reference edges of the present frame. -/
def Dev.refEdges (d : Dev) : List Int := (List.range (d.tm.clk.cyc + 1)).map d.edge

/-- The phase of instant `t` (R141): from the edge at or before it when `phi0` is none, else from the edge nearest to t − φ0. -/
def Dev.phaseOf (d : Dev) (phi0 : Option Int) (t : Int) : Int :=
  match phi0 with
  | none => t - (d.cycleOf t).1
  | some p =>
    let w := d.cycleOf (t - p)
    if 2 * (t - p - w.1) ≤ w.2 - w.1 then t - w.1 else t - w.2

/-- A hit of the engine's source in PHASE mode. -/
def Dev.statPhase (d : Dev) (t : Int) : Dev :=
  let x := d.phaseOf d.acq.stat.phi0 t
  let d := d.statAdd x
  match d.acq.stat.phi0 with
  | none => { d with acq := { d.acq with stat := { d.acq.stat with phi0 := some x } } }
  | some _ => d

/-- A stamped hit of channel `n` handed to the engine (R142). -/
def Dev.statHit (d : Dev) (n : Nat) (t : Int) : Dev :=
  if d.flag Reg.TDC_STAT_STATUS_RUNNING = false then d
  else
    let a := statSrc (d.get Reg.TDC_STAT_CTRL_START_SRC) == .chan n
    let b := statSrc (d.get Reg.TDC_STAT_CTRL_STOP_SRC) == .chan n
    if d.flag Reg.TDC_STAT_CTRL_MODE then (if a then d.statPhase t else d)
    else
      let s := d.acq.stat
      let s := { s with starts := if a then s.starts ++ [t] else s.starts, stops := if b then s.stops ++ [t] else s.stops }
      { d with acq := { d.acq with stat := s } }

/-- SPAN in units of 2^-16 ns (R159). -/
def Dev.statSpan (d : Dev) : Int := 65536 * 2 ^ min 13 (d.get Reg.TDC_STAT_CTRL_SPAN_LOG2)

/-- The nearest unused stop within ±SPAN of a start (R141), a tie to the earlier; with one source for both, not the start itself. -/
def nearestStop (span s : Int) (self : Bool) (stops : List Int) : Option Int :=
  minBy? (fun x => ((x - s).natAbs : Int))
    ((if self then stops.erase s else stops).filter fun x => decide ((x - s).natAbs ≤ span.natAbs))

/-- Starts whose window has closed by `now` pair, in order (R141). -/
def pairStarts (span now : Int) (self : Bool) : List Int → List Int → Dev → Dev
  | [], stops, d => { d with acq := { d.acq with stat := { d.acq.stat with starts := [], stops := stops } } }
  | s :: t, stops, d =>
    if now < s + span then { d with acq := { d.acq with stat := { d.acq.stat with starts := s :: t, stops := stops } } }
    else match nearestStop span s self stops with
      | some x => pairStarts span now self t (stops.erase x) (d.statAdd (x - s))
      | none => pairStarts span now self t stops (d.addSat Reg.TDC_STAT_FLAGS_UNPAIRED 1)

/-- The engine at the close of a frame: reference edges as a source, and pairs whose window has closed; hits of a frame are
stamped by the end of the next (R27), so a window is closed one frame after its end. -/
def Dev.statBoundary (d : Dev) : Dev :=
  if d.flag Reg.TDC_STAT_STATUS_RUNNING = false then d
  else
    let a := statSrc (d.get Reg.TDC_STAT_CTRL_START_SRC)
    let b := statSrc (d.get Reg.TDC_STAT_CTRL_STOP_SRC)
    let edges := (List.range d.tm.clk.cyc).map d.edge
    if d.flag Reg.TDC_STAT_CTRL_MODE then (if a == .ref then edges.foldl Dev.statPhase d else d)
    else
      let s := d.acq.stat
      let starts := if a == .ref then s.starts ++ edges else s.starts
      let stops := if b == .ref then s.stops ++ edges else s.stops
      let now := d.edge 0
      let keep := now - 2 * d.statSpan - 2 * frameUnits
      pairStarts d.statSpan (now - frameUnits) (a == b) (sortBy (fun x y => decide (x < y)) starts)
        (sortBy (fun x y => decide (x < y)) (stops.filter fun x => decide (keep ≤ x))) d

/-- START (R143). -/
def Dev.statStart (d : Dev) : Dev :=
  let s : Stat := { sum := 0, sumSq := 0, mn := 0, mx := 0, phi0 := none, starts := [], stops := [] }
  ((((({ d with acq := { d.acq with stat := s } }.setB Reg.TDC_STAT_STATUS_RUNNING true).setB Reg.TDC_STAT_STATUS_DONE false).set
    Reg.TDC_STAT_STATUS_COUNT 0).set Reg.TDC_STAT_FLAGS_NEAR 0).set Reg.TDC_STAT_FLAGS_UNPAIRED 0)

/-- ABORT (R143). -/
def Dev.statAbort (d : Dev) : Dev := d.setB Reg.TDC_STAT_STATUS_RUNNING false

/-- A write of TDC_STAT_CTRL (R159). -/
def Dev.writeStatCtrl (d : Dev) (w : Nat) : Dev :=
  let d := d.writeFields (fieldsAt 0x2C30) w
  let d := if bitOf w 0 then d.statStart else d
  if bitOf w 1 then d.statAbort else d

/-- STAT_START: TDC_STAT_CTRL written with START. -/
def execStatStart (src : Source) (val : Word) (s : State) : Res :=
  onDev (fun d => d.gated src 0x2C30 fun d =>
    whenD (d.role == .frontEnd) (fun d => (d.writeFields (fieldsAt 0x2C30) val.toNat).statStart) d) s

/-- STAT_ABORT. -/
def execStatAbort (src : Source) (s : State) : Res :=
  onDev (fun d => d.gated src 0x2C30 fun d => whenD (d.role == .frontEnd) Dev.statAbort d) s

/-- STAT_DONE (R143): mean, deviation, minimum and maximum of N values. -/
def Dev.statDone (d : Dev) : Dev :=
  let n := d.statN
  if d.up && d.flag Reg.TDC_STAT_STATUS_RUNNING && decide (n ≤ d.get Reg.TDC_STAT_STATUS_COUNT) then
    let s := d.acq.stat
    let var := (n : Int) * s.sumSq - s.sum * s.sum
    let d := (d.setI Reg.TDC_STAT_MEAN_MEAN (floorDiv s.sum n)).set Reg.TDC_STAT_DEV_DEV (isqrt var.toNat / n)
    let d := (d.setI Reg.TDC_STAT_MIN_MIN s.mn).setI Reg.TDC_STAT_MAX_MAX s.mx
    (d.setB Reg.TDC_STAT_STATUS_RUNNING false).setB Reg.TDC_STAT_STATUS_DONE true
  else d

def execStatDone (s : State) : Res := onDev Dev.statDone s

/-! ### Conversions -/

/-- TDC_CONVERSION_DONE (R127, R128): the oldest conversion that runs ends with code K, and its hit is stamped. -/
def Dev.convDone (d : Dev) (n code : Nat) : Dev :=
  let c := d.chan n
  match c.hits.find? Hit.running with
  | some { st := .converting e, .. } =>
    if d.up && decide (code < 128) then
      let t := e - c.tOf code - d.pathDelay n
      let d := d.updChan n fun c => { c with hits := updFirst Hit.running (fun h => { h with st := .stamped t }) c.hits }
      d.statHit n t
    else d
  | _ => d

def execTdcConversionDone (n code : Nat) (s : State) : Res := onUnit 48 n (fun d => d.convDone n code) s

/-- TDC_CONVERSION_TIMEOUT (R130): the hit is TDC busy, ERR counts, and the channel pipeline is assayed. -/
def Dev.convTimeout (d : Dev) (n : Nat) : Dev :=
  if d.up && (d.chan n).hits.any Hit.running then
    let d := d.updChan n fun c => { c with hits := updFirst Hit.running (fun h => { h with st := .busy }) c.hits }
    let d := (d.addSat (Reg.CH_TDC_COUNTS_ERR n) 1).addWrap (Reg.CH_TDC_COUNTS_BUSY n) 1
    d.logError 5 9 0 false 0 n 0 0
  else d

def execTdcConversionTimeout (n : Nat) (s : State) : Res := onUnit 48 n (fun d => d.convTimeout n) s

/-! ### Oscillator locks -/

/-- Relocking raises an event once both locks are back (R132). -/
def Dev.relocked (d : Dev) (n : Nat) : Dev :=
  if (d.chan n).lockLost && d.tdcLocked n then (d.updChan n fun c => { c with lockLost := false }).tdcEvent 2 n else d

/-- SLOW_LOCK_ACQUIRED (R131). -/
def Dev.slowLock (d : Dev) (n : Nat) : Dev :=
  if d.up && d.chanOn n && !d.flag (Reg.CH_TDC_STATUS_SLOW_LOCK n) then
    (d.setB (Reg.CH_TDC_STATUS_SLOW_LOCK n) true).relocked n
  else d

def execSlowLockAcquired (n : Nat) (s : State) : Res := onUnit 48 n (fun d => d.slowLock n) s

/-- Whether a list of lock-check outcomes holds at least 24 of each sign (R131). -/
def balanced (l : List Bool) : Bool := decide (24 ≤ (l.filter id).length) && decide (24 ≤ (l.filter (!·)).length)

/-- A lock is lost (R132), with its event: SLOW_LOCK goes when the event says so, FAST_LOCK while the outcomes are out of balance. -/
def Dev.lockLost (d : Dev) (n : Nat) (slow : Bool) : Dev :=
  let f := if slow then Reg.CH_TDC_STATUS_SLOW_LOCK n else Reg.CH_TDC_STATUS_FAST_LOCK n
  if d.up && d.flag f && (slow || !balanced (d.chan n).checks) then
    ((d.setB f false).updChan n fun c => { c with lockLost := true }).tdcEvent 1 n
  else d

/-- A lock check at slow-edge count `count` (R131): the fast control DAC moves one step toward coincidence, to a longer period where the 128th
fast edge came early, and FAST_LOCK is 1 while the last 64 outcomes are balanced. -/
def Dev.lockCheck (d : Dev) (n : Nat) (early : Bool) (count : Int) : Dev :=
  let l := (early :: (d.chan n).checks).take 64
  let fn := d.fn
  let d := d.updChan n fun c =>
    { c with checks := l, lastCheck := fn, checkE := some count, dac := if early then c.dac + 1 else c.dac - 1 }
  if !balanced l then d.lockLost n false
  else if !d.flag (Reg.CH_TDC_STATUS_FAST_LOCK n) then (d.setB (Reg.CH_TDC_STATUS_FAST_LOCK n) true).relocked n
  else d

/-- Whether the TDC of channel `n` has been idle for 160 slow periods at count `count`, with no lock check in them (R131). -/
def Dev.idleFor (d : Dev) (n : Nat) (count : Int) : Bool :=
  d.tdcIdle n count && (match (d.chan n).checkE with | some e => decide (e + 160 ≤ count) | none => true)

/-- FAST_LOCK_CHECK: the TDC has been idle for 160 slow periods at edge 0 of cycle `cyc`. -/
def execFastLockCheck (n : Nat) (early : Bool) (cyc : Nat) (s : State) : Res :=
  onUnit 48 n (fun d =>
    whenD (d.up && d.chanOn n && d.flag (Reg.CH_TDC_STATUS_SLOW_LOCK n) && d.idleFor n (d.edgeCount cyc))
      (fun d => d.lockCheck n early (d.edgeCount cyc)) d) s

/-- Every hit of a frame is stamped or counted as TDC busy by the end of the next (R27): a conversion of channel `n` still running for a hit before
the frame that closes ends so (log entry 57). -/
def Dev.hitsDue (d : Dev) (n : Nat) : Dev :=
  let late (h : Hit) : Bool := h.running && decide (h.est < d.edge 0)
  let k := ((d.chan n).hits.filter late).length
  if k = 0 then d
  else (d.updChan n fun c => { c with hits := c.hits.map fun h => if late h then { h with st := .busy } else h }).addWrap (Reg.CH_TDC_COUNTS_BUSY n) k

/-- FORCED_LOCK_CHECK: no check for 64 frames; hits in the 40 ns from the boundary are TDC busy. -/
def execForcedLockCheck (n : Nat) (early : Bool) (s : State) : Res :=
  onUnit 48 n (fun d =>
    whenD (d.up && d.chanOn n && d.flag (Reg.CH_TDC_STATUS_SLOW_LOCK n) && decide ((d.chan n).lastCheck + 64 ≤ d.fn))
      (fun d => (d.lockCheck n early (d.edgeCount 0)).updChan n fun c => { c with lastE := some (d.edgeCount 0) }) d) s

/-- TDC_LOCK_LOST (R132). -/
def execTdcLockLost (n : Nat) (slow : Bool) (s : State) : Res := onUnit 48 n (fun d => d.lockLost n slow) s

/-! ### Linearity calibration -/

/-- Runs in progress, with ACTIVE (R154). -/
def Dev.setLinRun (d : Dev) (l : List (Nat × Nat)) : Dev :=
  ({ d with acq := { d.acq with linRun := l } }).setB Reg.TDC_CAL_STATUS_ACTIVE (!l.isEmpty)

/-- Bring-up channels still to end, with BOOT_DONE (R134). -/
def Dev.setLinBoot (d : Dev) (l : List Nat) : Dev :=
  let d := { d with acq := { d.acq with linBoot := l } }
  if l.isEmpty then d.setB Reg.TDC_CAL_STATUS_BOOT_DONE true else d

/-- LIN_CAL_START (R134): owed or asked for, and both locks are 1. -/
def Dev.linStart (d : Dev) (n : Nat) : Dev :=
  let c := d.chan n
  if d.up && d.chanOn n && d.tdcLocked n && !d.flag (Reg.CH_TDC_STATUS_LIN_ACTIVE n) && (c.linDue || c.linWant) then
    let fn := d.fn
    let d := d.setB (Reg.CH_TDC_STATUS_LIN_ACTIVE n) true
    (d.updChan n fun c => { c with linWant := false }).setLinRun (putT n fn d.acq.linRun)
  else d

def execLinCalStart (n : Nat) (s : State) : Res := onUnit 48 n (fun d => d.linStart n) s

/-- The table of a histogram (R133): distances to the centre of each bin. -/
def linTable (h : List Nat) : List Nat :=
  (h.foldl (fun (a : List Nat × Nat) x => (a.1 ++ [(roundAway ((2 * a.2 + x : Nat) : Int) 128).toNat], a.2 + x)) ([], 0)).1

/-- Whether the histogram of 2^20 conversions is good (R133). -/
def linOk (h : List Nat) : Bool :=
  h.length == 128 && h.sum == 1048576 && h.all fun x => decide (2048 ≤ x) && decide (x ≤ 16384)

/-- A calibration of channel `n` ends, whatever it gave; its quad's temperature is noted for AUTO_DT (R134). -/
def Dev.linEnd (d : Dev) (n : Nat) : Dev :=
  let d := ((d.setB (Reg.CH_TDC_STATUS_LIN_ACTIVE n) false).updChan n fun c => { c with linDue := false }).setLinRun
    (delT n d.acq.linRun)
  let d := d.setLinBoot (d.acq.linBoot.filter (· != n))
  match d.quadTemp (n / 4) with
  | some t => { d with acq := { d.acq with linTemp := putT (n / 4) (ofSigned 32 t) d.acq.linTemp } }
  | none => d

/-- LIN_CAL_DONE (R133), 100 ms after the start. -/
def Dev.linDone (d : Dev) (n : Nat) (h : List Nat) : Dev :=
  match d.acq.linRun.find? fun p => p.1 == n with
  | some p =>
    if d.up && decide (p.2 + 100000 ≤ d.fn) then
      let d := d.linEnd n
      if linOk h then (d.updChan n fun c => { c with table := some (linTable h) }).setB (Reg.CH_TDC_STATUS_LIN_VALID n) true
      else
        let d := d.setB (Reg.CH_TDC_STATUS_LIN_FAIL n) true
        (d.set Reg.TDC_CAL_STATUS_FAIL_QUADS (setBit (d.get Reg.TDC_CAL_STATUS_FAIL_QUADS) (n / 4))).tdcEvent 3 n
    else d
  | none => d

def execLinCalDone (n : Nat) (h : List Nat) (s : State) : Res := onUnit 48 n (fun d => d.linDone n h) s

/-- A START of linearity calibration (R134, R153): refused while one is active, else queued to the next boundary. -/
def Dev.linRequest (d : Dev) (quads : Nat) : Dev :=
  if d.flag Reg.TDC_CAL_STATUS_ACTIVE then d.setB Reg.TDC_CAL_STATUS_REFUSED true
  else
    let l := (setBits quads 12).flatMap fun q => rangeFrom (4 * q) (4 * q + 4)
    { d with acq := { d.acq with linReq := d.acq.linReq ++ l } }

/-- A write of TDC_CAL_CTRL (R153). -/
def Dev.writeTdcCal (d : Dev) (w : Nat) : Dev :=
  let d := d.writeFields (fieldsAt 0x2C10) w
  if bitOf w 12 then d.linRequest (d.get Reg.TDC_CAL_CTRL_QUAD_MASK) else d

/-- TDC_CAL_START. -/
def execTdcCalStart (src : Source) (quads : Nat) (s : State) : Res :=
  onDev (fun d => d.gated src 0x2C10 fun d => (d.set Reg.TDC_CAL_CTRL_QUAD_MASK quads).linRequest (quads % 4096)) s

/-- A channel that leaves service during its calibration abandons it and keeps its table (R134). -/
def Dev.linAbandon (d : Dev) (n : Nat) : Dev :=
  if d.flag (Reg.CH_TDC_STATUS_LIN_ACTIVE n) then
    let d := (d.setB (Reg.CH_TDC_STATUS_LIN_ACTIVE n) false).setLinRun (delT n d.acq.linRun)
    d.setLinBoot (d.acq.linBoot.filter (· != n))
  else d

/-- Requests at a boundary (R134): powered channels of the named quads may begin, once no calibration is active. -/
def Dev.linBoundary (d : Dev) : Dev :=
  if d.acq.linReq.isEmpty || d.flag Reg.TDC_CAL_STATUS_ACTIVE then d
  else
    let l := d.acq.linReq.filter d.chanOn
    l.foldl (fun d n => d.updChan n fun c => { c with linWant := true }) { d with acq := { d.acq with linReq := [] } }

/-! ### Cross-calibration -/

/-- The update of R140 for channel `n` at the boundary that opens the present frame, from the pairs of frames two back (log entry
16): new TDC_DELAY unless software writes it at this boundary. -/
def Dev.xcalUpdate (d : Dev) (ws : List Nat) (n : Nat) : Dev :=
  let c := d.chan n
  let fn := d.fn
  let ps := c.pairs.filter fun p => decide (p.1 + 2 ≤ fn)
  if !c.acquiring && ps.isEmpty then d
  else
    let d := (d.updChan n fun c => { c with pairs := c.pairs.filter fun p => decide (fn < p.1 + 2) }).set
      (Reg.CH_TDC_STATUS_XC_PAIRS n) (min 65535 ps.length)
    if ps.isEmpty then d
    else
      let sum := (ps.map (·.2)).sum
      let k : Int := ps.length
      if (5 * k * (d.get Reg.TDC_XCAL_CFG_XC_LIMIT : Int)).natAbs < sum.natAbs then
        (d.setB (Reg.CH_TDC_STATUS_XC_ALARM n) true).tdcEvent 4 n
      else if d.flag (Reg.CH_TDC_CTRL_XCAL_EN n) = false ∨ ws.contains (Reg.CH_TDC_DELAY_DELAY n).addr then d
      else
        let v := d.eff (Reg.CH_TDC_DELAY_DELAY n) + roundAway sum (5 * k * 2 ^ d.get Reg.TDC_XCAL_CFG_SHIFT)
        let r := d.fitOr (decide (0 ≤ v) && decide (v < 524288)) v
        r.2.setBothI (Reg.CH_TDC_DELAY_DELAY n) r.1

/-! ### Lending -/

/-- Whether domain `k` has lent conversions in hand on channel `n` (R144): enabled on a lane at full rate, with `n` its lender. -/
def Dev.lendsLane (d : Dev) (k n : Nat) : Bool :=
  let port := d.get (Reg.TIM_DOM_CFG_PORT k)
  d.flag (Reg.TIM_DOM_CFG_ENABLE k) && port != 63 && d.lstate port == 4 && d.lender k == n

/-- Whether a lent conversion of domain `k` on channel `n`, with E at slow-edge count `count`, is one R145 takes. Full mode: whenever the TDC
is idle. Share mode: the one of the frame, armed at edge 0 of cycle 200 with the TDC idle, on the first recovered edge of the 4 ns after it.
A channel that lends to both domains alternates. -/
def Dev.lendTurn (d : Dev) (k n : Nat) (count : Int) : Bool :=
  let arm := d.edgeCount 200
  let last := (d.chan n).lent
  let turn := !d.lendsLane (1 - k) n || (match last with | some x => x.1 != k | none => true)
  let mode := if d.lentFull n then d.tdcIdle n count
    else d.tdcIdle n arm && decide (arm ≤ count) && decide (count ≤ arm + 16)
      && (match last with | some x => x.2 != d.fn | none => true)
  turn && mode

/-- The hit instant of a conversion with E at edge `j` of cycle `cyc` and code K (R128). -/
def Dev.convInstant (d : Dev) (n cyc j code : Nat) : Int := d.edge cyc + 16384 * (j : Int) - (d.chan n).tOf code - d.pathDelay n

/-- LENDER_CONVERSION (R145): a lent conversion of domain `k`, with E at edge `j` of cycle `cyc`, enters the phase average. -/
def Dev.lend (d : Dev) (k cyc j code : Nat) : Dev :=
  let n := d.lender k
  let count := d.edgeCount cyc + j
  if d.up && d.lendsLane k n && d.lenderOk n && decide (code < 128) && d.lendTurn k n count then
    let x := d.phaseOf (d.dom k).phi0 (d.convInstant n cyc j code)
    let fn := d.fn
    let d := d.updChan n fun c => { c with lastE := some count, lent := some (k, fn) }
    d.updDom k fun y => { y with phi0 := some (y.phi0.getD x), phSum := y.phSum + x, phN := y.phN + 1 }
  else d

def execLenderConversion (k cyc j code : Nat) (s : State) : Res := onUnit 2 k (fun d => d.lend k cyc j code) s

/-- PHASE_AVG_DONE (R145): after 2^PHASE_AVG_K conversions the mean waits for the next boundary. -/
def Dev.phaseDone (d : Dev) (k : Nat) : Dev :=
  let x := d.dom k
  let n := 2 ^ min 20 (d.get Reg.TIM_CTRL_PHASE_AVG_K)
  if d.up && decide (n ≤ x.phN) then
    d.updDom k fun x => { x with phMean := some (floorDiv x.phSum x.phN), phSum := 0, phN := 0, phi0 := none }
  else d

def execPhaseAvgDone (k : Nat) (s : State) : Res := onUnit 2 k (fun d => d.phaseDone k) s

/-- Refinement at a boundary (R55, R145): the mean in hand passes to the time path, and stamps of the domain's port are refined while there is
one, the lane is at full rate and the lender stamps. -/
def Dev.refineBoundary (d : Dev) (k : Nat) : Dev :=
  let ok := d.flag (Reg.TIM_DOM_CFG_ENABLE k) && d.lenderOk (d.lender k)
    && (d.isSource k || ((d.dom k).phMean.isSome && d.lstate (d.get (Reg.TIM_DOM_CFG_PORT k)) == 4))
  d.updDom k fun x => { x with refined := ok, phase := x.phMean }

/-- A write of TDC_LEND as it takes effect (R158): phase accumulation restarts. -/
def Dev.lendRestart (d : Dev) : Dev :=
  let f (x : Dom) : Dom := { x with phi0 := none, phSum := 0, phN := 0, phMean := none }
  (d.updDom 0 f).updDom 1 f

/-! ### PPS_IN edges (R65, R145) -/

/-- A PPS_IN edge takes the lender's TDC once (R145): its refined stamp when the TDC is idle; where it is not, UNAVAIL counts the edge and the
stamp is raw. -/
def Dev.ppsTdc (d : Dev) (k cyc j code : Nat) : Option Int × Dev :=
  let n := d.lender k
  let e := d.edgeCount cyc + j
  if !d.lenderOk n || decide (128 ≤ code) then (none, d)
  else if d.tdcIdle n e then (some (d.convInstant n cyc j code), d.updChan n fun c => { c with lastE := some e })
  else (none, d.addWrap (Reg.CH_TDC_COUNTS_UNAVAIL n) 1)

/-- PPS_EDGE (R65): an edge of PPS_IN whose conversion has E at edge `j` of cycle `cyc` and code K. Unrefined, it is stamped with the edge of
the reference cycle (R55). -/
def Dev.ppsEdge (d : Dev) (rising : Bool) (cyc j code : Nat) : Dev :=
  let pol := d.flag Reg.TIM_SRC_CFG_PPS_POL
  if !d.up || rising == pol then d
  else match (List.range 2).find? fun k => d.isSource k with
    | none => d
    | some k =>
      let r := d.ppsTdc k cyc j code
      r.2.ppsStamped k (r.1.getD (d.edge cyc))

def execPpsEdge (rising : Bool) (cyc j code : Nat) (s : State) : Res := onDev (fun d => d.ppsEdge rising cyc j code) s

/-- Hits that no trigger can still be associated with are forgotten: those more than 8 frames old. -/
def Dev.pruneHits (d : Dev) (n : Nat) : Dev :=
  if (d.chan n).hits.isEmpty then d
  else d.updChan n fun c => { c with hits := c.hits.filter fun h => decide (d.edge 0 - 8 * frameUnits ≤ h.est) }

end Sys2Proof.Machine
end

