-- ==== Sys2Proof/Machine/Trigger.lean ====
section
/-! DEFINITION. Triggers and captures (05_triggers_captures_and_streams.md): conditions, multiplicity, interpolation and fusion
(R136 to R139), captures, dead time, mask tests. -/
namespace Sys2Proof.Machine

/-- Causes of class 0x04 events, by the model's own numbers (log entry 4): 1 mask stop, 2 budget check passed, 3 budget check
refused, 4 stream's lane gone, 5 and 6 an envelope word lost (R432), 7 and 8 UPLINK_MASK written, taken and refused. -/
def Dev.trgEvent (d : Dev) (cause : Nat) (data : List Nat) : Dev := d.raiseOpen 4 cause data

/-! ### Settings of a unit -/

/-- A trigger unit's settings as they act (R187, R188). -/
structure UnitCfg where
  typ : Nat
  dir : Nat
  mult : Nat
  cap : Bool
  param : Nat
  param2 : Nat
  level : Int
  level2 : Int
  deriving DecidableEq, Repr

/-- Settings of unit A (`b` false) or B of channel `n` in a frame. -/
def FStat.unit (s : FStat) (n : Nat) (b : Bool) : UnitCfg :=
  let v (fa fb : Nat → Fld) : Nat := s.val (if b then fb n else fa n)
  let i (fa fb : Nat → Fld) : Int := s.valI (if b then fb n else fa n)
  let m := v Reg.CH_TRGA_CTRL_MULT Reg.CH_TRGB_CTRL_MULT
  let t := v Reg.CH_TRGA_CTRL_TYPE Reg.CH_TRGB_CTRL_TYPE
  { typ := if 8 ≤ t then 0 else t
    dir := v Reg.CH_TRGA_CTRL_DIR Reg.CH_TRGB_CTRL_DIR
    mult := if m = 3 then 0 else m
    cap := v Reg.CH_TRGA_CTRL_CAPTURE_EN Reg.CH_TRGB_CTRL_CAPTURE_EN == 1
    param := v Reg.CH_TRGA_CTRL_PARAM Reg.CH_TRGB_CTRL_PARAM
    param2 := v Reg.CH_TRGA_CTRL_PARAM2 Reg.CH_TRGB_CTRL_PARAM2
    level := i Reg.CH_TRGA_LEVEL_LEVEL Reg.CH_TRGB_LEVEL_LEVEL
    level2 := i Reg.CH_TRGA_LEVEL_LEVEL2 Reg.CH_TRGB_LEVEL_LEVEL2 }

/-- A unit that can open a capture: a condition type that is met at some sample, and CAPTURE_EN (R170; log entry 23). -/
def UnitCfg.capturing (u : UnitCfg) : Bool := u.cap && u.typ != 0

/-- d of a slope (R187). -/
def UnitCfg.slopeD (u : UnitCfg) : Nat := clampN 1 16 u.param

/-- WMIN (R165, R187). -/
def UnitCfg.wMin (u : UnitCfg) : Nat := clampN 1 1024 u.param

/-- WMAX (R165, R187): 0 for none. -/
def UnitCfg.wMax (u : UnitCfg) : Nat := if u.param2 = 0 then 0 else clampN u.wMin 1024 u.param2

/-- Capture length, pre-trigger and policy of a channel in a frame (R186). -/
def FStat.capLen (s : FStat) (n : Nat) : Nat := 8 * clampN 2 1024 (s.val (Reg.CH_CAPTURE_LEN_DIV8 n))
def FStat.capPre (s : FStat) (n : Nat) : Nat := min (s.val (Reg.CH_CAPTURE_PRE n)) (min 2048 (s.capLen n - 8))
def FStat.capExtend (s : FStat) (n : Nat) : Bool := s.val (Reg.CH_CAPTURE_POLICY n) == 1

/-- Discriminator threshold in S16 units in a frame (R111). -/
def FStat.discLevel (s : FStat) (n : Nat) : Int := 4 * s.valI (Reg.CH_DISC_THRESH n)

/-! ### Crossings (R136, R137) -/

/-- Whether samples x − 1 and x bracket a level in a direction. -/
def Chan.crossAt (c : Chan) (lvl : Int) (rising : Bool) (x : Int) : Bool :=
  match c.live (x - 1), c.live x with
  | some a, some b => if rising then decide (a.v < lvl) && decide (lvl ≤ b.v) else decide (lvl < a.v) && decide (b.v ≤ lvl)
  | _, _ => false

/-- p(mid / 256) × 6 × 2^24 of the cubic through four samples at −1, 0, 1, 2 (R136). -/
def cubicAt (m a b p : Int) (mid : Int) : Int :=
  let c3 := 3 * (m - 2 * a + b)
  let d := -m + 3 * a - 3 * b + p
  let b6 := 6 * (b - a) - c3 - d
  6 * a * 16777216 + b6 * mid * 65536 + c3 * mid * mid * 256 + d * mid * mid * mid

/-- The same of the straight line through samples 0 and 1 (R137). -/
def lineAt (a b : Int) (mid : Int) : Int := 6 * a * 16777216 + 6 * (b - a) * mid * 65536

/-- The bisection of R136: `n` steps more on [lo, hi]. -/
def bisect (p : Int → Int) (goal : Int) (rising : Bool) : Nat → Int → Int → Int
  | 0, _, hi => hi
  | n + 1, lo, hi =>
    let mid := (lo + hi) / 2
    let reached := if rising then decide (goal ≤ p mid) else decide (p mid ≤ goal)
    if reached then bisect p goal rising n lo mid else bisect p goal rising n mid hi

/-- Instant of sample `i`, in fifths. -/
def Chan.inst5 (c : Chan) (i : Int) : Int :=
  match c.ringAt i with
  | some r => instant5 r.fn r.exc r.cyc r.u (i - r.first).toNat
  | none => 0

/-- Kind and instant, in fifths, of the crossing of a level between samples i and i + 1 (R136, R137). A sample i + 2 that does not
exist, because the channel stopped, leaves the straight line (log entry 17). -/
def Chan.crossing (c : Chan) (lvl : Int) (rising : Bool) (i : Int) : Nat × Option Int :=
  if !c.crossAt lvl rising (i + 1) then (2, none)
  else match c.live i, c.live (i + 1) with
    | some a, some b =>
      let goal := 6 * lvl * 16777216
      let line : Nat × Option Int := (1, some (c.inst5 i + 512 * bisect (lineAt a.v b.v) goal rising 8 0 256))
      match c.live (i - 1), c.live (i + 2) with
      | some m, some p =>
        if m.clip || a.clip || b.clip || p.clip then line
        else (0, some (c.inst5 i + 512 * bisect (cubicAt m.v a.v b.v p.v) goal rising 8 0 256))
      | _, _ => line
    | _, _ => (2, none)

/-- Samples near an instant (in fifths), with their instants, in order. -/
def Chan.near (c : Chan) (t5 : Int) : List (Int × Int) :=
  c.ring.flatMap fun r =>
    let k0 := floorDiv (t5 - 5 * (frameUnits * r.fn + (r.exc : Int))) 131072
    if k0 < -14 ∨ (r.smp.length : Int) + 14 < k0 then []
    else (rangeFrom (k0 - 13).toNat (min r.smp.length (k0 + 14).toNat)).map fun (k : Nat) => (r.first + (k : Int), instant5 r.fn r.exc r.cyc r.u k)

/-- Five samples, 2 ns, in fifths. -/
def twoNs5 : Int := 655360

/-- The bracket of a level whose crossing lies nearest to an instant, among those with sample i within ±2 ns of it (R139, R164): its
sample i. -/
def Chan.nearBracket (c : Chan) (lvl : Int) (rising : Bool) (t5 : Int) : Option Int :=
  let l := (c.near t5).filter fun p => decide ((p.2 - t5).natAbs ≤ twoNs5.natAbs) && c.crossAt lvl rising (p.1 + 1)
  minBy? (fun i => match (c.crossing lvl rising i).2 with
    | some x => ((x - t5).natAbs : Int)
    | none => twoNs5) (l.map (·.1))

/-! ### Conditions (R164) -/

/-- What a condition hands to the interpolator: level, direction, second sample of the bracket; none for a headgate trigger. -/
abbrev Handed := Option (Int × Bool × Int)

/-- Threshold crossing. -/
def condThreshold (c : Chan) (u : UnitCfg) (x : Int) : Option Handed :=
  if bitOf u.dir 0 && c.crossAt u.level true x then some (some (u.level, true, x))
  else if bitOf u.dir 1 && c.crossAt u.level false x then some (some (u.level, false, x))
  else none

/-- Window. -/
def condWindow (c : Chan) (u : UnitCfg) (x : Int) : Option Handed :=
  let hi := u.level
  let lo := u.level2
  if hi ≤ lo then none
  else match c.live (x - 1), c.live x with
    | some a, some b =>
      if bitOf u.dir 0 && decide (a.v ≤ hi ∧ hi < b.v) then some (some (hi + 1, true, x))
      else if bitOf u.dir 0 && decide (lo ≤ a.v ∧ b.v < lo) then some (some (lo - 1, false, x))
      else if bitOf u.dir 1 && decide (hi < a.v ∧ b.v ≤ hi) then some (some (hi, false, x))
      else if bitOf u.dir 1 && decide (a.v < lo ∧ lo ≤ b.v) then some (some (lo, true, x))
      else none
    | _, _ => none

/-- The slope condition at sample y in one direction: the level and x. -/
def slopeAt (c : Chan) (u : UnitCfg) (rising : Bool) (y : Int) : Option (Int × Int) :=
  let n : Int := u.slopeD
  match c.live y, c.live (y - n), c.live (y - 1), c.live (y - 1 - n) with
  | some a, some b, some a', some b' =>
    let s := if rising then a.v - b.v else b.v - a.v
    let s' := if rising then a'.v - b'.v else b'.v - a'.v
    if decide (u.level ≤ s ∧ s' < u.level) then
      let half := (u.level + 1) / 2
      let lvl := if rising then b.v + half else b.v - half
      ((List.range u.slopeD).map fun k => y - (k : Int)).find? (fun z => c.crossAt lvl rising z) |>.map fun z => (lvl, z)
    else none
  | _, _, _, _ => none

/-- Slope over d samples. -/
def condSlope (c : Chan) (u : UnitCfg) (x : Int) : Option Handed :=
  if u.level ≤ 0 then none
  else
    let at' (rising : Bool) (y : Int) : Option Handed :=
      match slopeAt c u rising y with
      | some p => if p.2 = x then some (some (p.1, rising, x)) else none
      | none => none
    ((List.range u.slopeD).map fun (k : Nat) => x + (k : Int)).findSome? fun y =>
      match (if bitOf u.dir 0 then at' true y else none) with
      | some h => some h
      | none => if bitOf u.dir 1 then at' false y else none

/-- Instant t of a hit, or its estimate (R588), in fifths. -/
def Hit.t5 (h : Hit) : Int :=
  match h.st with
  | .stamped t => 5 * t
  | _ => 5 * h.est

/-- The trigger sample of a discriminator hit (R164). -/
def Chan.hitSample (c : Chan) (lvl : Int) (h : Hit) : Option Int :=
  match c.nearBracket lvl h.rising h.t5 with
  | some i => some (i + 1)
  | none => ((c.near h.t5).find? fun p => decide (h.t5 ≤ p.2)).map (·.1)

/-- The hit that fires a discriminator condition at x. -/
def Chan.hitAt (c : Chan) (lvl : Int) (dir : Nat) (x : Int) : Option Hit :=
  c.hits.find? fun h => !h.running && bitOf dir (if h.rising then 0 else 1) && c.hitSample lvl h == some x

/-- Width of a crossing at x (R165): consecutive samples at or beyond the level, counted up to 1,025. -/
def Chan.widthAt (c : Chan) (lvl : Int) (rising : Bool) (x : Int) : Nat :=
  ((c.slice x 1025).takeWhile fun s => if rising then decide (lvl ≤ s.v) else decide (s.v ≤ lvl)).length

/-- Width qualifier. -/
def condWidth (c : Chan) (u : UnitCfg) (x : Int) : Option Handed :=
  match condThreshold c u x with
  | some (some (l, r, z)) =>
    let w := c.widthAt l r x
    if decide (u.wMin ≤ w) && (u.wMax == 0 || decide (w ≤ u.wMax)) then some (some (l, r, z)) else none
  | _ => none

/-- Primitive condition of types 0x1 to 0x4 and 0x7. -/
def primitive (c : Chan) (u : UnitCfg) (discLevel x : Int) : Option Handed :=
  match u.typ with
  | 1 => condThreshold c u x
  | 2 => condWindow c u x
  | 3 => condSlope c u x
  | 4 => match c.hitAt discLevel u.dir x with
         | some h => some (some (discLevel, h.rising, x))
         | none => none
  | 7 => condWidth c u x
  | _ => none

/-- Whether the same unit's primitive of channel `m` fired at sample `y` (R166), under the settings of y's frame. -/
def Dev.primAt (d : Dev) (m : Nat) (b : Bool) (y : Int) : Bool :=
  match d.frameAt y with
  | some s => s.accept.contains m && (primitive (d.chan m) (s.unit m b) (s.discLevel m) y).isSome
  | none => false

/-- Channels among `ms` whose primitive fired within W of x. -/
def Dev.coincident (d : Dev) (ms : List Nat) (b : Bool) (w : Nat) (x : Int) : Nat :=
  (ms.filter fun m => (List.range (2 * w + 1)).any fun k => d.primAt m b (x - w + k)).length

/-- Whether a multiplicity is met (R166). -/
def Dev.multMet (d : Dev) (s : FStat) (n : Nat) (b : Bool) (u : UnitCfg) (x : Int) : Bool :=
  match u.mult with
  | 1 =>
    let q := n / 4
    decide (clampN 1 4 (s.val (Reg.TRG_QUAD_MULT_K q))
      ≤ d.coincident (rangeFrom (4 * q) (4 * q + 4)) b (s.val (Reg.TRG_QUAD_MULT_W q)) x)
  | 2 => decide (clampN 1 48 (s.val Reg.TRG_DEV_MULT_M) ≤ d.coincident (List.range 48) b (s.val Reg.TRG_DEV_MULT_W) x)
  | _ => true

/-! ### Mask tests (R178, R179) -/

/-- Anchor mode of a quad in a frame: 1 continuous, 2 triggered, 0 no test. -/
def FStat.anchorMode (s : FStat) (q : Nat) : Nat :=
  let a := s.val (Reg.TRG_MASK_CFG_ANCHOR q)
  if s.val (Reg.TRG_MASK_CFG_ENABLE q) = 0 ∨ a = 3 then 0 else a

/-- STEP_LOG2 as it acts. -/
def FStat.maskStep (s : FStat) (q : Nat) : Nat := min 4 (s.val (Reg.TRG_MASK_CFG_STEP_LOG2 q))

/-- The stops of quad `q`'s test that have been taken. -/
def Dev.stopsAt (d : Dev) (q : Nat) : List MaskStop := d.acq.stops.filter fun p => p.q == q

/-- Whether the test is stopped at sample x (R179): behind a stop that has not resumed by then. -/
def stoppedAt (ss : List MaskStop) (x : Int) : Bool :=
  ss.any fun p => decide (p.x < x) && (match p.resume with | some r => decide (x < r) | none => true)

/-- Whether a triggered anchor is void at sample x: the test has resumed since, and each channel waits for its next anchor (R179). -/
def anchorVoid (ss : List MaskStop) (a x : Int) : Bool :=
  ss.any fun p => match p.resume with | some r => decide (a < r) && decide (r ≤ x) | none => false

/-- The anchor that sample x of channel `n` is tested from, with the stops `ss` of its quad. -/
def Dev.anchorOf (d : Dev) (s : FStat) (ss : List MaskStop) (n : Nat) (x : Int) : Option Int :=
  let q := n / 4
  match s.anchorMode q with
  | 1 => (s.anchor.find? fun p => p.1 == q).map (·.2)
  | 2 =>
    if (s.unit n false).typ = 6 then none
    else match ((d.chan n).anchors.filter fun a => decide (a ≤ x) && !anchorVoid ss a x).getLast? with
      | some a => if x < a + 512 * 2 ^ s.maskStep q then some a else none
      | none => none
  | _ => none

/-- Envelope value of a quad at a point (R180): U or Lw; U = +32,767 and Lw = −32,768 before the first commit. -/
def envAt (env : List (Nat × Nat)) (q : Nat) (lower : Bool) (p : Nat) : Int :=
  toSigned 16 (getT (if lower then 0x8000 else 0x7FFF) ((2 * q + b2n lower) * 512 + p) env)

/-- Whether sample x of channel `n` is tested in frame `s` and outside its envelope: level and direction. -/
def Dev.maskViol (d : Dev) (s : FStat) (ss : List MaskStop) (n : Nat) (x : Int) : Option (Int × Bool) :=
  let q := n / 4
  if !(bitOf (s.val (Reg.TRG_MASK_CFG_CHAN_MASK q)) (n % 4) && s.accept.contains n) || stoppedAt ss x then none
  else match d.anchorOf s ss n x, (d.chan n).live x with
    | some a, some v =>
      let p := (floorDiv (x - a) (2 ^ s.maskStep q)).toNat % 512
      let hi := envAt s.env q false p
      let lo := envAt s.env q true p
      if hi < v.v then some (hi + 1, true) else if v.v < lo then some (lo - 1, false) else none
    | _, _ => none

/-- The first violating sample of quad `q` in a frame, with the lowest channel that violates at it. -/
def Dev.firstViol (d : Dev) (s : FStat) (ss : List MaskStop) (q : Nat) : Option (Int × Nat) :=
  (List.range s.samples).findSome? fun k =>
    ((rangeFrom (4 * q) (4 * q + 4)).find? fun n => (d.maskViol s ss n (s.base + k)).isSome).map fun n => (s.base + k, n)

/-- Frames whose mask tests and dead samples have not been worked yet: those fewer than two boundaries old. -/
def FStat.young (s : FStat) : Bool := decide (s.age < 2)

/-- The stop at sample x of quad `q`: a REARM that took effect at a later boundary has ended it (R179). -/
def Dev.stopOf (d : Dev) (q : Nat) (v : Int × Nat) : MaskStop :=
  { q := q, x := v.1, n := v.2, resume := minBy? id ((d.acq.rearms.filter fun p => p.1 == q && decide (v.1 < p.2)).map (·.2)) }

/-- The stops of quad `q` as far as the samples in hand tell. -/
def Dev.stopsKnown (d : Dev) (q : Nat) : List MaskStop :=
  (d.acq.fstats.filter fun s => s.young && s.anchorMode q != 0 && s.val (Reg.TRG_MASK_CFG_STOP q) == 1).foldl
    (fun ss s => match d.firstViol s ss q with
      | some v => ss ++ [d.stopOf q v]
      | none => ss) (d.stopsAt q)

/-- Mask violation as a trigger condition (R178, R179). -/
def Dev.condMask (d : Dev) (s : FStat) (n : Nat) (x : Int) : Option Handed :=
  let q := n / 4
  let ss := d.stopsAt q
  match d.maskViol s ss n x with
  | some v =>
    let before : Bool := match d.frameAt (x - 1) with
      | some s' => (d.maskViol s' ss n (x - 1)).isSome
      | none => false
    let fires := if s.val (Reg.TRG_MASK_CFG_STOP q) = 1 then (d.stopsKnown q).any fun p => p.x == x && p.n == n else !before
    if fires then some (some (v.1, v.2, x)) else none
  | none => none

/-- The mask tests of a frame two boundaries old (R178, R179): violating samples counted, and a stop taken. A stop that a REARM has ended
already leaves the test running. -/
def Dev.maskFrame (d : Dev) (s : FStat) (q : Nat) : Dev :=
  let ss := d.stopsAt q
  if s.anchorMode q = 0 then d
  else if s.val (Reg.TRG_MASK_CFG_STOP q) = 1 then
    match d.firstViol s ss q with
    | some v =>
      let p := d.stopOf q v
      let d := { d with acq := { d.acq with stops := d.acq.stops ++ [p] } }
      let d := (d.addWrap (Reg.TRG_MASK_VIOL_VIOL q) 1).addWrap (Reg.TRG_MASK_VIOL_STOPS q) 1
      let d := if p.resume.isNone then d.setB (Reg.TRG_MASK_CFG_STOPPED q) true else d
      d.trgEvent 1 [q, v.2, s.sampleOfs (v.1 - s.base).toNat]
    | none => d
  else
    let k := ((rangeFrom (4 * q) (4 * q + 4)).map fun n =>
      ((List.range s.samples).filter fun i => (d.maskViol s ss n (s.base + i)).isSome).length).sum
    d.addWrap (Reg.TRG_MASK_VIOL_VIOL q) k

/-- A REARM (R179): the test resumes at the next boundary. -/
def Dev.maskRearm (d : Dev) (q : Nat) : Dev := { d with acq := { d.acq with rearm := setBit d.acq.rearm q } }

def execMaskRearm (src : Source) (q : Nat) (s : State) : Res :=
  onUnit 12 q (fun d => d.gated src (0x3640 + 4 * q) fun d => whenD (d.role == .frontEnd) (fun d => d.maskRearm q) d) s

/-- A TRG_MASK_DATA write (R199): the shadow takes the value, and POINT advances. -/
def Dev.maskData (d : Dev) (v : Nat) : Dev :=
  let q := d.get Reg.TRG_MASK_ADDR_QUAD
  if 12 ≤ q then d
  else
    let p := d.get Reg.TRG_MASK_ADDR_POINT
    let k := (2 * q + d.get Reg.TRG_MASK_ADDR_ENV) * 512 + p
    ({ d with acq := { d.acq with envS := putT k (v % 65536) d.acq.envS } }).set Reg.TRG_MASK_ADDR_POINT ((p + 1) % 512)

/-- What TRG_MASK_DATA reads (R198, R199). -/
def Dev.maskDataRead (d : Dev) : Nat :=
  let q := d.get Reg.TRG_MASK_ADDR_QUAD
  let e := d.get Reg.TRG_MASK_ADDR_ENV
  if 12 ≤ q then 0 else getT (if e = 0 then 0x7FFF else 0x8000) ((2 * q + e) * 512 + d.get Reg.TRG_MASK_ADDR_POINT) d.acq.envS

def execTrgMaskDataWrite (src : Source) (val : Word) (s : State) : Res :=
  onDev (fun d => d.gated src 0x36A4 fun d => whenD (d.role == .frontEnd) (fun d => d.maskData val.toNat) d) s

/-- A TRG_MASK_COMMIT write (R200): the copy waits for the next boundary. -/
def Dev.maskCommit (d : Dev) (quads : Nat) : Dev := { d with acq := { d.acq with commit := d.acq.commit ||| quads % 4096 } }

def execTrgMaskCommit (src : Source) (quads : Nat) (s : State) : Res :=
  onDev (fun d => d.gated src 0x36A8 fun d => whenD (d.role == .frontEnd) (fun d => d.maskCommit quads) d) s

/-- Quad `q`'s shadow made active (R180). -/
def commitQuad (sh act : List (Nat × Nat)) (q : Nat) : List (Nat × Nat) :=
  let mine (p : Nat × Nat) : Bool := decide (1024 * q ≤ p.1) && decide (p.1 < 1024 * q + 1024)
  (sh.filter mine).foldr (fun p a => putT p.1 p.2 a) (act.filter fun p => !mine p)

/-- Commits and re-arms at a boundary (R179, R180); a quad whose active envelope is spoilt resumes only after a commit (R432). -/
def Dev.maskBoundary (d : Dev) : Dev :=
  let bad := maskOf ((setBits d.acq.envBad 12).filter fun q => !bitOf d.acq.commit q)
  let qs := (setBits d.acq.rearm 12).filter fun q => !bitOf bad q
  let env := (setBits d.acq.commit 12).foldl (commitQuad d.acq.envS) d.acq.envA
  let base := d.acq.base
  let go (p : MaskStop) : MaskStop := if qs.contains p.q && p.resume.isNone then { p with resume := some base } else p
  let acq := { d.acq with
    envA := env, commit := 0, rearm := 0, envBad := bad, stops := d.acq.stops.map go
    rearms := qs.map (fun q => (q, base)) ++ d.acq.rearms }
  qs.foldl (fun d q => d.setB (Reg.TRG_MASK_CFG_STOPPED q) false) { d with acq := acq }

/-! ### Association and fusion (R138, R139) -/

/-- What a trigger carries: kind, t_x, quality, t, fused time (instants in fifths, t in units), and δ = t − t_xd of a pair. -/
structure Timing where
  kind : Nat
  tx : Option Int
  quality : Nat
  tdc : Option Int
  fused : Int
  pair : Option Int
  deriving DecidableEq, Repr

/-- The stamped instant of a hit. -/
def Hit.stamp (h : Hit) : Option Int :=
  match h.st with
  | .stamped t => some t
  | _ => none

/-- The hit associated with a trigger whose window has centre `c5` (R138): the nearest stamped one within ±ASSOC, else the nearest
unstamped one whose reference cycle overlaps the window. -/
def associate (hits : List Hit) (c5 half5 : Int) : Option Hit :=
  let st := hits.filter fun h => h.stamp.isSome && decide ((h.t5 - c5).natAbs ≤ half5.natAbs)
  match minBy? (fun h => ((h.t5 - c5).natAbs : Int)) (sortBy (fun a b => decide (a.t5 < b.t5)) st) with
  | some h => some h
  | none =>
    let un := hits.filter fun h => h.stamp.isNone && !h.running && decide (5 * h.cycFrom ≤ c5 + half5) && decide (c5 - half5 < 5 * h.cycTo)
    minBy? (fun h => ((h.t5 - c5).natAbs : Int)) (sortBy (fun a b => decide (a.t5 < b.t5)) un)

/-- Whether an agreed trigger's t_xd makes it a pair (R140). -/
def Dev.isPair (d : Dev) (c : Chan) (kind : Nat) (i : Int) : Bool :=
  match c.live (i - 1), c.live i, c.live (i + 1), c.live (i + 2) with
  | some m, some a, some b, some p =>
    kind == 0 && !(m.prov || a.prov || b.prov || p.prov) && m.low == a.low && a.low == b.low && b.low == p.low
      && decide (d.get Reg.TDC_XCAL_CFG_MIN_SLOPE ≤ (b.v - a.v).natAbs)
  | _, _, _, _ => false

/-- Crossing, association, fusion and quality of a trigger of channel `n` at sample x. -/
def Dev.timing (d : Dev) (s : FStat) (n : Nat) (u : UnitCfg) (h : Handed) (x : Int) : Timing :=
  let c := d.chan n
  let second := match h with
    | some p => p.2.2
    | none => x
  let cr : Nat × Option Int := match h with
    | some p => c.crossing p.1 p.2.1 (p.2.2 - 1)
    | none => (2, none)
  let at5 := c.inst5 second
  let centre := cr.2.getD at5
  let half := 5 * 4096 * (d.get Reg.TDC_FUSE_CFG_ASSOC : Int)
  let able := c.hits.filter fun y => match h with
    | some p => y.rising == p.2.1
    | none => true
  let hit : Option Hit :=
    if d.flag (Reg.CH_TDC_CTRL_TDC_EN n) = false then none
    else if u.typ = 4 then c.hitAt (s.discLevel n) u.dir x
    else associate able centre half
  let mk (q : Nat) (tdc : Option Int) (fused : Int) (pair : Option Int) : Timing :=
    { kind := cr.1, tx := cr.2, quality := q, tdc := tdc, fused := fused, pair := pair }
  match hit with
  | none => match cr.2 with
    | none => mk 6 none at5 none
    | some tx => mk 1 none tx none
  | some y => match y.st with
    | .unavail => mk 4 none centre none
    | .busy => mk 2 none centre none
    | .converting _ => mk 2 none centre none
    | .stamped t => match cr.2 with
      | none => mk 5 (some t) (5 * t) none
      | some tx =>
        let lvl := s.discLevel n
        match c.nearBracket lvl y.rising (5 * t) with
        | none => mk 3 (some t) tx none
        | some i =>
          let xd := c.crossing lvl y.rising i
          match xd.2 with
          | none => mk 3 (some t) tx none
          | some txd =>
            if (5 * t - txd).natAbs ≤ 5 * d.get Reg.TDC_FUSE_CFG_AGREE then
              mk 0 (some t) (5 * t + (tx - txd)) (if d.isPair c xd.1 i then some (5 * t - txd) else none)
            else mk 3 (some t) tx none

/-! ### Captures -/

/-- AT_LIMIT and CAPTURE_OPEN of a channel (R191). -/
def Dev.capStatus (d : Dev) (n : Nat) : Dev :=
  let o := (d.chan n).caps.find? fun c => c.stage == 0
  (d.setB (Reg.CH_TRG_STATUS_CAPTURE_OPEN n) o.isSome).setB (Reg.CH_TRG_STATUS_AT_LIMIT n)
    (match o with | some c => c.last == c.start + 8191 | none => false)

/-- A refused trigger (R173, R177): counted, and the first of its frame in sample order, lowest channel first. -/
def Dev.refuse (d : Dev) (n : Nat) (fn k case : Nat) : Dev :=
  let f := match case with
    | 0 => Reg.CH_TRG_REF_LO_FILL n
    | 1 => Reg.CH_TRG_REF_LO_REARM n
    | 2 => Reg.CH_TRG_REF_HI_BUSY n
    | _ => Reg.CH_TRG_REF_HI_OFF n
  (d.addWrap f 1).updFrame fn fun s =>
    match s.refused with
    | some r => if k < r.1 ∨ (k = r.1 ∧ n < r.2.1) then { s with refused := some (k, n, case) } else s
    | none => { s with refused := some (k, n, case) }

/-- A trigger refused because of a capture: if the capture is written off, a loss record says so (R409). -/
def Dev.refuseFor (d : Dev) (n fn k case : Nat) (cap : Cap) : Dev :=
  let d := d.refuse n fn k case
  let d := d.updChan n fun c => { c with caps := updFirst (fun x => x.x == cap.x) (fun x => { x with refs := x.refs ++ [fn] }) c.caps }
  if cap.off then d.lose (d.refusedLoss n fn) else d

/-- A trigger mark on the stream record of its frame (R182). -/
def Dev.mark (d : Dev) (n fn : Nat) (x : Int) (a b opened : Bool) : Dev :=
  match (List.range 4).find? fun k => (d.slot k).jobs.any fun j => j.fn == fn && j.chan == n with
  | none => d
  | some k =>
    let js := (d.slot k).jobs
    let full := js.any fun j => j.fn == fn && j.chan == n && decide (16 ≤ j.marks.length)
    let d := if full then d.addSat (Reg.TRG_STREAM_STATUS_MARK_OVF k) 1 else d
    let sl := d.slot k
    d.setSlot k { sl with jobs := updFirst (fun j => j.fn == fn && j.chan == n) (fun j => { j with marks := j.marks ++ [(x, a, b, opened)] }) js }

/-- The capture that a trigger at sample x meets: one it lies inside, or whose re-arm it lies in (R173). -/
def Chan.capMet (c : Chan) (x : Int) : Option Cap :=
  (c.caps.filter fun k => decide (k.x < x) && decide (x ≤ k.last + 16)).getLast?

/-- A capture opens (R172, R169). -/
def Dev.openCap (d : Dev) (s : FStat) (n : Nat) (x : Int) (srcB a b : Bool) (t : Timing) : Dev :=
  let len : Int := s.capLen n
  let pre : Int := s.capPre n
  let ext := s.capExtend n
  let start := x - pre
  let cap : Cap :=
    { start := start, last := start + len - 1, x := x, fn := s.fn, xi := (x - s.base).toNat, srcB := srcB, ua := a, ub := b,
      kind := t.kind, quality := t.quality, tx := t.tx, tdc := t.tdc, fused := t.fused, post := (len - pre).toNat, extend := ext,
      exts := [], more := 0, deadFrom := if !ext || len == 8192 then some (x + 1) else none, refs := [], off := false, cut := false,
      stage := 0 }
  let d := d.updChan n fun c =>
    { c with caps := c.caps ++ [c.cutCap cap]
             anchors := if a && (s.unit n false).cap then c.anchors ++ [x] else c.anchors }
  (d.addWrap (Reg.CH_TRG_STATUS_CAPTURES n) 1).capStatus n

/-- A trigger inside an open capture under EXTEND (R174). -/
def Dev.extendCap (d : Dev) (n : Nat) (cap : Cap) (x : Int) (a b : Bool) : Dev :=
  let want := cap.start + 8 * floorDiv (x + cap.post - cap.start + 7) 8 - 1
  let last := max cap.last (min want (cap.start + 8191))
  let dead := if last = cap.start + 8191 then some (cap.deadFrom.getD (x + 1)) else cap.deadFrom
  let cap' :=
    { cap with last := last, deadFrom := dead, stage := 0,
               exts := if cap.exts.length < 8 then cap.exts ++ [((x - cap.start).toNat, a, b)] else cap.exts,
               more := if cap.exts.length < 8 then cap.more else min 63 (cap.more + 1) }
  (d.updChan n fun c => { c with caps := updFirst (fun k => k.x == cap.x) (fun _ => c.cutCap cap') c.caps }).capStatus n

/-- Samples beyond x that a unit's decision may need (R167), with those of the interpolator and the association window. -/
def UnitCfg.wait (u : UnitCfg) (s : FStat) (n : Nat) : Int :=
  let own : Int := match u.typ with
    | 3 => 16
    | 7 => 1024
    | _ => 0
  match u.mult with
  | 1 => 1024 + s.val (Reg.TRG_QUAD_MULT_W (n / 4))
  | 2 => 1024 + s.val Reg.TRG_DEV_MULT_W
  | _ => own

/-- Whether a unit fires at sample x (R164, R166), and what it hands on. -/
def Dev.fires (d : Dev) (s : FStat) (n : Nat) (b : Bool) (x : Int) : Option Handed :=
  let u := s.unit n b
  match u.typ with
  | 0 => none
  | 5 => if (d.chan n).hg.contains (s.fn, (x - s.base).toNat, b) then some none else none
  | 6 => d.condMask s n x
  | _ => match primitive (d.chan n) u (s.discLevel n) x with
    | some h => if d.multMet s n b u x then some h else none
    | none => none

/-- Whether unit B is the source of a trigger that fires `fa` and `fb` (R169): A, unless only B captures or only B fired. -/
def srcIsB (ua ub : UnitCfg) (fa fb : Option Handed) : Bool := !(fa.isSome && (ua.cap || !(fb.isSome && ub.cap)))

/-- A firing with at least one capturing unit: refused, extends, or opens (R169, R173, R174). It answers whether it opened. -/
def Dev.capture (d : Dev) (s : FStat) (n : Nat) (x : Int) (srcB a b : Bool) (t : Timing) : Bool × Dev :=
  let k := (x - s.base).toNat
  if x - s.capPre n < (d.chan n).since then (false, d.refuse n s.fn k 0)
  else match (d.chan n).capMet x with
    | none => (true, d.openCap s n x srcB a b t)
    | some cap =>
      if cap.last < x then (false, d.refuseFor n s.fn k 1 cap)
      else if !cap.extend || cap.last == cap.start + 8191 || cap.stage == 2 then (false, d.refuseFor n s.fn k 2 cap)
      else (false, d.extendCap n cap x a b)

/-- The decision for sample g of channel `n` in frame `s` (R164, R169, R170): no unit fires, or the trigger is timed and, where a unit that fired
captures, refused, extends or opens; it leaves its pair (R140) and its mark (R182) whatever becomes of it. -/
def Dev.decideTrig (d : Dev) (s : FStat) (n : Nat) (g : Int) : Dev :=
  let ua := s.unit n false
  let ub := s.unit n true
  let fa := d.fires s n false g
  let fb := d.fires s n true g
  if fa.isNone && fb.isNone then d
  else
    let srcB := srcIsB ua ub fa fb
    let t := d.timing s n (if srcB then ub else ua) ((if srcB then fb else fa).getD none) g
    let d := d.updChan n fun c =>
      { c with decided := c.decided ++ [g], pairs := match t.pair with | some p => c.pairs ++ [(s.fn, p)] | none => c.pairs }
    let cap := (fa.isSome && ua.cap) || (fb.isSome && ub.cap)
    let r := if cap then d.capture s n g srcB fa.isSome fb.isSome t else (false, d)
    r.2.mark n s.fn g fa.isSome fb.isSome r.1

/-- Whether a conversion still runs for a hit within 16 ns of sample `g`, so that its association cannot be told yet (R138). -/
def Chan.hitOpen (c : Chan) (g : Int) : Bool :=
  c.hits.any fun h => h.running && decide ((5 * h.est - c.inst5 g).natAbs ≤ 5242880)

/-- TRIGGER_DECISION (R164): sample `x` of frame index `fi` of channel `n` is decided, once, in sample order, when the samples it needs
are merged and no hit near it is still converted. -/
def Dev.decideAt (d : Dev) (n fi x : Nat) : Dev :=
  match d.acq.fstats.find? fun s => s.fn % 2 ^ 32 == fi with
  | none => d
  | some s =>
    let c := d.chan n
    let g := s.base + x
    let need := g + max ((s.unit n false).wait s n) ((s.unit n true).wait s n) + 18
    if d.up && d.role == .frontEnd && s.young && s.accept.contains n && decide (x < s.samples) && c.decided.all (fun z => decide (z < g)) && !c.hitOpen g
        && (decide (need ≤ c.merged) || (!c.acquiring && decide (g < c.merged))) then d.decideTrig s n g
    else d

/-- The decisions of the frame before the one that closes are final by its end (R27, R167): what no TRIGGER_DECISION has decided is decided
now (log entry 57). -/
def Dev.decideDue (d : Dev) : Dev :=
  match d.acq.fstats.find? fun s => s.age == 1 with
  | none => d
  | some s =>
    (s.accept.filter fun n => (s.unit n false).typ != 0 || (s.unit n true).typ != 0).foldl (fun d n =>
      (List.range s.samples).foldl (fun d k =>
        let g := s.base + k
        if (d.chan n).decided.all (fun z => decide (z < g)) && decide (g < (d.chan n).merged) then d.decideTrig s n g else d) d) d

def execTriggerDecision (n fi x : Nat) (s : State) : Res := onUnit 48 n (fun d => d.decideAt n fi x) s

/-- CAPTURE_CLOSE (R172): the last sample of the oldest open capture has been merged. -/
def Dev.captureClose (d : Dev) (n : Nat) : Dev :=
  let c := d.chan n
  match c.caps.find? fun k => k.stage == 0 with
  | some k =>
    if d.up && decide (k.last < c.merged) then
      (d.updChan n fun c => { c with caps := updFirst (fun y => y.x == k.x) (fun y => { y with stage := 1 }) c.caps }).capStatus n
    else d
  | none => d

def execCaptureClose (n : Nat) (s : State) : Res := onUnit 48 n (fun d => d.captureClose n) s

/-! ### Headgate triggers (R168) -/

/-- A TRIGGER action executes at the boundary that opens the present frame: named channels with a unit of TYPE 0x5 fire at sample S,
at most the frame's last. A channel that takes no triggers counts OFF; on a stream channel it leaves its mark all the same (R173, R182). -/
def Dev.fireHeadgate (d : Dev) (mask : Nat) (b : Bool) (smp : Nat) : Dev :=
  match d.frameOf d.fn with
  | none => d
  | some s =>
    if d.role != .frontEnd then d
    else
      let x := min smp (s.samples - 1)
      (setBits mask 48).foldl (fun d n =>
        let u := s.unit n b
        if u.typ ≠ 5 then d
        else if s.accept.contains n then d.updChan n fun c => { c with hg := c.hg ++ [(s.fn, x, b)] }
        else (if u.cap then d.refuse n s.fn x 3 else d).mark n s.fn (s.base + x) (!b) b false) d

/-! ### Dead time (R176) -/

/-- The dead intervals [from, to) of a channel by reason, for the settings of a frame. -/
def Chan.deadSpans (c : Chan) (s : FStat) (n : Nat) (reason : Nat) : List (Int × Int) :=
  match reason with
  | 3 => if s.calib.contains n then [(s.base, s.base + s.samples)] else []
  | 0 => if s.acq.contains n then [(c.since, c.since + s.capPre n)] else []
  | 1 => c.caps.filterMap fun k => k.deadFrom.map fun f => (f, k.last + 1)
  | _ => c.caps.filterMap fun k => if k.stage = 0 then none else some (k.last + 1, k.last + 17)

/-- Dead samples of a frame by reason: each sample once, under the first reason in the order calibration, fill, capture, re-arm. -/
def Chan.deadCount (c : Chan) (s : FStat) (n : Nat) : List (Nat × Nat) :=
  let inSpan (l : List (Int × Int)) (i : Int) : Bool := l.any fun p => decide (p.1 ≤ i) && decide (i < p.2)
  let order := [3, 0, 1, 2]
  let spans := (order.map fun r => (r, (c.deadSpans s n r).filter fun p => decide (p.1 < s.base + s.samples) && decide (s.base < p.2))).filter fun p => !p.2.isEmpty
  if spans.isEmpty then []
  else
    let why := (List.range s.samples).filterMap fun k => (spans.find? fun p => inSpan p.2 (s.base + k)).map (·.1)
    (order.map fun r => (r, (why.filter (· == r)).length)).filter fun p => p.2 != 0

/-- The dead samples of channel `n` in a frame counted (R176). -/
def Dev.deadChan (d : Dev) (s : FStat) (n : Nat) : Dev :=
  if (s.unit n false).capturing || (s.unit n true).capturing then
    let l := (d.chan n).deadCount s n
    if l.isEmpty then d
    else
      let tot := l.foldl (fun t p => putT (4 * n + p.1) ((getT 0 (4 * n + p.1) t + p.2) % 2 ^ 48) t) d.acq.dead
      let d := { d with acq := { d.acq with dead := tot } }
      d.updFrame s.fn fun s =>
        { s with dead := putT n ((l.map (·.2)).sum) s.dead, reasons := l.foldl (fun m p => setBit m p.1) s.reasons }
  else d

/-- A channel's old captures, anchors and decisions forgotten once no frame still to be worked needs them. -/
def Dev.pruneChan (d : Dev) (n : Nat) (base : Int) : Dev :=
  let c := d.chan n
  if c.caps.isEmpty && c.decided.isEmpty && c.anchors.isEmpty && c.hg.isEmpty then d
  else d.updChan n fun c =>
    { c with caps := c.caps.filter fun k => k.stage != 2 || decide (base ≤ k.last + 17)
             decided := c.decided.filter fun x => decide (base ≤ x)
             anchors := (c.anchors.filter fun a => decide (a < base)).reverse.take 1 ++ c.anchors.filter fun a => decide (base ≤ a)
             hg := c.hg.filter fun p => decide (d.fn < p.1 + 8) }

/-- The work on the frame that is two boundaries old: mask tests and dead samples (log entry 16). -/
def Dev.settleFrame (d : Dev) : Dev :=
  match d.acq.fstats.find? fun s => s.age == 2 with
  | none => d
  | some s =>
    let d := (List.range 12).foldl (fun d q => d.maskFrame s q) d
    let d := (List.range 48).foldl (fun d n => d.deadChan s n) d
    let d := (List.range 48).foldl (fun d n => d.pruneChan n (s.base + s.samples)) d
    let acq := { d.acq with
      stops := d.acq.stops.filter fun p => match p.resume with | some r => decide (s.base < r + 8192) | none => true
      rearms := d.acq.rearms.filter fun p => decide (s.base + s.samples < p.2) }
    { d with acq := acq }

/-- TRG_DEAD_CAPTURE (R195). -/
def Dev.deadCapture (d : Dev) : Dev :=
  let n := d.get Reg.TRG_DEAD_SEL_CHAN
  let v := if n < 48 then getT 0 (4 * n + d.get Reg.TRG_DEAD_SEL_REASON) d.acq.dead else 0
  (d.set Reg.TRG_DEAD_LO_COUNT_LO v).set Reg.TRG_DEAD_HI_COUNT_HI (v / 2 ^ 32)

def execTrgDeadCapture (s : State) : Res := onDev (fun d => whenD d.up Dev.deadCapture d) s

/-- FILLED of every channel at a boundary (R191). -/
def Dev.fillStatus (d : Dev) : Dev :=
  match d.frameOf d.fn with
  | none => d
  | some s => s.acq.foldl (fun d n => d.setB (Reg.CH_TRG_STATUS_FILLED n) (decide (s.capPre n + (d.chan n).since ≤ s.base))) d

end Sys2Proof.Machine
end

