-- ==== Sys2Proof/Machine/Records.lean ====
section
/-! DEFINITION. Records of a front-end (06_records_and_record_memory.md): hit records from captures, stream records from slots, the
record FIFO, frame summaries, flush and diagnostic read, and the budget check of streams (R183). -/
namespace Sys2Proof.Machine

/-! ### Reads of stored words -/

/-- Bank word index of word `a` of the record FIFO's ring: banks 8 and 9 (R222), through the pages that replace retired ones
(R426). -/
def Dev.fifoWordAt (d : Dev) (a : Nat) : Nat :=
  getT (1024 + a / 1024) (1024 + a / 1024) d.flt.remap * 1024 + a % 1024

/-- What a read of one stored word finds, with the errors and the device after it (R414, R416, R432): `count` records are written
off where it is uncorrectable. -/
structure MemRead where
  kind : ByteRead
  flips : Nat
  ecc : List (Nat × Nat)
  dev : Dev

/-- LOCATION of a word in R423: a bank word as it is, a small-memory word as memory and word. -/
def errLoc (idx : Nat) : Nat := if 2 ^ 22 ≤ idx then idx - 2 ^ 22 else idx

/-- A read of stored word `idx` (R414, R416): a correctable byte is corrected, written back, counted and logged; an uncorrectable word
is counted, logged with the records it costs, and sets DOUBLE_BYTE. `flips` are the data bits that still differ. -/
def memRead (ecc : List (Nat × Nat)) (d : Dev) (idx count : Nat) : MemRead :=
  let e := getT 0 idx ecc
  let small := decide (2 ^ 22 ≤ idx)
  let unit := if small then 2 else 1
  match wordRead e with
  | .clean => { kind := .clean, flips := e % 2 ^ 32, ecc := ecc, dev := d }
  | .corrected =>
    let e' := correctWord e
    let d := (d.addWrap Reg.FLT_COUNT_MEM_CORRECTED 1).logError unit 1 1 false (memDetail e) (errLoc idx) (firstBad e) 0
    { kind := .corrected, flips := e' % 2 ^ 32, ecc := putZ idx e' ecc, dev := d }
  | .uncorrectable =>
    let d := (d.addWrap Reg.FLT_COUNT_MEM_UNCORRECTABLE 1).logError unit 2 (if count = 0 then 0 else 2) true (memDetail e)
      (errLoc idx) (firstBad e) count
    { kind := .uncorrectable, flips := 0, ecc := ecc, dev := d.breach Reg.FLT_STATUS_DOUBLE_BYTE }

/-! ### Time fields -/

/-- Frame code and record time offset of an instant in fifths for a record of frame `fn` (R48, R211). -/
def timeField (fn : Nat) (t5 : Option Int) : Nat :=
  match t5 with
  | none => 2 * 2 ^ 20
  | some t =>
    let f := floorDiv t (5 * frameUnits)
    let ofs := (floorDiv (t - 5 * frameUnits * f) 320).toNat
    pack [(0, 20, ofs), (20, 2, if f = fn then 0 else if f < fn then 3 else 1)]

/-- Record time offset of sample `i` from the boundary of its own frame (R48, R94). -/
def Chan.ofsOf (c : Chan) (i : Int) : Nat :=
  match c.ringAt i with
  | some r => (floorDiv (instant5 r.fn r.exc r.cyc r.u (i - r.first).toNat - 5 * frameUnits * r.fn) 320).toNat
  | none => 0

/-! ### Seams (R100, R212) -/

/-- The seams of a run of range bits: indices after the first at which the range differs from the one before. -/
def seamsOf (l : List Bool) : List (Nat × Bool) :=
  ((l.zip (l.drop 1)).zipIdx.filter fun p => p.1.1 != p.1.2).map fun p => (p.2 + 1, p.1.2)

/-- A seam entry. -/
def seamEntry (p : Nat × Bool) : Nat := pack [(0, 13, p.1), (13, 1, b2n p.2)]

/-! ### Assembly -/

/-- W3 to W8, extension and seam words of a hit record (R210 to R212). -/
def hitHead (c : Chan) (k : Cap) (smp : List Sample) : List Nat :=
  let seams := seamsOf (smp.map (·.low))
  let n := seams.length
  [pack [(0, 12, k.xi), (12, 1, b2n k.srcB), (13, 1, b2n k.ua), (14, 1, b2n k.ub), (15, 2, k.kind), (17, 3, k.quality),
      (20, 1, b2n (smp.any (·.clip))), (21, 1, b2n (smp.any (·.prov))), (22, 1, b2n k.cut), (24, 4, k.exts.length)],
    pack [(0, 20, c.ofsOf k.x), (20, 12, (k.x - k.start).toNat)],
    pack [(0, 14, smp.length), (14, 6, min 63 k.more), (20, 6, min 32 n), (26, 1, b2n ((smp.head?.map (·.low)).getD false)),
      (27, 1, b2n (decide (32 < n)))],
    timeField k.fn (if k.kind = 2 then none else k.tx),
    timeField k.fn (if k.quality = 0 ∨ k.quality = 3 ∨ k.quality = 5 then k.tdc.map (5 * ·) else none),
    timeField k.fn (some k.fused)]
  ++ packHalves (k.exts.map fun e => pack [(0, 13, e.1), (13, 1, b2n e.2.1), (14, 1, b2n e.2.2)])
  ++ packHalves ((seams.take 32).map seamEntry)

/-- A setting of CMP_CTRL for records that closed in frame `fn`: the one in force there (R245). -/
def Dev.cmpVal (d : Dev) (fn : Nat) (f : Fld) : Nat :=
  match d.frameOf fn with
  | some s => s.val f
  | none => d.eff f

/-- Whether compression is on for a record (R245). -/
def Dev.cmpOn (d : Dev) (a : Asm) : Bool := d.cmpVal a.cfgFn (if a.typ = 1 then Reg.CMP_CTRL_HIT_EN else Reg.CMP_CTRL_STREAM_EN) != 0

/-- The frame in which a capture closes: that of its last sample (R245). -/
def Dev.closeFn (d : Dev) (k : Cap) : Nat := ((d.frameAt k.last).map (·.fn)).getD d.fn

/-- An assembled record with its raw payload; it uses no reference (R256). -/
def Asm.raw (a : Asm) : Asm := { a with enc := 1, out := wordsOf (rawPayload a.width a.smp), engine := none, ref := none }

/-- Words of a finished record (R205, R210, R214). -/
def Dev.asmWords (d : Dev) (a : Asm) : List Nat :=
  let len := 3 + a.head.length + a.out.length + 1
  [recW0 a.typ a.enc a.chan (d.devnumAt a.fn), recW1 len a.seq, a.fn % 2 ^ 32] ++ natsOf a.head ++ natsOf a.out
    ++ [checkWord a.width a.smp]

/-- Engines in service and free, lowest first (R262, R265). -/
def Dev.freeEngines (d : Dev) : List Nat :=
  (setBits (d.get Reg.CMP_STATUS_ENC_ENGINES) 8).filter fun e => d.rcd.asm.all fun a => a.engine != some e

/-- Whether a record in compression waits for an engine and may still enter one in frame `fn`: until the end of the frame after its assembly
(R262). -/
def Asm.waits (a : Asm) (fn : Nat) : Bool := a.engine.isNone && decide (fn ≤ a.asmFn + 1)

/-- The position of the record that enters an engine next: stream records first, then in close order (R262). -/
def nextEntry (fn : Nat) (l : List Asm) : Option Nat :=
  match firstIdx? (fun a => a.waits fn && a.typ == 2) 0 l with
  | some i => some i
  | none => firstIdx? (fun a => a.waits fn) 0 l

/-- Free engines take records while any waits. -/
def enterList (fn : Nat) (l : List Asm) : List Nat → List Asm
  | [] => l
  | e :: t => match nextEntry fn l with
    | some i => enterList fn (l.modify i fun a => { a with engine := some e }) t
    | none => l

/-- The same for the device. -/
def Dev.enterEngines (d : Dev) : Dev := d.setOpen (enterList d.fn d.rcd.asm d.freeEngines) d.rcd.ready

/-- An assembled record goes to compression, or raw to the FIFO's door (R245). -/
def Dev.submit (d : Dev) (a : Asm) : Dev :=
  if d.cmpOn a && !a.smp.isEmpty then
    let d := d.addWrap Reg.CMP_WORDS_IN_WORDS_IN (rawLen a.width a.smp.length)
    ({ d with rcd := { d.rcd with asm := d.rcd.asm ++ [a] } }).enterEngines
  else d.setOpen d.rcd.asm (d.rcd.ready ++ [a.raw])

/-- The capture of channel `m` with the window of capture `k`. -/
def Chan.twin (c : Chan) (k : Cap) : Option Cap := c.caps.find? fun x => x.fn == k.fn && x.start == k.start && x.last == k.last

/-- Channels of n's quad below it that may serve a record of it that closed in frame `fn` as reference (R245, R256). -/
def Dev.lowerPeers (d : Dev) (n fn : Nat) : List Nat :=
  if bitOf (d.cmpVal fn Reg.CMP_CTRL_XCH_QUADS) (n / 4) then rangeFrom (n / 4 * 4) n else []

/-- The lowest hit record of the same window that is still before the FIFO and uses no reference (R256). -/
def Dev.findRef (d : Dev) (n : Nat) (k : Cap) : Option (Nat × Nat) :=
  (d.lowerPeers n (d.closeFn k)).findSome? fun m =>
    ((d.rcd.asm ++ d.rcd.ready).find? fun a => a.typ == 1 && a.chan == m && a.fn == k.fn && a.first == k.start
      && a.smp.length == (k.last - k.start + 1).toNat && a.ref.isNone).map fun a => (m, a.seq)

/-- RECORD_ASSEMBLED (R210, R409, R410): the oldest closed capture of channel `n` becomes a hit record; a poisoned capture or a
mismatch of the two copies writes it off. Equal windows of a quad are assembled in channel order (log entry 25). -/
def Dev.assembleHit (d : Dev) (n : Nat) (differ : Bool) : Dev :=
  let c := d.chan n
  match c.caps.find? fun k => k.stage != 2 with
  | none => d
  | some k =>
    if !d.up || d.role != .frontEnd || k.stage != 1 then d
    else if (d.lowerPeers n (d.closeFn k)).any fun m => match (d.chan m).twin k with
      | some x => x.stage != 2
      | none => false
    then d
    else
      let smp := c.slice k.start (k.last - k.start + 1).toNat
      let bad := (smp ++ c.slice (k.x - 2) 4).any (·.pois)
      let d := d.updChan n fun c => { c with caps := updFirst (fun y => y.x == k.x) (fun y => { y with stage := 2, off := y.off || bad }) c.caps }
      let d := if bad && !k.off then d.logCount 5 n else d
      if !d.recording k.fn then d
      else
        let s := d.nextSeq n
        let seq := s.1 % 65536
        let d := s.2
        let d := if bad && !k.off then k.refs.foldl (fun d f => d.lose (d.refusedLoss n f)) d else d
        let d := if differ then d.logError 6 8 2 false 0 0 0 1 else d
        if bad || differ || k.off then d.loseOwn n k.fn 8 seq false
        else match d.lostReason n k.fn seq false with
          | some r => d.loseOwn n k.fn r seq false
          | none =>
            d.submit { typ := 1, chan := n, slot := 0, fn := k.fn, seq := seq, head := wordsOf (hitHead c k smp), smp := smp.map (·.v),
                       width := 16, first := k.start, asmFn := d.fn, cfgFn := d.closeFn k, engine := none, ref := d.findRef n k, enc := 0, out := [] }

def execRecordAssembled (n : Nat) (differ : Bool) (s : State) : Res := onUnit 48 n (fun d => d.assembleHit n differ) s

/-! ### Streams (R109, R110, R181, R182, R214) -/

/-- One output sample: value, flags, first input sample with its frame and index there, and its range. -/
structure OutSample where
  v : Int
  clip : Bool
  prov : Bool
  pois : Bool
  first : Int
  fn : Nat
  idx : Nat
  ofs : Nat
  low : Bool
  deriving DecidableEq, Repr

/-- Value of a span (R109). -/
def spanValue (fmt log2d : Nat) (sum : Int) : Int :=
  let n : Int := 2 ^ log2d
  if fmt = 1 then floorDiv (256 * sum + n / 2) n else floorDiv (sum + n / 2) n

/-- The decimator over the samples of one frame: slot state, outputs newest first, seams newest first (output index in this record, to
low). `k` is the index of the next sample in frame `fn`, `base` the number of its sample 0. -/
def decimate (fmt log2d fn : Nat) (base : Int) (ofs : Int → Nat) : Nat → List Sample → Slot → List OutSample → List (Nat × Bool) →
    Slot × List OutSample × List (Nat × Bool)
  | _, [], s, out, seams => (s, out, seams)
  | k, x :: t, s, out, seams =>
    let s := if s.cnt = 0 then
        { s with sum := 0, clip := false, prov := false, pois := false, first := base + k, firstFn := fn, firstIdx := k,
                 firstOfs := ofs (base + k), firstLow := x.low }
      else s
    let seam := x.low != s.prevLow && !(s.cnt == 0 && out.isEmpty)
    let s := { s with sum := s.sum + x.v, cnt := s.cnt + 1, clip := s.clip || x.clip, prov := s.prov || x.prov, pois := s.pois || x.pois,
                      prevLow := x.low, seams := if seam then s.seams ++ [(base + k, x.low)] else s.seams }
    if s.cnt = 2 ^ log2d then
      let o : OutSample := { v := spanValue fmt log2d s.sum, clip := s.clip, prov := s.prov, pois := s.pois, first := s.first,
                             fn := s.firstFn, idx := s.firstIdx, ofs := s.firstOfs, low := s.firstLow }
      decimate fmt log2d fn base ofs (k + 1) t { s with cnt := 0, sum := 0, seams := [] } (o :: out)
        ((s.seams.map fun p => (out.length, p.2)).reverse ++ seams)
    else decimate fmt log2d fn base ofs (k + 1) t s out seams

/-- LOG2D as it acts (R109: 2 to 16). -/
def log2dOf (v : Nat) : Nat := clampN 2 16 v

/-- Marks of a record: output index of the span that holds x, 0x1FFF where it ends later (R215). -/
def markWords (log2d : Nat) (outs : List OutSample) (ms : List (Int × Bool × Bool × Bool)) : List Nat :=
  (sortBy (fun a b => decide (a.1 < b.1)) ms).take 16 |>.map fun m =>
    let j := (firstIdx? (fun o => decide (o.first ≤ m.1) && decide (m.1 < o.first + 2 ^ log2d)) 0 outs).getD 0x1FFF
    pack [(0, 13, j), (13, 1, b2n m.2.1), (14, 1, b2n m.2.2.1), (15, 1, b2n m.2.2.2)]

/-- W3 to W5, marks and seams of a stream record (R214, R215). -/
def streamHead (k : Nat) (j : Job) (gap : Bool) (outs : List OutSample) (seams : List (Nat × Bool)) : List Nat :=
  let n := outs.length
  let f := outs.head?
  [pack [(0, 2, k), (2, 1, j.fmt), (3, 5, j.log2d), (8, 10, n), (18, 1, b2n (outs.any (·.clip))), (19, 1, b2n (outs.any (·.prov))),
      (20, 1, b2n gap), (21, 1, b2n (decide (16 < j.marks.length))), (22, 5, min 16 j.marks.length)],
    (match f with
      | some o => pack [(0, 20, o.ofs), (20, 12, o.idx)]
      | none => 0),
    pack [(0, 5, (match f with | some o => j.fn - o.fn | none => 0)), (20, 6, min 32 seams.length),
      (26, 1, (match f with | some o => b2n o.low | none => 0)), (27, 1, b2n (decide (32 < seams.length)))]]
  ++ packHalves (markWords j.log2d outs j.marks) ++ packHalves ((seams.take 32).map seamEntry)

/-- The stream record a slot owes for a frame, made two frames after it closed (log entry 16): a gap, or the decimator run over the
frame; written off where an output has a poisoned sample in its span (R409). -/
def Dev.streamRecord (d : Dev) (k : Nat) (j : Job) : Dev :=
  let c := d.chan j.chan
  let sl := d.slot k
  let fr := c.ring.find? fun r => r.fn == j.fn
  let gap := match d.frameOf j.fn with
    | some s => !s.acq.contains j.chan || fr.isNone
    | none => true
  let r : Slot × List OutSample × List (Nat × Bool) :=
    if gap then ({ sl with cnt := 0, sum := 0, seams := [], lastFmt := none }, [], [])
    else match fr with
      | none => (sl, [], [])
      | some f =>
        let same := !j.start && sl.lastFmt == some (j.chan, j.log2d, j.fmt)
        let low0 := (f.smp.head?.map (·.low)).getD false
        let s0 := if same then sl else { sl with cnt := 0, sum := 0, seams := [], prevLow := low0, lastFmt := some (j.chan, j.log2d, j.fmt) }
        decimate j.fmt j.log2d j.fn f.first c.ofsOf 0 f.smp s0 [] []
  let outs := r.2.1.reverse
  let seams := r.2.2.reverse
  let d := d.setSlot k { r.1 with jobs := sl.jobs.filter fun x => x.fn != j.fn }
  if !d.recording j.fn then d
  else
    let q := d.nextSeq (100 + k)
    let seq := q.1 % 65536
    let d := q.2
    if outs.any (·.pois) then (d.logCount 5 j.chan).loseOwn j.chan j.fn 8 seq true
    else match d.lostReason j.chan j.fn seq true with
      | some why => d.loseOwn j.chan j.fn why seq true
      | none =>
        d.submit { typ := 2, chan := j.chan, slot := k, fn := j.fn, seq := seq, head := wordsOf (streamHead k j gap outs seams),
                   smp := outs.map (·.v), width := if j.fmt = 1 then 24 else 16, first := j.fn, asmFn := d.fn, cfgFn := j.fn, engine := none, ref := none,
                   enc := 0, out := [] }

/-- The slots' work at a boundary: records due, the present frame's record begun, ACTIVE and GAP (R181, R202). -/
def Dev.streamBoundary (d : Dev) : Dev :=
  (List.range 4).foldl (fun d k =>
    let sl := d.slot k
    let d := if sl.jobs.isEmpty then d else d.setSlot k { sl with jobs := sl.jobs.map fun j => { j with age := j.age + 1 } }
    let d := ((d.slot k).jobs.filter fun j => decide (3 ≤ j.age)).foldl (fun d j => d.streamRecord k j) d
    let on := d.role == .frontEnd && d.effB (Reg.TRG_STREAM_CFG_ENABLE k)
    let ch := d.eff (Reg.TRG_STREAM_CFG_CHAN k)
    let was := d.flag (Reg.TRG_STREAM_STATUS_ACTIVE k)
    let d := d.setB (Reg.TRG_STREAM_STATUS_ACTIVE k) on
    if on then
      let j : Job := { fn := d.fn, start := !was, chan := ch, log2d := log2dOf (d.eff (Reg.CH_DEC_LOG2D ch)), fmt := d.eff (Reg.CH_DEC_FMT ch), marks := [], age := 0 }
      let gap := match d.frameOf d.fn with
        | some s => !s.acq.contains ch
        | none => true
      let sl := d.slot k
      (d.setSlot k { sl with jobs := sl.jobs ++ [j] }).setB (Reg.TRG_STREAM_STATUS_GAP k) gap
    else d.setB (Reg.TRG_STREAM_STATUS_GAP k) false) d

/-- raw of R183 for a channel's decimation. -/
def rawWords (log2d fmt : Nat) : Nat :=
  let n := (2510 + 2 ^ log2d - 1) / 2 ^ log2d
  (n * (if fmt = 1 then 24 else 16) + 31) / 32

/-- Settings of a slot as a word of TRG_STREAM_CFG (R201). -/
structure SlotCfg where
  enable : Bool
  chan : Nat
  lane : Nat
  reserve : Nat
  deriving DecidableEq, Repr

def slotCfg (w : Nat) : SlotCfg := { enable := bitOf w 0, chan := bits w 1 6, lane := bits w 7 2, reserve := bits w 16 9 }

/-- A slot's settings as last written. -/
def Dev.slotWritten (d : Dev) (k : Nat) : SlotCfg :=
  { enable := d.flag (Reg.TRG_STREAM_CFG_ENABLE k), chan := d.get (Reg.TRG_STREAM_CFG_CHAN k), lane := d.get (Reg.TRG_STREAM_CFG_LANE k),
    reserve := d.get (Reg.TRG_STREAM_CFG_RESERVE k) }

/-- The first failed check of R183, or 0. -/
def Dev.budgetReason (d : Dev) (k : Nat) (c : SlotCfg) : Nat :=
  let others := ((List.range 4).filter (· != k)).map d.slotWritten
  if !c.enable then 0
  else if d.role != .frontEnd then 1
  else if others.any fun o => o.enable && o.chan == c.chan then 2
  else if 48 ≤ c.chan || !d.flag (Reg.CH_CTRL_ENABLE c.chan) then 3
  else if !bitOf (d.get Reg.GLB_ROLE_CFG_UPLINK_MASK) c.lane then 4
  else if c.reserve < (rawWords (log2dOf (d.get (Reg.CH_DEC_LOG2D c.chan))) (d.get (Reg.CH_DEC_FMT c.chan)) + 1) / 2 then 5
  else if 320 < c.reserve + ((others.filter fun o => o.enable && o.lane == c.lane).map (·.reserve)).sum then 6
  else 0

/-- A TRG_STREAM_CFG write (R183, R201): checked, then accepted and queued, or refused; an event says which. It answers whether it
passed. -/
def Dev.writeStreamCfg (d : Dev) (src : Source) (k w : Nat) : Bool × Dev :=
  let c := slotCfg w
  if d.role != .frontEnd then (true, d)
  else
    let r := d.budgetReason k c
    if r = 0 then (true, (d.plainWrite src (0x3700 + 8 * k) w).trgEvent 2 [k])
    else
      let floor := if c.chan < 48 then (rawWords (log2dOf (d.get (Reg.CH_DEC_LOG2D c.chan))) (d.get (Reg.CH_DEC_FMT c.chan)) + 1) / 2 else 0
      let d := (d.setB Reg.TRG_BUDGET_STATUS_REFUSED true).set Reg.TRG_BUDGET_STATUS_REASON r
      (false, (((d.set Reg.TRG_BUDGET_STATUS_SLOT k).set Reg.TRG_BUDGET_STATUS_FLOOR floor)).trgEvent 3 [k, r])

def execStreamCfgWrite (src : Source) (k : Nat) (val : Word) (s : State) : Res :=
  onUnit 4 k (fun d => d.gated src (0x3700 + 8 * k) fun d => (d.writeStreamCfg src k val.toNat).2) s

/-- A slot stopped by the device: ENABLE cleared, written and in force. -/
def Dev.stopSlot (d : Dev) (k : Nat) : Dev :=
  (d.setBoth (Reg.TRG_STREAM_CFG_ENABLE k) 0).setB (Reg.TRG_STREAM_STATUS_ACTIVE k) false

/-- Slots whose lane the mask now in force leaves out stop (R183, R184). -/
def Dev.laneGone (d : Dev) : Dev :=
  (List.range 4).foldl (fun d k =>
    if d.effB (Reg.TRG_STREAM_CFG_ENABLE k) && !bitOf (d.eff Reg.GLB_ROLE_CFG_UPLINK_MASK) (d.eff (Reg.TRG_STREAM_CFG_LANE k)) then
      ((d.stopSlot k).setB (Reg.TRG_STREAM_STATUS_LANE_GONE k) true).trgEvent 4 [k]
    else d) d

/-! ### The record FIFO -/

/-- Whether a record stands before `a` in its channel or slot and is still before the FIFO (R208, R262). -/
def Asm.before (x a : Asm) : Bool :=
  x.typ == a.typ && x.chan == a.chan && x.slot == a.slot && (decide (x.fn < a.fn) || (x.fn == a.fn && decide (x.first < a.first)))

/-- Records that depend on `a` (R257). -/
def Asm.isDep (x a : Asm) : Bool := x.typ == 1 && a.typ == 1 && x.fn == a.fn && x.ref == some (a.chan, a.seq)

/-- Whether a higher channel of a reference's quad has a capture of the same window that is not assembled yet (R257). -/
def Dev.peersPending (d : Dev) (a : Asm) : Bool :=
  a.typ == 1 && bitOf (d.cmpVal a.cfgFn Reg.CMP_CTRL_XCH_QUADS) (a.chan / 4) && (rangeFrom (a.chan + 1) (a.chan / 4 * 4 + 4)).any fun n =>
    (d.chan n).caps.any fun k => k.stage != 2 && k.fn == a.fn && k.start == a.first && (k.last - k.start + 1).toNat == a.smp.length

/-- Whether a ready record may enter the FIFO now: in the order of its channel, and a reference with its whole run, each member in the order of
its own channel. -/
def Dev.mayEnter (d : Dev) (a : Asm) : Bool :=
  let all := d.rcd.asm ++ d.rcd.ready
  (a :: d.rcd.ready.filter fun x => x.isDep a).all (fun y => all.all fun x => !x.before y) && !d.peersPending a
    && (match a.ref with | some r => !(all.any fun x => x.typ == 1 && x.chan == r.1 && x.seq == r.2 && x.fn == a.fn) | none => true)
    && d.rcd.asm.all (fun x => !x.isDep a)

/-- One record entered, with its index (R224). -/
def Dev.enterRec (d : Dev) (a : Asm) : Dev := d.fifoPush (d.asmWords a) a.fn none true

/-- RECORD_FIFO_WRITE (R224, R225, R257): the next ready record closes into the FIFO, with its run; without room outside the reserve, or
where a member must be dropped with an earlier record of its channel (R220), the run is dropped whole. -/
def Dev.fifoWrite (d : Dev) : Dev :=
  match d.rcd.ready.find? d.mayEnter with
  | none => d
  | some a =>
    if !d.up || d.role != .frontEnd then d
    else
      let deps := sortBy (fun x y => decide (x.chan < y.chan)) (d.rcd.ready.filter fun x => x.isDep a)
      let run := a :: deps
      let d := d.setOpen d.rcd.asm (d.rcd.ready.filter fun x => !(run.contains x))
      let words := (run.map fun x => (d.asmWords x).length).sum
      let reason := match run.findSome? fun x => d.lostReason x.chan x.fn x.seq (x.typ == 2) with
        | some r => some r
        | none => if d.rcd.pool < d.fifoPages words + d.reservePages then some 1 else none
      run.foldl (fun d x =>
        match reason with
        | some r => (d.loseOwn x.chan x.fn r x.seq (x.typ == 2)).addWrap Reg.REC_FIFO_STATS_DROPPED (b2n (r == 1))
        | none => d.enterRec x) d

def execRecordFifoWrite (s : State) : Res := onDev Dev.fifoWrite s

/-! ### Frame summaries -/

/-- The 12-bit dead counts packed (R217). -/
def deadWords (dead : List (Nat × Nat)) : List Nat :=
  let v := (List.range 48).foldl (fun a n => a + min 4095 (getT 0 n dead) * 2 ^ (12 * n)) 0
  (List.range 18).map fun k => v / 2 ^ (32 * k) % 2 ^ 32

/-- SLIP of a summary (R216, R279): a frame of 249 or 251 reference cycles. -/
def FStat.slipped (s : FStat) : Bool := s.cyc == 249 || s.cyc == 251

/-- A frame summary without its counts, which are written when it is sent (R216). -/
def summaryWords (s : FStat) (seq : Nat) : List Nat :=
  let dt := dtWords (s.fn / 1000000) (s.fn % 1000000) 0
  [recW0 3 0 63 (s.val Reg.GLB_DEVICE_NUMBER_DEVNUM), recW1 27 seq, s.fn % 2 ^ 32, nth dt 0, nth dt 1,
    nth dt 2 + pack [(24, 3, s.clkState), (27, 1, b2n s.slipped), (28, 1, s.selected), (29, 1, b2n s.stepped)], 0,
    pack ([(0, 12, s.samples), (12, 4, s.reasons)] ++ match s.refused with
      | some r => [(16, 1, 1), (17, 6, r.2.1), (23, 2, r.2.2)]
      | none => []),
    (match s.refused with
      | some r => pack [(0, 20, s.sampleOfs r.1), (20, 12, r.1)]
      | none => 0)]
  ++ deadWords s.dead

/-- Whether work on records of frame `fn` is still before the FIFO. -/
def Dev.frameBusy (d : Dev) (fn : Nat) : Bool :=
  (d.rcd.asm ++ d.rcd.ready).any (fun a => a.fn == fn) || (List.range 4).any (fun k => (d.slot k).jobs.any fun j => j.fn == fn)
    || (List.range 48).any fun n => (d.chan n).caps.any fun k => k.stage != 2 && k.fn == fn

/-- FRAME_SUMMARY_WRITE (R216, R225): the oldest frame without its summary, once its last record is in the FIFO; with no room in the
reserve it waits, ahead of any later summary or loss record. -/
def Dev.summaryWrite (d : Dev) : Dev :=
  if !d.up || d.role != .frontEnd then d
  else match d.acq.fstats.find? fun s => !s.summed && !s.gone && d.recording s.fn with
    | none => d
    | some s =>
      if s.age < 2 || d.frameBusy s.fn then d
      else if d.rcd.pool < d.fifoPages 27 then
        if d.rcd.sumWait.contains s.fn then d else { d with rcd := { d.rcd with sumWait := d.rcd.sumWait ++ [s.fn] } }
      else
        let d := { d with rcd := { d.rcd with sumWait := d.rcd.sumWait.filter (· != s.fn) } }
        let q := d.nextSeq 200
        (q.2.fifoPush (summaryWords s (q.1 % 65536)) s.fn none true).updFrame s.fn fun s => { s with summed := true }

def execFrameSummaryWrite (s : State) : Res := onDev Dev.summaryWrite s

/-! ### Flush -/

/-- A write of FLUSH (R227, R234). -/
def Dev.writeFlush (d : Dev) : Dev := if d.role == .frontEnd || d.role == .cell then d.requestFlush 7 else d

def execFlush (src : Source) (s : State) : Res := onDev (fun d => d.gated src 0x7004 Dev.writeFlush) s

/-- FLUSH_EXECUTE (R227): a flush requested takes effect at the reader's record boundary; closed and open records go. -/
def Dev.flushExecute (d : Dev) : Dev :=
  match d.rcd.flush with
  | none => d
  | some reason =>
    if !d.up then d
    else
      let open' := (d.rcd.asm.filter fun a => a.engine.isSome) ++ d.rcd.ready
      let d := (d.setOpen (d.rcd.asm.filter fun a => a.engine.isNone) []).flushNow reason
      let d := d.addWrap Reg.REC_FIFO_FLUSHES_WRITTEN_OFF open'.length
      let deps := d.rcd.asm.filter fun a => open'.any fun r => a.isDep r
      let d := d.setOpen (d.rcd.asm.filter fun a => !(deps.contains a)) d.rcd.ready
      ((open' ++ deps).foldl (fun d a => d.loseOwn a.chan a.fn reason a.seq (a.typ == 2)) d).enterEngines

def execFlushExecute (s : State) : Res := onDev Dev.flushExecute s

/-! ### Pipeline mismatch (R409) -/

/-- Samples of a channel in one core cycle of the present frame are poisoned. -/
def Dev.pipelineMismatch (d : Dev) (n cyc : Nat) : Dev :=
  if d.up && (d.chan n).acquiring && decide (cyc < 2 * d.tm.clk.cyc) then
    (d.updChan n fun c => { c with pois := if c.pois.contains cyc then c.pois else cyc :: c.pois }).logError 5 8 2 false 0 n 0 0
  else d

def execPipelineMismatch (n cyc : Nat) (s : State) : Res := onUnit 48 n (fun d => d.pipelineMismatch n cyc) s

end Sys2Proof.Machine
end

