-- ==== Sys2Proof/Machine/Compress.lean ====
section
/-! DEFINITION. The encoder-verify engines (07_predictive_compression.md): COMPRESS_VERIFY_DONE and RECORD_BYPASS. -/
namespace Sys2Proof.Machine

/-- The predictors allowed for a record that closed in frame `fn` (R245, R255): P0 always, P1 and P2 by PRED_MASK, P3 and P4 with a reference
as well. -/
def Dev.allowedPreds (d : Dev) (fn : Nat) (ref : Bool) : List Nat :=
  let m := d.cmpVal fn Reg.CMP_CTRL_PRED_MASK
  (List.range 5).filter fun p => p == 0 || (bitOf m p && (decide (p ≤ 2) || ref))

/-- Samples of the reference of a record in compression (R256). -/
def Dev.refSamples (d : Dev) (a : Asm) : Option (List Int) :=
  match a.ref with
  | none => none
  | some r => ((d.rcd.asm ++ d.rcd.ready).find? fun x => x.typ == 1 && x.chan == r.1 && x.seq == r.2 && x.fn == a.fn).map (·.smp)

/-- What the verify decoder finds in the emitted words (R259, R261): the cause of a failure, or none. -/
def verifyCause (a : Asm) (ref : Option (List Int)) (ws : List Nat) : Option Nat :=
  match preambleCause ws with
  | some c => some c
  | none =>
    if (preambleRef ws).isSome && preambleRef ws != a.ref then some 6
    else match checked a.width (checkWord a.width a.smp)
        (decodePayload a.width a.smp.length (if (preambleRef ws).isSome then ref else none) ws) with
      | .bad c => some c
      | .ok _ => none

/-- A record out of an engine, or past it, becomes ready. -/
def Dev.finish (d : Dev) (old new : Asm) : Dev :=
  let d := d.setOpen (d.rcd.asm.filter fun x => x != old) (d.rcd.ready ++ [new])
  (d.addWrap Reg.CMP_WORDS_OUT_WORDS_OUT new.out.length).enterEngines

/-- A verify failure (R259, R268): counted with its cause. -/
def Dev.verifyFail (d : Dev) (cause : Nat) : Dev :=
  (d.addWrap Reg.CMP_VERIFY_STATS_VERIFY_FAIL 1).set Reg.CMP_VERIFY_STATS_LAST_CAUSE cause

/-- COMPRESS_VERIFY_DONE (R259, R260): engine `e` is done with its record. `emitted` is what its encoder emitted where an upset made it
something else than R255's choice. -/
def Dev.compressDone (d : Dev) (e : Nat) (emitted : Option (List Word)) : Dev :=
  match d.rcd.asm.find? fun a => a.engine == some e with
  | none => d
  | some a =>
    if !d.up then d
    else
      let ref := d.refSamples a
      let own := encodeRecord a.width (d.allowedPreds a.cfgFn ref.isSome) (if ref.isSome then a.ref else none) a.smp (ref.getD [])
      let ws := match emitted with
        | some x => natsOf x
        | none => own
      if rawLen a.width a.smp.length ≤ ws.length then (d.finish a a.raw).addWrap Reg.CMP_RAW_STATS_EXPANDED 1
      else match verifyCause a ref ws with
        | some c => ((d.finish a a.raw).verifyFail c).logError 7 6 3 false 0 e 0 0
        | none =>
          let d := (d.finish a { a with enc := 2, out := wordsOf ws, engine := none }).addWrap Reg.CMP_REC_STATS_COMPRESSED 1
          if (preambleRef ws).isSome then d.addWrap Reg.CMP_REC_STATS_DEPENDENT 1 else d

def execCompressVerifyDone (e : Nat) (emitted : Option (List Word)) (s : State) : Res := onUnit 8 e (fun d => d.compressDone e emitted) s

/-- The oldest record that has not entered an engine by the end of the frame after its assembly, seen from frame `fn`, is written raw (R262). -/
def Dev.bypassIn (d : Dev) (fn : Nat) : Dev :=
  match d.rcd.asm.find? fun a => a.engine.isNone && decide (a.asmFn + 1 < fn) with
  | none => d
  | some a => if !d.up then d else (d.finish a a.raw).addWrap Reg.CMP_RAW_STATS_BYPASS 1

/-- RECORD_BYPASS (R262). -/
def Dev.bypass (d : Dev) : Dev := d.bypassIn d.fn

def execRecordBypass (s : State) : Res := onDev Dev.bypass s

/-- An encoder-verify engine leaves service (R260, R421, R430): a record it holds goes raw and counts as a verify failure, cause 0x3. -/
def Dev.engineOut (d : Dev) (e : Nat) : Dev :=
  let d := d.set Reg.CMP_STATUS_ENC_ENGINES (clearBit (d.get Reg.CMP_STATUS_ENC_ENGINES) e)
  match d.rcd.asm.find? fun a => a.engine == some e with
  | none => d
  | some a => (d.finish a a.raw).verifyFail 3

end Sys2Proof.Machine
end

