-- ==== Sys2Proof/Machine/House.lean ====
section
/-! DEFINITION. Housekeeping sensors (13_housekeeping_sensors.md): conversions and their discards, bursts, blanking, self-calibration,
results. Phases are those of HK_STATUS.PHASE: 0 stopped, 1 lead, 2 discarding, 3 converting, 4 rest, 5 blanked, 6 self-calibration,
7 no reference. -/
namespace Sys2Proof.Machine

/-- The word of a register at reset. -/
def resetWord (a : Nat) : Nat := ((fieldsAt a).map fun f => fieldAt f.lo f.width f.reset).sum

/-- The setting in force at address `a` (R456, R475). -/
def Dev.hkCfg (d : Dev) (a : Nat) : Nat := getT (resetWord a) a d.hk.cfg

/-- A field of the settings in force. -/
def Dev.hkF (d : Dev) (f : Fld) : Nat := bits (d.hkCfg f.addr) f.lo f.width

/-- A signed field of the settings in force. -/
def Dev.hkI (d : Dev) (f : Fld) : Int := toSigned f.width (d.hkF f)

/-- The phase. -/
def Dev.hkPhase (d : Dev) : Nat := d.get Reg.HK_STATUS_PHASE

/-- Whether the core domain, to which the housekeeping converter belongs, is in service (R19, R478). -/
def Dev.hkRuns (d : Dev) : Bool := d.up

/-- Whether the converter works in bursts (R454). -/
def Dev.bursts (d : Dev) : Bool := d.hkF Reg.HK_EXC_CTRL_PULSED == 1 && d.hkF Reg.HK_CONV_CFG_EXC_USE == 1

/-- Whether MODE turns the excitation on (R453, R469). -/
def Dev.excMode (d : Dev) : Bool := d.hkF Reg.HK_EXC_CTRL_MODE == 1 || d.hkF Reg.HK_EXC_CTRL_MODE == 2

/-- KEEP as it acts (R469). -/
def Dev.hkKeep (d : Dev) : Nat := max 1 (d.hkF Reg.HK_EXC_CTRL_KEEP)

/-- The phase that blanking or a self-calibration interrupted, else the phase (R464: neither has a part in HKMON). -/
def Dev.monPhase (d : Dev) : Nat :=
  match d.hkPhase, d.hk.blanked with
  | 5, some 6 => d.hk.calFrom
  | 5, some p => p
  | 6, _ => d.hk.calFrom
  | p, _ => p

/-- Whether HKMON tracks its inputs (R463, R465): under an excitation that is always on, or pulsed from a lead's end to its burst's end. -/
def Dev.monTracks (d : Dev) : Bool :=
  d.hkF Reg.HK_EXC_CTRL_PULSED == 0 || (d.bursts && [2, 3, 7].contains d.monPhase)

/-- HKMON after a change (R464, R465, R474): 0 V while ENABLE is 0 or MODE is off, tracking, or the last value tracked. -/
def Dev.setMon (d : Dev) : Dev :=
  let mon : HkMon :=
    if !d.flag Reg.HK_MON_CFG_ENABLE || !d.excMode then .ground
    else if d.monTracks then .tracking (d.get Reg.HK_MON_CFG_MP) (d.get Reg.HK_MON_CFG_MN) (d.get Reg.HK_MON_CFG_MGAIN)
    else match d.hk.mon with
      | .tracking mp mn gain => .holding mp mn gain
      | m => m
  { d with hk := { d.hk with mon := mon } }

/-- V(HKMON) of R464 in units of half the inputs' unit (microvolts in, half microvolts out), clamped to 0.05 V to 1.75 V: from the ball
voltages `(SNS_P, SNS_N, HKA)` present while it tracks, and those at the end of the tracking while it holds. -/
def HkMon.volts (m : HkMon) (now held : Int × Int × List Int) : Int :=
  let at_ := fun (v : Int × Int × List Int) mp mn gain =>
    clampI 100000 3500000 (2 * v.2.1 + (v.1 - v.2.1) + 2 ^ (gain + 1) * ((v.2.2[mp]?).getD 0 - (v.2.2[mn]?).getD 0))
  match m with
  | .ground => 0
  | .tracking mp mn gain => at_ now mp mn gain
  | .holding mp mn gain => at_ held mp mn gain

/-- EXC_ON after a change (R454, R457, R459, R463), and HKMON with it: blanking and self-calibration leave a pulsed excitation as it is. -/
def Dev.setExc (d : Dev) : Dev :=
  let on :=
    if !d.excMode then false
    else if d.hkF Reg.HK_EXC_CTRL_PULSED = 0 then true
    else if !d.bursts then false
    else match d.hkPhase with
      | 0 => false
      | 4 => false
      | 5 => d.flag Reg.HK_STATUS_EXC_ON
      | 6 => d.flag Reg.HK_STATUS_EXC_ON
      | _ => true
  (d.setB Reg.HK_STATUS_EXC_ON on).setMon

/-- What is under way began, or would have begun, in this frame since the role was fixed. -/
def Dev.hkMark (d : Dev) (since : Nat) : Dev := { d with hk := { d.hk with since := since } }

/-- Whether `ns` nanoseconds can have passed since what is under way began: a frame is 1,000 of them. -/
def Dev.hkOver (d : Dev) (ns : Nat) : Bool := decide (1000 * d.hk.since + ns < 1000 * d.pw.frames + 1000)

/-- Length of a conversion in nanoseconds (R451, R468): R modulator cycles of 128. -/
def Dev.convNs (d : Dev) : Nat := 256 * clampN 977 390625 (d.hkF Reg.HK_RATE_DEC_HALF)

/-- A lead or rest in nanoseconds (R470). -/
def usNs (v : Nat) : Nat := 1000 * clampN 1 100000 v

/-- Length of a self-calibration in nanoseconds (R459): 144 conversions at DEC_HALF 977. -/
def calNs : Nat := 144 * 256 * 977

/-- The phase changed, and the excitation with it. -/
def Dev.hkGo (d : Dev) (phase : Nat) : Dev := ((d.set Reg.HK_STATUS_PHASE phase).hkMark d.pw.frames).setExc

/-- The first 3 conversions from here on are discarded (R455), or counted as blanked (R457); while HKBLANK is asserted they wait. -/
def Dev.hkDiscard (d : Dev) (blank : Bool) : Dev :=
  if d.pins.hkBlank then ({ d with hk := { d.hk with disc := 3, discBlank := true, blanked := some 2 } }).hkGo 5
  else ({ d with hk := { d.hk with disc := 3, discBlank := blank } }).hkGo 2

/-- A new burst, or continuous conversion from the start (R454, R455, R463). -/
def Dev.hkStart (d : Dev) : Dev :=
  let d := { d with hk := { d.hk with keep := d.hkKeep, blanked := none } }
  if !d.effB Reg.HK_CTRL_ENABLE then d.hkGo 0 else if d.bursts then d.hkGo 1 else d.hkDiscard false

/-- Settings put into force. -/
def Dev.hkPut (d : Dev) (l : List (Nat × Word)) : Dev :=
  { d with hk := { d.hk with cfg := l.foldl (fun c p => putT p.1 p.2.toNat c) d.hk.cfg } }

/-- Whether putting them into force changes a field that R455 names: HK_CONV_CFG, HK_RATE, HK_EXC_CTRL. -/
def Dev.hkChanges (d : Dev) (l : List (Nat × Word)) : Bool :=
  let e := d.hkPut l
  [0xB004, 0xB008, 0xB00C].any fun a => d.hkCfg a != e.hkCfg a

/-! ### The analogue side (R449, R450, R453, R458) -/

/-- What an input of the converter is connected to. -/
inductive HkInput where
  | hka (i : Nat)
  | snsP | snsN | ground | vin32 | core2 | analogue2 | vio2 | ref2 | ptat | excCurrent | shorted
  deriving DecidableEq, Repr

/-- The input a code selects (R449). -/
def hkInput (code : Nat) : HkInput :=
  if code < 16 then .hka code
  else ([.snsP, .snsN, .ground, .ground, .ground, .ground, .ground, .ground, .vin32, .core2, .analogue2, .vio2, .ref2, .ptat, .excCurrent,
    .shorted] : List HkInput).getD (code - 16) .ground

/-- Whether the positive input is an internal one, which ignores N_SEL and takes the internal reference (R449). -/
def Dev.hkInternal (d : Dev) : Bool := decide (24 ≤ d.hkF Reg.HK_CONV_CFG_P_SEL)

/-- The negative input of a conversion, none where N_SEL is ignored (R449). -/
def Dev.hkNegative (d : Dev) : Option HkInput :=
  let n := d.hkF Reg.HK_CONV_CFG_N_SEL
  if d.hkInternal then none else some (if 24 ≤ n then .ground else hkInput n)

/-- Whether a conversion is ratiometric, its reference V_SNS (R449, R450). -/
def Dev.hkRatio (d : Dev) : Bool := d.hkF Reg.HK_CONV_CFG_REF_SEL == 1 && !d.hkInternal

/-- The filter output of an ideal converter (R450, R452), from the voltage across the inputs and the reference in one unit. -/
def Dev.hkIdeal (d : Dev) (v vRef : Int) : Int := floorDiv (8388608 * 2 ^ d.hkF Reg.HK_CONV_CFG_GAIN * v) vRef

/-- What the excitation driver does (R453): nothing, V_SNS held in steps of 0.5 mV, or a current in µA. -/
inductive ExcDrive where
  | off
  | voltage (halfMv : Nat)
  | current (ua : Nat)
  deriving DecidableEq, Repr

/-- The drive in force: LEVEL outside its mode's range acts as the nearest end (R453). -/
def Dev.excDrive (d : Dev) : ExcDrive :=
  let level := d.hkF Reg.HK_EXC_CTRL_LEVEL
  if !d.flag Reg.HK_STATUS_EXC_ON then .off
  else if d.hkF Reg.HK_EXC_CTRL_MODE = 1 then .voltage (clampN 200 3200 level) else .current (clampN 10 2500 level)

/-- The open-wire current in µA into the positive input and out of the negative one (R458). -/
def Dev.owCurrent (d : Dev) : Int :=
  let i : Int := if d.hkF Reg.HK_CONV_CFG_OW_MAG = 1 then 10 else 1
  if d.hkF Reg.HK_CONV_CFG_OW_EN = 0 then 0 else if d.hkF Reg.HK_CONV_CFG_OW_DIR = 1 then -i else i

/-! ### Writes -/

/-- A write of HK_CONV_CFG, HK_RATE, HK_EXC_CTRL, HK_EXC_LEAD or HK_EXC_REST waits for the frame boundary (R456); one of a calibration
factor for the conversion boundary (R475). -/
def Dev.writeHk (d : Dev) (addr w : Nat) : Dev :=
  let fs := fieldsAt addr
  let d := d.writeFields fs w
  let v := w32 (d.readFields fs)
  if 0xB040 ≤ addr then { d with hk := { d.hk with atConv := d.hk.atConv ++ [(addr, v)] } }
  else { d with hk := { d.hk with atFrame := d.hk.atFrame ++ [(addr, v)] } }

/-- Whether a self-calibration runs. -/
def Dev.calRuns (d : Dev) : Bool := d.hkPhase == 6 || d.hk.blanked == some 6

/-- SELFCAL (R459, R460). -/
def Dev.hkSelfcal (d : Dev) : Dev :=
  if d.calRuns then d.setB Reg.HK_STATUS_CAL_REFUSED true else { d with hk := { d.hk with calReq := true } }

/-- A write of HK_CTRL (R466). -/
def Dev.writeHkCtrl (d : Dev) (src : Source) (w : Nat) : Dev :=
  let d := d.plainWrite src 0xB000 w
  if bitOf w 1 then d.hkSelfcal else d

def execHkEnable (src : Source) (val : Word) (s : State) : Res :=
  onDev (fun d => d.gated src 0xB000 fun d => d.writeHkCtrl src val.toNat) s

/-- HK_SELFCAL: a write of HK_CTRL that leaves ENABLE and EVT_EVERY as they are. -/
def execHkSelfcal (src : Source) (s : State) : Res := onDev (fun d => d.gated src 0xB000 Dev.hkSelfcal) s

/-- A write of HK_MON_CFG (R474): at once. -/
def Dev.writeHkMon (d : Dev) (w : Nat) : Dev := (d.writeFields (fieldsAt 0xB028) w).setMon

def execHkMonCfgWrite (src : Source) (val : Word) (s : State) : Res :=
  onDev (fun d => d.gated src 0xB028 fun d => d.writeHkMon val.toNat) s

/-! ### Conversions -/

/-- A self-calibration begins (R459). -/
def Dev.hkCalBegin (d : Dev) : Dev :=
  let p := d.hkPhase
  let d := { d with hk := { d.hk with calReq := false, calFrom := p } }
  if d.pins.hkBlank then (({ d with hk := { d.hk with blanked := some 6 } }).hkGo 5).hkMark 0 else d.hkGo 6

/-- The conversion boundary that follows a conversion of phase 2 or 3 (R456, R475): settings that wait take effect, and a burst that has
all its results rests. -/
def Dev.hkConvBoundary (d : Dev) : Dev :=
  let l := d.hk.atConv
  let change := d.hkChanges l
  let was := d.bursts
  let d := ({ d with hk := { d.hk with atConv := [] } }).hkPut l
  if d.hk.calReq then d.hkCalBegin
  else if d.bursts && d.hk.keep == 0 then d.hkGo 4
  else if d.bursts != was then d.hkStart
  else if change then d.hkDiscard false
  else d.setExc

/-- Before the clamp (R452): floor((raw − OFS[g]) × GAIN_F[g] / 2^22). -/
def Dev.hkExact (d : Dev) (raw : Int) : Int :=
  let g := d.hkF Reg.HK_CONV_CFG_GAIN
  floorDiv ((raw - d.hkI (Reg.HK_CAL_OFS_OFS g)) * (d.hkF (Reg.HK_CAL_GAIN_GAIN_F g) : Int)) 4194304

/-- The words HK_RESULT and HK_RESULT_INFO of a kept conversion (R452, R461, R472). -/
def Dev.hkWords (d : Dev) (raw : Int) (ovld refLow limit : Bool) : Nat × Nat :=
  let x := d.hkExact raw
  let v := clampI (-8388608) 8388607 x
  (pack [(0, 24, ofSigned 24 v), (24, 1, b2n (ovld || x != v)), (25, 1, b2n (d.hkF Reg.HK_CONV_CFG_REF_SEL == 1 && refLow)),
      (26, 1, b2n (!d.flag Reg.HK_STATUS_CAL_VALID)), (27, 1, d.hkF Reg.HK_CONV_CFG_OW_EN), (28, 1, b2n limit)],
    pack [(0, 16, d.hk.live.2 + 1), (16, 5, d.hkF Reg.HK_CONV_CFG_P_SEL), (21, 5, d.hkF Reg.HK_CONV_CFG_N_SEL),
      (26, 3, d.hkF Reg.HK_CONV_CFG_GAIN), (29, 1, d.hkF Reg.HK_CONV_CFG_REF_SEL)])

/-- HK_CONVERSION_END (R452, R455, R456, R459): the conversion is discarded, or its result kept for the next frame boundary (R28). -/
def Dev.hkConvEnd (d : Dev) (raw : Int) (ovld refLow limit : Bool) : Dev :=
  if !d.hkRuns || !d.hkOver d.convNs then d
  else if d.hkPhase = 2 then
    let d := d.hkMark d.pw.frames
    let d := if d.hk.discBlank then d.addWrap Reg.HK_COUNTS_BLANKED 1 else d.addWrap Reg.HK_COUNTS_DISCARDED 1
    let d := { d with hk := { d.hk with disc := d.hk.disc - 1 } }
    (if d.hk.disc = 0 then d.hkGo 3 else d).hkConvBoundary
  else if d.hkPhase = 3 then
    let d := d.hkMark d.pw.frames
    if d.hk.calReq then (d.addWrap Reg.HK_COUNTS_DISCARDED 1).hkConvBoundary
    else
      let keep := if d.bursts then d.hk.keep - 1 else d.hk.keep
      ({ d with hk := { d.hk with post := some (d.hkWords raw ovld refLow limit), keep := keep } }).hkConvBoundary
  else d

def execHkConversionEnd (raw : Int) (ovld refLow limit : Bool) (s : State) : Res :=
  onDev (fun d => d.hkConvEnd raw ovld refLow limit) s

/-- HK_LEAD_END (R454, R455): the lead of a burst is over. -/
def Dev.hkLeadEnd (d : Dev) : Dev :=
  if d.hkRuns && d.hkPhase == 1 && d.hkOver (usNs (d.hkF Reg.HK_EXC_LEAD_LEAD_US)) then d.hkDiscard false else d

def execHkLeadEnd (s : State) : Res := onDev Dev.hkLeadEnd s

/-- HK_REST_END (R454): the next burst begins. -/
def Dev.hkRestEnd (d : Dev) : Dev :=
  if d.hkRuns && d.hkPhase == 4 && d.hkOver (usNs (d.hkF Reg.HK_EXC_REST_REST_US)) then d.hkStart else d

def execHkRestEnd (s : State) : Res := onDev Dev.hkRestEnd s

/-! ### Self-calibration -/

/-- GAIN_F of a pair of means (R459), rounded to nearest with halves away from zero; none where the means are equal. -/
def hkGainF (m : Int × Int) : Option Int :=
  let n : Int := 26388279066624
  let q := m.2 - m.1
  if q = 0 then none
  else if 0 < q then some (floorDiv (2 * n + q) (2 * q)) else some (-(floorDiv (2 * n - q) (-2 * q)))

/-- Whether gain factors are taken (R460): OFS within ±131,072, GAIN_F within 5 % of 0x0040_0000. -/
def hkFactorsOk (m : Int × Int) : Bool :=
  match hkGainF m with
  | none => false
  | some f => decide (m.1.natAbs ≤ 131072) && decide (20 * (f - 4194304).natAbs ≤ 4194304)

/-- HK_SELFCAL_DONE (R459, R460): new factors of the gains that pass, in force and as read; conversions resume. -/
def Dev.hkCalDone (d : Dev) (means : List (Int × Int)) : Dev :=
  if !d.hkRuns || d.hkPhase != 6 || means.length != 8 || !d.hkOver calNs then d
  else
    let good := means.zipIdx.filter fun p => hkFactorsOk p.1
    let failed := maskOf ((means.zipIdx.filter fun p => !hkFactorsOk p.1).map (·.2))
    let rest := d.hk.atConv.filter fun p => decide (p.1 < 0xB040)
    let d := good.foldl (fun d p =>
      let o := ofSigned 24 p.1.1
      let f := ((hkGainF p.1).getD 0).toNat
      ((d.set (Reg.HK_CAL_OFS_OFS p.2) o).set (Reg.HK_CAL_GAIN_GAIN_F p.2) f).hkPut
        [((Reg.HK_CAL_OFS_OFS p.2).addr, w32 o), ((Reg.HK_CAL_GAIN_GAIN_F p.2).addr, w32 f)]) d
    let d := (rangeFrom 0 8).foldl (fun d g =>
      (d.set (Reg.HK_CAL_OFS_OFS g) (d.hkF (Reg.HK_CAL_OFS_OFS g))).set (Reg.HK_CAL_GAIN_GAIN_F g) (d.hkF (Reg.HK_CAL_GAIN_GAIN_F g))) d
    let was := d.bursts
    let d := ({ d with hk := { d.hk with atConv := [] } }).hkPut rest
    let d := ((d.setB Reg.HK_STATUS_CAL_DONE true).setB Reg.HK_STATUS_CAL_VALID true).raise 10 2 [failed]
    if !d.effB Reg.HK_CTRL_ENABLE then d.hkGo 0
    else if d.bursts == was && (d.hk.calFrom == 2 || d.hk.calFrom == 3) then
      if d.bursts && d.hk.keep == 0 then d.hkGo 4 else d.hkDiscard false
    else d.hkStart

def execHkSelfcalDone (means : List (Int × Int)) (s : State) : Res := onDev (fun d => d.hkCalDone means) s

/-! ### Blanking, limits, reference -/

/-- HKBLANK_ASSERT (R457): the conversion in progress is discarded and counted; a lead or rest goes on. -/
def Dev.hkBlankOn (d : Dev) : Dev :=
  if d.pins.hkBlank then d
  else
    let p := d.hkPhase
    let d := { d with pins := { d.pins with hkBlank := true } }
    if d.hkRuns && (p == 2 || p == 3 || p == 6) then
      let ran := d.pw.frames - d.hk.since
      let d := (({ d with hk := { d.hk with blanked := some p } }).addWrap Reg.HK_COUNTS_BLANKED 1).hkGo 5
      if p = 6 then d.hkMark ran else d
    else d

def execHkblankAssert (s : State) : Res := onDev Dev.hkBlankOn s

/-- HKBLANK_RELEASE (R457). -/
def Dev.hkBlankOff (d : Dev) : Dev :=
  let d := { d with pins := { d.pins with hkBlank := false } }
  if d.hkPhase = 5 then
    let b := d.hk.blanked
    let d := { d with hk := { d.hk with blanked := none } }
    if b = some 6 then (d.hkGo 6).hkMark (d.pw.frames - d.hk.since) else d.hkDiscard true
  else d

def execHkblankRelease (s : State) : Res := onDev Dev.hkBlankOff s

/-- EXC_LIMIT (R453, R462): the driver of an excitation that is on cannot hold its output. -/
def Dev.excLimit (d : Dev) : Dev :=
  if d.hkRuns && d.flag Reg.HK_STATUS_EXC_ON then
    let was := d.flag Reg.HK_STATUS_EXC_LIMIT
    let d := d.setB Reg.HK_STATUS_EXC_LIMIT true
    if was then d else d.raise 10 4 [d.readFields (fieldsAt 0xB00C)]
  else d

def execExcLimit (s : State) : Res := onDev Dev.excLimit s

/-- The modulator stops without a reference (R463); a self-calibration cut short starts anew when it returns. -/
def Dev.hkNoRef (d : Dev) : Dev :=
  if d.hkPhase = 7 then d
  else
    let cal := d.calRuns || d.hk.calReq
    let run := d.hkPhase != 0
    let d := { d with hk := { d.hk with calReq := cal, blanked := none } }
    if run || cal then d.hkGo 7 else d

/-- The reference is back (R463). -/
def Dev.hkRefBack (d : Dev) : Dev := if d.hkPhase = 7 then d.hkStart else d

/-! ### The frame boundary -/

/-- The newest result posted (R28, R461, R462), with its events. -/
def Dev.hkPost (d : Dev) : Dev :=
  match d.hk.post with
  | none => d
  | some p =>
    let n := d.hk.evtN + 1
    let k := d.get Reg.HK_CTRL_EVT_EVERY
    let low := bitOf p.1 25
    let fire := k != 0 && decide (k ≤ n)
    let quiet := match d.hk.lastLowEvt with
      | some f => decide (d.fn < f + 1000)
      | none => false
    let d := { d with hk := { d.hk with post := none, live := p, evtN := if fire then 0 else n } }
    let d := if fire then d.raise 10 1 [p.1, p.2] else d
    let d := if low then d.setB Reg.HK_STATUS_REF_LOW true else d
    if low && !quiet then ({ d with hk := { d.hk with lastLowEvt := some d.fn } }).raise 10 3 [p.2] else d

/-- HK_RESULT_CAPTURE (R397, R472): a read of HK_RESULT captures both registers. -/
def Dev.hkCapture (d : Dev) : Dev :=
  let d := (fieldsAt 0xB01C).foldl (fun d f => d.set f (bits d.hk.live.1 f.lo f.width)) d
  (fieldsAt 0xB020).foldl (fun d f => d.set f (bits d.hk.live.2 f.lo f.width)) d

def execHkResultCapture (s : State) : Res := onDev (fun d => whenD (d.up || d.boot == .held) Dev.hkCapture d) s

/-- The converter's share of a frame boundary (R28, R456, R459, R466). -/
def Dev.hkBoundary (d : Dev) : Dev :=
  let d := d.hkPost
  let p := d.hkPhase
  let en := d.effB Reg.HK_CTRL_ENABLE
  let d := if !en && p != 0 && p != 7 && !d.calRuns then d.hkGo 0
           else if en && p == 0 && d.hk.calReq == false then (if d.pins.refPresent then d.hkStart else d.hkGo 7) else d
  let p := d.hkPhase
  let l := d.hk.atFrame
  let d := { d with hk := { d.hk with atFrame := [], atConv := d.hk.atConv ++ l } }
  if p = 2 ∨ p = 3 ∨ p = 6 ∨ d.calRuns then d
  else
    let l := d.hk.atConv
    let e := ({ d with hk := { d.hk with atConv := [] } }).hkPut l
    let change := [0xB004, 0xB008, 0xB00C, 0xB010, 0xB014].any fun a => d.hkCfg a != e.hkCfg a
    let d := e
    if d.hk.calReq && p != 7 && d.pins.refPresent then d.hkCalBegin
    else if p = 1 ∧ change = true then d.hkStart
    else if change then d.setExc
    else d

end Sys2Proof.Machine
end

