-- ==== Sys2Proof/Machine/Line.lean ====
section
/-! DEFINITION. The 8b/10b line code of the lanes (R348). The manual names the code and its running disparity; the code tables are those in
general use (PRESUMED, log entry 62). A character is a number of ten bits, the bit sent first on top. -/
namespace Sys2Proof.Machine

/-- The six bits of D.x at negative running disparity. -/
def six : List Nat :=
  [0b100111, 0b011101, 0b101101, 0b110001, 0b110101, 0b101001, 0b011001, 0b111000] ++
  [0b111001, 0b100101, 0b010101, 0b110100, 0b001101, 0b101100, 0b011100, 0b010111] ++
  [0b011011, 0b100011, 0b010011, 0b110010, 0b001011, 0b101010, 0b011010, 0b111010] ++
  [0b110011, 0b100110, 0b010110, 0b110110, 0b001110, 0b101110, 0b011110, 0b101011]

/-- The four bits of D.x.y at negative running disparity, the alternative for y = 7 apart. -/
def four : List Nat := [0b1011, 0b1001, 0b0101, 0b1100, 0b1101, 0b1010, 0b0110, 0b1110]

/-- The four bits of K.28.y at negative running disparity. -/
def fourK : List Nat := [0b1011, 0b0110, 0b1010, 0b1100, 0b1101, 0b0101, 0b1001, 0b0111]

/-- Ones among the low `n` bits. -/
def ones (n g : Nat) : Nat := popCount g n

/-- The six bits of a character at running disparity `rd` (true: positive). Six bits that are not balanced, and 111000, are complemented. -/
def sixOf (rd k : Bool) (x : Nat) : Nat :=
  let g := if k then 0b001111 else nth six x
  if rd && (ones 6 g != 3 || g == 0b111000) then 63 - g else g

/-- Whether D.x.7 takes the alternative four bits. -/
def altSeven (rd : Bool) (x : Nat) : Bool := if rd then [11, 13, 14].contains x else [17, 18, 20].contains x

/-- The four bits of a character at the running disparity after its six. -/
def fourOf (rd k : Bool) (x y : Nat) : Nat :=
  if k then (if rd then 15 - nth fourK y else nth fourK y)
  else
    let g := if y = 7 ∧ altSeven rd x = true then 0b0111 else nth four y
    if rd && (ones 4 g != 2 || g == 0b1100) then 15 - g else g

/-- Running disparity after a group of `n` bits: more ones make it positive, fewer negative, and of the balanced groups the two that stand at
one disparity only fix it. -/
def rdAfter (n : Nat) (rd : Bool) (g : Nat) : Bool :=
  if n < 2 * ones n g then true
  else if 2 * ones n g < n then false
  else if g = (if n = 6 then 0b000111 else 0b0011) then true
  else if g = (if n = 6 then 0b111000 else 0b1100) then false
  else rd

/-- A byte, or a control character, coded at running disparity `rd`. -/
def lineCode (rd k : Bool) (b : Nat) : Nat :=
  let g := sixOf rd k (b % 32)
  g * 16 + fourOf (rdAfter 6 rd g) k (b % 32) (b / 32 % 8)

/-- Running disparity after a character. -/
def rdOf (rd : Bool) (c : Nat) : Bool := rdAfter 4 (rdAfter 6 rd (c / 16 % 64)) (c % 16)

/-- What a character stands for: a control character or not, and the byte. -/
abbrev Symbol := Bool × Nat

/-- The byte whose code at running disparity `rd` is `c`. -/
def decodeAt (rd : Bool) (c : Nat) : Option Symbol :=
  let g := c / 16 % 64
  let rd4 := rdAfter 6 rd g
  let find (k : Bool) (x : Nat) : Option Symbol :=
    ((List.range 8).find? fun y => fourOf rd4 k x y == c % 16).map fun y => (k, x + 32 * y)
  if g = sixOf rd true 28 then find true 28
  else match (List.range 32).find? fun x => sixOf rd false x == g with
    | some x => find false x
    | none => none

/-- Symbols coded in order from running disparity `rd`, and the running disparity after them. -/
def sendChars : Bool → List Symbol → List Nat × Bool
  | rd, [] => ([], rd)
  | rd, s :: t =>
    let c := lineCode rd s.1 s.2
    let r := sendChars (rdOf rd c) t
    (c :: r.1, r.2)

/-- A received character: what it stands for and whether it is an error, of the code or of the running disparity. -/
def readChar (rd : Bool) (c : Nat) : Symbol × Bool :=
  match decodeAt rd c with
  | some s => (s, false)
  | none => ((decodeAt (!rd) c).getD (false, 0), true)

/-- Received characters in order, and the running disparity after them. -/
def readChars : Bool → List Nat → List (Symbol × Bool) × Bool
  | rd, [] => ([], rd)
  | rd, c :: t => let r := readChars (rdOf rd c) t; (readChar rd c :: r.1, r.2)

/-- K28.5, the comma. -/
def comma : Symbol := (true, 0xBC)

/-- K28.0, the fill. -/
def fillChar : Symbol := (true, 0x1C)

/-- The running disparity at which reception starts: the one kept, or the one at which the first character is a comma. -/
def startRd (rd : Option Bool) (cs : List Nat) : Bool :=
  match rd with
  | some b => b
  | none => cs.head? == some (lineCode true true 0xBC)

/-- The code errors of a lane frame's characters (R348): errors of the code and of the running disparity, and control characters other than
the comma in front and the fill at the end. -/
def frameErrors (cs : List (Symbol × Bool)) : Nat :=
  let fill := (cs.reverse.takeWhile fun c => c.1 == fillChar).length
  ((cs.zipIdx.filter fun p =>
    p.1.2 || (p.1.1.1 && !(p.1.1 == comma && p.2 == 0) && !decide (cs.length ≤ p.2 + fill)))).length

/-- The code errors of characters that are no lane frame: errors of the code and of the running disparity, and control characters other than
the fill and the comma of a training pattern (R348). -/
def noiseErrors (cs : List (Symbol × Bool)) : Nat :=
  (cs.filter fun c => c.2 || (c.1.1 && c.1 != comma && c.1 != fillChar)).length

/-- The words of a lane frame's characters, least significant byte first (R348), the fill after them left out. -/
def lineWords (cs : List (Symbol × Bool)) : List Nat :=
  let body := (cs.reverse.dropWhile fun c => c.1 == fillChar).reverse
  wordsOfBytes (body.map fun c => c.1.2)

/-- The symbols of a lane frame (R348, R350): its bytes, the first of them the comma, and the fill after its words. -/
def frameSymbols (ws : List Nat) (fill : Nat) : List Symbol :=
  comma :: ((bytesOf ws).drop 1).map (fun b => (false, b)) ++ List.replicate fill fillChar

/-- The training pattern (R348): `n` pairs of K28.5 and D10.2. -/
def trainingSymbols (n : Nat) : List Symbol := (List.replicate n [comma, (false, 0x4A)]).flatten

/-- The characters of a lane frame that leave a transmitter whose running disparity is `rd` (R348), all inverted where `inv` says so (R375). -/
def sentChars (rd inv : Bool) (ws : List Nat) (fill : Nat) : List Nat :=
  let cs := (sendChars rd (frameSymbols ws fill)).1
  if inv then cs.map fun c => 1023 - c else cs

end Sys2Proof.Machine
end

