-- ==== Sys2Proof/Machine/Uplink.lean ====
section
/-! DEFINITION. The uplink scheduler of a front-end or cell device (R223, R226, R278, R280): which lane a record leaves on, when it may
begin, withdrawal at the deadline, and the diagnostic read of the record FIFO (R232). -/
namespace Sys2Proof.Machine

/-- A meaning that also reads or writes stored words. -/
def onEcc (f : List (Nat × Nat) → Dev → List (Nat × Nat) × Dev) (s : State) : Res :=
  let r := f s.ecc s.dev
  .next { s with ecc := r.1, dev := r.2 }

/-! ### Uplinks (R280) -/

/-- Index of an uplink lane in the numbering of GLB_ROLE_CFG (R40). -/
def Dev.upIndex (d : Dev) (l : Nat) : Nat := l - (d.role.uplinks.headD 0)

/-- Group of uplink lane `l` (R291). -/
def Dev.upGroup (d : Dev) (l : Nat) : Nat := b2n (bitOf (d.get Reg.MRG_UPLINK_CFG_GROUP) (d.upIndex l))

/-- Whether MIRROR in force finds both groups with an enabled uplink. -/
def Dev.mirrored (d : Dev) : Bool :=
  d.effB Reg.MRG_UPLINK_CFG_MIRROR && d.maskedUplinks.any (fun l => d.upGroup l == 0) && d.maskedUplinks.any (fun l => d.upGroup l == 1)

/-- The groups of enabled uplinks that each take a copy of every record. -/
def Dev.upGroups (d : Dev) : List (List Nat) :=
  if d.mirrored then [d.maskedUplinks.filter fun l => d.upGroup l == 0, d.maskedUplinks.filter fun l => d.upGroup l == 1]
  else [d.maskedUplinks]

/-- Whether uplink `l` passes the partner rule of its group: its partner is numbered and equals that of the group's lowest uplink. -/
def Dev.partnerOk (d : Dev) (g : List Nat) (l : Nat) : Bool :=
  let x := d.lane l
  let low := d.lane (g.headD 0)
  x.partnerNum && low.partnerNum && x.partnerDev == low.partnerDev

/-- The lanes of a group that carry data now. -/
def Dev.dataLanes (d : Dev) (g : List Nat) : List Nat := g.filter fun l => d.partnerOk g l && d.inData l

/-- PARTNER_SPLIT and GROUP_EMPTY (R280, R292): an enabled uplink whose partner is known is left out. -/
def Dev.splitStatus (d : Dev) : Dev :=
  if d.role != .frontEnd && d.role != .cell then d
  else
    let split := d.upGroups.any fun g => g.any fun l => (d.lane l).heard && !d.partnerOk g l
    let was := d.flag Reg.MRG_STATUS_PARTNER_SPLIT
    let d := (d.setB Reg.MRG_STATUS_PARTNER_SPLIT split).setB Reg.MRG_STATUS_GROUP_EMPTY (d.effB Reg.MRG_UPLINK_CFG_MIRROR && !d.mirrored)
    if split && !was then d.raiseOpen 6 2 [] else d

/-! ### Space (R226) -/

/-- Frames after its own by which a record must have left: 16 in a front-end, 48 in a cell device. -/
def Dev.deadline (d : Dev) : Nat := if d.role == .cell then 48 else 16

/-- Stream reservation of lane `l`: RESERVE of the slots enabled on it (R183, R353). -/
def Dev.reserveOn (d : Dev) (l : Nat) : Nat :=
  if d.role != .frontEnd then 0
  else (((List.range 4).filter fun k => d.effB (Reg.TRG_STREAM_CFG_ENABLE k) && d.eff (Reg.TRG_STREAM_CFG_LANE k) == l).map fun k =>
    d.eff (Reg.TRG_STREAM_CFG_RESERVE k)).sum

/-- Words a lane has yet to send in a region. -/
def Lane.backlog (x : Lane) (stream : Bool) : Nat := ((x.tx.filter fun t => t.stream == stream).map fun t => t.words.length).sum

/-- Frames from the present one to the deadline of frame `fn`, while lane `l` is sending a lane frame in it. -/
def Dev.framesLeft (d : Dev) (l fn : Nat) : Nat := (fn + d.deadline + 1 - d.fn) - b2n (d.lane l).openLf.isNone

/-- Record space of a lane frame (R226). -/
def Dev.recSpace (d : Dev) (l : Nat) : Nat := 485 - d.reserveOn l

/-- Words of each lane frame's record space that hit and stream records leave to summaries and loss records (R31): one own summary and one
loss record (log entry 60). -/
def Dev.heldBack (d : Dev) : Nat := if d.role == .cell then 14 else 33

/-- Whether `k` words of a record of frame `fn` can still leave lane `l` in time (R226); `acct`: a summary or loss record, for which the space
held back stands too. -/
def Dev.fits (d : Dev) (l fn k : Nat) (stream acct : Bool) : Bool :=
  let per := if stream then d.reserveOn l else if acct then d.recSpace l else d.recSpace l - d.heldBack
  decide ((d.lane l).backlog stream + k ≤ d.framesLeft l fn * per)

/-- Whether a record that begins now on lane `l` has its first word in the lane frame being sent. -/
def Dev.startsNow (d : Dev) (l : Nat) (stream : Bool) : Bool :=
  decide ((d.lane l).backlog stream < if stream then d.reserveOn l else d.recSpace l)

/-- When a record can begin in the record region of lane `l`: the lane frame and the payload word (R278). -/
def Dev.beginsAt (d : Dev) (l : Nat) : Nat :=
  let b := (d.lane l).backlog false
  (b / d.recSpace l + b2n (d.lane l).openLf.isNone) * 1000 + d.reserveOn l + b % d.recSpace l

/-- Whether a stream record leaves in its slot's stream words on lane `l`: it is the slot's lane and the record fits the reservation
(R184, R353). -/
def Dev.inStream (d : Dev) (l : Nat) (r : FRec) : Bool :=
  let k := bits (nth (natsOf r.words) 3) 0 2
  r.typ == 2 && r.own && d.effB (Reg.TRG_STREAM_CFG_ENABLE k) && d.eff (Reg.TRG_STREAM_CFG_LANE k) == l
    && decide (r.words.length ≤ d.eff (Reg.TRG_STREAM_CFG_RESERVE k))

/-- Whether a stream record is larger than its slot's reservation on its own lane: it spills (R184). -/
def Dev.spills (d : Dev) (l : Nat) (r : FRec) : Bool :=
  let k := bits (nth (natsOf r.words) 3) 0 2
  r.typ == 2 && r.own && d.eff (Reg.TRG_STREAM_CFG_LANE k) == l && decide (d.eff (Reg.TRG_STREAM_CFG_RESERVE k) < r.words.length)

/-! ### Choice -/

/-- The lane of a group on which a record can begin earliest, the lowest on a tie (R278): a stream record of a slot takes the slot's own
lane while that carries data (R184). -/
def Dev.bestLane (d : Dev) (g : List Nat) (r : FRec) : Option Nat :=
  let ls := d.dataLanes g
  let k := bits (nth (natsOf r.words) 3) 0 2
  if r.typ == 2 && r.own && ls.contains (d.eff (Reg.TRG_STREAM_CFG_LANE k)) then some (d.eff (Reg.TRG_STREAM_CFG_LANE k))
  else minBy? (fun l => ((d.beginsAt l : Nat) : Int)) ls

/-- The records that depend on `r`, in FIFO order (R257). -/
def Dev.depsOf (d : Dev) (r : FRec) : List FRec := d.rcd.fifo.filter fun q => dependsOn (natsOf q.words) (natsOf r.words)

/-- A record of the accounting classes: frame summary, loss record, cell summary. -/
def FRec.acct (r : FRec) : Bool := r.typ == 3 || r.typ == 4 || r.typ == 5

/-- Whether `q` must begin before `r` in a group: an earlier record of the same channel and frame in a front-end, any earlier record of
the frame in a cell device (R33, R220). -/
def Dev.mustPrecede (d : Dev) (q r : FRec) : Bool :=
  q.fn == r.fn && q.loss.isNone && !q.acct && (d.role == .cell || (q.chan == r.chan && q.typ == r.typ))

/-- Whether stream record `q` keeps a later one `r` of its slot from beginning on lane `l` of group `g` (R184): until its copy there has left,
or stands in the same region of the same lane, which keeps them in order. -/
def Dev.streamAhead (d : Dev) (g : List Nat) (l : Nat) (q r : FRec) : Bool :=
  let slot (x : FRec) : Nat := bits (nth (natsOf x.words) 3) 0 2
  q.own && r.own && q.typ == 2 && r.typ == 2 && slot q == slot r
    && !(g.any fun m => q.left.contains m) && !(q.begun.contains l && d.inStream l q == d.inStream l r)

/-- Whether record `r`, not a summary of the device's own, may begin on lane `l` of group `g`. -/
def Dev.maySend (d : Dev) (g : List Nat) (l : Nat) (r : FRec) : Bool :=
  let earlier := d.rcd.fifo.takeWhile fun q => q.id != r.id
  let run := r :: d.depsOf r
  let words := (run.map fun q => q.words.length).sum
  !r.bad && !(g.any fun m => r.begun.contains m)
    && d.bestLane g r == some l
    && !(earlier.any fun q => dependsOn (natsOf r.words) (natsOf q.words))
    && (r.acct || !(earlier.any fun q => d.mustPrecede q r && !(g.any fun m => q.begun.contains m)))
    && !(earlier.any fun q => d.streamAhead g l q r)
    && d.startsNow l (d.inStream l r) && d.fits l r.fn words (d.inStream l r) r.acct

/-- Whether the device's own summary `r` may begin on lane `l`: as the last record of its frame (R216, R278). -/
def Dev.maySendSummary (d : Dev) (l : Nat) (r : FRec) : Bool :=
  !r.bad && !(r.begun.contains l) && !(d.rcd.fifo.any fun q => q.fn == r.fn && !(q.isSummary r.fn)) && d.startsNow l false
    && d.fits l r.fn r.words.length false true

/-- Whether record `r` may begin on lane `l` of group `g`. -/
def Dev.mayBegin (d : Dev) (g : List Nat) (l : Nat) (r : FRec) : Bool :=
  if r.isSummary r.fn then d.maySendSummary l r else d.maySend g l r

/-- The record that begins next on lane `l` of group `g`: a summary or loss record of a frame in its last lane frame first (R31, R226), else the
first in the FIFO's order. -/
def Dev.pickSend (d : Dev) (g : List Nat) (l : Nat) : Option FRec :=
  let may := d.rcd.fifo.filter (d.mayBegin g l)
  match may.find? fun r => r.acct && decide (r.fn + d.deadline ≤ d.fn) with
  | some r => some r
  | none => may.head?

/-! ### Sending -/

/-- Counts of a summary, written at the moment it is sent (R216, R279). -/
def Dev.fillSummary (d : Dev) (r : FRec) : List Nat :=
  let w := natsOf r.words
  match d.frameOf r.fn with
  | none => w
  | some s =>
    if r.typ = 3 then w.set 6 (pack [(0, 16, min 65535 s.nHit), (16, 3, s.nStream), (19, 8, min 255 s.nLoss)])
    else
      (w.set 3 (nth w 3 / 2 ^ 24 * 2 ^ 24 + pack [(0, 16, min 65535 s.nHit), (16, 8, min 255 s.nLoss)])).set 4
        (pack [(0, 16, min 65535 s.nDrop), (16, 16, min 65535 s.nDup)])

/-- What the reader finds before it sends a record: its W1 good, or a bad word, or one that is not what the index says. -/
inductive RecRead where
  | good | bad | index
  deriving DecidableEq, Repr

/-- W1 of FIFO record `r` read and compared with the index (R411, R416); `lost` records go with it where it is uncorrectable. -/
def readW1 (ecc : List (Nat × Nat)) (d : Dev) (r : FRec) (lost : Nat) : RecRead × List (Nat × Nat) × Dev :=
  let idx := d.fifoWordAt ((r.addr + 1) % fifoWords)
  if !(ecc.any fun p => p.1 == idx) then (.good, ecc, d)
  else
    let m := memRead ecc d idx lost
    (if m.kind == .uncorrectable then .bad else if m.flips ≠ 0 then .index else .good, m.ecc, m.dev)

/-- Record `r` begins on lane `l`. -/
def Dev.beginOn (d : Dev) (l : Nat) (r : FRec) (ws : List Word) : Dev :=
  let st := d.inStream l r
  let k := bits (nth (natsOf r.words) 3) 0 2
  let sp := d.spills l r
  let d := if sp && !r.spilled then d.addWrap (Reg.TRG_STREAM_STATUS_SPILL k) 1 else d
  let mark (q : FRec) : FRec := { q with begun := q.begun ++ [l], spilled := q.spilled || sp }
  let d := { d with rcd := { d.rcd with fifo := updFirst (fun q => q.id == r.id) mark d.rcd.fifo } }
  d.updLane l fun x => { x with tx := x.tx ++ [{ id := r.id, fn := r.fn, stream := st, started := false, words := ws, addr := r.addr, cut := false }] }

/-- One record of a run begun; one whose W1 is bad is written off, an index mismatch flushes the FIFO (R411). -/
def sendOne (l : Nat) (acc : Bool × List (Nat × Nat) × Dev) (r : FRec) : Bool × List (Nat × Nat) × Dev :=
  if !acc.1 then acc
  else
    let d := acc.2.2
    let m := readW1 acc.2.1 d r (d.offWith r).length
    match m.1 with
    | .good => (true, m.2.1, m.2.2.beginOn l r (if r.isSummary r.fn then wordsOf (d.fillSummary r) else r.words))
    | .bad => (false, m.2.1, m.2.2.writeOff r ((r.addr + 1) % fifoWords))
    | .index => (false, m.2.1, ((m.2.2.logError 9 11 5 true 0 0 0 0).breach Reg.FLT_STATUS_INDEX).requestFlush 8)

/-- UPLINK_SEND (R226): the scheduler begins the next record, or run, that lane `l` can finish by its deadline. -/
def uplinkSend (l : Nat) (ecc : List (Nat × Nat)) (d : Dev) : List (Nat × Nat) × Dev :=
  match (if d.up && d.rcd.flush.isNone then d.upGroups.find? fun g => (d.dataLanes g).contains l else none) with
  | none => (ecc, d)
  | some g =>
    match d.pickSend g l with
    | none => (ecc, d)
    | some r => ((r :: d.depsOf r).foldl (sendOne l) (true, ecc, d)).2

def execUplinkSend (l : Nat) (s : State) : Res := if l < 48 then onEcc (uplinkSend l) s else .fault .noSuchUnit

/-! ### A copy out, a record released -/

/-- A record leaves the FIFO and is counted where a copy of it left (R216, R279, R280). -/
def Dev.release (d : Dev) (r : FRec) : Dev :=
  let d := d.setFifo (d.rcd.fifo.filter fun q => q.id != r.id)
  if r.left.isEmpty || r.isSummary r.fn then d
  else d.updFrame r.fn fun s =>
    if d.role == .cell then { s with nHit := s.nHit + 1 }
    else if r.typ = 1 then { s with nHit := s.nHit + 1 } else if r.typ = 2 then { s with nStream := s.nStream + 1 } else s

/-- Whether every copy the record owes has left: one in each group that can carry it, a summary on every data lane; of a bad record, the copies
that still run. -/
def Dev.copiesOut (d : Dev) (r : FRec) : Bool :=
  if r.bad then !d.isSending r.id
  else if r.isSummary r.fn then d.upGroups.all fun g => (d.dataLanes g).all fun l => r.left.contains l
  else d.upGroups.all fun g => g.any fun l => r.left.contains l

/-- The copy of record `id` on lane `l` has left whole; the record is released with its last copy, a reference with its run. -/
def Dev.copyOut (d : Dev) (l id : Nat) : Dev :=
  let d := { d with rcd := { d.rcd with fifo := updFirst (fun q => q.id == id) (fun q => { q with left := q.left ++ [l] }) d.rcd.fifo } }
  let ready := d.rcd.fifo.filter fun q => q.begun.all (fun m => q.left.contains m) && !q.left.isEmpty && d.copiesOut q
    && (d.depsOf q).all fun x => d.copiesOut x
  ready.foldl Dev.release d

/-! ### Withdrawal and abandoned copies -/

/-- RECORD_WITHDRAW (R226, R184): at the boundary that opens F+16 (F+48 in a cell device) the records of F not begun are withdrawn; a
record of which a copy left is released; a summary not yet written is dropped; summaries and loss records of frames already past go,
counted nowhere. A run goes whole (R257). -/
def Dev.withdraw (d : Dev) : Dev :=
  if !d.up || (d.role != .frontEnd && d.role != .cell) then d
  else
    let due (fn : Nat) : Bool := decide (fn + d.deadline ≤ d.fn)
    let past (fn : Nat) : Bool := decide (fn + d.deadline < d.fn)
    let acct (r : FRec) : Bool := r.typ == 3 || r.typ == 4 || r.typ == 5
    let idle (r : FRec) : Bool := r.begun.all fun m => r.left.contains m
    let ends (r : FRec) : Bool := idle r && (if acct r then past r.fn else due r.fn)
    let gone := d.rcd.fifo.filter fun r => ends r && (d.depsOf r).all ends
    let d := gone.foldl (fun d r =>
      if !r.left.isEmpty then d.release r
      else if acct r then
        d.setFifo (d.rcd.fifo.filter fun q => q.id != r.id)
      else
        let d := (d.setFifo (d.rcd.fifo.filter fun q => q.id != r.id)).addWrap Reg.REC_FIFO_STATS_WITHDRAWN 1
        (d.updFrame r.fn fun s => { s with nDrop := s.nDrop + 1 }).loseFRec r 2) d
    let d := { d with rcd := { d.rcd with lostKeys := d.rcd.lostKeys.filter fun k => decide (d.fn < k.2.1 + 144) } }
    let late := d.acq.fstats.filter fun s => due s.fn && !s.summed && !s.gone && d.recording s.fn
    let d := late.foldl (fun d s => d.dropSummary s.fn) d
    { d with rcd := { d.rcd with accWait := d.rcd.accWait.filter fun p => !past p.1 } }

def execRecordWithdraw (s : State) : Res := onDev Dev.withdraw s

/-- UPLINK_COPY_ABANDON (R226): lane `l` has left data service or UPLINK_MASK with records unfinished; their copies are abandoned, with the
rest of their runs. -/
def Dev.copyAbandon (d : Dev) (l : Nat) : Dev :=
  let x := d.lane l
  if !d.up || x.tx.isEmpty || (d.inData l && d.maskedUplinks.contains l) then d
  else
    let ids := x.tx.map (·.id)
    let cut := d.rcd.fifo.filter fun q => ids.contains q.id
    let mate (q : FRec) : Bool := cut.any fun r => dependsOn (natsOf q.words) (natsOf r.words) || dependsOn (natsOf r.words) (natsOf q.words)
    let back (q : FRec) : FRec :=
      if ids.contains q.id || (mate q && q.begun.contains l) then
        { q with begun := q.begun.filter (· != l), left := q.left.filter (· != l) }
      else q
    let d := { d with rcd := { d.rcd with fifo := d.rcd.fifo.map back } }
    d.updLane l fun x => ids.foldl Lane.cutItem x

def execUplinkCopyAbandon (l : Nat) (s : State) : Res := onUnit 48 l (fun d => d.copyAbandon l) s

/-! ### Diagnostic read (R232, R239, R240) -/

/-- The words the diagnostic read sees: each with its place in the FIFO's ring where it has one, and whether its record is open. Words of
the oldest record that have left are skipped. An open record shows the words it has stored, its W1 still 0 (R224). -/
def Dev.diagWords (d : Dev) : List (Nat × Option Nat × Bool) :=
  let sent (r : FRec) : Nat :=
    ((r.begun.filterMap fun l => ((d.lane l).tx.find? fun t => t.id == r.id).map fun t => r.words.length - t.words.length)).foldl max 0
  let closed := d.rcd.fifo.zipIdx.flatMap fun p =>
    let r := p.1
    let ws := (natsOf r.words).zipIdx.map fun q => (q.1, some ((r.addr + q.2) % fifoWords), false)
    if p.2 = 0 then ws.drop (sent r) else ws
  let open' := (d.rcd.ready ++ d.rcd.asm).flatMap fun a => (((d.asmWords a).set 1 0).take a.stored).map fun w => (w, none, true)
  closed ++ open'

/-- A read of REC_DIAG_DATA in the front-end and cell roles: the value and the latched tag. -/
def diagRead (ecc : List (Nat × Nat)) (d : Dev) : Nat × List (Nat × Nat) × Dev :=
  let tag (d : Dev) (nv op co un : Bool) : Dev :=
    ((((d.setB Reg.REC_DIAG_TAG_NOT_VALID nv).setB Reg.REC_DIAG_TAG_OPEN op).setB Reg.REC_DIAG_TAG_CORRECTED co).setB
      Reg.REC_DIAG_TAG_UNCORRECTABLE un).setB Reg.REC_DIAG_TAG_SENT false
  match d.diagWords[d.get Reg.REC_DIAG_SEL_WORD]? with
  | none => (0, ecc, tag d true false false false)
  | some (v, none, op) => (v, ecc, tag d false op false false)
  | some (v, some a, op) =>
    let cost := ((d.rcd.fifo.find? fun r => r.covers a).map fun r => (d.offWith r).length).getD 0
    let m := memRead ecc d (d.fifoWordAt a) cost
    let d := tag m.dev false op (m.kind == .corrected) (m.kind == .uncorrectable)
    if m.kind == .uncorrectable then
      match d.rcd.fifo.find? fun r => r.covers a with
      | some r => (v, m.ecc, d.writeOff r a)
      | none => (v, m.ecc, d)
    else (v ^^^ m.flips, m.ecc, d)

end Sys2Proof.Machine
end

