-- ==== Sys2Proof/Machine/Lanes.lean ====
section
/-! DEFINITION. Lanes (10_lanes.md): the lane frame sent and received, link states, electrical idle, data service, attestation guard, lane
assays and eye scan. -/
namespace Sys2Proof.Machine

/-! ### Messages and commands -/

/-- The ten words of a message (R326). -/
def msgWords (m : Msg) : List Nat :=
  [m.origin % 65536 + m.ring % 4096 * 65536 + m.kind % 16 * 2 ^ 28, m.seq % 2 ^ 32] ++ natsOf m.body

/-- A message from its ten words, received on lane `l` as the `idx`-th command of its lane frame. -/
def msgOf (l idx : Nat) (w : List Nat) : Msg :=
  { kind := bits (nth w 0) 28 4, origin := bits (nth w 0) 0 16, ring := bits (nth w 0) 16 12, seq := nth w 1,
    body := wordsOf (w.drop 2), port := l, idx := idx }

/-- A command message as a command of a source. -/
def Msg.cmd (m : Msg) (src : Source) : Cmd := { src := src, port := m.port, origin := m.origin, ring := m.ring, seq := m.seq, w := m.body }

/-- Where a device's answer to a forwarded command goes: a hub's own command ring, otherwise up. -/
def Dev.fwdSource (d : Dev) : Source := if d.role == .hub then .pcie else .upLane

/-- A forwarded command answered "unreachable" (R289, R354, R293); a hub's own waits for no other reply (R330). -/
def Dev.unreachable (d : Dev) (m : Msg) : Dev :=
  let d := (d.reply (m.cmd d.fwdSource) 8 []).addWrap Reg.MRG_MGMT_STATS_UNREACHABLE 1
  { d with hr := { d.hr with outst := d.hr.outst.filter fun o => o.seq != m.seq } }

/-! ### Events and state changes -/

/-- ATTESTED cleared by the device (R359, R373). -/
def Dev.attestLost (d : Dev) (l old new : Nat) : Dev :=
  if d.effB (Reg.LN_CTRL_ATTESTED l) || d.flag (Reg.LN_CTRL_ATTESTED l) then
    ((d.setBoth (Reg.LN_CTRL_ATTESTED l) 0).setB (Reg.LN_STATUS_ATTEST_LOST l) true).raise 8 5 [l, old, new]
  else d

/-- LSTATE changed, with its event (R357, R373) and the bring-up marks (R536). -/
def Dev.setLstate (d : Dev) (l st : Nat) : Dev :=
  let old := d.lstate l
  let d := if st = 2 then d.setB Reg.GLB_BRINGUP_STATUS_ANY_FRAMED true
           else if st = 4 then d.setB Reg.GLB_BRINGUP_STATUS_ANY_FULL true else d
  if old = st then d else (d.set (Reg.LN_STATUS_LSTATE l) st).raise 8 1 [l, st + 8 * old]

/-- Messages queued for a lane that falls to BLIND or DARK (R354): commands answered, replies and events moved to the port R290 names, or with
no port counted as dropped. While R290 still names the fallen lane they stay where they are (log entry 61). -/
def Dev.dropQueued (d : Dev) (l : Nat) : Dev :=
  let cmds := (d.lane l).fwdQ
  let d := cmds.foldl Dev.unreachable (d.updLane l fun x => { x with fwdQ := [] })
  if d.upLane == some l then d
  else
    let ans := (d.lane l).ansQ
    let d := d.updLane l fun x => { x with ansQ := [] }
    let d := ans.foldl (fun d m => match d.upLane with
      | some u => d.postLane u m
      | none => d.addSat (Reg.LN_MG_STATS_DROPPED l) 1) d
    if d.role.isUp l && d.upLane.isNone then
      let n := d.mg.ownQ.length + ((d.lanes.map fun p => p.2.upQ.length).sum)
      let d := ({ d with mg := { d.mg with ownQ := [] } }).mapLanes fun x => { x with upQ := [] }
      d.addSat (Reg.LN_MG_STATS_DROPPED l) n
    else d

/-- What a lane keeps when it falls: what it has received whole, its queues, the records it was sending, and who its partner was. -/
def Lane.fallen (x : Lane) (fn : Nat) : Lane :=
  { Lane.init with sinceFn := fn, noRaiseUntil := x.noRaiseUntil, recIn := x.recIn, msgIn := x.msgIn, upQ := x.upQ, fwdQ := x.fwdQ, ansQ := x.ansQ,
                   tx := x.tx, partnerDev := x.partnerDev, partnerNum := x.partnerNum, heard := x.heard, txStamps := x.txStamps,
                   eyeFn := x.eyeFn, txRd := x.txRd }

/-- A lane falls to BLIND (R354, R357, R359, R378); `cause` is the code of event 0x0002. -/
def Dev.fallBlind (d : Dev) (l cause : Nat) : Dev :=
  let fn := d.fn
  let was := d.lstate l
  let old := (d.lane l).partnerDev
  let d := d.updLane l fun x => { x.fallen fn with noRaiseUntil := if was = 3 then fn + 1000 else x.noRaiseUntil }
  let d := ((d.addSat (Reg.LN_ERR_STATS_FRAMING_LOSS l) 1).raise 8 2 [l, cause]).setLstate l 1
  (((d.setB (Reg.LN_STATUS_RATE l) false).attestLost l old 0).dropQueued l).flushGroup l true

/-- A lane becomes DARK (R357, R484). -/
def Dev.goDark (d : Dev) (l : Nat) : Dev :=
  let fn := d.fn
  let old := (d.lane l).partnerDev
  let d := (d.updLane l fun x => x.fallen fn).setLstate l 0
  (((d.setB (Reg.LN_STATUS_RATE l) false).attestLost l old 0).dropQueued l).flushGroup l true

/-! ### Sending -/

/-- One step of the PRBS-31 generator (R369). -/
def prbsStep (s : Nat) : Nat × Bool :=
  let b := bitOf s 30 != bitOf s 27
  ((2 * s + b2n b) % 2 ^ 31, b)

/-- One fill word from state `s`. -/
def prbsWord (s : Nat) : Nat × Nat :=
  (List.range 32).foldl (fun a _ => let r := prbsStep a.1; (r.1, 2 * a.2 + b2n r.2)) (s, 0)

/-- `n` fill words. -/
def prbsWords : Nat → Nat → List Nat
  | 0, _ => []
  | n + 1, s => let r := prbsWord s; r.2 :: prbsWords n r.1

/-- Seed of the generator in a frame. -/
def prbsSeed (fi : Nat) : Nat := if fi % 2 ^ 31 = 0 then 1 else fi % 2 ^ 31

/-- What a region takes from the records in sending: its words, the offset of the first record that starts, the offset after the last copy that
ends cut, what is left to send, and the records whose copy has left whole. -/
structure Taken where
  words : List Word
  first : Option Nat
  cut : Option Nat
  rest : List TxItem
  done : List Nat

/-- A region of `n` words filled from offset `off` on (R353). A copy cut at the very end of the region is announced by the next one. -/
def takeRegion (n : Nat) : Nat → List TxItem → Taken
  | _, [] => { words := [], first := none, cut := none, rest := [], done := [] }
  | off, t :: ts =>
    if n ≤ off then { words := [], first := none, cut := none, rest := t :: ts, done := [] }
    else
      let k := min (n - off) t.words.length
      let start := if t.started then none else some off
      let keep : Taken :=
        { words := t.words.take k, first := start, cut := none, rest := { t with started := true, words := t.words.drop k, addr := t.addr + k } :: ts,
          done := [] }
      if k < t.words.length then keep
      else if t.cut ∧ n ≤ off + k then keep
      else
        let r := takeRegion n (off + k) ts
        { r with words := t.words ++ r.words, first := start.orElse fun _ => r.first,
                 cut := if t.cut then r.cut.orElse (fun _ => some (off + k)) else r.cut,
                 done := if t.cut then r.done else t.id :: r.done }

/-- First-record offset of a region of `n` words (R353): where a copy ends cut, the place after it. -/
def Taken.offset (r : Taken) (n : Nat) : Nat := if n = 0 then 0x1FF else (r.cut.orElse fun _ => r.first).getD 0x1FF

/-- The record, and the place in it, that stands at offset `i` of a region. -/
def itemAt : Nat → List TxItem → Option (TxItem × Nat)
  | _, [] => none
  | i, t :: ts => if i < t.words.length then some (t, i) else itemAt (i - t.words.length) ts

/-- A lane's copy of a record changed from its word `k` on. -/
def Lane.editItem (x : Lane) (id : Nat) (f : TxItem → TxItem) : Lane := { x with tx := updFirst (fun t => t.id == id) f x.tx }

/-- The words that lane `l` sends from a region, from offset `i` on, read from record memory (R223, R416): what can be corrected is, and a copy
ends before a word that cannot, its record written off. `fuel` bounds the words. -/
def readRegion (l : Nat) (stream : Bool) (n : Nat) : Nat → Nat → List (Nat × Nat) × Dev → List (Nat × Nat) × Dev
  | 0, _, x => x
  | fuel + 1, i, x =>
    if n ≤ i then x
    else match itemAt i ((x.2.lane l).tx.filter fun t => t.stream == stream) with
      | none => x
      | some (t, k) =>
        let a := (t.addr + k) % fifoWords
        let idx := x.2.fifoWordAt a
        if !(x.1.any fun p => p.1 == idx) then readRegion l stream n fuel (i + 1) x
        else
          let r := x.2.rcd.fifo.find? fun q => q.id == t.id
          let m := memRead x.1 x.2 idx ((r.map fun r => (x.2.offWith r).length).getD 0)
          if m.kind == .uncorrectable then
            let cutAt (t : TxItem) : TxItem := { t with words := t.words.take k, cut := true, started := true }
            let d := m.dev.updLane l fun y => y.editItem t.id cutAt
            readRegion l stream n fuel i (m.ecc, match r with
              | some r => d.writeOff r a
              | none => d)
          else
            let fix (t : TxItem) : TxItem := { t with words := t.words.set k (t.words.getD k 0 ^^^ w32 m.flips) }
            readRegion l stream n fuel (i + 1) (m.ecc, m.dev.updLane l fun y => y.editItem t.id fix)

/-- The queues that wait to go up: each port's and the device's own (63), in rotation after the last served (R367). -/
def Dev.upSources (d : Dev) : List Nat :=
  let all := List.range d.role.downLanes ++ [63]
  (all.filter fun p => decide (d.mg.upRot < p)) ++ all.filter fun p => decide (p ≤ d.mg.upRot)

/-- Messages of one source. -/
def Dev.upList (d : Dev) (p : Nat) : List Msg := if p = 63 then d.mg.ownQ else (d.lane p).upQ

/-- Up to `k` messages taken for the upward lane, one from each queue in turn. -/
def takeUp : Nat → Dev → List Msg × Dev
  | 0, d => ([], d)
  | k + 1, d =>
    match d.upSources.find? fun p => !(d.upList p).isEmpty with
    | none => ([], d)
    | some p =>
      match d.upList p with
      | [] => ([], d)
      | m :: t =>
        let d := if p = 63 then { d with mg := { d.mg with ownQ := t } } else d.updLane p fun x => { x with upQ := t }
        let r := takeUp k { d with mg := { d.mg with upRot := p } }
        (m :: r.1, r.2)

/-- Messages waiting for lane `l`. -/
def Dev.waiting (d : Dev) (l : Nat) : Nat :=
  (d.lane l).fwdQ.length + (d.lane l).ansQ.length
    + if d.upLane == some l && d.role != .hub then (d.upSources.map fun p => (d.upList p).length).sum else 0

/-- Up to `k` messages taken for lane `l`: those queued for the lane itself first. -/
def Dev.takeMsgs (d : Dev) (l k : Nat) : List Msg × Dev :=
  let x := d.lane l
  let ans := x.ansQ.take k
  let fwd := x.fwdQ.take (k - ans.length)
  let d := d.updLane l fun x => { x with ansQ := x.ansQ.drop k, fwdQ := x.fwdQ.drop (k - ans.length) }
  let own := ans ++ fwd
  if d.upLane == some l && d.role != .hub then
    let r := takeUp (k - own.length) d
    (own ++ r.1, r.2)
  else (own, d)

/-- The messages a lane frame of payload `p` carries beside `str` stream words, so that every begun record can still finish by its
deadline (R354). -/
def Dev.msgRoom (d : Dev) (l fn p str : Nat) : Nat :=
  let per := d.recSpace l
  let items := (d.lane l).tx.filter fun t => !t.stream
  let ok (m : Nat) : Bool :=
    decide (10 * m + str ≤ p)
      && ((items.foldl (fun a t =>
        let c := a.1 + t.words.length
        (c, a.2 && decide (c ≤ (p - str - 10 * m) + (t.fn + d.deadline - fn) * per))) (0, true)).2)
  let k := min 4 (d.waiting l)
  ((List.range (k + 1)).reverse.find? ok).getD 0

/-- A region that takes nothing. -/
def idleRegion (ts : List TxItem) : Taken := { words := [], first := none, cut := none, rest := ts, done := [] }

/-- The lane frame in sending ends (R349 to R355): regions and messages in the payload, map, fill and CRC. A BLIND lane sends no message (R356,
log entry 44). -/
def closeLf (ecc : List (Nat × Nat)) (d : Dev) (l : Nat) : List (Nat × Nat) × Dev :=
  match (d.lane l).openLf with
  | none => (ecc, d)
  | some o =>
    let p := o.len - 15
    let up := d.role.isUp l
    let data := o.full && up && d.inData l
    let str := if o.full && up then min (d.reserveOn l) p else 0
    let k := if d.lstate l = 1 then 0 else d.msgRoom l o.fn p str
    let rec' := p - str - 10 * k
    let fuel (n : Nat) : Nat := n + (d.lane l).tx.length
    let m := if data then readRegion l false rec' (fuel rec') 0 (readRegion l true str (fuel str) 0 (ecc, d)) else (ecc, d)
    let d := m.2
    let x := d.lane l
    let streams := x.tx.filter fun t => t.stream
    let others := x.tx.filter fun t => !t.stream
    let rs := if data then takeRegion str 0 streams else idleRegion streams
    let rr := if data then takeRegion rec' 0 others else idleRegion others
    let used := rr.words.length
    let assay := x.assayReq && decide (used < rec')
    let fill := if assay then prbsWords (rec' - used) (prbsSeed (o.fn % 2 ^ 32)) else List.replicate (rec' - used) 0
    let from' := if assay then used else 0x1FF
    let ms := d.takeMsgs l k
    let h := natsOf o.hdr
    let w1 := pack [(0, 9, str), (9, 9, rs.offset str), (18, 9, rr.offset rec'), (27, 3, ms.1.length)]
    let ws := [nth h 0, w1, nth h 1 + from' * 2 ^ 12] ++ h.drop 2 ++ natsOf rs.words ++ List.replicate (str - rs.words.length) 0
      ++ natsOf rr.words ++ fill ++ ms.1.flatMap msgWords
    let ws := ws ++ [crc32c ((bytesOf ws).drop 1)]
    let rd := x.txRd
    let d := (ms.2.updLane l fun x =>
      { x with openLf := none, tx := rs.rest ++ rr.rest, txRd := (sendChars rd (frameSymbols ws o.fill)).2 }).emit
        (.laneFrame l o.full (wordsOf ws) o.fill rd (d.effB (Reg.LN_CTRL_TX_INVERT l)))
    let d := ms.1.foldl (fun d m =>
      let w := natsOf m.body
      if m.kind = 1 ∧ bitOf (nth w 0) 12 = true then
        d.txqAdd { id := bits (nth w 1) 16 8, lane := l, fi := o.fn % 2 ^ 32, ofs := nth h 4 }
      else d) d
    (m.1, (rs.done ++ rr.done).foldl (fun d id => d.copyOut l id) d)

/-- Words of a lane frame in a frame of `cyc` reference cycles (R350). -/
def lfWords (full : Bool) (cyc : Nat) : Nat := if full then 2 * cyc else min 125 (cyc / 2)

/-- Characters of K28.0 after them (R350). -/
def lfFill (full : Bool) (cyc : Nat) : Nat := (if full then 8 * cyc else 2 * cyc) - 4 * lfWords full cyc

/-- Whether an assay of lane `l` is running (R369). -/
def Dev.laneAssay (d : Dev) (l : Nat) : Bool := d.flt.assays.any fun a => a.u == { unit := 4, loc := l } && a.running

/-- The comma's offset from the boundary on lane `l` (R349). -/
def Dev.commaOfs (d : Dev) (l : Nat) : Int :=
  edgeOfs d.tm.clk.exc d.tm.clk.cyc d.tm.clk.u (min 248 (d.eff (Reg.LN_TX_PHASE_PHASE l)))

/-- Whether the lane sends FULL_OK (R362). -/
def Dev.fullOk (d : Dev) (l : Nat) : Bool := d.effB (Reg.LN_CTRL_FULL_EN l) && d.effB (Reg.LN_CTRL_ATTESTED l)

/-- A lane frame opens on lane `l` (R349, R352, R354): header words W0 and W2 to W13, and the transmit stamp. -/
def Dev.openOn (d : Dev) (l : Nat) : Dev :=
  let x := d.lane l
  let ofs := d.refine l (d.commaOfs l)
  let cyc := d.tm.clk.cyc
  let st := d.lstate l
  let w0 := pack [(0, 8, 0xBC), (8, 6, l), (16, 8, d.fi), (24, 4, 1)]
  let w2 := pack [(0, 3, st), (3, 1, b2n x.txFull), (4, 2, if cyc = 249 then 1 else if cyc = 251 then 2 else 0), (6, 1, b2n (d.fullOk l)),
    (7, 1, b2n (d.effB (Reg.LN_CTRL_DATA_EN l))), (8, 1, b2n (st == 3 && x.switchFn == d.fn)), (9, 1, b2n x.idleNext),
    (10, 1, b2n (d.laneAssay l)), (11, 1, b2n (d.role.isUp l))]
  let w11 := pack [(0, 16, d.get (Reg.LN_ERR_STATS_CRC_FAIL l)), (16, 16, d.get (Reg.LN_RX_STATS_FRAMES_OK l))]
  let hdr := [w0, w2] ++ d.slotWords l ofs ++ [w11, 0, 0]
  let o : OpenLf := { fn := d.fn, full := x.txFull, len := lfWords x.txFull cyc, fill := lfFill x.txFull cyc, hdr := wordsOf hdr }
  d.updLane l fun x => { x with openLf := some o, txStamps := ((d.fi, ofSigned 32 ofs) :: x.txStamps).take 64 }

/-- What lane `l` sends in the frame that opens (R349, R357, R362, R364). A lane frame that a short frame keeps from being sent takes its
RATE_NEXT, and the exit from idle, along to the next frame. -/
def Dev.transmit (d : Dev) (l : Nat) : Dev :=
  let x := d.lane l
  let st := d.lstate l
  let fn := d.fn
  let short := decide (d.tm.clk.cyc < 249)
  let lead := if x.txFull then 64 else 160
  if !d.role.usesLane l || st = 0 || st = 6 then d
  else if st = 5 then d.emit (.idle l)
  else if x.prevState != 0 then
    if short then d.emit (.idle l)
    else
      let d := ((d.emit (.training l)).emit (.fill l)).updLane l fun x => { x with prevState := 0 }
      if min 248 (d.eff (Reg.LN_TX_PHASE_PHASE l)) < lead then d else d.openOn l
  else if st = 3 && fn == x.switchFn + 1 then d.emit (.training l)
  else if short then
    let d := d.emit (.fill l)
    if st = 3 && fn == x.switchFn then d.updLane l fun x => { x with switchFn := fn + 1 } else d
  else if st = 3 && decide (x.switchFn + 2 ≤ fn) && !x.txFull then
    ((d.updLane l fun x => { x with txFull := true }).setB (Reg.LN_STATUS_RATE l) true).openOn l
  else d.openOn l

/-! ### Link states at a boundary -/

/-- Whether lane `l` is to be idle: IDLE in force, or an uplink out of the mask (R357, R363). -/
def Dev.wantIdle (d : Dev) (l : Nat) : Bool :=
  d.effB (Reg.LN_CTRL_IDLE l) || (d.role.isUp l && !d.maskedUplinks.contains l)

/-- Transitions of a lane at a boundary that follow ENABLE, IDLE, the mask, the lane-quad domain and a completed raise (R357, R363, R364,
R484). IDLE and DARK begin with the frame after the one that carries IDLE_NEXT (log entry 27). -/
def Dev.laneStep (d : Dev) (l : Nat) : Dev :=
  let x := d.lane l
  let st := d.lstate l
  if !d.role.usesLane l || st = 6 then d
  else if !d.lqOn (l / 4) then (if st = 0 then d else d.goDark l)
  else if !d.effB (Reg.LN_CTRL_ENABLE l) then
    if st = 0 then d
    else if st = 5 || x.toDark then d.goDark l
    else if d.tm.clk.cyc < 249 then d
    else d.updLane l fun x => { x with idleNext := true, toDark := true }
  else if st = 0 then
    let fn := d.fn
    (d.updLane l fun x => { x with sinceFn := fn, toDark := false, idleNext := false }).setLstate l 1
  else if d.wantIdle l && (st = 2 || st = 4) then
    if x.idleNext then (d.updLane l fun x => { x with idleNext := false, prevState := st }).setLstate l 5
    else if d.tm.clk.cyc < 249 then d
    else d.updLane l fun x => { x with idleNext := true }
  else if st = 5 && !d.wantIdle l then d.setLstate l x.prevState
  else
    let d := if x.idleNext || x.toDark then d.updLane l fun x => { x with idleNext := false, toDark := false } else d
    if st = 3 && x.txFull && x.rxGot then (d.setLstate l 4).addWrap (Reg.LN_RETRY_RAISES l) 1 else d

/-- Data service of lane `l` at a boundary (R358, R365, R376, R383). -/
def Dev.dataService (d : Dev) (l : Nat) : Dev :=
  let on := d.lstate l == 4 && d.effB (Reg.LN_CTRL_ATTESTED l) && d.effB (Reg.LN_CTRL_DATA_EN l) && d.flag (Reg.LN_STATUS_PARTNER_READY l)
    && !(d.lane l).miswired
  if on == d.inData l then d
  else
    let d := d.setB (Reg.LN_STATUS_DATA_SERVICE l) on
    let put (v i : Nat) : Nat := if on then setBit v i else clearBit v i
    if l < 32 then d.set Reg.LN_SERVICE_LO_LANES_LO (put (d.get Reg.LN_SERVICE_LO_LANES_LO) l)
    else d.set Reg.LN_SERVICE_HI_LANES_HI (put (d.get Reg.LN_SERVICE_HI_LANES_HI) (l - 32))

/-- The words of a record in progress that are still to come. -/
def owedOf (part : List Word) : Nat :=
  match part with
  | [] => 0
  | [_] => 65535
  | _ => max 3 (bits (nth (natsOf part) 1) 0 16) - part.length

/-- A region of a lane frame that was lost (R276, R355): the record in progress is discarded, and may go on for as many words as the region held
in the last accepted lane frame. It answers the records discarded. -/
def RxRegion.lose (x : RxRegion) : Nat × RxRegion :=
  let owed := if x.sync then owedOf x.part else x.owed
  (b2n (!x.part.isEmpty), { part := [], sync := false, owed := owed - x.len, len := x.len })

/-- A lane's receiving regions lost (R276, R355); in a downstream port what is discarded counts. -/
def Dev.dropRegions (d : Dev) (l : Nat) : Dev :=
  let x := d.lane l
  let r := x.recRx.lose
  let s := x.strRx.lose
  let n := r.1 + s.1
  let d := if n = 0 || !decide (l < d.role.downLanes) then d else d.addWrap Reg.MRG_RX_STATS_PARTIAL n
  d.updLane l fun x => { x with recRx := r.2, strRx := s.2 }

/-! ### Receiving -/

/-- Whole records in a region's words: `part` is the record in progress. Filler is skipped at a record boundary; LENGTH in W1 ends a
record (R205, R353). `n` bounds the words. -/
def cutRecords : Nat → List Word → List Word → List (List Word) × List Word
  | 0, part, _ => ([], part)
  | n + 1, part, ws =>
    match part, ws with
    | part, [] => ([], part)
    | [], w :: t => if w = 0#32 then cutRecords n [] t else cutRecords n [w] t
    | [a], w :: t => cutRecords n [a, w] t
    | part, ws =>
      let len := max 3 (bits (nth (natsOf part) 1) 0 16)
      let need := len - part.length
      if ws.length < need then ([], part ++ ws)
      else
        let r := cutRecords n [] (ws.drop need)
        ((part ++ ws.take need) :: r.1, r.2)

/-- What a region of an accepted lane frame gives: whole records, the region after it, records discarded. -/
structure RegionIn where
  recs : List (List Word)
  next : RxRegion
  gone : Nat

/-- A region of an accepted lane frame (R353, R355). Words before the first-record offset that no known record accounts for belong to one that
began in a lost lane frame, and count as discarded (R276). -/
def RxRegion.take (x : RxRegion) (first : Nat) (ws : List Word) : RegionIn :=
  let starts := decide (first < 0x1FF)
  let lead := if starts then ws.take first else ws
  let a := if x.sync then cutRecords (ws.length + 2) x.part lead else ([], [])
  let orphan := !x.sync && x.owed == 0 && lead.any (· != 0)
  if starts then
    let b := cutRecords (ws.length + 2) [] (ws.drop first)
    { recs := a.1 ++ b.1, next := { part := b.2, sync := true, owed := 0, len := ws.length }, gone := b2n (!a.2.isEmpty) + b2n orphan }
  else if x.sync then { recs := a.1, next := { part := a.2, sync := true, owed := 0, len := ws.length }, gone := 0 }
  else
    { recs := [], next := { part := [], sync := false, owed := if orphan then 65535 else x.owed - ws.length, len := ws.length }, gone := b2n orphan }

/-- The record region of a lane frame with its assay fill, if any, read as filler: `w` are the words of the lane frame, `n` those of the
payload before the messages. -/
def assayFrom (w : List Nat) (n : Nat) : Nat := min n (bits (nth w 2) 12 9)

/-- The parts of the payload of a lane frame `w` (R353): stream region, record region, messages. -/
def payloadOf (w : List Nat) : List Nat × List Nat × List (List Nat) :=
  let pay := (w.drop 14).take (w.length - 15)
  let w1 := nth w 1
  let str := min (bits w1 0 9) pay.length
  let k := min (bits w1 27 3) ((pay.length - str) / 10)
  (pay.take str, (pay.drop str).take (pay.length - str - 10 * k),
    (List.range k).map fun i => (pay.drop (pay.length - 10 * k + 10 * i)).take 10)

/-- Regions and messages of an accepted lane frame `w` (R353, R358, R365): the records of a downstream port wait to be taken (R275), those of an
upstream one are discarded and counted, and so are messages of a reserved KIND. -/
def Dev.takePayload (d : Dev) (l : Nat) (w : List Nat) : Dev :=
  let x := d.lane l
  let p := payloadOf w
  let from' := if bits (nth w 2) 12 9 = 0x1FF then p.2.1.length else assayFrom w p.2.1.length
  let recW := p.2.1.take from' ++ List.replicate (p.2.1.length - from') 0
  let down := decide (l < d.role.downLanes)
  let a := x.strRx.take (bits (nth w 1) 9 9) (wordsOf p.1)
  let b := x.recRx.take (bits (nth w 1) 18 9) (wordsOf recW)
  let got := a.recs ++ b.recs
  let gone := a.gone + b.gone
  let d := if gone = 0 || !down then d else d.addWrap Reg.MRG_RX_STATS_PARTIAL gone
  let d := d.updLane l fun x => { x with strRx := a.next, recRx := b.next, recIn := if down then x.recIn ++ got else x.recIn }
  let d := if down then d else d.addSat (Reg.LN_MG_STATS_DISCARDED l) got.length
  (p.2.2.foldl (fun (acc : Nat × Dev) ws =>
    let m := msgOf l acc.1 ws
    if m.kind = 1 ∨ m.kind = 2 ∨ m.kind = 3 then
      (acc.1 + b2n (m.kind == 1), acc.2.updLane l fun x => { x with msgIn := x.msgIn ++ [m] })
    else (acc.1, acc.2.addSat (Reg.LN_MG_STATS_DISCARDED l) 1)) (0, d)).2

/-- The assay fill of an accepted lane frame checked (R369): words, and bits that differ from the sequence TX_FI seeds. -/
def fillCheck (w : List Nat) : Nat × Nat :=
  let p := payloadOf w
  if bits (nth w 2) 12 9 = 0x1FF then (0, 0)
  else
    let got := p.2.1.drop (assayFrom w p.2.1.length)
    let want := prbsWords got.length (prbsSeed (nth w 4))
    (got.length, ((got.zip want).map fun q => popCount (q.1 ^^^ q.2) 32).sum)

/-- The guard of R359 on a received timing slot. -/
def Dev.guardPartner (d : Dev) (l : Nat) (w0 : Nat) : Dev :=
  let x := d.lane l
  let num := bitOf w0 13
  let dev := bits w0 16 16
  let d := if x.heard && x.partnerNum && !num then d.attestLost l x.partnerDev 0
           else if x.heard && x.partnerNum && num && dev != x.partnerDev && !bitOf w0 12 then d.attestLost l x.partnerDev dev else d
  d.updLane l fun x => { x with partnerNum := num, partnerDev := if num then dev else x.partnerDev, heard := true }

/-- A miswired lane (R365): both ends send the same UPSTREAM value. -/
def Dev.facing (d : Dev) (l : Nat) (same : Bool) (partner : Nat) : Dev :=
  let was := (d.lane l).miswired
  let d := d.updLane l fun x => { x with miswired := same }
  if same && !was then (d.setB (Reg.LN_STATUS_FACING_ERR l) true).raise 8 4 [l, partner] else d

/-- An assay of the lane is raised, or joined, by an error; its counters restart when it is raised (R369, R420). -/
def Dev.raiseLaneAssay (d : Dev) (l kind action : Nat) : Dev :=
  let new := !(d.flt.assays.any fun a => a.u == { unit := 4, loc := l })
  let d := if new then
      (((d.set (Reg.LN_ASSAY_ERR_PRBS_ERR l) 0).set (Reg.LN_ASSAY_ERR_CRC_ERR l) 0).set (Reg.LN_ASSAY_WORDS_WORDS l) 0).set
        (Reg.LN_STATUS_ASSAY_VERDICT l) 0
    else d
  d.logError 4 kind action false 0 l 0 0

/-! ### The comma's place (R355, R360, R361) -/

/-- Place of the comma of `rx`, in eighths of a reference cycle, on the device's count of cycles; samples of the channels are ten to a cycle. -/
def Dev.commaPlace (d : Dev) (l : Nat) (rx : LaneRx) : Int :=
  8 * (floorDiv d.acq.base 10 + rx.cyc) + rx.sub * (if (d.lane l).rxFull then 1 else 4)

/-- Whether a comma stands where the lane expects it: anywhere while the lane is being framed or the partner's signal has just come back; where
FLEN of the last accepted lane frame says; after a rejection, at the cadence of 250 cycles or one cycle beside it. -/
def Lane.expects (x : Lane) (place : Int) : Bool :=
  match x.commaAt with
  | none => true
  | some (p, cyc) =>
    if x.badRun = 0 then place == p + 8 * cyc
    else
      let q := p + 2000 * (x.badRun + 1)
      place == q || place == q + 8 || place == q - 8

/-- Whether the word boundary stands at the bit position the aligner has: the one of SLIP in manual mode, else the one of the last accepted lane
frame. -/
def Dev.slipOk (d : Dev) (l slip : Nat) : Bool :=
  if d.effB (Reg.LN_CTRL_ALIGN_MODE l) then slip == min 9 (d.eff (Reg.LN_CTRL_SLIP l))
  else slip ≤ 9 && ((d.lane l).commaAt.isNone || slip == d.get (Reg.LN_STATUS_SLIP_IN_USE l))

/-- Reference cycles FLEN stands for (R352). -/
def flenCycles (w2 : Nat) : Option Nat :=
  match bits w2 4 2 with
  | 0 => some 250
  | 1 => some 249
  | 2 => some 251
  | _ => none

/-- Whether the words of a received lane frame are whole and unharmed (R350, R355, R357): rate, length, CRC. -/
def Dev.wordsOk (d : Dev) (l : Nat) (w : List Nat) : Bool :=
  let n := w.length
  match flenCycles (nth w 2) with
  | none => false
  | some cyc =>
    bitOf (nth w 2) 3 == (d.lane l).rxFull && n == lfWords (d.lane l).rxFull cyc
      && nth w (n - 1) == crc32c ((bytesOf (w.take (n - 1))).drop 1)

/-- The stamp of a received comma (R55): the edge of its reference cycle, from the boundary of the present frame; none where the device no
longer holds the clock of its frame. -/
def Dev.rawStamp (d : Dev) (cyc : Int) : Option Int :=
  let fn := d.fn
  if 0 ≤ cyc then some (edgeOfs d.tm.clk.exc d.tm.clk.cyc d.tm.clk.u cyc.toNat)
  else
    let at' := floorDiv d.acq.base 10 + cyc
    (d.acq.fstats.find? fun s => decide (floorDiv s.base 10 ≤ at' ∧ at' < floorDiv s.base 10 + s.cyc)).map fun s =>
      frameUnits * ((s.fn : Int) - fn) + edgeOfs s.exc s.cyc s.u (at' - floorDiv s.base 10).toNat

/-- A lane frame not accepted, or missing where one was expected: the runs, the regions, and in BLIND the comma, start again. -/
def Dev.notAccepted (d : Dev) (l : Nat) (missing : Bool) : Dev :=
  let blind := d.lstate l == 1
  (d.dropRegions l).updLane l fun x =>
    { x with okRun := 0, raiseRun := 0, badRun := x.badRun + 1, lastMissing := missing, commaAt := if blind then none else x.commaAt }

/-- A rejected lane frame (R355, R369, R378); `astray`: its comma stood elsewhere. -/
def Dev.rejectLf (d : Dev) (l : Nat) (astray : Bool) : Dev :=
  let st := d.lstate l
  let d := (d.addWrap (Reg.LN_ERR_STATS_CRC_FAIL l) 1).notAccepted l astray
  if st = 2 ∨ st = 3 ∨ st = 4 then (d.raiseLaneAssay l 5 0).addSat (Reg.LN_ASSAY_ERR_CRC_ERR l) 1 else d

/-- What an accepted lane frame says in W0 and W2 (R352, R362, R363, R369, R376). After a last lane frame before training or idle the comma may
come anywhere. -/
def Dev.takeHeader (d : Dev) (l : Nat) (rx : LaneRx) (w : List Nat) : Dev :=
  let w2 := nth w 2
  let fn := d.fn
  let place := d.commaPlace l rx
  let d := (((d.setB (Reg.LN_STATUS_PARTNER_READY l) (bitOf w2 7)).setB (Reg.LN_STATUS_PARTNER_FULL_OK l) (bitOf w2 6)).set
    (Reg.LN_STATUS_SLIP_IN_USE l) rx.slip).set (Reg.LN_STATUS_PARTNER_LANE l) (bits (nth w 0) 8 6)
  let own := d.fullOk l
  let st := d.lstate l
  let d := d.updLane l fun x =>
    { x with okRun := x.okRun + 1, badRun := 0, assayReq := bitOf w2 10, partnerIdle := bitOf w2 9,
             raiseRun := if st = 2 && own && bitOf w2 6 then x.raiseRun + 1 else 0,
             rxGot := x.rxGot || (bitOf w2 3 && st != 1), rxFull := x.rxFull || (bitOf w2 8 && st != 1),
             trainUntil := if bitOf w2 8 then fn + 2 else x.trainUntil,
             commaAt := if bitOf w2 8 || bitOf w2 9 then none else some (place, (flenCycles w2).getD 250) }
  d.facing l (bitOf w2 11 == d.role.isUp l) (bits (nth w 0) 8 6)

/-- An accepted lane frame used (R54, R358, R369): header, timing slot, assay fill, payload. In BLIND the header alone is. -/
def Dev.useLf (d : Dev) (l : Nat) (rx : LaneRx) (w : List Nat) : Dev :=
  let blind := d.lstate l == 1
  let d := (d.addWrap (Reg.LN_RX_STATS_FRAMES_OK l) 1).takeHeader l rx w
  if blind then d
  else
    let d := d.guardPartner l (nth w 3)
    let d := match d.rawStamp rx.cyc with
      | some raw => d.takeSlot l ((w.drop 3).take 8) raw
      | none => d
    let c := fillCheck w
    let d := if d.laneAssay l then
        (d.addSat (Reg.LN_ASSAY_ERR_PRBS_ERR l) c.2).addSat (Reg.LN_ASSAY_WORDS_WORDS l) c.1
      else d
    let d := d.takePayload l w
    if d.lstate l = 3 ∧ (d.lane l).txFull = true ∧ (d.lane l).rxGot = true then
      (d.setLstate l 4).addWrap (Reg.LN_RETRY_RAISES l) 1
    else d

/-- The characters a lane receives, its polarity inverted where RX_INVERT says so (R375), with the running disparity they leave. -/
def Dev.receive (d : Dev) (l : Nat) (cs : List Nat) : List (Symbol × Bool) × Bool :=
  let cs := if d.effB (Reg.LN_CTRL_RX_INVERT l) then cs.map fun c => 1023 - c % 1024 else cs
  readChars (startRd (d.lane l).rxRd cs) cs

/-- LANE_FRAME_RECEIVED (R355): a lane frame accepted and used, or rejected; a signal in which none is found, or none at all, where one was
expected. Training that was announced, and a partner in idle, owe none; a signal ends the idle (R363). -/
def Dev.laneFrame (d : Dev) (l : Nat) (a : LaneArrival) : Dev :=
  let x := d.lane l
  let st := d.lstate l
  let training := decide (d.fn ≤ x.trainUntil)
  if !d.up || !d.role.usesLane l || st = 0 || st = 6 then d
  else match a with
    | .silence =>
      let d := d.updLane l fun x => { x with rxRd := none }
      if x.partnerIdle || training then d else d.notAccepted l true
    | .noise cs =>
      let r := d.receive l cs
      let d := (d.addSat (Reg.LN_ERR_STATS_CODE_ERR l) (noiseErrors r.1)).updLane l fun x => { x with rxRd := some r.2, partnerIdle := false }
      if training then d else d.notAccepted l true
    | .frame rx =>
      let r := d.receive l rx.chars
      let errs := frameErrors r.1
      let w := lineWords r.1
      let here := x.expects (d.commaPlace l rx) && d.slipOk l rx.slip
      let d := (d.addSat (Reg.LN_ERR_STATS_CODE_ERR l) errs).updLane l fun x => { x with rxRd := some r.2, partnerIdle := false }
      if here && r.1.head?.map (·.1) == some comma && errs == 0 && d.wordsOk l w then d.useLf l rx w
      else if training then d
      else d.rejectLf l (!here)

def execLaneFrameReceived (l : Nat) (rx : LaneArrival) (s : State) : Res := onUnit 48 l (fun d => d.laneFrame l rx) s

/-- LANE_FRAMED (R357, R360). -/
def Dev.laneFramed (d : Dev) (l : Nat) : Dev := 
  whenD (d.up && d.lstate l == 1 && decide (4 ≤ (d.lane l).okRun)) (fun d => (d.setLstate l 2).unholdGroup l) d

def execLaneFramed (l : Nat) (s : State) : Res := onUnit 48 l (fun d => d.laneFramed l) s

/-- BLIND_RETRY (R360, R378): the receiver starts again. -/
def Dev.blindRetry (d : Dev) (l : Nat) : Dev :=
  whenD (d.up && d.lstate l == 1 && decide ((d.lane l).sinceFn + 1000 ≤ d.fn)) (fun d =>
    let fn := d.fn
    (d.updLane l fun x => { x with sinceFn := fn, okRun := 0, commaAt := none, rxRd := none }).addWrap (Reg.LN_RETRY_RETRIES l) 1) d

def execBlindRetry (l : Nat) (s : State) : Res := onUnit 48 l (fun d => d.blindRetry l) s

/-- LANE_RAISE (R362): the next lane frame carries RATE_NEXT; training and full rate follow. -/
def Dev.laneRaise (d : Dev) (l : Nat) : Dev :=
  let x := d.lane l
  whenD (d.up && d.lstate l == 2 && decide (16 ≤ x.raiseRun) && d.fullOk l && decide (x.noRaiseUntil ≤ d.fn)) (fun d =>
    let fn := d.fn
    (d.updLane l fun x => { x with switchFn := fn + 1, raiseRun := 0 }).setLstate l 3) d

def execLaneRaise (l : Nat) (s : State) : Res := onUnit 48 l (fun d => d.laneRaise l) s

/-- RAISE_TIMEOUT (R357). -/
def Dev.raiseTimeout (d : Dev) (l : Nat) : Dev :=
  let x := d.lane l
  whenD (d.up && d.lstate l == 3 && !x.rxGot && decide (x.switchFn + 17 < d.fn)) (fun d => d.fallBlind l 3) d

def execRaiseTimeout (l : Nat) (s : State) : Res := onUnit 48 l (fun d => d.raiseTimeout l) s

/-- FRAMING_LOST (R357). -/
def Dev.framingLost (d : Dev) (l : Nat) : Dev :=
  let x := d.lane l
  whenD (d.up && [2, 3, 4].contains (d.lstate l) && decide (8 ≤ x.badRun)) (fun d => d.fallBlind l (if x.lastMissing then 2 else 1)) d

def execFramingLost (l : Nat) (s : State) : Res := onUnit 48 l (fun d => d.framingLost l) s

/-! ### Lane registers -/

/-- A write of one of lane `l`'s registers (R374): ignored on a lane the role does not use. -/
def Dev.writeLane (d : Dev) (src : Source) (l addr w : Nat) : Dev := if d.role.usesLane l then d.plainWrite src addr w else d

/-- LN_CTRL of lane `l` written with one bit changed (R375). -/
def Dev.lnBit (d : Dev) (src : Source) (l bit : Nat) (on : Bool) : Dev :=
  let a := 0x5000 + 0x80 * l
  let v := d.readFields (fieldsAt a)
  d.writeLane src l a (if on then setBit v bit else clearBit v bit)

def execLaneEnable (src : Source) (l : Nat) (s : State) : Res :=
  onUnit 48 l (fun d => d.gated src (0x5000 + 0x80 * l) fun d => d.lnBit src l 0 true) s

def execLaneDisable (src : Source) (l : Nat) (s : State) : Res :=
  onUnit 48 l (fun d => d.gated src (0x5000 + 0x80 * l) fun d => d.lnBit src l 0 false) s

def execLaneIdleEnter (src : Source) (l : Nat) (s : State) : Res :=
  onUnit 48 l (fun d => d.gated src (0x5000 + 0x80 * l) fun d => d.lnBit src l 1 true) s

def execLaneIdleExit (src : Source) (l : Nat) (s : State) : Res :=
  onUnit 48 l (fun d => d.gated src (0x5000 + 0x80 * l) fun d => d.lnBit src l 1 false) s

def execLaneAttestSet (src : Source) (l : Nat) (set : Bool) (s : State) : Res :=
  onUnit 48 l (fun d => d.gated src (0x5000 + 0x80 * l) fun d => d.lnBit src l 4 set) s

def execAssayStart (src : Source) (l : Nat) (s : State) : Res :=
  onUnit 48 l (fun d => d.gated src (0x5000 + 0x80 * l) fun d => d.lnBit src l 10 true) s

/-- ASSAY_START as it takes effect (R369): an entry of KIND 0xD, unless an assay of the lane waits or runs. -/
def Dev.softAssay (d : Dev) (l : Nat) : Dev :=
  if d.flt.assays.any fun a => a.u == { unit := 4, loc := l } then d else d.raiseLaneAssay l 13 0

/-! ### Lane assay verdict (R370) -/

/-- LANE_ASSAY_VERDICT: lasting, transient or inconclusive, when the limits or frame counts say so. -/
def Dev.laneVerdict (d : Dev) (l : Nat) : Dev :=
  match d.flt.assays.find? fun a => a.u == { unit := 4, loc := l } && a.running with
  | none => d
  | some a =>
    let errs := d.get (Reg.LN_ASSAY_ERR_PRBS_ERR l)
    let crc := d.get (Reg.LN_ASSAY_ERR_CRC_ERR l)
    let words := d.get (Reg.LN_ASSAY_WORDS_WORDS l)
    let frames := max 1 (d.get Reg.LN_ASSAY_CFG_ASSAY_FRAMES)
    let enough := decide (1024 * max 1 (d.get Reg.LN_ASSAY_CFG_MIN_KWORDS) ≤ words)
    let v := if 0 < errs || decide (max 1 (d.get Reg.LN_ASSAY_CFG_CRC_LIMIT) ≤ crc) then 2
             else if decide (a.fn + frames ≤ d.fn) && enough then 1
             else if a.fn + 10 * frames ≤ d.fn then 3 else 0
    if !d.up || v = 0 then d
    else
      let d := d.verdict a.u v
      ((d.set (Reg.LN_STATUS_ASSAY_VERDICT l) v).setB (Reg.LN_STATUS_ASSAY_ACTIVE l) false).raise 8 3 [l, v, errs, crc]

def execLaneAssayVerdict (l : Nat) (s : State) : Res := onUnit 48 l (fun d => d.laneVerdict l) s

/-! ### Eye scan (R371, R379, R380) -/

/-- A write of LN_EYE_CTRL: START begins a point at once; it is ignored while throttle actions are in force (R495). -/
def Dev.writeEye (d : Dev) (src : Source) (l w : Nat) : Dev :=
  if !d.role.usesLane l then d
  else
    let d := d.plainWrite src (0x5024 + 0x80 * l) w
    if bitOf w 17 && !d.pw.throttle then
      let fn := d.fn
      (((d.setB (Reg.LN_EYE_CTRL_BUSY l) true).setB (Reg.LN_EYE_CTRL_DONE l) false).set (Reg.LN_EYE_ERR_ERRORS l) 0).updLane l fun x =>
        { x with eyeFn := fn }
    else d

def execEyeScanStart (src : Source) (l : Nat) (val : Word) (s : State) : Res :=
  onUnit 48 l (fun d => d.gated src (0x5024 + 0x80 * l) fun d => d.writeEye src l val.toNat) s

/-- EYE_SCAN_DONE: after 2^(20 + DWELL_LOG2) bits, 20,000 or 5,000 to a frame; at H = 0 and V = 0 the samplers agree. -/
def Dev.eyeDone (d : Dev) (l errors : Nat) : Dev :=
  let bitsN := 2 ^ (20 + min 12 (d.get (Reg.LN_EYE_CTRL_DWELL_LOG2 l)))
  let per := if (d.lane l).txFull then 20000 else 5000
  let centre := d.get (Reg.LN_EYE_CTRL_H l) == 0 && d.get (Reg.LN_EYE_CTRL_V l) == 0
  whenD (d.up && d.flag (Reg.LN_EYE_CTRL_BUSY l) && decide ((d.lane l).eyeFn + bitsN / per ≤ d.fn)) (fun d =>
    (((d.set (Reg.LN_EYE_ERR_ERRORS l) (if centre then 0 else min errors (2 ^ 32 - 1))).setB (Reg.LN_EYE_CTRL_BUSY l) false)).setB
      (Reg.LN_EYE_CTRL_DONE l) true) d

def execEyeScanDone (l errors : Nat) (s : State) : Res := onUnit 48 l (fun d => d.eyeDone l errors) s

end Sys2Proof.Machine
end

