-- ==== Sys2Proof/Machine/Egress.lean ====
section
/-! DEFINITION. The hub's egress pool (R228 to R231, R313 to R319, R335): one queue of records per receive ring, its pages, its loss
records, the entry being filled, and head words. -/
namespace Sys2Proof.Machine

/-! ### Engine and link -/

/-- Whether the hub's ring engine runs (R336). -/
def Dev.engineOn (d : Dev) : Bool := d.role == .hub && d.effB Reg.HR_CTRL_ENABLE

/-- Whether the PCI Express link is up in D0 (R344). -/
def Dev.linkUp (d : Dev) : Bool := d.flag Reg.HR_LINK_STATUS_LINK_UP

/-- Words one write request carries (R301): the payload size of Device Control, of which 512 bytes are supported. -/
def Dev.payloadWords (d : Dev) : Nat := 32 * 2 ^ min 2 d.hr.payload

/-- Words to host memory from address `addr` on, in write requests of at most `k` words; `n` bounds their number. -/
def Dev.putFrom (k : Nat) : Nat → Nat → List Word → Dev → Dev
  | 0, _, _, d => d
  | n + 1, addr, ws, d =>
    if ws.isEmpty then d else Dev.putFrom k n (addr + 4 * k) (ws.drop k) (d.emit (.hostWrite addr (ws.take k)))

/-- Words to host memory. -/
def Dev.hostPut (d : Dev) (addr : Nat) (ws : List Word) : Dev := d.putFrom d.payloadWords (ws.length / d.payloadWords + 1) addr ws

/-- `bytes` bytes read from host memory, in requests of at most Max_Read_Request_Size and 512 bytes (R301). -/
def Dev.hostGet (d : Dev) (addr bytes : Nat) : Dev :=
  let k := 128 * 2 ^ min 2 d.hr.readReq
  (List.range ((bytes + k - 1) / k)).foldl (fun d i => d.emit (.hostRead (addr + i * k) (min k (bytes - i * k)))) d

/-- A 64-bit base address held in a pair of registers (R337). -/
def Dev.base64 (d : Dev) (lo hi : Fld) : Nat := d.get lo + d.get hi * 2 ^ 32

/-- Class 0x07 events (R329). -/
def Dev.ringEvent (d : Dev) (code : Nat) (data : List Nat) : Dev := d.raise 7 code data

/-- A ring error (R312, R314, R315, R343): recorded, counted, with event 0x0002. -/
def Dev.ringErr (d : Dev) (r cause : Nat) : Dev :=
  (((d.set Reg.HR_RING_ERR_RING r).set Reg.HR_RING_ERR_CAUSE cause).addWrap Reg.HR_RING_ERR_COUNT 1).ringEvent 2 [r, cause]

/-! ### Pages (R229) -/

/-- The first `k` words of a queue released (R229). -/
def Ring.release (g : Ring) (k : Nat) : Ring :=
  { g with qStart := (g.qStart + k) % 1024, pages := g.held }

/-- At a boundary the pages behind the release position go back to the free list. -/
def Dev.freeRings (d : Dev) : Dev :=
  d.hr.rings.foldl (fun d p =>
    let g := d.ring p.1
    if g.pages = g.need then d else d.putRing p.1 { g with pages := g.need }) d

/-! ### Queues -/

/-- The queue changed: records that have left it wait as members of a bundle no more. -/
def Ring.withQueue (g : Ring) (wait hold : List (List Word)) : Ring :=
  { g with wait := wait, hold := hold, members := g.members.filter fun m => wait.contains m.2 || hold.contains m.2 }

/-- The bundle of a record that waits: none for one that is no member, a header among them (R288). -/
def Ring.bundleOf (g : Ring) (w : List Word) : Option Nat :=
  if recTyp (natsOf w) = 6 then none else (g.members.find? fun m => m.2 == w).map (·.1)

/-- Whether record `w`, the next for the ring, continues the bundle of the record before it, or the run of its reference (R313). -/
def Ring.continues (g : Ring) (w : List Word) : Bool :=
  (recRef (natsOf w)).isSome || ((g.bundleOf w).isSome && g.bundleOf w == g.cur)

/-- Record `w` taken from the queue's front into the open entry. -/
def Ring.took (g : Ring) (w : List Word) : Ring :=
  let b := if recTyp (natsOf w) = 6 then some (recSeq (natsOf w)) else g.bundleOf w
  let ms := match g.members.find? fun m => m.2 == w with
    | some m => g.members.erase m
    | none => g.members
  let es := updFirst (·.isOpen) (fun x => { x with recs := x.recs ++ [w] }) g.entries
  { g with wait := g.wait.drop 1, cur := b, members := ms, entries := es }

/-- Whether a ring takes records. -/
def Ring.takesRecs (g : Ring) : Bool := g.st == 1 && g.typ == 1

/-- A record at the end of ring r's queue; without a free page it waits in the builder (R230). -/
def Dev.pushRec (d : Dev) (r : Nat) (ws : List Word) : Dev :=
  let g := d.ring r
  let g' := { g with wait := g.wait ++ [ws] }
  if g.hold.isEmpty && decide (g'.held ≤ g.held + d.freePages) then d.putRing r g'
  else d.setRing r { g with hold := g.hold ++ [ws] }

/-- Records that wait for a page move into the pool while it has room. -/
def Dev.drainHold (d : Dev) (r : Nat) : Dev :=
  (d.ring r).hold.foldl (fun d ws =>
    let g := d.ring r
    let g' := { g with wait := g.wait ++ [ws], hold := g.hold.drop 1 }
    if g.hold.head? == some ws && decide (g'.held ≤ g.held + d.freePages) then d.putRing r g' else d) d

/-- A hub's loss record of `k` hit or stream records of device `dev` (R221: written off, ring full, link down). -/
def Dev.hubLoss (d : Dev) (dev fn reason k : Nat) (stream maybe : Bool) : Loss :=
  { dev := dev, chan := 63, fn := fn, writer := d.devnumAt fn, port := 63, reason := reason, known := true, last := none, stream := stream,
    maybe := maybe, seqValid := false, count := k, firstSeq := 0, seq := 0 }

/-- Originating device and kind of a record, which make different loss records (R220). -/
def lossKind (w : List Nat) : Nat × Bool := (recDev w, recTyp w == 2)

/-- How many records of each originating device and kind a list holds, in its order. -/
def lossKinds (rs : List (List Nat)) : List (Nat × Bool × Nat) :=
  (dedupBy (· == ·) (rs.map lossKind)).map fun k => (k.1, k.2, (rs.filter fun w => lossKind w == k).length)

/-- Whether an unsent record `w` is a loss record of the same key (R220). -/
def sameLoss (w l : List Nat) : Bool := nth w 0 == nth l 0 && nth w 2 == nth l 2 && nth w 3 == nth l 3

/-- A loss record with `k` more lost. -/
def moreLost (w : List Word) (k : Nat) : List Word :=
  let n := natsOf w
  wordsOf (n.set 4 (min 65535 (nth n 4 % 65536 + k) + nth n 4 / 65536 * 65536))

/-- A hub's loss record into ring `r`: added to an unsent one of its key, queued, or discarded and counted where the ring is not enabled
(R220, R335). -/
def Dev.loseTo (d : Dev) (r : Nat) (l : Loss) : Dev :=
  let g := d.ring r
  let ws := lossWords l
  if !g.takesRecs then d.addWrap Reg.HR_DROP_STATS_NO_RING 1
  else if g.wait.any fun w => sameLoss (natsOf w) ws then
    d.setRing r { g with wait := updFirst (fun w => sameLoss (natsOf w) ws) (fun w => moreLost w l.count) g.wait }
  else if g.hold.any fun w => sameLoss (natsOf w) ws then
    d.setRing r { g with hold := updFirst (fun w => sameLoss (natsOf w) ws) (fun w => moreLost w l.count) g.hold }
  else
    let q := d.nextSeq 201
    (q.2.addWrap Reg.GLB_LADDER_LOSS_LOSS_RECORDS 1).pushRec r (wordsOf (lossWords { l with seq := q.1 % 65536 }))

/-- ACCT_RING. -/
def Dev.acctRing (d : Dev) : Nat := d.get Reg.MRG_RING_SEL0_ACCT_RING

/-- The frame an FI near the present one names (R47). -/
def Dev.fnOfFi (d : Dev) (fi : Nat) : Nat := ((d.fn : Int) + fiDiff fi d.fi).toNat

/-- A record that a receive ring cannot take becomes a loss record of REASON 0x5 in ACCT_RING, a loss record is discarded and counted, a
bundle header goes (R335). -/
def Dev.noRing (d : Dev) (ws : List Word) : Dev :=
  let w := natsOf ws
  if recTyp w = 4 then d.addWrap Reg.HR_DROP_STATS_NO_RING 1
  else if recTyp w = 6 then d
  else d.loseTo d.acctRing (d.hubLoss (recDev w) (d.fnOfFi (recFi w)) 5 1 (recTyp w == 2) false)

/-! ### Head words (R316, R317, R319) -/

/-- Frames of a queue's records not yet in a written entry; delayed loss records of this hub aside. -/
def Dev.unsentFrames (d : Dev) (g : Ring) : List Nat :=
  let open' := (g.entries.filter fun e => !e.written).flatMap (·.recs)
  ((open' ++ g.wait ++ g.hold).filter fun w =>
    !(recTyp (natsOf w) == 4 && nth (natsOf w) 3 % 65536 == d.devnum && decide (d.fnOfFi (recFi (natsOf w)) + 128 < d.fn))).map fun w =>
    d.fnOfFi (recFi (natsOf w))

/-- The latest frame the merge and the builder have finished with; before the first frame the hub merges, all frames past. -/
def Dev.finished (d : Dev) : Nat :=
  let judged := (d.acq.fstats.filter (·.judged)).map (·.fn)
  let last := judged.foldl max (match d.rcd.startFn with | some s => s - 1 | none => d.fn - 1)
  d.mrg.bjs.foldl (fun a b => min a (b.1 - 1)) last

/-- DONE_FI of a head word. -/
def Dev.doneFi (d : Dev) (g : Ring) : Nat :=
  if g.typ ≠ 1 then d.fi % 2 ^ 24
  else ((d.unsentFrames g).foldl (fun a f => min a (f - 1)) d.finished) % 2 ^ 24

/-- The two words of ring r's head word. -/
def Dev.headWord (d : Dev) (g : Ring) : List Nat :=
  [g.head % 2 ^ 32, pack [(0, 24, d.doneFi g), (26, 3, g.rewinds), (29, 1, b2n g.error), (30, 1, b2n g.stopped)]]

/-- Head word r written (R316). -/
def Dev.writeHead (d : Dev) (r : Nat) : Dev :=
  if !d.linkUp then d
  else
    let fn := d.fn
    let base := d.base64 Reg.HR_HEAD_BASE_LO_ADDR_LO Reg.HR_HEAD_BASE_HI_ADDR_HI
    (d.emit (.hostWrite (base + 8 * r) (wordsOf (d.headWord (d.ring r))))).updRing r fun g => { g with lastHeadFn := fn }

/-- A head-word write that advanced HEAD makes the ring's vector pending (R321). -/
def Dev.pendVec (d : Dev) (r : Nat) : Dev :=
  let g := d.ring r
  if g.intEn && !d.hr.vecPend.contains g.vec then { d with hr := { d.hr with vecPend := d.hr.vecPend ++ [g.vec] } } else d

/-- HEAD advanced to `h`, its head word written, its vector pending. -/
def Dev.advanceHead (d : Dev) (r h : Nat) : Dev := ((d.updRing r fun g => { g with head := h % 2 ^ 32 }).writeHead r).pendVec r

/-! ### Entries (R314, R315) -/

/-- The entry a ring is filling. -/
def Ring.openEntry (g : Ring) : Option Entry := g.entries.find? (·.isOpen)

/-- Words the open entry has room for. -/
def Ring.room (g : Ring) (e : Entry) : Nat := g.bufKb * 256 - wordCount e.recs

/-- The records that go with record `w` when it is written off: itself and those of its queue that depend on it (R257). -/
def withDeps (w : List Word) (l : List (List Word)) : List (List Word) := l.filter fun q => q == w || dependsOn (natsOf q) (natsOf w)

/-- The open entry takes records from the queue while they fit; one longer than the buffer is written off with those that depend on it (R257,
R314, R315). `n` bounds the records. -/
def Dev.fillEntry (r : Nat) : Nat → Dev → Dev
  | 0, d => d
  | n + 1, d =>
    let g := d.ring r
    match g.openEntry, g.wait with
    | some e, w :: t =>
      if !d.linkUp then d
      else if g.bufKb * 256 < w.length then
        let off := w :: withDeps w (t ++ g.hold)
        let keep (l : List (List Word)) : List (List Word) := l.filter fun q => !off.contains q
        Dev.fillEntry r n ((off.foldl Dev.noRing (d.putRing r (g.withQueue (keep t) (keep g.hold)))).ringErr r 4)
      else if g.room e < w.length then d
      else Dev.fillEntry r n ((d.setRing r (g.took w)).hostPut (e.buf + 4 * wordCount e.recs) w)
    | _, _ => d

/-- Ring r's open entry filled with what waits. -/
def Dev.fill (d : Dev) (r : Nat) : Dev := Dev.fillEntry r (d.ring r).wait.length d

/-- Records for receive ring r, those of a run together (R283, R335). -/
def Dev.toRing (d : Dev) (r : Nat) (rs : List (List Word)) : Dev :=
  if (d.ring r).takesRecs then (rs.foldl (fun d w => d.pushRec r w) d).fill r else rs.foldl Dev.noRing d

end Sys2Proof.Machine
end

