-- ==== Sys2Proof/Machine/Merge.lean ====
section
/-! DEFINITION. Merging in a cell device and a hub (08_cell_and_hub_merging.md): receipt of records, hub check, horizon verdict, merge
order, coincidence builder, and the route table. -/
namespace Sys2Proof.Machine

/-! ### Receiving (R275, R34) -/

/-- Frames to the device's horizon (R27): 40 in a cell device, 56 in a hub. -/
def Dev.horizon (d : Dev) : Nat := if d.role == .hub then 56 else 40

/-- Whether DEVNUM `dev` of a record of type `typ` fits port l's entry, or its previous value within 64 frames of the write (R275). In a
hub, whose partners forward the records of other devices (R209, R283), only a cell summary names the partner (log entry 28). -/
def Dev.fitsPort (d : Dev) (l dev typ : Nat) : Bool :=
  dev == d.eff (Reg.MRG_PORT_DEV_DEVNUM l)
    || (match d.mrg.portPrev.find? fun p => p.1 == l with
        | some p => decide (d.fn < p.2.2) && dev == p.2.1
        | none => false)
    || (d.role == .hub && typ != 5)

/-- Whether frame `fn` is past the device's horizon. -/
def Dev.pastHorizon (d : Dev) (fn : Nat) : Bool :=
  decide (fn + d.horizon < d.fn) || (match d.frameOf fn with | some s => s.judged | none => false)

/-- RECORD_RECEIVED (R275, R34): the oldest record taken whole on port l enters the receive FIFO or is discarded and counted. One whose
reference a memory error has written off goes with it (R257, R258). -/
def Dev.recordReceived (d : Dev) (l : Nat) : Dev :=
  match (d.lane l).recIn with
  | [] => d
  | ws :: t =>
    if !d.up || !decide (l < d.role.downLanes) then d
    else
      let d := d.updLane l fun x => { x with recIn := t }
      let w := natsOf ws
      let fn := d.fnOfFi (recFi w)
      if !(d.inData l && d.effB (Reg.MRG_PORT_DEV_VALID l) && d.fitsPort l (recDev w) (recTyp w)) then
        d.addSat Reg.MRG_RX_STATS_UNASSOC 1
      else if 1 < fiDiff (recFi w) d.fi then d.addSat Reg.MRG_RX_STATS_FUTURE 1
      else if d.pastHorizon fn then d.addWrap Reg.GLB_LADDER_LATE_LATE_RECORDS 1
      else
        let off := d.mrg.rxFifo.any fun q => q.lost && q.port == l && dependsOn w (natsOf q.words)
        let r : RxRec := { port := l, fn := fn, words := ws, arr := d.mrg.arrivals, checked := false, lost := off }
        { d with mrg := { d.mrg with rxFifo := d.mrg.rxFifo ++ [r], arrivals := d.mrg.arrivals + 1 } }

def execRecordReceived (l : Nat) (s : State) : Res := onUnit 48 l (fun d => d.recordReceived l) s

/-! ### Hub check (R261, R263) -/

/-- Words, samples and width of a record with samples. -/
def sampleShape (w : List Nat) : Nat × Nat :=
  if recTyp w = 1 then (bits (nth w 5) 0 14, 16)
  else (bits (nth w 3) 8 10, if bitOf (nth w 3) 2 then 24 else 16)

/-- Check word of a record. -/
def recCheck (w : List Nat) : Nat := nth w (w.length - 1)

/-- What the decoder makes of a record, with the samples of its reference where one is found good. -/
def decodeRec (w : List Nat) (ref : Option (List Int)) : Decoded :=
  let sh := sampleShape w
  let pay := recPayload w
  if recEnc w = 1 then checked sh.2 (recCheck w) (.ok (rawSamples sh.2 sh.1 pay))
  else if recEnc w ≠ 2 then .bad 1
  else match preambleCause pay with
    | some c => .bad c
    | none =>
      if (preambleRef pay).isSome && ref.isNone then .bad 6
      else checked sh.2 (recCheck w) (decodePayload sh.2 sh.1 (if (preambleRef pay).isSome then ref else none) pay)

/-- Whether records x and r use the same reference. -/
def RxRec.sibling (x r : RxRec) : Bool :=
  let a := natsOf x.words
  let b := natsOf r.words
  (recRef a).isSome && recRef a == recRef b && recDev a == recDev b && recFi a == recFi b

/-- The first record of the run of x (R257, R261): the record before x on its port, other members of the run and records of the stream region
apart, where x depends on it; its samples where it does not itself fail. -/
def refOf (rs : List RxRec) (x : RxRec) : Option (List Int) :=
  let before := (rs.filter fun r => r.port == x.port && decide (r.arr < x.arr)).reverse
  match before.find? fun r => !(recTyp (natsOf r.words) == 2 || x.sibling r) with
  | none => none
  | some r =>
    if !(dependsOn (natsOf x.words) (natsOf r.words) && (recRef (natsOf r.words)).isNone) then none
    else match decodeRec (natsOf r.words) none with
      | .ok xs => some xs
      | .bad _ => none

/-- One record checked: CORRUPT set where it fails, with its counts, log entry and the assay of the port. -/
def Dev.checkRec (d : Dev) (x : RxRec) : Dev :=
  let put (d : Dev) (y : RxRec) : Dev := { d with mrg := { d.mrg with rxFifo := updFirst (fun r => r.arr == x.arr) (fun _ => y) d.mrg.rxFifo } }
  let w := natsOf x.words
  match decodeRec w (refOf d.mrg.rxFifo x) with
  | .ok _ => put d { x with checked := true }
  | .bad c =>
    let d := put d { x with checked := true, words := wordsOf (w.set 0 (setBit (nth w 0) 6)) }
    let d := (d.addWrap Reg.CMP_CHECK_STATS_CORRUPT 1).addWrap Reg.CMP_CHECK_STATS_NO_REF (b2n (c == 6))
    (((d.set Reg.CMP_CHECK_LAST_PORT x.port).set Reg.CMP_CHECK_LAST_CAUSE c).set Reg.CMP_CHECK_LAST_DEVNUM (recDev w)).raiseLaneAssay
      x.port 7 7

/-- Whether a record carries samples. -/
def hasSamples (w : List Nat) : Bool := recTyp w == 1 || recTyp w == 2

/-- HUB_RECORD_CHECK (R263): the oldest unchecked record of port p. -/
def Dev.hubCheck (d : Dev) (p : Nat) : Dev :=
  if !d.up || d.role != .hub then d
  else match d.mrg.rxFifo.find? fun r => r.port == p && !r.checked && hasSamples (natsOf r.words) with
    | some r => d.checkRec r
    | none => d

def execHubRecordCheck (p : Nat) (s : State) : Res := onUnit 48 p (fun d => d.hubCheck p) s

/-! ### Merge order and copies (R273, R274) -/

/-- Class of a TYPE in merge order. -/
def mergeClass (typ : Nat) : Nat :=
  if typ = 1 ∨ typ = 2 then 0 else if typ = 4 then 1 else if typ = 3 then 2 else if typ = 5 then 3 else 4

/-- The keys of R273 as one number. -/
def mergeKey (w : List Nat) (arr : Nat) : Nat :=
  let t := recTyp w
  let time := if t = 1 then bits (nth w 4) 0 20
    else if t = 2 ∧ bits (nth w 3) 8 10 ≠ 0 ∧ bits (nth w 5) 0 5 = 0 then bits (nth w 4) 0 20 else 0
  let writer := if t = 4 then bits (nth w 3) 0 16 else 0
  (((((mergeClass t * 2 ^ 20 + time) * 65536 + recDev w) * 64 + recChan w) * 16 + t) * 65536 + writer) * 2 ^ 64 + arr

/-- What two records agree in when they are copies. -/
def copyKey (w : List Nat) : List Nat :=
  let t := recTyp w
  [t, recDev w, recFi w, recSeq w,
    if t = 1 then recChan w else if t = 2 then bits (nth w 3) 0 2 else if t = 4 then bits (nth w 3) 0 16 else 0]

/-- Whether record x depends on record r, which itself uses no reference (R256, R257). -/
def RxRec.isDep (x r : RxRec) : Bool := dependsOn (natsOf x.words) (natsOf r.words) && (recRef (natsOf r.words)).isNone

/-- One item of merge order: a record, or a reference with its dependents from the same port. -/
abbrev MergeItem := List RxRec

/-- The items of the records of one frame. -/
def itemsOf (rs : List RxRec) : List MergeItem :=
  (rs.filter fun x => !(rs.any fun r => r.port == x.port && x.isDep r)).map fun r =>
    r :: rs.filter fun x => x.port == r.port && x.isDep r

/-- Copy key of an item: that of its first record. -/
def itemKey (i : MergeItem) : List Nat := copyKey (natsOf ((i.head?.map (·.words)).getD []))

/-- Members of an item marked CORRUPT. -/
def itemCorrupt (i : MergeItem) : Nat := (i.filter fun r => bitOf (nth (natsOf r.words) 0) 6).length

/-- Port of an item. -/
def itemPort (i : MergeItem) : Nat := (i.head?.map (·.port)).getD 0

/-- Whether copy a is kept rather than copy b. -/
def betterCopy (a b : MergeItem) : Bool :=
  if a.length ≠ b.length then decide (b.length < a.length)
  else if itemCorrupt a ≠ itemCorrupt b then decide (itemCorrupt a < itemCorrupt b) else decide (itemPort a < itemPort b)

/-- One copy of each item, in merge order (R273, R274). -/
def mergeItems (rs : List RxRec) : List MergeItem :=
  let kept := dedupBy (fun a b => itemKey a == itemKey b) (sortBy betterCopy (itemsOf rs))
  let inRun (i : MergeItem) : Bool := i.length == 1 && kept.any fun k => decide (1 < k.length) && (k.drop 1).any fun r =>
    copyKey (natsOf r.words) == itemKey i
  let key (i : MergeItem) : Nat := mergeKey (natsOf ((i.head?.map (·.words)).getD [])) ((i.head?.map (·.arr)).getD 0)
  sortBy (fun a b => decide (key a < key b)) (kept.filter fun i => !inRun i)

/-! ### The horizon (R277) -/

/-- Partner sets: each device number of a valid port entry in force, with its ports. -/
def Dev.partnerSets (d : Dev) : List (Nat × List Nat) :=
  let ports := (List.range d.role.downLanes).filter fun p => d.effB (Reg.MRG_PORT_DEV_VALID p)
  let num (p : Nat) : Nat := d.eff (Reg.MRG_PORT_DEV_DEVNUM p)
  (dedupBy (· == ·) (ports.map num)).map fun n => (n, ports.filter fun p => num p == n)

/-- Distinct records of a list. -/
def distinct (rs : List RxRec) : Nat := (dedupBy (· == ·) (rs.map fun r => copyKey (natsOf r.words))).length

/-- The records of a set that its summaries count, and the count they state; none without a summary by P. -/
def summaryCount (p : Nat) (rs : List RxRec) : Option (Nat × Nat) :=
  let of' (t : Nat) := rs.filter fun r => recTyp (natsOf r.words) == t && recDev (natsOf r.words) == p
  let cells := of' 5
  let fes := of' 3
  if !cells.isEmpty then
    some (distinct (rs.filter fun r => !(recTyp (natsOf r.words) == 5 && recDev (natsOf r.words) == p)),
      (cells.map fun r => bits (nth (natsOf r.words) 3) 0 16).foldl max 0)
  else if !fes.isEmpty then
    some (distinct (of' 1 ++ of' 2),
      (fes.map fun r => bits (nth (natsOf r.words) 6) 0 16 + bits (nth (natsOf r.words) 6) 16 3).foldl max 0)
  else none

/-- Ports of a set that delivered a summary by P. -/
def summaryPorts (p : Nat) (rs : List RxRec) : List Nat :=
  (rs.filter fun r => (recTyp (natsOf r.words) == 3 || recTyp (natsOf r.words) == 5) && recDev (natsOf r.words) == p).map (·.port)

/-- W5 of a horizon loss record: the last hit or stream record of the set in merge order, in which a run stands at its reference (R273). -/
def lastOf (rs : List RxRec) : Option (Nat × Nat × Bool) :=
  ((mergeItems rs).flatten.filter fun r => hasSamples (natsOf r.words)).getLast?.map fun r =>
    let w := natsOf r.words
    if recTyp w = 2 then (bits (nth w 4) 20 12, recChan w, true) else (bits (nth w 3) 0 12, recChan w, false)

/-- The verdict on one partner set (R277): 1 whole, 2 late, 3 absent, with the loss record where it is not whole. -/
def Dev.judgeSet (d : Dev) (fn : Nat) (rs : List RxRec) (set : Nat × List Nat) : Nat × Option Loss :=
  let mine := rs.filter fun r => set.2.contains r.port
  let whole := match summaryCount set.1 mine with
    | some c => decide (c.2 ≤ c.1)
    | none => false
  if whole then (1, none)
  else
    let absent := set.2.all fun p => match d.mrg.svcFn.find? fun q => q.1 == p with
      | some q => decide (q.2 < fn)
      | none => true
    let have' := summaryPorts set.1 mine
    let port := ((set.2.filter fun p => !have'.contains p).head?).getD (set.2.headD 0)
    (if absent then 3 else 2,
      some { dev := set.1, chan := 63, fn := fn, writer := d.devnumAt fn, port := port, reason := if absent then 4 else 3, known := false,
             last := lastOf mine, stream := false, maybe := false, seqValid := false, count := 0, firstSeq := 0, seq := 0 })

/-- MRG_PORT_LOSS (R298) counts the loss records of the horizon. -/
def Dev.countPortLoss (d : Dev) (l : Loss) : Dev :=
  if l.reason ≠ 3 ∧ l.reason ≠ 4 then d
  else if l.reason = 4 then d.addWrap (Reg.MRG_PORT_LOSS_ABSENT l.port) 1 else d.addWrap (Reg.MRG_PORT_LOSS_LATE l.port) 1

/-- What stands at one place of merge order: received records, or a loss record the device writes here. -/
inductive Placed where
  | recs (i : MergeItem)
  | own (l : Loss)

/-- Merge key of a place. -/
def Placed.key : Placed → Nat
  | .recs i => mergeKey (natsOf ((i.head?.map (·.words)).getD [])) ((i.head?.map (·.arr)).getD 0)
  | .own l => mergeKey (lossWords l) (2 ^ 64 - 1)

/-! ### The cell's uplink FIFO (R278, R279) -/

/-- Whether a forwarded item is of the accounting classes, which are never dropped to make room (R33, R221). -/
def isAcct (typ : Nat) : Bool := typ == 3 || typ == 4 || typ == 5

/-- One item placed into the uplink FIFO. Once a record that may be dropped finds no room, the later ones of the frame are dropped too (R33); a
record of the accounting classes without room waits for it (R225). It answers whether dropping has begun. -/
def Dev.placeItem (fn : Nat) (acc : Bool × Dev) (i : MergeItem) : Bool × Dev :=
  let d := acc.2
  let ws := i.map (·.words)
  let push (d : Dev) : Dev := ws.foldl (fun d w => d.fifoPush (natsOf w) fn none false) d
  if isAcct (recTyp (natsOf (ws.headD []))) then
    (acc.1, if d.reserveTaken || decide (d.rcd.pool < d.fifoPages (wordCount ws)) then
        { d with rcd := { d.rcd with accWait := d.rcd.accWait ++ ws.map fun w => (fn, w) } }
      else push d)
  else if !acc.1 && decide (d.fifoPages (wordCount ws) + d.reservePages ≤ d.rcd.pool) then (false, push d)
  else
    let d := (lossKinds (ws.map natsOf)).foldl (fun d k => d.lose (d.hubLoss k.1 fn 1 k.2.2 k.2.1 false)) d
    (true, (d.addWrap Reg.REC_FIFO_STATS_DROPPED i.length).updFrame fn fun s => { s with nDrop := s.nDrop + i.length })

/-- The eight words of a cell summary without its counts, which are written when it is sent (R279). -/
def cellSummary (s : FStat) (seq : Nat) : List Nat :=
  let v := (List.range 40).foldl (fun a p => a + getT 0 p s.ports * 4 ^ p) 0
  [recW0 5 0 63 (s.val Reg.GLB_DEVICE_NUMBER_DEVNUM), recW1 8 seq, s.fn % 2 ^ 32,
    pack [(24, 3, s.clkState), (27, 1, b2n s.slipped), (28, 1, s.selected), (29, 1, s.val Reg.MRG_UPLINK_CFG_MIRROR)], 0,
    v % 2 ^ 32, v / 2 ^ 32 % 2 ^ 32, v / 2 ^ 64 % 2 ^ 32]

/-- Forwarded accounting records of frame `fn` that wait enter the FIFO while the reserve has room; `n` bounds them. -/
def Dev.drainAcc (fn : Nat) : Nat → Dev → Dev
  | 0, d => d
  | n + 1, d =>
    match d.rcd.accWait.find? fun p => p.1 == fn with
    | none => d
    | some p =>
      if d.rcd.pool < d.fifoPages p.2.length then d
      else Dev.drainAcc fn n ({ d with rcd := { d.rcd with accWait := d.rcd.accWait.erase p } }.fifoPush (natsOf p.2) fn none false)

/-- One frame closed: its accounting records that wait, then its cell summary. Once one finds no room the later ones wait behind it (R225). It
answers whether there has been room so far. -/
def Dev.closeCell (acc : Bool × Dev) (s : FStat) : Bool × Dev :=
  let d := if acc.1 then Dev.drainAcc s.fn acc.2.rcd.accWait.length acc.2 else acc.2
  let owed := !s.summed && !s.gone
  if !acc.1 || d.rcd.accWait.any (fun p => p.1 == s.fn) || (owed && decide (d.rcd.pool < d.fifoPages 8)) then
    (false, if !owed || d.rcd.sumWait.contains s.fn then d else { d with rcd := { d.rcd with sumWait := d.rcd.sumWait ++ [s.fn] } })
  else if !owed then (true, d)
  else
    let d := { d with rcd := { d.rcd with sumWait := d.rcd.sumWait.filter (· != s.fn) } }
    let q := d.nextSeq 202
    (true, (q.2.fifoPush (cellSummary s (q.1 % 65536)) s.fn none true).updFrame s.fn fun s => { s with summed := true })

/-- The cell summaries of judged frames enter the FIFO, oldest first, with the accounting records that wait, while the reserve has room (R225,
R278). -/
def Dev.cellSummaries (d : Dev) : Dev :=
  ((d.acq.fstats.filter fun s => s.judged && d.recording s.fn
    && ((!s.summed && !s.gone) || d.rcd.accWait.any fun p => p.1 == s.fn)).foldl Dev.closeCell (true, d)).2

/-! ### The hub's sorting (R281, R283) -/

/-- Front-ends whose frame summary of the frame and all the hit and stream records it counts are at hand (R281). -/
def completeDevs (items : List MergeItem) : List Nat :=
  let rs := items.flatten
  (rs.filter fun r => recTyp (natsOf r.words) == 3).filterMap fun r =>
    let dev := recDev (natsOf r.words)
    let w6 := nth (natsOf r.words) 6
    let n := distinct (rs.filter fun x => hasSamples (natsOf x.words) && recDev (natsOf x.words) == dev)
    if bits w6 0 16 + bits w6 16 3 ≤ n then some dev else none

/-- Whether a loss record (DEVNUM, WRITER, REASON) is retired by R281. -/
def retired (devs : List Nat) (dev writer reason : Nat) : Bool :=
  devs.contains dev && writer != dev && decide (2 ≤ reason ∧ reason ≤ 4)

/-- Whether a place of merge order is a loss record that R281 retires. -/
def Placed.isRetired (devs : List Nat) : Placed → Bool
  | .recs i => match i with
    | r :: _ =>
      let w := natsOf r.words
      recTyp w == 4 && retired devs (recDev w) (bits (nth w 3) 0 16) (bits (nth w 3) 22 4)
    | [] => false
  | .own l => retired devs l.dev l.writer l.reason

/-- J of R284 by the settings in force. -/
def Dev.builderJ (d : Dev) : Nat :=
  let ws := (List.range 8).map fun s => if d.effB (Reg.MRG_SEL_CFG_ENABLE s) then min 64000 (d.eff (Reg.MRG_SEL_CFG_WINDOW_NS s)) else 0
  (ws.foldl max 0 + 999) / 1000

/-- The ring of the hub in which a record of type `t` that does not go to the builder ends (R283). A record of a reserved TYPE, for which no ring
is named, goes to ACCT_RING (log entry 29). -/
def Dev.ringFor (d : Dev) (t : Nat) : Nat :=
  if t = 1 then d.get Reg.MRG_RING_SEL1_RESIDUE_RING else if t = 2 then d.get Reg.MRG_RING_SEL0_STREAM_RING else d.acctRing

/-- An item of merge order goes to its destination, a run together (R258, R283). -/
def Dev.sortItem (d : Dev) (i : MergeItem) : Dev :=
  let t := recTyp (natsOf ((i.head?.map (·.words)).getD []))
  if t = 1 ∧ d.effB Reg.MRG_HUB_CTRL_BUILD_EN = true then { d with mrg := { d.mrg with bwait := d.mrg.bwait ++ i } }
  else d.toRing (d.ringFor t) (i.map (·.words))

/-- A place of merge order carried out in a hub. -/
def Dev.sortPlaced (d : Dev) : Placed → Dev
  | .recs i => d.sortItem i
  | .own l => (d.countPortLoss l).loseTo d.acctRing l

/-- A place of merge order carried out in a cell device. -/
def Dev.cellPlaced (fn : Nat) (acc : Bool × Dev) : Placed → Bool × Dev
  | .recs i => Dev.placeItem fn acc i
  | .own l => (acc.1, (acc.2.countPortLoss l).lose l)

/-! ### HORIZON_VERDICT -/

/-- Records of frame `fn` still unchecked in a hub are checked before the merge (R263, R283). -/
def Dev.checkFrame (d : Dev) (fn : Nat) : Dev :=
  if d.role != .hub then d
  else (d.mrg.rxFifo.filter fun r => r.fn == fn && !r.checked && hasSamples (natsOf r.words)).foldl Dev.checkRec d

/-- The records that a memory error wrote off in the receive FIFO and of which no copy stands on another port (R223, R274). -/
def goneRx (rs kept : List RxRec) : List (List Nat) :=
  (rs.filter fun r => r.lost && !kept.any fun k => copyKey (natsOf k.words) == copyKey (natsOf r.words)).map fun r => natsOf r.words

/-- Their loss records, one for each originating device and kind (R220, R221, R432). In a cell device those of the accounting classes and of
reserved TYPEs, which cannot be restated, have none (R227). -/
def Dev.lostRx (d : Dev) (fn : Nat) (gone : List (List Nat)) : List Loss :=
  (lossKinds (if d.role == .hub then gone else gone.filter hasSamples)).map fun k => d.hubLoss k.1 fn 8 k.2.2 k.2.1 false

/-- The cell summary of a frame of which a record that cannot be restated is gone is withheld (R227). -/
def Dev.withholdRx (d : Dev) (fn : Nat) (gone : List (List Nat)) : Dev :=
  if d.role == .cell && gone.any fun w => !hasSamples w then d.withhold fn else d

/-- The verdict and merge of frame `fn` (R277, R278, R283). -/
def Dev.judgeFrame (d : Dev) (fn : Nat) : Dev :=
  let d := d.checkFrame fn
  let rs := d.mrg.rxFifo.filter fun r => r.fn == fn
  let d := { d with mrg := { d.mrg with rxFifo := d.mrg.rxFifo.filter fun r => decide (fn < r.fn) } }
  if !d.recording fn then d.updFrame fn fun s => { s with judged := true }
  else
    let kept := rs.filter fun r => !r.lost
    let items := mergeItems kept
    let dups := kept.length - items.flatten.length
    let sets := d.partnerSets
    let verdicts := sets.map fun s => (s.2, d.judgeSet fn rs s)
    let ports := verdicts.flatMap fun v => v.1.map fun p => (p, v.2.1)
    let gone := goneRx rs kept
    let losses := verdicts.filterMap (fun v => v.2.2) ++ d.lostRx fn gone
    let places := sortBy (fun a b => decide (a.key < b.key)) (items.map Placed.recs ++ losses.map Placed.own)
    let d := (d.addWrap Reg.MRG_DEDUP_STATS_DUPLICATES dups).updFrame fn fun s =>
      { s with judged := true, nDup := dups, ports := ports }
    let d := d.withholdRx fn gone
    if d.role == .hub then
      let done := completeDevs items
      let out := places.filter fun p => p.isRetired done
      let keep := places.filter fun p => !p.isRetired done
      let d := (keep.foldl Dev.sortPlaced d).addWrap Reg.MRG_DEDUP_STATS_RETIRED out.length
      if d.effB Reg.MRG_HUB_CTRL_BUILD_EN then { d with mrg := { d.mrg with bjs := d.mrg.bjs ++ [(fn, d.builderJ)] } } else d
    else (places.foldl (Dev.cellPlaced fn) (false, d)).2

/-- HORIZON_VERDICT: the oldest frame at its horizon, in a cell device with the cell summaries that wait. -/
def Dev.horizonVerdict (d : Dev) : Dev :=
  if !d.up || !(d.role == .cell || d.role == .hub) then d
  else
    let d := match d.acq.fstats.find? fun s => !s.judged with
      | some s => if s.fn + d.horizon ≤ d.fn then d.judgeFrame s.fn else d
      | none => d
    if d.role == .cell then d.cellSummaries else d

def execHorizonVerdict (s : State) : Res := onDev Dev.horizonVerdict s

/-! ### Coincidence builder (R284 to R288) -/

/-- Trigger time of a hit record relative to frame F. -/
def trigTime (fn : Nat) (r : RxRec) : Nat := (r.fn - fn) * 1024000 + bits (nth (natsOf r.words) 4) 0 20

/-- Whether a record matches set entry e (R285). -/
def Dev.inSet (d : Dev) (e : Nat) (r : RxRec) : Bool :=
  let w := natsOf r.words
  ((recDev w ^^^ d.eff (Reg.MRG_SET_DEV_DEVNUM e)) &&& d.eff (Reg.MRG_SET_DEV_CARE e)) == 0
    && (if recChan w < 32 then bitOf (d.eff (Reg.MRG_SET_CHLO_CHAN_LO e)) (recChan w)
        else bitOf (d.eff (Reg.MRG_SET_CHHI_CHAN_HI e)) (recChan w - 32))

/-- Whether a record matches one of the set entries named in a mask. -/
def Dev.inSets (d : Dev) (mask : Nat) (r : RxRec) : Bool := (setBits mask 32).any fun e => d.inSet e r

/-- Distinct (DEVNUM, CHAN) pairs of a group. -/
def pairsOf (g : List RxRec) : Nat := (dedupBy (· == ·) (g.map fun r => (recDev (natsOf r.words), recChan (natsOf r.words)))).length

/-- Distinct DEVNUM values of a group. -/
def devsOf (g : List RxRec) : Nat := (dedupBy (· == ·) (g.map fun r => recDev (natsOf r.words))).length

/-- The conditions of selector s on a group (R285). -/
def Dev.meets (d : Dev) (s : Nat) (g : List RxRec) : Bool :=
  decide (max 1 (d.eff (Reg.MRG_SEL_COND_MIN_MULT s)) ≤ pairsOf g) && decide (max 1 (d.eff (Reg.MRG_SEL_COND_MIN_DEV s)) ≤ devsOf g)
    && decide (d.eff (Reg.MRG_SEL_COND_MIN_REQ s) ≤ (g.filter (d.inSets (d.eff (Reg.MRG_SEL_REQ_REQ_SETS s)))).length)
    && !(g.any (d.inSets (d.eff (Reg.MRG_SEL_VETO_VETO_SETS s))))

/-- Whether two records belong to one run (R257). -/
def sameRun (x y : RxRec) : Bool :=
  x.isDep y || y.isDep x || x.sibling y

/-- The records of a bundle: those of g in order, each run whole and in run order at the place of its first member (R258, R284, R288). -/
def bundleOrder (all g : List RxRec) : List RxRec :=
  g.foldl (fun out r =>
    if out.any fun x => x.arr == r.arr then out
    else out ++ all.filter fun x => (x.arr == r.arr || sameRun x r) && !(out.any fun y => y.arr == x.arr)) []

/-- A bundle header (R288). -/
def bundleHead (dev fn s seq ta last : Nat) (g rs : List RxRec) : List Nat :=
  [recW0 6 0 63 dev, recW1 8 seq, fn % 2 ^ 32,
    pack [(0, 3, s), (3, 1, b2n (g.length == 1024)), (16, 16, rs.length)], pack [(0, 24, wordCount (rs.map (·.words)))], ta,
    pack [(0, 16, pairsOf g), (16, 16, devsOf g)], pack [(0, 27, last - ta)]]

/-- A bundle emitted by selector s (R284, R288, R335). -/
def Dev.emitBundle (d : Dev) (s fn ta : Nat) (g : List RxRec) : Dev :=
  let r := d.eff (Reg.MRG_SEL_COND_RING s)
  let rs := bundleOrder d.mrg.bwait g
  let last := (g.getLast?.map (trigTime fn)).getD ta
  let d := { d with mrg := { d.mrg with bwait := d.mrg.bwait.filter fun x => !(rs.any fun y => y.arr == x.arr) } }
  let d := (d.addWrap (Reg.MRG_SEL_STATS_ACCEPTED s) 1).addWrap Reg.MRG_BUILD_STATS_GROUPS 1
  if (d.ring r).takesRecs then
    let q := d.nextSeq (1000 + r)
    let seq := q.1 % 65536
    let d := q.2.updRing r fun x => { x with members := x.members ++ rs.map fun y => (seq, y.words) }
    d.toRing r (wordsOf (bundleHead (d.devnumAt fn) fn s seq ta last g rs) :: rs.map (·.words))
  else d.toRing r (rs.map (·.words))

/-- One anchor of frame `fn`, whose J is `j`, tried for selector s. -/
def Dev.tryAnchor (s fn j : Nat) (d : Dev) (a : RxRec) : Dev :=
  if !(d.mrg.bwait.any fun x => x.arr == a.arr) then d
  else
    let ta := trigTime fn a
    let hi := ta + 1024 * min 64000 (d.eff (Reg.MRG_SEL_CFG_WINDOW_NS s))
    let cand := (d.mrg.bwait.filter fun x => decide (fn ≤ x.fn ∧ x.fn ≤ fn + j ∧ ta ≤ trigTime fn x ∧ trigTime fn x ≤ hi))
    let g := (sortBy (fun x y => decide (trigTime fn x < trigTime fn y)) cand).take 1024
    if d.meets s g then d.emitBundle s fn ta g else d

/-- One selector over the anchors of frame `fn`. -/
def Dev.select (fn j : Nat) (d : Dev) (s : Nat) : Dev :=
  if !d.effB (Reg.MRG_SEL_CFG_ENABLE s) then d
  else
    let as := sortBy (fun x y => decide (trigTime fn x < trigTime fn y)) (d.mrg.bwait.filter fun x => x.fn == fn)
    as.foldl (Dev.tryAnchor s fn j) d

/-- Hit records no bundle claims (R286). -/
def Dev.unclaimed (d : Dev) (fn : Nat) : Dev :=
  let rest := d.mrg.bwait.filter fun x => x.fn == fn
  let d := { d with mrg := { d.mrg with bwait := d.mrg.bwait.filter fun x => x.fn != fn } }
  if d.effB Reg.MRG_HUB_CTRL_BUILD_EN && d.effB Reg.MRG_HUB_CTRL_UNSELECTED then
    let devs := sortBy (fun a b => decide (a < b)) (dedupBy (· == ·) (rest.map fun r => recDev (natsOf r.words)))
    (devs.foldl (fun d v =>
      d.loseTo d.acctRing (d.hubLoss v fn 7 (rest.filter fun r => recDev (natsOf r.words) == v).length false false)) d).addWrap
        Reg.MRG_BUILD_STATS_WRITTEN_OFF rest.length
  else d.toRing (d.ringFor 1) (rest.map (·.words))

/-- The first frame F whose groups close now: F+56+J has come and every frame to F+J has been merged (R284). A frame with the smaller J does not
wait for an older one with a larger (R287). -/
def Dev.nextBuild (d : Dev) : Option (Nat × Nat) :=
  d.mrg.bjs.find? fun b => decide (b.1 + 56 + b.2 ≤ d.fn) && d.acq.fstats.all fun s => s.judged || decide (b.1 + b.2 < s.fn)

/-- BUILDER_PROCESS (R284): at F+56+J the groups anchored in F. -/
def Dev.build (d : Dev) : Dev :=
  match d.nextBuild with
  | none => d
  | some b =>
    if !d.up || d.role != .hub then d
    else
      let d := { d with mrg := { d.mrg with bjs := d.mrg.bjs.filter (· != b) } }
      let d := if d.effB Reg.MRG_HUB_CTRL_BUILD_EN then (List.range 8).foldl (Dev.select b.1 b.2) d else d
      d.unclaimed b.1

def execBuilderProcess (s : State) : Res := onDev Dev.build s

/-- A change of J by the settings now in force: frames past their horizon keep the larger (R287). -/
def Dev.widenJ (d : Dev) : Dev :=
  let j := d.builderJ
  { d with mrg := { d.mrg with bjs := d.mrg.bjs.map fun b => (b.1, max b.2 j) } }

/-! ### Route table (R289, R296) -/

/-- Entry of the route table in force. -/
def Dev.routeEntry (d : Dev) (n : Nat) : Nat := (getT 0#32 n d.mrg.routes).toNat

/-- The port on which a message for device `n` is forwarded: the primary one in data service and valid, else the alternate (R289). -/
def Dev.route (d : Dev) (n : Nat) : Option Nat :=
  let w := d.routeEntry n
  let ok (p : Nat) (v : Bool) : Bool := v && decide (p < d.role.downLanes) && d.inData p
  if ok (bits w 0 6) (bitOf w 6) then some (bits w 0 6)
  else if ok (bits w 7 6) (bitOf w 13) then some (bits w 7 6) else none

/-- Whether the route table serves the role. -/
def Dev.hasRoutes (d : Dev) : Bool := d.role == .cell || d.role == .hub

/-- A write of MRG_ROUTE_DATA (R296): the entry is fixed now, the value takes effect at the next boundary. -/
def Dev.writeRoute (d : Dev) (w : Nat) : Dev :=
  if d.hasRoutes then d.enqueue (.route (d.get Reg.MRG_ROUTE_ADDR_DEVNUM) (w32 (w % 16384))) else d

def execRouteDataWrite (src : Source) (val : Word) (s : State) : Res :=
  onDev (fun d => d.gated src 0x8024 fun d => d.writeRoute val.toNat) s

/-- A route-table write in force. -/
def Dev.applyRoute (d : Dev) (entry : Nat) (w : Word) : Dev := { d with mrg := { d.mrg with routes := putT entry w d.mrg.routes } }

end Sys2Proof.Machine
end

