-- ==== Sys2Proof/Machine/Rings.lean ====
section
/-! DEFINITION. Host rings (09_host_rings_and_the_tally_sweep.md): ring engine, enable and disable, index words, entries, head words,
MSI-X, the tally sweep, failures of the link, resets of the endpoint, and the egress deadline. -/
namespace Sys2Proof.Machine

/-- Whether the hub may read and write host memory for its rings (R333, R336). -/
def Dev.ringsRun (d : Dev) : Bool := d.up && d.engineOn && d.linkUp

/-- A step about ring r of 4,096. -/
def onRing (r : Nat) (f : Dev → Dev) (s : State) : Res := onUnit 4096 r f s

/-! ### Registers (R336 to R338) -/

/-- A write of HR_CTRL (R336): 0 into ENABLE is ignored while a ring is not OFF. -/
def Dev.writeHrCtrl (d : Dev) (src : Source) (w : Nat) : Dev :=
  if d.role != .hub then d
  else if !bitOf w 0 && d.hr.rings.any fun p => p.2.st != 0 then d.setB Reg.HR_CTRL_CTRL_REFUSED true
  else d.plainWrite src 0x9000 w

def execHrCtrlWrite (src : Source) (val : Word) (s : State) : Res :=
  onDev (fun d => d.gated src 0x9000 fun d => d.writeHrCtrl src val.toNat) s

/-- A write of a base address (R337): ignored while ENABLE is 1; the low bits of a LO register read 0. -/
def Dev.writeHrBase (d : Dev) (src : Source) (addr w : Nat) : Dev :=
  if d.role != .hub || d.flag Reg.HR_CTRL_ENABLE then d
  else
    let low := if addr = 0x9004 then 4096 else if addr % 8 = 4 then 64 else 1
    d.plainWrite src addr (w / low * low)

/-- A write of HR_RING_OP (R338). -/
def Dev.writeRingOp (d : Dev) (w : Nat) : Dev :=
  if d.role != .hub then d
  else
    let r := bits w 0 12
    let op := bits w 12 2
    let d := d.set Reg.HR_RING_OP_RING r
    if (op = 1 ∨ op = 2) ∧ d.flag Reg.HR_RING_OP_BUSY = false then
      ({ d with hr := { d.hr with ringOp := some (r, op) } }).setB Reg.HR_RING_OP_BUSY true
    else d

def execRingDisable (src : Source) (r : Nat) (s : State) : Res :=
  onRing r (fun d => d.gated src 0x9024 fun d => d.writeRingOp (r + 2 * 2 ^ 12)) s

/-- The operation is over with this RESULT. -/
def Dev.endRingOp (d : Dev) (result : Nat) : Dev :=
  (({ d with hr := { d.hr with ringOp := none } }).setB Reg.HR_RING_OP_BUSY false).set Reg.HR_RING_OP_RESULT result

/-! ### Index words (R305, R311, R312) -/

/-- Cause for which an index word breaks the invariants of R305, 0 for none. -/
def Ring.indexCause (g : Ring) (post confirm : Nat) : Nat :=
  let n := 2 ^ g.log2
  match g.typ with
  | 1 =>
    if n < cntDiff g.head confirm then 2
    else if n < cntDiff post confirm ∨ cntDiff post confirm < cntDiff g.head confirm then 1 else 0
  | 2 => if n < cntDiff post g.head then 1 else 0
  | _ => if n < cntDiff g.head confirm then 2 else 0

/-- Entries below C released (R229, R311). -/
def Ring.confirmTo (g : Ring) (c : Nat) : Ring :=
  let below (e : Entry) : Bool := decide (2 ^ 31 ≤ cntDiff e.j c)
  let words := ((g.entries.filter below).map fun e => wordCount e.recs).sum
  { g.release words with entries := g.entries.filter (fun e => !below e), confirm := c }

/-- An index word applied to ring r, or refused (R311, R312). -/
def Dev.applyIndex (d : Dev) (r post confirm : Nat) : Dev :=
  let g := d.ring r
  if g.st ≠ 1 then d
  else
    let cause := g.indexCause post confirm
    if cause ≠ 0 then
      let d := (d.setRing r { g with error := true }).ringErr r cause
      if g.error then d else d.writeHead r
    else
      let g' := if g.typ = 2 then { g with post := post, error := false }
        else { (g.confirmTo confirm) with post := (if g.typ = 1 then post else g.post), error := false }
      let d := d.putRing r g'
      if g.error then d.writeHead r else d

/-- The index words that meet `p` are applied, in order of arrival. -/
def Dev.applyWhere (d : Dev) (p : Nat × Nat × Nat × Nat → Bool) : Dev :=
  let due := d.hr.lines.filter p
  let d := { d with hr := { d.hr with lines := d.hr.lines.filter fun x => !p x } }
  due.foldl (fun d x => d.applyIndex x.1 x.2.1 x.2.2.1) d

/-- The index words that arrived before the present frame are applied (R311). -/
def Dev.applyLines (d : Dev) : Dev := d.applyWhere fun x => decide (x.2.2.2 < d.fn)

/-- Before rings that meet `p` are rewound, the index words that have arrived for them in the present frame are applied as well: the release comes
first (R231, R311). -/
def Dev.releaseFirst (d : Dev) (p : Nat → Bool) : Dev := d.applyWhere fun x => decide (x.2.2.2 < d.fn) || p x.1

def execIndexWordApply (s : State) : Res := onDev (fun d => whenD (d.up && d.engineOn) Dev.applyLines d) s

/-! ### Enable (R306, R307) -/

/-- RESULT of the checks on a ring table entry. -/
def Dev.entryResult (d : Dev) (w : List Nat) : Nat :=
  let typ := bits (nth w 2) 0 2
  let log2 := bits (nth w 2) 8 5
  let kb := bits (nth w 3) 0 11
  let fr := bits (nth w 3) 16 7
  let reply := d.ring (bits (nth w 4) 0 12)
  if typ = 0 ∨ log2 < 4 ∨ 16 < log2 ∨ nth w 0 % 64 ≠ 0 then 1
  else if typ = 1 ∧ (kb < 1 ∨ 1024 < kb ∨ fr < 1 ∨ 64 < fr) then 1
  else if typ = 2 ∧ ¬(reply.st = 1 ∧ reply.typ = 3) then 4
  else 0

/-- A ring as an enable leaves it. -/
def ringOf (w : List Nat) (fn : Nat) : Ring :=
  { Ring.init with
    st := 1, typ := bits (nth w 2) 0 2, base := nth w 0 + nth w 1 * 2 ^ 32, log2 := bits (nth w 2) 8 5, vec := bits (nth w 2) 16 6,
    intEn := bitOf (nth w 2) 22, bufKb := bits (nth w 3) 0 11, entFrames := bits (nth w 3) 16 7, hb := bits (nth w 3) 24 8,
    replyRing := bits (nth w 4) 0 12, lastHeadFn := fn }

/-- RING_ENABLE (R307): the table entry and the index word of the enable that took effect are read and checked. -/
def Dev.ringEnable (d : Dev) (r : Nat) (entry : List Nat) (post confirm : Nat) : Dev :=
  if !(d.ringsRun && d.hr.ringOp == some (r, 3)) then d
  else
    let res := d.entryResult entry
    if res ≠ 0 then d.endRingOp res
    else ((d.putRing r (ringOf entry d.fn)).applyIndex r post confirm).endRingOp 0

def execRingEnable (r : Nat) (entry : List Word) (post confirm : Nat) (s : State) : Res :=
  onRing r (fun d => d.ringEnable r (natsOf entry) post confirm) s

/-! ### Disable (R332) -/

/-- A ring becomes STOPPING: what waits for it is written off or discarded. -/
def Dev.stopRing (d : Dev) (r : Nat) : Dev :=
  let g := d.ring r
  let d := d.putRing r { g.withQueue [] [] with st := 2, lost := 0 }
  if g.typ = 1 then (g.wait ++ g.hold).foldl Dev.noRing d
  else if g.typ = 3 then d.addWrap Reg.HR_DROP_STATS_EVT_DROPPED g.wait.length else d

/-- RING_STOPPED (R332): the last descriptor is written, or the last command fetched has come; the final head word and the ring-stopped event follow, and the ring is OFF from the
next boundary. -/
def Dev.ringStopped (d : Dev) (r : Nat) : Dev :=
  let g := d.ring r
  whenD (d.ringsRun && g.st == 2 && !g.finalHead && g.entries.all (·.written) && (g.typ != 2 || g.head == g.fetched)) (fun d =>
    let d := (d.setRing r { g with stopped := true, finalHead := true }).writeHead r
    if d.get Reg.HR_EVT_CFG_EVENT_RING = r then d else d.ringEvent 1 [r, g.head]) d

def execRingStopped (r : Nat) (s : State) : Res := onRing r (fun d => d.ringStopped r) s

/-- Rings whose stop is complete become OFF; a command ring's REPLY_RING still answers what it has fetched. -/
def Dev.finishRings (d : Dev) : Dev :=
  (d.hr.rings.filter fun p => p.2.finalHead).foldl (fun d p => d.putRing p.1 { Ring.init with replyRing := p.2.replyRing }) d

/-- HR_RING_OP at a boundary (R338): an enable asks for the table entry and the index word, a disable stops the ring. An enable whose reads are
out ends with the engine off. -/
def Dev.ringOpBoundary (d : Dev) : Dev :=
  match d.hr.ringOp with
  | some (r, 1) =>
    if !d.engineOn then d.endRingOp 3
    else if (d.ring r).st ≠ 0 then d.endRingOp 2
    else if !d.linkUp then d
    else
      let tab := d.base64 Reg.HR_TABLE_BASE_LO_ADDR_LO Reg.HR_TABLE_BASE_HI_ADDR_HI
      let idx := d.base64 Reg.HR_INDEX_BASE_LO_ADDR_LO Reg.HR_INDEX_BASE_HI_ADDR_HI
      ({ d with hr := { d.hr with ringOp := some (r, 3) } }.emit (.hostRead (tab + 64 * r) 64)).emit (.hostRead (idx + 8 * r) 8)
  | some (_, 3) => if d.engineOn then d else d.endRingOp 3
  | some (r, 2) =>
    if !d.engineOn then d.endRingOp 3 else if (d.ring r).st ≠ 1 then d.endRingOp 2 else (d.stopRing r).endRingOp 0
  | _ => d

/-! ### Entries (R313 to R318) -/

/-- Address of entry slot j of a ring (R305). -/
def Ring.slotAddr (g : Ring) (j : Nat) : Nat := g.base + 32 * (j % 2 ^ g.log2)

/-- Whether what waits for the ring goes on with the bundle or run of the record before it (R313). -/
def Ring.goesOn (g : Ring) : Bool := match (g.wait ++ g.hold).head? with
  | some w => g.continues w
  | none => false

/-- ENTRY_OPEN (R314): the hub reads the buffer address of entry HEAD's slot; the entry opens and takes what waits, and a misaligned buffer stops
the ring. -/
def Dev.entryOpen (d : Dev) (r buf : Nat) : Dev :=
  let g := d.ring r
  let free := cntDiff g.post g.nextJ
  if !(d.ringsRun && g.takesRecs && !g.wait.isEmpty && g.openEntry.isNone && decide (free ≠ 0) && decide (free ≤ 2 ^ g.log2)) then d
  else
    let d := d.emit (.hostRead (g.slotAddr g.nextJ) 8)
    if buf % 8 ≠ 0 then (d.stopRing r).ringErr r 3
    else
      let e : Entry := { j := g.nextJ, buf := buf, recs := [], openFn := d.fn, closeFn := 0, cont := g.goesOn, more := false, isOpen := true,
                         closed := false, written := false }
      (d.setRing r { g with entries := g.entries ++ [e] }).fill r

def execEntryOpen (r buf : Nat) (s : State) : Res := onRing r (fun d => d.entryOpen r buf) s

/-- Whether the open entry e closes at the end of the present frame (R314). -/
def Dev.mustClose (d : Dev) (g : Ring) (e : Entry) : Bool :=
  g.st == 2 || decide (e.openFn + g.entFrames ≤ d.fn + 1)
    || (match g.wait with
        | w :: _ => decide (g.room e < w.length)
        | [] => false)
    || e.recs.any fun w => decide (d.fnOfFi (recFi (natsOf w)) + 126 ≤ d.fn)

/-- ENTRY_CLOSE (R314). -/
def Dev.entryClose (d : Dev) (r : Nat) : Dev :=
  let g := d.ring r
  match g.openEntry with
  | none => d
  | some e =>
    if !(d.up && d.mustClose g e) then d
    else
      let fn := d.fn
      let shut (x : Entry) : Entry := { x with isOpen := false, closed := true, closeFn := fn, more := g.goesOn }
      d.setRing r { g with entries := updFirst (·.isOpen) shut g.entries }

def execEntryClose (r : Nat) (s : State) : Res := onRing r (fun d => d.entryClose r) s

/-- The descriptor of a closed entry (R313). -/
def descWords (e : Entry) : List Nat :=
  let rs := e.recs.map natsOf
  let any' (i : Nat) : Bool := rs.any fun w => bitOf (nth w 0) i
  [e.buf % 2 ^ 32, e.buf / 2 ^ 32 % 2 ^ 32, pack [(0, 24, 4 * wordCount e.recs)],
    pack [(0, 16, rs.length), (16, 1, b2n (rs.any fun w => recTyp w == 4)), (17, 1, b2n (any' 6)), (18, 1, b2n (any' 7)), (19, 1, b2n e.cont),
      (20, 1, b2n e.more)],
    recFi (rs.headD []), recFi (rs.getLast?.getD []), e.j, 0]

/-- Entries of an event ring written once more after a rewind. -/
def Dev.rewriteEvents (d : Dev) (r : Nat) : Dev :=
  let g := d.ring r
  let d := (g.entries.filter fun e => !e.written).foldl (fun d e => d.emit (.hostWrite (g.slotAddr e.j) (e.recs.headD []))) d
  d.setRing r { g with entries := g.entries.map fun e => { e with written := true } }

/-- The events-lost descriptor (R327, R331). -/
def lostDesc (dev fi n : Nat) : List Word := wordsOf [3 + dev * 65536, 0, fi, 0, n, 0, 0, 0]

/-- Descriptors of an event ring written into its free entries, an events-lost descriptor first (R331). -/
def Dev.writeEvents (d : Dev) (r : Nat) : Dev :=
  let g0 := d.ring r
  let d := d.rewriteEvents r
  let g := d.ring r
  let free := g0.freeEntries
  let j0 := (g0.head + (g0.entries.filter fun e => !e.written).length) % 2 ^ 32
  let all := if 0 < g.lost ∧ 0 < free then lostDesc d.devnum d.fi g.lost :: g.wait else g.wait
  let now := (all.take free).zipIdx.map fun p =>
    let j := (j0 + p.2) % 2 ^ 32
    ({ j := j, buf := 0, recs := [p.1.set 3 (w32 j)], openFn := d.fn, closeFn := d.fn, cont := false, more := false, isOpen := false,
       closed := true, written := true } : Entry)
  let g' := { g with wait := all.drop free, lost := if 0 < free then 0 else g.lost, entries := g.entries ++ now }
  let d := now.foldl (fun d e => d.emit (.hostWrite (g.slotAddr e.j) (e.recs.headD []))) (d.putRing r g')
  if j0 = g0.head ∧ now.isEmpty = true then d else d.advanceHead r (j0 + now.length)

/-- ENTRY_WRITEBACK (R314, R318, R331): the descriptor of the oldest closed entry and the head word that counts it, or the descriptors that
wait for an event ring. A stopping event ring still writes those a rewind has made due again. -/
def Dev.entryWriteback (d : Dev) (r : Nat) : Dev :=
  let g := d.ring r
  if !d.ringsRun then d
  else if g.typ = 3 then d.writeEvents r
  else match g.entries.find? fun e => !e.written with
    | some e =>
      if e.closed && decide (e.closeFn < d.fn) then
        let d := d.emit (.hostWrite (g.slotAddr e.j) (wordsOf (descWords e)))
        let d := d.setRing r { g with entries := updFirst (fun x => !x.written) (fun x => { x with written := true }) g.entries }
        d.advanceHead r (g.head + 1)
      else d
    | none => d

def execEntryWriteback (r : Nat) (s : State) : Res := onRing r (fun d => d.entryWriteback r) s

/-- EVENTS_LOST_WRITE (R331). -/
def Dev.eventsLost (d : Dev) (r : Nat) : Dev :=
  let g := d.ring r
  whenD (d.ringsRun && g.st == 1 && g.typ == 3 && decide (0 < g.lost) && decide (0 < g.freeEntries))
    (fun d => d.writeEvents r) d

def execEventsLostWrite (r : Nat) (s : State) : Res := onRing r (fun d => d.eventsLost r) s

/-- HEAD_WORD_HEARTBEAT (R317). -/
def Dev.heartbeat (d : Dev) (r : Nat) : Dev :=
  let g := d.ring r
  whenD (d.ringsRun && g.st == 1 && decide (g.hb ≠ 0) && decide (g.lastHeadFn + g.hb ≤ d.fn)) (fun d => d.writeHead r) d

def execHeadWordHeartbeat (r : Nat) (s : State) : Res := onRing r (fun d => d.heartbeat r) s

/-! ### MSI-X (R321, R555) -/

/-- DW k of the MSI-X table (0 to 255) or the PBA (256, 257). A vector is masked after reset (log entry 30). -/
def Dev.msixWord (d : Dev) (k : Nat) : Nat := getT (if k < 256 ∧ k % 4 = 3 then 1 else 0) k d.hr.msix

/-- A DW of the MSI-X structures written. -/
def Dev.setMsix (d : Dev) (k v : Nat) : Dev := { d with hr := { d.hr with msix := putT k (v % 2 ^ 32) d.hr.msix } }

/-- HOLD of vector v (R346). -/
def Dev.vecHold (d : Dev) (v : Nat) : Nat :=
  d.get ([Reg.HR_VEC_HOLD_HOLD0 (v / 4), Reg.HR_VEC_HOLD_HOLD1 (v / 4), Reg.HR_VEC_HOLD_HOLD2 (v / 4)].getD (v % 4) (Reg.HR_VEC_HOLD_HOLD3 (v / 4)))

/-- Whether vector v is masked, by its own bit or by the function's (R321). -/
def Dev.vecMasked (d : Dev) (v : Nat) : Bool := d.hr.msixMask || bitOf (d.msixWord (4 * v + 3)) 0

/-- Whether vector v has had no message in the last HOLD frames (R321). -/
def Dev.vecQuiet (d : Dev) (v : Nat) : Bool :=
  match d.hr.vecLast.find? fun p => p.1 == v with
  | some p => decide (p.2 + d.vecHold v < d.fn)
  | none => true

/-- MSIX_SEND (R321): a pending vector without a message in the last HOLD frames sends one, or sets its PBA bit while masked. The message leaves
at the end of the frame, after all its head words (R318). -/
def Dev.msixSend (d : Dev) (v : Nat) : Dev :=
  let pba := 256 + v / 32
  if !(d.ringsRun && d.hr.msixOn && d.hr.vecPend.contains v) then d
  else if d.vecMasked v then d.setMsix pba (setBit (d.msixWord pba) (v % 32))
  else if d.vecQuiet v && !d.hr.msixDue.contains v then { d with hr := { d.hr with msixDue := d.hr.msixDue ++ [v] } }
  else d

/-- The message of vector v leaves. -/
def Dev.msixOut (d : Dev) (v : Nat) : Dev :=
  let fn := d.fn
  let pba := 256 + v / 32
  let d := d.setMsix pba (clearBit (d.msixWord pba) (v % 32))
  { d with hr := { d.hr with vecPend := d.hr.vecPend.filter (· != v), vecLast := putT v fn d.hr.vecLast } }.emit (.msix v)

/-- The messages of a frame at its end: those of every pending vector that may send one (R318, R321). -/
def Dev.msixEnd (d : Dev) : Dev :=
  let d := d.hr.vecPend.foldl Dev.msixSend d
  let due := d.hr.msixDue.filter fun v => !d.vecMasked v
  due.foldl Dev.msixOut { d with hr := { d.hr with msixDue := [] } }

def execMsixSend (v : Nat) (s : State) : Res := onUnit 64 v (fun d => d.msixSend v) s

/-! ### Replies that do not come (R330) -/

/-- REPLY_TIMEOUT: every outstanding command past its time is answered 0x0C. -/
def Dev.replyTimeout (d : Dev) : Dev :=
  if !d.up || d.role != .hub then d
  else
    let due := d.hr.outst.filter fun o => decide (o.due ≤ d.fn)
    let d := { d with hr := { d.hr with outst := d.hr.outst.filter (fun o => decide (d.fn < o.due)), dead := due.map (·.seq) ++ d.hr.dead } }
    due.foldl (fun d o => d.reply o.cmd 0x0C []) d

def execReplyTimeout (s : State) : Res := onDev Dev.replyTimeout s

/-! ### Egress deadline (R35, R230, R333) -/

/-- The loss records that replace records, one for each frame, device and kind, in the order of the records. A bundle header is a record of this
hub (log entry 31). -/
def Dev.lossesFor (d : Dev) (reason : Nat) (maybe : Bool) (rs : List (List Word)) : List Loss :=
  let ws := rs.map natsOf
  (dedupBy (· == ·) (ws.map fun w => d.fnOfFi (recFi w))).flatMap fun fn =>
    (lossKinds (ws.filter fun w => d.fnOfFi (recFi w) == fn)).map fun k => d.hubLoss k.1 fn reason k.2.2 k.2.1 maybe

/-- Loss records given their SEQ and counted; words, and the device after them. -/
def Dev.writeLosses (d : Dev) (ls : List Loss) : List (List Word) × Dev :=
  ls.foldl (fun acc l =>
    let q := acc.2.nextSeq 201
    (acc.1 ++ [wordsOf (lossWords { l with seq := q.1 % 65536 })], q.2.addWrap Reg.GLB_LADDER_LOSS_LOSS_RECORDS 1)) ([], d)

/-- A loss record that finds fewer than 16 free pages is counted and not held (R333, R345). -/
def Dev.unwritten (d : Dev) (l : Loss) : Dev :=
  let w := d.hr.lossWait
  let fi := l.fn % 2 ^ 32
  { d with hr := { d.hr with lossWait := (w.1 + 1, if w.1 = 0 then fi else w.2.1, fi) } }.addWrap Reg.HR_LOSS_UNWRITTEN_COUNT 1

/-- A loss in place of records of ring r: added to an unsent loss record of its key that waits there (R220), or a new one, which is answered,
or counted and not held (R333). -/
def Dev.loseIn (r : Nat) (acc : List (List Word) × Dev) (l : Loss) : List (List Word) × Dev :=
  let d := acc.2
  let g := d.ring r
  let same (w : List Word) : Bool := sameLoss (natsOf w) (lossWords l)
  let add (q : List (List Word)) : List (List Word) := updFirst same (fun w => moreLost w l.count) q
  if g.wait.any same then (acc.1, d.setRing r { g with wait := add g.wait })
  else if g.hold.any same then (acc.1, d.setRing r { g with hold := add g.hold })
  else if d.freePages < 16 then (acc.1, d.unwritten l)
  else let out := d.writeLosses [l]
       (acc.1 ++ out.1, out.2)

/-- Records of ring r still waiting at the end of F+128 are replaced. A loss record that waits is kept and delivered late (R35; log entry 63). -/
def Dev.deadlineRing (d : Dev) (r : Nat) : Dev :=
  let g := d.ring r
  let late (w : List Word) : Bool := recTyp (natsOf w) != 4 && decide (d.fnOfFi (recFi (natsOf w)) + 128 ≤ d.fn)
  let gone := (g.wait ++ g.hold).filter late
  if gone.isEmpty then d
  else
    let d := d.putRing r (g.withQueue (g.wait.filter fun w => !late w) (g.hold.filter fun w => !late w))
    let out := (d.lossesFor (if d.linkUp then 5 else 6) false gone).foldl (Dev.loseIn r) ([], d)
    let g := out.2.ring r
    (out.2.putRing r { g with wait := out.1 ++ g.wait }).fill r

/-- EGRESS_DEADLINE (R230). -/
def Dev.egressDeadline (d : Dev) : Dev :=
  if !d.up || d.role != .hub then d else (d.hr.rings.filter fun p => p.2.takesRecs).foldl (fun d p => d.deadlineRing p.1) d

def execEgressDeadline (s : State) : Res := onDev Dev.egressDeadline s

/-! ### Rewind (R231, R333) -/

/-- A record sent again. -/
def resend (w : List Word) : List Word :=
  let n := natsOf w
  wordsOf (n.set 0 (setBit (nth n 0) 7))

/-- A record of a written entry whose words in the pool a memory error has spoilt (R432): LENGTH 0, which no record has, marks it. -/
def poisonRec (w : List Word) : List Word := w.set 1 0
def isPoisoned (w : List Word) : Bool := recLen (natsOf w) == 0

/-- The records of one entry after a rewind: those whose F+128 has passed are covered by loss records of REASON 0x6, those spoilt by a
memory error by loss records of REASON 0x8 (R432), the others are sent again with RESEND. -/
def Dev.rewindEntry (r : Nat) (d : Dev) (e : Entry) : Dev :=
  let past (w : List Word) : Bool := !isPoisoned w && decide (d.fnOfFi (recFi (natsOf w)) + 128 < d.fn)
  let out := d.writeLosses (d.lossesFor 6 true (e.recs.filter past) ++ d.lossesFor 8 true (e.recs.filter isPoisoned))
  let again := (e.recs.filter fun w => !past w && !isPoisoned w).map resend
  let recs := out.1 ++ again
  let d := out.2.updRing r fun g =>
    { g with entries := updFirst (fun x => x.j == e.j) (fun x => { x with recs := recs, written := false }) g.entries }
  if d.linkUp then (d.addWrap Reg.EGR_STATS_RESENT again.length).hostPut e.buf recs.flatten else d

/-- RESEND in a reply or event descriptor. -/
def resendDesc (w : List Word) : List Word :=
  let n := natsOf w
  wordsOf (n.set 0 (setBit (nth n 0) 2))

/-- Ring r rewound to the oldest entry not confirmed. -/
def Dev.rewind (d : Dev) (r : Nat) : Dev :=
  let g := d.ring r
  let d := if g.typ = 1 then g.entries.foldl (Dev.rewindEntry r) d
    else d.setRing r { g with entries := g.entries.map fun e => { e with recs := e.recs.map resendDesc, written := false } }
  let g := d.ring r
  let d := (d.putRing r { g with head := g.confirm, rewinds := (g.rewinds + 1) % 8 }).addWrap Reg.EGR_STATS_REWINDS 1
  d.writeHead r

/-- Whether a ring is rewound with the link (R333). -/
def Ring.rewinds? (g : Ring) : Bool := g.st == 1 && (g.typ == 1 || g.typ == 3)

/-- AER_EGRESS_ERROR (R231): confirmations that have arrived are released first (R311). -/
def Dev.aerError (d : Dev) (r : Nat) : Dev :=
  whenD (d.ringsRun && (d.ring r).rewinds?) (fun d => (d.releaseFirst fun q => q == r).rewind r) d

def execAerEgressError (r : Nat) (s : State) : Res := onRing r (fun d => d.aerError r) s

/-! ### The link (R333, R334, R344, R478) -/

/-- A ring as the loss of the link leaves it: descriptors of a command ring whose reads are lost are fetched again (log entry 64). -/
def Ring.unfetched (g : Ring) : Ring := if g.typ = 2 then { g with fetched := g.head } else g

/-- Host memory out of reach: reads outstanding are lost, and an enable whose reads were out waits again (R333). -/
def Dev.readsLost (d : Dev) : Dev :=
  let op := d.hr.ringOp.map fun o => (o.1, if o.2 = 3 then 1 else o.2)
  { d with hr := { d.hr with sweepOut := none, reread := none, ringOp := op, rings := d.hr.rings.map fun p => (p.1, p.2.unfetched) } }

/-- LINK_DOWN (R333, R344): a trained link is lost, in D3hot too. -/
def Dev.linkDown (d : Dev) : Dev :=
  whenD (d.up && d.role == .hub && d.hr.trained) (fun d =>
    let d := d.readsLost
    ((({ d with hr := { d.hr with trained := false } }).setB Reg.HR_LINK_STATUS_LINK_UP false).addWrap
      Reg.HR_LINK_STATUS_DOWN_EVENTS 1).flushGroup 48 true) d

def execLinkDown (s : State) : Res := onDev Dev.linkDown s

/-- The link is up in D0 (R344): the group that crosses to it runs again. -/
def Dev.linkInD0 (d : Dev) : Dev := (d.setB Reg.HR_LINK_STATUS_LINK_UP true).unholdGroup 48

/-- What a link that is back brings about (R333): rings rewound, events, index lines to read again. -/
def Dev.afterRetrain (d : Dev) : Dev :=
  let d := if d.engineOn then d.releaseFirst fun r => (d.ring r).rewinds? else d
  let rs := (d.hr.rings.filter fun p => (d.ring p.1).rewinds?).map (·.1)
  let d := rs.foldl Dev.rewind d
  let w := d.hr.lossWait
  let d := if w.1 = 0 then d else { d with hr := { d.hr with lossWait := (0, 0, 0) } }.ringEvent 5 [w.1, w.2.1, w.2.2]
  { d with hr := { d.hr with reread := some 0 } }.ringEvent 4 [rs.length]

/-- LINK_RETRAIN (R333): the link is back without a reset; in D3hot it is not up in D0 (R344). -/
def Dev.linkRetrain (d : Dev) : Dev :=
  whenD (d.up && d.role == .hub && d.hr.everUp && !d.hr.trained && !d.pins.perst) (fun d =>
    let d := { d with hr := { d.hr with trained := true } }
    if d.flag Reg.HR_LINK_STATUS_D3HOT then d else d.linkInD0.afterRetrain) d

def execLinkRetrain (s : State) : Res := onDev Dev.linkRetrain s

/-- LINK_UP (R301, R478): the link trains for the first time after a reset, at ×16, ×8 or ×4. -/
def Dev.linkUpFirst (d : Dev) (width : Nat) : Dev :=
  whenD (d.up && d.role == .hub && !d.hr.everUp && !d.pins.perst && [4, 8, 16].contains width) (fun d =>
    let d := { d with hr := { d.hr with everUp := true, trained := true, width := width } }
    if d.flag Reg.HR_LINK_STATUS_D3HOT then d else d.linkInD0) d

def execLinkUp (width : Nat) (s : State) : Res := onDev (fun d => d.linkUpFirst width) s

/-- Whether register key `k` belongs to the Host rings block's registers that a reset of the endpoint clears: all but HR_LINK_STATUS and the
statistics (R334; log entry 33). -/
def hrCleared (k : Nat) : Bool :=
  let a := k / 32
  decide (0x9000 ≤ a ∧ a < 0xA000) && !([0x9030, 0x9034, 0x903C, 0x9040].contains a)

/-- Every ring disabled at once, the block at its reset values, the egress pool emptied and its records counted (R334). -/
def Dev.resetRings (d : Dev) : Dev :=
  let count (g : Ring) : Nat := if g.typ = 1 then g.wait.length + g.hold.length + (g.entries.map fun e => e.recs.length).sum else 0
  let n := (d.hr.rings.map fun p => count p.2).sum
  let hr := { d.hr with rings := [], ringOp := none, sweepOut := none, lastByte := 0, lines := [], reread := none, rrRing := 0, outst := [],
                        dead := [], vecPend := [], vecLast := [], msix := [], msixDue := [] }
  let d := { d with hr := hr, regs := d.regs.filter (fun p => !hrCleared p.1), force := d.force.filter fun p => !hrCleared p.1 }
  let f := d.freePages
  (d.addWrap Reg.HR_DROP_STATS_NO_RING n).set Reg.EGR_POOL_FREE_PAGES f

/-- Configuration space as a reset of the function leaves it (log entry 30). -/
def Dev.resetConfig (d : Dev) : Dev :=
  { d with hr := { d.hr with payload := 0, readReq := 2, bar0 := 0, msixOn := false, msixMask := false } }.setB Reg.HR_LINK_STATUS_D3HOT false

/-- PCIE_PERST (R334, R344). -/
def Dev.perst (d : Dev) : Dev :=
  let d := { d with pins := { d.pins with perst := true } }
  if d.up && d.role == .hub then
    let d := (d.resetRings.resetConfig.setB Reg.HR_LINK_STATUS_LINK_UP false).addWrap Reg.HR_LINK_STATUS_DOWN_EVENTS 1
    { d with hr := { d.hr with everUp := false, trained := false } }.flushGroup 48 true
  else d

def execPciePerst (s : State) : Res := onDev Dev.perst s

/-- PCIE_PERST_RELEASE (R522). -/
def Dev.perstRelease (d : Dev) : Dev := { d with pins := { d.pins with perst := false, perstFn := d.pw.frames } }

def execPciePerstRelease (s : State) : Res := onDev Dev.perstRelease s

/-- FUNCTION_LEVEL_RESET (R334): the function is in D0 after it (log entry 30). -/
def Dev.flr (d : Dev) : Dev :=
  whenD (d.up && d.role == .hub) (fun d =>
    let d := (d.resetRings.resetConfig.addWrap Reg.HR_LINK_STATUS_DOWN_EVENTS 1).flushGroup 48 false
    if d.hr.trained then d.linkInD0 else d) d

def execFunctionLevelReset (s : State) : Res := onDev Dev.flr s

/-- D3HOT_ENTRY (R334, R344): the link is no longer up in D0. -/
def Dev.d3hot (d : Dev) : Dev :=
  whenD (d.up && d.role == .hub) (fun d =>
    (((d.resetRings.setB Reg.HR_LINK_STATUS_LINK_UP false).setB Reg.HR_LINK_STATUS_D3HOT true).addWrap Reg.HR_LINK_STATUS_DOWN_EVENTS 1).flushGroup
      48 true) d

def execD3hotEntry (s : State) : Res := onDev Dev.d3hot s

/-- Whether the endpoint answers configuration requests (R522): 30 ms after the later of the role-fixed step and PCIE_PERSTn's release. -/
def Dev.cfgReady (d : Dev) : Bool := d.up && d.role == .hub && !d.pins.perst && decide (d.pins.perstFn + 30000 ≤ d.pw.frames)

/-- What the manual gives of the configuration word at an offset (R301, R557): its value, and the mask of the bits it gives. -/
def Dev.cfgFixed (d : Dev) (offset : Nat) : Nat × Nat :=
  let all := 2 ^ 32 - 1
  match offset / 4 with
  | 0 => (0x00481D7C, all)
  | 2 => (d.hmWord 3 / 2 ^ 24 + 0x118000 * 256, all)
  | 3 => (0, 0x00FF0000)
  | 4 => (d.hr.bar0 % 2 ^ 32 + 4, all)
  | 5 => (d.hr.bar0 / 2 ^ 32, all)
  | 6 | 7 | 8 | 9 | 12 => (0, all)
  | 11 => (0x1D7C + (if d.flag Reg.HM_STATUS_SEALED then d.hmWord 128 / 65536 else 0) * 65536, all)
  | 15 => (0, 0x0000FF00)
  | _ => (0, 0)

/-- A word of a capability (R557). -/
def Dev.cfgCap (d : Dev) : CfgCap → Nat
  | .msixTable => 0x10000
  | .msixPba => 0x11000
  | .serialLo => d.hmWord 0
  | .serialHi => d.hmWord 1

/-- A field of configuration space written; BAR0 takes 1 MiB (R301). D0 is left for no other state but by D3HOT_ENTRY (R344). -/
def Dev.cfgWrite (d : Dev) : CfgReq → Dev
  | .deviceControl p r => { d with hr := { d.hr with payload := p % 8, readReq := r % 8 } }
  | .bar0 high v =>
    let b := if high then d.hr.bar0 % 2 ^ 32 + v.toNat * 2 ^ 32 else d.hr.bar0 / 2 ^ 32 * 2 ^ 32 + v.toNat / 2 ^ 20 * 2 ^ 20
    { d with hr := { d.hr with bar0 := b } }
  | .msix e m => { d with hr := { d.hr with msixOn := e, msixMask := m } }
  | .powerD0 =>
    let d := d.setB Reg.HR_LINK_STATUS_D3HOT false
    if d.hr.trained then d.linkInD0 else d
  | _ => d

/-- CONFIG_REQUEST (R301, R522, R557) over a trained link: Retry Status before the endpoint is ready; bits whose value the manual does not give
are free values (log entry 34). -/
def Dev.configRequest (d : Dev) (q : CfgReq) : Dev :=
  if !(d.up && d.role == .hub && d.hr.trained) || d.pins.perst then d
  else if !d.cfgReady then d.emit .cfgRetry
  else match q with
    | .read offset =>
      let w := d.cfgFixed offset
      if w.2 = 2 ^ 32 - 1 then d.emit (.cfgData (w32 w.1))
      else let f := d.draw
           f.2.emit (.cfgData (w32 ((w.1 &&& w.2) ||| (f.1 % 2 ^ 32 &&& (2 ^ 32 - 1 - w.2)))))
    | .cap c => d.emit (.cfgData (w32 (d.cfgCap c)))
    | w => (d.cfgWrite w).emit .cfgDone

def execConfigRequest (q : CfgReq) (s : State) : Res := onDev (fun d => d.configRequest q) s

/-! ### Tally sweep and fetching (R310, R325, R333) -/

/-- Sweeps skipped, reported at most once per 1,000 frames (R310, R329). -/
def Dev.skipSweep (d : Dev) : Dev :=
  let d := d.addWrap Reg.HR_TALLY_STATS_SKIPPED 1
  let n := d.hr.skipEvt.1 + 1
  let fn := d.fn
  if d.hr.skipEvt.2 = 0 ∨ d.hr.skipEvt.2 + 1000 ≤ fn then { d with hr := { d.hr with skipEvt := (0, fn) } }.ringEvent 3 [n]
  else { d with hr := { d.hr with skipEvt := (n, d.hr.skipEvt.2) } }

/-- Base of the index block. -/
def Dev.indexBase (d : Dev) : Nat := d.base64 Reg.HR_INDEX_BASE_LO_ADDR_LO Reg.HR_INDEX_BASE_HI_ADDR_HI

/-- Base of the doorbell bitmap. -/
def Dev.tallyBase (d : Dev) : Nat := d.base64 Reg.HR_TALLY_BASE_LO_ADDR_LO Reg.HR_TALLY_BASE_HI_ADDR_HI

/-- Index lines read again after a retrain, 64 a frame (R333). -/
def Dev.rereadLines (d : Dev) : Dev :=
  match d.hr.reread with
  | none => d
  | some k =>
    let lines := (rangeFrom k (k + 64)).filter fun b => d.hr.rings.any fun p => p.2.st == 1 && p.1 / 8 == b
    let d := { d with hr := { d.hr with reread := if 512 ≤ k + 64 then none else some (k + 64) } }
    lines.foldl (fun d b => d.emit (.hostRead (d.indexBase + 64 * b) 64)) d

/-- The sweep of a boundary (R310). With the engine or the link off none is outstanding. -/
def Dev.tallySweep (d : Dev) : Dev :=
  if !(d.engineOn && d.linkUp) then { d with hr := { d.hr with sweepOut := none } }
  else
    let d := if d.hr.sweepOut.isSome then d.skipSweep
      else { d with hr := { d.hr with sweepOut := some [] } }.hostGet d.tallyBase 512
    d.rereadLines

/-- The bitmap of the sweep has been read: flagged bytes are cleared and their lines read (R310). -/
def Dev.bitmapRead (d : Dev) (bytes : List Nat) : Dev :=
  if d.hr.sweepOut != some [] then d
  else
    let order := (rangeFrom (d.hr.lastByte + 1) 512) ++ List.range (d.hr.lastByte + 1)
    let z := order.filter fun b => bytes.getD b 0 != 0
    let now := z.take 64
    let d := if 64 < z.length then d.addWrap Reg.HR_TALLY_STATS_DEFERRED 1 else d
    let d := now.foldl (fun d b => d.emit (.hostClear (d.tallyBase + b))) d
    let d := now.foldl (fun d b => d.emit (.hostRead (d.indexBase + 64 * b) 64)) d
    { d with hr := { d.hr with sweepOut := if now.isEmpty then none else some now, lastByte := now.getLast?.getD d.hr.lastByte } }

/-- An index line has arrived: its words wait for the next boundary (R310, R311). -/
def Dev.lineRead (d : Dev) (byte : Nat) (words : List (Nat × Nat)) : Dev :=
  let fn := d.fn
  let new := (words.take 8).zipIdx.map fun p => (8 * byte + p.2, p.1.1 % 2 ^ 32, p.1.2 % 2 ^ 32, fn)
  let out := match d.hr.sweepOut with
    | some (b :: t) => let rest := (b :: t).erase byte; if rest.isEmpty then none else some rest
    | x => x
  { d with hr := { d.hr with sweepOut := out, lines := d.hr.lines ++ new } }

/-- The command ring served next, in rotation (R325). -/
def Dev.nextCmdRing (d : Dev) : Option Nat :=
  let rs := (d.hr.rings.filter fun p => p.2.st == 1 && p.2.typ == 2 && p.2.fetched != p.2.post).map (·.1)
  match rs.find? fun r => decide (d.hr.rrRing < r) with
  | some r => some r
  | none => rs.head?

/-- At most `n` descriptors fetched in a frame. -/
def Dev.fetchSome : Nat → Dev → Dev
  | 0, d => d
  | n + 1, d =>
    match d.nextCmdRing with
    | none => d
    | some r =>
      let g := d.ring r
      let d := (d.setRing r { g with fetched := (g.fetched + 1) % 2 ^ 32 }).emit (.hostRead (g.slotAddr g.fetched) 32)
      Dev.fetchSome n { d with hr := { d.hr with rrRing := r } }

/-- The hub's fetches of a frame: at most 64, and in cold hold at most as many as the core buffer has free places (R499). -/
def Dev.fetchCommands (d : Dev) : Dev :=
  let n := if d.get Reg.PWR_THERM_STATUS_STATE = 4 then 64 - d.coreBuffered else 64
  if d.engineOn && d.linkUp then Dev.fetchSome n d else d

end Sys2Proof.Machine
end

