-- ==== Sys2Proof/Machine/Power.lean ====
section
/-! DEFINITION. Power domains, power classes and thermal control (14_power_domains_and_thermal_control.md): domain starts, drain then
dark, admission, throttle actions, trips, cold hold and release. Domain codes are those of R478. -/
namespace Sys2Proof.Machine

/-- Class 0x0B events (R506). -/
def Dev.pwrEvent (d : Dev) (code : Nat) (data : List Nat) : Dev := d.raise 11 code data

/-- P_MEAS in units of 10 mW (R487). -/
def Dev.pMeas (d : Dev) : Nat := d.get Reg.PWR_INPUT_P_MEAS

/-- T_J in units of 1/16 °C (R493). -/
def Dev.tj (d : Dev) : Int := d.getI Reg.PWR_THERM_STATUS_T_J

/-- T_J as an event or reply word, in two's complement. -/
def Dev.tjWord (d : Dev) : Nat := ofSigned 32 d.tj

/-- Thermal state of R514: 0 NORMAL, 1 WARN, 2 THROTTLE, 3 TRIPPING, 4 COLD_HOLD. -/
def Dev.thermState (d : Dev) : Nat := d.get Reg.PWR_THERM_STATUS_STATE

/-- State of channel domain `n` (R511): 0 DARK, 1 POWERING, 2 ON, 3 CLOSING, 4 DRAINING, 5 LENT, 6 TRIPPED. -/
def Dev.chState (d : Dev) (n : Nat) : Nat := d.get (Reg.PWR_CH_STATE n)
def Dev.setCh (d : Dev) (n st : Nat) : Dev := d.set (Reg.PWR_CH_STATE n) st

/-- Whether channel `n` is enabled in force. -/
def Dev.chEn (d : Dev) (n : Nat) : Bool := d.effB (Reg.CH_CTRL_ENABLE n)

/-- Whether an enabled domain has channel `n` as its lender (R144). -/
def Dev.lending (d : Dev) (n : Nat) : Bool := (List.range 2).any fun k => d.flag (Reg.TIM_DOM_CFG_ENABLE k) && d.lender k == n

/-- Whether channel `n` keeps its power for the time path (R22, R144): channels 0 and 1 in the cell and hub roles, else a lender. -/
def Dev.lends (d : Dev) (n : Nat) : Bool :=
  match d.role with
  | .noRole => false
  | .frontEnd => d.lending n
  | _ => decide (n < 2)

/-- Whether lane-quad domain `q` is to have power (R478); one whose checkers failed stays dark (R430). -/
def Dev.lqWanted (d : Dev) (q : Nat) : Bool :=
  !bitOf (d.get Reg.FLT_SELFTEST_LQ_FAIL) q &&
  if d.role == .hub && decide (8 ≤ q) then
    !d.linkUp || decide (q < 8 + d.hr.width / 4)
  else (rangeFrom (4 * q) (4 * q + 4)).any fun l => d.role.usesLane l && d.effB (Reg.LN_CTRL_ENABLE l)

/-- Whether memory domain `m` is enabled in force. -/
def Dev.mdEn (d : Dev) (m : Nat) : Bool := bitOf (d.eff Reg.PWR_MEM_CTRL_MD_EN) m

/-! ### Power-on (R479, R488) -/

/-- A power-on asked for: `adm` says whether admission applies. -/
def Dev.powerReq (d : Dev) (code : Nat) (adm : Bool) : Dev :=
  if d.pw.req.any fun c => c % 64 == code then d
  else { d with pw := { d.pw with req := d.pw.req ++ [if adm then code + 64 else code] } }

/-- Fused weight of a domain in mW (R508). -/
def Dev.weight (d : Dev) (code : Nat) : Nat :=
  if code < 48 then d.get Reg.PWR_WEIGHT_CH_MW
  else if code < 60 then 10 * d.get Reg.PWR_WEIGHT_LQ_10MW else d.get Reg.PWR_WEIGHT_MD_MW

/-- Whether admission passes (R488). -/
def Dev.admits (d : Dev) (code : Nat) : Bool := decide (10 * d.pMeas + d.weight code ≤ 10 * d.get Reg.PWR_CLASS_CEILING)

/-- A channel that ends its part in the bring-up ramp (R104, R519): RAMP_DONE and the start of FG_WAIT follow the last. -/
def Dev.leaveRamp (d : Dev) (n : Nat) : Dev :=
  if !d.pw.ramp.contains n then d
  else
    let l := d.pw.ramp.filter (· != n)
    let d := { d with pw := { d.pw with ramp := l } }
    if l.isEmpty then
      ({ d with acq := { d.acq with fgDue := some d.fn } }).setB Reg.GLB_BRINGUP_STATUS_RAMP_DONE true
    else d

/-- A channel of the ramp that will not power with it: it does not count for BOOT_DONE either (R134, R519). -/
def Dev.skipRamp (d : Dev) (n : Nat) : Dev :=
  if d.pw.ramp.contains n then (d.setLinBoot (d.acq.linBoot.filter (· != n))).leaveRamp n else d

/-- A refused power-on (R488): the enable bits that asked for it clear. -/
def Dev.refusePower (d : Dev) (code : Nat) : Dev :=
  let d :=
    if code < 48 then (d.setBoth (Reg.CH_CTRL_ENABLE code) 0).skipRamp code
    else if code < 60 then
      (rangeFrom (4 * (code - 48)) (4 * (code - 48) + 4)).foldl (fun d l => d.setBoth (Reg.LN_CTRL_ENABLE l) 0) d
    else d.setBoth Reg.PWR_MEM_CTRL_MD_EN (clearBit (d.eff Reg.PWR_MEM_CTRL_MD_EN) (code - 60))
  ((d.setB Reg.PWR_STATUS_ADMIT_REFUSED true).set Reg.PWR_STATUS_LAST_REFUSED code).pwrEvent 6 [code, d.pMeas]

/-- A domain begins powering with the present frame (R479). -/
def Dev.beginPower (d : Dev) (code : Nat) : Dev :=
  let d := { d with pw := { d.pw with startFn := putT code d.fn d.pw.startFn } }
  if code < 48 then d.setCh code 1 else if code < 60 then d.set (Reg.PWR_DOM_LQ (code - 48)) 1 else d.set (Reg.PWR_DOM_MD (code - 60)) 1

/-- Whether a waiting power-on still stands: its domain is dark and is still asked for. -/
def Dev.stillWanted (d : Dev) (code : Nat) : Bool :=
  if code < 48 then (d.chState code == 0 || d.chState code == 6) && (d.chEn code || d.lends code)
  else if code < 60 then d.get (Reg.PWR_DOM_LQ (code - 48)) == 0 && d.lqWanted (code - 48)
  else d.get (Reg.PWR_DOM_MD (code - 60)) == 0 && d.mdEn (code - 60)

/-- Order of starts (R479): memory, lane-quad, channel domains, each in ascending code. -/
def powerOrder (c : Nat) : Nat := if c % 64 < 48 then 200 + c % 64 else if c % 64 < 60 then 100 + c % 64 else c % 64

/-- Starts of one boundary, at most four. -/
def startList : List Nat → Nat → Dev → Dev
  | [], _, d => d
  | c :: t, room, d =>
    let code := c % 64
    if !d.stillWanted code then startList t room d
    else if 64 ≤ c ∧ d.admits code = false then startList t room (d.refusePower code)
    else match room with
      | 0 => startList t 0 { d with pw := { d.pw with req := d.pw.req ++ [c] } }
      | k + 1 => startList t k (d.beginPower code)

/-- The waiting power-ons at a boundary. -/
def Dev.startPower (d : Dev) : Dev :=
  if d.pw.req.isEmpty || decide (3 ≤ d.thermState) then d
  else startList (sortBy (fun a b => decide (powerOrder a < powerOrder b)) d.pw.req) 4 { d with pw := { d.pw with req := [] } }

/-! ### Channels: drain then dark (R481 to R483) -/

/-- What a channel gives up when it is disabled: calibrations in progress (R107, R134). -/
def Dev.abandonCal (d : Dev) (n : Nat) : Dev :=
  (if d.flag (Reg.CH_STATUS_CAL_ACTIVE n) then (d.calClear n).fgDone else d).linAbandon n

/-- LENT at a boundary (R144): a lender whose lending has ended while the channel is disabled abandons its linearity calibration (R134). -/
def Dev.lentStep (d : Dev) (n : Nat) : Dev :=
  let was := d.flag (Reg.CH_TDC_STATUS_LENT n)
  let d := d.setB (Reg.CH_TDC_STATUS_LENT n) (d.lending n && d.chanOn n)
  if was && !d.lending n && !d.chEn n then d.linAbandon n else d

/-- Enabled stream slots of a disabled channel stop (R482). -/
def Dev.stopSlots (d : Dev) (n : Nat) : Dev :=
  ((List.range 4).filter fun k => d.effB (Reg.TRG_STREAM_CFG_ENABLE k) && d.eff (Reg.TRG_STREAM_CFG_CHAN k) == n).foldl
    (fun d k => (d.setBoth (Reg.TRG_STREAM_CFG_ENABLE k) 0).pwrEvent 8 [k, n]) d

/-- Whether channel `n` has an open capture. -/
def Dev.capOpen (d : Dev) (n : Nat) : Bool := (d.chan n).caps.any fun k => k.stage == 0

/-- Whether triggers of channel `n` in frames before the present one are still to be decided, one of which could open a capture: until then a
disabled channel stays CLOSING (R175; log entry 58). -/
def Dev.undecided (d : Dev) (n : Nat) : Bool :=
  (d.chan n).acquiring && d.acq.fstats.any fun s => s.age == 1 && s.accept.contains n
    && ((s.unit n false).capturing || (s.unit n true).capturing)

/-- DRAINING begins: the converters stop. -/
def Dev.drain (d : Dev) (n : Nat) : Dev := (d.stopChan n).setCh n 4

/-- The present frame no longer takes triggers of channel `n` (R175). -/
def Dev.noTriggers (d : Dev) (n : Nat) : Dev := d.updFrame d.fn fun s => { s with accept := s.accept.filter (· != n) }

/-- A channel domain goes dark: its TDC loses its locks. -/
def Dev.darkChan (d : Dev) (n st : Nat) : Dev :=
  let d := ((d.stopChan n).setB (Reg.CH_TDC_STATUS_SLOW_LOCK n) false).setB (Reg.CH_TDC_STATUS_FAST_LOCK n) false
  ((d.linAbandon n).updChan n fun c => { c with checks := [], lockLost := false, lastE := none, fgDue := none }).setCh n st

/-- The state of channel `n` at a boundary (R481 to R483). -/
def Dev.chanStep (d : Dev) (n : Nat) : Dev :=
  let d := d.lentStep n
  match d.chState n, d.chEn n with
  | 1, false => if d.lends n then d else (d.darkChan n 0).skipRamp n
  | 2, false =>
    let d := ((d.noTriggers n).stopSlots n).abandonCal n
    if d.capOpen n || d.undecided n then d.setCh n 3 else d.drain n
  | 3, false => if d.capOpen n || d.undecided n then d else d.drain n
  | 3, true => (d.setCh n 2).updFrame d.fn fun s => { s with accept := n :: s.accept.filter (· != n) }
  | 4, true => (d.setCh n 2).startChan n
  | 5, true => if d.role == .frontEnd then (d.setCh n 2).startChan n else d
  | 5, false => if d.lends n then d else (d.darkChan n 0).pwrEvent 7 [n]
  | 0, false => if d.lends n && d.role == .frontEnd then d.powerReq n false else d
  | _, _ => d

/-- The ramp of R519: the channels of quad q start at the boundary that opens frame 1 + 20,000 × q. -/
def Dev.rampStep (d : Dev) : Dev :=
  if d.pw.ramp.isEmpty || d.pw.frames % 20000 != 1 then d
  else
    let q := d.pw.frames / 20000
    ((rangeFrom (4 * q) (4 * q + 4)).filter fun n => d.pw.ramp.contains n).foldl (fun d n =>
      if d.chEn n then d.powerReq n false else d.skipRamp n) d

/-- A change of CH_CTRL[n].ENABLE as it takes effect (R483): a dark channel asks for power. -/
def Dev.enableEffect (d : Dev) (n : Nat) (was : Bool) : Dev :=
  if !was && d.chEn n && d.chState n == 0 && d.role == .frontEnd then d.powerReq n true else d

/-- CHANNEL_ENABLE and CHANNEL_DISABLE: a write of CH_CTRL[n] that changes ENABLE. -/
def Dev.chBit (d : Dev) (src : Source) (n : Nat) (on : Bool) : Dev :=
  let a := 0x2000 + 0x40 * n
  let v := d.readFields (fieldsAt a)
  if d.role == .frontEnd then d.plainWrite src a (if on then setBit v 0 else clearBit v 0) else d

def execChannelDisable (src : Source) (n : Nat) (s : State) : Res :=
  onUnit 48 n (fun d => d.gated src (0x2000 + 0x40 * n) fun d => d.chBit src n false) s

def execChannelEnable (src : Source) (n : Nat) (s : State) : Res :=
  onUnit 48 n (fun d => d.gated src (0x2000 + 0x40 * n) fun d => d.chBit src n true) s

/-- Whether a record of channel `n` is still before the FIFO or in it (R481). -/
def Dev.chanHasRecords (d : Dev) (n : Nat) : Bool :=
  (d.rcd.asm ++ d.rcd.ready).any (fun a => a.chan == n) || d.rcd.fifo.any (fun r => r.own && r.chan == n && (r.typ == 1 || r.typ == 2))
    || (List.range 4).any (fun k => (d.slot k).jobs.any fun j => j.chan == n) || (d.chan n).caps.any fun k => k.stage != 2

/-- CHANNEL_DRAIN_END (R481, R482): every record of a draining channel has left; it goes dark, or stays powered as a lender. -/
def Dev.drainEnd (d : Dev) (n : Nat) : Dev :=
  if d.up && d.chState n == 4 && !d.chanHasRecords n then
    if d.lends n then d.setCh n 5 else (d.darkChan n 0).pwrEvent 7 [n]
  else d

def execChannelDrainEnd (n : Nat) (s : State) : Res := onUnit 48 n (fun d => d.drainEnd n) s

/-! ### Entry into service (R479, R480) -/

/-- Whether domain `code` began powering at least `k` frames ago. -/
def Dev.poweredFor (d : Dev) (code k : Nat) : Bool :=
  match d.pw.startFn.find? fun p => p.1 == code with
  | some p => decide (p.2 + k ≤ d.fn)
  | none => false

/-- Records and summaries resume with the present frame after a release (R501). -/
def Dev.resumeRecords (d : Dev) : Dev :=
  if d.pw.resume then ({ d with pw := { d.pw with resume := false } }).updFrame d.fn fun s => { s with gone := false } else d

/-- A channel enters service (R104, R134, R479): a lender with its converters idle, any other restarts. -/
def Dev.chanInService (d : Dev) (n : Nat) : Dev :=
  let d := d.leaveRamp n
  let fn := d.fn
  if d.role == .frontEnd && d.chEn n then
    let d := ((d.setCh n 2).startChan n).resumeRecords
    if (d.chan n).nominal && (d.acq.fgFn.isSome || (d.acq.fgDue.isNone && d.pw.ramp.isEmpty)) then d.updChan n fun c => { c with fgDue := some fn } else d
  else d.setCh n 5

/-- Lanes of a quad that are enabled enter BLIND (R357, R479). -/
def Dev.quadInService (d : Dev) (q : Nat) : Dev :=
  (rangeFrom (4 * q) (4 * q + 4)).foldl (fun d l =>
    if d.role.usesLane l && d.effB (Reg.LN_CTRL_ENABLE l) && d.lstate l == 0 then d.laneStep l else d) (d.set (Reg.PWR_DOM_LQ q) 2)

/-- DOMAIN_IN_SERVICE (R479): 20 frames after powering began, a channel or lane-quad domain is in service. -/
def Dev.inService (d : Dev) (code : Nat) : Dev :=
  if !d.up || !d.poweredFor code 20 then d
  else if code < 48 then (if d.chState code = 1 then d.chanInService code else d)
  else if d.get (Reg.PWR_DOM_LQ (code - 48)) = 1 then d.quadInService (code - 48) else d

def execDomainInService (code : Nat) (s : State) : Res := onUnit 60 code (fun d => d.inService code) s

/-- MEMORY_INIT_DONE (R480): the banks of domain `m` hold 0 with valid check bits; the domain is in service and scrubbing begins. -/
def memoryInit (m : Nat) (ecc : List (Nat × Nat)) (d : Dev) : List (Nat × Nat) × Dev :=
  if d.up && d.poweredFor (60 + m) 283 && (d.get (Reg.PWR_DOM_MD m) == 1 || d.get (Reg.PWR_DOM_MD m) == 2) then
    let mine (p : Nat × Nat) : Bool := decide (m * 524288 ≤ p.1) && decide (p.1 < m * 524288 + 524288)
    let drop (l : List (Nat × Nat)) : List (Nat × Nat) := l.filter fun p => p.1 / 4 != m
    let from' := (rangeFrom (4 * m) (4 * m + 4)).foldl (fun l b => putT b d.pw.frames l) d.flt.lapFrom
    (ecc.filter fun p => !mine p,
     ({ d with flt := { d.flt with scrub := drop d.flt.scrub, laps := drop d.flt.laps, lapFrom := from' } }).set (Reg.PWR_DOM_MD m) 3)
  else (ecc, d)

def execMemoryInitDone (m : Nat) (s : State) : Res := if m < 4 then onEcc (memoryInit m) s else .fault .noSuchUnit

/-! ### Memory domains (R485, R509) -/

/-- PWR_MEM_CTRL_WRITE: MD_EN waits for the next boundary. -/
def execPwrMemCtrlWrite (src : Source) (val : Word) (s : State) : Res :=
  onDev (fun d => d.gated src 0xA010 fun d => d.plainWrite src 0xA010 val.toNat) s

/-- Whether memory domain `m` holds words of records not yet released or sent (R485). -/
def Dev.mdHolds (d : Dev) (m : Nat) : Bool :=
  let pool := match d.role with
    | .hub => m == 2 || m == 3
    | _ => m == 2 || d.flt.remap.any fun p => decide (1024 ≤ p.1) && p.2 / 512 == m
  pool && (!d.rcd.fifo.isEmpty || d.hr.rings.any fun p => p.2.words != 0)

/-- Whether a bank of memory domain `m` is in use for the role (R222). -/
def Dev.mdUsed (d : Dev) (m : Nat) : Bool := d.role == .hub || decide (m < 3)

/-- RESULT of a darkening of memory domain `m` (R485). -/
def Dev.mdCheck (d : Dev) (m : Nat) : Nat :=
  if d.mdHolds m then 1
  else if d.mdUsed m then 2
  else if d.flt.remap.any fun p => p.2 / 512 == m then 3
  else if d.thermState = 4 then 4 else 0

/-- MD_EN as it takes effect over its old value (R485, R488). -/
def Dev.memEffect (d : Dev) (old : Nat) : Dev :=
  (List.range 4).foldl (fun d m =>
    match bitOf old m, d.mdEn m with
    | false, true => (d.set Reg.PWR_MEM_CTRL_RESULT 0).powerReq (60 + m) true
    | true, false =>
      let r := d.mdCheck m
      let d := d.set Reg.PWR_MEM_CTRL_RESULT r
      if r = 0 then d.set (Reg.PWR_DOM_MD m) 0
      else d.setBoth Reg.PWR_MEM_CTRL_MD_EN (setBit (d.eff Reg.PWR_MEM_CTRL_MD_EN) m)
    | _, _ => d) d

/-! ### Lane quads -/

/-- The state of lane-quad domain `q` at a boundary (R478, R479, R484). -/
def Dev.lqStep (d : Dev) (q : Nat) : Dev :=
  let st := d.get (Reg.PWR_DOM_LQ q)
  let dark := (rangeFrom (4 * q) (4 * q + 4)).all fun l => !d.role.usesLane l || d.lstate l == 0
  if st = 3 then d.set (Reg.PWR_DOM_LQ q) 0
  else if d.thermState = 3 ∨ d.thermState = 4 then d
  else if d.lqWanted q then
    if st = 0 then d.powerReq (48 + q) (!(d.role == .hub && decide (8 ≤ q))) else d
  else if st = 1 then d.set (Reg.PWR_DOM_LQ q) 0
  else if st = 2 ∧ dark = true then d.set (Reg.PWR_DOM_LQ q) 3
  else d

/-- Memory domains whose rail is valid clear their banks (R479, R480). -/
def Dev.mdStep (d : Dev) (m : Nat) : Dev :=
  if d.get (Reg.PWR_DOM_MD m) = 1 ∧ d.poweredFor (60 + m) 20 = true then d.set (Reg.PWR_DOM_MD m) 2 else d

/-! ### Power class (R486 to R489) and throttle actions (R495) -/

/-- A channel disabled by the device as if software had cleared ENABLE (R421, R495). -/
def Dev.shedChan (d : Dev) (n : Nat) : Dev := d.setBoth (Reg.CH_CTRL_ENABLE n) 0

/-- Whether lane quad `q` holds a timing upstream port (R59). -/
def Dev.holdsPort (d : Dev) (q : Nat) : Bool :=
  (List.range 2).any fun k => d.flag (Reg.TIM_DOM_CFG_ENABLE k) && d.get (Reg.TIM_DOM_CFG_PORT k) / 4 == q

/-- Whether lane quad `q` is kept by a trip and by shedding (R495, R497). -/
def Dev.keptQuad (d : Dev) (q : Nat) : Bool := d.holdsPort q || (d.role == .hub && decide (8 ≤ q))

/-- The throttle actions are applied. -/
def Dev.throttleOn (d : Dev) : Dev :=
  let d := { d with pw := { d.pw with throttle := true } }
  let d := (List.range 48).foldl (fun d l => if d.flag (Reg.LN_EYE_CTRL_BUSY l) then d.setB (Reg.LN_EYE_CTRL_BUSY l) false else d) d
  let chs := setBits (d.get Reg.PWR_SHED_LO_CH_LO + 2 ^ 32 * d.get Reg.PWR_SHED_HI_CH_HI) 48
  let lqs := (setBits (d.get Reg.PWR_SHED_HI_LQ) 12).filter fun q => !d.keptQuad q
  let d := if d.role == .frontEnd then chs.foldl Dev.shedChan d else d
  lqs.foldl (fun d q => (rangeFrom (4 * q) (4 * q + 4)).foldl (fun d l => d.setBoth (Reg.LN_CTRL_ENABLE l) 0) d) d

/-- The throttle actions end unless the thermal state or POWER_OVER still calls for them. -/
def Dev.throttleOff (d : Dev) : Dev :=
  if d.thermState = 2 ∨ d.flag Reg.PWR_STATUS_POWER_OVER = true then d else { d with pw := { d.pw with throttle := false } }

/-- VIN, P_MEAS and POWER_OVER at a boundary, from the measurements of the frame that ends (R477, R487, R489). -/
def Dev.powerMeasure (d : Dev) (vinMv power : Nat) : Dev :=
  let h := (power :: d.pw.hist).take 1024
  let p := min 65535 (h.sum / h.length)
  let d := (({ d with pw := { d.pw with hist := h } }).set Reg.PWR_INPUT_VIN_MV (min 65535 vinMv)).set Reg.PWR_INPUT_P_MEAS p
  let ceil := d.get Reg.PWR_CLASS_CEILING
  if !d.flag Reg.PWR_STATUS_POWER_OVER then
    if ceil < p then
      (({ d with pw := { d.pw with overFrames := 0 } }.setB Reg.PWR_STATUS_POWER_OVER true).pwrEvent 5 [p, ceil, 1]).throttleOn
    else d
  else if 100 * p < 95 * ceil then
    ({ d with pw := { d.pw with overFrames := 0 } }.setB Reg.PWR_STATUS_POWER_OVER false).pwrEvent 5 [p, ceil, 0] |>.throttleOff
  else { d with pw := { d.pw with overFrames := d.pw.overFrames + 1 } }

/-! ### Trips (R496, R497) -/

/-- Payload of a trip entry (R504). -/
def Dev.tripPayload (d : Dev) (cause : Nat) : List Nat :=
  let chs := maskOf ((List.range 48).filter fun n => [1, 2, 3, 4, 5].contains (d.chState n))
  let lqs := maskOf ((List.range 12).filter fun q => d.get (Reg.PWR_DOM_LQ q) != 0)
  let mds := maskOf ((List.range 4).filter fun m => d.get (Reg.PWR_DOM_MD m) != 0)
  [pack [(0, 4, cause), (4, 4, d.get Reg.PWR_THERM_STATUS_HOT_SENSOR), (16, 16, d.get Reg.PWR_THERM_STATUS_T_J)],
    pack [(0, 16, maskOf ((List.range 16).filter d.accepted)), (16, 16, d.get Reg.PWR_INPUT_VIN_MV)], d.pMeas, chs % 2 ^ 32,
    pack [(0, 16, chs / 2 ^ 32), (16, 12, lqs), (28, 4, mds)]]

/-- Captures and records not yet in the record FIFO are written off (R497). -/
def Dev.tripRecords (d : Dev) : Dev :=
  let d := (List.range 48).foldl (fun d n =>
    ((d.chan n).caps.filter fun k => k.stage != 2).foldl (fun d k =>
      let d := d.updChan n fun c => { c with caps := c.caps.map fun y => if y.x = k.x then { y with stage := 2, off := true } else y }
      if !d.recording k.fn then d else let s := d.nextSeq n; s.2.loseOwn n k.fn 7 (s.1 % 65536) false) d) d
  let waiting := d.rcd.asm ++ d.rcd.ready
  let d := waiting.foldl (fun d a => d.loseOwn a.chan a.fn 7 a.seq (a.typ == 2)) { d with rcd := { d.rcd with asm := [], ready := [] } }
  (List.range 4).foldl (fun d k =>
    let js := (d.slot k).jobs
    let d := (if js.isEmpty then d else d.setSlot k Slot.init).setBoth (Reg.TRG_STREAM_CFG_ENABLE k) 0
    js.foldl (fun d j =>
      if !d.recording j.fn then d else let s := d.nextSeq (100 + k); s.2.loseOwn j.chan j.fn 7 (s.1 % 65536) true) d) d

/-- Calibrations, retirements and assays in progress are abandoned (R497). -/
def Dev.tripAbandon (d : Dev) : Dev :=
  let d := (List.range 48).foldl (fun d n =>
    (if d.flag (Reg.CH_STATUS_CAL_ACTIVE n) then d.calClear n else d).linAbandon n) d
  let acq := { d.acq with rot := [], rotReq := none, fgDue := none, linReq := [] }
  let d := { d with acq := acq, flt := { d.flt with retiring := [] }, pw := { d.pw with ramp := [], req := [] } }
  let d := ((d.fgDone.setB Reg.CH_CAL_STATUS_ROT_ACTIVE false).set Reg.CH_CAL_STATUS_CUR_QUAD 15).setB Reg.MEM_RETIRE_OP_BUSY false
  let d := (List.range 48).foldl (fun d l =>
    if d.flag (Reg.LN_STATUS_ASSAY_ACTIVE l) then d.setB (Reg.LN_STATUS_ASSAY_ACTIVE l) false else d) d
  d.setAssays []

/-- Channel domain 47 − k goes dark (R497). -/
def Dev.tripChan (d : Dev) (n : Nat) : Dev := if d.chState n = 0 then d else d.darkChan n 6

/-- A trip begins with the present frame (R497). -/
def Dev.tripBegin (d : Dev) (cause : Nat) : Dev :=
  let e := d.ldgEntry 1 (d.tripPayload cause)
  let d := e.2
  let t : Trip := { fn := d.fn, cause := cause, seq := e.1, holdFn := 0 }
  let d := { d with pw := { d.pw with trip := some t, release := false }, pins := { d.pins with trip := true } }
  let d := (d.set Reg.PWR_THERM_STATUS_STATE 3).set Reg.PWR_THERM_STATUS_CAUSE cause
  let d := d.updFrame d.fn fun s => { s with accept := [], gone := true }
  (d.tripRecords.tripAbandon).tripChan 47

/-- A trip cause (R494, R496, R498): a trip begins; while one is in hand, cold hold only reports the cause. -/
def Dev.tripCause (d : Dev) (cause : Nat) : Dev :=
  match d.pw.trip with
  | none => d.tripBegin cause
  | some t => if d.thermState = 4 then d.pwrEvent 2 [cause, d.tjWord, t.seq] else d

/-- Memory domains go dark (R497, R499): what they still hold is lost and counted. -/
def Dev.tripMemory (d : Dev) : Dev :=
  if (List.range 4).all fun m => d.get (Reg.PWR_DOM_MD m) == 0 then d
  else
    let n := d.rcd.fifo.length
    let ls : List (Nat × Lane) := d.lanes.map fun p => (p.1, { p.2 with tx := [] })
    let d := { d with rcd := { d.rcd with fifo := [], asm := [], ready := [], flush := none, fifoWr := 0, sumWait := [], accWait := [] },
                      lanes := ls,
                      mrg := { d.mrg with rxFifo := [], bwait := [], bjs := [] } }
    let d := ((d.addWrap Reg.REC_FIFO_FLUSHES_WRITTEN_OFF n).setB Reg.REC_FIFO_CTRL_FLUSH_BUSY false).fifoLevel
    let d := d.hr.rings.foldl (fun d p =>
      let g := d.ring p.1
      if g.typ = 1 then
        d.putRing p.1 { g.withQueue [] [] with entries := g.entries.map fun e => { e with recs := [] } }
      else if g.typ = 3 then
        let k := g.wait.length + g.entries.length
        (d.putRing p.1 { g with wait := [], entries := [], lost := g.lost + k }).addWrap Reg.HR_DROP_STATS_EVT_DROPPED k
      else d) d
    [3, 2, 1, 0].foldl (fun d m => d.set (Reg.PWR_DOM_MD m) 0) d

/-- Frame F+16: readers stop (R497). -/
def Dev.tripFlush (d : Dev) : Dev :=
  match d.role with
  | .hub =>
    (d.hr.rings.filter fun p => p.2.st == 1 && p.2.typ == 1).foldl (fun d p =>
      let g := d.ring p.1
      let ls := d.lossesFor 7 false (g.wait ++ g.hold)
      ls.foldl Dev.unwritten (d.stopRing p.1)) d
  | .noRole => d
  | _ => d.requestFlush 7

/-- One lane-quad domain goes dark, the highest that is not kept (R497). -/
def Dev.tripQuad (d : Dev) : Dev :=
  match [11, 10, 9, 8, 7, 6, 5, 4, 3, 2, 1, 0].find? fun q => !d.keptQuad q && d.get (Reg.PWR_DOM_LQ q) != 0 && d.get (Reg.PWR_DOM_LQ q) != 3 with
  | some q => (rangeFrom (4 * q) (4 * q + 4)).foldl (fun d l => if d.lstate l = 0 then d else d.goDark l) (d.set (Reg.PWR_DOM_LQ q) 3)
  | none => d

/-- Whether the FIFOs of R497 are empty. -/
def Dev.fifosEmpty (d : Dev) : Bool :=
  d.rcd.fifo.isEmpty && d.hr.rings.all fun p => p.2.typ != 1 || (p.2.wait.isEmpty && p.2.hold.isEmpty)

/-- The trip's work at a boundary after the one that opened it (R497). -/
def Dev.tripStep (d : Dev) : Dev :=
  match d.pw.trip with
  | none => d
  | some t =>
    if d.thermState != 3 then d
    else
      let k := d.fn - t.fn
      let d := if 1 ≤ k ∧ k ≤ 47 then d.tripChan (47 - k) else d
      let d := if k = 16 then d.tripFlush else d
      let d := if 17 ≤ k ∧ (d.fifosEmpty = true ∨ 32 ≤ k) then d.tripMemory else d
      if 48 ≤ k then d.tripQuad else d

/-- COLD_HOLD_ENTRY (R497, R506): everything that is not kept is dark. -/
def Dev.coldHold (d : Dev) : Dev :=
  match d.pw.trip with
  | none => d
  | some t =>
    let dark := (List.range 48).all (fun n => d.chState n == 0 || d.chState n == 6)
      && (List.range 12).all (fun q => d.keptQuad q || d.get (Reg.PWR_DOM_LQ q) == 0)
      && (List.range 4).all fun m => d.get (Reg.PWR_DOM_MD m) == 0
    if d.up && d.thermState == 3 && decide (t.fn + 48 ≤ d.fn) && dark then
      let fn := d.fn
      let d := ({ d with pw := { d.pw with trip := some { t with holdFn := fn } } }).set Reg.PWR_THERM_STATUS_STATE 4
      d.pwrEvent 2 [t.cause, d.tjWord, t.seq]
    else d

def execColdHoldEntry (s : State) : Res := onDev Dev.coldHold s

/-- POWER_OVER_TRIP (R489). -/
def execPowerOverTrip (s : State) : Res :=
  onDev (fun d => whenD (d.up && d.flag Reg.PWR_STATUS_POWER_OVER && decide (65536 ≤ d.pw.overFrames)
    && d.pw.trip.isNone) (fun d => d.tripCause 2) d) s

/-- A write of HOLD_REQ (R516): it sticks until a release; in cold hold it is a further cause (R498). -/
def Dev.writeHoldReq (d : Dev) : Dev :=
  let d := d.setB Reg.PWR_HOLD_HOLD_REQ true
  if d.thermState = 4 then d.tripCause 4 else d

def execHoldReqWrite (src : Source) (s : State) : Res := onDev (fun d => d.gated src 0xA054 Dev.writeHoldReq) s

/-! ### Release (R500, R501) -/

/-- Source of a release as its entry encodes it (R504). -/
def releaseSrc : Source → Nat
  | .pcie => 2
  | .spi => 3
  | _ => 1

/-- An accepted release: its entry, its event; the device leaves cold hold at the next boundary. It answers the LEDGER_SEQ. -/
def Dev.releaseOk (d : Dev) (src : Source) (t : Trip) : Nat × Dev :=
  let e := d.ldgEntry 3 [pack [(0, 4, releaseSrc src), (16, 16, d.get Reg.PWR_THERM_STATUS_T_J)], t.seq, min (d.fn - t.holdFn) (2 ^ 32 - 1)]
  (e.1, ({ e.2 with pw := { e.2.pw with release := true } }).pwrEvent 3 [e.1])

/-- Outcome of a release with a key: 0 accepted, 1 too hot, 2 wrong key or not in cold hold (R500). -/
def Dev.releaseCheck (d : Dev) (key : Nat) : Nat :=
  match d.pw.trip with
  | some t => if d.thermState != 4 || key != t.seq % 2 ^ 32 then 2 else if 1440 ≤ d.tj then 1 else 0
  | none => 2

/-- A write of PWR_RELEASE (R516). -/
def Dev.writeRelease (d : Dev) (src : Source) (key : Nat) : Dev :=
  let r := d.releaseCheck key
  let d := d.set Reg.PWR_HOLD_RELEASE_RESULT r
  match r, d.pw.trip with
  | 0, some t => (d.releaseOk src t).2
  | _, _ => d

def execPwrReleaseWrite (src : Source) (key : Word) (s : State) : Res :=
  onDev (fun d => d.gated src 0xA050 fun d => d.writeRelease src key.toNat) s

/-- HOLD_RELEASED (R501): the domains of the role ask for power again, under admission; the state becomes NORMAL. Where the trip came before
bring-up calibration, the channels powered now are those it waits for (R104; DESIGN CHOICE, log entry 56). -/
def Dev.holdReleased (d : Dev) : Dev :=
  if !d.up || d.thermState != 4 || !d.pw.release then d
  else
    let d := { d with pw := { d.pw with trip := none, release := false, resume := true }, pins := { d.pins with trip := false } }
    let d := (d.set Reg.PWR_THERM_STATUS_STATE 0).setB Reg.PWR_HOLD_HOLD_REQ false
    let d := (List.range 4).foldl (fun d m => if d.mdEn m then d.powerReq (60 + m) true else d) d
    let d := (List.range 12).foldl (fun d q => if d.lqWanted q then d.powerReq (48 + q) true else d) d
    let d := (List.range 48).foldl (fun d n =>
      let d := if d.chState n = 6 then d.setCh n 0 else d
      if (d.role == .frontEnd && d.chEn n) || d.lends n then d.powerReq n true else d) d
    let d := if d.role == .frontEnd && d.acq.fgFn.isNone then
        let l := (List.range 48).filter d.chEn
        { d with pw := { d.pw with ramp := l } }
      else d
    (if d.role == .frontEnd then d else d.resumeRecords).throttleOff

def execHoldReleased (s : State) : Res := onDev Dev.holdReleased s

/-! ### Sensors (R490 to R494) -/

/-- ALERT's thermal threshold in units of 1/16 °C as PWR_THERM_CFG acts (R512): WARN, THROTTLE. -/
def Dev.warnAt (d : Dev) : Int := 16 * (min 100 (d.get Reg.PWR_THERM_CFG_WARN) : Nat)
def Dev.throttleAt (d : Dev) : Int := max d.warnAt (16 * (min 110 (d.get Reg.PWR_THERM_CFG_THROTTLE) : Nat))

/-- A thermal state entered, with its event (R494, R506). -/
def Dev.enterTherm (d : Dev) (st : Nat) : Dev :=
  (d.set Reg.PWR_THERM_STATUS_STATE st).pwrEvent 1 [st, d.tjWord, d.get Reg.PWR_THERM_STATUS_HOT_SENSOR]

/-- The thermal states below a trip (R494). -/
def Dev.thermStep (d : Dev) : Dev :=
  let t := d.tj
  let st := d.thermState
  if st ≠ 2 ∧ d.throttleAt ≤ t then (d.enterTherm 2).throttleOn
  else if st = 0 ∧ d.warnAt ≤ t then d.enterTherm 1
  else if st ≠ 0 ∧ t < 1440 then (d.set Reg.PWR_THERM_STATUS_STATE 0).throttleOff
  else d

/-- A quad whose temperature has moved by more than AUTO_DT since its last linearity calibration asks for one (R134). -/
def Dev.autoDt (d : Dev) : Dev :=
  let dt := d.get Reg.TDC_CAL_CTRL_AUTO_DT
  if dt = 0 ∨ d.pw.throttle = true ∨ 3 ≤ d.thermState then d
  else (List.range 12).foldl (fun d q =>
    match d.quadTemp q, d.acq.linTemp.find? fun p => p.1 == q with
    | some t, some p =>
      let chs := rangeFrom (4 * q) (4 * q + 4)
      let busy := chs.any fun n => d.acq.linReq.contains n || (d.chan n).linWant || d.flag (Reg.CH_TDC_STATUS_LIN_ACTIVE n)
      if decide ((16 * dt : Nat) < (t - toSigned 32 p.2).natAbs) && !busy then
        { d with acq := { d.acq with linReq := d.acq.linReq ++ chs } }
      else d
    | _, _ => d) d

/-- A sensor's rejected reading (R492, R506). -/
def Dev.rejectReading (d : Dev) (s : Nat) : Dev :=
  let n := getT 0 s d.pw.rejects + 1
  let bad := decide (4 ≤ n)
  let d := { d with pw := { d.pw with rejects := putT s n d.pw.rejects } }
  let d := if bad then d.set Reg.PWR_SENSOR_FLAGS_BAD (setBit (d.get Reg.PWR_SENSOR_FLAGS_BAD) s) else d
  d.pwrEvent 4 [s, ofSigned 32 (d.reading s), b2n bad]

/-- New readings apply at a boundary (R491 to R494). -/
def Dev.applyGate (d : Dev) : Dev :=
  match d.pw.gate with
  | none => d
  | some cs =>
    let d := { d with pw := { d.pw with gate := none, counts := cs } }
    let rej := (List.range 16).filter fun s => !d.senBad s && d.rejects s
    let ok := (List.range 16).filter fun s => !d.senBad s && !d.rejects s
    let d := d.set Reg.PWR_SENSOR_FLAGS_REJECTED (maskOf rej)
    let d := rej.foldl Dev.rejectReading { d with pw := { d.pw with rejects := d.pw.rejects.filter fun p => rej.contains p.1 } }
    let d := d.set Reg.PWR_THERM_STATUS_ACCEPTED ok.length
    let d := match minBy? (fun s => -d.reading s) ok with
      | some s => (d.setI Reg.PWR_THERM_STATUS_T_J (d.reading s)).set Reg.PWR_THERM_STATUS_HOT_SENSOR s
      | none => d
    let d := if !ok.isEmpty && (decide ((1680 : Int) < d.tj) || decide (d.tj < (-720 : Int))) then d.breach Reg.FLT_STATUS_JUNCTION else d
    let d := if (1920 : Int) ≤ d.tj ∧ ok.isEmpty = false then d.tripCause 1
             else if ok.length < 4 then d.tripCause 3
             else whenD (d.thermState < 3) Dev.thermStep d
    d.autoDt

/-- SENSOR_GATE_END (R491): the counts of a gate wait for the boundary whose FI is a multiple of 64, and apply at once in the frame it has
opened. -/
def Dev.gateEnd (d : Dev) (cs : List Nat) : Dev :=
  if !d.up || cs.length != 16 then d
  else
    let d := { d with pw := { d.pw with gate := some (cs.map (min 65535)) } }
    if d.fi % 64 = 0 then d.applyGate else d

def execSensorGateEnd (counts : List Nat) (s : State) : Res := onDev (fun d => d.gateEnd counts) s

/-! ### The ledger (R517) -/

/-- LDG_DATA_READ: the word at WORD, and WORD advances. -/
def Dev.ldgRead (d : Dev) : Nat × Dev :=
  let a := d.get Reg.LDG_ADDR_WORD
  (d.ldgWord a, (d.set Reg.LDG_DATA_DATA (d.ldgWord a)).set Reg.LDG_ADDR_WORD (a + 1))

def execLdgDataRead (s : State) : Res := onDev (fun d => whenD (d.up || d.boot == .held) (fun d => d.ldgRead.2) d) s

/-! ### The boundary -/

/-- Step 3 of R25, with what R476 to R501 do at a boundary beside it. -/
def Dev.powerBoundary (d : Dev) : Dev :=
  let d := if d.fi % 64 = 0 then d.applyGate else d
  let d := if d.flag Reg.PWR_HOLD_HOLD_REQ && d.pw.trip.isNone then d.tripCause 4 else d
  let d := d.tripStep
  let d := (List.range 12).foldl Dev.lqStep d
  let d := (List.range 4).foldl Dev.mdStep d
  if 3 ≤ d.thermState then d
  else ((List.range 48).foldl Dev.chanStep d.rampStep).startPower

end Sys2Proof.Machine
end

