-- ==== Sys2Proof/Machine/Recover.lean ====
section
/-! DEFINITION. Recovery (12_radiation_faults_and_recovery.md): what an uncorrectable word costs (R432), scrubbing, assays, voters, the
fault log's read, retirement of pages and banks (R425 to R428). -/
namespace Sys2Proof.Machine

/-! ### Use of pages (R222, R426, R427) -/

/-- What a page serves. -/
inductive PageUse where
  | fixed | fifo | egress | spare
  deriving DecidableEq, Repr

/-- Use of page `p` as the role lays record memory out (R222). -/
def basePage (r : Role) (p : Nat) : PageUse :=
  match r with
  | .hub => if p < 1024 then .fixed else .egress
  | .cell => if p < 880 then .fixed else if p < 896 then .spare else if p < 1024 then .fixed else if p < 1280 then .fifo else .spare
  | _ => if p < 1024 then .fixed else if p < 1280 then .fifo else .spare

/-- The page of R222 whose words stand in page `p`, where page `p` serves another page's use. -/
def Dev.servedBy (d : Dev) (p : Nat) : Option Nat := (d.flt.remap.find? fun m => m.2 == p).map (·.1)

/-- The page of R222 whose words stand in page `p`. -/
def Dev.logical (d : Dev) (p : Nat) : Nat := (d.servedBy p).getD p

/-- Whether page `p` is retired (R447). -/
def Dev.retiredPage (d : Dev) (p : Nat) : Bool := bitOf (d.get (Reg.MEM_RETIRE_MAP_RETIRED (p / 32))) (p % 32)

/-- Use of page `p` now: that of the page it serves. -/
def Dev.pageUse (d : Dev) (p : Nat) : PageUse := basePage d.role (d.logical p)

/-- Spare pages of a front-end or cell device in the order of R427. -/
def Dev.spareList (d : Dev) : List Nat :=
  let l := match d.role with
    | .frontEnd => rangeFrom 1280 2048
    | .cell => rangeFrom 880 896 ++ rangeFrom 1280 2048
    | .hub => ((List.range 1024).map fun i => 2047 - i).take (d.freePages - 512)
    | .noRole => []
  l.filter fun p => !d.retiredPage p && (d.servedBy p).isNone && !d.flt.retiring.any fun q => q.1 == p || q.2 == some p

/-- SPARE_PAGES (R446). -/
def Dev.sparePages (d : Dev) : Nat := if d.role == .hub then d.freePages - 512 else d.spareList.length

/-- BANKS_USED and BANKS_SPARE (R233, R427): a bank with a page in use counts as used, one without as spare while it has a spare page
left. -/
def Dev.memLayout (d : Dev) : Nat :=
  let inUse (p : Nat) : Bool := !d.retiredPage p && d.pageUse p != .spare
  let pages (b : Nat) : List Nat := rangeFrom (128 * b) (128 * b + 128)
  let used := (List.range 16).filter fun b => (pages b).any inUse
  let free := if d.role == .hub then [] else (List.range 16).filter fun b => !used.contains b && (pages b).any fun p => !d.retiredPage p
  maskOf used + 65536 * maskOf free

/-! ### What an uncorrectable word holds (R222, R432) -/

/-- Contents of a stored word: samples of a capture-ring or range word (bit i of a residue set), a capture's extension list, a
stream slot's decimator state, a staged record, a record of the FIFO with the word's place in its ring, a received record, the frame a merge or builder word serves,
a message of a lane's forwarding, reply or upward queue or of the device's own, a route entry, a record in a ring's queue or in an entry, a
held descriptor, a TDC table, an active envelope, a point of a shadow, nothing. -/
inductive Victim where
  | samples (n first count : Nat)
  | lists (n : Nat) (x : Int)
  | slot (k : Nat)
  | staged (a : Asm)
  | fifo (r : FRec) (a : Nat)
  | received (r : RxRec)
  | merging (fn : Nat)
  | building (fn : Nat)
  | outgoing (l : Nat) (m : Msg)
  | answer (l : Nat) (m : Msg)
  | upward (l : Nat) (m : Msg)
  | own (m : Msg)
  | route (i : Nat)
  | queued (r : Nat) (w : List Word)
  | entry (r j : Nat) (w : List Word)
  | desc (r : Nat) (w : List Word)
  | table (n code : Nat)
  | active (q : Nat)
  | shadow (k : Nat)
  | nothing
  deriving DecidableEq, Repr

/-- One of the things a word may hold whose place the manual does not give, or none of them: a free value picks (log entry 36). -/
def pickVictim (d : Dev) (l : List Victim) : Victim × Dev :=
  match l with
  | [] => (.nothing, d)
  | _ => let q := d.draw
         (l.getD (q.1 % (l.length + 1)) .nothing, q.2)

/-- Records of a port's receive FIFO. -/
def Dev.portRecs (d : Dev) (l : Nat) : List Victim := (d.mrg.rxFifo.filter fun r => r.port == l).map .received

/-- Victims in the pool of a hub. -/
def Dev.poolVictims (d : Dev) : List Victim :=
  d.hr.rings.flatMap fun p =>
    if p.2.typ = 3 then p.2.wait.map (.desc p.1)
    else p.2.wait.map (.queued p.1) ++ p.2.entries.flatMap fun e => (e.recs.filter fun w => !isPoisoned w).map (.entry p.1 e.j)

/-- Victims in a cell's bank 7, and route entries. -/
def Dev.mergeVictims (d : Dev) : List Victim :=
  (dedupBy (· == ·) (d.mrg.rxFifo.map (·.fn))).map .merging
    ++ (d.lanes.flatMap fun p => p.2.fwdQ.map (.outgoing p.1) ++ p.2.ansQ.map (.answer p.1) ++ p.2.upQ.map (.upward p.1)) ++ d.mg.ownQ.map .own
    ++ (d.mrg.routes.filter fun p => p.2 != 0#32).map fun p => .route p.1

/-- Contents of bank word `idx`, by the layout of R222 through the pages that replace others. -/
def Dev.bankVictim (d : Dev) (idx : Nat) : Victim × Dev :=
  let p := d.logical (idx / 1024)
  let a := p * 1024 + idx % 1024
  let fifo : Victim := ((d.rcd.fifo.find? fun r => r.covers (a - 1048576)).map fun r => .fifo r (a - 1048576)).getD .nothing
  match d.role with
  | .frontEnd =>
    if p < 384 then (.samples (a / 8192) (2 * (a % 8192)) 2, d)
    else if a < 417792 then (.samples ((a - 393216) / 512) (32 * (a % 512)) 32, d)
    else if p < 512 then
      pickVictim d (((List.range 48).flatMap fun n => ((d.chan n).caps.filter fun k => k.stage != 2 && !k.off).map fun k => .lists n k.x)
        ++ ((List.range 4).filter fun k => d.effB (Reg.TRG_STREAM_CFG_ENABLE k)).map .slot)
    else if p < 1024 then pickVictim d ((d.rcd.asm ++ d.rcd.ready).map .staged)
    else if p < 1280 then (fifo, d) else (.nothing, d)
  | .cell =>
    if p < 880 then pickVictim d (d.portRecs (p / 22))
    else if p < 896 then (.nothing, d)
    else if p < 1024 then pickVictim d d.mergeVictims
    else if p < 1280 then (fifo, d) else (.nothing, d)
  | .hub =>
    if p < 896 then pickVictim d (d.portRecs (p / 28))
    else if p < 1024 then
      pickVictim d ((dedupBy (· == ·) (d.mrg.bwait.map (·.fn))).map .building
        ++ (d.mrg.routes.filter fun p => p.2 != 0#32).map fun p => .route p.1)
    else pickVictim d d.poolVictims
  | .noRole => (.nothing, d)

/-- Contents of a small-memory word (R417, R423): memory 0 one word for each code of a channel's table, 1 and 2 one for each envelope
point, 3 the log's words (log entry 37). -/
def smallVictim (m w : Nat) : Victim :=
  match m with
  | 0 => .table (w / 128) (w % 128)
  | 1 => .active (w / 1024)
  | 2 => .shadow w
  | _ => .nothing

/-- Contents of a stored word. -/
def Dev.victim (d : Dev) (idx : Nat) : Victim × Dev :=
  if 2 ^ 22 ≤ idx then (smallVictim ((idx - 2 ^ 22) / 65536) (idx % 65536), d) else d.bankVictim idx

/-- Whether sample number `i` falls within `count` samples from `first`, numbers taken modulo 16,384. -/
def inRing (first count : Nat) (i : Int) : Bool := decide ((i - first) % 16384 < (count : Int))

/-- The samples of a channel's ring marked poisoned (R409, R432). -/
def Chan.poison (c : Chan) (first count : Nat) : Chan :=
  { c with ring := c.ring.map fun r =>
      { r with smp := r.smp.zipIdx.map fun p => if inRing first count (r.first + p.2) then { p.1 with pois := true } else p.1 } }

/-- The captures of channel `c`, not yet assembled, that contain one of the samples. -/
def Chan.hitCaps (c : Chan) (first count : Nat) : List Cap :=
  c.caps.filter fun k => k.stage != 2 && !k.off && (List.range count).any fun j =>
    decide ((((first + j : Nat) : Int) - k.start) % 16384 ≤ k.last - k.start)

/-- Every record of a ring's queue. -/
def Ring.records (g : Ring) : List (List Word) := g.entries.flatMap (·.recs) ++ g.wait ++ g.hold

/-- Records that a struck word costs, for COUNT of the log entry (R423). -/
def Dev.cost (d : Dev) : Victim → Nat
  | .samples n f k => ((d.chan n).hitCaps f k).length
  | .lists _ _ | .slot _ | .staged _ => 1
  | .fifo r _ => (d.offWith r).length
  | .received r => 1 + (d.mrg.rxFifo.filter fun q => q.port == r.port && q.isDep r).length
  | .merging fn => (d.mrg.rxFifo.filter fun r => r.fn == fn).length
  | .building fn => (d.mrg.bwait.filter fun r => r.fn == fn).length
  | .queued r w | .entry r _ w => 1 + ((d.ring r).records.filter fun q => dependsOn (natsOf q) (natsOf w)).length
  | _ => 0

/-- Records of a frame in the builder written off, one loss record for each originating device (R221, R432). -/
def Dev.spoilFrame (d : Dev) (fn : Nat) : Dev :=
  let gone := d.mrg.bwait.filter fun r => r.fn == fn
  let d := { d with mrg := { d.mrg with bwait := d.mrg.bwait.filter fun r => r.fn != fn } }
  (lossKinds (gone.map fun r => natsOf r.words)).foldl (fun d k => d.loseTo d.acctRing (d.hubLoss k.1 fn 8 k.2.2 k.2.1 false)) d

/-- The records of ring r that wait and meet `p` written off (R432). -/
def Dev.spoilQueued (d : Dev) (r : Nat) (p : List Word → Bool) : Dev :=
  let g := d.ring r
  let keep (l : List (List Word)) : List (List Word) := l.filter fun q => !p q
  (d.lossesFor 8 false ((g.wait ++ g.hold).filter p)).foldl (fun d l => d.loseTo d.acctRing l) (d.putRing r (g.withQueue (keep g.wait) (keep g.hold)))

/-- A record of an entry spoilt, with those that depend on it (R257, R432). -/
def Dev.spoilEntry (d : Dev) (r j : Nat) (w : List Word) : Dev :=
  let dep (q : List Word) : Bool := dependsOn (natsOf q) (natsOf w)
  let spoil (e : Entry) : Entry := { e with recs := e.recs.map fun q => if (e.j == j && q == w) || dep q then poisonRec q else q }
  (d.updRing r fun g => { g with entries := g.entries.map spoil }).spoilQueued r dep

/-- A staged record written off, with those that depend on it (R432). -/
def Dev.spoilStaged (d : Dev) (a : Asm) : Dev :=
  let out := a :: ((d.rcd.asm ++ d.rcd.ready).filter fun x => x.isDep a)
  let keep (l : List Asm) : List Asm := l.filter fun x => !out.contains x
  out.foldl (fun d x => d.loseOwn x.chan x.fn 8 x.seq (x.typ == 2))
    (d.setOpen (keep d.rcd.asm) (keep d.rcd.ready))

/-- What an uncorrectable word does to what it holds (R432). -/
def Dev.strike (d : Dev) : Victim → Dev
  | .nothing => d
  | .samples n f k => d.updChan n fun c => c.poison f k
  | .lists n x => d.updChan n fun c => { c with caps := updFirst (fun k => k.x == x) (fun k => { k with off := true }) c.caps }
  | .slot k => d.setSlot k { d.slot k with pois := true }
  | .staged a => d.spoilStaged a
  | .fifo r a => d.writeOff r a
  | .received r =>
    { d with mrg := { d.mrg with rxFifo := d.mrg.rxFifo.map fun q =>
        if q == r || (q.port == r.port && q.isDep r) then { q with lost := true } else q } }
  | .merging fn => { d with mrg := { d.mrg with rxFifo := d.mrg.rxFifo.map fun q => if q.fn = fn then { q with lost := true } else q } }
  | .building fn => d.spoilFrame fn
  | .outgoing l m => d.updLane l fun x => { x with fwdQ := x.fwdQ.erase m }
  | .answer l m => d.updLane l fun x => { x with ansQ := x.ansQ.erase m }
  | .upward l m => d.updLane l fun x => { x with upQ := x.upQ.erase m }
  | .own m => { d with mg := { d.mg with ownQ := d.mg.ownQ.erase m } }
  | .route i =>
    let w := (getT 0#32 i d.mrg.routes).toNat
    ({ d with mrg := { d.mrg with routes := putT i (w32 (clearBit (clearBit w 6) 13)) d.mrg.routes } }).raiseOpen 6 1 [i]
  | .queued r w => d.spoilQueued r fun q => q == w || dependsOn (natsOf q) (natsOf w)
  | .entry r j w => d.spoilEntry r j w
  | .desc r w => (d.updRing r fun g => { g with wait := g.wait.erase w, lost := g.lost + 1 }).addWrap Reg.HR_DROP_STATS_EVT_DROPPED 1
  | .table n _ =>
    let q := n / 4
    let d := { d with acq := { d.acq with linReq := d.acq.linReq ++ rangeFrom (4 * q) (4 * q + 4) } }
    d.updChan n fun c => { c with linDue := true }
  | .active q =>
    let stop : MaskStop := { q := q, x := d.acq.base - 1, n := 63, resume := none }
    let d := { d with acq := { d.acq with envBad := setBit d.acq.envBad q, stops := d.acq.stops ++ [stop] } }
    (d.setB (Reg.TRG_MASK_CFG_STOPPED q) true).trgEvent 5 [q]
  | .shadow k => ({ d with acq := { d.acq with envS := delT k d.acq.envS } }).trgEvent 6 [k / 1024, k / 512 % 2, k % 512]

/-- A read of a stored word by the scrubber, a copy or a capture, with the consequences of an uncorrectable one. -/
def scrubWord (ecc : List (Nat × Nat)) (d : Dev) (idx : Nat) : MemRead :=
  match wordRead (getT 0 idx ecc) with
  | .uncorrectable =>
    let v := d.victim idx
    let m := memRead ecc v.2 idx (v.2.cost v.1)
    { m with dev := m.dev.strike v.1 }
  | _ => memRead ecc d idx 0

/-! ### Diagnostic read (R232, R238 to R240) -/

/-- The words of receive ring r's queue in the pool, from the oldest not released, each with SENT and what it belongs to. -/
def Ring.diagWords (r : Nat) (g : Ring) : List (Nat × Bool × Victim) :=
  if g.typ ≠ 1 then []
  else (g.entries.flatMap fun e => e.recs.flatMap fun w => (natsOf w).map fun x => (x, true, Victim.entry r e.j w))
    ++ g.wait.flatMap fun w => (natsOf w).map fun x => (x, false, Victim.queued r w)

/-- A read of REC_DIAG_DATA in a hub: the value, errors and device after it. The manual does not place a queue's words in the pool's pages: a free
value picks the stored word (log entry 36). -/
def poolDiagRead (ecc : List (Nat × Nat)) (d : Dev) : Nat × List (Nat × Nat) × Dev :=
  let tag (d : Dev) (nv sent co un : Bool) : Dev :=
    ((((d.setB Reg.REC_DIAG_TAG_NOT_VALID nv).setB Reg.REC_DIAG_TAG_SENT sent).setB Reg.REC_DIAG_TAG_CORRECTED co).setB
      Reg.REC_DIAG_TAG_UNCORRECTABLE un).setB Reg.REC_DIAG_TAG_OPEN false
  let r := d.get Reg.REC_DIAG_SEL_QUEUE
  match ((d.ring r).diagWords r)[d.get Reg.REC_DIAG_SEL_WORD]? with
  | none => (0, ecc, tag d true false false false)
  | some (v, sent, what) =>
    let f := d.draw
    let m := memRead ecc f.2 (2 ^ 20 + f.1 % 2 ^ 20) (f.2.cost what)
    let bad := m.kind == .uncorrectable
    (v ^^^ m.flips, m.ecc, tag (if bad then m.dev.strike what else m.dev) false sent (m.kind == .corrected) bad)

/-- A read of REC_DIAG_DATA (R232): the value, and the tag latched with it. -/
def recDiagRead (ecc : List (Nat × Nat)) (d : Dev) : Nat × List (Nat × Nat) × Dev :=
  let r := if d.role == .hub then poolDiagRead ecc d else diagRead ecc d
  (r.1, r.2.1, r.2.2.set Reg.REC_DIAG_DATA_DATA r.1)

/-- REC_DIAG_READ. -/
def execRecDiagRead (s : State) : Res := onEcc (fun ecc d => if d.up then (recDiagRead ecc d).2 else (ecc, d)) s

/-! ### Scrubbing (R417, R418) -/

/-- Words of the small memories in the order of the seventeenth scrubber: tables, active envelopes, shadows, log. -/
def smallIdx (w : Nat) : Nat :=
  if w < 6144 then 2 ^ 22 + w
  else if w < 18432 then 2 ^ 22 + 65536 + (w - 6144)
  else if w < 30720 then 2 ^ 22 + 131072 + (w - 18432)
  else 2 ^ 22 + 196608 + (w - 30720)

/-- Words of memory `m`: a bank, or 16 for the small memories. -/
def memSize (m : Nat) : Nat := if m < 16 then 131072 else 31744

/-- Memory `m` has completed a lap (R418). -/
def Dev.lapDone (d : Dev) (m : Nat) : Dev :=
  let lap := d.pw.frames - getT 0 m d.flt.lapFrom
  { d with flt := { d.flt with laps := putT m (max lap (getT 0 m d.flt.laps)) d.flt.laps, lapFrom := putT m d.pw.frames d.flt.lapFrom } }

/-- SCRUB_READ (R417): the next word of memory `m`, in which `flips` are the stored bits upset since its last visit. -/
def scrubRead (m flips : Nat) (ecc : List (Nat × Nat)) (d : Dev) : List (Nat × Nat) × Dev :=
  if d.up && (m == 16 || d.mdOn (m / 4)) then
    let w := getT 0 m d.flt.scrub
    let idx := if m < 16 then 131072 * m + w else smallIdx w
    let ecc := putZ idx (getT 0 idx ecc ^^^ flips % 2 ^ 52) ecc
    let r := scrubWord ecc d idx
    let next : Dev := { r.dev with flt := { r.dev.flt with scrub := putT m ((w + 1) % memSize m) r.dev.flt.scrub } }
    (r.ecc, if w + 1 < memSize m then next else next.lapDone m)
  else (ecc, d)

def execScrubRead (mem flips : Nat) (s : State) : Res := if mem < 17 then onEcc (scrubRead mem flips) s else .fault .noSuchUnit

/-- Banks that are powered. -/
def Dev.poweredBanks (d : Dev) : List Nat := (List.range 16).filter fun b => d.mdOn (b / 4)

/-- A lap found too long, in bank `m` or the small memories (R418, R424). -/
def Dev.longLap (d : Dev) (m lap : Nat) : Dev :=
  if max 1 (d.get Reg.MEM_SCRUB_CFG_LAP_LIMIT) < lap then
    (if m < 16 then d.setB Reg.MEM_SCRUB_LAP_LAP_LONG true else d).raise 9 7 [lap, m]
  else d

/-- SCRUB_ROUND_END (R418): every powered bank has completed a lap since the last round. The small memories' lap has its event, which R424
gives it, but no part in MEM_SCRUB_LAP (log entry 66). -/
def Dev.scrubRound (d : Dev) : Dev :=
  let banks := d.poweredBanks
  let laps := d.flt.laps
  if !d.up || banks.isEmpty || banks.any fun b => !laps.any fun p => p.1 == b then d
  else
    let lap (m : Nat) : Nat := getT 0 m laps
    let top := (banks.map lap).foldl max 0
    let d : Dev := { d with flt := { d.flt with laps := [] } }
    let d := (d.set Reg.MEM_SCRUB_LAP_LAST_LAP (min 65535 top)).set Reg.MEM_SCRUB_LAP_MAX_LAP
      (min 32767 (max top (d.get Reg.MEM_SCRUB_LAP_MAX_LAP)))
    let d := d.addWrap Reg.MEM_SCRUB_LAPS_ROUNDS 1
    (d.longLap ((banks.find? fun b => lap b == top).getD 0) top).longLap 16 (lap 16)

def execScrubRoundEnd (s : State) : Res := onDev Dev.scrubRound s

/-! ### Assays (R419 to R421) -/

/-- ASSAY_BEGIN (R419): an engine leaves service, whatever it holds (R260). -/
def Dev.assayBegin (d : Dev) (u : UnitId) : Dev :=
  if d.up && d.flt.assays.any fun a => a.u == u && !a.running then
    let fn := d.fn
    let d := d.setAssays (d.flt.assays.map fun a => if a.u == u then { a with running := true, fn := fn, again := false } else a)
    if u.unit = 4 then d.setB (Reg.LN_STATUS_ASSAY_ACTIVE u.loc) true
    else if u.unit = 7 then d.engineOut u.loc
    else d
  else d

def execAssayBegin (u : UnitId) (s : State) : Res := onDev (fun d => d.assayBegin u) s

/-- Frames an assay watches before it can find its unit good (R419). -/
def assayFrames (unit : Nat) : Nat := if unit = 3 then 1024 else if unit = 5 ∨ unit = 6 then 1000 else 0

/-- Consequences of a lasting verdict (R421). -/
def Dev.lastingOf (d : Dev) (u : UnitId) : Dev :=
  match u.unit with
  | 1 =>
    let p := u.loc / 1024
    d.set (Reg.MEM_SUSPECT_MAP_SUSPECT (p / 32)) (setBit (d.get (Reg.MEM_SUSPECT_MAP_SUSPECT (p / 32))) (p % 32))
  | 5 => d.shedChan u.loc
  | 8 => if u.loc < 48 then d.setBoth (Reg.LN_CTRL_ENABLE u.loc) 0 else d
  | _ => d

/-- A word that the assay restores as 0 (R419): the log's and the TDC tables' contents; every other content was given up when the error
was found. -/
def Dev.zeroSmall (d : Dev) (loc : Nat) : Dev :=
  let w := loc % 65536
  match loc / 65536 with
  | 3 => d.setLogSlot (w / 4) ((d.logSlot (w / 4)).set (w % 4) 0)
  | 0 => d.updChan (w / 128) fun c => { c with table := c.table.map fun t => t.set (w % 128) 0 }
  | _ => d

/-- A memory word after its assay: its stored form is good again. -/
def restoreWord (u : UnitId) (ecc : List (Nat × Nat)) (d : Dev) : List (Nat × Nat) × Dev :=
  let idx := if u.unit = 2 then 2 ^ 22 + u.loc else u.loc
  if u.unit = 1 ∨ u.unit = 2 then
    (delT idx ecc, if u.unit = 2 ∧ wordRead (getT 0 idx ecc) = .uncorrectable then d.zeroSmall u.loc else d)
  else (ecc, d)

/-- Whether an assay finds its unit lasting (R419): one that watches does when the error came again, of any other the test says. -/
def Assay.finds (a : Assay) (test : Bool) : Bool := if assayFrames a.u.unit = 0 then test else a.again

/-- ASSAY_COMPLETE (R419, R421): the test of any unit but a lane (LANE_ASSAY_VERDICT) ends. -/
def assayComplete (u : UnitId) (test : Bool) (ecc : List (Nat × Nat)) (d : Dev) : List (Nat × Nat) × Dev :=
  match d.flt.assays.find? fun a => a.u == u && a.running with
  | none => (ecc, d)
  | some a =>
    let lasting := a.finds test
    if !d.up || u.unit == 4 || (!lasting && decide (d.fn < a.fn + assayFrames u.unit)) then (ecc, d)
    else
      let r := restoreWord u ecc d
      let d := r.2
      let d := if u.unit = 7 ∧ lasting = false then d.set Reg.CMP_STATUS_ENC_ENGINES (setBit (d.get Reg.CMP_STATUS_ENC_ENGINES) u.loc) else d
      let d := d.verdict u (if lasting then 2 else 1)
      (r.1, if lasting then d.lastingOf u else d)

def execAssayComplete (u : UnitId) (lasting : Bool) (s : State) : Res := onEcc (assayComplete u lasting) s

/-! ### Voters (R404 to R406) -/

/-- A refresh that finds one or two copies different from the majority. -/
def Dev.voterFix (d : Dev) (addr bit copy : Nat) (second : Option Nat) : Dev :=
  let d := d.addWrap Reg.FLT_COUNT_VOTE_FIXED 1
  match second with
  | none => d.logError 3 3 1 false (copy + 12) (addr % 65536 + bit % 32 * 65536) 0 0
  | some k =>
    ((d.addWrap Reg.FLT_COUNT_VOTE_TWO_COPY 1).logError 3 4 1 true (copy + 4 * k) (addr % 65536 + bit % 32 * 65536) 0 0).breach
      Reg.FLT_STATUS_TWO_COPIES

/-- ONE_COPY_DIFFERS: the copies are 0 to 2. -/
def execOneCopyDiffers (addr bit copy : Nat) (s : State) : Res :=
  onUnit 3 copy (fun d => whenD d.up (fun d => d.voterFix addr bit copy none) d) s

/-- Computations of R408 without a majority. -/
def Dev.noMajority (d : Dev) (l : List Nat) : Dev :=
  l.foldl (fun d _ => ((d.addWrap Reg.FLT_COUNT_VOTE_TWO_COPY 1).logError 3 4 0 true 0 65535 0 0).breach Reg.FLT_STATUS_TWO_COPIES) d

/-! ### Reading the fault log (R422, R440) -/

/-- FLT_LOG_CAPTURE. -/
def logCapture (ecc : List (Nat × Nat)) (d : Dev) : List (Nat × Nat) × Dev :=
  if !d.up && d.boot != .held then (ecc, d)
  else
    let s := d.get Reg.FLT_LOG_SEL_SLOT
    let r := (List.range 4).foldl (fun (acc : Bool × List Nat × List (Nat × Nat) × Dev) k =>
      let m := scrubWord acc.2.2.1 acc.2.2.2 (2 ^ 22 + 196608 + 4 * s + k)
      (acc.1 && decide (m.kind ≠ .uncorrectable), acc.2.1 ++ [m.flips], m.ecc, m.dev)) (true, [], ecc, d)
    let ws := if r.1 then (List.range 4).map fun k => nth (d.logSlot s) k ^^^ nth r.2.1 k else List.replicate 4 (2 ^ 32 - 1)
    (r.2.2.1, (((r.2.2.2.set Reg.FLT_LOG_DATA0_W0 (nth ws 0)).set Reg.FLT_LOG_DATA1_W1 (nth ws 1)).set Reg.FLT_LOG_DATA2_W2
      (nth ws 2)).set Reg.FLT_LOG_DATA3_W3 (nth ws 3))

def execFltLogCapture (s : State) : Res := onEcc logCapture s

/-! ### Retirement (R425 to R428, R445) -/

/-- The page's bit in the retirement map, and its bank's bit once all 128 pages are retired (R446, R447). -/
def Dev.markRetired (d : Dev) (p : Nat) : Dev :=
  let f := Reg.MEM_RETIRE_MAP_RETIRED (p / 32)
  let d := d.set f (setBit (d.get f) (p % 32))
  let b := p / 128
  if (rangeFrom (128 * b) (128 * b + 128)).all d.retiredPage then
    d.set Reg.MEM_BANK_RETIRED_BANKS (setBit (d.get Reg.MEM_BANK_RETIRED_BANKS) b)
  else d

/-- The pool of a hub loses a page, and EGR_POOL shows it. -/
def Dev.shrinkPool (d : Dev) : Dev :=
  let d := { d with rcd := { d.rcd with pool := d.rcd.pool - 1 } }
  if d.role == .hub then
    let f := d.freePages
    (d.set Reg.EGR_POOL_FREE_PAGES f).set Reg.EGR_POOL_LOW_WATER (min f (d.get Reg.EGR_POOL_LOW_WATER))
  else d

/-- The next spare page, taken from its source; MD3 is powered when one of banks 12 to 15 is first needed (R427). -/
def Dev.takeSpare (d : Dev) : Option (Nat × Dev) :=
  match d.spareList with
  | [] => none
  | p :: _ =>
    if d.role == .hub then some (p, d.shrinkPool)
    else if 1536 ≤ p ∧ d.get (Reg.PWR_DOM_MD 3) = 0 then
      some (p, (d.setBoth Reg.PWR_MEM_CTRL_MD_EN (setBit (d.eff Reg.PWR_MEM_CTRL_MD_EN) 3)).powerReq 63 true)
    else some (p, d)

/-- Page `n` takes the place of page `p`, which served page `l` of R222. -/
def Dev.replacePage (d : Dev) (p l n : Nat) : Dev :=
  ({ d with flt := { d.flt with remap := putT l n d.flt.remap } }).markRetired p

/-- Whether a pool page holds words: of the record FIFO by its addresses, of a hub's egress pool, whose queues' pages the manual does not
place, by a free value unless no page or every page is free (log entry 38). -/
def Dev.poolHolds (d : Dev) (l : Nat) : Bool × Dev :=
  if d.role == .hub then
    if d.freePages = d.rcd.pool then (false, d) else if d.freePages = 0 then (true, d)
    else let q := d.draw
         (q.1 % 2 == 1, q.2)
  else
    (d.rcd.fifo.any fun r => (List.range r.words.length).any fun i => 1024 + (r.addr + i) % fifoWords / 1024 == l, d)

/-- A pool page without words leaves the pool; a spare takes its place in a front-end or cell device (R426). -/
def Dev.dropPoolPage (d : Dev) (p : Nat) : Dev :=
  if d.role == .hub then d.shrinkPool.markRetired p
  else match d.takeSpare with
    | some n => n.2.replacePage p (d.logical p) n.1
    | none => d.shrinkPool.markRetired p

/-- Whether an assay of one of its words runs in page `p` (R426). -/
def Dev.assayIn (d : Dev) (p : Nat) : Bool := d.flt.assays.any fun a => a.running && a.u.unit == 1 && a.u.loc / 1024 == p

/-- Retirement of one page begins. -/
def Dev.retirePage (d : Dev) (p : Nat) : Dev :=
  if d.retiredPage p then d
  else match d.pageUse p with
    | .spare =>
      if d.assayIn p then { d with flt := { d.flt with retiring := d.flt.retiring ++ [(p, none)] } } else d.markRetired p
    | .fixed => match d.takeSpare with
      | some n => { n.2 with flt := { n.2.flt with retiring := n.2.flt.retiring ++ [(p, some n.1)] } }
      | none => d
    | _ =>
      let h := d.poolHolds (d.logical p)
      if h.1 || d.assayIn p then
        { h.2 with flt := { h.2.flt with retiring := h.2.flt.retiring ++ [(p, none)] } }
      else h.2.dropPoolPage p

/-- Order within a bank: unused pages, then fixed pages, then pool pages. -/
def useOrder : PageUse → Nat
  | .spare => 0
  | .fixed => 1
  | _ => 2

/-- Pages of a bank still to retire. -/
def Dev.bankPages (d : Dev) (b : Nat) : List Nat :=
  sortBy (fun x y => decide (useOrder (d.pageUse x) < useOrder (d.pageUse y)))
    ((rangeFrom (128 * b) (128 * b + 128)).filter fun p => !d.retiredPage p)

/-- Whether the spares outside bank `b` cover its fixed pages (R428). -/
def Dev.bankCovered (d : Dev) (b : Nat) : Bool :=
  decide (((d.bankPages b).filter fun p => d.pageUse p == .fixed).length ≤ (d.spareList.filter fun p => p / 128 != b).length)

/-- The retirement ends once no page waits (R424, R445). -/
def Dev.retireEnd (d : Dev) : Dev :=
  if d.flag Reg.MEM_RETIRE_OP_BUSY && d.flt.retiring.isEmpty then
    let d := (d.setB Reg.MEM_RETIRE_OP_BUSY false).set Reg.MEM_RETIRE_OP_RESULT 0
    d.raise 9 4 [d.readFields (fieldsAt 0x710C)]
  else d

/-- A write of MEM_RETIRE_OP (R445): the fields, and START unless BUSY. -/
def Dev.writeRetire (d : Dev) (w : Nat) : Dev :=
  let d := d.writeFields (fieldsAt 0x710C) w
  if !bitOf w 16 || d.flag Reg.MEM_RETIRE_OP_BUSY then d
  else
    let p := d.get Reg.MEM_RETIRE_OP_PAGE
    let b := d.get Reg.MEM_RETIRE_OP_BANK
    let bank := d.flag Reg.MEM_RETIRE_OP_SCOPE
    let gone := if bank then (d.bankPages b).isEmpty else d.retiredPage p
    let ok := if bank then d.bankCovered b else d.pageUse p != .fixed || !d.spareList.isEmpty
    if gone then d.set Reg.MEM_RETIRE_OP_RESULT 2
    else if !ok then d.set Reg.MEM_RETIRE_OP_RESULT 1
    else
      let d := (d.setB Reg.MEM_RETIRE_OP_BUSY true).set Reg.MEM_RETIRE_OP_RESULT 0
      ((if bank then d.bankPages b else [p]).foldl Dev.retirePage d).retireEnd

/-- RETIRE_START. -/
def execRetireStart (src : Source) (val : Word) (s : State) : Res :=
  onDev (fun d => d.gated src 0x710C fun d => d.writeRetire val.toNat) s

/-- Whether a page that waits can be finished: no assay runs on it, its copy's bank is powered, a pool page's words are released. -/
def Dev.retireReady (d : Dev) (x : Nat × Option Nat) : Bool :=
  !d.assayIn x.1 &&
  match x.2 with
  | some n => d.role == .hub || d.mdOn (n / 512)
  | none => if d.role == .hub then d.freePages != 0 else !(d.poolHolds (d.logical x.1)).1

/-- The words of a page read with correction, to be copied (R426). -/
def copyPage (p : Nat) (ecc : List (Nat × Nat)) (d : Dev) : List (Nat × Nat) × Dev :=
  let bad := ecc.filter fun e => e.1 / 1024 == p
  let r := bad.foldl (fun (acc : List (Nat × Nat) × Dev) e => let m := scrubWord acc.1 acc.2 e.1; (m.ecc, m.dev)) (ecc, d)
  (r.1.filter fun e => e.1 / 1024 != p, r.2)

/-- RETIRE_DONE (R426): the first waiting page that is ready is replaced, or leaves the pool. -/
def retireDone (ecc : List (Nat × Nat)) (d : Dev) : List (Nat × Nat) × Dev :=
  match d.flt.retiring.find? d.retireReady with
  | none => (ecc, d)
  | some x =>
    if !d.up then (ecc, d)
    else
      let d := { d with flt := { d.flt with retiring := d.flt.retiring.filter (· != x) } }
      match x.2 with
      | none => (ecc, (if d.pageUse x.1 = .spare then d.markRetired x.1 else d.dropPoolPage x.1).retireEnd)
      | some n =>
        let r := copyPage x.1 ecc d
        (r.1, ((r.2.replacePage x.1 (r.2.logical x.1) n).addWrap Reg.MEM_SPARE_REMAPPED 1).retireEnd)

def execRetireDone (s : State) : Res := onEcc retireDone s

/-- Retirement of a bank at once, before it holds anything (R429, R430). -/
def Dev.retireBankNow (d : Dev) (b : Nat) : Dev :=
  (d.bankPages b).foldl (fun d p =>
    match d.pageUse p with
    | .spare => d.markRetired p
    | .fixed => match d.takeSpare with
      | some n => (n.2.replacePage p (d.logical p) n.1).addWrap Reg.MEM_SPARE_REMAPPED 1
      | none => d
    | _ => d.dropPoolPage p) d

end Sys2Proof.Machine
end

