-- ==== Sys2Proof/Machine/BringUp.lean ====
section
/-! DEFINITION. Bring-up, loss of the reference and sealing (15_bring_up_identity_and_the_hallmark.md): the hallmark's read (R529), the
self-test's findings (R430), the role step (R18, R19), REFCLK (R527, R528), programming (R533). -/
namespace Sys2Proof.Machine

/-- Class 0x0C events (R535). -/
def Dev.bootEvent (d : Dev) (code : Nat) (data : List Nat) : Dev := d.raise 12 code data

/-! ### The hallmark -/

/-- The three copies of word `w`. -/
def Fuses.copies (f : Fuses) (w : Nat) : List Nat := [getT 0 w f.a, getT 0 w f.b, getT 0 w f.c]

/-- Majority of three words. -/
def maj3 (a b c : Nat) : Nat := (a &&& b) ||| (a &&& c) ||| (b &&& c)

/-- Word `w` of the hallmark by majority (R529). -/
def Fuses.word (f : Fuses) (w : Nat) : Nat := maj3 (getT 0 w f.a) (getT 0 w f.b) (getT 0 w f.c)

/-- Logical bits of word `w` whose copies disagree. -/
def Fuses.disagree (f : Fuses) (w : Nat) : Nat :=
  let a := getT 0 w f.a
  popCount ((a ^^^ getT 0 w f.b) ||| (a ^^^ getT 0 w f.c)) 32

/-- Words of the hallmark that are not 0, as read at bring-up. -/
def Fuses.read (f : Fuses) : List (Nat × Nat) := (List.range 256).filterMap fun w => if f.word w = 0 then none else some (w, f.word w)

/-- Bits `m` of word `w` blown in all three copies. -/
def Fuses.blow (f : Fuses) (w m : Nat) : Fuses :=
  let put (t : List (Nat × Nat)) : List (Nat × Nat) := putT w (getT 0 w t ||| m) t
  { a := put f.a, b := put f.b, c := put f.c }

/-- Words `a` to `b` − 1 as read. -/
def Dev.hmWords (d : Dev) (a b : Nat) : List Nat := (rangeFrom a b).map d.hmWord

/-- Whether the customer area counts (R530). -/
def Dev.sealed (d : Dev) : Bool := d.flag Reg.HM_STATUS_SEALED

/-- Word `w` of the customer area as it acts: 0 while SEALED is 0. -/
def Dev.custWord (d : Dev) (w : Nat) : Nat := if d.sealed then d.hmWord w else 0

/-- The hallmark as read, its checks and the registers loaded from it (R529, R530, R550, R559). -/
def Dev.readHallmark (d : Dev) (f : Fuses) : Dev :=
  let d := { d with hm := { d.hm with view := f.read } }
  let sld := bitOf (d.hmWord 140) 0
  let bad := ((List.range 256).map f.disagree).sum
  let crcOk := crcWords (d.hmWords 0 127) == d.hmWord 127 && (!sld || crcWords (d.hmWords 128 139) == d.hmWord 139)
  let d := (((d.setB Reg.HM_STATUS_SEALED sld).setB Reg.HM_STATUS_RWL_LOCKED sld).set Reg.HM_STATUS_DISAGREE (min 65535 bad)).setB
    Reg.HM_STATUS_CRC_FAIL (!crcOk)
  let d := { d with hm := { d.hm with disEvt := bad != 0 } }
  let w2 := d.hmWord 2
  let w3 := d.hmWord 3
  let d := (d.set Reg.ID_SERIAL_LO_SERIAL_LO (d.hmWord 0)).set Reg.ID_SERIAL_HI_SERIAL_HI (d.hmWord 1)
  let d := ((d.set Reg.ID_LOT_LOT w2).set Reg.ID_LOT_WAFER (w2 / 2 ^ 24)).set Reg.ID_DIE_DIE_X w3 |>.set Reg.ID_DIE_DIE_Y (w3 / 256)
  let d := ((d.set Reg.ID_STEP_GRADE (w3 / 2 ^ 16)).set Reg.ID_STEP_DIGIT (0x30 + bits w3 24 4)).set Reg.ID_STEP_LETTER (0x40 + bits w3 28 4)
  let d := (List.range 48).foldl (fun d n =>
    (d.set (Reg.CH_ALIGN_PKG n) (d.hmWord (4 + n / 2) / 2 ^ (16 * (n % 2)))).setBoth (Reg.CH_TDC_DELAY_DELAY n) (d.hmWord (28 + n))) d
  let w := d.hmWord 92
  let d := ((d.set Reg.PWR_WEIGHT_CH_MW w).set Reg.PWR_WEIGHT_LQ_10MW (w / 256)).set Reg.PWR_WEIGHT_MD_MW (w / 65536)
  let cust := d.custWord 128
  let d := d.set Reg.GLB_ROLE_STATUS_PERMITTED (7 - cust % 8)
  let d := (d.setB Reg.PWR_CLASS_LIMIT_12 (bitOf cust 3)).setB Reg.PWR_CLASS_LIMIT_14 (bitOf cust 4)
  d.set Reg.PWR_CLASS_CEILING (if bitOf cust 3 then 1200 else if bitOf cust 4 then 1400 else 1600)

/-! ### Power, reset, steps 1 and 2 of R518 -/

/-- The device with every register, queue and counter at reset (R550): balls, antifuses and ledger stay. -/
def Dev.cleared (d : Dev) (boot : Boot) (pgood : Bool) : Dev :=
  let z := Dev.reset
  { z with
    free := d.free, out := d.out, boot := boot, ledger := d.ledger, ldgWeak := d.ldgWeak
    pins := { z.pins with strap := d.pins.strap, refPresent := d.pins.refPresent, pgood := pgood, vio := pgood, hkBlank := d.pins.hkBlank,
                          perst := d.pins.perst } }

/-- Steps 1 and 2 of R518 ended: rails up, hallmark read, self-test done (R430), ledger found; the device waits for step 3 (R527). -/
def Dev.boots (d : Dev) (f : Fuses) (test : SelfTest) : Dev :=
  let d := (d.cleared .waiting true).readHallmark f
  let d := (((d.setB Reg.GLB_BRINGUP_STATUS_RAILS_OK true).setB Reg.GLB_BRINGUP_STATUS_HM_READ_DONE true).setB
    Reg.GLB_BRINGUP_STATUS_REF_WAIT (!d.pins.refPresent)).setB Reg.PWR_STATUS_PGOOD true
  let d := (d.set Reg.FLT_SELFTEST_BANK_FAIL test.banks).set Reg.FLT_SELFTEST_LQ_FAIL test.lqs
  let d := ((d.setB Reg.FLT_SELFTEST_SMALL_MEM_FAIL test.smallMem).setB Reg.FLT_SELFTEST_CORE_FAIL test.core).setB Reg.FLT_SELFTEST_DONE true
  let d := (d.set Reg.LDG_STATUS_NEXT_SLOT (nth d.ldgHeader.2 4)).set Reg.GLB_ROLE_STATUS_STRAP_LIVE d.pins.strap
  { d with hm := { d.hm with test := test, testEvt := true } }

/-- Switching frequencies of the two converter stages in MHz (R476): derived from REFCLK while it is present; without it they run free, within
10 % of these. -/
def Dev.switching (d : Dev) : Option (Nat × Nat) := if d.boot != .off && d.pins.refPresent then some (10, 50) else none

/-- VIN_VALID (R477, R518). -/
def execVinValid (test : SelfTest) (s : State) : Res :=
  if s.dev.boot = .off then .next { s with dev := s.dev.boots s.fuses test, ecc := [] } else .next s

/-! ### Sealing (R533) -/

/-- Staging word `k`, 0 to 10 (R541). -/
def Dev.stageWord (d : Dev) (k : Nat) : Nat := getT 0 k d.hm.stage

/-- The customer CRC of the staging. -/
def Dev.stageCrc (d : Dev) : Nat := crcWords ((List.range 11).map d.stageWord)

/-- Bits a session blows, in order: staged 1 bits not yet blown, then the customer CRC; each as word and bit. -/
def Dev.toBlow (d : Dev) (f : Fuses) : List (Nat × Nat) :=
  ((List.range 11).flatMap fun k => (setBits (d.stageWord k) 32).filterMap fun b =>
    if bitOf (f.word (128 + k)) b then none else some (128 + k, b)) ++ (setBits d.stageCrc 32).map fun b => (139, b)

/-- The first `k` bits of a session blown. -/
def Dev.blowSome (d : Dev) (f : Fuses) (k : Nat) : Fuses := ((d.toBlow f).take k).foldl (fun f p => f.blow p.1 (2 ^ p.2)) f

/-- The antifuses after a reset or a loss of power: an interrupted session has blown `k` bits (R533). -/
def State.interrupted (s : State) (k : Nat) : Fuses := if s.dev.hm.sealing then s.dev.blowSome s.fuses k else s.fuses

/-- A write of HM_PROG_DATA (R541). -/
def Dev.writeStage (d : Dev) (v : Nat) : Dev :=
  if d.flag Reg.HM_STATUS_RWL_LOCKED then d
  else
    let k := min 10 (d.get Reg.HM_PROG_ADDR_WORD)
    ({ d with hm := { d.hm with stage := putT k (v % 2 ^ 32) d.hm.stage } }).set Reg.HM_PROG_ADDR_WORD (min 10 (k + 1))

def execHmProgDataWrite (src : Source) (val : Word) (s : State) : Res :=
  onDev (fun d => d.gated src 0xD014 fun d => d.writeStage val.toNat) s

/-- The first condition of PROGRAM that fails, as RESULT (R533, R542); 0 where none does. -/
def Dev.programCheck (d : Dev) (src : Source) (f : Fuses) : Nat :=
  if src != .spi && src != .pcie then 1
  else if d.get Reg.HM_PROG_CONFIRM_SERIAL_LO ≠ d.get Reg.ID_SERIAL_LO_SERIAL_LO then 2
  else if d.get Reg.PWR_INPUT_VIN_MV < 10000 ∨ d.tj < 0 ∨ (1360 : Int) < d.tj then 3
  else if bitOf (f.word 140) 0 then 4
  else if (List.range 11).any fun k => f.word (128 + k) &&& (2 ^ 32 - 1 - d.stageWord k) != 0 then 5
  else 0

/-- PROGRAM written: a session starts, or RESULT says why not. -/
def Dev.program (d : Dev) (src : Source) (f : Fuses) : Dev :=
  if d.flag Reg.HM_PROG_CTRL_BUSY then d
  else
    let r := d.programCheck src f
    if r = 0 then ({ d with hm := { d.hm with sealing := true } }).setB Reg.HM_PROG_CTRL_BUSY true
    else d.set Reg.HM_PROG_CTRL_RESULT r

def execProgram (src : Source) (s : State) : Res := onDev (fun d => d.gated src 0xD01C fun d => d.program src s.fuses) s

/-- SEAL_DONE (R533, R534): every staged bit, the customer CRC and SEALED are blown, or the read-back fails after a number of bits the
manual does not give. -/
def sealDone (readBackOk : Bool) (f : Fuses) (d : Dev) : Fuses × Dev :=
  if !d.hm.sealing then (f, d)
  else
    let e := ({ d with hm := { d.hm with sealing := false } }).setB Reg.HM_PROG_CTRL_BUSY false
    let all := d.toBlow f
    if readBackOk then
      ((d.blowSome f all.length).blow 140 1, (e.set Reg.HM_PROG_CTRL_RESULT 0).setB Reg.HM_STATUS_RWL_LOCKED true)
    else
      let q := e.draw
      (d.blowSome f (q.1 % (all.length + 1)), q.2.set Reg.HM_PROG_CTRL_RESULT 6)

def execSealDone (readBackOk : Bool) (s : State) : Res :=
  let r := sealDone readBackOk s.fuses s.dev
  .next { s with fuses := r.1, dev := r.2 }

/-! ### Loss of power and reset -/

/-- The state after a loss of power. -/
def State.unpowered (s : State) (blown : Nat) : State :=
  if s.dev.boot = .off then s else { s with fuses := s.interrupted blown, ecc := [], dev := s.dev.cleared .off false }

/-- CONVERTER_STOP (R477). -/
def execConverterStop (blown : Nat) (s : State) : Res := .next (s.unpowered blown)

/-- RAIL_LIMIT_TRIP (R477, R586). -/
def execRailLimitTrip (blown : Nat) (s : State) : Res := .next (s.unpowered blown)

/-- NRESET_ASSERT (R550, R579): every register at reset, the rails kept. -/
def execNresetAssert (blown : Nat) (s : State) : Res :=
  if s.dev.boot = .off then .next s
  else .next { s with fuses := s.interrupted blown, ecc := [], dev := s.dev.cleared .resetHeld true }

/-- NRESET_RELEASE (R579): bring-up restarts at step 2. -/
def execNresetRelease (test : SelfTest) (s : State) : Res :=
  if s.dev.boot = .resetHeld then .next { s with dev := s.dev.boots s.fuses test, ecc := [] } else .next s

/-! ### The role step (R18 to R22, R518 step 3) -/

/-- The first pointer of the role's capability list (R561, R562). -/
def capFirst : Role → Nat
  | .frontEnd => 0x21
  | .cell => 0x24
  | .hub => 0x20
  | .noRole => 0

/-- Banks that failed the self-test retired, lowest first; whether the spares covered all of them (R430). -/
def Dev.retireFailed (d : Dev) (banks : Nat) : Bool × Dev :=
  (setBits banks 16).foldl (fun acc b => (acc.1 && acc.2.bankCovered b, acc.2.retireBankNow b)) (true, d)

/-- A channel takes triggers in a frame when it is ON (R175) and not under foreground calibration (R168, R185), and the device is not
tripping. -/
def Dev.takesTriggers (d : Dev) : List Nat :=
  if 3 ≤ d.thermState ∨ d.pw.resume = true then []
  else (List.range 48).filter fun n => d.chanIsOn n && !d.flag (Reg.CH_STATUS_CAL_ACTIVE n)

/-- Channels under the calibration of a rotation (R107), whose samples are dead (R176). -/
def Dev.rotChans (d : Dev) : List Nat :=
  (List.range 48).filter fun n => d.flag (Reg.CH_STATUS_CAL_ACTIVE n) && d.get Reg.CH_CAL_STATUS_CUR_QUAD == n / 4
    && (d.chan n).calFn == some d.acq.rotFn

/-- Settings and account of the frame that opens now (R171, R216). -/
def Dev.newFrame (d : Dev) : FStat :=
  { fn := d.fn, base := d.acq.base, cyc := d.tm.clk.cyc, exc := d.tm.clk.exc, u := d.tm.clk.u, clkState := d.clkState,
    selected := d.selected, stepped := d.tm.stepped, force := d.force, env := d.acq.envA, anchor := d.acq.anchor,
    acq := (List.range 48).filter fun n => (d.chan n).acquiring, accept := d.takesTriggers,
    calib := d.rotChans, age := 0, dead := [], reasons := 0,
    refused := none, nHit := 0, nStream := 0, nLoss := 0, nDrop := 0, nDup := 0, judged := false, ports := [], summed := false,
    gone := decide (3 ≤ d.thermState) || d.pw.resume }

/-- Registers whose reset value is the role's own (R550), and what stands outside the registers for the role. -/
def Dev.roleValues (d : Dev) (r : Role) : Dev :=
  let d := r.lanes.foldl (fun d l => d.setBoth (Reg.LN_CTRL_ENABLE l) 1) d
  let d := d.set Reg.ID_CAP_ROOT_FIRST (capFirst r)
  match r with
  | .frontEnd =>
    let d := (List.range 48).foldl (fun d n => d.setBoth (Reg.CH_CTRL_ENABLE n) 1) d
    let d := (d.setBoth Reg.PWR_MEM_CTRL_MD_EN 7).set Reg.CMP_STATUS_ENC_ENGINES (255 - d.hm.test.engines % 256)
    { d with rcd := { d.rcd with pool := 256 }, pw := { d.pw with ramp := List.range 48 },
             acq := { d.acq with linBoot := List.range 48 } }
  | .cell =>
    let d := ((d.setBoth Reg.PWR_MEM_CTRL_MD_EN 7).setBoth Reg.TDC_LEND_MODE_A 1).setBoth Reg.TDC_LEND_MODE_B 1
    { d.setB Reg.GLB_BRINGUP_STATUS_RAMP_DONE true with rcd := { d.rcd with pool := 256 }, acq := { d.acq with linBoot := [0, 1] } }
  | .hub =>
    let d := ((d.setBoth Reg.PWR_MEM_CTRL_MD_EN 15).setBoth Reg.TDC_LEND_MODE_A 1).setBoth Reg.TDC_LEND_MODE_B 1
    let d := (d.set Reg.CMP_STATUS_CHK_ENGINES (65535 - d.hm.test.engines % 65536)).setB Reg.GLB_BRINGUP_STATUS_RAMP_DONE true
    let d := (rangeFrom 32 48).foldl (fun d l => d.set (Reg.LN_STATUS_LSTATE l) 6) d
    { d with rcd := { d.rcd with pool := 1024 }, acq := { d.acq with linBoot := [0, 1] } }
  | .noRole => d

/-- Power-ons of step 4 of R518, without admission: memory domains, lane quads of the role, and channels 0 and 1 of a cell or hub. -/
def Dev.bootPower (d : Dev) : Dev :=
  let mds := (setBits (d.eff Reg.PWR_MEM_CTRL_MD_EN) 4).map (· + 60)
  let lqs := ((List.range 12).filter d.lqWanted).map (· + 48)
  let chs := if d.role == .frontEnd then [] else [0, 1]
  ((mds ++ lqs ++ chs).foldl (fun d c => d.powerReq c false) d).startPower

/-- Frame 0 opens in the role taken. -/
def Dev.takeRole (d : Dev) (strap : Nat) : Dev :=
  let r := roleOfNat strap
  let d := ({ d with boot := .running }.set Reg.GLB_ROLE_STATUS_ACTIVE_ROLE strap).roleValues r
  let d := { d with hk := { d.hk with calReq := true }, pins := { d.pins with refAlert := false } }
  let d := d.bootPower
  { d with acq := { d.acq with fstats := [d.newFrame] } }

/-- A role refused (R19), or a fatal self-test (R430). -/
def Dev.hold (d : Dev) (f : Fld) : Dev := { (d.set Reg.GLB_ROLE_STATUS_ACTIVE_ROLE 3).setB f true with boot := .held }

/-- ROLE_FIXED (R18, R19, R430, R505, R518). -/
def Dev.roleFixed (d : Dev) : Dev :=
  if d.boot ≠ .waiting ∨ d.pins.refPresent = false then d
  else
    let strap := d.pins.strap % 4
    let d := ((d.ldgBoot.set Reg.GLB_ROLE_STATUS_STRAP_LATCHED strap).setB Reg.GLB_ROLE_STATUS_ROLE_FIXED true).setB
      Reg.GLB_BRINGUP_STATUS_ROLE_FIXED true
    let t := d.hm.test
    if d.flag Reg.HM_STATUS_CRC_FAIL || strap == 3 || !bitOf (d.get Reg.GLB_ROLE_STATUS_PERMITTED) strap then
      d.hold Reg.GLB_ROLE_STATUS_ROLE_REFUSED
    else
      let e := (d.takeRole strap).retireFailed t.banks
      if t.smallMem || t.core || !e.1 then d.hold Reg.FLT_SELFTEST_FATAL else e.2

def execRoleFixed (s : State) : Res := onDev Dev.roleFixed s

/-- ROLE_STRAP_CHANGE (R18, R39): only STRAP_LIVE follows. -/
def Dev.strapChange (d : Dev) (strap : Nat) : Dev :=
  let d := { d with pins := { d.pins with strap := strap % 4 } }
  if d.boot = .off ∨ d.boot = .resetHeld then d else d.set Reg.GLB_ROLE_STATUS_STRAP_LIVE strap

def execRoleStrapChange (strap : Nat) (s : State) : Res := onDev (fun d => d.strapChange strap) s

/-! ### The reference clock (R527, R528) -/

/-- REF_WAIT_ALERT (R527). -/
def execRefWaitAlert (s : State) : Res :=
  onDev (fun d => if d.boot = .waiting ∧ d.pins.refPresent = false then { d with pins := { d.pins with refAlert := true } } else d) s

/-- REFCLK_LOST (R434, R527, R528). -/
def Dev.refLost (d : Dev) : Dev :=
  if !d.pins.refPresent then d
  else
    let d := { d with pins := { d.pins with refPresent := false, refRelock := false, refLostFn := some d.fn } }
    match d.boot with
    | .waiting => d.setB Reg.GLB_BRINGUP_STATUS_REF_WAIT true
    | .running => ((d.breach Reg.FLT_STATUS_REF_LOST).bootEvent 3 [1, 0]).hkNoRef
    | _ => d

def execRefclkLost (s : State) : Res := onDev Dev.refLost s

/-- REFCLK_RETURN (R527, R528). -/
def Dev.refReturn (d : Dev) : Dev :=
  if d.pins.refPresent then d
  else
    let lost := d.pins.refLostFn.getD d.fn
    let run := d.boot == .running
    let d := { d with pins := { d.pins with refPresent := true, refRelock := run, refAlert := false,
                                            refLostFn := if run then some (d.fn - lost) else none } }
    if d.boot = .waiting then d.setB Reg.GLB_BRINGUP_STATUS_REF_WAIT false else d

def execRefclkReturn (s : State) : Res := onDev Dev.refReturn s

/-- PLL_RELOCK (R463, R528): samples stay provisional for 32 frames more. -/
def Dev.relock (d : Dev) : Dev :=
  if !d.up || !d.pins.refRelock then d
  else
    let n := d.pins.refLostFn.getD 0
    let until' := d.fn + 33
    let d := { d with pins := { d.pins with refRelock := false, refLostFn := none } }
    let d := (List.range 48).foldl (fun d n => d.updChan n fun c => { c with provUntil := max c.provUntil until' }) d
    (d.bootEvent 3 [0, n]).hkRefBack

def execPllRelock (s : State) : Res := onDev Dev.relock s

/-! ### ALERT (R19, R494, R527, R573) -/

/-- Whether ALERT is active: no power, held, waiting too long for REFCLK, or a thermal state other than NORMAL. -/
def Dev.alert (d : Dev) : Bool := d.boot == .off || d.boot == .held || d.pins.refAlert || d.thermState != 0

end Sys2Proof.Machine
end

