-- ==== Sys2Proof/Machine/Access.lean ====
section
/-! DEFINITION. The register space as software reaches it (16_register_map_and_capabilities.md): what each address reads and what a
write of it does, by role, and the paths of SPI (R553, R554) and BAR0 (R555, R556). -/
namespace Sys2Proof.Machine

/-! ### Capability list (R560 to R564) -/

/-- Capabilities of a role, in ascending ID (R562). -/
def capIds : Role → List Nat
  | .frontEnd => [2, 3, 4, 5, 6, 7, 8]
  | .cell => [5, 6, 7, 8]
  | .hub => [1, 5, 6, 7, 8, 9]
  | .noRole => []

/-- REG_BASE and REG_BYTES of capability `i` (R562). -/
def capRegs (i : Nat) : Nat × Nat :=
  ([(0x9000, 0x140), (0x3640, 0x6C), (0x4000, 0x24), (0x3700, 0x24), (0x1060, 0xC), (0xB000, 0x80), (0xA060, 0xC), (0x5024, 8),
    (0x401C, 8)] : List (Nat × Nat)).getD (i - 1) (0, 0)

/-- Parameter words W2 to W4 of capability `i` in a role (R564). -/
def capParams (r : Role) (i : Nat) : List Nat :=
  match i with
  | 1 => [pack [(0, 5, 16), (5, 3, 4), (8, 8, 64), (16, 16, 4096)], 0x10000, 0x11000]
  | 2 => [pack [(0, 8, 12), (8, 8, 2), (16, 16, 512)], 4]
  | 3 => [pack [(0, 4, 1), (4, 4, 5), (8, 4, 14), (12, 8, 8)]]
  | 4 => [pack [(0, 4, 4), (16, 16, 625)], 320]
  | 5 => [pack [(0, 4, 1), (4, 6, 63)]]
  | 6 => [pack [(0, 8, 16), (8, 8, 8), (16, 8, 24), (24, 8, 7)]]
  | 7 => [pack [(0, 16, 256), (16, 16, 64)], 1]
  | 8 => [pack [(0, 16, 0x80), (16, 6, 0), (24, 6, match r with | .frontEnd => 3 | .cell => 47 | _ => 31)],
          pack [(0, 8, 64), (8, 8, 128), (16, 4, 12)]]
  | 9 => [16]
  | _ => []

/-- Pointer to the entry after `i` in the list of a role. -/
def capNext (r : Role) (i : Nat) : Nat :=
  match (capIds r).find? fun j => decide (i < j) with
  | some j => 31 + j
  | none => 0

/-- The word at an address of the capability area (R561): 0 outside the role's entries. -/
def capWord (r : Role) (addr : Nat) : Nat :=
  let i := (addr - 0x800) / 64 + 1
  let k := (addr - 0x800) % 64 / 4
  if !(capIds r).contains i then 0
  else match k with
    | 0 => pack [(0, 16, i), (16, 8, 1), (24, 8, capNext r i)]
    | 1 => pack [(0, 16, (capRegs i).1), (16, 16, (capRegs i).2)]
    | _ => nth (capParams r i) (k - 2)

/-! ### What the role uses -/

/-- Merge block registers of the front-end and cell roles, of the hub, of the cell and hub (R291 to R300). -/
def mergeUses (r : Role) (addr : Nat) : Bool :=
  if addr ≤ 0x8004 then r != .hub
  else if (0x8010 ≤ addr ∧ addr ≤ 0x801C) ∨ 0x8300 ≤ addr then r == .hub
  else if 0x8100 ≤ addr ∧ addr < 0x8300 then decide ((addr % 0x100) / 4 < r.downLanes)
  else r == .cell || r == .hub

/-- Whether the role uses the register at an address: one it does not use ignores writes. -/
def Role.usesReg (r : Role) (addr : Nat) : Bool :=
  if 0x3000 ≤ addr ∧ addr < 0x4000 then r == .frontEnd
  else if 0x4000 ≤ addr ∧ addr < 0x5000 then r == .frontEnd || (r == .hub && [0x4004, 0x401C, 0x4020].contains addr)
  else if 0x5000 ≤ addr ∧ addr < 0x6800 then r.usesLane ((addr - 0x5000) / 0x80)
  else if 0x7004 ≤ addr ∧ addr ≤ 0x7010 then r != .hub
  else if 0x7020 ≤ addr ∧ addr ≤ 0x702C then r == .hub
  else if 0x8000 ≤ addr ∧ addr < 0x9000 then mergeUses r addr
  else if 0x9000 ≤ addr ∧ addr < 0xA000 then r == .hub
  else true

/-- Registers that read 0 in a role that does not use them, whatever their reset value (R234 to R244). -/
def readsZero (r : Role) (addr : Nat) : Bool := decide (0x7004 ≤ addr ∧ addr ≤ 0x702C) && !r.usesReg addr

/-! ### Reads -/

/-- HM_READ_DATA (R539): the key's words read 0. -/
def Dev.hmReadData (d : Dev) : Nat :=
  let w := d.get Reg.HM_READ_ADDR_WORD
  if 131 ≤ w ∧ w ≤ 138 then 0 else d.hmWord w

/-- HM_PROG_DATA (R541): the key's staging words read 0. -/
def Dev.hmProgData (d : Dev) : Nat := let k := d.get Reg.HM_PROG_ADDR_WORD; if 3 ≤ k then 0 else d.stageWord k

/-- ENTRY of TDC_LUT_ACCESS (R155). -/
def Dev.lutEntry (d : Dev) : Nat :=
  let n := d.get Reg.TDC_LUT_ACCESS_CHAN
  if n < 48 then (d.chan n).tOf (d.get Reg.TDC_LUT_ACCESS_CODE) else 0

/-- XC_COUNTS (R399). -/
def Dev.xcCounts (d : Dev) : Nat :=
  let g := d.get Reg.XC_SEL_GROUP
  let x := d.xing g
  if 50 < g then 0 else pack [(0, 16, x.flushes), (16, 12, x.checkErr), (28, 1, b2n x.held)]

/-- EGR_STATUS (R242). -/
def Dev.egrStatus (d : Dev) : Nat :=
  let g := d.ring (d.get Reg.EGR_SEL_RING)
  pack [(0, 11, g.held), (16, 16, min 65535 g.entries.length)]

/-- HR_RING_STATE (R339). -/
def Dev.ringState (d : Dev) : Nat :=
  let g := d.ring (d.get Reg.HR_RING_OP_RING)
  pack [(0, 2, g.st), (2, 2, g.typ), (4, 1, b2n g.error), (16, 16, g.head)]

/-- PWR_SENSOR_DATA and PWR_SENSOR_FUSE (R515). -/
def Dev.sensorData (d : Dev) : Nat :=
  let s := d.get Reg.PWR_SENSOR_SEL_SENSOR
  if d.pw.counts.isEmpty then 0 else pack [(0, 16, ofSigned 16 (d.reading s)), (16, 16, nth d.pw.counts s)]
def Dev.sensorFuse (d : Dev) : Nat :=
  let s := d.get Reg.PWR_SENSOR_SEL_SENSOR
  pack [(0, 16, d.senN0 s), (16, 16, d.senSlope s)]

/-- The word at an address, without what a read does besides (R545 to R547, R566). GLB_DEVICE_NUMBER reads as in force, VALID like DEVNUM
(R41 says it of DEVNUM; DESIGN CHOICE for VALID, log entry 55). -/
def Dev.regWord (d : Dev) (addr : Nat) : Nat :=
  if readsZero d.role addr then 0
  else if 0x800 ≤ addr ∧ addr < 0x1000 then capWord d.role addr
  else if 0x2000 ≤ addr ∧ addr < 0x2C00 ∧ addr % 64 = 4 then
    (if d.chanOn ((addr - 0x2000) / 64) then setBit (d.readFields (fieldsAt addr)) 0 else clearBit (d.readFields (fieldsAt addr)) 0)
  else match addr with
    | 0x0108 => d.devnum + 65536 * b2n d.numbered
    | 0x2C18 => pack [(0, 6, d.get Reg.TDC_LUT_ACCESS_CHAN), (6, 7, d.get Reg.TDC_LUT_ACCESS_CODE), (16, 15, d.lutEntry)]
    | 0x36A4 => if d.role == .frontEnd then d.maskDataRead else Reg.TRG_MASK_DATA_VALUE.reset
    | 0x7000 => d.memLayout
    | 0x7024 => d.egrStatus
    | 0x7110 => pack [(0, 11, d.sparePages), (16, 11, d.get Reg.MEM_SPARE_REMAPPED)]
    | 0x8024 => if d.hasRoutes then d.routeEntry (d.get Reg.MRG_ROUTE_ADDR_DEVNUM) else 0
    | 0x9028 => if d.role == .hub then d.ringState else 0
    | 0xA044 => d.sensorData
    | 0xA048 => d.sensorFuse
    | 0xD008 => d.hmReadData
    | 0xD014 => d.hmProgData
    | 0xE004 => d.xcCounts
    | _ => d.readFields (fieldsAt addr)

/-- What a read does beside answering (R74, R195, R239, R440, R472, R517): the captures. Those of TRG_DEAD_LO belong to the front-end role. The
core cycle of a TIM_NOW capture is a free value. -/
def readEffect (ecc : List (Nat × Nat)) (d : Dev) (addr : Nat) : List (Nat × Nat) × Dev :=
  match addr with
  | 0x1008 => let q := d.draw; (ecc, q.2.captureNow (q.1 % d.tm.clk.cyc))
  | 0x3638 => (ecc, whenD (d.role == .frontEnd) Dev.deadCapture d)
  | 0x7018 => (recDiagRead ecc d).2
  | 0xA064 => (ecc, d.ldgRead.2)
  | 0xB01C => (ecc, d.hkCapture)
  | 0xC00C => logCapture ecc d
  | _ => (ecc, d)

/-- The word a read shows: while the work of a boundary runs, a power state is that which step 3 of the boundary leaves (R25). CH_STATUS holds
one in bit 0. -/
def Dev.seenWord (d : Dev) (addr : Nat) : Nat :=
  match d.pw.shown.find? fun p => p.1 == addr with
  | some p =>
    if addr < 0xA000 then (if bitOf p.2 0 then setBit (d.regWord addr) 0 else clearBit (d.regWord addr) 0) else p.2
  | none => d.regWord addr

/-- A read by software at a whole address (R547): its effect, then the word. -/
def softRead (ecc : List (Nat × Nat)) (d : Dev) (addr : Nat) : Nat × List (Nat × Nat) × Dev :=
  let a := addr / 4 * 4 % 65536
  let r := readEffect ecc d a
  (r.2.seenWord a, r)

/-! ### Writes -/

/-- GLB_ROLE_CFG (R40, R183): a mask that leaves no uplink is refused; any other waits for the boundary, at which slots whose lane it
removes stop. In a front-end an event carries the outcome (R181). -/
def Dev.writeRoleCfg (d : Dev) (src : Source) (w : Nat) : Dev :=
  let bad := (d.role == .frontEnd && w % 16 == 0) || (d.role == .cell && w % 256 == 0)
  let d := if bad then d.setB Reg.GLB_ROLE_STATUS_CFG_REFUSED true else d.plainWrite src 0x0104 w
  if d.role == .frontEnd then d.trgEvent (if bad then 8 else 7) [w % 16] else d

/-- TIM_ASYM_CTRL (R83). -/
def Dev.writeAsym (d : Dev) (w : Nat) : Dev := (d.writeFields (fieldsAt 0x1050) w).clearSuspect (bitOf w 26) (bitOf w 27)

/-- TIM_TXQ_CTRL (R90). -/
def Dev.writeTxq (d : Dev) (w : Nat) : Dev :=
  let d := d.writeFields (fieldsAt 0x1090) w
  if bitOf w 0 then d.txqPop else d

/-- CH_CTRL[n] (R112): ENABLE ignores writes in the cell and hub roles. -/
def Dev.writeChCtrl (d : Dev) (src : Source) (addr w : Nat) : Dev :=
  d.plainWrite src addr (if d.role == .frontEnd then w else clearBit w 0)

/-- TRG_MASK_CFG[q] (R196): REARM beside the settings. -/
def Dev.writeMaskCfg (d : Dev) (src : Source) (addr w : Nat) : Dev :=
  let q := (addr - 0x3640) / 4
  let d := d.plainWrite src addr w
  if bitOf w (Reg.TRG_MASK_CFG_REARM q).lo then d.maskRearm q else d

/-- A write to the Time, Channels, or Trigger and capture block. -/
def Dev.writeLow (d : Dev) (src : Source) (addr w : Nat) : Dev :=
  match addr with
  | 0x0104 => d.writeRoleCfg src w
  | 0x0108 => d.writeFields (fieldsAt 0x0108) w |>.enqueue (.reg src 0x0108 (w32 w))
  | 0x1000 => d.writeTimCtrl w
  | 0x1020 => d.writeServoLimits w
  | 0x1030 => d.writeDomCfg 0 w
  | 0x1034 => d.writeDomCfg 1 w
  | 0x1050 => d.writeAsym w
  | 0x1090 => d.writeTxq w
  | 0x2C00 => if d.role == .frontEnd then d.writeCalCtrl w else d.writeFields (fieldsAt addr) w
  | 0x2C10 => d.writeTdcCal w
  | 0x2C24 => if d.role == .frontEnd then d.plainWrite src addr w else d
  | 0x2C30 => if d.role == .frontEnd then d.writeStatCtrl w else d.writeFields (fieldsAt addr) w
  | 0x36A4 => d.maskData w
  | 0x36A8 => d.maskCommit w
  | _ =>
    if 0x2000 ≤ addr ∧ addr < 0x2C00 ∧ addr % 64 = 0 then d.writeChCtrl src addr w
    else if 0x3640 ≤ addr ∧ addr < 0x3670 then d.writeMaskCfg src addr w
    else if 0x3700 ≤ addr ∧ addr < 0x3720 ∧ addr % 8 = 0 then (d.writeStreamCfg src ((addr - 0x3700) / 8) w).2
    else d.plainWrite src addr w

/-- A write to the blocks from Lanes on. -/
def Dev.writeHigh (f : Fuses) (d : Dev) (src : Source) (addr w : Nat) : Dev :=
  match addr with
  | 0x4000 => d.plainWrite src addr (setBit w 4)
  | 0x7004 => let d := d.plainWrite src addr w; if bitOf w 0 then d.writeFlush else d
  | 0x710C => d.writeRetire w
  | 0x8024 => d.writeRoute w
  | 0x9000 => d.writeHrCtrl src w
  | 0x9024 => d.writeRingOp w
  | 0xA050 => d.writeRelease src w
  | 0xA054 => if bitOf w 0 then d.writeHoldReq else d
  | 0xB000 => d.writeHkCtrl src w
  | 0xB028 => d.writeHkMon w
  | 0xC000 => (d.plainWrite src addr w).setBeyond
  | 0xD014 => d.writeStage w
  | 0xD01C => if bitOf w 0 then d.program src f else d
  | _ =>
    if 0x5000 ≤ addr ∧ addr < 0x6800 then
      let l := (addr - 0x5000) / 0x80
      if addr % 0x80 = 0x24 then d.writeEye src l w else d.writeLane src l addr w
    else if 0x9004 ≤ addr ∧ addr ≤ 0x9020 then d.writeHrBase src addr w
    else if (0xB004 ≤ addr ∧ addr ≤ 0xB014) ∨ (0xB040 ≤ addr ∧ addr < 0xB080) then d.writeHk addr w
    else d.plainWrite src addr w

/-- A software write that has passed its gate, at a whole address: its register's own behaviour where it has one, and none in a role that
does not use the register. -/
def softWrite (f : Fuses) (d : Dev) (src : Source) (addr w : Nat) : Dev :=
  if !d.role.usesReg addr then d else if addr < 0x4000 then d.writeLow src addr w else d.writeHigh f src addr w

/-- An address as a path uses it (R546): bits [1:0] ignored, the space wraps. -/
def wholeAddr (addr : Nat) : Nat := addr / 4 * 4 % 65536

/-! ### Register write rows -/

/-- REGISTER_WRITE (R548, R549): any register of the space. -/
def execRegisterWrite (src : Source) (addr : Nat) (val : Word) (s : State) : Res :=
  onDev (fun d => d.gated src (wholeAddr addr) fun d => softWrite s.fuses d src (wholeAddr addr) val.toNat) s

/-- GLB_ROLE_CFG_WRITE (R40). -/
def execGlbRoleCfgWrite (src : Source) (val : Word) (s : State) : Res :=
  onDev (fun d => d.gated src 0x0104 fun d => d.writeRoleCfg src val.toNat) s

/-- GLB_DEVICE_NUMBER_WRITE (R38, R41): the number in force changes at the next boundary. -/
def execGlbDeviceNumberWrite (src : Source) (val : Word) (s : State) : Res :=
  onDev (fun d => d.gated src 0x0108 fun d => d.writeLow src 0x0108 val.toNat) s

/-- DOM_CFG_WRITE (R59, R79). -/
def execDomCfgWrite (src : Source) (k : Nat) (val : Word) (s : State) : Res :=
  onUnit 2 k (fun d => d.gated src (0x1030 + 4 * k) fun d => d.writeDomCfg k val.toNat) s

/-- PREFER_SWITCH (R61, R72). -/
def execPreferSwitch (src : Source) (val : Word) (s : State) : Res :=
  onDev (fun d => d.gated src 0x1000 fun d => d.writeTimCtrl val.toNat) s

/-- HOLD_REQ (R62, R72): TIM_CTRL.HOLD_REQ set or cleared, its other fields as they are. -/
def execHoldReq (src : Source) (set : Bool) (s : State) : Res :=
  onDev (fun d => d.gated src 0x1000 fun d => d.setB Reg.TIM_CTRL_HOLD_REQ set) s

/-- FREE_DECLARE (R72): TIM_CTRL.FREE set, its other fields as they are. -/
def execFreeDeclare (src : Source) (s : State) : Res :=
  onDev (fun d => d.gated src 0x1000 fun d => d.setB Reg.TIM_CTRL_FREE true) s

/-- CLEAR_SUSPECT (R64, R83). -/
def execClearSuspect (src : Source) (a b : Bool) (s : State) : Res :=
  onDev (fun d => d.gated src 0x1050 fun d => d.clearSuspect a b) s

/-- TXQ_POP (R68, R90). -/
def execTxqPop (src : Source) (s : State) : Res := onDev (fun d => d.gated src 0x1090 Dev.txqPop) s

/-! ### SPI (R553, R554) -/

/-- Whether an SPI read reaches the register, by the stage the device is in (R554). -/
def Dev.spiReads (d : Dev) (addr : Nat) : Bool :=
  match d.boot with
  | .off | .resetHeld => false
  | .waiting => decide (addr < 0x100) || addr == 0x118
  | .running => true
  | .held => decide (addr < 0x100) || [0x100, 0x118, 0xC02C].contains addr || groupOf addr == 13

/-- One SPI read. -/
def spiRead (ecc : List (Nat × Nat)) (d : Dev) (addr : Nat) : Nat × List (Nat × Nat) × Dev :=
  if d.spiReads (wholeAddr addr) then softRead ecc d addr else (0, ecc, d)

/-- `n` words read from an address on; the words newest first. -/
def spiReadN (addr : Nat) : Nat → List Nat × List (Nat × Nat) × Dev → List Nat × List (Nat × Nat) × Dev
  | 0, x => x
  | n + 1, x =>
    let r := spiRead x.2.1 x.2.2 addr
    spiReadN (addr + 4) n (r.1 :: x.1, r.2)

/-- Bits sent most significant first as a number. -/
def bitsToNat (l : List Bool) : Nat := l.foldl (fun n b => 2 * n + b2n b) 0

/-- The first word of MISO (R553). -/
def Dev.misoHead (d : Dev) : Word :=
  w32 (pack [(24, 8, 0x5A), (23, 1, d.get Reg.GLB_ROLE_STATUS_ROLE_FIXED), (22, 1, b2n d.pins.spiDenied), (21, 1, b2n d.pins.spiShort)])

/-- The two status bits the next frame shows. -/
def Dev.spiStatus (d : Dev) (denied short : Bool) : Dev := { d with pins := { d.pins with spiDenied := denied, spiShort := short } }

/-- A whole write frame (R395, R532, R554). -/
def Dev.spiWrite (f : Fuses) (d : Dev) (addr w : Nat) : Dev :=
  let a := wholeAddr addr
  if d.open? .spi a then
    if d.mayWrite .spi a then (softWrite f d .spi a w).spiStatus false false else (d.deny .spi (groupOf a)).spiStatus true false
  else d.spiStatus false false

/-- SPI_FRAME: the bits of MOSI from nCS falling to nCS rising, and the number of words read. Each transfer ends with a flush of the SPI group
(R392, R399). -/
def spiFrame (f : Fuses) (mosi : List Bool) (words : Nat) (ecc : List (Nat × Nat)) (d : Dev) : List (Nat × Nat) × Dev :=
  if d.boot = .off then (ecc, d)
  else
    let head := d.misoHead
    let cmd := bitsToNat (mosi.take 32)
    let op := cmd / 2 ^ 30
    let addr := cmd % 65536
    let r : List Nat × List (Nat × Nat) × Dev :=
      if mosi.length < 32 then ([], ecc, d.spiStatus false true)
      else if op = 2 then
        let x := spiReadN addr words ([], ecc, d)
        (x.1.reverse, x.2.1, x.2.2.spiStatus false (words == 0))
      else if op = 1 then
        if mosi.length < 64 then ([], ecc, d.spiStatus false true)
        else ([], ecc, d.spiWrite f addr (bitsToNat ((mosi.drop 32).take 32)))
      else ([], ecc, d.spiStatus false false)
    (r.2.1, (r.2.2.flushGroup 49 false).emit (.miso head (wordsOf r.1)))

def execSpiFrame (mosi : List Bool) (words : Nat) (s : State) : Res := onEcc (spiFrame s.fuses mosi words) s

/-! ### BAR0 (R555, R556) -/

/-- Place of an offset in the MSI-X structures: DW of the table (0 to 255) or of the PBA (256, 257). -/
def msixPlace (offset : Nat) : Option Nat :=
  if 0x10000 ≤ offset ∧ offset < 0x10400 then some ((offset - 0x10000) / 4)
  else if 0x11000 ≤ offset ∧ offset < 0x11008 then some (256 + (offset - 0x11000) / 4)
  else none

/-- Whether a request is one the hub serves: one DW with all byte enables in the register space; one or two DW, aligned, in the MSI-X
structures. Reserved offsets take any request. -/
def barOk (r : BarReq) : Bool :=
  if r.offset < 0x10000 then r.dws == 1 && r.allBe
  else match msixPlace r.offset with
    | some _ => r.allBe && (r.dws == 1 || (r.dws == 2 && r.offset % 8 == 0))
    | none => true

/-- One DW of BAR0 read. -/
def barRead (ecc : List (Nat × Nat)) (d : Dev) (offset : Nat) : Nat × List (Nat × Nat) × Dev :=
  if offset < 0x10000 then softRead ecc d offset
  else match msixPlace offset with
    | some k => (d.msixWord k, ecc, d)
    | none => (0, ecc, d)

/-- `n` DWs read; the words newest first. -/
def barReadN (offset : Nat) : Nat → List Nat × List (Nat × Nat) × Dev → List Nat × List (Nat × Nat) × Dev
  | 0, x => x
  | n + 1, x =>
    let r := barRead x.2.1 x.2.2 offset
    barReadN (offset + 4) n (r.1 :: x.1, r.2)

/-- One DW of BAR0 written: a register as the PCIe host, an MSI-X table word; the PBA and reserved offsets take no write. -/
def barWrite (f : Fuses) (offset : Nat) (d : Dev) (w : Nat) : Dev :=
  if offset < 0x10000 then d.gated .pcie (wholeAddr offset) fun d => softWrite f d .pcie (wholeAddr offset) w
  else match msixPlace offset with
    | some k => if k < 256 then d.setMsix k w else d
    | none => d

/-- DWs written from an offset on. -/
def barWriteN (f : Fuses) : Nat → List Nat → Dev → Dev
  | _, [], d => d
  | offset, w :: t, d => barWriteN f (offset + 4) t (barWrite f offset d w)

/-- BAR0_ACCESS (R391, R555, R556): served while the hub runs and its link is up; a request of another form is an Unsupported Request. -/
def bar0Access (f : Fuses) (r : BarReq) (ecc : List (Nat × Nat)) (d : Dev) : List (Nat × Nat) × Dev :=
  if !(d.up && d.role == .hub && d.linkUp) then (ecc, d)
  else if !barOk r then (ecc, d.emit .barUr)
  else match r.data with
    | some ws => (ecc, barWriteN f r.offset (natsOf (ws.take r.dws)) d)
    | none =>
      let x := barReadN r.offset r.dws ([], ecc, d)
      (x.2.1, x.2.2.emit (.barData (wordsOf x.1.reverse)))

def execBar0Access (req : BarReq) (s : State) : Res := onEcc (bar0Access s.fuses req) s

end Sys2Proof.Machine
end

