-- ==== Sys2Proof/Machine/Mgmt.lean ====
section
/-! DEFINITION. Management commands (R36 to R38, R289, R322 to R330, R365 to R367, R523 to R525): who may send them, where they go, when they
execute, and what each of them does. -/
namespace Sys2Proof.Machine

/-- Stored-bit errors and device, which a command's execution changes together. -/
abbrev EccDev := List (Nat × Nat) × Dev

/-! ### Fields of a descriptor (R322) -/

/-- Word `k` of a command. -/
def cmdWd (c : Cmd) (k : Nat) : Nat := nth (natsOf c.w) k
def cmdOp (c : Cmd) : Nat := bits (cmdWd c 0) 0 8
def cmdScope (c : Cmd) : Nat := bits (cmdWd c 0) 8 2
def cmdSync (c : Cmd) : Bool := bitOf (cmdWd c 0) 10
def cmdHg (c : Cmd) : Bool := bitOf (cmdWd c 0) 11
def cmdDest (c : Cmd) : Nat := bits (cmdWd c 0) 16 16
def cmdPath (c : Cmd) (level : Nat) : Nat := if level = 0 then bits (cmdWd c 3) 0 6 else bits (cmdWd c 3) 6 6
def cmdPathLen (c : Cmd) : Nat := bits (cmdWd c 3) 12 2

/-- Address of the `k`-th word of a READ or WRITE. -/
def cmdAddr (c : Cmd) (k : Nat) : Nat := wholeAddr (bits (cmdWd c 4) 0 16 + 4 * k)

/-- Words of a READ. -/
def cmdCount (c : Cmd) : Nat := bits (cmdWd c 4) 16 3

/-- "Bad command" of R323; PATH_LEN counts where the command is addressed by port path, which from a downstream port it is not (R365). -/
def cmdBad (c : Cmd) : Bool :=
  (match (cmdOp c) with
    | 0x01 => !(decide (1 ≤ (cmdCount c) ∧ (cmdCount c) ≤ 4))
    | 0x02 | 0x05 | 0x10 | 0x11 | 0x12 => false
    | 0x03 => !(cmdHg c)
    | 0x04 => (cmdHg c)
    | _ => true) || (c.src != .downLane && (cmdScope c) == 3 && (cmdPathLen c) == 3)

/-- Whether the profile lets the source have the command (R365, R532), with the group of the first denial. A downstream lane may READ, ECHO and
ATTEST; the other sources may read everything. -/
def Dev.denial (d : Dev) (c : Cmd) : Option Nat :=
  let gate (g : Nat) (ok : Bool) : Option Nat := if ok then none else some g
  match (cmdOp c) with
  | 0x01 => ((List.range (cmdCount c)).map fun k => cmdAddr c k).findSome? fun a => gate (groupOf a) (d.mayRead c.src a)
  | 0x02 => gate (groupOf (cmdAddr c 0)) (d.mayWrite c.src (cmdAddr c 0))
  | 0x03 | 0x04 => gate 15 (d.mayWriteGroup c.src 15)
  | 0x05 | 0x11 => none
  | 0x10 => gate 10 (d.mayWriteGroup c.src 10)
  | 0x12 => gate 1 (d.mayWriteGroup c.src 1)
  | _ => gate 15 (c.src != .downLane)

/-- A denied command: status 0x0A, counted (R532, R540). -/
def Dev.refuseDenied (d : Dev) (c : Cmd) (g : Nat) : Dev := (d.notPermitted c).deny c.src g

/-! ### Identity (R326) -/

/-- Identity of a command kept: those of the last 64. -/
def Dev.keepId (d : Dev) (c : Cmd) : Dev :=
  if d.mg.seen.contains (c.origin, c.seq) then d else { d with mg := { d.mg with seen := ((c.origin, c.seq) :: d.mg.seen).take 64 } }

/-- A command answered "busy" leaves no identity. -/
def Dev.forgetId (d : Dev) (c : Cmd) : Dev := { d with mg := { d.mg with seen := d.mg.seen.filter (· != (c.origin, c.seq)) } }

/-- A command executed and answered "busy" by its own rule (R500, R525): the answer goes the way of its reply. -/
def Dev.tooBusy (d : Dev) (c : Cmd) (retry : Nat) : Dev :=
  let d := (d.reply c 9 [(d.fi + retry) % 2 ^ 32, 63]).forgetId c
  match c.src with
  | .upLane | .downLane => d.countLane Reg.LN_MG_STATS_BUSY c.port
  | _ => d

/-! ### Effects (R323) -/

/-- Status of an execution that comes `late` frames after its target, with its data: W5 carries the lateness (R328). -/
def Dev.done (d : Dev) (c : Cmd) (late : Nat) (data : List Nat) : Dev :=
  if late = 0 then d.reply c 0 data else d.reply c 1 [nth data 0, late, nth data 2, nth data 3]

/-- READ: `n` words from the `k`-th on; the words newest first. -/
def readWords (c : Cmd) (k : Nat) : Nat → List Nat × EccDev → List Nat × EccDev
  | 0, x => x
  | n + 1, x =>
    let r := softRead x.2.1 x.2.2 (cmdAddr c k)
    readWords c (k + 1) n (r.1 :: x.1, r.2)

def cmdRead (c : Cmd) (late : Nat) (x : EccDev) : EccDev :=
  let r := readWords c 0 (cmdCount c) ([], x)
  (r.2.1, r.2.2.done c late r.1.reverse)

/-- Bits of a word whose write is an act of its own and not a value held (R14). -/
def actBits (addr : Nat) : Nat :=
  ((fieldsAt addr).map fun f => match f.acc with
    | .w1c | .w1s | .wo => fieldAt f.lo f.width (2 ^ f.width - 1)
    | _ => 0).sum

/-- The word a WRITE writes (R323): bits outside the mask keep their value, and an act is done only under the mask. -/
def maskedWord (addr old val mask : Nat) : Nat :=
  let keep := 2 ^ 32 - 1 - mask % 2 ^ 32
  (old &&& keep &&& (2 ^ 32 - 1 - actBits addr)) ||| (val % 2 ^ 32 &&& mask)

/-- WRITE. `now` puts what it writes into force where the boundary executes it, so that the reply reports the value written (R25). -/
def cmdWrite (f : Fuses) (now : Dev → Dev) (c : Cmd) (late : Nat) (x : EccDev) : EccDev :=
  let a := cmdAddr c 0
  let d := now (softWrite f x.2 c.src a (maskedWord a (x.2.regWord a) (cmdWd c 5) (cmdWd c 6)))
  (x.1, d.done c late [d.seenWord a])

/-- The channels, unit and sample a TRIGGER names (R168). -/
def cmdFire (c : Cmd) : Nat × Bool × Nat := (cmdWd c 4 + 2 ^ 32 * bits (cmdWd c 5) 0 16, bitOf (cmdWd c 5) 16, bits (cmdWd c 5) 17 12)

/-- RELEASE (R500). -/
def Dev.cmdRelease (d : Dev) (c : Cmd) (late : Nat) : Dev :=
  match d.releaseCheck (cmdWd c 4), d.pw.trip with
  | 0, some t => let r := d.releaseOk c.src t; r.2.done c late [r.2.tjWord, r.1]
  | 1, _ => d.tooBusy c 1000
  | _, _ => d.reply c 0x0B []

/-- ATTEST (R525): one at a time. -/
def Dev.cmdAttest (d : Dev) (c : Cmd) : Dev :=
  match d.mg.attest with
  | some _ => (d.tooBusy c 64).addWrap Reg.HM_ATTEST_STATS_BUSY 1
  | none => let fn := d.fn; { d with mg := { d.mg with attest := some (c, fn) } }

/-- The 51 bytes an ATTEST signs (R525). -/
def Dev.attestBytes (d : Dev) (c : Cmd) : List Nat :=
  let n := if d.numbered then d.devnum else 0
  bytesOf [cmdWd c 4, cmdWd c 5, cmdWd c 6, cmdWd c 7] ++ [n % 256, n / 256, b2n d.numbered]
    ++ sha256 (bytesOf ((rangeFrom 128 131).map d.custWord))

/-- The first four words of the HMAC under the device key. -/
def Dev.attestWords (d : Dev) (c : Cmd) : List Nat :=
  (wordsOfBytes (hmacSha256 (bytesOf ((rangeFrom 131 139).map d.custWord)) (d.attestBytes c))).take 4

/-- ASSIGN (R523): the number takes effect at the next boundary. -/
def Dev.cmdAssign (d : Dev) (c : Cmd) (late : Nat) : Dev :=
  if cmdWd c 5 = d.hmWord 0 ∧ cmdWd c 6 = d.hmWord 1 then
    let n := bits (cmdWd c 4) 0 16
    (d.writeLow c.src 0x0108 (n + 65536)).done c late [n]
  else d.reply c 0x0B []

/-- A command's execution, `late` frames after its target (0 for any but a late headgate action). A TRIGGER fires by itself only outside the
boundary, which fires it when the frame's settings stand. -/
def runCmd (f : Fuses) (now : Dev → Dev) (c : Cmd) (late : Nat) (x : EccDev) : EccDev :=
  match (cmdOp c) with
  | 0x01 => cmdRead c late x
  | 0x02 => cmdWrite f now c late x
  | 0x03 => (x.1, x.2.done c late [])
  | 0x04 => (x.1, x.2.enqueue (.cmd c))
  | 0x05 => (x.1, x.2.done c late [cmdWd c 4, cmdWd c 5, cmdWd c 6, cmdWd c 7])
  | 0x10 => (x.1, x.2.cmdRelease c late)
  | 0x11 => (x.1, x.2.cmdAttest c)
  | 0x12 => (x.1, x.2.cmdAssign c late)
  | _ => (x.1, x.2.reply c 0x0B [])

/-! ### The command rows -/

/-- Whether the device can have a command from this source: the host commands a hub, lanes the other way round (R365, R532). -/
def Dev.hasSource (d : Dev) (c : Cmd) : Bool :=
  match c.src with
  | .pcie => d.role == .hub
  | .upLane => d.role == .frontEnd || d.role == .cell
  | .downLane => d.role == .cell || d.role == .hub
  | .spi => false

/-- A command executed on its own: denied, bad, or its effect. -/
def cmdRow (c : Cmd) (f : EccDev → EccDev) (ecc : List (Nat × Nat)) (d : Dev) : EccDev :=
  if !(d.up && d.hasSource c) then (ecc, d)
  else match d.denial c with
    | some g => (ecc, d.refuseDenied c g)
    | none => if (cmdBad c) then (ecc, d.reply c 0x0B []) else f (ecc, d)

/-- The command with its row's opcode. -/
def cmdWithOp (c : Cmd) (op : Nat) : Cmd :=
  { c with w := c.w.set 0 (w32 (cmdWd c 0 / 256 * 256 + op)) }

/-- READ (R323). -/
def execRead (c : Cmd) (s : State) : Res := onEcc (cmdRow (cmdWithOp c 1) (cmdRead (cmdWithOp c 1) 0)) s

/-- WRITE (R323). -/
def execWrite (c : Cmd) (s : State) : Res := onEcc (cmdRow (cmdWithOp c 2) (cmdWrite s.fuses id (cmdWithOp c 2) 0)) s

/-- TRIGGER (R168, R323). -/
def execTrigger (c : Cmd) (s : State) : Res :=
  onEcc (cmdRow (cmdWithOp c 3) fun x => let t := (cmdFire c); (x.1, (x.2.fireHeadgate t.1 t.2.1 t.2.2).done (cmdWithOp c 3) 0 [])) s

/-- CANCEL (R70, R323): at step 5 of the next boundary. -/
def execCancel (c : Cmd) (s : State) : Res := onEcc (cmdRow (cmdWithOp c 4) fun x => (x.1, x.2.enqueue (.cmd (cmdWithOp c 4)))) s

/-- ECHO (R323). -/
def execEcho (c : Cmd) (s : State) : Res :=
  onEcc (cmdRow (cmdWithOp c 5) fun x => (x.1, x.2.done (cmdWithOp c 5) 0 [cmdWd c 4, cmdWd c 5, cmdWd c 6, cmdWd c 7])) s

/-- RELEASE (R500). -/
def execRelease (c : Cmd) (s : State) : Res := onEcc (cmdRow (cmdWithOp c 0x10) fun x => (x.1, x.2.cmdRelease (cmdWithOp c 0x10) 0)) s

/-- ATTEST (R525). -/
def execAttest (c : Cmd) (s : State) : Res := onEcc (cmdRow (cmdWithOp c 0x11) fun x => (x.1, x.2.cmdAttest (cmdWithOp c 0x11))) s

/-- ATTEST_DONE (R525): the reply to the ATTEST in computation. -/
def Dev.attestDone (d : Dev) : Dev :=
  match d.mg.attest with
  | some (c, _) =>
    if d.up then
      (({ d with mg := { d.mg with attest := none } }).reply c 0 (d.attestWords c)).addWrap Reg.HM_ATTEST_STATS_ANSWERED 1
    else d
  | none => d

def execAttestDone (s : State) : Res := onDev Dev.attestDone s

/-- ASSIGN (R523). -/
def execAssign (c : Cmd) (s : State) : Res := onEcc (cmdRow (cmdWithOp c 0x12) fun x => (x.1, x.2.cmdAssign (cmdWithOp c 0x12) 0)) s

/-- HEADGATE_ACTION (R69): the arrival of an action. -/
def execHeadgateAction (c : Cmd) (s : State) : Res :=
  let c := { c with w := c.w.set 0 (w32 (setBit (cmdWd c 0) 11)) }
  onEcc (cmdRow c fun x => (x.1, x.2.headgateArrive c)) s

/-! ### Arrival (R324, R366) -/

/-- EXEC_LIMIT in use (R381). -/
def Dev.execLimit (d : Dev) : Nat := max 1 (d.get Reg.LN_MG_CFG_EXEC_LIMIT)

/-- REQ_LIMIT in use (R381). -/
def Dev.reqLimit (d : Dev) : Nat := clampN 1 4 (d.get Reg.LN_MG_CFG_REQ_LIMIT)

/-- An accepted command executes at its time: at its target, at the next boundary, or now. -/
def takeLocal (f : Fuses) (c : Cmd) (x : EccDev) : EccDev :=
  if (cmdBad c) then (x.1, x.2.reply c 0x0B [])
  else if (cmdHg c) then (x.1, x.2.headgateArrive c)
  else if (cmdSync c) then (x.1, x.2.enqueue (.cmd c))
  else runCmd f id c 0 x

/-- A busy reply to a command that came by lane `l` (R366). -/
def Dev.busyLane (d : Dev) (c : Cmd) (full : Nat) : Dev := d.busyAt c (8 + c.port % 8) full

/-- The lanes in rotation, from the port after the last one served (R366). -/
def Dev.rotation (d : Dev) : List Nat := (List.range 48).map fun i => (d.mg.rotPort + 1 + i) % 48

/-- Whether a command waits on lane `l`. -/
def Dev.cmdWaits (d : Dev) (l : Nat) : Bool := (d.lane l).msgIn.any fun m => m.kind == 1

/-- Ports with a command that waits which the rotation serves before port `l`. -/
def Dev.portsAhead (d : Dev) (l : Nat) : Nat := ((d.rotation.takeWhile (· != l)).filter d.cmdWaits).length

/-- A command from a lane executed by this device, unless EXEC_LIMIT is reached or what is left of it belongs to ports that come first (R366). It
answers whether it was. -/
def execHere (f : Fuses) (c : Cmd) (x : EccDev) : Bool × EccDev :=
  let d := x.2
  if d.execLimit ≤ d.mg.execN + d.portsAhead c.port then (false, x.1, d.busyLane c 63)
  else (true, takeLocal f c (x.1, { d with mg := { d.mg with execN := d.mg.execN + 1, rotPort := c.port } }.keepId c))

/-- Downstream data ports (R275, R289). -/
def Dev.dataPorts (d : Dev) : List Nat := (List.range d.role.downLanes).filter fun p => d.inData p && d.effB (Reg.MRG_PORT_DEV_VALID p)

/-- A message queued on the ports of `ps` that have room; the ports that have none, and the device. -/
def Dev.fwdOn (d : Dev) (m : Msg) (ps : List Nat) : List Nat × Dev :=
  ps.foldl (fun acc p =>
    if (acc.2.lane p).fwdQ.length < 32 then (acc.1, acc.2.updLane p fun x => { x with fwdQ := x.fwdQ ++ [m] })
    else (acc.1 ++ [p], acc.2)) ([], d)

/-- A message forwarded under R289, one busy reply for each full port (R366). It answers whether it is queued anywhere, or on no port for want of
ports. -/
def Dev.forward (d : Dev) (c : Cmd) (m : Msg) (ps : List Nat) (busy : Dev → Nat → Dev) : Bool × Dev :=
  let r := d.fwdOn m ps
  let any := decide (r.1.length < ps.length)
  let d := if any && (cmdScope c) != 3 then r.2.addWrap Reg.MRG_MGMT_STATS_FORWARDED 1 else r.2
  (any || ps.isEmpty, r.1.foldl busy d)

/-- Whether a downstream port takes path-addressed messages (R524). -/
def Dev.pathPort (d : Dev) (p : Nat) : Bool := decide (p < d.role.downLanes) && [2, 3, 4].contains (d.lstate p)

/-- Whether other devices are out of reach: in cold hold (R498). -/
def Dev.alone (d : Dev) : Bool := d.get Reg.PWR_THERM_STATUS_STATE == 4

/-- An answer "unreachable" that keeps the identity. -/
def Dev.noWay (d : Dev) (c : Cmd) (m : Msg) : Dev := (d.unreachable m).keepId c

/-- A command for one other device, by the ports `ps` that lead to it. -/
def Dev.passOn (d : Dev) (c : Cmd) (m : Msg) (ps : List Nat) : Dev :=
  if d.alone || ps.isEmpty then d.noWay c m
  else
    let r := d.forward c m ps (fun d p => d.busyLane c p)
    if r.1 then r.2.keepId c else r.2

/-- A command executed here and sent down every downstream data port: below it everything executes it (R38). -/
def execAndSpread (f : Fuses) (c : Cmd) (m : Msg) (x : EccDev) : EccDev :=
  let r := execHere f c x
  if !r.1 then r.2
  else
    let ps := if r.2.2.alone then [] else r.2.2.dataPorts
    let q := r.2.2.forward c m ps (fun d p => d.busyLane c p)
    (r.2.1, if q.1 && !ps.isEmpty then q.2.keepId c else q.2)

/-- Executed here alone. -/
def execAlone (f : Fuses) (c : Cmd) (x : EccDev) : EccDev := (execHere f c x).2

/-- A command of scope "named device and all downstream" for another device that has passed its named device: that device is the partner on
the port of arrival, or the hub that issued it. -/
def Dev.below (d : Dev) (c : Cmd) : Bool :=
  let x := d.lane c.port
  (x.partnerNum && x.partnerDev == (cmdDest c)) || c.origin == (cmdDest c)

/-- A command addressed by port path (R524). -/
def pathCmd (f : Fuses) (c : Cmd) (m : Msg) (x : EccDev) : EccDev :=
  let d := x.2
  match d.role, (cmdPathLen c) with
  | .cell, 1 | .frontEnd, 2 => execAlone f c x
  | .cell, 2 => (x.1, d.passOn c m (if d.pathPort (cmdPath c 1) then [cmdPath c 1] else []))
  | _, 3 => (x.1, (d.reply c 0x0B []).keepId c)
  | _, _ => (x.1, (d.reply c 7 []).keepId c)

/-- A permitted command from an upstream port, by its scope (R37, R38, R289). -/
def addressed (f : Fuses) (c : Cmd) (m : Msg) (x : EccDev) : EccDev :=
  let d := x.2
  let own := d.numbered && d.devnum == (cmdDest c)
  match (cmdScope c) with
  | 3 => pathCmd f c m x
  | 2 => execAndSpread f c m x
  | 1 => if own || d.below c then execAndSpread f c m x
         else if d.role == .frontEnd then (x.1, (d.reply c 7 []).keepId c)
         else (x.1, d.passOn c m (d.route (cmdDest c)).toList)
  | _ => if own then execAlone f c x
         else if d.role == .frontEnd then (x.1, (d.reply c 7 []).keepId c)
         else (x.1, d.passOn c m (d.route (cmdDest c)).toList)

/-- A command message of lane `l` (R36, R365, R366, R326). -/
def commandIn (f : Fuses) (l : Nat) (m : Msg) (x : EccDev) : EccDev :=
  let d := x.2
  let down := decide (l < d.role.downLanes)
  let c := { m.cmd (if down then .downLane else .upLane) with port := l }
  if !down && !d.numbered && (cmdScope c) != 3 then (x.1, d.addSat (Reg.LN_MG_STATS_DISCARDED l) 1)
  else if d.reqLimit ≤ m.idx then (x.1, d.busyLane c 63)
  else if d.mg.seen.contains (c.origin, c.seq) then x
  else match d.denial c with
    | some g => (x.1, (d.refuseDenied c g).keepId c)
    | none => if down then execAlone f c x else addressed f c m x

/-- The first message of lane `l` that meets `p`, and the others. -/
def Dev.takeIn (d : Dev) (l : Nat) (p : Msg → Bool) : Option (Msg × Dev) :=
  match (d.lane l).msgIn.find? p with
  | some m => some (m, d.updLane l fun x => { x with msgIn := x.msgIn.eraseP p })
  | none => none

/-- COMMAND_RECEIVED (R365): the oldest command message taken on lane `l`. -/
def commandReceived (f : Fuses) (l : Nat) (ecc : List (Nat × Nat)) (d : Dev) : EccDev :=
  match d.takeIn l fun m => m.kind == 1 with
  | some r => if d.up then commandIn f l r.1 (ecc, r.2) else (ecc, d)
  | none => (ecc, d)

def execCommandReceived (l : Nat) (s : State) : Res :=
  if l < 48 then onEcc (commandReceived s.fuses l) s else .fault .noSuchUnit

/-! ### Replies and events from below (R290, R330, R367) -/

/-- A reply that reaches its hub: to the ring of its command, unless its command has timed out. -/
def Dev.replyHome (d : Dev) (m : Msg) : Dev :=
  if d.hr.dead.contains m.seq then d.addWrap Reg.HR_DROP_STATS_EVT_DROPPED 1
  else
    let d := { d with hr := { d.hr with outst := d.hr.outst.filter fun o => o.seq != m.seq } }
    d.toEventRing (d.ring m.ring).replyRing (natsOf m.body)

/-- REPLY_EVENT_RECEIVED (R365, R367): the oldest reply or event taken on lane `l`. -/
def Dev.replyEvent (d : Dev) (l : Nat) : Dev :=
  match d.takeIn l fun m => m.kind == 2 || m.kind == 3 with
  | none => d
  | some r =>
    if !d.up then d
    else if d.role.downLanes ≤ l then r.2.addSat (Reg.LN_MG_STATS_DISCARDED l) 1
    else if d.role == .hub then
      if r.1.kind = 2 then r.2.replyHome r.1 else r.2.toEventRing (r.2.get Reg.HR_EVT_CFG_EVENT_RING) (natsOf r.1.body)
    else if (r.2.lane l).upQ.length < r.2.upQueue then r.2.updLane l fun x => { x with upQ := x.upQ ++ [r.1] }
    else r.2.addSat (Reg.LN_MG_STATS_DROPPED l) 1

def execReplyEventReceived (l : Nat) (s : State) : Res := onUnit 48 l (fun d => d.replyEvent l) s

/-! ### Commands of the host (R325, R330) -/

/-- The frame in which an outstanding command times out (R330). -/
def Dev.timeoutAt (d : Dev) (c : Cmd) : Nat :=
  max d.fn (if (cmdHg c) then d.fnOfFi (cmdTarget c) else 0) + max 1 (d.get Reg.HR_EVT_CFG_REPLY_TIMEOUT)

/-- The host's busy reply for a full port. -/
def Dev.busyHost (d : Dev) (c : Cmd) (p : Nat) : Dev := d.busyAt c (8 + p % 8) p

/-- A command of the hub's host for other devices, on the ports that lead there: `timed` where one device must answer, `routed` where it goes by a
route or path and is unreachable without one (R289, R524). -/
def Dev.hubSend (d : Dev) (c : Cmd) (ps : List Nat) (timed routed : Bool) : Dev :=
  let m : Msg := { kind := 1, origin := c.origin, ring := c.ring, seq := c.seq, body := c.w, port := 63, idx := 0 }
  if d.alone || (routed && ps.isEmpty) then d.unreachable m
  else if timed && decide (1024 ≤ d.hr.outst.length) then d.busyAt c 8 63
  else
    let r := d.forward c m ps (fun d p => d.busyHost c p)
    let d := { r.2 with mg := { r.2.mg with msgSeq := (r.2.mg.msgSeq + 1) % 2 ^ 32 } }
    if timed && r.1 then { d with hr := { d.hr with outst := d.hr.outst ++ [{ seq := c.seq, due := d.timeoutAt c, cmd := c }] } } else d

/-- A command of the hub's own: denied under the profile, or taken. -/
def hubOwn (f : Fuses) (c : Cmd) (x : EccDev) : EccDev :=
  match x.2.denial c with
  | some g => (x.1, x.2.refuseDenied c g)
  | none => takeLocal f c x

/-- A descriptor fetched from command ring `r` (R36, R37, R289, R325, R524). -/
def hubCommand (f : Fuses) (r : Nat) (w : List Word) (x : EccDev) : EccDev :=
  let d := x.2
  let c : Cmd := { src := .pcie, port := 63, origin := d.devnum, ring := r, seq := d.mg.msgSeq, w := w }
  let own := d.numbered && d.devnum == (cmdDest c)
  match (cmdScope c) with
  | 3 =>
    if (cmdPathLen c) = 3 then (x.1, d.reply c 0x0B [])
    else if (cmdPathLen c) = 0 then hubOwn f c x
    else (x.1, d.hubSend c (if d.pathPort (cmdPath c 0) then [cmdPath c 0] else []) true true)
  | 2 => if d.numbered then (x.1, d.hubSend c d.dataPorts false false) else x
  | 1 =>
    if !d.numbered then x
    else if own then let y := hubOwn f c x; if y.2.alone then y else (y.1, y.2.hubSend c y.2.dataPorts false false)
    else (x.1, d.hubSend c (d.route (cmdDest c)).toList false true)
  | _ =>
    if !d.numbered then x
    else if own then hubOwn f c x
    else (x.1, d.hubSend c (d.route (cmdDest c)).toList true true)

/-- A descriptor arrives: HEAD advances past it, and it is carried out. -/
def fetched (f : Fuses) (r : Nat) (w : List Word) (x : EccDev) : EccDev :=
  let g := x.2.ring r
  if g.typ = 2 ∧ (g.st = 1 ∨ g.st = 2) ∧ g.head ≠ g.fetched then
    hubCommand f r w (x.1, x.2.advanceHead r ((g.head + 1) % 2 ^ 32))
  else x

/-- READ_COMPLETION (R310, R311, R325): bitmap, index line or descriptor. -/
def readCompletion (f : Fuses) (q : Completion) (ecc : List (Nat × Nat)) (d : Dev) : EccDev :=
  if !d.ringsRun then (ecc, d)
  else match q with
    | .bitmap bytes => (ecc, d.bitmapRead bytes)
    | .indexLine byte words => (ecc, d.lineRead byte words)
    | .descriptor r w => if r < 4096 then fetched f r w (ecc, d) else (ecc, d)

def execReadCompletion (c : Completion) (s : State) : Res := onEcc (readCompletion s.fuses c) s

end Sys2Proof.Machine
end

