-- ==== Sys2Proof/Machine/Boundary.lean ====
section
/-! DEFINITION. The frame boundary (R25): the close of the frame that ends, the clock, and the work of steps 1 to 6 of the boundary in its order.
The power changes that writes of step 5 ask for start with those of step 3 at the same boundary (R25), so step 3 stands after step 5 here, and
what a command of steps 4 and 5 may read of it is worked out before them (`shown`, log entry 40). -/
namespace Sys2Proof.Machine

/-! ### A write in force (R25, step 5) -/

/-- Whether a value in force changed between two states. -/
def changed (a b : Dev) (f : Fld) : Bool := a.eff f != b.eff f

/-- A device number as it takes effect (R38): RENUM for 64 frames while both numbers are valid. -/
def Dev.renumEffect (d old : Dev) : Dev :=
  if old.numbered && d.numbered && old.devnum != d.devnum then
    let fn := d.fn
    { d with mg := { d.mg with renumUntil := fn + 64 } }
  else d

/-- A direction that EDGE newly selects starts disarmed (R111). -/
def Dev.armEffect (d old : Dev) (n : Nat) : Dev :=
  let e0 := old.eff (Reg.CH_DISC_EDGE n)
  let e1 := d.eff (Reg.CH_DISC_EDGE n)
  if e0 = e1 then d
  else d.updChan n fun c => { c with armR := c.armR && bitOf e0 0, armF := c.armF && bitOf e0 1 }

/-- CH_CTRL, CH_OFFSET_DAC, CH_DISC and CH_BOARD_DELAY of channel `n` as they take effect (R92, R93, R111, R135, R483). -/
def Dev.channelEffect (d old : Dev) (n : Nat) : Dev :=
  let d := (d.enableEffect n (old.chEn n)).armEffect old n
  d.analogEffect n (changed old d (Reg.CH_CTRL_COUPLING n)) (changed old d (Reg.CH_OFFSET_DAC_CODE n))
    (changed old d (Reg.CH_BOARD_DELAY_BOARD n))

/-- TRG_MASK_CFG of quad `q` as it takes effect (R178): a change of ENABLE, ANCHOR or STEP_LOG2 anchors continuous mode at sample 0 of the frame
that opens (log entry 41). -/
def Dev.maskEffect (d old : Dev) (q : Nat) : Dev :=
  if changed old d (Reg.TRG_MASK_CFG_ENABLE q) || changed old d (Reg.TRG_MASK_CFG_ANCHOR q) || changed old d (Reg.TRG_MASK_CFG_STEP_LOG2 q) then
    { d with acq := { d.acq with anchor := putT q d.acq.base d.acq.anchor } }
  else d

/-- MRG_PORT_DEV of port `p` as it takes effect (R275): the value before counts for 64 frames more. -/
def Dev.portEffect (d old : Dev) (p : Nat) : Dev :=
  if old.effB (Reg.MRG_PORT_DEV_VALID p) then
    let fn := d.fn
    { d with mrg := { d.mrg with portPrev := putT p (old.eff (Reg.MRG_PORT_DEV_DEVNUM p), fn + 64) d.mrg.portPrev } }
  else d

/-- LN_CTRL of lane `l` as it takes effect (R369, R536). -/
def Dev.laneEffect (d : Dev) (l w : Nat) : Dev :=
  let d := if d.effB (Reg.LN_CTRL_ATTESTED l) then d.setB Reg.GLB_BRINGUP_STATUS_ANY_ATTESTED true else d
  if bitOf w 10 then d.softAssay l else d

/-- A register word in force: its frame-synchronous fields, and what their change brings about at once. -/
def Dev.applyReg (d : Dev) (addr w : Nat) : Dev :=
  let old := d
  let d := d.forceFields (fieldsAt addr) w
  if addr = 0x0108 then d.renumEffect old
  else if addr = 0x2C24 then d.lendRestart
  else if addr = 0xA010 then d.memEffect (old.eff Reg.PWR_MEM_CTRL_MD_EN)
  else if 0x2000 ≤ addr ∧ addr < 0x2C00 then d.channelEffect old ((addr - 0x2000) / 64)
  else if 0x3640 ≤ addr ∧ addr < 0x3670 then d.maskEffect old ((addr - 0x3640) / 4)
  else if 0x5000 ≤ addr ∧ addr < 0x6800 ∧ addr % 0x80 = 0 then d.laneEffect ((addr - 0x5000) / 0x80) w
  else if 0x8100 ≤ addr ∧ addr < 0x81A0 then d.portEffect old ((addr - 0x8100) / 4)
  else d

/-- A queued write as it takes effect (R25, R296). -/
def Dev.applyQueued (d : Dev) : Queued → Dev
  | .reg _ addr v => d.applyReg addr v.toNat
  | .route e v => d.applyRoute e v
  | .cmd _ => d

/-- What a command executed at the boundary has written takes effect with it. -/
def Dev.settle (d : Dev) : Dev := d.queue.foldl Dev.applyQueued { d with queue := [] }

/-- One queued write or command as it takes effect (R25, R70). -/
def applyOne (f : Fuses) (x : EccDev) (q : Queued) : EccDev :=
  match q with
  | .cmd c =>
    if cmdOp c = 4 then (x.1, x.2.cancelTag c)
    else let y := runCmd f Dev.settle c 0 x; (y.1, y.2.settle)
  | w => (x.1, x.2.applyQueued w)

/-- Step 5 of R25: writes and commands in the order received. -/
def stepFive (f : Fuses) (x : EccDev) : EccDev :=
  x.2.queue.foldl (applyOne f) (x.1, { x.2 with queue := [] })

/-! ### Headgate actions (R69 to R71, R25 step 4) -/

/-- What becomes of a held action at the boundary: held on, executed so many frames late, or refused. -/
def Dev.actionDue (d : Dev) (fi : Nat) (c : Cmd) : Option (Option Nat) :=
  let df := fiDiff (cmdTarget c) fi
  if 0 < df then none
  else if -df ≤ (d.get Reg.TIM_HG_CTRL_GRACE : Int) then some (some (-df).toNat) else some none

/-- A held action taken out of the queue. -/
def Dev.dropAction (d : Dev) (c : Cmd) : Dev := d.setHeldActions (d.tm.held.erase c)

/-- One held action at the boundary that opens the present frame: it executes, and what it writes takes effect now, or it is refused, or it
stays. Those after it in the order received are still held meanwhile (R88). -/
def runAction (f : Fuses) (x : EccDev) (c : Cmd) : EccDev :=
  match x.2.actionDue x.2.fi c with
  | none => x
  | some none => (x.1, (x.2.dropAction c).refuseAction c 2)
  | some (some late) =>
    let d := x.2.dropAction c
    let y := runCmd f Dev.settle c late (x.1, if late = 0 then d else d.addWrap Reg.TIM_HG_STATS_LATE_EXEC 1)
    (y.1, y.2.settle)

/-- Step 4 of R25: the held actions in the order received. Writes that wait for step 5 stand aside. The boundary that makes the coarse step
compares none (R52, R71). -/
def stepFour (f : Fuses) (x : EccDev) : EccDev :=
  if x.2.tm.stepped then x
  else
    let q := x.2.queue
    let r := x.2.tm.held.foldl (runAction f) (x.1, { x.2 with queue := [] })
    (r.1, { r.2 with queue := q ++ r.2.queue })

/-- The held actions that execute at the boundary that opens frame index `fi`; `step`: that boundary makes the coarse step. -/
def Dev.heldDue (d : Dev) (fi : Nat) (step : Bool) : List Cmd :=
  if step then [] else d.tm.held.filter fun c => match d.actionDue fi c with | some (some _) => true | _ => false

/-- The addresses software writes at the boundary that opens frame index `fi` (R102, R108, R140). -/
def Dev.writtenAt (d : Dev) (fi : Nat) (step : Bool) : List Nat :=
  let ofCmd (c : Cmd) : Option Nat := if cmdOp c = 2 then some (cmdAddr c 0) else none
  d.queue.filterMap (fun q => match q with | .reg _ a _ => some a | .cmd c => ofCmd c | .route _ _ => none)
    ++ (d.heldDue fi step).filterMap ofCmd

/-! ### The clock -/

/-- A frame count carried over a coarse step that moves the count by `k`; 0 stays "never". -/
def moved (k : Int) (n : Nat) : Nat := ((n : Int) + k).toNat

/-- The device's timers, which count frames and not frame numbers, carried over a coarse step that moves the frame count by `k` (log entry 42). -/
def Dev.shiftTimers (d : Dev) (k : Int) : Dev :=
  let m := moved k
  let o (x : Option Nat) : Option Nat := x.map m
  let lane (x : Lane) : Lane :=
    { x with sinceFn := m x.sinceFn, noRaiseUntil := m x.noRaiseUntil, switchFn := m x.switchFn, trainUntil := m x.trainUntil, eyeFn := m x.eyeFn }
  let chan (c : Chan) : Chan :=
    { c with fgDue := o c.fgDue, calFn := o c.calFn, provUntil := m c.provUntil, lastCheck := m c.lastCheck,
             bgL := { c.bgL with slotFn := m c.bgL.slotFn }, bgH := { c.bgH with slotFn := m c.bgH.slotFn },
             lent := c.lent.map fun x => (x.1, m x.2) }
  let ring (g : Ring) : Ring :=
    { g with lastHeadFn := m g.lastHeadFn, entries := g.entries.map fun e => { e with openFn := m e.openFn, closeFn := m e.closeFn } }
  let acq := { d.acq with
    chans := d.acq.chans.map fun p => (p.1, chan p.2), fgDue := o d.acq.fgDue, fgFn := o d.acq.fgFn, rotFn := m d.acq.rotFn
    linRun := d.acq.linRun.map fun p => (p.1, m p.2) }
  let hr := { d.hr with
    rings := d.hr.rings.map fun p => (p.1, ring p.2), vecLast := d.hr.vecLast.map fun p => (p.1, m p.2)
    skipEvt := (d.hr.skipEvt.1, if d.hr.skipEvt.2 = 0 then 0 else m d.hr.skipEvt.2)
    outst := d.hr.outst.map fun x => { x with due := m x.due } }
  let tm := { d.tm with
    watch := d.tm.watch.map fun w => { w with fn := m w.fn }
    pps := { d.tm.pps with lastFn := o d.tm.pps.lastFn, edgeFn := o d.tm.pps.edgeFn, msgs := d.tm.pps.msgs.map fun x => { x with fn := m x.fn } }
    doms := d.tm.doms.map fun p => (p.1, { p.2 with lastFn := o p.2.lastFn }) }
  let flt := { d.flt with ovr := (d.flt.ovr.1, m d.flt.ovr.2), assays := d.flt.assays.map fun a => { a with fn := m a.fn } }
  let mg := { d.mg with renumUntil := m d.mg.renumUntil, attest := d.mg.attest.map fun x => (x.1, m x.2) }
  let mrg := { d.mrg with
    svcFn := d.mrg.svcFn.map fun p => (p.1, m p.2), portPrev := d.mrg.portPrev.map fun p => (p.1, (p.2.1, m p.2.2)) }
  let pw := { d.pw with
    startFn := d.pw.startFn.map fun p => (p.1, m p.2), trip := d.pw.trip.map fun t => { t with fn := m t.fn, holdFn := m t.holdFn } }
  let pins := { d.pins with refLostFn := if d.pins.refPresent then d.pins.refLostFn else o d.pins.refLostFn }
  { d with lanes := d.lanes.map (fun p => (p.1, lane p.2)), acq := acq, hr := hr, tm := tm, flt := flt, mg := mg, mrg := mrg, pw := pw,
           pins := pins, hk := { d.hk with lastLowEvt := o d.hk.lastLowEvt } }

/-- Frames before the stepped frame give no records (R51): what the device still holds of them goes. -/
def Dev.forgetFrames (d : Dev) : Dev :=
  let fn := d.fn
  let chans := d.acq.chans.map fun p => (p.1, { p.2 with caps := [], decided := [], hg := [], pairs := [], hits := [] })
  let slots := d.acq.slots.map fun p => (p.1, { p.2 with jobs := [], cnt := 0 })
  let stat := { d.acq.stat with starts := [], stops := [] }
  let d := { d with acq := { d.acq with chans := chans, slots := slots, fstats := [], stat := stat },
                    rcd := { d.rcd with asm := [], ready := [], lostKeys := [], startFn := d.rcd.startFn.map fun _ => fn },
                    mrg := { d.mrg with bwait := [], bjs := [] } }
  (List.range 48).foldl (fun d n => if d.flag (Reg.CH_TRG_STATUS_CAPTURE_OPEN n) then d.capStatus n else d) d

/-- Step 1 of R25: the next frame of the local clock; a coarse step moves the device's timers and ends the frames before it. -/
def Dev.openFrame (d : Dev) (u : Int) : Dev :=
  let old := d.tm.clk.cyc
  let was := d.fn
  let d := d.advanceClock u
  let d := match d.tm.stepPend with
    | some _ => ((d.shiftTimers ((d.fn : Int) - (was + 1))).afterStep).forgetFrames
    | none => d
  let fs := (d.acq.fstats.map fun s => { s with age := s.age + 1 }).filter fun s => decide (s.age < 144)
  { d with acq := { d.acq with base := d.acq.base + 10 * (old : Int), fstats := fs }, pw := { d.pw with frames := d.pw.frames + 1 } }

/-! ### Service -/

/-- The data-start frame (R520): an enabled uplink in data service and a clock that is not UNTIMED; a hub merges from its first frame with a
downstream port in data service (log entry 43). -/
def Dev.dataStart (d : Dev) : Dev :=
  let fn := d.fn
  match d.role, d.rcd.startFn with
  | .noRole, _ => d
  | _, some s => if d.role != .hub && decide (s < fn) then d.setB Reg.GLB_BRINGUP_STATUS_DATA_STARTED true else d
  | .hub, none =>
    if (List.range 32).any d.inData then { d with rcd := { d.rcd with startFn := some fn } } else d
  | _, none =>
    if d.maskedUplinks.any (fun l => d.effB (Reg.LN_CTRL_ENABLE l) && d.inData l) && d.clkState != 0 then
      ({ d with rcd := { d.rcd with startFn := some fn } }).set Reg.GLB_DATA_START_FI d.fi
    else d

/-- Frames in which a downstream port has been in data service (R277). -/
def Dev.portService (d : Dev) : Dev :=
  let fn := d.fn
  let svc := ((List.range d.role.downLanes).filter d.inData).foldl (fun t p => putT p fn t) d.mrg.svcFn
  { d with mrg := { d.mrg with svcFn := svc } }

/-- Whether the conditions of full service hold (R521). -/
def Dev.serves (d : Dev) : Bool :=
  let up := d.maskedUplinks.all d.inData
  let down := (List.range d.role.downLanes).all fun p => !d.effB (Reg.MRG_PORT_DEV_VALID p) || d.inData p
  let dom := (List.range 2).any fun k => d.flag (Reg.TIM_DOM_CFG_ENABLE k)
  match d.role with
  | .frontEnd => up && d.clkState == 3 && d.flag Reg.CH_CAL_STATUS_FG_DONE && d.flag Reg.TDC_CAL_STATUS_BOOT_DONE
      && d.flag Reg.HK_STATUS_CAL_VALID
  | .cell => up && down && d.clkState == 3
  | .hub => d.linkUp && down && d.clkState == (if dom then 3 else 1)
  | .noRole => false

/-- FULL_SERVICE with its events (R521, R535 to R537). -/
def Dev.fullService (d : Dev) : Dev :=
  let now := d.serves
  if now == d.flag Reg.GLB_BRINGUP_STATUS_FULL_SERVICE then d
  else
    let d := d.setB Reg.GLB_BRINGUP_STATUS_FULL_SERVICE now
    let st := d.readFields (fieldsAt 0x0118)
    if now && !d.pw.fullOnce then
      (({ d with pw := { d.pw with fullOnce := true } }).set Reg.GLB_FULL_SERVICE_FI_FI d.fi).bootEvent 1 [st, d.pw.frames]
    else d.bootEvent 2 [st, b2n (!now)]

/-- Whether an event finds a way up (R430, R535). -/
def Dev.upRoute (d : Dev) : Bool :=
  match d.role with
  | .hub => let g := d.ring (d.get Reg.HR_EVT_CFG_EVENT_RING); g.st == 1 && g.typ == 3
  | .noRole => false
  | _ => match d.upLane with
    | some l => [2, 3, 4].contains (d.lstate l)
    | none => false

/-- The events that wait for the first upward route (R430, R535). -/
def Dev.firstEvents (d : Dev) : Dev :=
  if !((d.hm.disEvt || d.hm.testEvt) && d.upRoute) then d
  else
    let dis := d.hm.disEvt
    let test := d.hm.testEvt
    let d := { d with hm := { d.hm with disEvt := false, testEvt := false } }
    let d := if test then d.raise 9 5 [d.readFields (fieldsAt 0xC02C)] else d
    if dis then d.bootEvent 4 [d.get Reg.HM_STATUS_DISAGREE] else d

/-! ### Work whose time is up (R27)

Each block's commands do its work while the frames last. What is still to be done at the end of the frame R27 names, or of the frame a message or
record arrived in, is done by the boundary (log entry 57). -/

/-- Records that have arrived are taken, port by port. -/
def Dev.recordsDue (d : Dev) : Dev :=
  (List.range d.role.downLanes).foldl (fun d l => Nat.repeat (fun d => d.recordReceived l) (d.lane l).recIn.length d) d

/-- Messages that have arrived are taken: commands in the rotation of R366, then replies and events. `n` bounds the messages. -/
def messagesDue (f : Fuses) : Nat → EccDev → EccDev
  | 0, x => x
  | n + 1, x =>
    match x.2.rotation.find? x.2.cmdWaits with
    | some l => messagesDue f n (commandReceived f l x.1 x.2)
    | none => match (List.range 48).find? fun l => !(x.2.lane l).msgIn.isEmpty with
      | some l => messagesDue f n (x.1, x.2.replyEvent l)
      | none => x

/-- Captures opened in F are closed and assembled by the end of F+6. -/
def Dev.capturesDue (d : Dev) : Dev :=
  (List.range 48).foldl (fun d n =>
    let due := (d.chan n).caps.filter fun k => k.stage != 2 && decide (k.fn + 6 ≤ d.fn)
    Nat.repeat (fun d => (d.captureClose n).assembleHit n false) due.length d) d

/-- Records that have found no engine by the end of the frame after their assembly go raw, those of F leave their engines by the end of F+8. -/
def Dev.compressionDue (d : Dev) : Dev :=
  let d := Nat.repeat (fun d => d.bypassIn (d.fn + 1)) d.rcd.asm.length d
  (List.range 8).foldl (fun d e => match d.rcd.asm.find? fun a => a.engine == some e with
    | some a => if a.fn + 8 ≤ d.fn then d.compressDone e none else d
    | none => d) d

/-- The records of F and its summary are in the record FIFO by the end of F+8. -/
def Dev.fifoDue (d : Dev) : Dev :=
  let d := if d.rcd.ready.any fun a => decide (a.fn + 8 ≤ d.fn) then Nat.repeat Dev.fifoWrite d.rcd.ready.length d else d
  let due := d.acq.fstats.filter fun s => !s.summed && !s.gone && d.recording s.fn && decide (s.fn + 8 ≤ d.fn)
  Nat.repeat Dev.summaryWrite due.length d

/-- Frames at their horizon are judged and merged, groups whose time has come are built, and what still waits for its ring at F+128 is replaced. -/
def Dev.mergeDue (d : Dev) : Dev :=
  if d.role != .cell && d.role != .hub then d
  else
    let due := d.acq.fstats.filter fun s => !s.judged && decide (s.fn + d.horizon ≤ d.fn)
    let d := Nat.repeat Dev.horizonVerdict due.length d
    let d := Nat.repeat Dev.build d.mrg.bjs.length d
    if d.role == .cell then d.cellSummaries else d.egressDeadline

/-- A hub's receive rings at the end of a frame: entries closed before it are written back, the open one closes if it must (R314); then the
messages of the frame leave (R318). -/
def Dev.entriesDue (d : Dev) : Dev :=
  let rs := (d.hr.rings.filter fun p => p.2.typ == 1).map (·.1)
  let d := rs.foldl (fun d r => (Nat.repeat (fun d => d.entryWriteback r) (d.ring r).entries.length d).entryClose r) d
  if d.ringsRun then d.msixEnd else d

/-- An ATTEST is answered within 64 frames of its arrival (R525). -/
def Dev.attestDue (d : Dev) : Dev :=
  match d.mg.attest with
  | some (_, fn) => if fn + 63 ≤ d.fn then d.attestDone else d
  | none => d

/-! ### The parts of a boundary -/

/-- Every lane frame of the frame that ends goes out whole, with the errors its reading finds. -/
def closeLanes (x : EccDev) : EccDev := (List.range 48).foldl (fun x l => closeLf x.1 x.2 l) x

/-- What the frame that ends has brought on the lanes is taken. -/
def arrivalsDue (f : Fuses) (x : EccDev) : EccDev :=
  messagesDue f (x.2.lanes.map fun p => p.2.msgIn.length).sum (x.1, x.2.recordsDue)

/-- Time, samples and statistics of the frame that ends. It answers the correction of the next frame. -/
def Dev.closeSamples (d : Dev) (inp : FrameInput) : Int × Dev :=
  let d := ((List.range 48).foldl Dev.hitsDue d).noMajority inp.noMajority
  let r := d.closeTime (inp.noMajority.contains 3) (inp.noMajority.contains 1)
  let d := r.2
  let ws := d.writtenAt (d.advanceClock r.1).fi d.tm.stepPend.isSome
  (r.1, ((d.closeFrames inp ws).statBoundary).countSlip)

/-- What was stored in the frame that ends stands over any upset before it (R415): the samples and range bits of the channels that ran, the
record FIFO's new words, the log's new entries. -/
def Dev.overwrites (d : Dev) (idx : Nat) : Bool :=
  let cnt : Int := 10 * d.tm.clk.cyc
  let new (n first count : Nat) : Bool := d.chanIsOn n && (List.range count).any fun j => decide (((first + j : Nat) - d.acq.base) % 16384 < cnt)
  let p := d.logical (idx / 1024)
  let a := p * 1024 + idx % 1024
  if idx < 2 ^ 21 then
    if d.role == .frontEnd && decide (p < 384) then new (a / 8192) (2 * (a % 8192)) 2
    else if d.role == .frontEnd && decide (a < 417792) then new ((a - 393216) / 512) (32 * (a % 512)) 32
    else d.role != .hub && decide (1024 ≤ p ∧ p < 1280)
      && decide ((a - 1048576 + fifoWords - d.flt.fifoFrom) % fifoWords < (d.rcd.fifoWr + fifoWords - d.flt.fifoFrom) % fifoWords)
  else decide (2 ^ 22 + 196608 ≤ idx) && decide ((((idx - 2 ^ 22 - 196608) / 4) + 256 - d.flt.logFrom % 256) % 256 < d.flt.logSeq - d.flt.logFrom)

/-- The errors of words overwritten in the frame that ends are gone. -/
def overwritten (x : EccDev) : EccDev :=
  (x.1.filter fun e => !x.2.overwrites e.1,
   { x.2 with flt := { x.2.flt with fifoFrom := x.2.rcd.fifoWr, logFrom := x.2.flt.logSeq } })

/-- The frame that ends closes: lane frames, arrivals, time and samples, and the work whose time is up. It answers the correction of the next
frame. -/
def closeFrame (f : Fuses) (inp : FrameInput) (x : EccDev) : Int × EccDev :=
  let x := overwritten (arrivalsDue f (closeLanes x))
  let r := x.2.closeSamples inp
  (r.1, x.1, r.2.decideDue.capturesDue.compressionDue.fifoDue.mergeDue.attestDue.entriesDue)

/-- The cross-calibration updates at the boundary (R140); without a majority none applies (R408). -/
def Dev.xcalBoundary (d : Dev) (ws : List Nat) (none? : Bool) : Dev :=
  let fn := d.fn
  (List.range 48).foldl (fun d n =>
    if none? && !(d.chan n).pairs.isEmpty then
      d.updChan n fun c => { c with pairs := c.pairs.filter fun p => decide (fn < p.1 + 2) }
    else d.xcalUpdate ws n) d

/-- Steps 1 and 2 of R25, after the refresh of R405 and the measurements of R487. -/
def Dev.stepsOneTwo (d : Dev) (inp : FrameInput) (u : Int) : Dev :=
  let d := d.openFrame u
  let d := inp.voters.foldl (fun d v => d.voterFix v.addr v.bit v.copy v.second) d
  let d := d.powerMeasure inp.vinMv inp.power
  let d := d.clockStates
  ((d.refineBoundary 0).refineBoundary 1).refinedStatus

/-- The settings of the frame stand: masks, power, the frame's own record, calibration, streams, dead time. -/
def Dev.acquisition (d : Dev) (fires : List Cmd) : Dev :=
  let d := d.widenJ.maskBoundary.powerBoundary
  let s := d.newFrame
  let d := { d with acq := { d.acq with fstats := d.acq.fstats ++ [s] } }
  let d := d.rotBoundary.linBoundary.bgBoundary
  let d := d.settleFrame.laneGone.streamBoundary.fillStatus
  let d := (List.range 48).foldl Dev.pruneHits d
  fires.foldl (fun d c => let t := cmdFire c; d.fireHeadgate t.1 t.2.1 t.2.2) d

/-- Step 6 of R25 on the lanes, with link states and data service, after the withdrawal of R226. -/
def Dev.lanesOpen (d : Dev) : Dev :=
  let d := (List.range 48).foldl Dev.laneStep d.withdraw
  let d := (List.range 48).foldl (fun d l => if d.role.usesLane l then d.dataService l else d) d
  let d := d.splitStatus.portService.dataStart
  (List.range 48).foldl Dev.transmit d

/-- Step 6 of R25 in a hub: rings, egress, tally sweep, descriptor fetch. -/
def Dev.hubOpen (d : Dev) : Dev :=
  if d.role != .hub then d
  else
    let d := d.finishRings.ringOpBoundary.freeRings
    let d := (d.hr.rings.map (·.1)).foldl (fun d r => (d.drainHold r).fill r) d
    d.tallySweep.fetchCommands

/-- The power-state words as step 3 of this boundary leaves them, with the power changes that its steps 4 and 5 ask for (R25): PWR_DOM,
PWR_CH and the POWERED bits, for the commands that read them in those steps. -/
def Dev.shownPower (f : Fuses) (ecc : List (Nat × Nat)) (d : Dev) : List (Nat × Nat) :=
  if d.queue.isEmpty && d.tm.held.isEmpty then []
  else
    let p := (stepFive f (stepFour f (ecc, d))).2.powerBoundary
    ([0xA014, 0xA018, 0xA01C, 0xA020, 0xA024, 0xA028] ++ (List.range 48).map fun n => 0x2004 + 64 * n).map fun a => (a, p.regWord a)

/-- FRAME_BOUNDARY (R25). -/
def frameBoundary (f : Fuses) (inp : FrameInput) (ecc : List (Nat × Nat)) (d : Dev) : EccDev :=
  if !d.up then (ecc, d)
  else
    let r := closeFrame f inp (ecc, d)
    let ecc := r.2.1
    let d := r.2.2.stepsOneTwo inp r.1
    let ws := d.writtenAt d.fi d.tm.stepped
    let fires := (d.heldDue d.fi d.tm.stepped).filter fun c => cmdOp c == 3
    let d := d.xcalBoundary ws (inp.noMajority.contains 2)
    let x := stepFive f (stepFour f (ecc, { d with pw := { d.pw with shown := Dev.shownPower f ecc d } }))
    let d := { x.2 with pw := { x.2.pw with shown := [] } }
    let d := (d.acquisition fires).lanesOpen.hubOpen.hkBoundary
    let d := { d with mg := { d.mg with execN := 0 } }
    (x.1, d.fullService.firstEvents)

def execFrameBoundary (inp : FrameInput) (s : State) : Res := onEcc (frameBoundary s.fuses inp) s

end Sys2Proof.Machine
end

