-- ==== Sys2Proof/Machine/Cross.lean ====
section
/-! DEFINITION. Clock-domain crossings (11_clock_domain_crossings.md): hold and flag transfers, flushes, and lane FIFO slips. -/
namespace Sys2Proof.Machine

/-- A value the sender produces (R388): into the hold register, or while that is occupied into the shadow, over an older value. -/
def Hold.send (h : Hold) (v : Word) : Hold :=
  if h.reg.isNone then { h with reg := some v, loaded := false } else { h with shadow := some v }

/-- The sender sees the acknowledge of a loaded value (R388): the shadow, if any, moves into the hold register and goes next. -/
def Hold.ack (h : Hold) : Hold := if h.loaded then { h with reg := h.shadow, loaded := false, shadow := none } else h

/-- The receiver refuses the value (R389): the sender resends the shadow if one waits, else the same. -/
def Hold.refuse (h : Hold) : Hold := { h with reg := h.shadow.orElse fun _ => h.reg, shadow := none }

/-- Whether a value waits to be loaded. -/
def Hold.flagged (h : Hold) : Bool := h.reg.isSome && !h.loaded

/-- The receiver loads the value that waits (R388). -/
def Hold.load (h : Hold) : Hold :=
  match h.reg with
  | some v => { h with loaded := true, got := v }
  | none => h

/-- One of the group's two crossings. -/
def Cross.way (x : Cross) (count : Bool) : Hold := if count then x.cnt else x.val

/-- It changed. -/
def Cross.setWay (x : Cross) (count : Bool) (h : Hold) : Cross := if count then { x with cnt := h } else { x with val := h }

/-- An event the sender counts (R387): the new count is a value to be sent. -/
def Cross.happen (x : Cross) : Cross := { x with count := x.count + 1, cnt := x.cnt.send (x.count + 1) }

/-- A value loaded without error (R387, R388): of the count the receiver takes the difference from the value before. -/
def Cross.load (x : Cross) (count : Bool) : Cross :=
  let h := (x.way count).load
  let n := if count then (h.got - x.cnt.got).toNat else 0
  { x.setWay count h with events := x.events + n }

/-- CROSSING_TRANSFER (R387 to R389): one step of a crossing. A value with an error is refused, counted and asked for again, and the crossing
is assayed. -/
def Dev.crossingTransfer (d : Dev) (g : Nat) (s : CrossStep) : Dev :=
  if !d.up || !d.usesGroup g then d
  else
    let x := d.xing g
    match s with
    | .send v => d.setXing g { x with val := x.val.send v }
    | .happen => d.setXing g x.happen
    | .ack count => d.setXing g (x.setWay count (x.way count).ack)
    | .load count bad =>
      if !(x.way count).flagged then d
      else if bad then
        let d := d.setXing g { x.setWay count (x.way count).refuse with checkErr := min 4095 (x.checkErr + 1) }
        (d.addSat Reg.XC_TOTAL_CHECK_ERR 1).logError 8 10 4 false 0 g 0 0
      else d.setXing g (x.load count)

def execCrossingTransfer (g : Nat) (x : CrossStep) (s : State) : Res := onUnit 51 g (fun d => d.crossingTransfer g x) s

/-- CROSSING_FLUSH (R392, R393): a lane group's flush rejects the lane frame in progress. -/
def Dev.crossingFlush (d : Dev) (g : Nat) (held : Bool) : Dev :=
  if !d.up || !d.usesGroup g then d
  else
    let d := d.flushGroup g held
    if g < 48 ∧ 1 ≤ d.lstate g ∧ d.lstate g ≤ 4 then d.rejectLf g false else d

def execCrossingFlush (g : Nat) (held : Bool) (s : State) : Res := onUnit 51 g (fun d => d.crossingFlush g held) s

/-- LANE_FIFO_SLIP (R390): a fill outside 4 to 12 words flushes the crossing and rejects the lane frame in progress. -/
def Dev.fifoSlip (d : Dev) (l fill : Nat) : Dev :=
  if 4 ≤ fill ∧ fill ≤ 12 then d else d.crossingFlush l false

def execLaneFifoSlip (l fill : Nat) (s : State) : Res := onUnit 48 l (fun d => d.fifoSlip l fill) s

end Sys2Proof.Machine
end

