-- ==== Sys2Proof/Machine/Dispatch.lean ====
section
/-! DEFINITION. What each command does: one arm per constructor of `Instr`, each one direct call of its meaning. -/
namespace Sys2Proof.Machine

def exec (i : Instr) (s : State) : Host.Outcome State Fault Refusal :=
  match i with
  | .vinValid test => Sys2Proof.Machine.execVinValid test s
  | .converterStop blown => Sys2Proof.Machine.execConverterStop blown s
  | .nresetAssert blown => Sys2Proof.Machine.execNresetAssert blown s
  | .nresetRelease test => Sys2Proof.Machine.execNresetRelease test s
  | .roleFixed => Sys2Proof.Machine.execRoleFixed s
  | .refWaitAlert => Sys2Proof.Machine.execRefWaitAlert s
  | .frameBoundary inp => Sys2Proof.Machine.execFrameBoundary inp s
  | .glbRoleCfgWrite src val => Sys2Proof.Machine.execGlbRoleCfgWrite src val s
  | .glbDeviceNumberWrite src val => Sys2Proof.Machine.execGlbDeviceNumberWrite src val s
  | .registerWrite src addr val => Sys2Proof.Machine.execRegisterWrite src addr val s
  | .coarseStep => Sys2Proof.Machine.execCoarseStep s
  | .clockLocked => Sys2Proof.Machine.execClockLocked s
  | .domainQualified d => Sys2Proof.Machine.execDomainQualified d s
  | .domainLost d => Sys2Proof.Machine.execDomainLost d s
  | .asymWatchConfirm => Sys2Proof.Machine.execAsymWatchConfirm s
  | .asymWatchExpiry => Sys2Proof.Machine.execAsymWatchExpiry s
  | .ppsEdge rising cyc j code => Sys2Proof.Machine.execPpsEdge rising cyc j code s
  | .todMessage bytes => Sys2Proof.Machine.execTodMessage bytes s
  | .todGapTimeout => Sys2Proof.Machine.execTodGapTimeout s
  | .txqPop src => Sys2Proof.Machine.execTxqPop src s
  | .timNowCapture cyc => Sys2Proof.Machine.execTimNowCapture cyc s
  | .preferSwitch src val => Sys2Proof.Machine.execPreferSwitch src val s
  | .holdReq src set => Sys2Proof.Machine.execHoldReq src set s
  | .freeDeclare src => Sys2Proof.Machine.execFreeDeclare src s
  | .domCfgWrite src d val => Sys2Proof.Machine.execDomCfgWrite src d val s
  | .clearSuspect src a b => Sys2Proof.Machine.execClearSuspect src a b s
  | .headgateAction c => Sys2Proof.Machine.execHeadgateAction c s
  | .cancel c => Sys2Proof.Machine.execCancel c s
  | .fgCalStart chan => Sys2Proof.Machine.execFgCalStart chan s
  | .fgCalDone results => Sys2Proof.Machine.execFgCalDone results s
  | .recalStart src quads force => Sys2Proof.Machine.execRecalStart src quads force s
  | .recalAbort src => Sys2Proof.Machine.execRecalAbort src s
  | .bgCalSwap n high diff gl ol sub => Sys2Proof.Machine.execBgCalSwap n high diff gl ol sub s
  | .discriminatorHit n rising cyc j lo hi => Sys2Proof.Machine.execDiscriminatorHit n rising cyc j lo hi s
  | .tdcConversionDone n code => Sys2Proof.Machine.execTdcConversionDone n code s
  | .tdcConversionTimeout n => Sys2Proof.Machine.execTdcConversionTimeout n s
  | .slowLockAcquired n => Sys2Proof.Machine.execSlowLockAcquired n s
  | .fastLockCheck n early cyc => Sys2Proof.Machine.execFastLockCheck n early cyc s
  | .forcedLockCheck n early => Sys2Proof.Machine.execForcedLockCheck n early s
  | .tdcLockLost n slow => Sys2Proof.Machine.execTdcLockLost n slow s
  | .linCalStart n => Sys2Proof.Machine.execLinCalStart n s
  | .linCalDone n hist => Sys2Proof.Machine.execLinCalDone n hist s
  | .tdcCalStart src quads => Sys2Proof.Machine.execTdcCalStart src quads s
  | .statStart src val => Sys2Proof.Machine.execStatStart src val s
  | .statAbort src => Sys2Proof.Machine.execStatAbort src s
  | .statDone => Sys2Proof.Machine.execStatDone s
  | .lenderConversion d cyc j code => Sys2Proof.Machine.execLenderConversion d cyc j code s
  | .phaseAvgDone d => Sys2Proof.Machine.execPhaseAvgDone d s
  | .triggerDecision n fi x => Sys2Proof.Machine.execTriggerDecision n fi x s
  | .maskRearm src q => Sys2Proof.Machine.execMaskRearm src q s
  | .trgMaskDataWrite src val => Sys2Proof.Machine.execTrgMaskDataWrite src val s
  | .trgMaskCommit src quads => Sys2Proof.Machine.execTrgMaskCommit src quads s
  | .trgDeadCapture => Sys2Proof.Machine.execTrgDeadCapture s
  | .captureClose n => Sys2Proof.Machine.execCaptureClose n s
  | .recordAssembled n differ => Sys2Proof.Machine.execRecordAssembled n differ s
  | .streamCfgWrite src slot val => Sys2Proof.Machine.execStreamCfgWrite src slot val s
  | .channelDisable src n => Sys2Proof.Machine.execChannelDisable src n s
  | .channelEnable src n => Sys2Proof.Machine.execChannelEnable src n s
  | .channelDrainEnd n => Sys2Proof.Machine.execChannelDrainEnd n s
  | .domainInService code => Sys2Proof.Machine.execDomainInService code s
  | .memoryInitDone m => Sys2Proof.Machine.execMemoryInitDone m s
  | .compressVerifyDone e emitted => Sys2Proof.Machine.execCompressVerifyDone e emitted s
  | .recordBypass => Sys2Proof.Machine.execRecordBypass s
  | .recordFifoWrite => Sys2Proof.Machine.execRecordFifoWrite s
  | .frameSummaryWrite => Sys2Proof.Machine.execFrameSummaryWrite s
  | .uplinkSend l => Sys2Proof.Machine.execUplinkSend l s
  | .recordWithdraw => Sys2Proof.Machine.execRecordWithdraw s
  | .uplinkCopyAbandon l => Sys2Proof.Machine.execUplinkCopyAbandon l s
  | .flush src => Sys2Proof.Machine.execFlush src s
  | .flushExecute => Sys2Proof.Machine.execFlushExecute s
  | .recDiagRead => Sys2Proof.Machine.execRecDiagRead s
  | .laneFrameReceived l rx => Sys2Proof.Machine.execLaneFrameReceived l rx s
  | .laneFramed l => Sys2Proof.Machine.execLaneFramed l s
  | .blindRetry l => Sys2Proof.Machine.execBlindRetry l s
  | .laneRaise l => Sys2Proof.Machine.execLaneRaise l s
  | .raiseTimeout l => Sys2Proof.Machine.execRaiseTimeout l s
  | .framingLost l => Sys2Proof.Machine.execFramingLost l s
  | .laneEnable src l => Sys2Proof.Machine.execLaneEnable src l s
  | .laneDisable src l => Sys2Proof.Machine.execLaneDisable src l s
  | .laneIdleEnter src l => Sys2Proof.Machine.execLaneIdleEnter src l s
  | .laneIdleExit src l => Sys2Proof.Machine.execLaneIdleExit src l s
  | .laneAttestSet src l set => Sys2Proof.Machine.execLaneAttestSet src l set s
  | .assayStart src l => Sys2Proof.Machine.execAssayStart src l s
  | .laneAssayVerdict l => Sys2Proof.Machine.execLaneAssayVerdict l s
  | .eyeScanStart src l val => Sys2Proof.Machine.execEyeScanStart src l val s
  | .eyeScanDone l errors => Sys2Proof.Machine.execEyeScanDone l errors s
  | .laneFifoSlip l fill => Sys2Proof.Machine.execLaneFifoSlip l fill s
  | .commandReceived l => Sys2Proof.Machine.execCommandReceived l s
  | .replyEventReceived l => Sys2Proof.Machine.execReplyEventReceived l s
  | .read c => Sys2Proof.Machine.execRead c s
  | .write c => Sys2Proof.Machine.execWrite c s
  | .trigger c => Sys2Proof.Machine.execTrigger c s
  | .echo c => Sys2Proof.Machine.execEcho c s
  | .release c => Sys2Proof.Machine.execRelease c s
  | .attest c => Sys2Proof.Machine.execAttest c s
  | .attestDone => Sys2Proof.Machine.execAttestDone s
  | .assign c => Sys2Proof.Machine.execAssign c s
  | .recordReceived l => Sys2Proof.Machine.execRecordReceived l s
  | .hubRecordCheck p => Sys2Proof.Machine.execHubRecordCheck p s
  | .horizonVerdict => Sys2Proof.Machine.execHorizonVerdict s
  | .builderProcess => Sys2Proof.Machine.execBuilderProcess s
  | .routeDataWrite src val => Sys2Proof.Machine.execRouteDataWrite src val s
  | .hrCtrlWrite src val => Sys2Proof.Machine.execHrCtrlWrite src val s
  | .ringEnable r entry post confirm => Sys2Proof.Machine.execRingEnable r entry post confirm s
  | .ringDisable src r => Sys2Proof.Machine.execRingDisable src r s
  | .ringStopped r => Sys2Proof.Machine.execRingStopped r s
  | .indexWordApply => Sys2Proof.Machine.execIndexWordApply s
  | .entryOpen r buf => Sys2Proof.Machine.execEntryOpen r buf s
  | .entryClose r => Sys2Proof.Machine.execEntryClose r s
  | .entryWriteback r => Sys2Proof.Machine.execEntryWriteback r s
  | .headWordHeartbeat r => Sys2Proof.Machine.execHeadWordHeartbeat r s
  | .msixSend v => Sys2Proof.Machine.execMsixSend v s
  | .replyTimeout => Sys2Proof.Machine.execReplyTimeout s
  | .eventsLostWrite r => Sys2Proof.Machine.execEventsLostWrite r s
  | .egressDeadline => Sys2Proof.Machine.execEgressDeadline s
  | .linkDown => Sys2Proof.Machine.execLinkDown s
  | .linkRetrain => Sys2Proof.Machine.execLinkRetrain s
  | .aerEgressError r => Sys2Proof.Machine.execAerEgressError r s
  | .pciePerst => Sys2Proof.Machine.execPciePerst s
  | .functionLevelReset => Sys2Proof.Machine.execFunctionLevelReset s
  | .d3hotEntry => Sys2Proof.Machine.execD3hotEntry s
  | .bar0Access req => Sys2Proof.Machine.execBar0Access req s
  | .configRequest q => Sys2Proof.Machine.execConfigRequest q s
  | .spiFrame mosi words => Sys2Proof.Machine.execSpiFrame mosi words s
  | .crossingTransfer g x => Sys2Proof.Machine.execCrossingTransfer g x s
  | .crossingFlush g held => Sys2Proof.Machine.execCrossingFlush g held s
  | .pipelineMismatch n cyc => Sys2Proof.Machine.execPipelineMismatch n cyc s
  | .scrubRead mem flips => Sys2Proof.Machine.execScrubRead mem flips s
  | .scrubRoundEnd => Sys2Proof.Machine.execScrubRoundEnd s
  | .assayBegin u => Sys2Proof.Machine.execAssayBegin u s
  | .assayComplete u lasting => Sys2Proof.Machine.execAssayComplete u lasting s
  | .retireStart src val => Sys2Proof.Machine.execRetireStart src val s
  | .retireDone => Sys2Proof.Machine.execRetireDone s
  | .hkEnable src val => Sys2Proof.Machine.execHkEnable src val s
  | .hkConversionEnd raw ovld refLow limit => Sys2Proof.Machine.execHkConversionEnd raw ovld refLow limit s
  | .hkLeadEnd => Sys2Proof.Machine.execHkLeadEnd s
  | .hkRestEnd => Sys2Proof.Machine.execHkRestEnd s
  | .hkSelfcal src => Sys2Proof.Machine.execHkSelfcal src s
  | .hkSelfcalDone means => Sys2Proof.Machine.execHkSelfcalDone means s
  | .hkblankAssert => Sys2Proof.Machine.execHkblankAssert s
  | .hkblankRelease => Sys2Proof.Machine.execHkblankRelease s
  | .excLimit => Sys2Proof.Machine.execExcLimit s
  | .hkMonCfgWrite src val => Sys2Proof.Machine.execHkMonCfgWrite src val s
  | .hkResultCapture => Sys2Proof.Machine.execHkResultCapture s
  | .pwrMemCtrlWrite src val => Sys2Proof.Machine.execPwrMemCtrlWrite src val s
  | .powerOverTrip => Sys2Proof.Machine.execPowerOverTrip s
  | .sensorGateEnd counts => Sys2Proof.Machine.execSensorGateEnd counts s
  | .coldHoldEntry => Sys2Proof.Machine.execColdHoldEntry s
  | .holdReqWrite src => Sys2Proof.Machine.execHoldReqWrite src s
  | .pwrReleaseWrite src key => Sys2Proof.Machine.execPwrReleaseWrite src key s
  | .holdReleased => Sys2Proof.Machine.execHoldReleased s
  | .ldgDataRead => Sys2Proof.Machine.execLdgDataRead s
  | .refclkLost => Sys2Proof.Machine.execRefclkLost s
  | .refclkReturn => Sys2Proof.Machine.execRefclkReturn s
  | .pllRelock => Sys2Proof.Machine.execPllRelock s
  | .hmProgDataWrite src val => Sys2Proof.Machine.execHmProgDataWrite src val s
  | .program src => Sys2Proof.Machine.execProgram src s
  | .sealDone readBackOk => Sys2Proof.Machine.execSealDone readBackOk s
  | .roleStrapChange strap => Sys2Proof.Machine.execRoleStrapChange strap s
  | .pciePerstRelease => Sys2Proof.Machine.execPciePerstRelease s
  | .linkUp width => Sys2Proof.Machine.execLinkUp width s
  | .readCompletion c => Sys2Proof.Machine.execReadCompletion c s
  | .fltLogCapture => Sys2Proof.Machine.execFltLogCapture s
  | .oneCopyDiffers addr bit copy => Sys2Proof.Machine.execOneCopyDiffers addr bit copy s
  | .railLimitTrip blown => Sys2Proof.Machine.execRailLimitTrip blown s

end Sys2Proof.Machine
end

