-- ==== Sys2Proof/Safety.lean ====
section
/-! DEFINITION. What counts as a safe run, and the words the statements are written in: completing, and leaving the rest of the
state as it was. -/
namespace Sys2Proof.Safety
open Sys2Proof.Machine

/-- A run of `n` steps that neither faults nor is refused. -/
def Runs (n : Nat) (s : State) : Prop := ∃ t, Sys2Proof.core.run n s = .next t

/-- The command completes in `s`, in a state of which `P` holds. -/
def Answers (c : Instr) (s : State) (P : State → Prop) : Prop := ∃ t, exec c s = .next t ∧ P t

/-- The stored-bit errors are in canonical form: words rising strictly, none without an error. -/
abbrev EccCanonical (s : State) : Prop := wfZ s.ecc = true

/-- Every antifuse blown before is blown after (R529: a blown bit reads 1, and nothing unblows it). -/
def FusesKept (s t : State) : Prop :=
  ∀ w b : Nat, (bitOf (getT 0 w s.fuses.a) b = true → bitOf (getT 0 w t.fuses.a) b = true)
    ∧ (bitOf (getT 0 w s.fuses.b) b = true → bitOf (getT 0 w t.fuses.b) b = true)
    ∧ (bitOf (getT 0 w s.fuses.c) b = true → bitOf (getT 0 w t.fuses.c) b = true)

/-- The register fields that queuing an event or a reply may count in: EVT_DROPPED of the hub and the pages its held descriptors take,
DROPPED, BUSY and REFUSED of a lane (R243, R340, R378). -/
def countsTalk (k : Nat) : Prop :=
  (k = Reg.HR_DROP_STATS_EVT_DROPPED.key ∨ k = Reg.EGR_POOL_FREE_PAGES.key ∨ k = Reg.EGR_POOL_LOW_WATER.key)
    ∨ ∃ l < 64, k = (Reg.LN_MG_STATS_DROPPED l).key ∨ k = (Reg.LN_MG_STATS_BUSY l).key ∨ k = (Reg.LN_MG_STATS_REFUSED l).key

/-- Every register field but those at the keys `own` and the counts of `countsTalk` reads in `t` as in `d`. -/
def RegsKeep (own : List Nat) (d t : Dev) : Prop := ∀ f : Fld, f.key ∉ own → ¬ countsTalk f.key → t.get f = d.get f

/-- Every register field but those at the keys `own` reads in `t` as in `d`. -/
def RegsKeepAll (own : List Nat) (d t : Dev) : Prop := ∀ f : Fld, f.key ∉ own → t.get f = d.get f

/-- `d` with the parts an event or a reply may change taken from `t`: registers, this device's upward queue and message count, the
rings, the outgoing queues of the lanes, the counter of free values. -/
def talked (d t : Dev) : Dev :=
  { d with regs := t.regs, mg := { d.mg with ownQ := t.mg.ownQ, msgSeq := t.mg.msgSeq }, hr := { d.hr with rings := t.hr.rings },
           lanes := t.lanes }

/-- A source's write reaches the register: the device takes the source's writes there and the source may write it (R531, R532,
R554). -/
abbrev Passes (d : Dev) (src : Source) (addr : Nat) : Prop := d.open? src addr = true ∧ d.mayWrite src addr = true

/-- The register fields that a loss record may count or move (R219, R225): the FIFO's level, the loss records and the records dropped. -/
def lossKeys : List Nat :=
  [Reg.REC_FIFO_LEVEL_PAGES_USED.key, Reg.REC_FIFO_LEVEL_HIGH_WATER.key, Reg.GLB_LADDER_LOSS_LOSS_RECORDS.key, Reg.REC_FIFO_STATS_DROPPED.key]

/-- The register fields that an entry of the fault log may change, with the assay it may raise (R422, R437). -/
def logKeys : List Nat :=
  [Reg.FLT_LOG_STATUS_ENTRIES.key, Reg.FLT_LOG_STATUS_NEXT_SEQ.key, Reg.FLT_LOG_OVERWRITES_OVERWRITES.key, Reg.FLT_STATUS_ASSAYS_WAITING.key,
    Reg.FLT_STATUS_ASSAY_ACTIVE.key, Reg.FLT_COUNT_ASSAY_NOT_ASSAYED.key]

/-- The register fields that records on their way to the rings may change (R242, R335, R343). -/
def ringKeys : List Nat :=
  [Reg.EGR_POOL_FREE_PAGES.key, Reg.EGR_POOL_LOW_WATER.key, Reg.HR_RING_ERR_RING.key, Reg.HR_RING_ERR_CAUSE.key, Reg.HR_RING_ERR_COUNT.key,
    Reg.HR_DROP_STATS_NO_RING.key]

/-- The newest thing that left the device is a head word at `addr` with HEAD `head` and the STOPPED flag `stopped` (R316); before it, `before`. -/
def HeadWordWritten (addr head : Nat) (stopped : Bool) (before after : List Out) : Prop :=
  ∃ lo hi : Word, after = .hostWrite addr [lo, hi] :: before ∧ lo.toNat = head ∧ bitOf hi.toNat 30 = stopped

/-- The 32 bits of a word as SPI sends them, the most significant first (R553). -/
def bits32 (n : Nat) : List Bool := (List.range 32).map fun i => bitOf n (31 - i)

/-- Addresses whose read does more than answer (R74, R195, R239, R440, R472, R517). -/
def readActs : List Nat := [0x1008, 0x3638, 0x7018, 0xA064, 0xB01C, 0xC00C]

/-- Sample `x` of the kept frame `f` of channel `n` can be decided now: the channel takes triggers in it, every sample the units need is
merged or the channel has stopped after it, no hit near it is still in conversion, and no later sample has been decided (R164, R167; log entry 16). -/
abbrev TriggerReady (d : Dev) (n fi x : Nat) (f : FStat) : Prop :=
  d.up = true ∧ d.role = .frontEnd ∧ d.acq.fstats.find? (fun s => s.fn % 2 ^ 32 == fi) = some f ∧ f.age < 2 ∧ n ∈ f.accept ∧ x < f.samples
    ∧ (∀ z ∈ (d.chan n).decided, z < f.base + x) ∧ (d.chan n).hitOpen (f.base + x) = false
    ∧ (f.base + x + max ((f.unit n false).wait f n) ((f.unit n true).wait f n) + 18 ≤ (d.chan n).merged
      ∨ (d.chan n).acquiring = false ∧ f.base + x < (d.chan n).merged)

/-- Lane `l` accepts the lane frame `r` (R355): its comma stands where it is expected, at a bit position allowed, no character is in error, and length,
rate and CRC are right. -/
abbrev AcceptsLf (d : Dev) (l : Nat) (r : LaneRx) : Prop :=
  (d.lane l).expects (d.commaPlace l r) = true ∧ d.slipOk l r.slip = true ∧ (d.receive l r.chars).1.head?.map (·.1) = some comma
    ∧ frameErrors (d.receive l r.chars).1 = 0 ∧ d.wordsOk l (lineWords (d.receive l r.chars).1) = true

/-- A register write of a source reaches a front-end's register at `addr`. -/
abbrev FrontEndWrite (d : Dev) (src : Source) (addr : Nat) : Prop := Passes d src addr ∧ d.role = .frontEnd

/-- The rows that may blow antifuses: the end of a sealing session, and the losses of power and the reset that interrupt one. -/
def blowsFuses : Instr → Bool
  | .sealDone _ | .converterStop _ | .railLimitTrip _ | .nresetAssert _ => true
  | _ => false

/-- The unit a command names, with the number of such units the device has (R4, R12): of a command that names none, none. -/
def unitOf : Instr → Option (Nat × Nat)
  | .domainQualified i | .domainLost i | .domCfgWrite _ i _ | .lenderConversion i _ _ _ | .phaseAvgDone i => some (i, 2)
  | .oneCopyDiffers _ _ i => some (i, 3)
  | .streamCfgWrite _ i _ | .memoryInitDone i => some (i, 4)
  | .compressVerifyDone i _ => some (i, 8)
  | .maskRearm _ i => some (i, 12)
  | .scrubRead i _ => some (i, 17)
  | .bgCalSwap i _ _ _ _ _ | .discriminatorHit i _ _ _ _ _ | .tdcConversionDone i _ | .tdcConversionTimeout i | .slowLockAcquired i
    | .fastLockCheck i _ _ | .forcedLockCheck i _ | .tdcLockLost i _ | .linCalStart i | .linCalDone i _ | .triggerDecision i _ _
    | .captureClose i | .recordAssembled i _ | .channelDisable _ i | .channelEnable _ i | .channelDrainEnd i | .uplinkSend i
    | .uplinkCopyAbandon i | .laneFrameReceived i _ | .laneFramed i | .blindRetry i | .laneRaise i | .raiseTimeout i
    | .framingLost i | .laneEnable _ i | .laneDisable _ i | .laneIdleEnter _ i | .laneIdleExit _ i | .laneAttestSet _ i _
    | .assayStart _ i | .laneAssayVerdict i | .eyeScanStart _ i _ | .eyeScanDone i _ | .laneFifoSlip i _ | .commandReceived i
    | .replyEventReceived i | .recordReceived i | .hubRecordCheck i | .pipelineMismatch i _ | .fgCalStart (some i) => some (i, 48)
  | .crossingTransfer i _ | .crossingFlush i _ => some (i, 51)
  | .domainInService i => some (i, 60)
  | .msixSend i => some (i, 64)
  | .ringEnable i _ _ _ | .ringDisable _ i | .ringStopped i | .entryOpen i _ | .entryClose i | .entryWriteback i
    | .headWordHeartbeat i | .eventsLostWrite i | .aerEgressError i => some (i, 4096)
  | _ => none

/-- The rows that are a write of one register by a source, with the register's address. -/
def writeOf : Instr → Option (Source × Nat)
  | .glbRoleCfgWrite src _ => some (src, 0x0104)
  | .glbDeviceNumberWrite src _ => some (src, 0x0108)
  | .registerWrite src addr _ => some (src, wholeAddr addr)
  | .txqPop src => some (src, 0x1090)
  | .preferSwitch src _ | .holdReq src _ | .freeDeclare src => some (src, 0x1000)
  | .domCfgWrite src k _ => some (src, 0x1030 + 4 * k)
  | .clearSuspect src _ _ => some (src, 0x1050)
  | .recalStart src _ _ | .recalAbort src => some (src, 0x2C00)
  | .tdcCalStart src _ => some (src, 0x2C10)
  | .statStart src _ | .statAbort src => some (src, 0x2C30)
  | .maskRearm src q => some (src, 0x3640 + 4 * q)
  | .trgMaskDataWrite src _ => some (src, 0x36A4)
  | .trgMaskCommit src _ => some (src, 0x36A8)
  | .streamCfgWrite src k _ => some (src, 0x3700 + 8 * k)
  | .channelDisable src n | .channelEnable src n => some (src, 0x2000 + 0x40 * n)
  | .flush src => some (src, 0x7004)
  | .laneEnable src l | .laneDisable src l | .laneIdleEnter src l | .laneIdleExit src l | .laneAttestSet src l _ | .assayStart src l =>
    some (src, 0x5000 + 0x80 * l)
  | .eyeScanStart src l _ => some (src, 0x5024 + 0x80 * l)
  | .routeDataWrite src _ => some (src, 0x8024)
  | .hrCtrlWrite src _ => some (src, 0x9000)
  | .ringDisable src _ => some (src, 0x9024)
  | .retireStart src _ => some (src, 0x710C)
  | .hkEnable src _ | .hkSelfcal src => some (src, 0xB000)
  | .hkMonCfgWrite src _ => some (src, 0xB028)
  | .pwrMemCtrlWrite src _ => some (src, 0xA010)
  | .holdReqWrite src => some (src, 0xA054)
  | .pwrReleaseWrite src _ => some (src, 0xA050)
  | .hmProgDataWrite src _ => some (src, 0xD014)
  | .program src => some (src, 0xD01C)
  | _ => none

end Sys2Proof.Safety
end

