-- ==== Sys2Proof/WellFormed.lean ====
section
/-! DEFINITION. Which commands name only things the device has: indices of units, and operand widths of the registers and
formats they stand for. -/
namespace Sys2Proof

/-- A command descriptor has eight words, a lane or host port number, a ring number of 12 bits and a sequence count of 32. -/
def Cmd.wf (c : Cmd) : Bool :=
  c.w.length == 8 && decide (c.port < 64) && decide (c.origin < 65536) && decide (c.ring < 4096) && decide (c.seq < 2 ^ 32)

/-- Channel numbers (R12). -/
def chanOk (n : Nat) : Bool := decide (n < 48)

/-- Lane numbers (R12). -/
def laneOk (l : Nat) : Bool := decide (l < 48)

/-- Ring numbers (R304). -/
def ringOk (r : Nat) : Bool := decide (r < 4096)

/-- What the checker self-test can find (R430): 16 banks, 12 lane quads, 24 engines. -/
def SelfTest.wf (t : SelfTest) : Bool := decide (t.banks < 2 ^ 16 ∧ t.lqs < 2 ^ 12 ∧ t.engines < 2 ^ 24)

/-- Well-formed commands. -/
def Instr.wf : Instr → Bool
  | .vinValid t | .nresetRelease t => t.wf
  | .frameBoundary f => f.codes.all (fun c => chanOk c.n) && decide (f.vinMv < 65536)
  | .domainQualified d | .domainLost d | .phaseAvgDone d | .domCfgWrite _ d _ | .lenderConversion d _ _ _ => decide (d < 2)
  | .headgateAction c | .cancel c | .read c | .write c | .trigger c | .echo c | .release c | .attest c | .assign c => c.wf
  | .fgCalStart n => match n with | some n => chanOk n | none => true
  | .fgCalDone rs => rs.all fun r => chanOk r.n
  | .bgCalSwap n _ _ _ _ _ | .tdcConversionDone n _ | .tdcConversionTimeout n | .slowLockAcquired n | .fastLockCheck n _ _
  | .forcedLockCheck n _ | .tdcLockLost n _ | .linCalStart n | .linCalDone n _ | .captureClose n | .recordAssembled n _
  | .channelDisable _ n | .channelEnable _ n | .channelDrainEnd n | .pipelineMismatch n _ => chanOk n
  | .discriminatorHit n _ _ j _ _ => chanOk n && decide (j < 16)
  | .triggerDecision n fi _ => chanOk n && decide (fi < 2 ^ 32)
  | .maskRearm _ q => decide (q < 12)
  | .streamCfgWrite _ k _ => decide (k < 4)
  | .domainInService c => decide (c < 60)
  | .memoryInitDone m => decide (m < 4)
  | .compressVerifyDone e _ => decide (e < 8)
  | .uplinkSend l | .uplinkCopyAbandon l | .laneFrameReceived l _ | .laneFramed l | .blindRetry l | .laneRaise l
  | .raiseTimeout l | .framingLost l | .laneEnable _ l | .laneDisable _ l | .laneIdleEnter _ l | .laneIdleExit _ l
  | .laneAttestSet _ l _ | .assayStart _ l | .laneAssayVerdict l | .eyeScanStart _ l _ | .eyeScanDone l _ | .laneFifoSlip l _
  | .commandReceived l | .replyEventReceived l | .recordReceived l | .hubRecordCheck l => laneOk l
  | .ringEnable r e _ _ => ringOk r && e.length == 16
  | .ringDisable _ r | .ringStopped r | .entryOpen r _ | .entryClose r | .entryWriteback r | .headWordHeartbeat r
  | .eventsLostWrite r | .aerEgressError r => ringOk r
  | .msixSend v => decide (v < 64)
  | .crossingTransfer g _ | .crossingFlush g _ => decide (g < 51)
  | .scrubRead m f => decide (m < 17) && decide (f < 2 ^ 52)
  | .registerWrite _ a _ => decide (a < 65536)
  | .oneCopyDiffers a b c => decide (a < 65536) && decide (b < 32) && decide (c < 3)
  | .roleStrapChange v => decide (v < 4)
  | .assayBegin u | .assayComplete u _ => decide (u.unit < 16)
  | _ => true

end Sys2Proof
end

