-- ==== Sys2Proof/Certificates/Slice0/Obligations.lean ====
section
/-! DEFINITION. The statements: what every command does when it completes, what it leaves alone, and what every step keeps. The docstrings
say which rules each formalises; a clause that rests on the model's own choice names its log entry. -/
open Sys2Proof Sys2Proof.Machine Sys2Proof.Safety

/-! ### The queue, the step, reset -/

/-- A step carries out the command at the front of the queue on the state with the queue's rest; on an empty queue the block idles (the
model's choice, log entry 1). (00_scope.md, 95_what_each_step_holds.md.) -/
def Obligations.StepRunsTheFrontCommand : Prop :=
  (∀ (c : Instr) (rest : List Instr) (s : State), s.pending = c :: rest → step s = exec c { s with pending := rest })
    ∧ ∀ s : State, s.pending = [] → step s = .next s

/-- Every command that names units the device has completes, whatever the state: nothing the device holds can stop it. The only stop is the fault of a
command that names a unit the device does not have, and no command is refused. No command touches the queue: a step that answers leaves exactly
the commands that stood behind the one it took. (R12, R23, 95_what_each_step_holds.md.) -/
def Obligations.WellFormedCommandsComplete : Prop :=
  (∀ (c : Instr) (rest : List Instr) (s : State), c.wf = true → s.pending = c :: rest → ∃ t, step s = .next t ∧ t.pending = rest)
    ∧ (∀ (c : Instr) (i n : Nat) (s : State), unitOf c = some (i, n) → n ≤ i → exec c s = .fault .noSuchUnit)
    ∧ (∀ (c : Instr) (f : Fault) (s : State), exec c s = .fault f → ∃ i n : Nat, unitOf c = some (i, n) ∧ n ≤ i)
    ∧ (∀ (c : Instr) (r : Refusal) (s : State), exec c s ≠ .refused r)
    ∧ (∀ (c : Instr) (s t : State), exec c s = .next t → t.pending = s.pending)
    ∧ ∀ s t : State, step s = .next t → t.pending = s.pending.tail

/-- The stored-bit errors stay in canonical form: words rising strictly, none listed without an error. (R412, R414.) -/
def Obligations.EccStaysCanonical : Prop := ∀ s t : State, EccCanonical s → step s = .next t → EccCanonical t

/-- Reset: no power, no command waiting, no stored bit in error, every field of every register at the Reset column, and the columns of a
few registers of each block as the manual prints them. (R550, R75, R76, R77, R81, R88.) -/
def Obligations.ResetState : Prop :=
  EccCanonical State.reset ∧ State.reset.pending = [] ∧ State.reset.dev.boot = .off
    ∧ (∀ f : Fld, State.reset.dev.get f = f.reset ∧ State.reset.dev.eff f = f.reset)
    ∧ State.reset.dev.get Reg.ID_PART_PART = 72 ∧ State.reset.dev.get Reg.ID_PART_VENDOR = 0x1D7C
    ∧ State.reset.dev.get Reg.TIM_SERVO_LIMITS_SLEW_LIMIT = 6553 ∧ State.reset.dev.get Reg.TIM_SERVO_KP_KP = 128
    ∧ State.reset.dev.get Reg.TIM_SERVO_KI_KI = 4096 ∧ State.reset.dev.get Reg.TIM_HG_CTRL_GRACE = 16
    ∧ State.reset.dev.get (Reg.TIM_DOM_OFS_OFS 0) = 0x80000000 ∧ State.reset.dev.get (Reg.TIM_DOM_OFS_OFS 1) = 0x80000000
    ∧ State.reset.dev.get Reg.CMP_CTRL_PRED_MASK = 31

/-- A blown antifuse stays blown in every step. Antifuses change only under a sealing session: no other command touches them, and without a session none does. (R529, R533.) -/
def Obligations.AntifusesOnlyBlowAndOnlyUnderSealing : Prop :=
  (∀ s t : State, step s = .next t → FusesKept s t)
    ∧ ∀ (c : Instr) (s t : State), exec c s = .next t → (blowsFuses c = false ∨ s.dev.hm.sealing = false) → t.fuses = s.fuses

/-! ### Register writes: the gate -/

/-- HM_DENIED: a write from a source that may not write the register writes nothing, and a command that is denied is not executed; each raises
COUNT by 1 (it wraps) and shows its group and source in LAST_GROUP and LAST_SOURCE. The word reads with its reserved bits 0, and all of it is 0
after reset. (R540.) -/
def Obligations.DeniedWriteIsOnlyCounted : Prop :=
  (∀ (c : Instr) (src : Source) (a : Nat) (s : State), writeOf c = some (src, a) → c.wf = true → s.dev.open? src a = true →
      s.dev.mayWrite src a = false →
      Answers c s fun t =>
        t.dev.get Reg.HM_DENIED_COUNT = (s.dev.get Reg.HM_DENIED_COUNT + 1) % 65536
        ∧ t.dev.get Reg.HM_DENIED_LAST_GROUP = groupOf a ∧ t.dev.get Reg.HM_DENIED_LAST_SOURCE = srcNum src
        ∧ t = { s with dev := { s.dev with regs := t.dev.regs } }
        ∧ RegsKeepAll [Reg.HM_DENIED_COUNT.key, Reg.HM_DENIED_LAST_GROUP.key, Reg.HM_DENIED_LAST_SOURCE.key] s.dev t.dev)
    ∧ (∀ (c : Cmd) (op g : Nat) (i : Instr) (s : State), s.dev.up = true → s.dev.hasSource c = true → g < 16 →
      (i = .read c ∧ op = 1 ∨ i = .write c ∧ op = 2 ∨ i = .trigger c ∧ op = 3 ∨ i = .cancel c ∧ op = 4 ∨ i = .release c ∧ op = 16
        ∨ i = .assign c ∧ op = 18) →
      s.dev.denial (cmdWithOp c op) = some g →
      Answers i s fun t =>
        t.dev.get Reg.HM_DENIED_COUNT = (s.dev.get Reg.HM_DENIED_COUNT + 1) % 65536
        ∧ t.dev.get Reg.HM_DENIED_LAST_GROUP = g ∧ t.dev.get Reg.HM_DENIED_LAST_SOURCE = srcNum c.src
        ∧ t = { s with dev := talked s.dev t.dev }
        ∧ RegsKeep [Reg.HM_DENIED_COUNT.key, Reg.HM_DENIED_LAST_GROUP.key, Reg.HM_DENIED_LAST_SOURCE.key] s.dev t.dev)
    ∧ srcNum .spi = 0 ∧ srcNum .upLane = 1 ∧ srcNum .downLane = 2 ∧ srcNum .pcie = 3
    ∧ (∀ d : Dev, d.regWord 0xD00C = d.get Reg.HM_DENIED_COUNT % 2 ^ 16 + d.get Reg.HM_DENIED_LAST_GROUP % 2 ^ 4 * 2 ^ 16
        + d.get Reg.HM_DENIED_LAST_SOURCE % 2 ^ 2 * 2 ^ 20)
    ∧ State.reset.dev.regWord 0xD00C = 0

/-- A device that does not take a source's writes at an address is not changed by them; a downstream lane may write nothing; the PCIe host
writes only in a hub; only SPI reaches a held device, and only the Hallmark view block. (R531, R532, R554, R541.) -/
def Obligations.WhoMayWrite : Prop :=
  (∀ (c : Instr) (src : Source) (a : Nat) (s : State), writeOf c = some (src, a) → c.wf = true → s.dev.open? src a = false →
      exec c s = .next s)
    ∧ (∀ (d : Dev) (a : Nat), d.mayWrite .downLane a = false)
    ∧ (∀ (d : Dev) (a : Nat), d.role ≠ .hub → d.mayWrite .pcie a = false)
    ∧ (∀ (d : Dev) (src : Source) (a : Nat), d.boot = .held → (d.open? src a = true ↔ src = .spi ∧ groupOf a = 13))
    ∧ ∀ (d : Dev) (a : Nat), 0xD010 ≤ a → a ≤ 0xD01C → d.mayWrite .upLane a = false

/-! ### Time -/

/-- DOMAIN_QUALIFIED, DOMAIN_LOST: the condition of R60 on the state, the state the domain enters, and nothing else but the domain's count,
the two-domain breach and an event. CLOCK_LOCKED: a COARSE clock is asked for LOCKED, and the boundary that follows enters it when the
conditions of R53 hold after the frame's update and nothing puts the clock in HOLDOVER. COARSE_STEP: only in UNTIMED and FREE; the
preferred domain if it is TRACKING or better, otherwise the other one if it is, gives the step that the next boundary takes. (R51, R53, R60.) -/
def Obligations.DomainAndClockStates : Prop :=
  (∀ (k : Nat) (s : State), k < 2 → s.dev.up = true → s.dev.domState k = 2 →
      (if s.dev.isSource k then 4 else 16) ≤ (s.dev.dom k).goodRun →
      Answers (.domainQualified k) s fun t =>
        t.dev.domState k = 3 ∧ t.dev.dom k = { s.dev.dom k with goodRun := 0 } ∧ t.dev.dom (1 - k) = s.dev.dom (1 - k)
        ∧ t = { s with dev := { talked s.dev t.dev with tm := { s.dev.tm with doms := t.dev.tm.doms } } }
        ∧ RegsKeep [(domStateFld k).key] s.dev t.dev)
    ∧ (∀ (k : Nat) (s : State), k < 2 → s.dev.up = true → (s.dev.domState k = 2 ∨ s.dev.domState k = 3) →
      s.dev.lostAfter k ≤ (s.dev.dom k).idle →
      Answers (.domainLost k) s fun t =>
        t.dev.domState k = 4 ∧ t.dev.domState (1 - k) = s.dev.domState (1 - k)
        ∧ ((s.dev.domState (1 - k) = 4 ∨ s.dev.domState (1 - k) = 5) → t.dev.flag Reg.FLT_STATUS_BOTH_DOMAINS = true)
        ∧ (s.dev.isSource k = true → t.dev.tm.pps.lastFn = none)
        ∧ t = { s with dev := { talked s.dev t.dev with
                  tm := { s.dev.tm with doms := t.dev.tm.doms, pps := { s.dev.tm.pps with lastFn := t.dev.tm.pps.lastFn } } } }
        ∧ RegsKeep [(domStateFld k).key, Reg.FLT_STATUS_BOTH_DOMAINS.key, Reg.FLT_STATUS_BEYOND_MODEL.key] s.dev t.dev)
    ∧ (∀ s : State, s.dev.up = true → s.dev.clkState = 2 →
      exec .clockLocked s = .next { s with dev := { s.dev with tm := { s.dev.tm with lockPend := true } } })
    ∧ (∀ d : Dev, d.clkState = 2 → d.selected < 2 → d.domState d.selected = 3 → (d.dom d.selected).refined = true →
      d.tm.lockPend = true → d.tm.swPend = none →
      d.flag Reg.TIM_CTRL_HOLD_REQ = false → (∀ w, d.tm.watch = some w → w.held = false) → d.pins.refPresent = true →
      (16 ≤ d.tm.lockRun →
        d.clockStates.clkState = 3 ∧ d.clockStates.tm = { d.tm with lockPend := false }
        ∧ d.clockStates = { talked d d.clockStates with tm := d.clockStates.tm }
        ∧ RegsKeep [Reg.TIM_STATUS_CLK_STATE.key] d d.clockStates)
      ∧ (d.tm.lockRun < 16 → d.clockStates = { d with tm := { d.tm with lockPend := false } }))
    ∧ (∀ (p : Nat) (s : State), s.dev.up = true → s.dev.get Reg.TIM_CTRL_PREFER = p → (s.dev.clkState = 0 ∨ s.dev.clkState = 1) →
      ((s.dev.domState p = 2 ∨ s.dev.domState p = 3) →
        exec .coarseStep s = .next { s with dev := { s.dev with tm := { s.dev.tm with stepPend := some p } } })
      ∧ (¬ (s.dev.domState p = 2 ∨ s.dev.domState p = 3) → (s.dev.domState (1 - p) = 2 ∨ s.dev.domState (1 - p) = 3) →
        exec .coarseStep s = .next { s with dev := { s.dev with tm := { s.dev.tm with stepPend := some (1 - p) } } }))
    ∧ ∀ s : State, 1 < s.dev.clkState → exec .coarseStep s = .next s

/-- ASYM_WATCH_CONFIRM and ASYM_WATCH_EXPIRY: the watched domain X becomes SUSPECT and the watch ends; after a confirmation the next
boundary switches to Y if X was selected and AUTO_SWITCH is set. CLEAR_SUSPECT brings a SUSPECT domain that it names back to TRACKING. (R61, R64, R83.) -/
def Obligations.AsymmetryWatchVerdicts : Prop :=
  (∀ (w : Watch) (s : State), s.dev.tm.watch = some w → w.x < 2 → s.dev.up = true → 64 ≤ w.yRun →
      Answers .asymWatchConfirm s fun t =>
        t.dev.domState w.x = 5 ∧ t.dev.domState (1 - w.x) = s.dev.domState (1 - w.x)
        ∧ t.dev.tm.watch = none ∧ t.dev.flag Reg.TIM_STATUS_ASYM_WATCH = false
        ∧ (s.dev.selected = w.x → s.dev.flag Reg.TIM_CTRL_AUTO_SWITCH = true → t.dev.tm.swPend = some (1 - w.x))
        ∧ (¬ (s.dev.selected = w.x ∧ s.dev.flag Reg.TIM_CTRL_AUTO_SWITCH = true) → t.dev.tm.swPend = s.dev.tm.swPend)
        ∧ t = { s with dev := { talked s.dev t.dev with
                  tm := { s.dev.tm with watch := none, doms := t.dev.tm.doms, swPend := t.dev.tm.swPend } } }
        ∧ RegsKeep [(domStateFld w.x).key, Reg.TIM_STATUS_ASYM_WATCH.key, Reg.FLT_STATUS_BOTH_DOMAINS.key,
            Reg.FLT_STATUS_BEYOND_MODEL.key] s.dev t.dev)
    ∧ (∀ (w : Watch) (s : State), s.dev.tm.watch = some w → w.x < 2 → s.dev.up = true → w.yRun < 64 → w.fn + s.dev.window < s.dev.fn →
      Answers .asymWatchExpiry s fun t =>
        t.dev.domState w.x = 5 ∧ t.dev.tm.watch = none ∧ t.dev.flag Reg.TIM_STATUS_ASYM_WATCH = false
        ∧ t = { s with dev := { talked s.dev t.dev with tm := { s.dev.tm with watch := none, doms := t.dev.tm.doms } } }
        ∧ RegsKeep [(domStateFld w.x).key, Reg.TIM_STATUS_ASYM_WATCH.key, Reg.FLT_STATUS_BOTH_DOMAINS.key,
            Reg.FLT_STATUS_BEYOND_MODEL.key] s.dev t.dev)
    ∧ ∀ (src : Source) (a b : Bool) (s : State), Passes s.dev src 0x1050 →
      Answers (.clearSuspect src a b) s fun t =>
        t.dev.domState 0 = (if a = true ∧ s.dev.domState 0 = 5 then 2 else s.dev.domState 0)
        ∧ t.dev.domState 1 = (if b = true ∧ s.dev.domState 1 = 5 then 2 else s.dev.domState 1)
        ∧ t = { s with dev := { talked s.dev t.dev with tm := { s.dev.tm with doms := t.dev.tm.doms } } }
        ∧ RegsKeep [(domStateFld 0).key, (domStateFld 1).key] s.dev t.dev

/-- The servo's registers and its update. KP and KI read back as written and take effect at the boundary; SLEW_LIMIT stores 6,553 for more and 1 for 0;
reserved bits read 0. With the servo enabled and not holding, an input e moves the integrator by KI × e, held to the slew limit, and gives u as
the rounded negative of KP × e / 256 plus the integrator, halves away from zero; a u beyond the limit is clamped and leaves the integrator as it was;
an input within LOCK_THRESH lengthens the run toward LOCKED, any other ends it. Without an input u is the rounded negative of the integrator. The correction is spread over the cycles of the frame exactly. (R75, R76, R77.) -/
def Obligations.ServoRegistersAndUpdate : Prop :=
  (State.reset.dev.get Reg.TIM_SERVO_KP_KP = 128 ∧ State.reset.dev.get Reg.TIM_SERVO_KI_KI = 4096
      ∧ State.reset.dev.get Reg.TIM_SERVO_LIMITS_SLEW_LIMIT = 6553 ∧ State.reset.dev.get Reg.TIM_SERVO_LIMITS_LOCK_THRESH = 1311)
    ∧ (∀ d : Dev, d.regWord 0x1018 = d.get Reg.TIM_SERVO_KP_KP % 2 ^ 16 ∧ d.regWord 0x101C = d.get Reg.TIM_SERVO_KI_KI % 2 ^ 16
      ∧ d.regWord 0x1020 = d.get Reg.TIM_SERVO_LIMITS_SLEW_LIMIT % 2 ^ 13 + d.get Reg.TIM_SERVO_LIMITS_LOCK_THRESH % 2 ^ 16 * 2 ^ 16)
    ∧ (∀ (src : Source) (v : Word) (a : Nat) (f : Fld) (s : State), (a = 0x1018 ∧ f = Reg.TIM_SERVO_KP_KP ∨ a = 0x101C ∧ f = Reg.TIM_SERVO_KI_KI) →
      Passes s.dev src a →
      Answers (.registerWrite src a v) s fun t =>
        t.dev.get f = v.toNat % 65536 ∧ t.dev.eff f = s.dev.eff f ∧ t.dev.queue = s.dev.queue ++ [.reg src a v]
        ∧ t = { s with dev := { s.dev with regs := t.dev.regs, queue := t.dev.queue } } ∧ RegsKeepAll [f.key] s.dev t.dev)
    ∧ (∀ (fs : Fuses) (ecc : List (Nat × Nat)) (src : Source) (v : Word) (a : Nat) (f : Fld) (d : Dev),
      (a = 0x1018 ∧ f = Reg.TIM_SERVO_KP_KP ∨ a = 0x101C ∧ f = Reg.TIM_SERVO_KI_KI) →
      (stepFive fs (ecc, { d with queue := [.reg src a v] })).2.eff f = v.toNat % 65536)
    ∧ (∀ (src : Source) (v : Word) (s : State), Passes s.dev src 0x1020 →
      Answers (.registerWrite src 0x1020 v) s fun t =>
        (6553 < v.toNat % 8192 → t.dev.get Reg.TIM_SERVO_LIMITS_SLEW_LIMIT = 6553)
        ∧ (v.toNat % 8192 = 0 → t.dev.get Reg.TIM_SERVO_LIMITS_SLEW_LIMIT = 1)
        ∧ (1 ≤ v.toNat % 8192 → v.toNat % 8192 ≤ 6553 → t.dev.get Reg.TIM_SERVO_LIMITS_SLEW_LIMIT = v.toNat % 8192)
        ∧ t.dev.get Reg.TIM_SERVO_LIMITS_LOCK_THRESH = v.toNat / 2 ^ 16 ∧ t = { s with dev := { s.dev with regs := t.dev.regs } }
        ∧ RegsKeepAll [Reg.TIM_SERVO_LIMITS_SLEW_LIMIT.key, Reg.TIM_SERVO_LIMITS_LOCK_THRESH.key] s.dev t.dev)
    ∧ (∀ d : Dev, d.flag Reg.TIM_CTRL_SERVO_EN = true →
      (let slew : Int := d.get Reg.TIM_SERVO_LIMITS_SLEW_LIMIT
       let near (u n : Int) : Prop := (0 ≤ n → 65536 * u ≤ n + 32768 ∧ n + 32768 < 65536 * u + 65536) ∧ (n < 0 → 65536 * u - 65536 < n - 32768 ∧ n - 32768 ≤ 65536 * u)
       (∀ (i : Option Int) (w : Int), near w d.tm.integ → (i = none ∨ d.servoHolds = true) → d.servo i = (max (-slew) (min (-w) slew), d))
       ∧ ∀ e w : Int, d.servoHolds = false →
         (let integ := max (-slew * 65536) (min (d.tm.integ + (d.eff Reg.TIM_SERVO_KI_KI : Int) * e) (slew * 65536))
          let run := if e.natAbs ≤ d.get Reg.TIM_SERVO_LIMITS_LOCK_THRESH then d.tm.lockRun + 1 else 0
          near w ((d.eff Reg.TIM_SERVO_KP_KP : Int) * e * 256 + integ) →
          ((-slew ≤ -w ∧ -w ≤ slew) → (d.servo (some e)).1 = -w ∧ (d.servo (some e)).2.tm.integ = integ
            ∧ (d.servo (some e)).2.get Reg.TIM_SERVO_INTEG_INTEG = ((integ / 65536) % 2 ^ 32).toNat
            ∧ (d.servo (some e)).2 = { d with regs := (d.servo (some e)).2.regs, tm := { d.tm with integ := integ, lockRun := run } }
            ∧ RegsKeepAll [Reg.TIM_SERVO_INTEG_INTEG.key] d (d.servo (some e)).2)
          ∧ (-w < -slew → d.servo (some e) = (-slew, { d with tm := { d.tm with lockRun := run } }))
          ∧ (slew < -w → d.servo (some e) = (slew, { d with tm := { d.tm with lockRun := run } })))))
    ∧ ∀ (d : Dev) (c : Nat), 0 < d.tm.clk.cyc → c < d.tm.clk.cyc →
        d.edge (c + 1) - d.edge c = 262144 + d.tm.clk.u / (d.tm.clk.cyc : Int) + (if (c : Int) < d.tm.clk.u % (d.tm.clk.cyc : Int) then 1 else 0)

/-- PPS_EDGE for the source domain k (the first that is one), with a lender that cannot stamp, so that the stamp is the cycle edge: a first
edge only starts the count, an edge outside the band is not accepted, and an accepted one of a known SEC without a message gives θ, the
instant less the correction less the nearest second. A message that waits is judged at the edge: one that ended at least 10 ms before gives
LAST_SEQ and LAST_FLAGS, any other counts in BAD_MSG. With a lender that can stamp, an idle TDC is taken and stamps the edge; of a busy one UNAVAIL counts
it, and the stamp is raw. (R65, R85, R86.) -/
def Obligations.PpsEdges : Prop :=
  ∀ (k cyc j code : Nat) (rising : Bool) (s : State), (k = 0 ∨ k = 1 ∧ s.dev.isSource 0 = false) → s.dev.up = true → s.dev.isSource k = true →
    rising ≠ s.dev.flag Reg.TIM_SRC_CFG_PPS_POL →
    (s.dev.lenderOk (s.dev.lender k) = false →
    (s.dev.tm.pps.lastFn = none → s.dev.tm.pps.msgs = [] →
      exec (.ppsEdge rising cyc j code) s =
        .next { s with dev := { s.dev with tm := { s.dev.tm with
          pps := { s.dev.tm.pps with lastFn := some s.dev.fn, edgeFn := some s.dev.fn, srcHold := false } } } })
    ∧ (∀ f, s.dev.tm.pps.lastFn = some f → ¬ (f + 999900 ≤ s.dev.fn ∧ s.dev.fn ≤ f + 1000100) →
      Answers (.ppsEdge rising cyc j code) s fun t =>
        t.dev.flag Reg.TIM_STATUS_PPS_OUT_OF_BAND = true ∧ t = { s with dev := { s.dev with regs := t.dev.regs } }
        ∧ RegsKeepAll [Reg.TIM_STATUS_PPS_OUT_OF_BAND.key] s.dev t.dev)
    ∧ (∀ f, s.dev.tm.pps.lastFn = some f → f + 999900 ≤ s.dev.fn → s.dev.fn ≤ f + 1000100 → s.dev.tm.pps.msgs = [] →
      s.dev.get Reg.TIM_SRC_CFG_DOMAIN_ID ≠ 0 → (s.dev.domState k = 2 ∨ s.dev.domState k = 3) →
      Answers (.ppsEdge rising cyc j code) s fun t =>
        (let x := s.dev.edge cyc - s.dev.getI Reg.TIM_PPS_CORR_PPS_CORR
         (t.dev.dom k).fresh = some (x - nearestSecond x) ∧ t.dev.domOfs k = ofsWord (x - nearestSecond x))
        ∧ t.dev.tm.pps = { s.dev.tm.pps with lastFn := some s.dev.fn, edgeFn := some s.dev.fn, srcHold := false } ∧ (t.dev.dom k).idle = 0
        ∧ t = { s with dev := { s.dev with regs := t.dev.regs, tm := { s.dev.tm with pps := t.dev.tm.pps, doms := t.dev.tm.doms } } }
        ∧ RegsKeepAll [(Reg.TIM_DOM_OFS_OFS k).key, (Reg.TIM_DOM_DELAY_DELAY k).key] s.dev t.dev)
    ∧ ∀ m : Tod, s.dev.tm.pps.lastFn = none → s.dev.tm.pps.msgs = [m] →
      Answers (.ppsEdge rising cyc j code) s fun t =>
        (m.fn + 10000 ≤ s.dev.fn → t.dev.get Reg.TIM_TOD_STATUS_LAST_SEQ = m.seq % 65536
            ∧ t.dev.get Reg.TIM_TOD_STATUS_LAST_FLAGS = m.flags % 256
            ∧ RegsKeep [Reg.TIM_TOD_STATUS_LAST_SEQ.key, Reg.TIM_TOD_STATUS_LAST_FLAGS.key] s.dev t.dev)
        ∧ (s.dev.fn < m.fn + 10000 → t.dev.get Reg.TIM_TOD_STATUS_BAD_MSG = min (s.dev.get Reg.TIM_TOD_STATUS_BAD_MSG + 1) 15
            ∧ RegsKeep [Reg.TIM_TOD_STATUS_BAD_MSG.key] s.dev t.dev)
        ∧ t.dev.tm.pps.msgs = [] ∧ t.dev.tm.pps.lastFn = some s.dev.fn
        ∧ t = { s with dev := { talked s.dev t.dev with tm := { s.dev.tm with pps := t.dev.tm.pps } } })
    ∧ ∀ f n : Nat, n = s.dev.lender k → s.dev.lenderOk n = true → code < 128 → s.dev.tm.pps.lastFn = some f → f + 999900 ≤ s.dev.fn →
      s.dev.fn ≤ f + 1000100 → s.dev.tm.pps.msgs = [] → s.dev.get Reg.TIM_SRC_CFG_DOMAIN_ID ≠ 0 → (s.dev.domState k = 2 ∨ s.dev.domState k = 3) →
      Answers (.ppsEdge rising cyc j code) s fun t =>
        (let idle := s.dev.tdcIdle n (s.dev.edgeCount cyc + j)
         let x := (if idle then s.dev.convInstant n cyc j code else s.dev.edge cyc) - s.dev.getI Reg.TIM_PPS_CORR_PPS_CORR
         (t.dev.dom k).fresh = some (x - nearestSecond x)
         ∧ (idle = true → (t.dev.chan n).lastE = some (s.dev.edgeCount cyc + j)
             ∧ t.dev.get (Reg.CH_TDC_COUNTS_UNAVAIL n) = s.dev.get (Reg.CH_TDC_COUNTS_UNAVAIL n))
         ∧ (idle = false → t.dev.acq.chans = s.dev.acq.chans
             ∧ t.dev.get (Reg.CH_TDC_COUNTS_UNAVAIL n) = (s.dev.get (Reg.CH_TDC_COUNTS_UNAVAIL n) + 1) % 65536))
        ∧ (∀ m, m ≠ n → t.dev.chan m = s.dev.chan m) ∧ t.dev.tm.pps.lastFn = some s.dev.fn
        ∧ t = { s with dev := { s.dev with regs := t.dev.regs, tm := { s.dev.tm with pps := t.dev.tm.pps, doms := t.dev.tm.doms }
                                           acq := { s.dev.acq with chans := t.dev.acq.chans } } }
        ∧ RegsKeepAll [(Reg.TIM_DOM_OFS_OFS k).key, (Reg.TIM_DOM_DELAY_DELAY k).key, (Reg.CH_TDC_COUNTS_UNAVAIL n).key] s.dev t.dev

/-- TOD_MESSAGE and TOD_GAP_TIMEOUT: bytes gather until there are 16; a message of the right form that ends at least 50 ms after
the last accepted edge waits for the next edge with its SECONDS, FLAGS, SOURCE_ID and SEQ; any other counts in BAD_MSG, which saturates (type nibble 0: the model's
choice, log entry 50); a gap drops a part. (R66, R67, R87.) -/
def Obligations.TodMessages : Prop :=
  (∀ (bytes : List Byte) (s : State), s.dev.up = true → s.dev.flag Reg.TIM_SRC_CFG_TOD_EN = true →
      s.dev.tm.pps.buf.length + bytes.length < 16 →
      exec (.todMessage bytes) s = .next { s with dev := { s.dev with tm := { s.dev.tm with
        pps := { s.dev.tm.pps with buf := s.dev.tm.pps.buf ++ bytes.map BitVec.toNat } } } })
    ∧ (∀ (b : List Byte) (s : State), s.dev.up = true → s.dev.flag Reg.TIM_SRC_CFG_TOD_EN = true → s.dev.tm.pps.buf = [] → b.length = 16 →
      (∀ f, s.dev.tm.pps.edgeFn = some f → f + 50000 ≤ s.dev.fn) →
      (let n := b.map BitVec.toNat
       nth n 0 = 0xC7 ∧ nth n 1 = 0x01 ∧ nth n 12 + 256 * nth n 13 + 65536 * nth n 14 + 16777216 * nth n 15 = crc32c (n.take 12)) →
      (let n := b.map BitVec.toNat
       exec (.todMessage b) s = .next { s with dev := { s.dev with tm := { s.dev.tm with pps := { s.dev.tm.pps with
         msgs := s.dev.tm.pps.msgs ++ [{ sec := nth n 2 + 2 ^ 8 * nth n 3 + 2 ^ 16 * nth n 4 + 2 ^ 24 * nth n 5 + 2 ^ 32 * nth n 6 + 2 ^ 40 * nth n 7
                                         flags := nth n 8, src := nth n 9, seq := nth n 10 + 256 * nth n 11, fn := s.dev.fn }] } } } }))
    ∧ (∀ (b : List Byte) (s : State), s.dev.up = true → s.dev.flag Reg.TIM_SRC_CFG_TOD_EN = true → s.dev.tm.pps.buf = [] → b.length = 16 →
      (let n := b.map BitVec.toNat
       nth n 0 ≠ 0xC7 ∨ nth n 1 ≠ 0x01 ∨ nth n 12 + 256 * nth n 13 + 65536 * nth n 14 + 16777216 * nth n 15 ≠ crc32c (n.take 12)
         ∨ ∃ f, s.dev.tm.pps.edgeFn = some f ∧ s.dev.fn < f + 50000) →
      Answers (.todMessage b) s fun t =>
        t.dev.get Reg.TIM_TOD_STATUS_BAD_MSG = min (s.dev.get Reg.TIM_TOD_STATUS_BAD_MSG + 1) 15
        ∧ t = { s with dev := { s.dev with regs := t.dev.regs } } ∧ RegsKeepAll [Reg.TIM_TOD_STATUS_BAD_MSG.key] s.dev t.dev)
    ∧ ∀ s : State, exec .todGapTimeout s =
        .next { s with dev := { s.dev with tm := { s.dev.tm with pps := { s.dev.tm.pps with buf := [] } } } }

/-- TXQ_POP: the oldest entry moves into TIM_TXQ_ENTRY, TIM_TXQ_FI and TIM_TXQ_OFS; of an empty queue only VALID is cleared. TIM_NOW_CAPTURE: the five TIM_NOW registers hold one instant of the system time, the edge of the cycle: seconds in 48 bits, nanoseconds
and 2^-16 ns, and FI. (R68, R74, R90.) -/
def Obligations.TimeStampsAreTakenOut : Prop :=
  (
    (∀ (src : Source) (e : TxqE) (q : List TxqE) (s : State), Passes s.dev src 0x1090 → s.dev.tm.txq = e :: q →
        Answers (.txqPop src) s fun t =>
          t.dev.get Reg.TIM_TXQ_ENTRY_VALID = 1 ∧ t.dev.get Reg.TIM_TXQ_ENTRY_ID = e.id % 256 ∧ t.dev.get Reg.TIM_TXQ_ENTRY_LANE = e.lane % 64
          ∧ t.dev.get Reg.TIM_TXQ_FI_FI = e.fi % 2 ^ 32 ∧ t.dev.get Reg.TIM_TXQ_OFS_OFS = e.ofs % 2 ^ 32
          ∧ t.dev.get Reg.TIM_TXQ_CTRL_LEVEL = q.length % 32
          ∧ t = { s with dev := { s.dev with regs := t.dev.regs, tm := { s.dev.tm with txq := q } } }
          ∧ RegsKeepAll [Reg.TIM_TXQ_ENTRY_VALID.key, Reg.TIM_TXQ_ENTRY_ID.key, Reg.TIM_TXQ_ENTRY_LANE.key, Reg.TIM_TXQ_FI_FI.key,
              Reg.TIM_TXQ_OFS_OFS.key, Reg.TIM_TXQ_CTRL_LEVEL.key] s.dev t.dev)
      ∧ ∀ (src : Source) (s : State), Passes s.dev src 0x1090 → s.dev.tm.txq = [] →
        Answers (.txqPop src) s fun t =>
          t.dev.get Reg.TIM_TXQ_ENTRY_VALID = 0 ∧ t = { s with dev := { s.dev with regs := t.dev.regs } }
          ∧ RegsKeepAll [Reg.TIM_TXQ_ENTRY_VALID.key] s.dev t.dev)
    ∧ (
    ∀ (cyc : Nat) (s : State), s.dev.up = true → 0 ≤ s.dev.edge cyc → s.dev.edge cyc < 2 ^ 48 * 65536000000000 →
      Answers (.timNowCapture cyc) s fun t =>
        ((t.dev.get Reg.TIM_NOW_SEC_LO_SEC_LO + 2 ^ 32 * t.dev.get Reg.TIM_NOW_SEC_HI_SEC_HI : Nat) : Int) * 65536000000000
            + (t.dev.get Reg.TIM_NOW_NS_NS : Int) * 65536 + (t.dev.get Reg.TIM_NOW_SEC_HI_FRAC : Int) = s.dev.edge cyc
        ∧ t.dev.get Reg.TIM_NOW_NS_NS < 1000000000
        ∧ (t.dev.get Reg.TIM_NOW_FI_FI : Int) = s.dev.edge cyc / 65536000 % 2 ^ 32
        ∧ t = { s with dev := { s.dev with regs := t.dev.regs } }
        ∧ RegsKeepAll [Reg.TIM_NOW_SEC_LO_SEC_LO.key, Reg.TIM_NOW_SEC_HI_SEC_HI.key, Reg.TIM_NOW_NS_NS.key, Reg.TIM_NOW_SEC_HI_FRAC.key,
            Reg.TIM_NOW_FI_FI.key] s.dev t.dev)


/-- PREFER_SWITCH, HOLD_REQ and FREE_DECLARE are writes of TIM_CTRL: a domain that will be selected anyway is taken as PREFER; a QUALIFIED one,
or with FORCE a TRACKING one, is switched to at the next boundary; any other is refused. HOLD_REQ and FREE set their bits and leave the rest. DOM_CFG_WRITE: a port the domain may not use leaves PORT as it was and sets CFG_ERR; a domain without ENABLE is OFF; one newly enabled
or on a new port starts in WAIT with its offset unknown; otherwise its state stays. (R59, R61, R62, R72, R79.) -/
def Obligations.TimeControlWrites : Prop :=
  (
    (∀ (src : Source) (v : Word) (s : State), Passes s.dev src 0x1000 →
        Answers (.preferSwitch src v) s fun t =>
          (let p := bits v.toNat 2 1
           let force := bitOf v.toNat 3
           let next := match s.dev.tm.swPend with
             | some k => k
             | none => if bitOf v.toNat 1 = true ∧ s.dev.domState s.dev.selected = 4 ∧ s.dev.domState (1 - s.dev.selected) = 3
                       then 1 - s.dev.selected else s.dev.selected
           (p = next → t.dev.get Reg.TIM_CTRL_PREFER = p ∧ t.dev.tm = s.dev.tm)
           ∧ (p ≠ next → (s.dev.domState p = 3 ∨ force = true ∧ s.dev.domState p = 2) →
               t.dev.get Reg.TIM_CTRL_PREFER = p ∧ t.dev.tm = { s.dev.tm with swPend := some p })
           ∧ (p ≠ next → ¬ (s.dev.domState p = 3 ∨ force = true ∧ s.dev.domState p = 2) →
               t.dev.get Reg.TIM_CTRL_PREFER = s.dev.get Reg.TIM_CTRL_PREFER ∧ t.dev.get Reg.TIM_CTRL_SWITCH_REFUSED = 1 ∧ t.dev.tm = s.dev.tm))
          ∧ t.dev.get Reg.TIM_CTRL_SERVO_EN = bits v.toNat 0 1 ∧ t.dev.get Reg.TIM_CTRL_AUTO_SWITCH = bits v.toNat 1 1
          ∧ t.dev.get Reg.TIM_CTRL_HOLD_REQ = bits v.toNat 4 1 ∧ t.dev.get Reg.TIM_CTRL_FREE = bits v.toNat 5 1
          ∧ t.dev.get Reg.TIM_CTRL_PHASE_AVG_K = bits v.toNat 8 5
          ∧ t = { s with dev := { s.dev with regs := t.dev.regs, tm := t.dev.tm } }
          ∧ RegsKeepAll [Reg.TIM_CTRL_SERVO_EN.key, Reg.TIM_CTRL_AUTO_SWITCH.key, Reg.TIM_CTRL_PREFER.key, Reg.TIM_CTRL_HOLD_REQ.key,
              Reg.TIM_CTRL_FREE.key, Reg.TIM_CTRL_PHASE_AVG_K.key, Reg.TIM_CTRL_SWITCH_REFUSED.key] s.dev t.dev)
      ∧ (∀ (src : Source) (b : Bool) (s : State), Passes s.dev src 0x1000 →
        Answers (.holdReq src b) s fun t =>
          t.dev.flag Reg.TIM_CTRL_HOLD_REQ = b ∧ t = { s with dev := { s.dev with regs := t.dev.regs } }
          ∧ RegsKeepAll [Reg.TIM_CTRL_HOLD_REQ.key] s.dev t.dev)
      ∧ ∀ (src : Source) (s : State), Passes s.dev src 0x1000 →
        Answers (.freeDeclare src) s fun t =>
          t.dev.flag Reg.TIM_CTRL_FREE = true ∧ t = { s with dev := { s.dev with regs := t.dev.regs } }
          ∧ RegsKeepAll [Reg.TIM_CTRL_FREE.key] s.dev t.dev)
    ∧ (
    ∀ (src : Source) (k : Nat) (v : Word) (s : State), k < 2 → Passes s.dev src (0x1030 + 4 * k) →
      Answers (.domCfgWrite src k v) s fun t =>
        (let port := bits v.toNat 0 6
         let old := s.dev.get (Reg.TIM_DOM_CFG_PORT k)
         (s.dev.portOk k port = false →
            t.dev.get (Reg.TIM_DOM_CFG_PORT k) = old ∧ t.dev.get (Reg.TIM_DOM_CFG_CFG_ERR k) = 1)
         ∧ (s.dev.portOk k port = true → t.dev.get (Reg.TIM_DOM_CFG_PORT k) = port)
         ∧ (bitOf v.toNat 6 = false → t.dev.domState k = 0 ∧ t.dev.domOfs k = 0x80000000)
         ∧ (bitOf v.toNat 6 = true → s.dev.domState k = 0 → t.dev.domState k = 1 ∧ t.dev.domOfs k = 0x80000000)
         ∧ (bitOf v.toNat 6 = true → port ≠ old → s.dev.portOk k port = true → t.dev.domState k = 1 ∧ t.dev.domOfs k = 0x80000000)
         ∧ (bitOf v.toNat 6 = true → (port = old ∨ s.dev.portOk k port = false) → s.dev.domState k ≠ 0 →
            t.dev.domState k = s.dev.domState k ∧ t.dev.tm = s.dev.tm)
         ∧ (bitOf v.toNat 6 = true → port = 63 → old ≠ 63 → s.dev.portOk k port = true → t.dev.get (Reg.TIM_DOM_DELAY_DELAY k) = 0))
        ∧ t.dev.get (Reg.TIM_DOM_CFG_ENABLE k) = bits v.toNat 6 1 ∧ t.dev.get (Reg.TIM_DOM_CFG_EXPECT_ID k) = bits v.toNat 8 8
        ∧ t.dev.get (Reg.TIM_DOM_CFG_LOST_TIMEOUT k) = bits v.toNat 16 8 ∧ t.dev.domState (1 - k) = s.dev.domState (1 - k)
        ∧ t = { s with dev := { talked s.dev t.dev with
                  tm := { s.dev.tm with watch := t.dev.tm.watch, doms := t.dev.tm.doms,
                                        pps := { s.dev.tm.pps with lastFn := t.dev.tm.pps.lastFn } } } }
        ∧ RegsKeep [(Reg.TIM_DOM_CFG_PORT k).key, (Reg.TIM_DOM_CFG_ENABLE k).key, (Reg.TIM_DOM_CFG_CFG_ERR k).key,
            (Reg.TIM_DOM_CFG_EXPECT_ID k).key, (Reg.TIM_DOM_CFG_LOST_TIMEOUT k).key, (Reg.TIM_DOM_OFS_OFS k).key, (Reg.TIM_DOM_DELAY_DELAY k).key, (domStateFld k).key,
            Reg.TIM_STATUS_ASYM_WATCH.key] s.dev t.dev)

/-! ### Registers without a row of their own, and the rows that are the same writes -/

/-- GLB_ROLE_CFG_WRITE and GLB_DEVICE_NUMBER_WRITE: a mask that leaves the role no uplink is refused with CFG_REFUSED; any other value reads
back at once and waits for the next boundary, so nothing in force changes yet. A write of the mask in a front-end is checked against the stream budget
and raises an event of class 0x04 either way. (R38, R40, R41.) -/
def Obligations.GlobalWritesWaitForTheBoundary : Prop :=
  (∀ (src : Source) (v : Word) (s : State), Passes s.dev src 0x0104 →
      (s.dev.role = .frontEnd ∧ v.toNat % 16 = 0 ∨ s.dev.role = .cell ∧ v.toNat % 256 = 0) →
      Answers (.glbRoleCfgWrite src v) s fun t =>
        t.dev.get Reg.GLB_ROLE_STATUS_CFG_REFUSED = 1
        ∧ (s.dev.role = .frontEnd → s.dev.mg.ownQ.length < s.dev.upQueue →
            t.dev.mg.ownQ.map (fun m => (m.kind, nth (natsOf m.body) 0 / 256 % 256)) =
              s.dev.mg.ownQ.map (fun m => (m.kind, nth (natsOf m.body) 0 / 256 % 256)) ++ [(3, 4)])
        ∧ (s.dev.role ≠ .frontEnd → t = { s with dev := { s.dev with regs := t.dev.regs } })
        ∧ t = { s with dev := talked s.dev t.dev }
        ∧ RegsKeep [Reg.GLB_ROLE_STATUS_CFG_REFUSED.key] s.dev t.dev)
    ∧ (∀ (src : Source) (v : Word) (s : State), Passes s.dev src 0x0104 →
      ¬ (s.dev.role = .frontEnd ∧ v.toNat % 16 = 0 ∨ s.dev.role = .cell ∧ v.toNat % 256 = 0) →
      Answers (.glbRoleCfgWrite src v) s fun t =>
        t.dev.get Reg.GLB_ROLE_CFG_UPLINK_MASK = bits v.toNat 0 8 ∧ t.dev.queue = s.dev.queue ++ [.reg src 0x0104 v]
        ∧ (s.dev.role = .frontEnd → s.dev.mg.ownQ.length < s.dev.upQueue →
            t.dev.mg.ownQ.map (fun m => (m.kind, nth (natsOf m.body) 0 / 256 % 256)) =
              s.dev.mg.ownQ.map (fun m => (m.kind, nth (natsOf m.body) 0 / 256 % 256)) ++ [(3, 4)])
        ∧ (s.dev.role ≠ .frontEnd → t = { s with dev := { s.dev with regs := t.dev.regs, queue := t.dev.queue } })
        ∧ t.dev.eff Reg.GLB_ROLE_CFG_UPLINK_MASK = s.dev.eff Reg.GLB_ROLE_CFG_UPLINK_MASK
        ∧ t = { s with dev := { talked s.dev t.dev with queue := t.dev.queue } }
        ∧ RegsKeep [Reg.GLB_ROLE_CFG_UPLINK_MASK.key] s.dev t.dev)
    ∧ ∀ (src : Source) (v : Word) (s : State), Passes s.dev src 0x0108 →
      Answers (.glbDeviceNumberWrite src v) s fun t =>
        t.dev.get Reg.GLB_DEVICE_NUMBER_DEVNUM = bits v.toNat 0 16 ∧ t.dev.get Reg.GLB_DEVICE_NUMBER_VALID = bits v.toNat 16 1
        ∧ t.dev.devnum = s.dev.devnum ∧ t.dev.numbered = s.dev.numbered ∧ t.dev.queue = s.dev.queue ++ [.reg src 0x0108 v]
        ∧ t = { s with dev := { s.dev with regs := t.dev.regs, queue := t.dev.queue } }
        ∧ RegsKeepAll [Reg.GLB_DEVICE_NUMBER_DEVNUM.key, Reg.GLB_DEVICE_NUMBER_VALID.key] s.dev t.dev

/-- REGISTER_WRITE, access by access: a register the role does not use and a read-only word take nothing; a plain field reads back as
written; a 1 clears a W1C bit and a 0 leaves it; the locked staging address keeps its value; and bits [1:0] of the address count for nothing. A register that has a row of its own is written by REGISTER_WRITE as by that row. (R14, R545, R546, R548, R551.) -/
def Obligations.RegisterWrites : Prop :=
  (
    ∀ (src : Source) (v : Word) (s : State),
      (∀ a : Nat, s.dev.role.usesReg (wholeAddr a) = false → Passes s.dev src (wholeAddr a) → exec (.registerWrite src a v) s = .next s)
      ∧ (∀ a : Nat, exec (.registerWrite src a v) s = exec (.registerWrite src (wholeAddr a) v) s)
      ∧ (Passes s.dev src 0x001C → exec (.registerWrite src 0x001C v) s = .next s)
      ∧ (Passes s.dev src 0x1060 → Answers (.registerWrite src 0x1060 v) s fun t =>
          t.dev.get Reg.TIM_SRC_CFG_DOMAIN_ID = bits v.toNat 0 8 ∧ t.dev.get Reg.TIM_SRC_CFG_PPS_POL = bits v.toNat 8 1
          ∧ t.dev.get Reg.TIM_SRC_CFG_TOD_EN = bits v.toNat 9 1 ∧ t = { s with dev := { s.dev with regs := t.dev.regs } }
          ∧ RegsKeepAll [Reg.TIM_SRC_CFG_DOMAIN_ID.key, Reg.TIM_SRC_CFG_PPS_POL.key, Reg.TIM_SRC_CFG_TOD_EN.key] s.dev t.dev)
      ∧ (Passes s.dev src 0x1004 → Answers (.registerWrite src 0x1004 v) s fun t =>
          t.dev.flag Reg.TIM_STATUS_TOD_MISMATCH = (s.dev.flag Reg.TIM_STATUS_TOD_MISMATCH && s.dev.get Reg.TIM_STATUS_TOD_MISMATCH % 2 == 1 && !bitOf v.toNat 12)
          ∧ t.dev.clkState = s.dev.clkState ∧ t = { s with dev := { s.dev with regs := t.dev.regs } }
          ∧ RegsKeepAll [Reg.TIM_STATUS_TOD_MISMATCH.key, Reg.TIM_STATUS_PPS_OUT_OF_BAND.key, Reg.TIM_STATUS_STEPPED.key] s.dev t.dev)
      ∧ (Passes s.dev src 0xD010 → Answers (.registerWrite src 0xD010 v) s fun t =>
          t.dev.get Reg.HM_PROG_ADDR_WORD
            = (if s.dev.flag Reg.HM_STATUS_RWL_LOCKED = true then s.dev.get Reg.HM_PROG_ADDR_WORD else bits v.toNat 0 4)
          ∧ t = { s with dev := { s.dev with regs := t.dev.regs } } ∧ RegsKeepAll [Reg.HM_PROG_ADDR_WORD.key] s.dev t.dev))
    ∧ (
    ∀ (src : Source) (v : Word) (s : State),
      exec (.registerWrite src 0x0104 v) s = exec (.glbRoleCfgWrite src v) s
      ∧ exec (.registerWrite src 0x0108 v) s = exec (.glbDeviceNumberWrite src v) s
      ∧ exec (.registerWrite src 0x1000 v) s = exec (.preferSwitch src v) s
      ∧ exec (.registerWrite src 0x1030 v) s = exec (.domCfgWrite src 0 v) s
      ∧ exec (.registerWrite src 0x1034 v) s = exec (.domCfgWrite src 1 v) s
      ∧ (s.dev.role = .frontEnd → exec (.registerWrite src 0x36A4 v) s = exec (.trgMaskDataWrite src v) s)
      ∧ (s.dev.role = .frontEnd → ∀ k < 4, exec (.registerWrite src (0x3700 + 8 * k) v) s = exec (.streamCfgWrite src k v) s)
      ∧ (∀ l < 48, s.dev.role.usesLane l = true → exec (.registerWrite src (0x5024 + 0x80 * l) v) s = exec (.eyeScanStart src l v) s)
      ∧ exec (.registerWrite src 0x710C v) s = exec (.retireStart src v) s
      ∧ (s.dev.role ≠ .frontEnd → s.dev.role ≠ .noRole → exec (.registerWrite src 0x8024 v) s = exec (.routeDataWrite src v) s)
      ∧ (s.dev.role = .hub → exec (.registerWrite src 0x9000 v) s = exec (.hrCtrlWrite src v) s)
      ∧ exec (.registerWrite src 0xA010 v) s = exec (.pwrMemCtrlWrite src v) s
      ∧ exec (.registerWrite src 0xA050 v) s = exec (.pwrReleaseWrite src v) s
      ∧ exec (.registerWrite src 0xB000 v) s = exec (.hkEnable src v) s
      ∧ exec (.registerWrite src 0xB028 v) s = exec (.hkMonCfgWrite src v) s
      ∧ exec (.registerWrite src 0xD014 v) s = exec (.hmProgDataWrite src v) s
      ∧ (bitOf v.toNat 0 = true → exec (.registerWrite src 0xD01C v) s = exec (.program src) s)
      ∧ (bitOf v.toNat 0 = true → exec (.registerWrite src 0xA054 v) s = exec (.holdReqWrite src) s))


/-! ### Power, reset and the role -/

/-- VIN_VALID from no power and NRESET_RELEASE from reset: the hallmark's words are read by majority into the identity, seal and permission
fields, the self-test's findings are shown, no stored bit is in error, no write waits, and the device waits for step 3; antifuses and
ledger are untouched. (R430, R518, R529, R550, R579.) -/
def Obligations.PowerUpReadsTheHallmark : Prop :=
  ∀ (c : Instr) (test : SelfTest) (s : State),
    (c = .vinValid test ∧ s.dev.boot = .off ∨ c = .nresetRelease test ∧ s.dev.boot = .resetHeld) →
    Answers c s fun t =>
      t.dev.boot = .waiting ∧ t.dev.get Reg.ID_SERIAL_LO_SERIAL_LO = s.fuses.word 0 % 2 ^ 32
      ∧ t.dev.get Reg.ID_SERIAL_HI_SERIAL_HI = s.fuses.word 1 % 2 ^ 32 ∧ t.dev.get Reg.ID_LOT_LOT = s.fuses.word 2 % 2 ^ 24
      ∧ t.dev.flag Reg.HM_STATUS_SEALED = bitOf (s.fuses.word 140) 0 ∧ t.dev.flag Reg.HM_STATUS_RWL_LOCKED = bitOf (s.fuses.word 140) 0
      ∧ t.dev.get Reg.GLB_ROLE_STATUS_PERMITTED = 7 - (if bitOf (s.fuses.word 140) 0 then s.fuses.word 128 else 0) % 8
      ∧ t.dev.flag Reg.GLB_BRINGUP_STATUS_RAILS_OK = true ∧ t.dev.flag Reg.GLB_BRINGUP_STATUS_HM_READ_DONE = true
      ∧ t.dev.flag Reg.GLB_BRINGUP_STATUS_REF_WAIT = !s.dev.pins.refPresent
      ∧ t.dev.get Reg.FLT_SELFTEST_BANK_FAIL = test.banks % 2 ^ 16 ∧ t.dev.get Reg.FLT_SELFTEST_LQ_FAIL = test.lqs % 2 ^ 12
      ∧ t.dev.flag Reg.FLT_SELFTEST_SMALL_MEM_FAIL = test.smallMem ∧ t.dev.flag Reg.FLT_SELFTEST_CORE_FAIL = test.core
      ∧ t.dev.flag Reg.FLT_SELFTEST_DONE = true ∧ t.dev.get Reg.GLB_ROLE_STATUS_STRAP_LIVE = s.dev.pins.strap % 4
      ∧ t.dev.get Reg.GLB_ROLE_STATUS_ACTIVE_ROLE = 3 ∧ t.dev.flag Reg.GLB_ROLE_STATUS_ROLE_FIXED = false
      ∧ t.dev.queue = [] ∧ t.dev.ledger = s.dev.ledger ∧ t.ecc = [] ∧ t.fuses = s.fuses ∧ t.pending = s.pending

/-- CONVERTER_STOP, RAIL_LIMIT_TRIP and NRESET_ASSERT of a powered device: every register at its reset value, nothing waiting, no stored bit in
error; the ledger stays, and so do the antifuses unless a sealing session was running. (R477, R550, R579, R586.) -/
def Obligations.LossOfPowerAndReset : Prop :=
  ∀ (c : Instr) (k : Nat) (s : State), s.dev.boot ≠ .off → (c = .converterStop k ∨ c = .railLimitTrip k ∨ c = .nresetAssert k) →
    Answers c s fun t =>
      t.dev.boot = (if c = .nresetAssert k then .resetHeld else .off) ∧ t.dev.pins.pgood = decide (c = .nresetAssert k)
      ∧ t.dev.regs = [] ∧ t.dev.force = [] ∧ t.dev.queue = [] ∧ t.dev.lanes = [] ∧ t.dev.rcd = Dev.reset.rcd ∧ t.dev.hr = Dev.reset.hr
      ∧ t.dev.acq = Dev.reset.acq ∧ t.dev.tm = Dev.reset.tm ∧ t.dev.hm = Dev.reset.hm ∧ t.dev.flt = Dev.reset.flt
      ∧ t.dev.mg = Dev.reset.mg ∧ t.dev.mrg = Dev.reset.mrg ∧ t.dev.cross = [] ∧ t.dev.hk = Dev.reset.hk ∧ t.dev.pw = Dev.reset.pw
      ∧ t.ecc = [] ∧ t.dev.ledger = s.dev.ledger ∧ t.dev.pins.strap = s.dev.pins.strap ∧ t.dev.pins.refPresent = s.dev.pins.refPresent
      ∧ (s.dev.hm.sealing = false → t.fuses = s.fuses) ∧ t.pending = s.pending

/-- ROLE_FIXED of a device that waits with REFCLK present: the straps are latched and ROLE_FIXED set; a role that the part does not permit, the
fourth strap value or a hallmark with a bad CRC is refused and the device held with no role; so is the device with FATAL where the self-test failed in
the small memories or the core; otherwise a permitted role of a part with no failed memory bank is taken, and the device runs in it. (R18, R19, R518.) -/
def Obligations.RoleFixedTakesOrRefusesTheRole : Prop :=
  ∀ s : State, s.dev.boot = .waiting → s.dev.pins.refPresent = true →
    (∀ r : Nat, r = s.dev.pins.strap % 4 →
      (s.dev.flag Reg.HM_STATUS_CRC_FAIL = true ∨ r = 3 ∨ bitOf (s.dev.get Reg.GLB_ROLE_STATUS_PERMITTED) r = false) →
      Answers .roleFixed s fun t =>
        t.dev.boot = .held ∧ t.dev.role = .noRole ∧ t.dev.get Reg.GLB_ROLE_STATUS_ROLE_REFUSED = 1 ∧ t.dev.alert = true
        ∧ t.dev.get Reg.GLB_ROLE_STATUS_STRAP_LATCHED = r ∧ t.dev.get Reg.GLB_ROLE_STATUS_ROLE_FIXED = 1
        ∧ t = { s with dev := { s.dev with regs := t.dev.regs, ledger := t.dev.ledger, boot := .held } }
        ∧ RegsKeepAll [Reg.GLB_ROLE_STATUS_ACTIVE_ROLE.key, Reg.GLB_ROLE_STATUS_ROLE_REFUSED.key, Reg.GLB_ROLE_STATUS_STRAP_LATCHED.key,
            Reg.GLB_ROLE_STATUS_ROLE_FIXED.key, Reg.GLB_BRINGUP_STATUS_ROLE_FIXED.key, Reg.LDG_STATUS_NEXT_SLOT.key] s.dev t.dev)
    ∧ ∀ r : Nat, r = s.dev.pins.strap % 4 → r ≠ 3 → s.dev.flag Reg.HM_STATUS_CRC_FAIL = false →
      bitOf (s.dev.get Reg.GLB_ROLE_STATUS_PERMITTED) r = true →
      (s.dev.hm.test.smallMem = true ∨ s.dev.hm.test.core = true →
        Answers .roleFixed s fun t =>
          t.dev.boot = .held ∧ t.dev.role = .noRole ∧ t.dev.get Reg.FLT_SELFTEST_FATAL = 1 ∧ t.dev.alert = true
          ∧ t = { s with dev := { s.dev with regs := t.dev.regs, ledger := t.dev.ledger, boot := .held } })
      ∧ (s.dev.hm.test.smallMem = false → s.dev.hm.test.core = false → s.dev.hm.test.banks = 0 →
      Answers .roleFixed s fun t =>
        t.dev.boot = .running ∧ t.dev.get Reg.GLB_ROLE_STATUS_ACTIVE_ROLE = r ∧ t.dev.get Reg.GLB_ROLE_STATUS_STRAP_LATCHED = r
        ∧ t.dev.get Reg.GLB_ROLE_STATUS_ROLE_FIXED = 1 ∧ t.dev.rcd.pool = (if r = 2 then 1024 else 256)
        ∧ t.dev.pw.ramp = (if r = 0 then List.range 48 else s.dev.pw.ramp)
        ∧ t.fuses = s.fuses ∧ t.ecc = s.ecc ∧ t.pending = s.pending)

/-- The reference clock and the straps: a device that waits shows REF_WAIT while REFCLK is absent, and ALERT once the wait is too long; a
running device records the loss as a cause bit, and after the return waits for the PLL to relock, when every channel's samples stay
provisional for the 32 frames after the present one. A strap change only shows in STRAP_LIVE. (R18, R527, R528.) -/
def Obligations.ReferenceClockAndStraps : Prop :=
  (∀ s : State, s.dev.boot = .waiting → s.dev.pins.refPresent = false →
      exec .refWaitAlert s = .next { s with dev := { s.dev with pins := { s.dev.pins with refAlert := true } } })
    ∧ (∀ s : State, s.dev.boot = .waiting → s.dev.pins.refPresent = true →
      Answers .refclkLost s fun t =>
        t.dev.flag Reg.GLB_BRINGUP_STATUS_REF_WAIT = true
        ∧ t = { s with dev := { s.dev with
                  regs := t.dev.regs, pins := { s.dev.pins with refPresent := false, refRelock := false, refLostFn := some s.dev.fn } } }
        ∧ RegsKeepAll [Reg.GLB_BRINGUP_STATUS_REF_WAIT.key] s.dev t.dev)
    ∧ (∀ s : State, s.dev.boot = .running → s.dev.pins.refPresent = true →
      Answers .refclkLost s fun t =>
        t.dev.flag Reg.FLT_STATUS_REF_LOST = true
        ∧ t = { s with dev := { talked s.dev t.dev with
                  pins := { s.dev.pins with refPresent := false, refRelock := false, refLostFn := some s.dev.fn }, hk := t.dev.hk, free := t.dev.free } }
        ∧ RegsKeep [Reg.FLT_STATUS_REF_LOST.key, Reg.FLT_STATUS_BEYOND_MODEL.key, Reg.HK_STATUS_PHASE.key] s.dev t.dev)
    ∧ (∀ s : State, s.dev.boot = .waiting → s.dev.pins.refPresent = false →
      Answers .refclkReturn s fun t =>
        t.dev.flag Reg.GLB_BRINGUP_STATUS_REF_WAIT = false
        ∧ t = { s with dev := { s.dev with
                  regs := t.dev.regs, pins := { s.dev.pins with refPresent := true, refRelock := false, refAlert := false, refLostFn := none } } }
        ∧ RegsKeepAll [Reg.GLB_BRINGUP_STATUS_REF_WAIT.key] s.dev t.dev)
    ∧ (∀ (f : Nat) (s : State), s.dev.boot = .running → s.dev.pins.refPresent = false → s.dev.pins.refLostFn = some f →
      exec .refclkReturn s = .next { s with dev := { s.dev with
        pins := { s.dev.pins with refPresent := true, refRelock := true, refAlert := false, refLostFn := some (s.dev.fn - f) } } })
    ∧ (∀ s : State, s.dev.boot = .running → s.dev.pins.refRelock = true →
      Answers .pllRelock s fun t =>
        t.dev.pins = { s.dev.pins with refRelock := false, refLostFn := none }
        ∧ (∀ n : Nat, n < 48 → t.dev.chan n = { s.dev.chan n with provUntil := max (s.dev.chan n).provUntil (s.dev.fn + 33) })
        ∧ (s.dev.hkPhase ≠ 7 → t.dev.hk = s.dev.hk ∧ t.dev.free = s.dev.free ∧ t.dev.hkPhase = s.dev.hkPhase)
        ∧ t = { s with dev := { talked s.dev t.dev with
                  pins := t.dev.pins, hk := t.dev.hk, free := t.dev.free, acq := { s.dev.acq with chans := t.dev.acq.chans } } }
        ∧ RegsKeep [Reg.HK_STATUS_PHASE.key] s.dev t.dev)
    ∧ ∀ (v : Nat) (s : State), s.dev.boot ≠ .off → s.dev.boot ≠ .resetHeld →
      Answers (.roleStrapChange v) s fun t =>
        t.dev.get Reg.GLB_ROLE_STATUS_STRAP_LIVE = v % 4
        ∧ t = { s with dev := { s.dev with regs := t.dev.regs, pins := { s.dev.pins with strap := v % 4 } } }
        ∧ RegsKeepAll [Reg.GLB_ROLE_STATUS_STRAP_LIVE.key] s.dev t.dev

/-! ### Sealing -/

/-- HM_PROG_DATA_WRITE puts the word at the staging address, which moves on to at most 10; PROGRAM is refused with the first of its conditions
that fails, in the order of RESULT, and starts the session when none does. SEAL_DONE of a running session: after a good read-back SEALED is blown in all three copies, RESULT reads 0 and the RWL registers are locked;
after a failed one RESULT reads 6 and SEALED is as it was. BUSY clears either way, and without a session nothing happens. (R533, R541, R542.) -/
def Obligations.StagingProgramAndSealing : Prop :=
  (
    (∀ (src : Source) (v : Word) (s : State), Passes s.dev src 0xD014 → s.dev.flag Reg.HM_STATUS_RWL_LOCKED = false →
        s.dev.get Reg.HM_PROG_ADDR_WORD ≤ 10 →
        Answers (.hmProgDataWrite src v) s fun t =>
          t.dev.stageWord (s.dev.get Reg.HM_PROG_ADDR_WORD) = v.toNat
          ∧ t.dev.get Reg.HM_PROG_ADDR_WORD = min 10 (s.dev.get Reg.HM_PROG_ADDR_WORD + 1)
          ∧ (∀ k, k ≠ s.dev.get Reg.HM_PROG_ADDR_WORD → t.dev.stageWord k = s.dev.stageWord k)
          ∧ t = { s with dev := { s.dev with regs := t.dev.regs, hm := { s.dev.hm with stage := t.dev.hm.stage } } }
          ∧ RegsKeepAll [Reg.HM_PROG_ADDR_WORD.key] s.dev t.dev)
      ∧ (∀ (src : Source) (s : State), Passes s.dev src 0xD01C → s.dev.flag Reg.HM_PROG_CTRL_BUSY = false →
        Answers (.program src) s fun t =>
          (let conds : List (Nat × Bool) :=
            [(1, src != .spi && src != .pcie), (2, s.dev.get Reg.HM_PROG_CONFIRM_SERIAL_LO != s.dev.get Reg.ID_SERIAL_LO_SERIAL_LO),
             (3, decide (s.dev.get Reg.PWR_INPUT_VIN_MV < 10000 ∨ s.dev.tj < 0 ∨ 1360 < s.dev.tj)), (4, bitOf (s.fuses.word 140) 0),
             (5, (List.range 11).any fun k => (List.range 32).any fun b => bitOf (s.fuses.word (128 + k)) b && !bitOf (s.dev.stageWord k) b)]
           (∀ c ∈ conds, c.2 = true → (∀ e ∈ conds, e.1 < c.1 → e.2 = false) →
              (∀ w < 256, s.fuses.word w < 2 ^ 32) → (∀ k, s.dev.stageWord k < 2 ^ 32) →
              t.dev.get Reg.HM_PROG_CTRL_RESULT = c.1 ∧ t.dev.hm = s.dev.hm ∧ t.dev.flag Reg.HM_PROG_CTRL_BUSY = false)
           ∧ ((∀ e ∈ conds, e.2 = false) → (∀ w < 256, s.fuses.word w < 2 ^ 32) → (∀ k, s.dev.stageWord k < 2 ^ 32) →
              t.dev.flag Reg.HM_PROG_CTRL_BUSY = true ∧ t.dev.hm = { s.dev.hm with sealing := true }))
          ∧ t = { s with dev := { s.dev with regs := t.dev.regs, hm := t.dev.hm } }
          ∧ RegsKeepAll [Reg.HM_PROG_CTRL_RESULT.key, Reg.HM_PROG_CTRL_BUSY.key] s.dev t.dev)
      ∧ ∀ (src : Source) (s : State), Passes s.dev src 0xD01C → s.dev.flag Reg.HM_PROG_CTRL_BUSY = true → exec (.program src) s = .next s)
    ∧ (
    (∀ s : State, s.dev.hm.sealing = true →
        Answers (.sealDone true) s fun t =>
          bitOf (getT 0 140 t.fuses.a) 0 = true ∧ bitOf (getT 0 140 t.fuses.b) 0 = true ∧ bitOf (getT 0 140 t.fuses.c) 0 = true
          ∧ t.dev.get Reg.HM_PROG_CTRL_RESULT = 0 ∧ t.dev.flag Reg.HM_PROG_CTRL_BUSY = false ∧ t.dev.flag Reg.HM_STATUS_RWL_LOCKED = true
          ∧ t = { s with fuses := t.fuses, dev := { s.dev with regs := t.dev.regs, hm := { s.dev.hm with sealing := false } } }
          ∧ RegsKeepAll [Reg.HM_PROG_CTRL_RESULT.key, Reg.HM_PROG_CTRL_BUSY.key, Reg.HM_STATUS_RWL_LOCKED.key] s.dev t.dev)
      ∧ (∀ s : State, s.dev.hm.sealing = true →
        Answers (.sealDone false) s fun t =>
          t.fuses.word 140 = s.fuses.word 140 ∧ t.dev.get Reg.HM_PROG_CTRL_RESULT = 6 ∧ t.dev.flag Reg.HM_PROG_CTRL_BUSY = false
          ∧ t.dev.flag Reg.HM_STATUS_RWL_LOCKED = s.dev.flag Reg.HM_STATUS_RWL_LOCKED
          ∧ t = { s with fuses := t.fuses,
                         dev := { s.dev with regs := t.dev.regs, free := t.dev.free, hm := { s.dev.hm with sealing := false } } })
      ∧ ∀ (b : Bool) (s : State), s.dev.hm.sealing = false → exec (.sealDone b) s = .next s)

/-! ### Calibration -/

/-- FG_CAL_START: once the wait of R104 is over, every channel that is ON stops acquiring and begins its foreground calibration; a channel with a
calibration of its own due begins alone, and no other channel changes. FG_CAL_DONE for a channel whose 160 ms have passed: results inside the accepted bands become the factors in force and the ones read, and
the channel leaves the nominal ones; results outside leave every factor as it was, set CAL_FAIL and the quad's failure bit. Either way the
calibration is over. (R103, R104, R105.) -/
def Obligations.ForegroundCalibration : Prop :=
  (
    (∀ (r : Nat) (s : State), s.dev.up = true → s.dev.role = .frontEnd → s.dev.acq.fgDue = some r →
        r + 1000 * s.dev.get Reg.CH_CAL_CTRL_FG_WAIT ≤ s.dev.fn →
        Answers (.fgCalStart none) s fun t =>
          t.dev.acq.fgBoot = (List.range 48).filter s.dev.chanIsOn ∧ t.dev.acq.fgDue = none ∧ t.dev.acq.fgFn = some s.dev.fn
          ∧ (∀ n : Nat, n < 48 → s.dev.chanIsOn n = true →
              t.dev.get (Reg.CH_STATUS_CAL_ACTIVE n) = 1 ∧ (t.dev.chan n).calFn = some s.dev.fn ∧ (t.dev.chan n).acquiring = false)
          ∧ (∀ n : Nat, s.dev.chanIsOn n = false → t.dev.chan n = s.dev.chan n ∧ t.dev.get (Reg.CH_STATUS_CAL_ACTIVE n) = s.dev.get (Reg.CH_STATUS_CAL_ACTIVE n))
          ∧ t = { s with dev := { s.dev with regs := t.dev.regs, acq := t.dev.acq } })
      ∧ ∀ (n r : Nat) (s : State), n < 48 → s.dev.up = true → s.dev.role = .frontEnd → (s.dev.chan n).fgDue = some r →
        r + 1000 * s.dev.laterWait ≤ s.dev.fn → s.dev.chanIsOn n = true → s.dev.flag (Reg.CH_STATUS_CAL_ACTIVE n) = false →
        Answers (.fgCalStart (some n)) s fun t =>
          t.dev.get (Reg.CH_STATUS_CAL_ACTIVE n) = 1 ∧ (t.dev.chan n).calFn = some s.dev.fn ∧ (t.dev.chan n).fgDue = none
          ∧ (t.dev.chan n).acquiring = false ∧ (∀ m : Nat, m ≠ n → t.dev.chan m = s.dev.chan m)
          ∧ t = { s with dev := { s.dev with regs := t.dev.regs, acq := { s.dev.acq with chans := t.dev.acq.chans, fstats := t.dev.acq.fstats } } }
          ∧ RegsKeepAll [(Reg.CH_STATUS_CAL_ACTIVE n).key, (Reg.CH_MERGE_STATS_SEAMS n).key, (Reg.CH_MERGE_STATS_CLIPS n).key] s.dev t.dev)
    ∧ (
    ∀ (r : CalResult) (f : Nat) (s : State), r.n < 48 → s.dev.up = true → (s.dev.chan r.n).calFn = some f → f + 160000 ≤ s.dev.fn →
      Answers (.fgCalDone [r]) s fun t =>
        t.dev.get (Reg.CH_STATUS_CAL_ACTIVE r.n) = 0 ∧ (t.dev.chan r.n).calFn = none
        ∧ (s.dev.chanIsOn r.n = true → (t.dev.chan r.n).acquiring = true)
        ∧ (calOk r = true →
            t.dev.eff (Reg.CH_LG_GAIN_GL r.n) = r.gl ∧ t.dev.get (Reg.CH_LG_GAIN_GL r.n) = r.gl ∧ t.dev.effI (Reg.CH_LG_OFS_OL r.n) = r.ol
            ∧ t.dev.eff (Reg.CH_HG_GAIN_GH r.n) = r.gh ∧ t.dev.effI (Reg.CH_HG_OFS_OH r.n) = r.oh
            ∧ (t.dev.chan r.n).nominal = false ∧ (t.dev.chan r.n).calFailed = false ∧ (t.dev.chan r.n).dS = some r.ds
            ∧ (t.dev.chan r.n).subL = r.low ∧ (t.dev.chan r.n).subH = r.high ∧ (t.dev.chan r.n).discOfs = r.disc)
        ∧ (calOk r = false →
            t.dev.force = s.dev.force ∧ t.dev.get (Reg.CH_STATUS_CAL_FAIL r.n) = 1
            ∧ bitOf (t.dev.get Reg.CH_CAL_STATUS_FAIL_QUADS) (r.n / 4) = true ∧ (t.dev.chan r.n).calFailed = true
            ∧ (t.dev.chan r.n).nominal = (s.dev.chan r.n).nominal ∧ (t.dev.chan r.n).dS = (s.dev.chan r.n).dS
            ∧ (t.dev.chan r.n).subL = (s.dev.chan r.n).subL ∧ (t.dev.chan r.n).subH = (s.dev.chan r.n).subH
            ∧ (t.dev.chan r.n).discOfs = (s.dev.chan r.n).discOfs)
        ∧ (∀ m : Nat, m ≠ r.n → t.dev.chan m = s.dev.chan m)
        ∧ t = { s with dev := { talked s.dev t.dev with
                  force := t.dev.force, acq := { s.dev.acq with chans := t.dev.acq.chans, fstats := t.dev.acq.fstats, fgWait := t.dev.acq.fgWait } } }
        ∧ RegsKeep [(Reg.CH_STATUS_CAL_ACTIVE r.n).key, (Reg.CH_STATUS_CAL_FAIL r.n).key, Reg.CH_CAL_STATUS_FAIL_QUADS.key,
            Reg.CH_CAL_STATUS_FG_DONE.key, (Reg.CH_LG_GAIN_GL r.n).key, (Reg.CH_LG_OFS_OL r.n).key, (Reg.CH_HG_GAIN_GH r.n).key,
            (Reg.CH_HG_OFS_OH r.n).key, (Reg.CH_ALIGN_TRIM r.n).key, (Reg.CH_TDC_STATUS_ALIGN_RANGE r.n).key,
            (Reg.CH_TRG_STATUS_FILLED r.n).key] s.dev t.dev)


/-- RECAL_START waits for the next boundary unless a rotation is active or asked for or throttle actions are in force, when it is refused;
RECAL_ABORT drops what is to come; BG_CAL_SWAP, at the end of a slot, takes a sub-converter that agrees within ±4 codes for the next boundary, with GL and
OL where the converter is the low-gain one, and rejects any other, which has the next slot too. (R107, R108.) -/
def Obligations.RecalibrationRequests : Prop :=
  (∀ (src : Source) (q : Nat) (force : Bool) (s : State), Passes s.dev src 0x2C00 → s.dev.role = .frontEnd →
      Answers (.recalStart src q force) s fun t =>
        t.dev.get Reg.CH_CAL_CTRL_QUAD_MASK = q % 4096 ∧ t.dev.flag Reg.CH_CAL_CTRL_FORCE = force
        ∧ ((s.dev.flag Reg.CH_CAL_STATUS_ROT_ACTIVE = true ∨ s.dev.acq.rotReq.isSome = true ∨ s.dev.pw.throttle = true) →
            t.dev.get Reg.CH_CAL_STATUS_CAL_REFUSED = 1 ∧ t.dev.acq = s.dev.acq)
        ∧ (¬ (s.dev.flag Reg.CH_CAL_STATUS_ROT_ACTIVE = true ∨ s.dev.acq.rotReq.isSome = true ∨ s.dev.pw.throttle = true) →
            t.dev.get Reg.CH_CAL_STATUS_CAL_REFUSED = s.dev.get Reg.CH_CAL_STATUS_CAL_REFUSED
            ∧ t.dev.acq = { s.dev.acq with rotReq := some (q % 4096, force) })
        ∧ t = { s with dev := { s.dev with regs := t.dev.regs, acq := t.dev.acq } }
        ∧ RegsKeepAll [Reg.CH_CAL_CTRL_QUAD_MASK.key, Reg.CH_CAL_CTRL_FORCE.key, Reg.CH_CAL_STATUS_CAL_REFUSED.key] s.dev t.dev)
    ∧ (∀ (src : Source) (s : State), Passes s.dev src 0x2C00 → s.dev.role = .frontEnd →
      exec (.recalAbort src) s = .next { s with dev := { s.dev with acq := { s.dev.acq with rot := [], rotReq := none } } })
    ∧ ∀ (n : Nat) (high : Bool) (diff : Int) (gl : Nat) (ol : Int) (sub : SubCal) (b : Bg) (s : State), n < 48 → s.dev.up = true →
      s.dev.flag Reg.CH_CAL_STATUS_FG_DONE = true → s.dev.flag Reg.CH_BG_CFG_BG_EN = true → s.dev.pw.throttle = false →
      (s.dev.chan n).acquiring = true → gl < 2 ^ 24 → ol.natAbs < 2 ^ 19 →
      b = (if high then (s.dev.chan n).bgH else (s.dev.chan n).bgL) → b.slotFn + 1000 * max 1 (s.dev.get Reg.CH_BG_CFG_SLOT_MS) ≤ s.dev.fn + 1 →
      b.swap = none →
      Answers (.bgCalSwap n high diff gl ol sub) s fun t =>
        (diff.natAbs ≤ 4 → high = true → t.dev.chan n = { s.dev.chan n with bgH := { b with swap := some sub } })
        ∧ (diff.natAbs ≤ 4 → high = false →
            t.dev.chan n = { s.dev.chan n with bgL := { b with swap := some sub }, pendBg := some (gl, ol) })
        ∧ (diff.natAbs ≤ 4 → t.dev = { s.dev with acq := { s.dev.acq with chans := t.dev.acq.chans } })
        ∧ (4 < diff.natAbs → t.dev.get (Reg.CH_STATUS_BG_REJECT n) = 1
            ∧ t.dev.chan n = (if high then { s.dev.chan n with bgH := { b with slotFn := s.dev.fn + 1 } }
                              else { s.dev.chan n with bgL := { b with slotFn := s.dev.fn + 1 } }))
        ∧ (∀ m : Nat, m ≠ n → t.dev.chan m = s.dev.chan m)
        ∧ t = { s with dev := { talked s.dev t.dev with acq := { s.dev.acq with chans := t.dev.acq.chans } } }
        ∧ RegsKeep [(Reg.CH_STATUS_BG_REJECT n).key] s.dev t.dev

/-! ### Edge timing -/

/-- DISCRIMINATOR_HIT of an acquiring channel, whose input went down to `lo` and up to `hi` since the last (log entry 22): a direction arms when the input
passes the threshold by HYST; an armed direction that EDGE selects fires and is disarmed, and nothing else fires. A fire is a hit whose time estimate is its
slow edge less the path delays; its conversion runs when the TDC is locked, lent to nobody, enabled and idle for 160 slow edges; otherwise it counts as
busy, and as unavailable when the TDC cannot stamp at all. (R111, R127, R129, R130.) -/
def Obligations.DiscriminatorHits : Prop :=
  ∀ (n cyc j : Nat) (rising : Bool) (lo hi thr h : Int) (armR armF : Bool) (s : State), n < 48 → s.dev.up = true → s.dev.role = .frontEnd →
    (s.dev.chan n).acquiring = true → thr = s.dev.effI (Reg.CH_DISC_THRESH n) → h = 4 * s.dev.eff (Reg.CH_DISC_HYST n) →
    armR = ((s.dev.chan n).armR || decide (lo < thr - h)) → armF = ((s.dev.chan n).armF || decide (thr + h < hi)) →
    (((if rising then armR else armF) && bitOf (s.dev.eff (Reg.CH_DISC_EDGE n)) (if rising then 0 else 1)) = true →
      Answers (.discriminatorHit n rising cyc j lo hi) s fun t =>
        (let e := s.dev.edge cyc + (if s.dev.flag (Reg.CH_TDC_STATUS_SLOW_LOCK n) then 16384 * (j : Int) else 0)
         let count : Int := 16 * (floorDiv s.dev.acq.base 10 + cyc) + j
         let free := (match (s.dev.chan n).lastE with | some l => decide (l + 160 ≤ count) | none => true) && s.dev.flag (Reg.CH_TDC_CTRL_TDC_EN n)
         let st : HitState := if s.dev.tdcUnavail n then .unavail else if free then .converting e else .busy
         let est := e - s.dev.pathDelay n
         t.dev.chan n = { s.dev.chan n with
           hits := (s.dev.chan n).hits ++
             [{ rising := rising, est := est, cycFrom := (s.dev.cycleOf est).1, cycTo := (s.dev.cycleOf est).2, st := st }]
           lastE := if s.dev.tdcUnavail n = false ∧ free = true then some count else (s.dev.chan n).lastE
           armR := armR && !rising, armF := armF && rising }
         ∧ t.dev.get (Reg.CH_TDC_COUNTS_BUSY n) = (if s.dev.tdcUnavail n = true ∨ free = false then (s.dev.get (Reg.CH_TDC_COUNTS_BUSY n) + 1) % 65536
             else s.dev.get (Reg.CH_TDC_COUNTS_BUSY n))
         ∧ t.dev.get (Reg.CH_TDC_COUNTS_UNAVAIL n) = (if s.dev.tdcUnavail n = true then (s.dev.get (Reg.CH_TDC_COUNTS_UNAVAIL n) + 1) % 4096
             else s.dev.get (Reg.CH_TDC_COUNTS_UNAVAIL n)))
        ∧ (∀ m : Nat, m ≠ n → t.dev.chan m = s.dev.chan m)
        ∧ t = { s with dev := { s.dev with regs := t.dev.regs, acq := { s.dev.acq with chans := t.dev.acq.chans } } }
        ∧ RegsKeepAll [(Reg.CH_TDC_COUNTS_BUSY n).key, (Reg.CH_TDC_COUNTS_UNAVAIL n).key] s.dev t.dev)
    ∧ (((if rising then armR else armF) && bitOf (s.dev.eff (Reg.CH_DISC_EDGE n)) (if rising then 0 else 1)) = false →
      Answers (.discriminatorHit n rising cyc j lo hi) s fun t =>
        t.dev.chan n = { s.dev.chan n with armR := armR, armF := armF } ∧ (∀ m : Nat, m ≠ n → t.dev.chan m = s.dev.chan m)
        ∧ t = { s with dev := { s.dev with acq := { s.dev.acq with chans := t.dev.acq.chans } } })

/-- TDC_CONVERSION_DONE and TDC_CONVERSION_TIMEOUT end the oldest conversion of the channel: with code K its hit is stamped at E less T[K] less the
path delays (and handed to the statistics engine if that runs); a conversion that never ends makes its hit busy and counts in ERR, which
saturates, and in BUSY. (R127, R130, R143.) -/
def Obligations.ConversionsEnd : Prop :=
  (∀ (n k : Nat) (h : Hit) (e : Int) (s : State), n < 48 → k < 128 → s.dev.up = true → (s.dev.chan n).hits.find? Hit.running = some h →
      h.st = .converting e →
      Answers (.tdcConversionDone n k) s fun t =>
        (let t0 := e - ((s.dev.chan n).tOf k : Int) - s.dev.pathDelay n
         t.dev.chan n = { s.dev.chan n with hits := updFirst Hit.running (fun x => { x with st := .stamped t0 }) (s.dev.chan n).hits }
         ∧ (s.dev.flag Reg.TDC_STAT_STATUS_RUNNING = true → s.dev.flag Reg.TDC_STAT_CTRL_MODE = false →
              statSrc (s.dev.get Reg.TDC_STAT_CTRL_START_SRC) = .chan n → statSrc (s.dev.get Reg.TDC_STAT_CTRL_STOP_SRC) ≠ .chan n →
              t.dev.acq.stat = { s.dev.acq.stat with starts := s.dev.acq.stat.starts ++ [t0] }))
        ∧ (∀ m : Nat, m ≠ n → t.dev.chan m = s.dev.chan m)
        ∧ (s.dev.flag Reg.TDC_STAT_STATUS_RUNNING = false → t.dev.regs = s.dev.regs ∧ t.dev.acq.stat = s.dev.acq.stat)
        ∧ t = { s with dev := { s.dev with regs := t.dev.regs, acq := { s.dev.acq with chans := t.dev.acq.chans, stat := t.dev.acq.stat } } }
        ∧ RegsKeepAll [Reg.TDC_STAT_STATUS_COUNT.key, Reg.TDC_STAT_FLAGS_NEAR.key] s.dev t.dev)
    ∧ ∀ (n : Nat) (s : State), n < 48 → s.dev.up = true → (s.dev.chan n).hits.any Hit.running = true →
      Answers (.tdcConversionTimeout n) s fun t =>
        t.dev.chan n = { s.dev.chan n with hits := updFirst Hit.running (fun x => { x with st := .busy }) (s.dev.chan n).hits }
        ∧ t.dev.get (Reg.CH_TDC_COUNTS_ERR n) = min (s.dev.get (Reg.CH_TDC_COUNTS_ERR n) + 1) 15
        ∧ t.dev.get (Reg.CH_TDC_COUNTS_BUSY n) = (s.dev.get (Reg.CH_TDC_COUNTS_BUSY n) + 1) % 65536
        ∧ (∀ m : Nat, m ≠ n → t.dev.chan m = s.dev.chan m)
        ∧ t = { s with dev := { talked s.dev t.dev with acq := { s.dev.acq with chans := t.dev.acq.chans }, flt := t.dev.flt } }
        ∧ RegsKeep [(Reg.CH_TDC_COUNTS_ERR n).key, (Reg.CH_TDC_COUNTS_BUSY n).key, Reg.FLT_LOG_STATUS_ENTRIES.key, Reg.FLT_LOG_STATUS_NEXT_SEQ.key,
            Reg.FLT_LOG_OVERWRITES_OVERWRITES.key, Reg.FLT_STATUS_ASSAYS_WAITING.key, Reg.FLT_STATUS_ASSAY_ACTIVE.key,
            Reg.FLT_COUNT_ASSAY_NOT_ASSAYED.key] s.dev t.dev

/-- The oscillator locks: SLOW_LOCK_ACQUIRED sets SLOW_LOCK; a lock check, forced ones too, keeps the last 64 outcomes, moves the fast control DAC one
step and makes FAST_LOCK 1 while at least 24 of each sign are among them, 0 otherwise; it needs a TDC idle for 160 slow edges, and a forced one, due after
64 frames without, takes the TDC instead; TDC_LOCK_LOST clears the lock that was lost. (R131, R132.) -/
def Obligations.OscillatorLocks : Prop :=
  (∀ (n : Nat) (s : State), n < 48 → s.dev.up = true → s.dev.chanOn n = true → s.dev.flag (Reg.CH_TDC_STATUS_SLOW_LOCK n) = false →
      Answers (.slowLockAcquired n) s fun t =>
        t.dev.get (Reg.CH_TDC_STATUS_SLOW_LOCK n) = 1
        ∧ t.dev.chan n = { s.dev.chan n with lockLost := (s.dev.chan n).lockLost && !s.dev.flag (Reg.CH_TDC_STATUS_FAST_LOCK n) }
        ∧ (∀ m : Nat, m ≠ n → t.dev.chan m = s.dev.chan m)
        ∧ t = { s with dev := { talked s.dev t.dev with acq := { s.dev.acq with chans := t.dev.acq.chans } } }
        ∧ RegsKeep [(Reg.CH_TDC_STATUS_SLOW_LOCK n).key] s.dev t.dev)
    ∧ (∀ (c : Instr) (forced : Bool) (n cyc : Nat) (early : Bool) (s : State), n < 48 → s.dev.up = true → s.dev.chanOn n = true →
      s.dev.flag (Reg.CH_TDC_STATUS_SLOW_LOCK n) = true →
      (c = .fastLockCheck n early cyc ∧ forced = false ∧ s.dev.idleFor n (s.dev.edgeCount cyc) = true
        ∨ c = .forcedLockCheck n early ∧ forced = true ∧ cyc = 0 ∧ (s.dev.chan n).lastCheck + 64 ≤ s.dev.fn) →
      Answers c s fun t =>
        (let l := (early :: (s.dev.chan n).checks).take 64
         let ok := decide (24 ≤ l.count true) && decide (24 ≤ l.count false)
         let was := s.dev.flag (Reg.CH_TDC_STATUS_FAST_LOCK n)
         t.dev.flag (Reg.CH_TDC_STATUS_FAST_LOCK n) = ok
         ∧ t.dev.chan n = { s.dev.chan n with
             checks := l, lastCheck := s.dev.fn, checkE := some (s.dev.edgeCount cyc),
             dac := (s.dev.chan n).dac + (if early then 1 else -1), lastE := if forced then some (s.dev.edgeCount 0) else (s.dev.chan n).lastE,
             lockLost := if was = ok then (s.dev.chan n).lockLost else was })
        ∧ (∀ m : Nat, m ≠ n → t.dev.chan m = s.dev.chan m)
        ∧ t = { s with dev := { talked s.dev t.dev with acq := { s.dev.acq with chans := t.dev.acq.chans } } }
        ∧ RegsKeep [(Reg.CH_TDC_STATUS_FAST_LOCK n).key] s.dev t.dev)
    ∧ ∀ (n : Nat) (slow : Bool) (s : State), n < 48 → s.dev.up = true →
      s.dev.flag (if slow then Reg.CH_TDC_STATUS_SLOW_LOCK n else Reg.CH_TDC_STATUS_FAST_LOCK n) = true →
      (slow = true ∨ (s.dev.chan n).checks.count true < 24 ∨ (s.dev.chan n).checks.count false < 24) →
      Answers (.tdcLockLost n slow) s fun t =>
        t.dev.get (if slow then Reg.CH_TDC_STATUS_SLOW_LOCK n else Reg.CH_TDC_STATUS_FAST_LOCK n) = 0
        ∧ t.dev.chan n = { s.dev.chan n with lockLost := true } ∧ (∀ m : Nat, m ≠ n → t.dev.chan m = s.dev.chan m)
        ∧ t = { s with dev := { talked s.dev t.dev with acq := { s.dev.acq with chans := t.dev.acq.chans } } }
        ∧ RegsKeep [(if slow then Reg.CH_TDC_STATUS_SLOW_LOCK n else Reg.CH_TDC_STATUS_FAST_LOCK n).key] s.dev t.dev

/-- Linearity calibration: it begins on a locked channel that owes or is asked for one; 100 ms later a good histogram gives the table and LIN_VALID, a
bad one LIN_FAIL and the quad's failure bit with the old table kept; a request by TDC_CAL_CTRL is refused while one runs, and otherwise waits for the
boundary with the channels of the quads it names. (R133, R134.) -/
def Obligations.LinearityCalibration : Prop :=
  (∀ (n : Nat) (s : State), n < 48 → s.dev.up = true → s.dev.chanOn n = true → s.dev.tdcLocked n = true →
      s.dev.flag (Reg.CH_TDC_STATUS_LIN_ACTIVE n) = false → ((s.dev.chan n).linDue = true ∨ (s.dev.chan n).linWant = true) →
      Answers (.linCalStart n) s fun t =>
        t.dev.get (Reg.CH_TDC_STATUS_LIN_ACTIVE n) = 1 ∧ t.dev.get Reg.TDC_CAL_STATUS_ACTIVE = 1
        ∧ t.dev.acq.linRun = putT n s.dev.fn s.dev.acq.linRun ∧ t.dev.chan n = { s.dev.chan n with linWant := false }
        ∧ (∀ m : Nat, m ≠ n → t.dev.chan m = s.dev.chan m)
        ∧ t = { s with dev := { s.dev with regs := t.dev.regs, acq := { s.dev.acq with chans := t.dev.acq.chans, linRun := t.dev.acq.linRun } } }
        ∧ RegsKeepAll [(Reg.CH_TDC_STATUS_LIN_ACTIVE n).key, Reg.TDC_CAL_STATUS_ACTIVE.key] s.dev t.dev)
    ∧ (∀ (n f : Nat) (h : List Nat) (s : State), n < 48 → s.dev.up = true → s.dev.acq.linRun.find? (fun p => p.1 == n) = some (n, f) →
      f + 100000 ≤ s.dev.fn →
      Answers (.linCalDone n h) s fun t =>
        t.dev.get (Reg.CH_TDC_STATUS_LIN_ACTIVE n) = 0 ∧ (t.dev.chan n).linDue = false
        ∧ t.dev.acq.linRun = s.dev.acq.linRun.filter (fun p => p.1 ≠ n)
        ∧ ((h.length = 128 ∧ h.sum = 1048576 ∧ ∀ x ∈ h, 2048 ≤ x ∧ x ≤ 16384) →
            t.dev.get (Reg.CH_TDC_STATUS_LIN_VALID n) = 1 ∧ (t.dev.chan n).table = some (linTable h))
        ∧ (¬ (h.length = 128 ∧ h.sum = 1048576 ∧ ∀ x ∈ h, 2048 ≤ x ∧ x ≤ 16384) →
            t.dev.get (Reg.CH_TDC_STATUS_LIN_FAIL n) = 1 ∧ (t.dev.chan n).table = (s.dev.chan n).table
            ∧ bitOf (t.dev.get Reg.TDC_CAL_STATUS_FAIL_QUADS) (n / 4) = true
            ∧ t.dev.get (Reg.CH_TDC_STATUS_LIN_VALID n) = s.dev.get (Reg.CH_TDC_STATUS_LIN_VALID n))
        ∧ (∀ m : Nat, m ≠ n → t.dev.chan m = s.dev.chan m)
        ∧ t = { s with dev := { talked s.dev t.dev with
                  acq := { s.dev.acq with chans := t.dev.acq.chans, linRun := t.dev.acq.linRun, linBoot := t.dev.acq.linBoot,
                                          linTemp := t.dev.acq.linTemp } } }
        ∧ RegsKeep [(Reg.CH_TDC_STATUS_LIN_ACTIVE n).key, (Reg.CH_TDC_STATUS_LIN_VALID n).key, (Reg.CH_TDC_STATUS_LIN_FAIL n).key,
            Reg.TDC_CAL_STATUS_ACTIVE.key, Reg.TDC_CAL_STATUS_BOOT_DONE.key, Reg.TDC_CAL_STATUS_FAIL_QUADS.key] s.dev t.dev)
    ∧ ∀ (src : Source) (q : Nat) (s : State), Passes s.dev src 0x2C10 →
      Answers (.tdcCalStart src q) s fun t =>
        t.dev.get Reg.TDC_CAL_CTRL_QUAD_MASK = q % 4096
        ∧ (s.dev.flag Reg.TDC_CAL_STATUS_ACTIVE = true → t.dev.get Reg.TDC_CAL_STATUS_REFUSED = 1 ∧ t.dev.acq = s.dev.acq)
        ∧ (s.dev.flag Reg.TDC_CAL_STATUS_ACTIVE = false →
            t.dev.get Reg.TDC_CAL_STATUS_REFUSED = s.dev.get Reg.TDC_CAL_STATUS_REFUSED
            ∧ t.dev.acq = { s.dev.acq with
                linReq := s.dev.acq.linReq ++ (List.range 48).filter fun n => bitOf q (n / 4) })
        ∧ t = { s with dev := { s.dev with regs := t.dev.regs, acq := t.dev.acq } }
        ∧ RegsKeepAll [Reg.TDC_CAL_CTRL_QUAD_MASK.key, Reg.TDC_CAL_STATUS_REFUSED.key] s.dev t.dev

/-- The interval-statistics engine: START clears count, flags and sums and runs it, ABORT stops it, and with N values in it ends with their mean,
deviation, minimum and maximum: the mean is the floor of sum / N and the deviation the floor of the root of the variance. (R143.) -/
def Obligations.IntervalStatistics : Prop :=
  (∀ (src : Source) (v : Word) (s : State), Passes s.dev src 0x2C30 → s.dev.role = .frontEnd →
      Answers (.statStart src v) s fun t =>
        t.dev.get Reg.TDC_STAT_STATUS_RUNNING = 1 ∧ t.dev.get Reg.TDC_STAT_STATUS_DONE = 0 ∧ t.dev.get Reg.TDC_STAT_STATUS_COUNT = 0
        ∧ t.dev.get Reg.TDC_STAT_FLAGS_NEAR = 0 ∧ t.dev.get Reg.TDC_STAT_FLAGS_UNPAIRED = 0
        ∧ t.dev.get Reg.TDC_STAT_CTRL_MODE = bits v.toNat 2 1
        ∧ t.dev.get Reg.TDC_STAT_CTRL_K = bits v.toNat 3 5
        ∧ t.dev.acq.stat = { sum := 0, sumSq := 0, mn := 0, mx := 0, phi0 := none, starts := [], stops := [] }
        ∧ t = { s with dev := { s.dev with regs := t.dev.regs, acq := { s.dev.acq with stat := t.dev.acq.stat } } })
    ∧ (∀ (src : Source) (s : State), Passes s.dev src 0x2C30 → s.dev.role = .frontEnd →
      Answers (.statAbort src) s fun t =>
        t.dev.get Reg.TDC_STAT_STATUS_RUNNING = 0 ∧ t = { s with dev := { s.dev with regs := t.dev.regs } }
        ∧ RegsKeepAll [Reg.TDC_STAT_STATUS_RUNNING.key] s.dev t.dev)
    ∧ ∀ s : State, s.dev.up = true → s.dev.flag Reg.TDC_STAT_STATUS_RUNNING = true →
      2 ^ min 20 (s.dev.get Reg.TDC_STAT_CTRL_K) ≤ s.dev.get Reg.TDC_STAT_STATUS_COUNT →
      Answers .statDone s fun t =>
        t.dev.get Reg.TDC_STAT_STATUS_RUNNING = 0 ∧ t.dev.get Reg.TDC_STAT_STATUS_DONE = 1
        ∧ (let n : Int := 2 ^ min 20 (s.dev.get Reg.TDC_STAT_CTRL_K)
           let x := s.dev.acq.stat
           ((-(2 ^ 31) ≤ x.sum / n ∧ x.sum / n < 2 ^ 31) → t.dev.getI Reg.TDC_STAT_MEAN_MEAN = x.sum / n)
           ∧ ((-(2 ^ 31) ≤ x.mn ∧ x.mn < 2 ^ 31) → t.dev.getI Reg.TDC_STAT_MIN_MIN = x.mn)
           ∧ ((-(2 ^ 31) ≤ x.mx ∧ x.mx < 2 ^ 31) → t.dev.getI Reg.TDC_STAT_MAX_MAX = x.mx)
           ∧ (n * x.sumSq - x.sum * x.sum < 2 ^ 84 → 0 ≤ n * x.sumSq - x.sum * x.sum → ∃ r : Nat,
               (r : Int) * r ≤ n * x.sumSq - x.sum * x.sum ∧ n * x.sumSq - x.sum * x.sum < ((r : Int) + 1) * (r + 1)
               ∧ t.dev.get Reg.TDC_STAT_DEV_DEV = r / 2 ^ min 20 (s.dev.get Reg.TDC_STAT_CTRL_K) % 2 ^ 32))
        ∧ t = { s with dev := { s.dev with regs := t.dev.regs } }
        ∧ RegsKeepAll [Reg.TDC_STAT_STATUS_RUNNING.key, Reg.TDC_STAT_STATUS_DONE.key, Reg.TDC_STAT_MEAN_MEAN.key, Reg.TDC_STAT_DEV_DEV.key,
            Reg.TDC_STAT_MIN_MIN.key, Reg.TDC_STAT_MAX_MAX.key] s.dev t.dev

/-- Lending: a conversion lent to a domain on a full-rate lane, by a lender that can stamp, adds its phase to the average and takes the TDC: in full mode
whenever the TDC is idle; in share mode the one of the frame armed at edge 0 of cycle 200; of a lender of both domains, the domain whose turn it is. With
2^PHASE_AVG_K of them the mean is latched and the average begins again; the next boundary makes it the one that refines the stamps of the domain's port. (R144, R145.) -/
def Obligations.LentConversionsAverage : Prop :=
  (∀ (k cyc j code n : Nat) (s : State), k < 2 → n = s.dev.lender k → s.dev.up = true → s.dev.flag (Reg.TIM_DOM_CFG_ENABLE k) = true →
      s.dev.get (Reg.TIM_DOM_CFG_PORT k) ≠ 63 → s.dev.lenderOk n = true → code < 128 → s.dev.lstate (s.dev.get (Reg.TIM_DOM_CFG_PORT k)) = 4 →
      (s.dev.lendsLane (1 - k) n = false ∨ ∀ p, (s.dev.chan n).lent = some p → p.1 ≠ k) →
      (s.dev.lentFull n = true ∧ s.dev.tdcIdle n (s.dev.edgeCount cyc + j) = true
        ∨ s.dev.lentFull n = false ∧ s.dev.tdcIdle n (s.dev.edgeCount 200) = true ∧ s.dev.edgeCount 200 ≤ s.dev.edgeCount cyc + j
          ∧ s.dev.edgeCount cyc + j ≤ s.dev.edgeCount 200 + 16 ∧ ∀ p, (s.dev.chan n).lent = some p → p.2 ≠ s.dev.fn) →
      Answers (.lenderConversion k cyc j code) s fun t =>
        (let t0 := s.dev.edge cyc + 16384 * (j : Int) - ((s.dev.chan n).tOf code : Int) - s.dev.pathDelay n
         let x := s.dev.phaseOf (s.dev.dom k).phi0 t0
         t.dev.dom k = { s.dev.dom k with phi0 := some ((s.dev.dom k).phi0.getD x), phSum := (s.dev.dom k).phSum + x, phN := (s.dev.dom k).phN + 1 }
         ∧ t.dev.chan n = { s.dev.chan n with lastE := some (s.dev.edgeCount cyc + j), lent := some (k, s.dev.fn) }
         ∧ ∀ m : Nat, m ≠ n → t.dev.chan m = s.dev.chan m)
        ∧ t.dev.dom (1 - k) = s.dev.dom (1 - k)
        ∧ t = { s with dev := { s.dev with tm := { s.dev.tm with doms := t.dev.tm.doms }, acq := { s.dev.acq with chans := t.dev.acq.chans } } })
    ∧ (∀ (k : Nat) (s : State), k < 2 → s.dev.up = true → 2 ^ min 20 (s.dev.get Reg.TIM_CTRL_PHASE_AVG_K) ≤ (s.dev.dom k).phN →
      Answers (.phaseAvgDone k) s fun t =>
        t.dev.dom k = { s.dev.dom k with phMean := some ((s.dev.dom k).phSum / ((s.dev.dom k).phN : Int)), phSum := 0, phN := 0, phi0 := none }
        ∧ t.dev.dom (1 - k) = s.dev.dom (1 - k)
        ∧ t = { s with dev := { s.dev with tm := { s.dev.tm with doms := t.dev.tm.doms } } })
    ∧ (∀ (k : Nat) (d : Dev), d.flag (Reg.TIM_DOM_CFG_ENABLE k) = true → d.lenderOk (d.lender k) = true → (d.dom k).phMean.isSome = true →
      d.lstate (d.get (Reg.TIM_DOM_CFG_PORT k)) = 4 →
      (d.refineBoundary k).dom k = { d.dom k with refined := true, phase := (d.dom k).phMean })
    ∧ ∀ (l : Nat) (raw : Int) (d : Dev), d.flag (Reg.TIM_DOM_CFG_ENABLE 0) = true → d.get (Reg.TIM_DOM_CFG_PORT 0) = l →
      (d.dom 0).refined = true → ∀ p, (d.dom 0).phase = some p → d.refine l raw = raw + p

/-! ### Triggers and captures -/

/-- TRIGGER_DECISION of a sample ready to be decided at which a capturing unit fires: with PRE filled and no capture in the way, a capture of the
frame's LENGTH opens PRE samples before it; before the fill, inside the re-arm, or inside a capture that cannot extend, the trigger is refused
and counted; inside one that can, the capture moves its end. A capture of a channel that has stopped ends with its last sample. No other channel changes. Readiness is log entry 16. (R164, R167, R172, R173.) -/
def Obligations.TriggerDecisions : Prop :=
  (∀ (n fi x : Nat) (f : FStat) (s : State), n < 48 → TriggerReady s.dev n fi x f →
      s.dev.fires f n false (f.base + x) = none → s.dev.fires f n true (f.base + x) = none → exec (.triggerDecision n fi x) s = .next s)
    ∧ (∀ (n fi x : Nat) (f : FStat) (s : State), n < 48 → TriggerReady s.dev n fi x f →
      ((s.dev.fires f n false (f.base + x)).isSome = true ∧ (f.unit n false).cap = true
        ∨ (s.dev.fires f n true (f.base + x)).isSome = true ∧ (f.unit n true).cap = true) →
      (s.dev.chan n).since ≤ f.base + x - f.capPre n → (s.dev.chan n).capMet (f.base + x) = none →
      Answers (.triggerDecision n fi x) s fun t =>
        (t.dev.chan n).caps.length = (s.dev.chan n).caps.length + 1
        ∧ (t.dev.chan n).caps.take (s.dev.chan n).caps.length = (s.dev.chan n).caps
        ∧ (t.dev.chan n).caps.getLast?.map (fun k => (k.x, k.start, k.last)) = some (f.base + x, f.base + x - f.capPre n,
            if (s.dev.chan n).acquiring = false ∧ (s.dev.chan n).merged ≤ f.base + x - f.capPre n + f.capLen n - 1 then (s.dev.chan n).merged - 1
            else f.base + x - f.capPre n + f.capLen n - 1)
        ∧ (t.dev.chan n).caps.getLast?.map (fun k => (k.fn, k.xi, k.stage, k.extend)) = some (f.fn, x, 0, f.capExtend n)
        ∧ (t.dev.chan n).caps.getLast?.map (fun k => (k.ua, k.ub)) =
            some ((s.dev.fires f n false (f.base + x)).isSome, (s.dev.fires f n true (f.base + x)).isSome)
        ∧ (t.dev.chan n).caps.getLast?.map (·.srcB) = some (!((s.dev.fires f n false (f.base + x)).isSome && (f.unit n false).cap))
        ∧ t.dev.get (Reg.CH_TRG_STATUS_CAPTURES n) = (s.dev.get (Reg.CH_TRG_STATUS_CAPTURES n) + 1) % 65536
        ∧ t.dev.get (Reg.CH_TRG_STATUS_CAPTURE_OPEN n) = 1
        ∧ (∀ m : Nat, m ≠ n → t.dev.chan m = s.dev.chan m)
        ∧ t = { s with dev := { s.dev with regs := t.dev.regs, acq := { s.dev.acq with chans := t.dev.acq.chans, slots := t.dev.acq.slots } } }
        ∧ RegsKeepAll ([(Reg.CH_TRG_STATUS_CAPTURES n).key, (Reg.CH_TRG_STATUS_CAPTURE_OPEN n).key, (Reg.CH_TRG_STATUS_AT_LIMIT n).key]
            ++ (List.range 4).map fun k => (Reg.TRG_STREAM_STATUS_MARK_OVF k).key) s.dev t.dev)
    ∧ (∀ (n fi x : Nat) (f : FStat) (k : Cap) (s : State), n < 48 → TriggerReady s.dev n fi x f →
      ((s.dev.fires f n false (f.base + x)).isSome = true ∧ (f.unit n false).cap = true
        ∨ (s.dev.fires f n true (f.base + x)).isSome = true ∧ (f.unit n true).cap = true) →
      (s.dev.chan n).since ≤ f.base + x - f.capPre n → (s.dev.chan n).capMet (f.base + x) = some k →
      (k.last < f.base + x ∨ k.extend = false ∨ k.last = k.start + 8191 ∨ k.stage = 2) →
      Answers (.triggerDecision n fi x) s fun t =>
        t.dev.get (Reg.CH_TRG_REF_LO_REARM n) = (if k.last < f.base + x then (s.dev.get (Reg.CH_TRG_REF_LO_REARM n) + 1) % 65536
            else s.dev.get (Reg.CH_TRG_REF_LO_REARM n))
        ∧ t.dev.get (Reg.CH_TRG_REF_HI_BUSY n) = (if k.last < f.base + x then s.dev.get (Reg.CH_TRG_REF_HI_BUSY n)
            else (s.dev.get (Reg.CH_TRG_REF_HI_BUSY n) + 1) % 65536)
        ∧ (t.dev.chan n).caps.map (fun c => (c.start, c.last, c.x)) = (s.dev.chan n).caps.map (fun c => (c.start, c.last, c.x))
        ∧ (∀ m : Nat, m ≠ n → t.dev.chan m = s.dev.chan m)
        ∧ t = { s with dev := { s.dev with regs := t.dev.regs, rcd := t.dev.rcd, acq :=
                { s.dev.acq with chans := t.dev.acq.chans, slots := t.dev.acq.slots, fstats := t.dev.acq.fstats } } }
        ∧ (k.off = false → t.dev.rcd = s.dev.rcd)
        ∧ RegsKeepAll ([(Reg.CH_TRG_REF_LO_REARM n).key, (Reg.CH_TRG_REF_HI_BUSY n).key] ++ lossKeys
            ++ (List.range 4).map fun k => (Reg.TRG_STREAM_STATUS_MARK_OVF k).key) s.dev t.dev)
    ∧ (∀ (n fi x : Nat) (f : FStat) (s : State), n < 48 → TriggerReady s.dev n fi x f →
      ((s.dev.fires f n false (f.base + x)).isSome = true ∧ (f.unit n false).cap = true
        ∨ (s.dev.fires f n true (f.base + x)).isSome = true ∧ (f.unit n true).cap = true) →
      f.base + x - f.capPre n < (s.dev.chan n).since →
      Answers (.triggerDecision n fi x) s fun t =>
        t.dev.get (Reg.CH_TRG_REF_LO_FILL n) = (s.dev.get (Reg.CH_TRG_REF_LO_FILL n) + 1) % 65536
        ∧ (t.dev.chan n).caps = (s.dev.chan n).caps ∧ (∀ m : Nat, m ≠ n → t.dev.chan m = s.dev.chan m)
        ∧ t.dev.rcd = s.dev.rcd
        ∧ RegsKeepAll ([(Reg.CH_TRG_REF_LO_FILL n).key] ++ (List.range 4).map fun k => (Reg.TRG_STREAM_STATUS_MARK_OVF k).key) s.dev t.dev)
    ∧ ∀ (n fi x : Nat) (f : FStat) (k : Cap) (s : State), n < 48 → TriggerReady s.dev n fi x f →
      ((s.dev.fires f n false (f.base + x)).isSome = true ∧ (f.unit n false).cap = true
        ∨ (s.dev.fires f n true (f.base + x)).isSome = true ∧ (f.unit n true).cap = true) →
      (s.dev.chan n).since ≤ f.base + x - f.capPre n → (s.dev.chan n).capMet (f.base + x) = some k → k.extend = true → f.base + x ≤ k.last →
      k.last ≠ k.start + 8191 → k.stage ≠ 2 →
      Answers (.triggerDecision n fi x) s fun t =>
        (t.dev.chan n).caps.length = (s.dev.chan n).caps.length
        ∧ ((t.dev.chan n).caps.find? fun c => c.x == k.x).map (fun c => (c.start, c.stage)) = some (k.start, 0)
        ∧ ((t.dev.chan n).caps.find? fun c => c.x == k.x).map (·.last) =
            some (let last := max k.last (min (k.start + 8 * ((f.base + x + k.post - k.start + 7) / 8) - 1) (k.start + 8191))
                  if (s.dev.chan n).acquiring = false ∧ (s.dev.chan n).merged ≤ last then (s.dev.chan n).merged - 1 else last)
        ∧ ((t.dev.chan n).caps.find? fun c => c.x == k.x).map (·.exts) = some (if k.exts.length < 8 then
              k.exts ++ [((f.base + x - k.start).toNat, (s.dev.fires f n false (f.base + x)).isSome, (s.dev.fires f n true (f.base + x)).isSome)]
            else k.exts)
        ∧ (∀ m : Nat, m ≠ n → t.dev.chan m = s.dev.chan m)
        ∧ t = { s with dev := { s.dev with regs := t.dev.regs, acq := { s.dev.acq with chans := t.dev.acq.chans, slots := t.dev.acq.slots } } }
        ∧ RegsKeepAll ([(Reg.CH_TRG_STATUS_CAPTURE_OPEN n).key, (Reg.CH_TRG_STATUS_AT_LIMIT n).key]
            ++ (List.range 4).map fun k => (Reg.TRG_STREAM_STATUS_MARK_OVF k).key) s.dev t.dev

/-- CAPTURE_CLOSE closes the oldest open capture once its last sample is merged; TRG_DEAD_CAPTURE latches the 48-bit dead count of the selected
channel and reason in two words. (R172, R195.) -/
def Obligations.CapturesCloseAndDeadCountsRead : Prop :=
  (∀ (n : Nat) (k : Cap) (s : State), n < 48 → s.dev.up = true → (s.dev.chan n).caps.find? (fun c => c.stage == 0) = some k →
      k.last < (s.dev.chan n).merged →
      Answers (.captureClose n) s fun t =>
        (t.dev.chan n).caps.map (fun c => (c.x, c.start, c.last)) = (s.dev.chan n).caps.map (fun c => (c.x, c.start, c.last))
        ∧ ((t.dev.chan n).caps.find? fun c => c.x == k.x).map (·.stage) = some 1
        ∧ t.dev.chan n = { s.dev.chan n with caps := (t.dev.chan n).caps }
        ∧ (∀ m : Nat, m ≠ n → t.dev.chan m = s.dev.chan m)
        ∧ t = { s with dev := { s.dev with regs := t.dev.regs, acq := { s.dev.acq with chans := t.dev.acq.chans } } }
        ∧ RegsKeepAll [(Reg.CH_TRG_STATUS_CAPTURE_OPEN n).key, (Reg.CH_TRG_STATUS_AT_LIMIT n).key] s.dev t.dev)
    ∧ ∀ s : State, s.dev.up = true →
      Answers .trgDeadCapture s fun t =>
        (s.dev.get Reg.TRG_DEAD_SEL_CHAN < 48 →
          t.dev.get Reg.TRG_DEAD_LO_COUNT_LO = getT 0 (4 * s.dev.get Reg.TRG_DEAD_SEL_CHAN + s.dev.get Reg.TRG_DEAD_SEL_REASON) s.dev.acq.dead % 2 ^ 32
          ∧ t.dev.get Reg.TRG_DEAD_HI_COUNT_HI =
              getT 0 (4 * s.dev.get Reg.TRG_DEAD_SEL_CHAN + s.dev.get Reg.TRG_DEAD_SEL_REASON) s.dev.acq.dead / 2 ^ 32 % 65536)
        ∧ (48 ≤ s.dev.get Reg.TRG_DEAD_SEL_CHAN → t.dev.get Reg.TRG_DEAD_LO_COUNT_LO = 0 ∧ t.dev.get Reg.TRG_DEAD_HI_COUNT_HI = 0)
        ∧ t = { s with dev := { s.dev with regs := t.dev.regs } }
        ∧ RegsKeepAll [Reg.TRG_DEAD_LO_COUNT_LO.key, Reg.TRG_DEAD_HI_COUNT_HI.key] s.dev t.dev

/-- Mask envelopes: a data write stores one point of the shadow and advances POINT modulo 512 (a quad of 12 and more stores nothing), a commit
and a re-arm wait, and the boundary makes the shadow of the committed quads active and leaves the other quads' envelopes alone. (R179, R180, R199.) -/
def Obligations.MaskEnvelopes : Prop :=
  (∀ (src : Source) (v : Word) (s : State), FrontEndWrite s.dev src 0x36A4 → s.dev.get Reg.TRG_MASK_ADDR_QUAD < 12 →
      (let k := (2 * s.dev.get Reg.TRG_MASK_ADDR_QUAD + s.dev.get Reg.TRG_MASK_ADDR_ENV) * 512 + s.dev.get Reg.TRG_MASK_ADDR_POINT
       Answers (.trgMaskDataWrite src v) s fun t =>
        getT 0 k t.dev.acq.envS = v.toNat % 65536 ∧ (∀ j x : Nat, j ≠ k → getT x j t.dev.acq.envS = getT x j s.dev.acq.envS)
        ∧ t.dev.get Reg.TRG_MASK_ADDR_POINT = (s.dev.get Reg.TRG_MASK_ADDR_POINT + 1) % 512
        ∧ t = { s with dev := { s.dev with regs := t.dev.regs, acq := { s.dev.acq with envS := t.dev.acq.envS } } }
        ∧ RegsKeepAll [Reg.TRG_MASK_ADDR_POINT.key] s.dev t.dev))
    ∧ (∀ (src : Source) (v : Word) (s : State), FrontEndWrite s.dev src 0x36A4 → 12 ≤ s.dev.get Reg.TRG_MASK_ADDR_QUAD →
      exec (.trgMaskDataWrite src v) s = .next s)
    ∧ (∀ (src : Source) (q : Nat) (s : State), FrontEndWrite s.dev src 0x36A8 →
      Answers (.trgMaskCommit src q) s fun t =>
        (∀ i : Nat, bitOf t.dev.acq.commit i = (bitOf s.dev.acq.commit i || (decide (i < 12) && bitOf q i)))
        ∧ t = { s with dev := { s.dev with acq := { s.dev.acq with commit := t.dev.acq.commit } } })
    ∧ (∀ (src : Source) (q : Nat) (s : State), q < 12 → FrontEndWrite s.dev src (0x3640 + 4 * q) →
      Answers (.maskRearm src q) s fun t =>
        (∀ i : Nat, bitOf t.dev.acq.rearm i = (bitOf s.dev.acq.rearm i || decide (i = q)))
        ∧ t = { s with dev := { s.dev with acq := { s.dev.acq with rearm := t.dev.acq.rearm } } })
    ∧ ∀ (d : Dev) (q : Nat) (lower : Bool) (p : Nat), q < 12 → p < 512 →
        envAt d.maskBoundary.acq.envA q lower p =
          (if bitOf d.acq.commit q = true then envAt d.acq.envS q lower p else envAt d.acq.envA q lower p)
        ∧ d.maskBoundary.acq.envS = d.acq.envS ∧ d.maskBoundary.acq.commit = 0 ∧ d.maskBoundary.acq.rearm = 0
        ∧ (bitOf d.acq.rearm q = true → bitOf d.acq.envBad q = false → d.maskBoundary.get (Reg.TRG_MASK_CFG_STOPPED q) = 0
            ∧ d.maskBoundary.acq.stops.all (fun x => x.q != q || x.resume.isSome) = true
            ∧ d.maskBoundary.acq.stops.map (fun x => (x.q, x.x, x.n)) = d.acq.stops.map (fun x => (x.q, x.x, x.n)))

/-- STREAM_CFG_WRITE: in a front-end a write of a slot's settings takes them, for the next boundary, if no check of the budget fails;
otherwise the slot keeps its settings and TRG_BUDGET_STATUS names the slot and the first failed check. In another role the write does nothing. (R183.) -/
def Obligations.StreamSlotsWithinTheBudget : Prop :=
  (∀ (src : Source) (k : Nat) (v : Word) (s : State), k < 4 → Passes s.dev src (0x3700 + 8 * k) → s.dev.role ≠ .frontEnd →
      exec (.streamCfgWrite src k v) s = .next s)
    ∧ (∀ (src : Source) (k : Nat) (v : Word) (s : State), k < 4 → FrontEndWrite s.dev src (0x3700 + 8 * k) →
      s.dev.budgetReason k (slotCfg v.toNat) = 0 →
      Answers (.streamCfgWrite src k v) s fun t =>
        t.dev.slotWritten k = slotCfg v.toNat ∧ t.dev.queue = s.dev.queue ++ [.reg src (0x3700 + 8 * k) v] ∧ t.dev.force = s.dev.force
        ∧ t = { s with dev := { talked s.dev t.dev with queue := t.dev.queue, free := t.dev.free } }
        ∧ RegsKeep [(Reg.TRG_STREAM_CFG_ENABLE k).key, (Reg.TRG_STREAM_CFG_CHAN k).key, (Reg.TRG_STREAM_CFG_LANE k).key,
            (Reg.TRG_STREAM_CFG_RESERVE k).key] s.dev t.dev)
    ∧ (∀ (src : Source) (k : Nat) (v : Word) (s : State), k < 4 → FrontEndWrite s.dev src (0x3700 + 8 * k) →
      s.dev.budgetReason k (slotCfg v.toNat) ≠ 0 →
      Answers (.streamCfgWrite src k v) s fun t =>
        t.dev.slotWritten k = s.dev.slotWritten k ∧ t.dev.get Reg.TRG_BUDGET_STATUS_REFUSED = 1
        ∧ t.dev.get Reg.TRG_BUDGET_STATUS_REASON = s.dev.budgetReason k (slotCfg v.toNat) ∧ t.dev.get Reg.TRG_BUDGET_STATUS_SLOT = k
        ∧ t = { s with dev := { talked s.dev t.dev with free := t.dev.free } }
        ∧ RegsKeep [Reg.TRG_BUDGET_STATUS_REFUSED.key, Reg.TRG_BUDGET_STATUS_REASON.key, Reg.TRG_BUDGET_STATUS_SLOT.key,
            Reg.TRG_BUDGET_STATUS_FLOOR.key] s.dev t.dev)
    ∧ ∀ (d : Dev) (k : Nat) (c : SlotCfg), d.role = .frontEnd → k < 4 → d.budgetReason k c = 0 → c.enable = true →
        c.chan < 48 ∧ bitOf (d.get Reg.GLB_ROLE_CFG_UPLINK_MASK) c.lane = true
        ∧ (∀ j : Nat, j < 4 → j ≠ k → (d.slotWritten j).enable = true → (d.slotWritten j).chan ≠ c.chan)
        ∧ c.reserve + (((((List.range 4).filter (· != k)).map d.slotWritten).filter fun o => o.enable && o.lane == c.lane).map (·.reserve)).sum ≤ 320

/-! ### Domains and channels -/

/-- CHANNEL_ENABLE and CHANNEL_DISABLE write ENABLE of CH_CTRL and queue the word for the next boundary, leaving every value in force as it was;
CHANNEL_DRAIN_END turns a draining channel dark once no record of it is left, or lends it. (R481, R483, R488.) -/
def Obligations.ChannelsEnableDisableAndDrain : Prop :=
  (∀ (src : Source) (n : Nat) (on : Bool) (s : State), n < 48 → FrontEndWrite s.dev src (0x2000 + 0x40 * n) →
      Answers (if on then .channelEnable src n else .channelDisable src n) s fun t =>
        t.dev.flag (Reg.CH_CTRL_ENABLE n) = on ∧ t.dev.queue.length = s.dev.queue.length + 1
        ∧ (∀ f ∈ [Reg.CH_CTRL_COUPLING n, Reg.CH_CTRL_MERGE_MODE n, Reg.CH_CTRL_TRK_EN n], t.dev.get f = s.dev.get f % 2 ^ f.width)
        ∧ t = { s with dev := { s.dev with regs := t.dev.regs, queue := t.dev.queue } }
        ∧ RegsKeepAll [(Reg.CH_CTRL_ENABLE n).key, (Reg.CH_CTRL_COUPLING n).key, (Reg.CH_CTRL_MERGE_MODE n).key, (Reg.CH_CTRL_TRK_EN n).key]
            s.dev t.dev)
    ∧ (∀ (n : Nat) (s : State), n < 48 → s.dev.up = true → s.dev.chState n = 4 → s.dev.chanHasRecords n = false → s.dev.lends n = true →
      Answers (.channelDrainEnd n) s fun t =>
        t.dev.chState n = 5 ∧ t = { s with dev := { s.dev with regs := t.dev.regs } } ∧ RegsKeepAll [(Reg.PWR_CH_STATE n).key] s.dev t.dev)
    ∧ ∀ (n : Nat) (s : State), n < 48 → s.dev.up = true → s.dev.chState n = 4 → s.dev.chanHasRecords n = false → s.dev.lends n = false →
      Answers (.channelDrainEnd n) s fun t =>
        t.dev.chState n = 0 ∧ t.dev.get (Reg.CH_TDC_STATUS_SLOW_LOCK n) = 0 ∧ t.dev.get (Reg.CH_TDC_STATUS_FAST_LOCK n) = 0
        ∧ (t.dev.chan n).acquiring = false ∧ (t.dev.chan n).ring = (s.dev.chan n).ring
        ∧ (∀ m : Nat, m ≠ n → t.dev.chan m = s.dev.chan m ∧ t.dev.chState m = s.dev.chState m)
        ∧ t.dev.force = s.dev.force ∧ t.dev.rcd = s.dev.rcd ∧ t.dev.tm = s.dev.tm ∧ t.dev.flt = s.dev.flt ∧ t.fuses = s.fuses ∧ t.ecc = s.ecc

/-- DOMAIN_IN_SERVICE, 20 frames after powering began: an enabled channel of a front-end goes ON and acquires, any other channel lends; a lane quad
is on and its enabled dark lanes go BLIND. MEMORY_INIT_DONE, 283 frames after: the domain is in service, its banks hold no error and their scrub
laps begin. Before
that nothing changes. (R479, R480, R485.) -/
def Obligations.DomainsEnterService : Prop :=
  (∀ (c : Nat) (s : State), c < 60 → s.dev.poweredFor c 20 = false → exec (.domainInService c) s = .next s)
    ∧ (∀ (n : Nat) (s : State), n < 48 → s.dev.up = true → s.dev.poweredFor n 20 = true → s.dev.chState n = 1 →
      Answers (.domainInService n) s fun t =>
        t.dev.chState n = (if s.dev.role = .frontEnd ∧ s.dev.chEn n = true then 2 else 5)
        ∧ (s.dev.role = .frontEnd → s.dev.chEn n = true → (t.dev.chan n).acquiring = true)
        ∧ (∀ m : Nat, m ≠ n → t.dev.chan m = s.dev.chan m ∧ t.dev.chState m = s.dev.chState m)
        ∧ (s.dev.pw.ramp = [n] → t.dev.get Reg.GLB_BRINGUP_STATUS_RAMP_DONE = 1 ∧ t.dev.acq.fgDue = some s.dev.fn ∧ t.dev.pw.ramp = [])
        ∧ t.dev.force = s.dev.force ∧ t.dev.rcd = s.dev.rcd ∧ t.dev.tm = s.dev.tm ∧ t.dev.lanes = s.dev.lanes ∧ t.dev.hr = s.dev.hr
        ∧ t.fuses = s.fuses ∧ t.ecc = s.ecc)
    ∧ (∀ (q : Nat) (s : State), q < 12 → s.dev.up = true → s.dev.poweredFor (48 + q) 20 = true → s.dev.get (Reg.PWR_DOM_LQ q) = 1 →
      Answers (.domainInService (48 + q)) s fun t =>
        t.dev.get (Reg.PWR_DOM_LQ q) = 2
        ∧ (∀ l : Nat, l / 4 = q → s.dev.role.usesLane l = true → s.dev.effB (Reg.LN_CTRL_ENABLE l) = true → s.dev.lstate l = 0 → t.dev.lstate l ≠ 0)
        ∧ (∀ l : Nat, l / 4 ≠ q → t.dev.lane l = s.dev.lane l ∧ t.dev.lstate l = s.dev.lstate l)
        ∧ t.dev.force = s.dev.force ∧ t.dev.rcd = s.dev.rcd ∧ t.dev.tm = s.dev.tm ∧ t.dev.acq = s.dev.acq ∧ t.fuses = s.fuses ∧ t.ecc = s.ecc)
    ∧ (∀ (m : Nat) (s : State), m < 4 → s.dev.up = true → s.dev.poweredFor (60 + m) 283 = true →
      (s.dev.get (Reg.PWR_DOM_MD m) = 1 ∨ s.dev.get (Reg.PWR_DOM_MD m) = 2) →
      Answers (.memoryInitDone m) s fun t =>
        s.dev.mdOn m = false ∧ t.dev.mdOn m = true
        ∧ t.ecc = s.ecc.filter (fun p => !(decide (m * 524288 ≤ p.1) && decide (p.1 < m * 524288 + 524288)))
        ∧ t = { s with ecc := t.ecc, dev := { s.dev with regs := t.dev.regs, flt := { s.dev.flt with scrub := t.dev.flt.scrub, laps := t.dev.flt.laps, lapFrom := t.dev.flt.lapFrom } } }
        ∧ (∀ b : Nat, b / 4 = m → getT 0 b t.dev.flt.scrub = 0 ∧ getT 0 b t.dev.flt.lapFrom = s.dev.pw.frames)
        ∧ (∀ b : Nat, b / 4 ≠ m → getT 0 b t.dev.flt.lapFrom = getT 0 b s.dev.flt.lapFrom)
        ∧ RegsKeepAll [(Reg.PWR_DOM_MD m).key] s.dev t.dev)
    ∧ ∀ (src : Source) (v : Word) (s : State), Passes s.dev src 0xA010 →
      Answers (.pwrMemCtrlWrite src v) s fun t =>
        t.dev.get Reg.PWR_MEM_CTRL_MD_EN = v.toNat % 16 ∧ t.dev.eff Reg.PWR_MEM_CTRL_MD_EN = s.dev.eff Reg.PWR_MEM_CTRL_MD_EN
        ∧ t.dev.queue = s.dev.queue ++ [.reg src 0xA010 v]
        ∧ t = { s with dev := { s.dev with regs := t.dev.regs, queue := t.dev.queue } }
        ∧ RegsKeepAll [Reg.PWR_MEM_CTRL_MD_EN.key] s.dev t.dev

/-! ### Records of a front-end -/

/-- RECORD_ASSEMBLED: the oldest closed capture of a channel becomes a hit record with the next SEQ of its channel, raw or on its way to an
engine; a capture that is poisoned, written off or whose two copies differ leaves no record. PIPELINE_MISMATCH marks one core cycle of the
present frame as poisoned. Frames before the data start give no record. (R210, R409, R410.) -/
def Obligations.RecordsAreAssembled : Prop :=
  (∀ (n : Nat) (differ : Bool) (k : Cap) (s : State), n < 48 → s.dev.up = true → s.dev.role = .frontEnd →
      (s.dev.chan n).caps.find? (fun c => c.stage != 2) = some k → k.stage = 1 →
      (∀ m ∈ s.dev.lowerPeers n (s.dev.closeFn k), ((s.dev.chan m).twin k).all (fun y => y.stage == 2) = true) →
      Answers (.recordAssembled n differ) s fun t =>
        (let smp := (s.dev.chan n).slice k.start (k.last - k.start + 1).toNat
         let bad := (smp ++ (s.dev.chan n).slice (k.x - 2) 4).any (·.pois) || differ || k.off
         let seq := getT 0 n s.dev.rcd.seqs
         (s.dev.recording k.fn = false → t.dev.rcd = s.dev.rcd ∧ t.dev.regs = s.dev.regs)
         ∧ (s.dev.recording k.fn = true →
              getT 0 n t.dev.rcd.seqs = (seq + 1) % 2 ^ 32
              ∧ (bad = true → t.dev.rcd.asm = s.dev.rcd.asm ∧ t.dev.rcd.ready = s.dev.rcd.ready)
              ∧ (bad = false → s.dev.lostReason n k.fn (seq % 65536) false = none → s.dev.cmpVal (s.dev.closeFn k) Reg.CMP_CTRL_HIT_EN = 0 →
                  t.dev.rcd.asm = s.dev.rcd.asm ∧ t.dev.rcd.fifo = s.dev.rcd.fifo ∧ t.dev.rcd.ready.length = s.dev.rcd.ready.length + 1
                  ∧ t.dev.rcd.ready.take s.dev.rcd.ready.length = s.dev.rcd.ready
                  ∧ t.dev.rcd.ready.getLast?.map (fun a => (a.typ, a.chan, a.fn, a.seq, a.enc)) = some (1, n, k.fn, seq % 65536, 1)
                  ∧ t.dev.rcd.ready.getLast?.map (fun a => (a.smp, a.width, a.out)) =
                      some (smp.map (·.v), 16, wordsOf (rawPayload 16 (smp.map (·.v)))))
              ∧ (bad = false → s.dev.lostReason n k.fn (seq % 65536) false = none → s.dev.cmpVal (s.dev.closeFn k) Reg.CMP_CTRL_HIT_EN ≠ 0 → smp ≠ [] →
                  t.dev.rcd.ready = s.dev.rcd.ready ∧ t.dev.rcd.fifo = s.dev.rcd.fifo ∧ t.dev.rcd.asm.length = s.dev.rcd.asm.length + 1
                  ∧ t.dev.rcd.asm.getLast?.map (fun a => (a.typ, a.chan, a.fn, a.seq)) = some (1, n, k.fn, seq % 65536)
                  ∧ t.dev.rcd.asm.getLast?.map (fun a => (a.smp, a.asmFn)) = some (smp.map (·.v), s.dev.fn)
                  ∧ t.dev.get Reg.CMP_WORDS_IN_WORDS_IN = (s.dev.get Reg.CMP_WORDS_IN_WORDS_IN + rawLen 16 smp.length) % 2 ^ 32)))
        ∧ ((t.dev.chan n).caps.find? fun c => c.x == k.x).map (·.stage) = some 2
        ∧ t.dev.chan n = { s.dev.chan n with caps := (t.dev.chan n).caps } ∧ (∀ m : Nat, m ≠ n → t.dev.chan m = s.dev.chan m)
        ∧ (∀ m : Nat, m ≠ n → m ≠ 201 → getT 0 m t.dev.rcd.seqs = getT 0 m s.dev.rcd.seqs)
        ∧ t = { s with dev := { talked s.dev t.dev with rcd := t.dev.rcd, flt := t.dev.flt, acq :=
                { s.dev.acq with chans := t.dev.acq.chans, fstats := t.dev.acq.fstats } } }
        ∧ RegsKeep (lossKeys ++ logKeys ++ [Reg.CMP_WORDS_IN_WORDS_IN.key]) s.dev t.dev)
    ∧ ∀ (n cyc : Nat) (s : State), n < 48 → s.dev.up = true → (s.dev.chan n).acquiring = true → cyc < 2 * s.dev.tm.clk.cyc →
      Answers (.pipelineMismatch n cyc) s fun t =>
        (∀ k : Nat, k ∈ (t.dev.chan n).pois ↔ k = cyc ∨ k ∈ (s.dev.chan n).pois)
        ∧ t.dev.chan n = { s.dev.chan n with pois := (t.dev.chan n).pois } ∧ (∀ m : Nat, m ≠ n → t.dev.chan m = s.dev.chan m)
        ∧ t = { s with dev := { talked s.dev t.dev with flt := t.dev.flt, acq := { s.dev.acq with chans := t.dev.acq.chans } } }
        ∧ RegsKeep logKeys s.dev t.dev

/-- COMPRESS_VERIFY_DONE: what the encoder emitted is released when it is shorter than the raw payload and the verify decoder agrees; no shorter, the
record goes raw as EXPANDED; a failed verify goes raw with its cause. RECORD_BYPASS: a record still outside an engine two frames after its
assembly goes raw as BYPASS. The record leaves the engines either way, to the end of the ready list. (R259, R262.) -/
def Obligations.CompressionReleasesRecords : Prop :=
  (∀ (e : Nat) (emitted : Option (List Word)) (a : Asm) (s : State), e < 8 → s.dev.up = true →
      s.dev.rcd.asm.find? (fun x => x.engine == some e) = some a →
      Answers (.compressVerifyDone e emitted) s fun t =>
        (let ref := s.dev.refSamples a
         let own := encodeRecord a.width (s.dev.allowedPreds a.cfgFn ref.isSome) (if ref.isSome then a.ref else none) a.smp (ref.getD [])
         let ws := (emitted.map natsOf).getD own
         let new : Asm := if rawLen a.width a.smp.length ≤ ws.length ∨ (verifyCause a ref ws).isSome = true then a.raw
           else { a with enc := 2, out := wordsOf ws, engine := none }
         t.dev.rcd.ready = s.dev.rcd.ready ++ [new]
         ∧ t.dev.rcd.asm.map (fun x => (x.typ, x.chan, x.fn, x.seq, x.smp)) =
             (s.dev.rcd.asm.filter (fun x => x != a)).map (fun x => (x.typ, x.chan, x.fn, x.seq, x.smp))
         ∧ t.dev.get Reg.CMP_WORDS_OUT_WORDS_OUT = (s.dev.get Reg.CMP_WORDS_OUT_WORDS_OUT + new.out.length) % 2 ^ 32
         ∧ (rawLen a.width a.smp.length ≤ ws.length →
             t.dev.get Reg.CMP_RAW_STATS_EXPANDED = (s.dev.get Reg.CMP_RAW_STATS_EXPANDED + 1) % 65536)
         ∧ (ws.length < rawLen a.width a.smp.length → t.dev.get Reg.CMP_RAW_STATS_EXPANDED = s.dev.get Reg.CMP_RAW_STATS_EXPANDED)
         ∧ (ws.length < rawLen a.width a.smp.length → verifyCause a ref ws = none →
             t.dev.get Reg.CMP_REC_STATS_COMPRESSED = (s.dev.get Reg.CMP_REC_STATS_COMPRESSED + 1) % 65536)
         ∧ (∀ c : Nat, ws.length < rawLen a.width a.smp.length → verifyCause a ref ws = some c →
             t.dev.get Reg.CMP_VERIFY_STATS_VERIFY_FAIL = (s.dev.get Reg.CMP_VERIFY_STATS_VERIFY_FAIL + 1) % 65536
             ∧ t.dev.get Reg.CMP_VERIFY_STATS_LAST_CAUSE = c % 16))
        ∧ t = { s with dev := { talked s.dev t.dev with flt := t.dev.flt, rcd := { s.dev.rcd with asm := t.dev.rcd.asm, ready := t.dev.rcd.ready } } }
        ∧ RegsKeep (logKeys ++ [Reg.REC_FIFO_LEVEL_PAGES_USED.key, Reg.REC_FIFO_LEVEL_HIGH_WATER.key, Reg.CMP_WORDS_OUT_WORDS_OUT.key, Reg.CMP_RAW_STATS_EXPANDED.key, Reg.CMP_REC_STATS_COMPRESSED.key,
            Reg.CMP_REC_STATS_DEPENDENT.key, Reg.CMP_VERIFY_STATS_VERIFY_FAIL.key, Reg.CMP_VERIFY_STATS_LAST_CAUSE.key]) s.dev t.dev)
    ∧ ∀ (a : Asm) (s : State), s.dev.up = true → s.dev.rcd.asm.find? (fun x => x.engine.isNone && decide (x.asmFn + 1 < s.dev.fn)) = some a →
      Answers .recordBypass s fun t =>
        t.dev.rcd.ready = s.dev.rcd.ready ++ [a.raw] ∧ t.dev.get Reg.CMP_RAW_STATS_BYPASS = (s.dev.get Reg.CMP_RAW_STATS_BYPASS + 1) % 65536
        ∧ t.dev.rcd.asm.map (fun x => (x.typ, x.chan, x.fn, x.seq, x.smp)) =
            (s.dev.rcd.asm.filter (fun x => x != a)).map (fun x => (x.typ, x.chan, x.fn, x.seq, x.smp))
        ∧ t = { s with dev := { s.dev with regs := t.dev.regs, rcd := { s.dev.rcd with asm := t.dev.rcd.asm, ready := t.dev.rcd.ready } } }
        ∧ RegsKeepAll [Reg.CMP_RAW_STATS_BYPASS.key, Reg.CMP_WORDS_OUT_WORDS_OUT.key, Reg.REC_FIFO_LEVEL_PAGES_USED.key,
            Reg.REC_FIFO_LEVEL_HIGH_WATER.key] s.dev t.dev

/-- The record FIFO takes the next ready record, with the records that depend on it, when they leave the reserve free, and drops them and counts
them otherwise; the summary of the oldest settled frame follows its last record, or waits where the reserve has no room. A flush discards every record that is not being sent, clears
FLUSH_BUSY and counts; one in progress absorbs a second request. (R216, R224, R225, R227, R234.) -/
def Obligations.RecordFifoTakesKeepsAndFlushes : Prop :=
  (∀ (a : Asm) (s : State), s.dev.up = true → s.dev.role = .frontEnd → s.dev.rcd.ready.find? s.dev.mayEnter = some a →
      (∀ x ∈ s.dev.rcd.ready, s.dev.lostReason x.chan x.fn x.seq (x.typ == 2) = none) →
      (let run := a :: sortBy (fun x y => decide (x.chan < y.chan)) (s.dev.rcd.ready.filter fun x => x.isDep a)
       let words := (run.map fun x => (s.dev.asmWords x).length).sum
       let pages := ({ s.dev with rcd := { s.dev.rcd with ready := s.dev.rcd.ready.filter fun x => !(run.contains x) } }).fifoPages words
       Answers .recordFifoWrite s fun t =>
        t.dev.rcd.ready = s.dev.rcd.ready.filter (fun x => !(run.contains x))
        ∧ (pages + s.dev.reservePages ≤ s.dev.rcd.pool →
            t.dev.rcd.fifo.map (fun r => (r.words, r.fn, r.own, r.begun)) =
              s.dev.rcd.fifo.map (fun r => (r.words, r.fn, r.own, r.begun)) ++ run.map (fun x => (wordsOf (s.dev.asmWords x), x.fn, true, []))
            ∧ t.dev.rcd.fifoWr = (s.dev.rcd.fifoWr + words) % 262144)
        ∧ (s.dev.rcd.pool < pages + s.dev.reservePages →
            (t.dev.rcd.fifo.filter (fun r => r.typ == 1 || r.typ == 2)).map (·.id) =
              (s.dev.rcd.fifo.filter (fun r => r.typ == 1 || r.typ == 2)).map (·.id))
        ∧ t = { s with dev := { s.dev with regs := t.dev.regs, rcd := t.dev.rcd, acq := { s.dev.acq with fstats := t.dev.acq.fstats } } }
        ∧ RegsKeepAll lossKeys s.dev t.dev))
    ∧ (∀ (f : FStat) (s : State), s.dev.up = true → s.dev.role = .frontEnd →
      s.dev.acq.fstats.find? (fun f => !f.summed && !f.gone && s.dev.recording f.fn) = some f → 2 ≤ f.age → s.dev.frameBusy f.fn = false →
      (s.dev.rcd.pool < s.dev.fifoPages 27 →
        exec .frameSummaryWrite s = .next (if s.dev.rcd.sumWait.contains f.fn then s
          else { s with dev := { s.dev with rcd := { s.dev.rcd with sumWait := s.dev.rcd.sumWait ++ [f.fn] } } }))
      ∧ (s.dev.fifoPages 27 ≤ s.dev.rcd.pool → Answers .frameSummaryWrite s fun t =>
        t.dev.rcd.fifo.length = s.dev.rcd.fifo.length + 1 ∧ t.dev.rcd.fifo.take s.dev.rcd.fifo.length = s.dev.rcd.fifo
        ∧ t.dev.rcd.fifo.getLast?.map (fun r => (r.words, r.fn, r.own)) =
            some (wordsOf (summaryWords f (getT 0 200 s.dev.rcd.seqs % 65536)), f.fn, true)
        ∧ getT 0 200 t.dev.rcd.seqs = (getT 0 200 s.dev.rcd.seqs + 1) % 2 ^ 32
        ∧ (t.dev.acq.fstats.find? fun x => x.fn == f.fn).map (·.summed) = some true
        ∧ t = { s with dev := { s.dev with regs := t.dev.regs, rcd := t.dev.rcd, acq := { s.dev.acq with fstats := t.dev.acq.fstats } } }
        ∧ RegsKeepAll [Reg.REC_FIFO_LEVEL_PAGES_USED.key, Reg.REC_FIFO_LEVEL_HIGH_WATER.key] s.dev t.dev))
    ∧ (∀ (src : Source) (s : State), Passes s.dev src 0x7004 → (s.dev.role = .frontEnd ∨ s.dev.role = .cell) →
      Answers (.flush src) s fun t =>
        t.dev.get Reg.REC_FIFO_CTRL_FLUSH_BUSY = 1 ∧ t.dev.rcd.flush = some (max 7 (s.dev.rcd.flush.getD 0))
        ∧ t = { s with dev := { s.dev with regs := t.dev.regs, rcd := { s.dev.rcd with flush := t.dev.rcd.flush } } }
        ∧ RegsKeepAll [Reg.REC_FIFO_CTRL_FLUSH_BUSY.key] s.dev t.dev)
    ∧ ∀ (reason : Nat) (s : State), s.dev.up = true → s.dev.rcd.flush = some reason →
      Answers .flushExecute s fun t =>
        t.dev.rcd.flush = none ∧ t.dev.rcd.ready = [] ∧ t.dev.get Reg.REC_FIFO_CTRL_FLUSH_BUSY = 0
        ∧ t.dev.get Reg.REC_FIFO_FLUSHES_FLUSHES = (s.dev.get Reg.REC_FIFO_FLUSHES_FLUSHES + 1) % 65536
        ∧ t.dev.get Reg.REC_FIFO_FLUSHES_WRITTEN_OFF = (s.dev.get Reg.REC_FIFO_FLUSHES_WRITTEN_OFF
            + (s.dev.rcd.fifo.filter fun r => !s.dev.isSending r.id).length
            + ((s.dev.rcd.asm.filter fun a => a.engine.isSome).length + s.dev.rcd.ready.length)) % 65536
        ∧ (∀ r ∈ t.dev.rcd.fifo, (∃ q ∈ s.dev.rcd.fifo, q.id = r.id ∧ s.dev.isSending q.id = true) ∨ s.dev.rcd.nextId ≤ r.id)
        ∧ (∀ q ∈ s.dev.rcd.fifo, s.dev.isSending q.id = true → q.id ∈ t.dev.rcd.fifo.map (·.id))
        ∧ (∀ l : Nat, t.dev.lane l = { s.dev.lane l with tx := (t.dev.lane l).tx }
            ∧ ∀ x ∈ (s.dev.lane l).tx, s.dev.isSending x.id = true → x ∈ (t.dev.lane l).tx)
        ∧ t = { s with dev := { s.dev with regs := t.dev.regs, rcd := t.dev.rcd, lanes := t.dev.lanes, acq := { s.dev.acq with fstats := t.dev.acq.fstats } } }
        ∧ RegsKeepAll (lossKeys ++ [Reg.REC_FIFO_CTRL_FLUSH_BUSY.key, Reg.REC_FIFO_FLUSHES_FLUSHES.key, Reg.REC_FIFO_FLUSHES_WRITTEN_OFF.key])
            s.dev t.dev

/-- UPLINK_SEND begins the chosen record, with the records that depend on it, on a data lane of its group, in FIFO order and word for word (no stored
word in error here). RECORD_WITHDRAW at the boundary that opens F+16 (F+48 in a cell device) leaves no record of F that is not being sent but
summaries and losses, whose turn is a frame later, and a reference some dependent of which is still being sent, and keeps what is being sent.
UPLINK_COPY_ABANDON takes every copy off a lane that has left data service or the mask: one that has begun ends there with no further word. (R220, R226.) -/
def Obligations.UplinksSendWithdrawAndAbandon : Prop :=
  (∀ (l : Nat) (g : List Nat) (r : FRec) (s : State), l < 48 → s.dev.up = true → s.dev.rcd.flush = none → s.ecc = [] →
      s.dev.upGroups.find? (fun g => (s.dev.dataLanes g).contains l) = some g → s.dev.pickSend g l = some r →
      Answers (.uplinkSend l) s fun t =>
        (t.dev.lane l).tx.map (fun x => (x.id, x.fn, x.started, x.words)) =
          (s.dev.lane l).tx.map (fun x => (x.id, x.fn, x.started, x.words))
            ++ (r :: s.dev.depsOf r).map (fun q => (q.id, q.fn, false, if q.isSummary q.fn then wordsOf (s.dev.fillSummary q) else q.words))
        ∧ t.dev.rcd.fifo.map (·.id) = s.dev.rcd.fifo.map (·.id)
        ∧ (t.dev.rcd.fifo.find? fun q => q.id == r.id).map (fun q => q.begun.contains l) = some true
        ∧ t.dev.lane l = { s.dev.lane l with tx := (t.dev.lane l).tx } ∧ (∀ m : Nat, m ≠ l → t.dev.lane m = s.dev.lane m)
        ∧ t = { s with dev := { s.dev with regs := t.dev.regs, lanes := t.dev.lanes, rcd := { s.dev.rcd with fifo := t.dev.rcd.fifo } } }
        ∧ RegsKeepAll ((List.range 4).map fun k => (Reg.TRG_STREAM_STATUS_SPILL k).key) s.dev t.dev)
    ∧ (∀ s : State, s.dev.up = true → (s.dev.role = .frontEnd ∨ s.dev.role = .cell) →
      (let k := if s.dev.role = .cell then 48 else 16
       let idle (q : FRec) : Bool := q.begun.all fun m => q.left.contains m
       let acct (q : FRec) : Bool := q.typ == 3 || q.typ == 4 || q.typ == 5
       let ends (q : FRec) : Bool := idle q && (if acct q then decide (q.fn + k < s.dev.fn) else decide (q.fn + k ≤ s.dev.fn))
       let gone (q : FRec) : Bool := ends q && (s.dev.depsOf q).all ends
       Answers .recordWithdraw s fun t =>
        (∀ r ∈ t.dev.rcd.fifo, s.dev.rcd.nextId ≤ r.id ∨ ∃ q ∈ s.dev.rcd.fifo, q.id = r.id ∧ gone q = false)
        ∧ (∀ q ∈ s.dev.rcd.fifo, q.begun ≠ [] → (∀ x ∈ s.dev.rcd.fifo, x.id = q.id → gone x = false) → q.id ∈ t.dev.rcd.fifo.map (·.id))
        ∧ t.dev.get Reg.REC_FIFO_STATS_WITHDRAWN % 65536 = (s.dev.get Reg.REC_FIFO_STATS_WITHDRAWN
            + (s.dev.rcd.fifo.filter fun q => gone q && q.left.isEmpty && !acct q).length) % 65536
        ∧ t = { s with dev := { s.dev with regs := t.dev.regs, rcd := t.dev.rcd, acq := { s.dev.acq with fstats := t.dev.acq.fstats } } }
        ∧ RegsKeepAll (lossKeys ++ [Reg.REC_FIFO_STATS_WITHDRAWN.key]) s.dev t.dev))
    ∧ ∀ (l : Nat) (s : State), l < 48 → s.dev.up = true → (s.dev.lane l).tx ≠ [] →
      (s.dev.inData l = false ∨ l ∉ s.dev.maskedUplinks) →
      (let ends (x : TxItem) : Option TxItem := if x.cut then some x else if x.started then some { x with words := [], cut := true } else none
       Answers (.uplinkCopyAbandon l) s fun t =>
        t.dev.lane l = { s.dev.lane l with tx := (s.dev.lane l).tx.filterMap ends }
        ∧ (∀ m : Nat, m ≠ l → t.dev.lane m = s.dev.lane m)
        ∧ t.dev.rcd.fifo.map (fun r => (r.id, r.words)) = s.dev.rcd.fifo.map (fun r => (r.id, r.words))
        ∧ (∀ r ∈ t.dev.rcd.fifo, r.id ∈ (s.dev.lane l).tx.map (·.id) → l ∉ r.begun ∧ l ∉ r.left)
        ∧ t = { s with dev := { s.dev with lanes := t.dev.lanes, rcd := { s.dev.rcd with fifo := t.dev.rcd.fifo } } })

/-- A read of REC_DIAG_DATA latches the word of the queue that REC_DIAG_SEL names and its tag, and takes nothing out (no stored word in error
here); past the end of the queue it reads 0 with NOT_VALID. (R232.) -/
def Obligations.DiagnosticReadsShowTheQueue : Prop :=
  (∀ (v : Nat) (a : Option Nat) (op : Bool) (s : State), s.dev.up = true → s.dev.role ≠ .hub → s.ecc = [] →
      s.dev.diagWords[s.dev.get Reg.REC_DIAG_SEL_WORD]? = some (v, a, op) →
      Answers .recDiagRead s fun t =>
        t.dev.get Reg.REC_DIAG_DATA_DATA = v % 2 ^ 32 ∧ t.dev.get Reg.REC_DIAG_TAG_NOT_VALID = 0 ∧ t.dev.flag Reg.REC_DIAG_TAG_OPEN = op
        ∧ t.dev.get Reg.REC_DIAG_TAG_CORRECTED = 0 ∧ t.dev.get Reg.REC_DIAG_TAG_UNCORRECTABLE = 0 ∧ t.dev.get Reg.REC_DIAG_TAG_SENT = 0
        ∧ t = { s with dev := { s.dev with regs := t.dev.regs } }
        ∧ RegsKeepAll [Reg.REC_DIAG_DATA_DATA.key, Reg.REC_DIAG_TAG_NOT_VALID.key, Reg.REC_DIAG_TAG_OPEN.key, Reg.REC_DIAG_TAG_CORRECTED.key,
            Reg.REC_DIAG_TAG_UNCORRECTABLE.key, Reg.REC_DIAG_TAG_SENT.key] s.dev t.dev)
    ∧ (∀ (v : Nat) (sent : Bool) (what : Victim) (s : State), s.dev.up = true → s.dev.role = .hub → s.ecc = [] →
      ((s.dev.ring (s.dev.get Reg.REC_DIAG_SEL_QUEUE)).diagWords (s.dev.get Reg.REC_DIAG_SEL_QUEUE))[s.dev.get Reg.REC_DIAG_SEL_WORD]?
        = some (v, sent, what) →
      Answers .recDiagRead s fun t =>
        t.dev.get Reg.REC_DIAG_DATA_DATA = v % 2 ^ 32 ∧ t.dev.get Reg.REC_DIAG_TAG_NOT_VALID = 0 ∧ t.dev.flag Reg.REC_DIAG_TAG_SENT = sent
        ∧ t.dev.get Reg.REC_DIAG_TAG_CORRECTED = 0 ∧ t.dev.get Reg.REC_DIAG_TAG_UNCORRECTABLE = 0 ∧ t.dev.get Reg.REC_DIAG_TAG_OPEN = 0
        ∧ t = { s with dev := { s.dev with regs := t.dev.regs, free := t.dev.free } }
        ∧ RegsKeepAll [Reg.REC_DIAG_DATA_DATA.key, Reg.REC_DIAG_TAG_NOT_VALID.key, Reg.REC_DIAG_TAG_OPEN.key, Reg.REC_DIAG_TAG_CORRECTED.key,
            Reg.REC_DIAG_TAG_UNCORRECTABLE.key, Reg.REC_DIAG_TAG_SENT.key] s.dev t.dev)
    ∧ ∀ s : State, s.dev.up = true →
      (s.dev.role ≠ .hub → s.dev.diagWords[s.dev.get Reg.REC_DIAG_SEL_WORD]? = none) →
      (s.dev.role = .hub → ((s.dev.ring (s.dev.get Reg.REC_DIAG_SEL_QUEUE)).diagWords (s.dev.get Reg.REC_DIAG_SEL_QUEUE))[s.dev.get Reg.REC_DIAG_SEL_WORD]?
        = none) →
      Answers .recDiagRead s fun t =>
        t.dev.get Reg.REC_DIAG_DATA_DATA = 0 ∧ t.dev.get Reg.REC_DIAG_TAG_NOT_VALID = 1
        ∧ t = { s with dev := { s.dev with regs := t.dev.regs } }

/-! ### Lanes -/

/-- A lane goes BLIND to FRAMED after 4 accepted frames, and FRAMED to RAISING after 16 that met the raise conditions; a lane BLIND for 1,000 frames
starts its receiver again; a raise without a full-rate frame within 16 frames, or 8 frames in a row not accepted, makes the lane BLIND: ATTESTED is
cleared, no command stays queued for it and no reply but where R290 still names the lane (log entry 61), its crossing is flushed, and after a failed
raise it waits 1,000 frames. (R357, R360, R362.) -/
def Obligations.LaneStateTransitions : Prop :=
  (∀ (l : Nat) (s : State), l < 48 → s.dev.up = true → s.dev.lstate l = 1 → 4 ≤ (s.dev.lane l).okRun →
      Answers (.laneFramed l) s fun t =>
        t.dev.lstate l = 2 ∧ t.dev.get Reg.GLB_BRINGUP_STATUS_ANY_FRAMED = 1 ∧ (t.dev.xing l).held = false
        ∧ (∀ m : Nat, t.dev.lane m = s.dev.lane m)
        ∧ t = { s with dev := { talked s.dev t.dev with cross := t.dev.cross } }
        ∧ RegsKeep [(Reg.LN_STATUS_LSTATE l).key, Reg.GLB_BRINGUP_STATUS_ANY_FRAMED.key] s.dev t.dev)
    ∧ (∀ (l : Nat) (s : State), l < 48 → s.dev.up = true → s.dev.lstate l = 1 → (s.dev.lane l).sinceFn + 1000 ≤ s.dev.fn →
      Answers (.blindRetry l) s fun t =>
        t.dev.lane l = { s.dev.lane l with sinceFn := s.dev.fn, okRun := 0, commaAt := none, rxRd := none } ∧ (∀ m : Nat, m ≠ l → t.dev.lane m = s.dev.lane m)
        ∧ t.dev.get (Reg.LN_RETRY_RETRIES l) = (s.dev.get (Reg.LN_RETRY_RETRIES l) + 1) % 65536
        ∧ t = { s with dev := { s.dev with regs := t.dev.regs, lanes := t.dev.lanes } }
        ∧ RegsKeepAll [(Reg.LN_RETRY_RETRIES l).key] s.dev t.dev)
    ∧ (∀ (l : Nat) (s : State), l < 48 → s.dev.up = true → s.dev.lstate l = 2 → 16 ≤ (s.dev.lane l).raiseRun → s.dev.fullOk l = true →
      (s.dev.lane l).noRaiseUntil ≤ s.dev.fn →
      Answers (.laneRaise l) s fun t =>
        t.dev.lstate l = 3 ∧ t.dev.lane l = { s.dev.lane l with switchFn := s.dev.fn + 1, raiseRun := 0 }
        ∧ (∀ m : Nat, m ≠ l → t.dev.lane m = s.dev.lane m)
        ∧ t = { s with dev := talked s.dev t.dev } ∧ RegsKeep [(Reg.LN_STATUS_LSTATE l).key] s.dev t.dev)
    ∧ ∀ (c : Instr) (l : Nat) (s : State), l < 48 → s.dev.up = true →
      (c = .raiseTimeout l ∧ s.dev.lstate l = 3 ∧ (s.dev.lane l).rxGot = false ∧ (s.dev.lane l).switchFn + 17 < s.dev.fn
        ∨ c = .framingLost l ∧ (s.dev.lstate l = 2 ∨ s.dev.lstate l = 3 ∨ s.dev.lstate l = 4) ∧ 8 ≤ (s.dev.lane l).badRun) →
      Answers c s fun t =>
        t.dev.lstate l = 1 ∧ t.dev.get (Reg.LN_STATUS_RATE l) = 0
        ∧ t.dev.get (Reg.LN_ERR_STATS_FRAMING_LOSS l) = min (s.dev.get (Reg.LN_ERR_STATS_FRAMING_LOSS l) + 1) 15
        ∧ t.dev.effB (Reg.LN_CTRL_ATTESTED l) = false ∧ (t.dev.lane l).fwdQ = [] ∧ (t.dev.lane l).okRun = 0 ∧ (t.dev.lane l).badRun = 0
        ∧ (t.dev.lane l).txFull = false ∧ (t.dev.lane l).noRaiseUntil = (if s.dev.lstate l = 3 then s.dev.fn + 1000 else (s.dev.lane l).noRaiseUntil)
        ∧ (t.dev.lane l).recIn = (s.dev.lane l).recIn ∧ (t.dev.lane l).msgIn = (s.dev.lane l).msgIn ∧ (t.dev.lane l).tx = (s.dev.lane l).tx
        ∧ ((t.dev.lane l).ansQ = [] ∨ t.dev.upLane = some l ∧ (t.dev.lane l).ansQ = (s.dev.lane l).ansQ)
        ∧ (t.dev.lane l).commaAt = none ∧ (t.dev.lane l).rxRd = none ∧ (t.dev.lane l).partnerDev = (s.dev.lane l).partnerDev
        ∧ (∀ h : Nat, h ≠ l → t.dev.xing h = s.dev.xing h)
        ∧ (s.dev.role.usesLane l = true → (t.dev.xing l).held = true ∧ (t.dev.xing l).val.reg = none ∧ (t.dev.xing l).cnt.reg = none
            ∧ t.dev.get Reg.XC_TOTAL_FLUSHES = (s.dev.get Reg.XC_TOTAL_FLUSHES + 1) % 65536)
        ∧ t = { s with dev := { talked s.dev t.dev with
            force := t.dev.force, cross := t.dev.cross,
            hr := { s.dev.hr with rings := t.dev.hr.rings,
                                  outst := s.dev.hr.outst.filter fun o => !((s.dev.lane l).fwdQ.any fun m => o.seq == m.seq) } } }
        ∧ RegsKeep [(Reg.LN_STATUS_LSTATE l).key, (Reg.LN_STATUS_RATE l).key, (Reg.LN_ERR_STATS_FRAMING_LOSS l).key,
            (Reg.LN_CTRL_ATTESTED l).key, (Reg.LN_STATUS_ATTEST_LOST l).key, Reg.MRG_MGMT_STATS_UNREACHABLE.key,
            Reg.XC_TOTAL_FLUSHES.key] s.dev t.dev

/-- The lane control commands write one bit of LN_CTRL and queue the word for the next boundary, in every lane the role uses; in any other lane
nothing is written. An eye-scan start without throttle actions sets BUSY and clears DONE and ERRORS, and ends after its dwell with the
disagreements, none at the centre. (R357, R359, R363, R364, R369, R371, R484.) -/
def Obligations.LaneControlsAndEyeScan : Prop :=
  (∀ (c : Instr) (src : Source) (l b : Nat) (on : Bool) (f : Fld) (s : State), l < 48 → Passes s.dev src (0x5000 + 0x80 * l) →
      s.dev.role.usesLane l = true →
      (c = .laneEnable src l ∧ b = 0 ∧ on = true ∧ f = Reg.LN_CTRL_ENABLE l ∨ c = .laneDisable src l ∧ b = 0 ∧ on = false ∧ f = Reg.LN_CTRL_ENABLE l
        ∨ c = .laneIdleEnter src l ∧ b = 1 ∧ on = true ∧ f = Reg.LN_CTRL_IDLE l ∨ c = .laneIdleExit src l ∧ b = 1 ∧ on = false ∧ f = Reg.LN_CTRL_IDLE l
        ∨ c = .laneAttestSet src l on ∧ b = 4 ∧ f = Reg.LN_CTRL_ATTESTED l) →
      Answers c s fun t =>
        t.dev.flag f = on
        ∧ (∀ g ∈ fieldsAt (0x5000 + 0x80 * l), g ≠ f → t.dev.get g = if g.acc = .rw then s.dev.get g % 2 ^ g.width else s.dev.get g)
        ∧ t.dev.queue = s.dev.queue ++ [.reg src (0x5000 + 0x80 * l)
            (let v := s.dev.readFields (fieldsAt (0x5000 + 0x80 * l)); w32 (if on then setBit v b else clearBit v b))]
        ∧ t = { s with dev := { s.dev with regs := t.dev.regs, queue := t.dev.queue } }
        ∧ RegsKeepAll ((fieldsAt (0x5000 + 0x80 * l)).map Fld.key) s.dev t.dev)
    ∧ (∀ (src : Source) (l : Nat) (s : State), l < 48 → Passes s.dev src (0x5000 + 0x80 * l) → s.dev.role.usesLane l = true →
      Answers (.assayStart src l) s fun t =>
        t.dev.queue = s.dev.queue ++ [.reg src (0x5000 + 0x80 * l) (w32 (setBit (s.dev.readFields (fieldsAt (0x5000 + 0x80 * l))) 10))]
        ∧ (∀ g ∈ fieldsAt (0x5000 + 0x80 * l), t.dev.get g = if g.acc = .rw then s.dev.get g % 2 ^ g.width else s.dev.get g)
        ∧ t = { s with dev := { s.dev with regs := t.dev.regs, queue := t.dev.queue } }
        ∧ RegsKeepAll ((fieldsAt (0x5000 + 0x80 * l)).map Fld.key) s.dev t.dev)
    ∧ (∀ (c : Instr) (src : Source) (l a : Nat) (s : State), l < 48 → Passes s.dev src a → s.dev.role.usesLane l = false →
      (c = .laneEnable src l ∧ a = 0x5000 + 0x80 * l ∨ c = .laneDisable src l ∧ a = 0x5000 + 0x80 * l ∨ c = .laneIdleEnter src l ∧ a = 0x5000 + 0x80 * l
        ∨ c = .laneIdleExit src l ∧ a = 0x5000 + 0x80 * l ∨ c = .assayStart src l ∧ a = 0x5000 + 0x80 * l) → exec c s = .next s)
    ∧ (∀ (src : Source) (l : Nat) (v : Word) (s : State), l < 48 → Passes s.dev src (0x5024 + 0x80 * l) → s.dev.role.usesLane l = true →
      Answers (.eyeScanStart src l v) s fun t =>
        t.dev.get (Reg.LN_EYE_CTRL_H l) = v.toNat % 64 ∧ t.dev.get (Reg.LN_EYE_CTRL_V l) = v.toNat / 64 % 128
        ∧ t.dev.get (Reg.LN_EYE_CTRL_DWELL_LOG2 l) = v.toNat / 8192 % 16
        ∧ ((bitOf v.toNat 17 = true ∧ s.dev.pw.throttle = false) →
            t.dev.get (Reg.LN_EYE_CTRL_BUSY l) = 1 ∧ t.dev.get (Reg.LN_EYE_CTRL_DONE l) = 0 ∧ t.dev.get (Reg.LN_EYE_ERR_ERRORS l) = 0
            ∧ t.dev.lane l = { s.dev.lane l with eyeFn := s.dev.fn })
        ∧ (¬ (bitOf v.toNat 17 = true ∧ s.dev.pw.throttle = false) →
            t.dev.lane l = s.dev.lane l ∧ t.dev.get (Reg.LN_EYE_CTRL_BUSY l) = s.dev.get (Reg.LN_EYE_CTRL_BUSY l)
            ∧ t.dev.get (Reg.LN_EYE_CTRL_DONE l) = s.dev.get (Reg.LN_EYE_CTRL_DONE l)
            ∧ t.dev.get (Reg.LN_EYE_ERR_ERRORS l) = s.dev.get (Reg.LN_EYE_ERR_ERRORS l))
        ∧ (∀ m : Nat, m ≠ l → t.dev.lane m = s.dev.lane m)
        ∧ t = { s with dev := { s.dev with regs := t.dev.regs, lanes := t.dev.lanes } }
        ∧ RegsKeepAll [(Reg.LN_EYE_CTRL_H l).key, (Reg.LN_EYE_CTRL_V l).key, (Reg.LN_EYE_CTRL_DWELL_LOG2 l).key, (Reg.LN_EYE_CTRL_BUSY l).key,
            (Reg.LN_EYE_CTRL_DONE l).key, (Reg.LN_EYE_ERR_ERRORS l).key] s.dev t.dev)
    ∧ ∀ (l e : Nat) (s : State), l < 48 → s.dev.up = true → s.dev.get (Reg.LN_EYE_CTRL_BUSY l) = 1 →
      (s.dev.lane l).eyeFn + 2 ^ (20 + min 12 (s.dev.get (Reg.LN_EYE_CTRL_DWELL_LOG2 l))) / (if (s.dev.lane l).txFull then 20000 else 5000) ≤ s.dev.fn →
      Answers (.eyeScanDone l e) s fun t =>
        t.dev.get (Reg.LN_EYE_CTRL_BUSY l) = 0 ∧ t.dev.get (Reg.LN_EYE_CTRL_DONE l) = 1
        ∧ t.dev.get (Reg.LN_EYE_ERR_ERRORS l) =
            (if s.dev.get (Reg.LN_EYE_CTRL_H l) = 0 ∧ s.dev.get (Reg.LN_EYE_CTRL_V l) = 0 then 0 else min e (2 ^ 32 - 1))
        ∧ t = { s with dev := { s.dev with regs := t.dev.regs } }
        ∧ RegsKeepAll [(Reg.LN_EYE_CTRL_BUSY l).key, (Reg.LN_EYE_CTRL_DONE l).key, (Reg.LN_EYE_ERR_ERRORS l).key] s.dev t.dev

/-- LANE_FRAME_RECEIVED: where a lane frame was due and none came, a signal in which none is found, or a rejected lane frame, ends the run of accepted
frames and abandons records in progress, but while training that was announced lasts; the code errors of every signal count; a rejected one counts in
CRC_FAIL, and in the lane's assay beyond BLIND; an accepted one counts in FRAMES_OK and says what the partner is ready for; a BLIND lane uses nothing
else of it. A frame between 4 and 12 words of fill is left alone by the crossing, one outside is rejected. (R355, R356, R358, R390, R392.) -/
def Obligations.LaneFramesAreAcceptedOrRejected : Prop :=
  (∀ (l : Nat) (s : State), l < 48 → s.dev.up = true → s.dev.role.usesLane l = true → s.dev.lstate l ≠ 0 → s.dev.lstate l ≠ 6 →
      Answers (.laneFrameReceived l .silence) s fun t =>
        t.dev.lane l = (if (s.dev.lane l).partnerIdle = true ∨ s.dev.fn ≤ (s.dev.lane l).trainUntil
          then { s.dev.lane l with rxRd := none }
          else { s.dev.lane l with
            okRun := 0, raiseRun := 0, badRun := (s.dev.lane l).badRun + 1, lastMissing := true, rxRd := none,
            recRx := (s.dev.lane l).recRx.lose.2, strRx := (s.dev.lane l).strRx.lose.2,
            commaAt := if s.dev.lstate l = 1 then none else (s.dev.lane l).commaAt })
        ∧ (∀ m : Nat, m ≠ l → t.dev.lane m = s.dev.lane m)
        ∧ t = { s with dev := { s.dev with regs := t.dev.regs, lanes := t.dev.lanes } }
        ∧ RegsKeepAll [Reg.MRG_RX_STATS_PARTIAL.key] s.dev t.dev)
    ∧ (∀ (l : Nat) (cs : List Nat) (s : State), l < 48 → s.dev.up = true → s.dev.role.usesLane l = true → s.dev.lstate l ≠ 0 → s.dev.lstate l ≠ 6 →
      Answers (.laneFrameReceived l (.noise cs)) s fun t =>
        t.dev.get (Reg.LN_ERR_STATS_CODE_ERR l) = min (s.dev.get (Reg.LN_ERR_STATS_CODE_ERR l) + noiseErrors (s.dev.receive l cs).1) 4095
        ∧ t.dev.lane l = (if s.dev.fn ≤ (s.dev.lane l).trainUntil then
            { s.dev.lane l with rxRd := some (s.dev.receive l cs).2, partnerIdle := false }
          else { s.dev.lane l with
            okRun := 0, raiseRun := 0, badRun := (s.dev.lane l).badRun + 1, lastMissing := true, rxRd := some (s.dev.receive l cs).2,
            partnerIdle := false, recRx := (s.dev.lane l).recRx.lose.2, strRx := (s.dev.lane l).strRx.lose.2,
            commaAt := if s.dev.lstate l = 1 then none else (s.dev.lane l).commaAt })
        ∧ (∀ m : Nat, m ≠ l → t.dev.lane m = s.dev.lane m)
        ∧ t = { s with dev := { s.dev with regs := t.dev.regs, lanes := t.dev.lanes } }
        ∧ RegsKeepAll [Reg.MRG_RX_STATS_PARTIAL.key, (Reg.LN_ERR_STATS_CODE_ERR l).key] s.dev t.dev)
    ∧ (∀ (l : Nat) (r : LaneRx) (s : State), l < 48 → s.dev.up = true → s.dev.role.usesLane l = true → s.dev.lstate l ≠ 0 → s.dev.lstate l ≠ 6 →
      ¬ AcceptsLf s.dev l r → (s.dev.lane l).trainUntil < s.dev.fn →
      Answers (.laneFrameReceived l (.frame r)) s fun t =>
        t.dev.get (Reg.LN_ERR_STATS_CRC_FAIL l) = (s.dev.get (Reg.LN_ERR_STATS_CRC_FAIL l) + 1) % 65536
        ∧ t.dev.get (Reg.LN_ERR_STATS_CODE_ERR l) =
            min (s.dev.get (Reg.LN_ERR_STATS_CODE_ERR l) + frameErrors (s.dev.receive l r.chars).1) 4095
        ∧ (t.dev.lane l).okRun = 0 ∧ (t.dev.lane l).badRun = (s.dev.lane l).badRun + 1 ∧ (t.dev.lane l).recRx = (s.dev.lane l).recRx.lose.2
        ∧ (t.dev.lane l).strRx = (s.dev.lane l).strRx.lose.2
        ∧ (t.dev.lane l).recIn = (s.dev.lane l).recIn ∧ (t.dev.lane l).msgIn = (s.dev.lane l).msgIn
        ∧ t.dev.lstate l = s.dev.lstate l ∧ (∀ m : Nat, m ≠ l → t.dev.lane m = s.dev.lane m)
        ∧ (s.dev.lstate l = 1 ∨ s.dev.lstate l = 5 → t.dev.flt = s.dev.flt)
        ∧ t = { s with dev := { talked s.dev t.dev with flt := t.dev.flt } }
        ∧ RegsKeep (logKeys ++ [Reg.MRG_RX_STATS_PARTIAL.key, (Reg.LN_ERR_STATS_CRC_FAIL l).key, (Reg.LN_ERR_STATS_CODE_ERR l).key,
            (Reg.LN_ASSAY_ERR_CRC_ERR l).key, (Reg.LN_ASSAY_ERR_PRBS_ERR l).key, (Reg.LN_ASSAY_WORDS_WORDS l).key,
            (Reg.LN_STATUS_ASSAY_VERDICT l).key]) s.dev t.dev)
    ∧ (∀ (l : Nat) (r : LaneRx) (s : State), l < 48 → s.dev.up = true → s.dev.role.usesLane l = true → s.dev.lstate l ≠ 0 → s.dev.lstate l ≠ 6 →
      AcceptsLf s.dev l r →
      Answers (.laneFrameReceived l (.frame r)) s fun t =>
        (let w := lineWords (s.dev.receive l r.chars).1
         t.dev.get (Reg.LN_RX_STATS_FRAMES_OK l) = (s.dev.get (Reg.LN_RX_STATS_FRAMES_OK l) + 1) % 2 ^ 32
        ∧ (t.dev.lane l).okRun = (s.dev.lane l).okRun + 1 ∧ (t.dev.lane l).badRun = 0
        ∧ t.dev.flag (Reg.LN_STATUS_PARTNER_READY l) = bitOf (nth w 2) 7
        ∧ t.dev.flag (Reg.LN_STATUS_PARTNER_FULL_OK l) = bitOf (nth w 2) 6
        ∧ t.dev.get (Reg.LN_STATUS_PARTNER_LANE l) = nth w 0 / 256 % 64
        ∧ t.dev.get (Reg.LN_ERR_STATS_CRC_FAIL l) = s.dev.get (Reg.LN_ERR_STATS_CRC_FAIL l))
        ∧ (s.dev.lstate l = 1 → t.dev.lstate l = 1 ∧ (t.dev.lane l).recIn = (s.dev.lane l).recIn ∧ (t.dev.lane l).msgIn = (s.dev.lane l).msgIn
            ∧ t.dev.tm = s.dev.tm)
        ∧ (∀ m : Nat, m ≠ l → t.dev.lane m = s.dev.lane m)
        ∧ t = { s with dev := { talked s.dev t.dev with tm := t.dev.tm, force := t.dev.force } })
    ∧ (∀ (l fill : Nat) (s : State), l < 48 → 4 ≤ fill → fill ≤ 12 → exec (.laneFifoSlip l fill) s = .next s)
    ∧ ∀ (c : Instr) (g : Nat) (held : Bool) (s : State), g < 48 → s.dev.up = true → s.dev.role.usesLane g = true →
      (c = .crossingFlush g held ∨ ∃ fill : Nat, c = .laneFifoSlip g fill ∧ held = false ∧ (fill < 4 ∨ 12 < fill)) →
      Answers c s fun t =>
        t.dev.xing g = { s.dev.xing g with
          val := { (s.dev.xing g).val with reg := none, loaded := false, shadow := none },
          cnt := { (s.dev.xing g).cnt with reg := none, loaded := false, shadow := none },
          flushes := ((s.dev.xing g).flushes + 1) % 65536, held := held }
        ∧ (∀ h : Nat, h ≠ g → t.dev.xing h = s.dev.xing h)
        ∧ t.dev.get Reg.XC_TOTAL_FLUSHES = (s.dev.get Reg.XC_TOTAL_FLUSHES + 1) % 65536
        ∧ ((1 ≤ s.dev.lstate g ∧ s.dev.lstate g ≤ 4) →
            t.dev.get (Reg.LN_ERR_STATS_CRC_FAIL g) = (s.dev.get (Reg.LN_ERR_STATS_CRC_FAIL g) + 1) % 65536 ∧ (t.dev.lane g).okRun = 0)
        ∧ t = { s with dev := { talked s.dev t.dev with flt := t.dev.flt, cross := t.dev.cross } }

/-- LANE_ASSAY_VERDICT: any PRBS error, or CRC errors up to the limit, is lasting and goes to the ledger; enough frames and words without is
transient; ten times the frames is inconclusive. CROSSING_TRANSFER: a value sent waits in the hold register, or behind it in the shadow, which keeps the
newest; an event counts and its count is sent; a load takes the waiting value, of a count the difference from the one before; a check error refuses it,
counts, and asks for it again; the acknowledge frees the hold register for the shadow. (R370, R388, R389.) -/
def Obligations.LaneAssaysAndCrossings : Prop :=
  (∀ (l : Nat) (a : Assay) (s : State), l < 48 → s.dev.up = true →
      s.dev.flt.assays.find? (fun a => a.u == { unit := 4, loc := l } && a.running) = some a →
      (let crc := s.dev.get (Reg.LN_ASSAY_ERR_CRC_ERR l)
       let lasting := 0 < s.dev.get (Reg.LN_ASSAY_ERR_PRBS_ERR l) ∨ max 1 (s.dev.get Reg.LN_ASSAY_CFG_CRC_LIMIT) ≤ crc
       let frames := max 1 (s.dev.get Reg.LN_ASSAY_CFG_ASSAY_FRAMES)
       let clean := a.fn + frames ≤ s.dev.fn ∧ 1024 * max 1 (s.dev.get Reg.LN_ASSAY_CFG_MIN_KWORDS) ≤ s.dev.get (Reg.LN_ASSAY_WORDS_WORDS l)
       (lasting ∨ clean ∨ a.fn + 10 * frames ≤ s.dev.fn) →
       Answers (.laneAssayVerdict l) s fun t =>
        t.dev.get (Reg.LN_STATUS_ASSAY_VERDICT l) = (if lasting then 2 else if clean then 1 else 3)
        ∧ t.dev.get (Reg.LN_STATUS_ASSAY_ACTIVE l) = 0
        ∧ t.dev.flt.assays = s.dev.flt.assays.filter (fun x => x.u != { unit := 4, loc := l })
        ∧ (lasting → t.dev.get Reg.FLT_COUNT_ASSAY_LASTING = min (s.dev.get Reg.FLT_COUNT_ASSAY_LASTING + 1) 255)
        ∧ (¬ lasting → t.dev.ledger = s.dev.ledger)
        ∧ t = { s with dev := { talked s.dev t.dev with flt := t.dev.flt, ledger := t.dev.ledger } }))
    ∧ (∀ (g : Nat) (x : CrossStep) (v : Word) (k : Cross) (s : State), g < 51 → s.dev.up = true → s.dev.usesGroup g = true →
      (let c := s.dev.xing g
       let put (h : Hold) (v : Word) : Hold := if h.reg = none then { h with reg := some v, loaded := false } else { h with shadow := some v }
       (x = .send v ∧ k = { c with val := put c.val v })
        ∨ (x = .happen ∧ k = { c with count := c.count + 1, cnt := put c.cnt (c.count + 1) })
        ∨ (x = .ack false ∧ c.val.loaded = true ∧ k = { c with val := { c.val with reg := c.val.shadow, loaded := false, shadow := none } })
        ∨ (x = .ack true ∧ c.cnt.loaded = true ∧ k = { c with cnt := { c.cnt with reg := c.cnt.shadow, loaded := false, shadow := none } })
        ∨ (x = .load false false ∧ c.val.loaded = false ∧ c.val.reg = some v
            ∧ k = { c with val := { c.val with loaded := true, got := v } })
        ∨ (x = .load true false ∧ c.cnt.loaded = false ∧ c.cnt.reg = some v
            ∧ k = { c with cnt := { c.cnt with loaded := true, got := v }, events := c.events + (v - c.cnt.got).toNat })) →
      Answers (.crossingTransfer g x) s fun t =>
        t.dev.xing g = k ∧ (∀ h : Nat, h ≠ g → t.dev.xing h = s.dev.xing h)
        ∧ t = { s with dev := { s.dev with cross := t.dev.cross } })
    ∧ ∀ (g : Nat) (count : Bool) (s : State), g < 51 → s.dev.up = true → s.dev.usesGroup g = true →
      (let c := s.dev.xing g
       let h := if count then c.cnt else c.val
       h.reg ≠ none → h.loaded = false →
       Answers (.crossingTransfer g (.load count true)) s fun t =>
        t.dev.xing g = { c with
          cnt := if count then { h with reg := if h.shadow = none then h.reg else h.shadow, shadow := none } else c.cnt,
          val := if count then c.val else { h with reg := if h.shadow = none then h.reg else h.shadow, shadow := none },
          checkErr := min 4095 (c.checkErr + 1) }
        ∧ t.dev.get Reg.XC_TOTAL_CHECK_ERR = min (s.dev.get Reg.XC_TOTAL_CHECK_ERR + 1) 255
        ∧ (∀ h : Nat, h ≠ g → t.dev.xing h = s.dev.xing h)
        ∧ t = { s with dev := { talked s.dev t.dev with flt := t.dev.flt, cross := t.dev.cross } }
        ∧ RegsKeep (logKeys ++ [Reg.XC_TOTAL_CHECK_ERR.key]) s.dev t.dev)

/-! ### Management commands -/

/-- A command executed on its own, from a source the device has: a denied one is answered 0x0A and counted, a bad one 0x0B; READ answers the words
(at addresses whose read does nothing else), WRITE writes under its mask, which an act of a W1C, W1S or WO bit needs, and answers what the register
then reads, ECHO answers its operands, TRIGGER fires at its sample on the named channels that have a unit of TYPE 5 and take triggers, and on the others
of them counts OFF. How a reply is made up, and where it leaves by the command's source. (R168, R323, R532.) -/
def Obligations.CommandsReadWriteEchoAndTrigger : Prop :=
  (∀ (c : Cmd) (op : Nat) (i : Instr) (s : State), s.dev.up = true → s.dev.hasSource c = true →
      (i = .read c ∧ op = 1 ∨ i = .write c ∧ op = 2 ∨ i = .trigger c ∧ op = 3 ∨ i = .cancel c ∧ op = 4 ∨ i = .echo c ∧ op = 5
        ∨ i = .release c ∧ op = 16 ∨ i = .attest c ∧ op = 17 ∨ i = .assign c ∧ op = 18) →
      (∀ g : Nat, s.dev.denial (cmdWithOp c op) = some g → exec i s = .next { s with dev := (s.dev.notPermitted (cmdWithOp c op)).deny c.src g })
      ∧ (s.dev.denial (cmdWithOp c op) = none → cmdBad (cmdWithOp c op) = true → exec i s = .next { s with dev := s.dev.reply (cmdWithOp c op) 11 [] }))
    ∧ (∀ (c : Cmd) (s : State), s.dev.up = true → s.dev.hasSource c = true → s.dev.denial (cmdWithOp c 1) = none → cmdBad (cmdWithOp c 1) = false →
      (∀ k : Nat, k < cmdCount c → cmdAddr c k ∉ readActs) →
      exec (.read c) s =
        .next { s with dev := s.dev.reply (cmdWithOp c 1) 0 ((List.range (cmdCount c)).map fun k => s.dev.seenWord (cmdAddr c k)) })
    ∧ (∀ (c : Cmd) (s : State), s.dev.up = true → s.dev.hasSource c = true → s.dev.denial (cmdWithOp c 2) = none → cmdBad (cmdWithOp c 2) = false →
      (let a := cmdAddr c 0
       let d := softWrite s.fuses s.dev c.src a (maskedWord a (s.dev.regWord a) (cmdWd c 5) (cmdWd c 6))
       exec (.write c) s = .next { s with dev := d.reply (cmdWithOp c 2) 0 [d.seenWord a] }
       ∧ ∀ b : Nat, b < 32 →
          bitOf (maskedWord a (s.dev.regWord a) (cmdWd c 5) (cmdWd c 6)) b =
            if bitOf (cmdWd c 6) b then bitOf (cmdWd c 5) b else if bitOf (actBits a) b then false else bitOf (s.dev.regWord a) b))
    ∧ (∀ (c : Cmd) (s : State), s.dev.up = true → s.dev.hasSource c = true → cmdBad (cmdWithOp c 5) = false →
      exec (.echo c) s = .next { s with dev := s.dev.reply (cmdWithOp c 5) 0 [cmdWd c 4, cmdWd c 5, cmdWd c 6, cmdWd c 7] })
    ∧ (∀ (d : Dev) (c : Cmd) (status : Nat) (data : List Nat),
      (let w7 := if bitOf (nth (natsOf c.w) 0) 11 then nth data 3 / 8 * 8 + d.clkState else nth data 3
       d.replyDesc c status data = [1 + status * 256 + d.devnum * 65536, nth (natsOf c.w) 1 % 65536 + c.ring % 4096 * 65536, d.fi, 0,
          nth data 0, nth data 1, nth data 2, w7].map (· % 2 ^ 32))
        ∧ (c.src = .spi → d.reply c status data = d)
        ∧ (c.src = .pcie → d.reply c status data = d.toEventRing (d.ring c.ring).replyRing (d.replyDesc c status data))
        ∧ (c.src = .upLane → d.mg.ownQ.length < d.upQueue → d.reply c status data = { d with mg := { d.mg with ownQ := d.mg.ownQ ++
          [⟨2, c.origin, c.ring, c.seq, wordsOf (d.replyDesc c status data), 63, 0⟩] } })
        ∧ (c.src = .downLane → (d.lane c.port).ansQ.length < d.upQueue → d.reply c status data = d.updLane c.port fun x =>
          { x with ansQ := x.ansQ ++ [⟨2, c.origin, c.ring, c.seq, wordsOf (d.replyDesc c status data), 63, 0⟩] }))
    ∧ ∀ (c : Cmd) (f : FStat) (s : State), s.dev.up = true → s.dev.role = .frontEnd → c.src = .upLane → cmdBad (cmdWithOp c 3) = false →
      s.dev.denial (cmdWithOp c 3) = none → s.dev.frameOf s.dev.fn = some f →
      Answers (.trigger c) s fun t =>
        (∀ n : Nat, n < 48 → t.dev.chan n =
          if bitOf (cmdFire c).1 n = true ∧ (f.unit n (cmdFire c).2.1).typ = 5 ∧ n ∈ f.accept then
            { s.dev.chan n with hg := (s.dev.chan n).hg ++ [(f.fn, min (cmdFire c).2.2 (f.samples - 1), (cmdFire c).2.1)] }
          else s.dev.chan n)
        ∧ (∀ n : Nat, n < 48 → bitOf (cmdFire c).1 n = true → (f.unit n (cmdFire c).2.1).typ = 5 → n ∉ f.accept →
            (f.unit n (cmdFire c).2.1).cap = true →
            t.dev.get (Reg.CH_TRG_REF_HI_OFF n) = (s.dev.get (Reg.CH_TRG_REF_HI_OFF n) + 1) % 65536)
        ∧ (s.dev.mg.ownQ.length < s.dev.upQueue → t.dev.mg.ownQ = s.dev.mg.ownQ ++
            [⟨2, c.origin, c.ring, c.seq, wordsOf (s.dev.replyDesc (cmdWithOp c 3) 0 []), 63, 0⟩])
        ∧ t = { s with dev := { talked s.dev t.dev with
            acq := { s.dev.acq with chans := t.dev.acq.chans, fstats := t.dev.acq.fstats, slots := t.dev.acq.slots } } }
        ∧ RegsKeep (((List.range 48).map fun n => (Reg.CH_TRG_REF_HI_OFF n).key) ++ (List.range 4).map fun k => (Reg.TRG_STREAM_STATUS_MARK_OVF k).key)
            s.dev t.dev

/-- RELEASE with the key of the trip below 90 °C writes a release entry into the ledger, asks for the end of the hold and answers T_J and the entry's
sequence number; at 90 °C or above it is answered busy with retry frame FI + 1000, any other 0x0B. ATTEST starts a computation, one at a time, a second
is answered busy and counted, neither keeping an identity; ATTEST_DONE answers the first four words of the HMAC over nonce, number and profile digest.
ASSIGN with this part's serial number queues the number for the next boundary and answers it, with another it is answered 0x0B. (R500, R523, R525, R543.) -/
def Obligations.ReleaseAttestAndAssign : Prop :=
  (∀ (c : Cmd) (tr : Trip) (s : State), s.dev.up = true → s.dev.hasSource c = true → s.dev.denial (cmdWithOp c 16) = none →
      cmdBad (cmdWithOp c 16) = false → s.dev.pw.trip = some tr → s.dev.thermState = 4 → cmdWd c 4 = tr.seq % 2 ^ 32 → s.dev.tj < 1440 →
      (let e := s.dev.ldgEntry 3 [pack [(0, 4, releaseSrc c.src), (16, 16, s.dev.get Reg.PWR_THERM_STATUS_T_J)], tr.seq,
          min (s.dev.fn - tr.holdFn) (2 ^ 32 - 1)]
       Answers (.release c) s fun t =>
        t.dev.ledger = e.2.ledger ∧ t.dev.get Reg.LDG_STATUS_NEXT_SLOT = e.2.get Reg.LDG_STATUS_NEXT_SLOT
        ∧ t.dev.get Reg.LDG_STATUS_WRITE_ERR = e.2.get Reg.LDG_STATUS_WRITE_ERR
        ∧ t.dev.pw = { s.dev.pw with release := true }
        ∧ (c.src = .upLane → s.dev.mg.ownQ.length + 1 < s.dev.upQueue →
            t.dev.mg.ownQ.map (fun m => (m.kind, (natsOf m.body).drop 4)) = s.dev.mg.ownQ.map (fun m => (m.kind, (natsOf m.body).drop 4)) ++
              [(3, [e.1 % 2 ^ 32, 0, 0, 0]), (2, [s.dev.tjWord % 2 ^ 32, e.1 % 2 ^ 32, 0, if bitOf (cmdWd c 0) 11 then s.dev.clkState else 0])])
        ∧ t = { s with dev := { talked s.dev t.dev with ledger := t.dev.ledger, pw := t.dev.pw } }
        ∧ RegsKeep [Reg.LDG_STATUS_NEXT_SLOT.key, Reg.LDG_STATUS_WRITE_ERR.key] s.dev t.dev))
    ∧ (∀ (c : Cmd) (op retry : Nat) (i : Instr) (s : State), s.dev.up = true → s.dev.hasSource c = true →
      (i = .release c ∧ op = 16 ∧ retry = 1000 ∧ (∃ tr ∈ s.dev.pw.trip, cmdWd c 4 = tr.seq % 2 ^ 32) ∧ s.dev.thermState = 4 ∧ 1440 ≤ s.dev.tj
        ∨ i = .attest c ∧ op = 17 ∧ retry = 64 ∧ s.dev.mg.attest ≠ none) →
      s.dev.denial (cmdWithOp c op) = none → cmdBad (cmdWithOp c op) = false →
      Answers i s fun t =>
        (let r := s.dev.reply (cmdWithOp c op) 9 [(s.dev.fi + retry) % 2 ^ 32, 63]
         t.dev.mg = { r.mg with seen := s.dev.mg.seen.filter (· != (c.origin, c.seq)) } ∧ t.dev.lanes = r.lanes ∧ t.dev.hr = r.hr
         ∧ (op = 17 → t.dev.get Reg.HM_ATTEST_STATS_BUSY = (s.dev.get Reg.HM_ATTEST_STATS_BUSY + 1) % 65536)
         ∧ (op = 16 → t.dev.get Reg.HM_ATTEST_STATS_BUSY = s.dev.get Reg.HM_ATTEST_STATS_BUSY)
         ∧ (c.src ≠ .pcie → c.port < 48 →
            t.dev.get (Reg.LN_MG_STATS_BUSY c.port) = min (s.dev.get (Reg.LN_MG_STATS_BUSY c.port) + 1) (2 ^ (Reg.LN_MG_STATS_BUSY c.port).width - 1)))
        ∧ t = { s with dev := { talked s.dev t.dev with mg := t.dev.mg } } ∧ RegsKeep [Reg.HM_ATTEST_STATS_BUSY.key] s.dev t.dev)
    ∧ (∀ (c : Cmd) (s : State), s.dev.up = true → s.dev.hasSource c = true → s.dev.denial (cmdWithOp c 16) = none → cmdBad (cmdWithOp c 16) = false →
      (s.dev.thermState ≠ 4 ∨ s.dev.pw.trip.all (fun tr => cmdWd c 4 != tr.seq % 2 ^ 32) = true) →
      exec (.release c) s = .next { s with dev := s.dev.reply (cmdWithOp c 16) 11 [] })
    ∧ (∀ (c : Cmd) (s : State), s.dev.up = true → s.dev.hasSource c = true → cmdBad (cmdWithOp c 17) = false → s.dev.mg.attest = none →
      exec (.attest c) s = .next { s with dev := { s.dev with mg := { s.dev.mg with attest := some (cmdWithOp c 17, s.dev.fn) } } })
    ∧ (∀ (c : Cmd) (fn : Nat) (s : State), s.dev.up = true → s.dev.mg.attest = some (c, fn) →
      Answers .attestDone s fun t =>
        (let r := ({ s.dev with mg := { s.dev.mg with attest := none } } : Dev).reply c 0 (s.dev.attestWords c)
         t.dev.mg = r.mg ∧ t.dev.lanes = r.lanes ∧ t.dev.hr = r.hr
         ∧ t.dev.get Reg.HM_ATTEST_STATS_ANSWERED = (s.dev.get Reg.HM_ATTEST_STATS_ANSWERED + 1) % 65536)
        ∧ t.dev.mg.attest = none
        ∧ (let n := if s.dev.numbered then s.dev.devnum else 0
           s.dev.attestWords c = (wordsOfBytes (hmacSha256 (bytesOf ((List.range 8).map fun k => s.dev.custWord (131 + k)))
             (bytesOf [cmdWd c 4, cmdWd c 5, cmdWd c 6, cmdWd c 7] ++ [n % 256, n / 256, b2n s.dev.numbered]
               ++ sha256 (bytesOf [s.dev.custWord 128, s.dev.custWord 129, s.dev.custWord 130])))).take 4)
        ∧ t = { s with dev := { talked s.dev t.dev with mg := t.dev.mg } } ∧ RegsKeep [Reg.HM_ATTEST_STATS_ANSWERED.key] s.dev t.dev)
    ∧ (∀ (c : Cmd) (s : State), s.dev.up = true → s.dev.hasSource c = true → s.dev.denial (cmdWithOp c 18) = none → cmdBad (cmdWithOp c 18) = false →
      cmdWd c 5 = s.dev.hmWord 0 → cmdWd c 6 = s.dev.hmWord 1 →
      Answers (.assign c) s fun t =>
        t.dev.get Reg.GLB_DEVICE_NUMBER_DEVNUM = cmdWd c 4 % 65536 ∧ t.dev.get Reg.GLB_DEVICE_NUMBER_VALID = 1
        ∧ t.dev.devnum = s.dev.devnum ∧ t.dev.numbered = s.dev.numbered
        ∧ t.dev.queue = s.dev.queue ++ [.reg c.src 0x0108 (BitVec.ofNat 32 (cmdWd c 4 % 65536 + 65536))]
        ∧ (c.src = .upLane → s.dev.mg.ownQ.length < s.dev.upQueue → t.dev.mg.ownQ = s.dev.mg.ownQ ++
            [⟨2, c.origin, c.ring, c.seq, wordsOf (s.dev.replyDesc (cmdWithOp c 18) 0 [cmdWd c 4 % 65536]), 63, 0⟩])
        ∧ t = { s with dev := { talked s.dev t.dev with queue := t.dev.queue } }
        ∧ RegsKeep [Reg.GLB_DEVICE_NUMBER_DEVNUM.key, Reg.GLB_DEVICE_NUMBER_VALID.key] s.dev t.dev)
    ∧ ∀ (c : Cmd) (s : State), s.dev.up = true → s.dev.hasSource c = true → s.dev.denial (cmdWithOp c 18) = none → cmdBad (cmdWithOp c 18) = false →
      (cmdWd c 5 ≠ s.dev.hmWord 0 ∨ cmdWd c 6 ≠ s.dev.hmWord 1) →
      exec (.assign c) s = .next { s with dev := s.dev.reply (cmdWithOp c 18) 11 [] }

/-- A headgate action that arrives with time, not later than GRACE, with fewer than 64 held, is held in order of receipt; without time it is
answered 4, too late 2, with 64 held 3, in that order (the order of the last two is log entry 54), and counted as REFUSED. CANCEL waits for step 5; there
it removes the first held action with its tag, which is answered 5 and the CANCEL 0, or is answered 6. (R69, R70, R71.) -/
def Obligations.HeadgateActionsAndCancel : Prop :=
  (∀ (c : Cmd) (s : State),
      (let h : Cmd := { c with w := c.w.set 0 (w32 (setBit (cmdWd c 0) 11)) }
       let df := fiDiff (cmdTarget h) ((s.dev.fi + 1) % 2 ^ 32)
       let status : Nat := if s.dev.clkState = 0 then 4 else if df < 0 ∧ (s.dev.get Reg.TIM_HG_CTRL_GRACE : Int) < -df then 2
         else if 64 ≤ s.dev.tm.held.length then 3 else 0
       s.dev.up = true → s.dev.hasSource c = true → s.dev.denial h = none → cmdBad h = false →
       Answers (.headgateAction c) s fun t =>
        (status = 0 → t.dev.tm.held = s.dev.tm.held ++ [h] ∧ t.dev.get Reg.TIM_HG_CTRL_HELD = (s.dev.tm.held.length + 1) % 128
            ∧ t = { s with dev := { s.dev with regs := t.dev.regs, tm := { s.dev.tm with held := t.dev.tm.held } } }
            ∧ RegsKeepAll [Reg.TIM_HG_CTRL_HELD.key] s.dev t.dev)
        ∧ (status ≠ 0 → t.dev.get Reg.TIM_HG_STATS_REFUSED = (s.dev.get Reg.TIM_HG_STATS_REFUSED + 1) % 65536
            ∧ t = { s with dev := { s.dev.reply h status [] with regs := t.dev.regs } }
            ∧ RegsKeep [Reg.TIM_HG_STATS_REFUSED.key] s.dev t.dev)))
    ∧ (∀ (c : Cmd) (s : State), s.dev.up = true → s.dev.hasSource c = true → s.dev.denial (cmdWithOp c 4) = none → cmdBad (cmdWithOp c 4) = false →
      exec (.cancel c) s = .next { s with dev := { s.dev with queue := s.dev.queue ++ [.cmd (cmdWithOp c 4)] } })
    ∧ (∀ (f : Fuses) (x : EccDev) (c : Cmd), cmdOp c = 4 → applyOne f x (.cmd c) = (x.1, x.2.cancelTag c))
    ∧ ∀ (d : Dev) (c : Cmd),
        ((∀ h ∈ d.tm.held, cmdTag h ≠ cmdWd c 4 % 65536) → d.cancelTag c = d.reply c 6 [])
        ∧ ∀ h : Cmd, d.tm.held.find? (fun x => cmdTag x == cmdWd c 4 % 65536) = some h →
          (let rest := d.tm.held.eraseP fun x => cmdTag x == cmdWd c 4 % 65536
           rest.length + 1 = d.tm.held.length
           ∧ d.cancelTag c = ((({ d with tm := { d.tm with held := rest } } : Dev).set Reg.TIM_HG_CTRL_HELD rest.length).reply h 5 []).reply c 0 [])

/-- COMMAND_RECEIVED takes the oldest command message of a lane: an unnumbered device discards from above all but path-addressed ones, one beyond
REQ_LIMIT gets a busy reply, one seen among the last 64 is ignored, a denied one is answered and remembered, and one for this device executes and is
remembered unless EXEC_LIMIT is reached or left to ports that come first in rotation, which is answered busy; one for every device below goes on down
every data port, one for another device to the port that leads there, unreachable where there is none; a front-end answers what is not for it
"misrouted". (R322, R365, R366, R367.) -/
def Obligations.CommandsArriveOnLanes : Prop :=
  (∀ (l : Nat) (m : Msg) (s : State), l < 48 → s.dev.up = true → (s.dev.lane l).msgIn.find? (fun m => m.kind == 1) = some m →
      (let down := decide (l < s.dev.role.downLanes)
       let c : Cmd := { src := if down then .downLane else .upLane, port := l, origin := m.origin, ring := m.ring, seq := m.seq, w := m.body }
       let d' := s.dev.updLane l fun x => { x with msgIn := x.msgIn.eraseP fun m => m.kind == 1 }
       let heard := down = true ∨ s.dev.numbered = true ∨ cmdScope c = 3
       let taken := heard ∧ m.idx < s.dev.reqLimit ∧ (m.origin, m.seq) ∉ s.dev.mg.seen ∧ d'.denial c = none
       let own := s.dev.numbered && s.dev.devnum == cmdDest c
       let here := down = true ∨ cmdScope c = 0 ∧ own = true
          ∨ s.dev.role = .frontEnd ∧ (cmdScope c = 2 ∨ cmdScope c = 1 ∧ (own || d'.below c) = true ∨ cmdScope c = 3 ∧ cmdPathLen c = 2)
          ∨ s.dev.role = .cell ∧ cmdScope c = 3 ∧ cmdPathLen c = 1
       let spread := s.dev.role = .cell ∧ down = false ∧ (cmdScope c = 2 ∨ cmdScope c = 1 ∧ (own || d'.below c) = true)
       let ports := if cmdScope c = 3 then (if d'.pathPort (cmdPath c 1) then [cmdPath c 1] else []) else (s.dev.route (cmdDest c)).toList
       let away := s.dev.role = .cell ∧ down = false ∧ (cmdScope c = 0 ∧ own = false ∨ cmdScope c = 1 ∧ (own || d'.below c) = false
          ∨ cmdScope c = 3 ∧ cmdPathLen c = 2)
       let r := takeLocal s.fuses c (s.ecc, ({ d' with mg := { d'.mg with execN := d'.mg.execN + 1, rotPort := l } } : Dev).keepId c)
       (¬ heard → Answers (.commandReceived l) s fun t =>
          t.dev.get (Reg.LN_MG_STATS_DISCARDED l) = min (s.dev.get (Reg.LN_MG_STATS_DISCARDED l) + 1) 255
          ∧ t = { s with dev := { d' with regs := t.dev.regs } } ∧ RegsKeepAll [(Reg.LN_MG_STATS_DISCARDED l).key] s.dev t.dev)
       ∧ (heard → s.dev.reqLimit ≤ m.idx → exec (.commandReceived l) s = .next { s with dev := d'.busyAt c (8 + l % 8) 63 })
       ∧ (heard → m.idx < s.dev.reqLimit → (m.origin, m.seq) ∈ s.dev.mg.seen → exec (.commandReceived l) s = .next { s with dev := d' })
       ∧ (∀ g : Nat, heard → m.idx < s.dev.reqLimit → (m.origin, m.seq) ∉ s.dev.mg.seen → d'.denial c = some g →
          exec (.commandReceived l) s = .next { s with dev := ((d'.notPermitted c).deny c.src g).keepId c })
       ∧ (taken → here → s.dev.mg.execN + d'.portsAhead l < s.dev.execLimit → exec (.commandReceived l) s = .next { s with ecc := r.1, dev := r.2 })
       ∧ (taken → (here ∨ spread) → s.dev.execLimit ≤ s.dev.mg.execN + d'.portsAhead l →
          exec (.commandReceived l) s = .next { s with dev := d'.busyAt c (8 + l % 8) 63 })
       ∧ (taken → spread → s.dev.mg.execN + d'.portsAhead l < s.dev.execLimit → r.2.alone = false → r.2.dataPorts ≠ [] →
          (∀ p ∈ r.2.dataPorts, (r.2.lane p).fwdQ.length < 32) →
          Answers (.commandReceived l) s fun t =>
            (∀ p : Nat, p < 48 → (t.dev.lane p).fwdQ = (r.2.lane p).fwdQ ++ if p ∈ r.2.dataPorts then [m] else [])
            ∧ t.dev.get Reg.MRG_MGMT_STATS_FORWARDED = (r.2.get Reg.MRG_MGMT_STATS_FORWARDED + 1) % 65536
            ∧ t = { s with ecc := r.1, dev := { r.2 with regs := t.dev.regs, lanes := t.dev.lanes, mg := { r.2.mg with seen := t.dev.mg.seen } } }
            ∧ RegsKeepAll [Reg.MRG_MGMT_STATS_FORWARDED.key] r.2 t.dev)
       ∧ (∀ p : Nat, taken → away → ports = [p] → s.dev.alone = false → (d'.lane p).fwdQ.length < 32 →
          Answers (.commandReceived l) s fun t =>
            (t.dev.lane p).fwdQ = (s.dev.lane p).fwdQ ++ [m]
            ∧ t.dev.get Reg.MRG_MGMT_STATS_FORWARDED % 65536
                = (s.dev.get Reg.MRG_MGMT_STATS_FORWARDED + (if cmdScope c = 3 then 0 else 1)) % 65536
            ∧ t.dev.mg.seen = ((m.origin, m.seq) :: s.dev.mg.seen).take 64
            ∧ t = { s with dev := { s.dev with regs := t.dev.regs, lanes := t.dev.lanes, mg := { s.dev.mg with seen := t.dev.mg.seen } } }
            ∧ RegsKeepAll [Reg.MRG_MGMT_STATS_FORWARDED.key] s.dev t.dev)
       ∧ (∀ p : Nat, taken → away → ports = [p] → s.dev.alone = false → 32 ≤ (d'.lane p).fwdQ.length →
          exec (.commandReceived l) s = .next { s with dev := d'.busyAt c (8 + l % 8) p })
       ∧ (taken → away → (ports = [] ∨ s.dev.alone = true) →
          exec (.commandReceived l) s = .next { s with dev := (d'.unreachable m).keepId c })
       ∧ (taken → down = false → s.dev.role = .frontEnd → (cmdScope c = 0 ∧ own = false ∨ cmdScope c = 1 ∧ (own || d'.below c) = false
          ∨ cmdScope c = 3 ∧ cmdPathLen c < 2) →
          exec (.commandReceived l) s = .next { s with dev := (d'.reply c 7 []).keepId c })
       ∧ (taken → down = false → cmdScope c = 3 → cmdPathLen c = 3 →
          exec (.commandReceived l) s = .next { s with dev := (d'.reply c 11 []).keepId c })))

/-- Replies and events from below wait to go up in a cell device, up to UP_QUEUE for each port, and reach the event rings in a hub; from above they are
discarded; a reply to a command that has timed out only counts as dropped. REPLY_TIMEOUT answers every outstanding command past its time with 0x0C and
forgets it. A completed read is used once: the bitmap flags lines to read, a line's words wait for the boundary, a descriptor that was asked for moves
HEAD past it and is carried out. (R310, R311, R325, R330, R367.) -/
def Obligations.RepliesAndReadCompletions : Prop :=
  (∀ (l : Nat) (m : Msg) (s : State), l < 48 → s.dev.up = true →
      (s.dev.lane l).msgIn.find? (fun m => m.kind == 2 || m.kind == 3) = some m →
      (let d' := s.dev.updLane l fun x => { x with msgIn := x.msgIn.eraseP fun m => m.kind == 2 || m.kind == 3 }
       (s.dev.role.downLanes ≤ l → Answers (.replyEventReceived l) s fun t =>
          t.dev.get (Reg.LN_MG_STATS_DISCARDED l) = min (s.dev.get (Reg.LN_MG_STATS_DISCARDED l) + 1) 255
          ∧ t = { s with dev := { d' with regs := t.dev.regs } } ∧ RegsKeepAll [(Reg.LN_MG_STATS_DISCARDED l).key] s.dev t.dev)
       ∧ (l < s.dev.role.downLanes → s.dev.role = .cell → (s.dev.lane l).upQ.length < s.dev.upQueue →
          exec (.replyEventReceived l) s = .next { s with dev := d'.updLane l fun x => { x with upQ := x.upQ ++ [m] } })
       ∧ (l < s.dev.role.downLanes → s.dev.role = .cell → s.dev.upQueue ≤ (s.dev.lane l).upQ.length →
          Answers (.replyEventReceived l) s fun t =>
            t.dev.get (Reg.LN_MG_STATS_DROPPED l) = min (s.dev.get (Reg.LN_MG_STATS_DROPPED l) + 1) 255
            ∧ t = { s with dev := { d' with regs := t.dev.regs } } ∧ RegsKeepAll [(Reg.LN_MG_STATS_DROPPED l).key] s.dev t.dev)
       ∧ (l < s.dev.role.downLanes → s.dev.role = .hub → m.kind = 3 →
          exec (.replyEventReceived l) s = .next { s with dev := d'.toEventRing (d'.get Reg.HR_EVT_CFG_EVENT_RING) (natsOf m.body) })
       ∧ (l < s.dev.role.downLanes → s.dev.role = .hub → m.kind = 2 → m.seq ∉ s.dev.hr.dead →
          exec (.replyEventReceived l) s = .next
            (let d2 : Dev := { d' with hr := { d'.hr with outst := d'.hr.outst.filter fun o => o.seq != m.seq } }
             { s with dev := d2.toEventRing (s.dev.ring m.ring).replyRing (natsOf m.body) }))
       ∧ (l < s.dev.role.downLanes → s.dev.role = .hub → m.kind = 2 → m.seq ∈ s.dev.hr.dead →
          Answers (.replyEventReceived l) s fun t =>
            t.dev.get Reg.HR_DROP_STATS_EVT_DROPPED = (s.dev.get Reg.HR_DROP_STATS_EVT_DROPPED + 1) % 4096
            ∧ t = { s with dev := { d' with regs := t.dev.regs } } ∧ RegsKeepAll [Reg.HR_DROP_STATS_EVT_DROPPED.key] s.dev t.dev)))
    ∧ (∀ s : State, s.dev.up = true → s.dev.role = .hub →
      (let due := s.dev.hr.outst.filter fun o => decide (o.due ≤ s.dev.fn)
       exec .replyTimeout s = .next { s with dev := due.foldl (fun d o => d.reply o.cmd 12 []) { s.dev with
          hr := { s.dev.hr with outst := s.dev.hr.outst.filter (fun o => decide (s.dev.fn < o.due)), dead := due.map (·.seq) ++ s.dev.hr.dead } } }))
    ∧ (∀ (bytes : List Nat) (s : State), s.dev.ringsRun = true → s.dev.hr.sweepOut = some [] → (∀ b ∈ bytes, b = 0) →
      Answers (.readCompletion (.bitmap bytes)) s fun t =>
        t = { s with dev := { s.dev with hr := { s.dev.hr with sweepOut := none } } })
    ∧ (∀ (bytes : List Nat) (b : Nat) (s : State), s.dev.ringsRun = true → s.dev.hr.sweepOut = some [] → b < 512 →
      (∀ k : Nat, k < 512 → (bytes.getD k 0 ≠ 0 ↔ k = b)) →
      Answers (.readCompletion (.bitmap bytes)) s fun t =>
        t = { s with dev := { s.dev with
            out := .hostRead (s.dev.indexBase + 64 * b) 64 :: .hostClear (s.dev.tallyBase + b) :: s.dev.out
            hr := { s.dev.hr with sweepOut := some [b], lastByte := b } } })
    ∧ (∀ (byte : Nat) (ws : List (Nat × Nat)) (s : State), s.dev.ringsRun = true →
      Answers (.readCompletion (.indexLine byte ws)) s fun t =>
        t.dev.hr.lines = s.dev.hr.lines ++ (ws.take 8).zipIdx.map (fun p => (8 * byte + p.2, p.1.1 % 2 ^ 32, p.1.2 % 2 ^ 32, s.dev.fn))
        ∧ t = { s with dev := { s.dev with hr := { s.dev.hr with lines := t.dev.hr.lines, sweepOut := t.dev.hr.sweepOut } } })
    ∧ (∀ (r : Nat) (w : List Word) (s : State), s.dev.ringsRun = true → r < 4096 → (s.dev.ring r).typ = 2 →
      ((s.dev.ring r).st = 1 ∨ (s.dev.ring r).st = 2) →
      (s.dev.ring r).head ≠ (s.dev.ring r).fetched →
      exec (.readCompletion (.descriptor r w)) s = .next
        (let x := hubCommand s.fuses r w (s.ecc, s.dev.advanceHead r (((s.dev.ring r).head + 1) % 2 ^ 32))
         { s with ecc := x.1, dev := x.2 }))
    ∧ ∀ (r : Nat) (w : List Word) (s : State), s.dev.ringsRun = true → (s.dev.ring r).typ ≠ 2 →
      exec (.readCompletion (.descriptor r w)) s = .next s

/-! ### Merging -/

/-- A record of an associated device that arrives after its frame's horizon is discarded and counted in GLB_LADDER_LATE, which wraps; the receive
FIFO does not see it. The horizon of frame F is passed when F is older than the role's horizon, and from F's verdict on. (R34.) -/
def Obligations.LateRecordsAreDiscardedAndCounted : Prop :=
  (∀ (l : Nat) (ws : List Word) (rest : List (List Word)) (s : State), s.dev.up = true → l < s.dev.role.downLanes →
      (s.dev.lane l).recIn = ws :: rest →
      (let w := natsOf ws
       (s.dev.inData l && s.dev.effB (Reg.MRG_PORT_DEV_VALID l) && s.dev.fitsPort l (recDev w) (recTyp w)) = true →
       fiDiff (recFi w) s.dev.fi ≤ 1 → s.dev.pastHorizon (s.dev.fnOfFi (recFi w)) = true →
       Answers (.recordReceived l) s fun t =>
        t.dev.get Reg.GLB_LADDER_LATE_LATE_RECORDS = (s.dev.get Reg.GLB_LADDER_LATE_LATE_RECORDS + 1) % 2 ^ 32
        ∧ t.dev.lane l = { s.dev.lane l with recIn := rest } ∧ (∀ m : Nat, m ≠ l → t.dev.lane m = s.dev.lane m)
        ∧ t = { s with dev := { s.dev with regs := t.dev.regs, lanes := t.dev.lanes } }
        ∧ RegsKeepAll [Reg.GLB_LADDER_LATE_LATE_RECORDS.key] s.dev t.dev))
    ∧ (∀ (d : Dev) (fn : Nat), (d.role = .cell ∨ d.role = .hub) →
        (fn + (if d.role = .hub then 56 else 40) < d.fn → d.pastHorizon fn = true)
        ∧ (d.fn < fn + (if d.role = .hub then 56 else 40) → (d.frameOf fn).all (fun f => !f.judged) = true → d.pastHorizon fn = false))
    ∧ ∀ (d : Dev) (fn : Nat) (f : FStat), d.frameOf fn = some f → f.judged = true → d.pastHorizon fn = true

/-- RECORD_RECEIVED takes the oldest record of a port: one from no associated device and one of a frame more than one ahead are
discarded and counted, any other that is not late enters the receive FIFO at its end, written off where a memory error wrote off its reference. HUB_RECORD_CHECK marks the oldest unchecked record of a port
that fails CORRUPT, says where it came from and why, and asks for an assay of the port; one that passes is left as it is. (R263, R275.) -/
def Obligations.RecordsReceivedAndChecked : Prop :=
  (∀ (l : Nat) (ws : List Word) (rest : List (List Word)) (s : State), s.dev.up = true → l < s.dev.role.downLanes →
      (s.dev.lane l).recIn = ws :: rest →
      (let w := natsOf ws
       let assoc := s.dev.inData l && s.dev.effB (Reg.MRG_PORT_DEV_VALID l) && s.dev.fitsPort l (recDev w) (recTyp w)
       Answers (.recordReceived l) s fun t =>
        (assoc = false →
          t.dev.get Reg.MRG_RX_STATS_UNASSOC = min (s.dev.get Reg.MRG_RX_STATS_UNASSOC + 1) 255 ∧ t.dev.mrg = s.dev.mrg
          ∧ RegsKeepAll [Reg.MRG_RX_STATS_UNASSOC.key] s.dev t.dev)
        ∧ (assoc = true → 1 < fiDiff (recFi w) s.dev.fi →
          t.dev.get Reg.MRG_RX_STATS_FUTURE = min (s.dev.get Reg.MRG_RX_STATS_FUTURE + 1) 255 ∧ t.dev.mrg = s.dev.mrg
          ∧ RegsKeepAll [Reg.MRG_RX_STATS_FUTURE.key] s.dev t.dev)
        ∧ (assoc = true → fiDiff (recFi w) s.dev.fi ≤ 1 → s.dev.pastHorizon (s.dev.fnOfFi (recFi w)) = false →
          t.dev.mrg = { s.dev.mrg with
            rxFifo := s.dev.mrg.rxFifo ++ [⟨l, s.dev.fnOfFi (recFi w), ws, s.dev.mrg.arrivals, false,
              s.dev.mrg.rxFifo.any fun q => q.lost && q.port == l && dependsOn w (natsOf q.words)⟩]
            arrivals := s.dev.mrg.arrivals + 1 }
          ∧ t.dev.regs = s.dev.regs)
        ∧ t.dev.lane l = { s.dev.lane l with recIn := rest } ∧ (∀ m : Nat, m ≠ l → t.dev.lane m = s.dev.lane m)
        ∧ t = { s with dev := { s.dev with regs := t.dev.regs, lanes := t.dev.lanes, mrg := t.dev.mrg } }))
    ∧ (∀ (p : Nat) (r : RxRec) (s : State), p < 48 → s.dev.up = true → s.dev.role = .hub →
      s.dev.mrg.rxFifo.find? (fun r => r.port == p && !r.checked && hasSamples (natsOf r.words)) = some r →
      (let w := natsOf r.words
       let put (y : RxRec) : Mrg := { s.dev.mrg with rxFifo := updFirst (fun x => x.arr == r.arr) (fun _ => y) s.dev.mrg.rxFifo }
       (∀ xs : List Int, decodeRec w (refOf s.dev.mrg.rxFifo r) = .ok xs →
          exec (.hubRecordCheck p) s = .next { s with dev := { s.dev with mrg := put { r with checked := true } } })
       ∧ (∀ c : Nat, decodeRec w (refOf s.dev.mrg.rxFifo r) = .bad c → Answers (.hubRecordCheck p) s fun t =>
          t.dev.mrg = put { r with checked := true, words := wordsOf (w.set 0 (setBit (nth w 0) 6)) }
          ∧ t.dev.get Reg.CMP_CHECK_STATS_CORRUPT = (s.dev.get Reg.CMP_CHECK_STATS_CORRUPT + 1) % 65536
          ∧ t.dev.get Reg.CMP_CHECK_STATS_NO_REF = (s.dev.get Reg.CMP_CHECK_STATS_NO_REF + if c = 6 then 1 else 0) % 65536
          ∧ t.dev.get Reg.CMP_CHECK_LAST_PORT = p % 64 ∧ t.dev.get Reg.CMP_CHECK_LAST_CAUSE = c % 16
          ∧ t.dev.get Reg.CMP_CHECK_LAST_DEVNUM = recDev w
          ∧ t = { s with dev := { talked s.dev t.dev with mrg := t.dev.mrg, flt := t.dev.flt } }
          ∧ RegsKeep (logKeys ++ [Reg.CMP_CHECK_STATS_CORRUPT.key, Reg.CMP_CHECK_STATS_NO_REF.key, Reg.CMP_CHECK_LAST_PORT.key,
              Reg.CMP_CHECK_LAST_CAUSE.key, Reg.CMP_CHECK_LAST_DEVNUM.key]) s.dev t.dev)))
    ∧ ∀ (p : Nat) (s : State), p < 48 →
      (s.dev.mrg.rxFifo.find? fun r => r.port == p && !r.checked && hasSamples (natsOf r.words)) = none → exec (.hubRecordCheck p) s = .next s

/-- HORIZON_VERDICT judges the oldest frame at its horizon: it is judged, its records leave the receive FIFO, each port of a partner set has the set's
verdict and copies dropped are counted. BUILDER_PROCESS does nothing before F+56+J or while a frame to F+J is not judged; then no hit of the frame
stays: one that alone meets the conditions of the one selector enabled goes out as a group. In a cell device and a hub a route write waits for
the boundary. (R277, R283, R284, R285, R296.) -/
def Obligations.HorizonBuilderAndRoutes : Prop :=
  (∀ (f : FStat) (s : State), s.dev.up = true → (s.dev.role = .cell ∨ s.dev.role = .hub) →
      s.dev.acq.fstats.find? (fun f => !f.judged) = some f → f.fn + (if s.dev.role = .hub then 56 else 40) ≤ s.dev.fn →
      Answers .horizonVerdict s fun t =>
        (t.dev.frameOf f.fn).map (·.judged) = some true
        ∧ (∀ n : Nat, n ≠ f.fn → (t.dev.frameOf n).map (·.judged) = (s.dev.frameOf n).map (·.judged))
        ∧ t.dev.mrg.rxFifo.map (·.arr) = (s.dev.mrg.rxFifo.filter fun r => decide (f.fn < r.fn)).map (·.arr)
        ∧ t = { s with dev := { talked s.dev t.dev with
            out := t.dev.out, acq := { s.dev.acq with fstats := t.dev.acq.fstats }, rcd := t.dev.rcd, flt := t.dev.flt
            mrg := { s.dev.mrg with rxFifo := t.dev.mrg.rxFifo, bwait := t.dev.mrg.bwait, bjs := t.dev.mrg.bjs } } }
        ∧ RegsKeep (logKeys ++ lossKeys ++ ringKeys ++ [Reg.CMP_CHECK_STATS_CORRUPT.key, Reg.CMP_CHECK_STATS_NO_REF.key,
            Reg.CMP_CHECK_LAST_PORT.key, Reg.CMP_CHECK_LAST_CAUSE.key, Reg.CMP_CHECK_LAST_DEVNUM.key, Reg.MRG_DEDUP_STATS_DUPLICATES.key,
            Reg.MRG_DEDUP_STATS_RETIRED.key] ++ (List.range 40).flatMap fun p => [(Reg.MRG_PORT_LOSS_LATE p).key, (Reg.MRG_PORT_LOSS_ABSENT p).key,
            (Reg.LN_ASSAY_ERR_PRBS_ERR p).key, (Reg.LN_ASSAY_ERR_CRC_ERR p).key, (Reg.LN_ASSAY_WORDS_WORDS p).key,
            (Reg.LN_STATUS_ASSAY_VERDICT p).key]) s.dev t.dev)
    ∧ (∀ (f : FStat) (s : State), s.dev.up = true → s.dev.role = .hub → s.dev.acq.fstats.find? (fun f => !f.judged) = some f →
      f.fn + 56 ≤ s.dev.fn → s.dev.recording f.fn = true → s.dev.mrg.rxFifo.all (fun r => r.fn != f.fn || r.checked) = true →
      (let rs := s.dev.mrg.rxFifo.filter fun r => r.fn == f.fn && !r.lost
       Answers .horizonVerdict s fun t =>
        (t.dev.frameOf f.fn).map (·.ports) = some (s.dev.partnerSets.flatMap fun x => x.2.map fun p =>
            (p, (s.dev.judgeSet f.fn (s.dev.mrg.rxFifo.filter fun r => r.fn == f.fn) x).1))
        ∧ t.dev.get Reg.MRG_DEDUP_STATS_DUPLICATES = (s.dev.get Reg.MRG_DEDUP_STATS_DUPLICATES + (rs.length - (mergeItems rs).flatten.length)) % 65536
        ∧ (s.dev.effB Reg.MRG_HUB_CTRL_BUILD_EN = true → t.dev.mrg.bjs = s.dev.mrg.bjs ++ [(f.fn, s.dev.builderJ)])
        ∧ (s.dev.effB Reg.MRG_HUB_CTRL_BUILD_EN = false → t.dev.mrg.bjs = s.dev.mrg.bjs ∧ t.dev.mrg.bwait = s.dev.mrg.bwait)))
    ∧ (∀ s : State, (∀ b ∈ s.dev.mrg.bjs, s.dev.fn < b.1 + 56 + b.2 ∨ ∃ f ∈ s.dev.acq.fstats, f.fn ≤ b.1 + b.2 ∧ f.judged = false) →
      exec .builderProcess s = .next s)
    ∧ (∀ (fn j : Nat) (s : State), s.dev.up = true → s.dev.role = .hub →
      s.dev.mrg.bjs.find? (fun b => decide (b.1 + 56 + b.2 ≤ s.dev.fn) && s.dev.acq.fstats.all fun f => f.judged || decide (b.1 + b.2 < f.fn))
        = some (fn, j) →
      Answers .builderProcess s fun t =>
        t.dev.mrg.bjs = s.dev.mrg.bjs.filter (· ≠ (fn, j)) ∧ (∀ r ∈ t.dev.mrg.bwait, r.fn ≠ fn ∧ r ∈ s.dev.mrg.bwait)
        ∧ t = { s with dev := { talked s.dev t.dev with
            out := t.dev.out, rcd := t.dev.rcd, mrg := { s.dev.mrg with bwait := t.dev.mrg.bwait, bjs := t.dev.mrg.bjs } } }
        ∧ RegsKeep (ringKeys ++ [Reg.GLB_LADDER_LOSS_LOSS_RECORDS.key, Reg.MRG_BUILD_STATS_GROUPS.key, Reg.MRG_BUILD_STATS_WRITTEN_OFF.key]
            ++ (List.range 8).map fun k => (Reg.MRG_SEL_STATS_ACCEPTED k).key) s.dev t.dev)
    ∧ (∀ (fn j k : Nat) (a : RxRec) (s : State), s.dev.up = true → s.dev.role = .hub → s.dev.mrg.bjs = [(fn, j)] → fn + 56 + j ≤ s.dev.fn →
      (∀ f ∈ s.dev.acq.fstats, f.judged = true ∨ fn + j < f.fn) → s.dev.mrg.bwait = [a] → a.fn = fn →
      s.dev.effB Reg.MRG_HUB_CTRL_BUILD_EN = true → k < 8 →
      (∀ i : Nat, i < 8 → s.dev.effB (Reg.MRG_SEL_CFG_ENABLE i) = decide (i = k)) → s.dev.meets k [a] = true →
      Answers .builderProcess s fun t =>
        t.dev.mrg.bwait = [] ∧ t.dev.get (Reg.MRG_SEL_STATS_ACCEPTED k) = (s.dev.get (Reg.MRG_SEL_STATS_ACCEPTED k) + 1) % 2 ^ 32
        ∧ t.dev.get Reg.MRG_BUILD_STATS_GROUPS = (s.dev.get Reg.MRG_BUILD_STATS_GROUPS + 1) % 65536
        ∧ t.dev.get Reg.MRG_BUILD_STATS_WRITTEN_OFF = s.dev.get Reg.MRG_BUILD_STATS_WRITTEN_OFF)
    ∧ ∀ (src : Source) (v : Word) (s : State), Passes s.dev src 0x8024 →
      exec (.routeDataWrite src v) s = if s.dev.role = .cell ∨ s.dev.role = .hub then
        .next { s with dev := { s.dev with
          queue := s.dev.queue ++ [.route (s.dev.get Reg.MRG_ROUTE_ADDR_DEVNUM) (w32 (v.toNat % 16384))] } } else .next s

/-! ### Host rings -/

/-- HR_CTRL refuses to disable the engine while a ring is not OFF; HR_RING_OP takes an operation only while not BUSY. An enable that took effect
ends with RESULT 1 for a malformed entry, 4 for a command ring without an enabled reply ring, else 0 with the ring ON as its entry says and HEAD 0;
a STOPPING ring whose entries are written, and whose fetched commands have come, gets its final head word; index words of earlier frames move POST, or mark the ring in error. (R307, R311, R316, R332, R336.) -/
def Obligations.RingsEnableAndDisable : Prop :=
  (∀ (src : Source) (v : Word) (s : State), Passes s.dev src 0x9000 → s.dev.role = .hub →
      (let refuse := !bitOf v.toNat 0 && s.dev.hr.rings.any fun p => p.2.st != 0
       Answers (.hrCtrlWrite src v) s fun t =>
        (refuse = true → t.dev.get Reg.HR_CTRL_CTRL_REFUSED = 1 ∧ t.dev.get Reg.HR_CTRL_ENABLE = s.dev.get Reg.HR_CTRL_ENABLE ∧ t.dev.queue = s.dev.queue)
        ∧ (refuse = false → t.dev.get Reg.HR_CTRL_ENABLE = v.toNat % 2 ∧ t.dev.queue = s.dev.queue ++ [.reg src 0x9000 v]
            ∧ t.dev.get Reg.HR_CTRL_CTRL_REFUSED % 2 = if bitOf v.toNat 1 then 0 else s.dev.get Reg.HR_CTRL_CTRL_REFUSED % 2)
        ∧ t.dev.engineOn = s.dev.engineOn
        ∧ t = { s with dev := { s.dev with regs := t.dev.regs, queue := t.dev.queue } }
        ∧ RegsKeepAll [Reg.HR_CTRL_ENABLE.key, Reg.HR_CTRL_CTRL_REFUSED.key] s.dev t.dev))
    ∧ (∀ (src : Source) (r : Nat) (s : State), Passes s.dev src 0x9024 → s.dev.role = .hub → r < 4096 →
      Answers (.ringDisable src r) s fun t =>
        t.dev.get Reg.HR_RING_OP_RING = r
        ∧ (s.dev.get Reg.HR_RING_OP_BUSY = 0 → t.dev.hr = { s.dev.hr with ringOp := some (r, 2) } ∧ t.dev.get Reg.HR_RING_OP_BUSY = 1)
        ∧ (s.dev.get Reg.HR_RING_OP_BUSY = 1 → t.dev.hr = s.dev.hr ∧ t.dev.get Reg.HR_RING_OP_BUSY = 1)
        ∧ t = { s with dev := { s.dev with regs := t.dev.regs, hr := { s.dev.hr with ringOp := t.dev.hr.ringOp } } }
        ∧ RegsKeepAll [Reg.HR_RING_OP_RING.key, Reg.HR_RING_OP_BUSY.key] s.dev t.dev)
    ∧ (∀ (r : Nat) (w : List Word) (post confirm : Nat) (s : State), s.dev.ringsRun = true → r < 4096 → s.dev.hr.ringOp = some (r, 3) →
      (let x (k : Nat) := nth (natsOf w) k
       let typ := x 2 % 4
       let log2 := x 2 / 256 % 32
       let kb := x 3 % 2048
       let fr := x 3 / 65536 % 128
       let reply := s.dev.ring (x 4 % 4096)
       let bad := typ = 0 ∨ log2 < 4 ∨ 16 < log2 ∨ x 0 % 64 ≠ 0 ∨ typ = 1 ∧ (kb < 1 ∨ 1024 < kb ∨ fr < 1 ∨ 64 < fr)
       let deaf := typ = 2 ∧ ¬ (reply.st = 1 ∧ reply.typ = 3)
       Answers (.ringEnable r w post confirm) s fun t =>
        t.dev.get Reg.HR_RING_OP_BUSY = 0 ∧ t.dev.hr.ringOp = none
        ∧ (bad → t.dev.get Reg.HR_RING_OP_RESULT = 1 ∧ t.dev.hr.rings = s.dev.hr.rings)
        ∧ (¬ bad → deaf → t.dev.get Reg.HR_RING_OP_RESULT = 4 ∧ t.dev.hr.rings = s.dev.hr.rings)
        ∧ (¬ bad → ¬ deaf → t.dev.get Reg.HR_RING_OP_RESULT = 0
            ∧ (let g := t.dev.ring r
               g.st = 1 ∧ g.typ = typ ∧ g.log2 = log2 ∧ g.base = x 0 + x 1 * 2 ^ 32 ∧ g.vec = x 2 / 65536 % 64 ∧ g.intEn = bitOf (x 2) 22
               ∧ g.bufKb = kb ∧ g.entFrames = fr ∧ g.hb = x 3 / 2 ^ 24 ∧ g.replyRing = x 4 % 4096 ∧ g.head = 0 ∧ g.entries = []
               ∧ (post = 0 → confirm = 0 → g.post = 0 ∧ g.confirm = 0 ∧ g.error = false ∧ ∀ q : Nat, q ≠ r → t.dev.ring q = s.dev.ring q)))
        ∧ t = { s with dev := { talked s.dev t.dev with out := t.dev.out, hr := { s.dev.hr with rings := t.dev.hr.rings, ringOp := none } } }
        ∧ RegsKeep (ringKeys ++ [Reg.HR_RING_OP_BUSY.key, Reg.HR_RING_OP_RESULT.key]) s.dev t.dev))
    ∧ (∀ (r : Nat) (s : State), r < 4096 → s.dev.ringsRun = true → (s.dev.ring r).st = 2 → (s.dev.ring r).finalHead = false →
      (s.dev.ring r).entries.all (·.written) = true → ((s.dev.ring r).typ = 2 → (s.dev.ring r).head = (s.dev.ring r).fetched) →
      Answers (.ringStopped r) s fun t =>
        (t.dev.ring r).finalHead = true ∧ (t.dev.ring r).stopped = true ∧ (t.dev.ring r).head = (s.dev.ring r).head
        ∧ HeadWordWritten (s.dev.get Reg.HR_HEAD_BASE_LO_ADDR_LO + s.dev.get Reg.HR_HEAD_BASE_HI_ADDR_HI * 2 ^ 32 + 8 * r)
            ((s.dev.ring r).head % 2 ^ 32) true s.dev.out t.dev.out
        ∧ t = { s with dev := { talked s.dev t.dev with out := t.dev.out } } ∧ RegsKeep ringKeys s.dev t.dev)
    ∧ (∀ (r p c f : Nat) (s : State), s.dev.up = true → s.dev.engineOn = true →
      s.dev.hr.lines.filter (fun x => decide (x.2.2.2 < s.dev.fn)) = [(r, p, c, f)] → (s.dev.ring r).st = 1 →
      (let g := s.dev.ring r
       let cause := if g.typ = 1 then
            (if 2 ^ g.log2 < cntDiff g.head c then 2 else if 2 ^ g.log2 < cntDiff p c ∨ cntDiff p c < cntDiff g.head c then 1 else 0)
          else if g.typ = 2 then (if 2 ^ g.log2 < cntDiff p g.head then 1 else 0) else if 2 ^ g.log2 < cntDiff g.head c then 2 else 0
       Answers .indexWordApply s fun t =>
        t.dev.hr.lines = s.dev.hr.lines.filter (fun x => decide (s.dev.fn ≤ x.2.2.2))
        ∧ (cause = 0 → (t.dev.ring r).error = false ∧ (t.dev.ring r).post = (if g.typ = 1 ∨ g.typ = 2 then p else g.post)
            ∧ (g.typ ≠ 2 → (t.dev.ring r).confirm = c) ∧ (t.dev.ring r).head = g.head ∧ ∀ q : Nat, q ≠ r → t.dev.ring q = s.dev.ring q)
        ∧ (cause ≠ 0 → (t.dev.ring r).error = true ∧ (t.dev.ring r).post = g.post ∧ (t.dev.ring r).confirm = g.confirm
            ∧ t.dev.get Reg.HR_RING_ERR_RING = r % 4096 ∧ t.dev.get Reg.HR_RING_ERR_CAUSE = cause
            ∧ t.dev.get Reg.HR_RING_ERR_COUNT = (s.dev.get Reg.HR_RING_ERR_COUNT + 1) % 65536)
        ∧ t = { s with dev := { talked s.dev t.dev with out := t.dev.out, hr := { s.dev.hr with rings := t.dev.hr.rings, lines := t.dev.hr.lines } } }
        ∧ RegsKeep ringKeys s.dev t.dev))
    ∧ ∀ s : State, s.dev.up = true → s.dev.engineOn = true → s.dev.hr.lines.all (fun x => decide (s.dev.fn ≤ x.2.2.2)) = true →
      exec .indexWordApply s = .next s

/-- ENTRY_OPEN reads the slot of entry HEAD, opens the entry in the buffer named there and takes, in order, what fits; a misaligned buffer stops the ring. An entry closes when it
is old enough, full, or its ring stops; the oldest closed one is written back with the head word that counts it. Heartbeats come after HB frames;
a pending vector's message is due when it is not masked and HOLD frames have passed, and leaves at the frame's end, and a masked one sets its PBA bit;
the events-lost descriptor is written once an entry is free; at F+128 no record of frame F but a loss record waits any more. (R230, R314, R317, R318, R321, R331.) -/
def Obligations.EntriesAndHeadWords : Prop :=
  (∀ (r buf : Nat) (s : State), r < 4096 → s.dev.ringsRun = true → (s.dev.ring r).st = 1 → (s.dev.ring r).typ = 1 → (s.dev.ring r).wait ≠ [] →
      (s.dev.ring r).openEntry = none → cntDiff (s.dev.ring r).post (s.dev.ring r).nextJ ≠ 0 →
      cntDiff (s.dev.ring r).post (s.dev.ring r).nextJ ≤ 2 ^ (s.dev.ring r).log2 →
      Answers (.entryOpen r buf) s fun t =>
        (buf % 8 ≠ 0 → (t.dev.ring r).st = 2 ∧ t.dev.get Reg.HR_RING_ERR_RING = r ∧ t.dev.get Reg.HR_RING_ERR_CAUSE = 3)
        ∧ .hostRead ((s.dev.ring r).base + 32 * ((s.dev.ring r).nextJ % 2 ^ (s.dev.ring r).log2)) 8 ∈ t.dev.out
        ∧ (buf % 8 = 0 → (∀ w ∈ (s.dev.ring r).wait, w.length ≤ (s.dev.ring r).bufKb * 256) →
            (t.dev.ring r).entries.dropLast = (s.dev.ring r).entries
            ∧ ∃ e ∈ (t.dev.ring r).entries.getLast?, e.j = (s.dev.ring r).nextJ ∧ e.buf = buf ∧ e.openFn = s.dev.fn
              ∧ e.isOpen = true ∧ e.written = false ∧ e.recs ++ (t.dev.ring r).wait = (s.dev.ring r).wait
              ∧ wordCount e.recs ≤ (s.dev.ring r).bufKb * 256 ∧ (t.dev.ring r).head = (s.dev.ring r).head
              ∧ ∀ w ∈ (t.dev.ring r).wait.head?, (s.dev.ring r).bufKb * 256 < wordCount e.recs + w.length)
        ∧ t = { s with dev := { talked s.dev t.dev with out := t.dev.out, rcd := { s.dev.rcd with seqs := t.dev.rcd.seqs } } }
        ∧ RegsKeep (ringKeys ++ [Reg.GLB_LADDER_LOSS_LOSS_RECORDS.key]) s.dev t.dev)
    ∧ (∀ (r : Nat) (e : Entry) (s : State), r < 4096 → s.dev.up = true → (s.dev.ring r).openEntry = some e →
      (let g := s.dev.ring r
       let due := g.st = 2 ∨ e.openFn + g.entFrames ≤ s.dev.fn + 1 ∨ g.wait.head?.any (fun w => decide (g.bufKb * 256 - wordCount e.recs < w.length)) = true
          ∨ e.recs.any (fun w => decide (s.dev.fnOfFi (recFi (natsOf w)) + 126 ≤ s.dev.fn)) = true
       (due → Answers (.entryClose r) s fun t =>
          (∃ more : Bool, (t.dev.ring r).entries =
            updFirst (·.isOpen) (fun x => { x with isOpen := false, closed := true, closeFn := s.dev.fn, more := more }) g.entries)
          ∧ (∀ q : Nat, q ≠ r → t.dev.ring q = s.dev.ring q)
          ∧ t = { s with dev := { s.dev with hr := { s.dev.hr with rings := t.dev.hr.rings } } })
       ∧ (¬ due → exec (.entryClose r) s = .next s)))
    ∧ (∀ (r : Nat) (e : Entry) (s : State), r < 4096 → s.dev.ringsRun = true → (s.dev.ring r).typ ≠ 3 →
      (s.dev.ring r).entries.find? (fun e => !e.written) = some e → e.closed = true → e.closeFn < s.dev.fn →
      Answers (.entryWriteback r) s fun t =>
        (t.dev.ring r).entries = updFirst (fun x => !x.written) (fun x => { x with written := true }) (s.dev.ring r).entries
        ∧ (t.dev.ring r).head = ((s.dev.ring r).head + 1) % 2 ^ 32
        ∧ HeadWordWritten (s.dev.get Reg.HR_HEAD_BASE_LO_ADDR_LO + s.dev.get Reg.HR_HEAD_BASE_HI_ADDR_HI * 2 ^ 32 + 8 * r)
            (((s.dev.ring r).head + 1) % 2 ^ 32) (s.dev.ring r).stopped
            (.hostWrite ((s.dev.ring r).base + 32 * (e.j % 2 ^ (s.dev.ring r).log2)) (wordsOf (descWords e)) :: s.dev.out) t.dev.out
        ∧ t.dev.hr.vecPend = (if (s.dev.ring r).intEn = true ∧ (s.dev.ring r).vec ∉ s.dev.hr.vecPend then s.dev.hr.vecPend ++ [(s.dev.ring r).vec]
            else s.dev.hr.vecPend)
        ∧ (∀ q : Nat, q ≠ r → t.dev.ring q = s.dev.ring q)
        ∧ t = { s with dev := { s.dev with out := t.dev.out, hr := { s.dev.hr with rings := t.dev.hr.rings, vecPend := t.dev.hr.vecPend } } })
    ∧ (∀ (r : Nat) (s : State), r < 4096 → s.dev.ringsRun = true → (s.dev.ring r).st = 1 →
      ((s.dev.ring r).hb ≠ 0 → (s.dev.ring r).lastHeadFn + (s.dev.ring r).hb ≤ s.dev.fn → Answers (.headWordHeartbeat r) s fun t =>
        t.dev.ring r = { s.dev.ring r with lastHeadFn := s.dev.fn } ∧ (∀ q : Nat, q ≠ r → t.dev.ring q = s.dev.ring q)
        ∧ HeadWordWritten (s.dev.get Reg.HR_HEAD_BASE_LO_ADDR_LO + s.dev.get Reg.HR_HEAD_BASE_HI_ADDR_HI * 2 ^ 32 + 8 * r)
            ((s.dev.ring r).head % 2 ^ 32) (s.dev.ring r).stopped s.dev.out t.dev.out
        ∧ t = { s with dev := { s.dev with out := t.dev.out, hr := { s.dev.hr with rings := t.dev.hr.rings } } })
      ∧ ((s.dev.ring r).hb = 0 ∨ s.dev.fn < (s.dev.ring r).lastHeadFn + (s.dev.ring r).hb → exec (.headWordHeartbeat r) s = .next s))
    ∧ (∀ (v : Nat) (s : State), v < 64 → s.dev.ringsRun = true → s.dev.hr.msixOn = true → v ∈ s.dev.hr.vecPend →
      (let pba := s.dev.msixWord (256 + v / 32)
       let masked := s.dev.hr.msixMask || bitOf (s.dev.msixWord (4 * v + 3)) 0
       let quiet := s.dev.hr.vecLast.find? (fun p => p.1 == v) |>.all fun p => decide (p.2 + s.dev.vecHold v < s.dev.fn)
       Answers (.msixSend v) s fun t =>
        (masked = true → t.dev.msixWord (256 + v / 32) = setBit pba (v % 32) % 2 ^ 32 ∧ t.dev.hr.msixDue = s.dev.hr.msixDue)
        ∧ (masked = false → t.dev.hr.msix = s.dev.hr.msix)
        ∧ (masked = false → quiet = true → v ∉ s.dev.hr.msixDue → t.dev.hr.msixDue = s.dev.hr.msixDue ++ [v])
        ∧ (masked = false → quiet = false ∨ v ∈ s.dev.hr.msixDue → t = s)
        ∧ (∀ k : Nat, k ≠ 256 + v / 32 → t.dev.msixWord k = s.dev.msixWord k)
        ∧ t = { s with dev := { s.dev with hr := { s.dev.hr with msixDue := t.dev.hr.msixDue, msix := t.dev.hr.msix } } }))
    ∧ (∀ (v : Nat) (d : Dev), v < 64 → d.hr.vecPend = [v] → d.hr.msixDue = [v] → d.hr.msixMask = false → bitOf (d.msixWord (4 * v + 3)) 0 = false →
      d.msixEnd.out = .msix v :: d.out ∧ d.msixEnd.hr.vecPend = [] ∧ d.msixEnd.hr.msixDue = []
      ∧ d.msixEnd.hr.vecLast = putT v d.fn d.hr.vecLast
      ∧ d.msixEnd.msixWord (256 + v / 32) = clearBit (d.msixWord (256 + v / 32)) (v % 32) % 2 ^ 32)
    ∧ (∀ (r : Nat) (s : State), r < 4096 → s.dev.ringsRun = true → (s.dev.ring r).st = 1 → (s.dev.ring r).typ = 3 → 0 < (s.dev.ring r).lost →
      (s.dev.ring r).wait = [] → (s.dev.ring r).entries.all (·.written) = true →
      cntDiff ((s.dev.ring r).head % 2 ^ 32) (s.dev.ring r).confirm < 2 ^ (s.dev.ring r).log2 →
      Answers (.eventsLostWrite r) s fun t =>
        (t.dev.ring r).lost = 0 ∧ (t.dev.ring r).head = ((s.dev.ring r).head + 1) % 2 ^ 32
        ∧ (t.dev.ring r).entries.length = (s.dev.ring r).entries.length + 1 ∧ (∀ q : Nat, q ≠ r → t.dev.ring q = s.dev.ring q)
        ∧ t = { s with dev := { s.dev with
            regs := t.dev.regs, out := t.dev.out, hr := { s.dev.hr with rings := t.dev.hr.rings, vecPend := t.dev.hr.vecPend } } }
        ∧ RegsKeepAll ringKeys s.dev t.dev)
    ∧ ∀ s : State, s.dev.up = true → s.dev.role = .hub →
      Answers .egressDeadline s fun t =>
        (∀ r : Nat, (t.dev.ring r).st = 1 → (t.dev.ring r).typ = 1 → ∀ w ∈ (t.dev.ring r).wait ++ (t.dev.ring r).hold,
          recTyp (natsOf w) = 4 ∨ s.dev.fn < s.dev.fnOfFi (recFi (natsOf w)) + 128)
        ∧ t = { s with dev := { talked s.dev t.dev with
            out := t.dev.out, rcd := { s.dev.rcd with seqs := t.dev.rcd.seqs }
            hr := { s.dev.hr with rings := t.dev.hr.rings, lossWait := t.dev.hr.lossWait } } }
        ∧ RegsKeep (ringKeys ++ [Reg.GLB_LADDER_LOSS_LOSS_RECORDS.key, Reg.HR_LOSS_UNWRITTEN_COUNT.key]) s.dev t.dev

/-- The link: down it loses the reads that are out and counts; up for the first time it has its width; back without a reset, in D0, every receive and
event ring goes back to its oldest unconfirmed entry, as one ring does on an egress error. PCIE_PERST, a function-level reset and D3hot disable every
ring at once, put the block's registers at their reset values but the status and statistics, and drop what waits; PERST ends with its release. (R231, R333, R334, R478, R522.) -/
def Obligations.LinkAndEndpoint : Prop :=
  (∀ s : State, s.dev.up = true → s.dev.role = .hub → s.dev.hr.trained = true →
      Answers .linkDown s fun t =>
        t.dev.get Reg.HR_LINK_STATUS_LINK_UP = 0
        ∧ t.dev.get Reg.HR_LINK_STATUS_DOWN_EVENTS = (s.dev.get Reg.HR_LINK_STATUS_DOWN_EVENTS + 1) % 65536 ∧ (t.dev.xing 48).held = true
        ∧ (∀ g : Nat, g ≠ 48 → t.dev.xing g = s.dev.xing g)
        ∧ (∀ r : Nat, t.dev.ring r = { s.dev.ring r with fetched := if (s.dev.ring r).typ = 2 then (s.dev.ring r).head else (s.dev.ring r).fetched })
        ∧ (∀ r : Nat, s.dev.hr.ringOp = some (r, 3) → t.dev.hr.ringOp = some (r, 1))
        ∧ t = { s with dev := { s.dev with
            regs := t.dev.regs, cross := t.dev.cross,
            hr := { s.dev.hr with sweepOut := none, reread := none, trained := false, ringOp := t.dev.hr.ringOp, rings := t.dev.hr.rings } } }
        ∧ RegsKeepAll [Reg.HR_LINK_STATUS_LINK_UP.key, Reg.HR_LINK_STATUS_DOWN_EVENTS.key, Reg.XC_TOTAL_FLUSHES.key] s.dev t.dev)
    ∧ (∀ (width : Nat) (s : State), s.dev.up = true → s.dev.role = .hub → s.dev.hr.everUp = false → s.dev.pins.perst = false →
      (width = 4 ∨ width = 8 ∨ width = 16 → s.dev.get Reg.HR_LINK_STATUS_D3HOT = 0 → Answers (.linkUp width) s fun t =>
        t.dev.get Reg.HR_LINK_STATUS_LINK_UP = 1 ∧ (t.dev.xing 48).held = false
        ∧ t = { s with dev := { s.dev with
            regs := t.dev.regs, cross := t.dev.cross, hr := { s.dev.hr with everUp := true, trained := true, width := width } } }
        ∧ RegsKeepAll [Reg.HR_LINK_STATUS_LINK_UP.key] s.dev t.dev)
      ∧ (¬ (width = 4 ∨ width = 8 ∨ width = 16) → exec (.linkUp width) s = .next s))
    ∧ (∀ s : State, s.dev.up = true → s.dev.role = .hub → s.dev.hr.everUp = true → s.dev.hr.trained = false →
      s.dev.pins.perst = false → s.dev.get Reg.HR_LINK_STATUS_D3HOT = 0 → s.dev.hr.lines = [] →
      Answers .linkRetrain s fun t =>
        t.dev.get Reg.HR_LINK_STATUS_LINK_UP = 1 ∧ t.dev.hr.reread = some 0 ∧ t.dev.hr.lossWait = (0, 0, 0)
        ∧ (∀ r : Nat, (s.dev.ring r).st = 1 → (s.dev.ring r).typ = 1 ∨ (s.dev.ring r).typ = 3 → (t.dev.ring r).head = (s.dev.ring r).confirm)
        ∧ (∀ r : Nat, (s.dev.ring r).st ≠ 1 ∨ (s.dev.ring r).typ = 2 → t.dev.ring r = s.dev.ring r)
        ∧ t = { s with dev := { talked s.dev t.dev with
            out := t.dev.out, cross := t.dev.cross, rcd := { s.dev.rcd with seqs := t.dev.rcd.seqs }
            hr := { s.dev.hr with rings := t.dev.hr.rings, reread := some 0, lossWait := (0, 0, 0), trained := true } } }
        ∧ RegsKeep (ringKeys ++ [Reg.HR_LINK_STATUS_LINK_UP.key, Reg.GLB_LADDER_LOSS_LOSS_RECORDS.key, Reg.EGR_STATS_RESENT.key,
            Reg.EGR_STATS_REWINDS.key]) s.dev t.dev)
    ∧ (∀ s : State, s.dev.up = true → s.dev.role = .hub → s.dev.hr.everUp = true → s.dev.hr.trained = false →
      s.dev.pins.perst = false → s.dev.get Reg.HR_LINK_STATUS_D3HOT = 1 →
      exec .linkRetrain s = .next { s with dev := { s.dev with hr := { s.dev.hr with trained := true } } })
    ∧ (∀ (r : Nat) (s : State), r < 4096 → s.dev.ringsRun = true → (s.dev.ring r).st = 1 →
      (s.dev.ring r).typ = 1 ∨ (s.dev.ring r).typ = 3 → s.dev.hr.lines = [] →
      Answers (.aerEgressError r) s fun t =>
        (t.dev.ring r).head = (s.dev.ring r).confirm ∧ (t.dev.ring r).rewinds = ((s.dev.ring r).rewinds + 1) % 8
        ∧ t.dev.get Reg.EGR_STATS_REWINDS = (s.dev.get Reg.EGR_STATS_REWINDS + 1) % 65536 ∧ (∀ q : Nat, q ≠ r → t.dev.ring q = s.dev.ring q)
        ∧ ((s.dev.ring r).typ = 1 → (∀ e ∈ (s.dev.ring r).entries, ∀ w ∈ e.recs,
              recLen (natsOf w) ≠ 0 ∧ s.dev.fn ≤ s.dev.fnOfFi (recFi (natsOf w)) + 128) →
            (t.dev.ring r).entries.map (fun e => (e.j, e.recs, e.written)) =
              (s.dev.ring r).entries.map (fun e => (e.j, e.recs.map resend, false))
            ∧ t.dev.get Reg.EGR_STATS_RESENT =
                (s.dev.get Reg.EGR_STATS_RESENT + ((s.dev.ring r).entries.map fun e => e.recs.length).sum) % 2 ^ 32)
        ∧ t = { s with dev := { s.dev with
            regs := t.dev.regs, out := t.dev.out, rcd := { s.dev.rcd with seqs := t.dev.rcd.seqs }, hr := { s.dev.hr with rings := t.dev.hr.rings } } }
        ∧ RegsKeepAll (ringKeys ++ [Reg.GLB_LADDER_LOSS_LOSS_RECORDS.key, Reg.EGR_STATS_RESENT.key, Reg.EGR_STATS_REWINDS.key]) s.dev t.dev)
    ∧ (∀ (c : Instr) (s : State), s.dev.up = true → s.dev.role = .hub → (c = .pciePerst ∨ c = .functionLevelReset ∨ c = .d3hotEntry) →
      Answers c s fun t =>
        t.dev.hr.rings = [] ∧ t.dev.hr.outst = [] ∧ t.dev.hr.ringOp = none ∧ t.dev.hr.vecPend = [] ∧ t.dev.hr.msix = [] ∧ t.dev.hr.lines = []
        ∧ (∀ f : Fld, (0x9000 ≤ f.addr ∧ f.addr < 0xA000 ∧ f.lo < 32 ∧ f.addr ∉ [0x9030, 0x9034, 0x903C, 0x9040]) →
            t.dev.get f = f.reset ∧ t.dev.eff f = f.reset)
        ∧ t.dev.get Reg.HR_LINK_STATUS_DOWN_EVENTS = (s.dev.get Reg.HR_LINK_STATUS_DOWN_EVENTS + 1) % 65536
        ∧ (c ≠ .functionLevelReset → t.dev.get Reg.HR_LINK_STATUS_LINK_UP = 0)
        ∧ (c = .functionLevelReset → t.dev.get Reg.HR_LINK_STATUS_LINK_UP =
              if s.dev.hr.trained then 1 else s.dev.get Reg.HR_LINK_STATUS_LINK_UP)
        ∧ t.dev.get Reg.HR_LINK_STATUS_D3HOT = (if c = .d3hotEntry then 1 else 0)
        ∧ (c = .pciePerst → t.dev.pins.perst = true ∧ t.dev.hr.everUp = false ∧ t.dev.hr.trained = false)
        ∧ (c ≠ .pciePerst → t.dev.pins.perst = s.dev.pins.perst ∧ t.dev.hr.everUp = s.dev.hr.everUp ∧ t.dev.hr.trained = s.dev.hr.trained)
        ∧ (c ≠ .d3hotEntry → t.dev.hr.msixOn = false ∧ t.dev.hr.msixMask = false)
        ∧ t = { s with dev := { s.dev with
            regs := t.dev.regs, force := t.dev.force, cross := t.dev.cross, hr := t.dev.hr, pins := { s.dev.pins with perst := t.dev.pins.perst } } }
        ∧ ∀ f : Fld, f.addr < 0x9000 ∨ 0xA000 ≤ f.addr → f.lo < 32 → f.key ≠ Reg.EGR_POOL_FREE_PAGES.key → f.key ≠ Reg.XC_TOTAL_FLUSHES.key →
            t.dev.get f = s.dev.get f)
    ∧ ∀ s : State, exec .pciePerstRelease s = .next { s with dev := { s.dev with
        pins := { s.dev.pins with perst := false, perstFn := s.dev.pw.frames } } }

/-! ### The paths of the host and of SPI -/

/-- BAR0 is served while the hub runs and its link is up: a register read answers the word, a register write does what REGISTER_WRITE of the host does, a
request of another form is an Unsupported Request. Configuration requests over a trained link get Retry Status until ready, then the word, or the write of
a field the device obeys; bits the manual does not give are free values (log entry 34). An SPI frame answers its head word and what it read; a write does what REGISTER_WRITE of SPI does, and sets the next head word's status. (R522, R552, R553, R555, R556.) -/
def Obligations.HostAndSpiAccess : Prop :=
  (∀ (r : BarReq) (s : State), ¬ (s.dev.up = true ∧ s.dev.role = .hub ∧ s.dev.linkUp = true) → exec (.bar0Access r) s = .next s)
    ∧ (∀ (r : BarReq) (s : State), s.dev.up = true → s.dev.role = .hub → s.dev.linkUp = true → r.offset < 0x10000 →
      (r.dws ≠ 1 ∨ r.allBe = false → exec (.bar0Access r) s = .next { s with dev := { s.dev with out := .barUr :: s.dev.out } })
      ∧ (r.dws = 1 → r.allBe = true → r.data = none → r.offset / 4 * 4 ∉ readActs →
          exec (.bar0Access r) s = .next { s with dev := { s.dev with out := .barData [w32 (s.dev.seenWord (r.offset / 4 * 4))] :: s.dev.out } })
      ∧ ∀ v : Word, r.dws = 1 → r.allBe = true → r.data = some [v] → exec (.bar0Access r) s = exec (.registerWrite .pcie r.offset v) s)
    ∧ (∀ (k : Nat) (v : Word) (s : State), s.dev.up = true → s.dev.role = .hub → s.dev.linkUp = true → k < 256 →
      Answers (.bar0Access ⟨0x10000 + 4 * k, 1, true, some [v]⟩) s fun t =>
        t.dev.msixWord k = v.toNat ∧ (∀ j : Nat, j ≠ k → t.dev.msixWord j = s.dev.msixWord j)
        ∧ t = { s with dev := { s.dev with hr := { s.dev.hr with msix := t.dev.hr.msix } } })
    ∧ (∀ (k : Nat) (s : State), s.dev.up = true → s.dev.role = .hub → s.dev.linkUp = true → k < 256 →
      exec (.bar0Access ⟨0x10000 + 4 * k, 1, true, none⟩) s =
        .next { s with dev := { s.dev with out := .barData [w32 (s.dev.msixWord k)] :: s.dev.out } })
    ∧ (∀ (q : CfgReq) (s : State), s.dev.up = true → s.dev.role = .hub → s.dev.hr.trained = true → s.dev.pins.perst = false →
      s.dev.pw.frames < s.dev.pins.perstFn + 30000 →
      exec (.configRequest q) s = .next { s with dev := { s.dev with out := .cfgRetry :: s.dev.out } })
    ∧ (∀ s : State, s.dev.up = true → s.dev.role = .hub → s.dev.hr.trained = true → s.dev.pins.perst = false →
      s.dev.pins.perstFn + 30000 ≤ s.dev.pw.frames →
      (∀ a : Nat, a < 4 → exec (.configRequest (.read a)) s = .next { s with dev := { s.dev with out := .cfgData 0x00481D7C#32 :: s.dev.out } })
      ∧ (∀ a : Nat, a / 4 ∉ [0, 2, 4, 5, 6, 7, 8, 9, 11, 12] → Answers (.configRequest (.read a)) s fun t =>
          t = { s with dev := { s.dev with free := s.dev.free + 1, out := t.dev.out } } ∧ t.dev.out.tail = s.dev.out)
      ∧ (∀ c : CfgCap, exec (.configRequest (.cap c)) s = .next { s with dev := { s.dev with out := .cfgData (w32 (match c with
            | .msixTable => 0x10000 | .msixPba => 0x11000 | .serialLo => s.dev.hmWord 0 | .serialHi => s.dev.hmWord 1)) :: s.dev.out } })
      ∧ (∀ p r : Nat, exec (.configRequest (.deviceControl p r)) s =
          .next { s with dev := { s.dev with hr := { s.dev.hr with payload := p % 8, readReq := r % 8 }, out := .cfgDone :: s.dev.out } })
      ∧ (∀ e m : Bool, exec (.configRequest (.msix e m)) s =
          .next { s with dev := { s.dev with hr := { s.dev.hr with msixOn := e, msixMask := m }, out := .cfgDone :: s.dev.out } })
      ∧ (∀ v : Word, Answers (.configRequest (.bar0 false v)) s fun t =>
          t.dev.hr.bar0 % 2 ^ 32 = v.toNat / 2 ^ 20 * 2 ^ 20 ∧ t.dev.hr.bar0 / 2 ^ 32 = s.dev.hr.bar0 / 2 ^ 32
          ∧ t = { s with dev := { s.dev with hr := { s.dev.hr with bar0 := t.dev.hr.bar0 }, out := .cfgDone :: s.dev.out } })
      ∧ (∀ v : Word, Answers (.configRequest (.bar0 true v)) s fun t =>
          t.dev.hr.bar0 / 2 ^ 32 = v.toNat ∧ t.dev.hr.bar0 % 2 ^ 32 = s.dev.hr.bar0 % 2 ^ 32
          ∧ t = { s with dev := { s.dev with hr := { s.dev.hr with bar0 := t.dev.hr.bar0 }, out := .cfgDone :: s.dev.out } })
      ∧ Answers (.configRequest .powerD0) s fun t =>
          t.dev.get Reg.HR_LINK_STATUS_D3HOT = 0 ∧ t.dev.get Reg.HR_LINK_STATUS_LINK_UP = 1 ∧ (t.dev.xing 48).held = false
          ∧ t = { s with dev := { s.dev with regs := t.dev.regs, cross := t.dev.cross, out := .cfgDone :: s.dev.out } }
          ∧ RegsKeepAll [Reg.HR_LINK_STATUS_D3HOT.key, Reg.HR_LINK_STATUS_LINK_UP.key] s.dev t.dev)
    ∧ (∀ (mosi : List Bool) (n : Nat) (s : State), s.dev.boot ≠ .off → mosi.length < 32 →
      Answers (.spiFrame mosi n) s fun t =>
        t.dev.out = .miso s.dev.misoHead [] :: s.dev.out ∧ t.dev.pins = { s.dev.pins with spiDenied := false, spiShort := true }
        ∧ (t.dev.xing 49).flushes = ((s.dev.xing 49).flushes + 1) % 65536
        ∧ t = { s with dev := { s.dev with out := t.dev.out, pins := t.dev.pins, cross := t.dev.cross } })
    ∧ (∀ (a : Nat) (s : State), s.dev.boot ≠ .off → a < 65536 → a / 4 * 4 ∉ readActs →
      Answers (.spiFrame (bits32 (2 ^ 31 + a)) 1) s fun t =>
        t.dev.out = .miso s.dev.misoHead [w32 (if s.dev.spiReads (a / 4 * 4) then s.dev.seenWord (a / 4 * 4) else 0)] :: s.dev.out
        ∧ t.dev.pins = { s.dev.pins with spiDenied := false, spiShort := false }
        ∧ t = { s with dev := { s.dev with out := t.dev.out, pins := t.dev.pins, cross := t.dev.cross } })
    ∧ (∀ (a n : Nat) (v : Word) (s : State), s.dev.boot ≠ .off → a < 65536 →
      Answers (.registerWrite .spi a v) s fun u =>
        Answers (.spiFrame (bits32 (2 ^ 30 + a) ++ bits32 v.toNat) n) s fun t =>
          t = { u with dev := { u.dev with
            out := .miso s.dev.misoHead [] :: u.dev.out, cross := t.dev.cross
            pins := { u.dev.pins with
              spiDenied := s.dev.open? .spi (a / 4 * 4) && !s.dev.mayWrite .spi (a / 4 * 4), spiShort := false } } })
    ∧ (∀ (a : Nat) (d : Dev), d.pw.shown = [] → d.seenWord a = d.regWord a)
    ∧ ∀ d : Dev, d.misoHead.toNat / 2 ^ 24 = 0x5A ∧ bitOf d.misoHead.toNat 22 = d.pins.spiDenied ∧ bitOf d.misoHead.toNat 21 = d.pins.spiShort

/-! ### Errors, assays, retirement -/

/-- The scrubber reads word after word; a clean word stays, a correctable one is written back corrected, counted and logged, an uncorrectable
one is counted, logged and sets DOUBLE_BYTE; a lap's length is kept, and a round shows the longest lap of the powered banks. An assay begins, and an
engine leaves service with its record raw; its verdict is counted, a lasting one of a memory word marks its page suspect; a unit that is watched is lasting
when its error came again. Retired pages are marked; the log is read; a copy that differs from the other two is counted and logged. (R404, R405, R417, R418, R419, R420, R425, R426, R440.) -/
def Obligations.FaultsAndRecovery : Prop :=
  (∀ (m flips : Nat) (s : State), m < 17 → s.dev.up = true → (m = 16 ∨ s.dev.mdOn (m / 4) = true) →
      (let w := getT 0 m s.dev.flt.scrub
       let idx := if m < 16 then 131072 * m + w else smallIdx w
       let e := getT 0 idx s.ecc ^^^ flips % 2 ^ 52
       (wordRead e = .clean → exec (.scrubRead m flips) s = .next { s with
          ecc := putZ idx e s.ecc
          dev := { s.dev with flt := if w + 1 < (if m < 16 then 131072 else 31744) then { s.dev.flt with scrub := putT m (w + 1) s.dev.flt.scrub }
            else { s.dev.flt with
              scrub := putT m ((w + 1) % (if m < 16 then 131072 else 31744)) s.dev.flt.scrub, lapFrom := putT m s.dev.pw.frames s.dev.flt.lapFrom,
              laps := putT m (max (s.dev.pw.frames - getT 0 m s.dev.flt.lapFrom) (getT 0 m s.dev.flt.laps)) s.dev.flt.laps } } })
       ∧ (wordRead e = .corrected → EccCanonical s → Answers (.scrubRead m flips) s fun t =>
          getT 0 idx t.ecc = correctWord e ∧ (∀ j : Nat, j ≠ idx → getT 0 j t.ecc = getT 0 j s.ecc)
          ∧ t.dev.get Reg.FLT_COUNT_MEM_CORRECTED = (s.dev.get Reg.FLT_COUNT_MEM_CORRECTED + 1) % 65536
          ∧ t = { s with ecc := t.ecc, dev := { talked s.dev t.dev with flt := t.dev.flt } }
          ∧ RegsKeep (logKeys ++ [Reg.FLT_COUNT_MEM_CORRECTED.key]) s.dev t.dev)
       ∧ (wordRead e = .uncorrectable → Answers (.scrubRead m flips) s fun t =>
          t.ecc = putZ idx e s.ecc ∧ t.dev.flag Reg.FLT_STATUS_DOUBLE_BYTE = true
          ∧ t.dev.get Reg.FLT_COUNT_MEM_UNCORRECTABLE = (s.dev.get Reg.FLT_COUNT_MEM_UNCORRECTABLE + 1) % 65536
          ∧ t.dev.flt.scrub = putT m ((w + 1) % (if m < 16 then 131072 else 31744)) s.dev.flt.scrub)))
    ∧ (∀ s : State, s.dev.up = true → (∃ b : Nat, b < 16 ∧ s.dev.mdOn (b / 4) = true) →
      (∀ b : Nat, b < 16 → s.dev.mdOn (b / 4) = true → b ∈ s.dev.flt.laps.map (·.1)) →
      (let top := (((List.range 16).filter fun b => s.dev.mdOn (b / 4)).map fun b => getT 0 b s.dev.flt.laps).foldl max 0
       Answers .scrubRoundEnd s fun t =>
        t.dev.get Reg.MEM_SCRUB_LAP_LAST_LAP = min 65535 top
        ∧ t.dev.get Reg.MEM_SCRUB_LAP_MAX_LAP = min 32767 (max top (s.dev.get Reg.MEM_SCRUB_LAP_MAX_LAP))
        ∧ t.dev.get Reg.MEM_SCRUB_LAPS_ROUNDS = (s.dev.get Reg.MEM_SCRUB_LAPS_ROUNDS + 1) % 2 ^ 32
        ∧ t.dev.get Reg.MEM_SCRUB_LAP_LAP_LONG = (if max 1 (s.dev.get Reg.MEM_SCRUB_CFG_LAP_LIMIT) < top then 1
            else s.dev.get Reg.MEM_SCRUB_LAP_LAP_LONG)
        ∧ t = { s with dev := { talked s.dev t.dev with flt := { s.dev.flt with laps := [] } } }
        ∧ RegsKeep [Reg.MEM_SCRUB_LAP_LAST_LAP.key, Reg.MEM_SCRUB_LAP_MAX_LAP.key, Reg.MEM_SCRUB_LAPS_ROUNDS.key,
            Reg.MEM_SCRUB_LAP_LAP_LONG.key] s.dev t.dev))
    ∧ (∀ (b : Nat) (s : State), b < 16 → s.dev.mdOn (b / 4) = true → b ∉ s.dev.flt.laps.map (·.1) → exec .scrubRoundEnd s = .next s)
    ∧ (∀ (u : UnitId) (s : State), s.dev.up = true → (∃ a ∈ s.dev.flt.assays, a.u = u ∧ a.running = false) →
      (u.unit = 7 → ∀ a ∈ s.dev.rcd.asm, a.engine ≠ some u.loc) →
      Answers (.assayBegin u) s fun t =>
        t.dev.flt.assays = (s.dev.flt.assays.map fun a => if a.u == u then { a with running := true, fn := s.dev.fn, again := false } else a)
        ∧ t.dev.get Reg.FLT_STATUS_ASSAY_ACTIVE = 1
        ∧ (u.unit = 4 → t.dev.get (Reg.LN_STATUS_ASSAY_ACTIVE u.loc) = 1)
        ∧ (u.unit = 7 → bitOf (t.dev.get Reg.CMP_STATUS_ENC_ENGINES) u.loc = false)
        ∧ t = { s with dev := { s.dev with regs := t.dev.regs, flt := { s.dev.flt with assays := t.dev.flt.assays } } }
        ∧ RegsKeepAll [Reg.FLT_STATUS_ASSAYS_WAITING.key, Reg.FLT_STATUS_ASSAY_ACTIVE.key, (Reg.LN_STATUS_ASSAY_ACTIVE u.loc).key,
            Reg.CMP_STATUS_ENC_ENGINES.key] s.dev t.dev)
    ∧ (∀ (e : Nat) (a : Asm) (s : State), e < 8 → s.dev.up = true → (∃ a ∈ s.dev.flt.assays, a.u = ⟨7, e⟩ ∧ a.running = false) →
      s.dev.rcd.asm.find? (fun x => x.engine == some e) = some a →
      Answers (.assayBegin ⟨7, e⟩) s fun t =>
        t.dev.rcd.ready = s.dev.rcd.ready ++ [a.raw] ∧ bitOf (t.dev.get Reg.CMP_STATUS_ENC_ENGINES) e = false
        ∧ t.dev.rcd.asm.all (fun x => x.engine != some e) = true
        ∧ t.dev.get Reg.CMP_VERIFY_STATS_VERIFY_FAIL = (s.dev.get Reg.CMP_VERIFY_STATS_VERIFY_FAIL + 1) % 65536
        ∧ t.dev.get Reg.CMP_VERIFY_STATS_LAST_CAUSE = 3
        ∧ t = { s with dev := { s.dev with
            regs := t.dev.regs, flt := { s.dev.flt with assays := t.dev.flt.assays }, rcd := { s.dev.rcd with asm := t.dev.rcd.asm, ready := t.dev.rcd.ready } } })
    ∧ (∀ (u : UnitId) (a : Assay) (test : Bool) (s : State), s.dev.up = true → u.unit = 3 ∨ u.unit = 5 ∨ u.unit = 6 →
      s.dev.flt.assays.find? (fun a => a.u == u && a.running) = some a → a.again = false →
      (let frames := if u.unit = 3 then 1024 else 1000
       (s.dev.fn < a.fn + frames → exec (.assayComplete u test) s = .next s)
       ∧ (a.fn + frames ≤ s.dev.fn → Answers (.assayComplete u test) s fun t =>
          t.dev.get Reg.FLT_COUNT_ASSAY_TRANSIENT = (s.dev.get Reg.FLT_COUNT_ASSAY_TRANSIENT + 1) % 4096
          ∧ t.dev.flt.assays = s.dev.flt.assays.filter (fun x => x.u ≠ u)
          ∧ t = { s with dev := { talked s.dev t.dev with flt := t.dev.flt } }
          ∧ RegsKeep [Reg.FLT_STATUS_ASSAYS_WAITING.key, Reg.FLT_STATUS_ASSAY_ACTIVE.key, Reg.FLT_COUNT_ASSAY_TRANSIENT.key] s.dev t.dev)))
    ∧ (∀ (u : UnitId) (a : Assay) (test : Bool) (s : State), s.dev.up = true → u.unit = 3 ∨ u.unit = 5 ∨ u.unit = 6 →
      s.dev.flt.assays.find? (fun a => a.u == u && a.running) = some a → a.again = true →
      Answers (.assayComplete u test) s fun t =>
        t.dev.get Reg.FLT_COUNT_ASSAY_LASTING = min (s.dev.get Reg.FLT_COUNT_ASSAY_LASTING + 1) 255
        ∧ t.dev.flt.assays.all (fun x => x.u != u) = true ∧ t.ecc = s.ecc)
    ∧ (∀ (loc : Nat) (a : Assay) (lasting : Bool) (s : State), s.dev.up = true → loc < 2097152 →
      s.dev.flt.assays.find? (fun a => a.u == ⟨1, loc⟩ && a.running) = some a → a.fn ≤ s.dev.fn →
      Answers (.assayComplete ⟨1, loc⟩ lasting) s fun t =>
        t.ecc = delT loc s.ecc ∧ (∀ x ∈ t.dev.flt.assays, x.u ≠ ⟨1, loc⟩)
        ∧ (lasting = false → t.dev.get Reg.FLT_COUNT_ASSAY_TRANSIENT = (s.dev.get Reg.FLT_COUNT_ASSAY_TRANSIENT + 1) % 4096
            ∧ t.dev.ledger = s.dev.ledger)
        ∧ (lasting = true → t.dev.get Reg.FLT_COUNT_ASSAY_LASTING = min (s.dev.get Reg.FLT_COUNT_ASSAY_LASTING + 1) 255
            ∧ bitOf (t.dev.get (Reg.MEM_SUSPECT_MAP_SUSPECT (loc / 1024 / 32))) (loc / 1024 % 32) = true)
        ∧ t = { s with ecc := t.ecc, dev := { talked s.dev t.dev with flt := t.dev.flt, ledger := t.dev.ledger } }
        ∧ RegsKeep [Reg.FLT_STATUS_ASSAYS_WAITING.key, Reg.FLT_STATUS_ASSAY_ACTIVE.key, Reg.FLT_COUNT_ASSAY_TRANSIENT.key,
            Reg.FLT_COUNT_ASSAY_LASTING.key, (Reg.MEM_SUSPECT_MAP_SUSPECT (loc / 1024 / 32)).key, Reg.LDG_STATUS_NEXT_SLOT.key,
            Reg.LDG_STATUS_WRITE_ERR.key] s.dev t.dev)
    ∧ (∀ (src : Source) (v : Word) (s : State), Passes s.dev src 0x710C → bitOf v.toNat 15 = false →
      (let p := v.toNat % 2048
       Answers (.retireStart src v) s fun t =>
        (bitOf v.toNat 16 = false ∨ s.dev.get Reg.MEM_RETIRE_OP_BUSY = 1 →
          t.dev.flt = s.dev.flt ∧ t.dev.rcd = s.dev.rcd ∧ t.dev.get Reg.MEM_RETIRE_OP_BUSY = s.dev.get Reg.MEM_RETIRE_OP_BUSY
          ∧ RegsKeepAll [Reg.MEM_RETIRE_OP_PAGE.key, Reg.MEM_RETIRE_OP_BANK.key, Reg.MEM_RETIRE_OP_SCOPE.key] s.dev t.dev)
        ∧ (bitOf v.toNat 16 = true → s.dev.get Reg.MEM_RETIRE_OP_BUSY = 0 → s.dev.retiredPage p = true → t.dev.get Reg.MEM_RETIRE_OP_RESULT = 2
            ∧ t.dev.flt = s.dev.flt ∧ t.dev.get Reg.MEM_RETIRE_OP_BUSY = 0)
        ∧ (bitOf v.toNat 16 = true → s.dev.get Reg.MEM_RETIRE_OP_BUSY = 0 → s.dev.retiredPage p = false → s.dev.pageUse p = .fixed → s.dev.spareList = [] →
            t.dev.get Reg.MEM_RETIRE_OP_RESULT = 1 ∧ t.dev.flt = s.dev.flt ∧ t.dev.get Reg.MEM_RETIRE_OP_BUSY = 0)
        ∧ (bitOf v.toNat 16 = true → s.dev.get Reg.MEM_RETIRE_OP_BUSY = 0 → s.dev.retiredPage p = false → s.dev.pageUse p = .spare → s.dev.assayIn p = false →
            s.dev.flt.retiring = [] → t.dev.retiredPage p = true ∧ (∀ q : Nat, q < 2048 → q ≠ p → t.dev.retiredPage q = s.dev.retiredPage q)
            ∧ t.dev.get Reg.MEM_RETIRE_OP_BUSY = 0 ∧ t.dev.get Reg.MEM_RETIRE_OP_RESULT = 0 ∧ t.dev.flt = s.dev.flt)
        ∧ t.dev.get Reg.MEM_RETIRE_OP_PAGE = p ∧ t.dev.get Reg.MEM_RETIRE_OP_BANK = v.toNat / 2048 % 16 ∧ t.dev.get Reg.MEM_RETIRE_OP_SCOPE = 0
        ∧ t = { s with dev := { talked s.dev t.dev with
            free := t.dev.free, force := t.dev.force, rcd := { s.dev.rcd with pool := t.dev.rcd.pool }, flt := t.dev.flt
            pw := { s.dev.pw with req := t.dev.pw.req } } }))
    ∧ (∀ s : State, s.dev.flt.retiring = [] → exec .retireDone s = .next s)
    ∧ (∀ (p n : Nat) (s : State), s.dev.up = true → s.dev.flt.retiring = [(p, some n)] → p < 2048 → s.dev.assayIn p = false →
      (s.dev.role = .hub ∨ s.dev.mdOn (n / 512) = true) → (∀ x ∈ s.ecc, x.1 / 1024 ≠ p) →
      Answers .retireDone s fun t =>
        t.ecc = s.ecc ∧ t.dev.flt.retiring = [] ∧ getT p (s.dev.logical p) t.dev.flt.remap = n ∧ t.dev.retiredPage p = true
        ∧ t.dev.get Reg.MEM_SPARE_REMAPPED = (s.dev.get Reg.MEM_SPARE_REMAPPED + 1) % 2048
        ∧ (s.dev.get Reg.MEM_RETIRE_OP_BUSY = 1 → t.dev.get Reg.MEM_RETIRE_OP_BUSY = 0 ∧ t.dev.get Reg.MEM_RETIRE_OP_RESULT = 0)
        ∧ t = { s with dev := { talked s.dev t.dev with flt := { s.dev.flt with retiring := [], remap := t.dev.flt.remap } } }
        ∧ RegsKeep [Reg.MEM_RETIRE_OP_BUSY.key, Reg.MEM_RETIRE_OP_RESULT.key, Reg.MEM_SPARE_REMAPPED.key, (Reg.MEM_RETIRE_MAP_RETIRED (p / 32)).key,
            Reg.MEM_BANK_RETIRED_BANKS.key] s.dev t.dev)
    ∧ (∀ s : State, (s.dev.up = true ∨ s.dev.boot = .held) →
      (let n := s.dev.get Reg.FLT_LOG_SEL_SLOT
       (∀ k : Nat, k < 4 → getT 0 (4390912 + 4 * n + k) s.ecc = 0) →
       Answers .fltLogCapture s fun t =>
        t.dev.get Reg.FLT_LOG_DATA0_W0 = nth (s.dev.logSlot n) 0 ∧ t.dev.get Reg.FLT_LOG_DATA1_W1 = nth (s.dev.logSlot n) 1
        ∧ t.dev.get Reg.FLT_LOG_DATA2_W2 = nth (s.dev.logSlot n) 2 ∧ t.dev.get Reg.FLT_LOG_DATA3_W3 = nth (s.dev.logSlot n) 3
        ∧ t = { s with dev := { s.dev with regs := t.dev.regs } }
        ∧ RegsKeepAll [Reg.FLT_LOG_DATA0_W0.key, Reg.FLT_LOG_DATA1_W1.key, Reg.FLT_LOG_DATA2_W2.key, Reg.FLT_LOG_DATA3_W3.key] s.dev t.dev))
    ∧ ∀ (addr bit copy : Nat) (s : State), copy < 3 → s.dev.up = true → s.dev.flt.assays.all (fun a => a.u != ⟨3, addr % 65536 + bit % 32 * 65536⟩) = true →
      Answers (.oneCopyDiffers addr bit copy) s fun t =>
        t.dev.get Reg.FLT_COUNT_VOTE_FIXED = (s.dev.get Reg.FLT_COUNT_VOTE_FIXED + 1) % 65536
        ∧ t.dev.flt.logSeq = s.dev.flt.logSeq + 1 ∧ nth (t.dev.logSlot (s.dev.flt.logSeq % 256)) 2 = addr % 65536 + bit % 32 * 65536
        ∧ nth (t.dev.logSlot (s.dev.flt.logSeq % 256)) 0 % 256 = 0x33
        ∧ t = { s with dev := { talked s.dev t.dev with flt := t.dev.flt } }
        ∧ RegsKeep (logKeys ++ [Reg.FLT_COUNT_VOTE_FIXED.key]) s.dev t.dev

/-! ### Housekeeping -/

/-- A conversion that has lasted its time and ends is discarded and counted while discards are owed, else kept: floor((raw − OFS) × GAIN_F / 2^22), clamped,
waits for the boundary. A lead ends in three discards, a rest in a new burst; HKBLANK discards the conversion in progress, and three more once it is
released. Self-calibration takes the factors that pass and is refused while one runs; a read of HK_RESULT captures both words; a monitor setting acts at
once: HKMON is at 0 V while disabled or without excitation, else tracks its pair, or holds the value last tracked. (R452, R453, R454, R457, R459, R460, R466, R472, R474.) -/
def Obligations.Housekeeping : Prop :=
  (∀ (src : Source) (v : Word) (s : State), Passes s.dev src 0xB000 →
      Answers (.hkEnable src v) s fun t =>
        t.dev.get Reg.HK_CTRL_ENABLE = v.toNat % 2 ∧ t.dev.get Reg.HK_CTRL_EVT_EVERY = v.toNat / 256 % 256
        ∧ t.dev.eff Reg.HK_CTRL_ENABLE = s.dev.eff Reg.HK_CTRL_ENABLE ∧ t.dev.queue = s.dev.queue ++ [.reg src 0xB000 v]
        ∧ (bitOf v.toNat 1 = false → t.dev.hk = s.dev.hk ∧ t.dev.get Reg.HK_STATUS_CAL_REFUSED = s.dev.get Reg.HK_STATUS_CAL_REFUSED)
        ∧ (bitOf v.toNat 1 = true → s.dev.calRuns = false → t.dev.hk.calReq = true)
        ∧ (bitOf v.toNat 1 = true → s.dev.calRuns = true → t.dev.get Reg.HK_STATUS_CAL_REFUSED = 1 ∧ t.dev.hk = s.dev.hk)
        ∧ t = { s with dev := { s.dev with regs := t.dev.regs, queue := t.dev.queue, hk := { s.dev.hk with calReq := t.dev.hk.calReq } } }
        ∧ RegsKeepAll [Reg.HK_CTRL_ENABLE.key, Reg.HK_CTRL_EVT_EVERY.key, Reg.HK_STATUS_CAL_REFUSED.key] s.dev t.dev)
    ∧ (∀ (src : Source) (s : State), Passes s.dev src 0xB000 →
      (s.dev.calRuns = false → exec (.hkSelfcal src) s = .next { s with dev := { s.dev with hk := { s.dev.hk with calReq := true } } })
      ∧ (s.dev.calRuns = true → Answers (.hkSelfcal src) s fun t =>
          t.dev.get Reg.HK_STATUS_CAL_REFUSED = 1 ∧ t = { s with dev := { s.dev with regs := t.dev.regs } }
          ∧ RegsKeepAll [Reg.HK_STATUS_CAL_REFUSED.key] s.dev t.dev))
    ∧ (∀ (src : Source) (v : Word) (s : State), Passes s.dev src 0xB028 →
      Answers (.hkMonCfgWrite src v) s fun t =>
        t.dev.get Reg.HK_MON_CFG_ENABLE = v.toNat % 2 ∧ t.dev.get Reg.HK_MON_CFG_MP = v.toNat / 2 % 16
        ∧ t.dev.get Reg.HK_MON_CFG_MN = v.toNat / 32 % 16 ∧ t.dev.get Reg.HK_MON_CFG_MGAIN = v.toNat / 512 % 8
        ∧ ((v.toNat % 2 = 0 ∨ s.dev.excMode = false) → t.dev.hk.mon = .ground)
        ∧ (v.toNat % 2 = 1 → s.dev.excMode = true → s.dev.monTracks = true →
            t.dev.hk.mon = .tracking (v.toNat / 2 % 16) (v.toNat / 32 % 16) (v.toNat / 512 % 8))
        ∧ (v.toNat % 2 = 1 → s.dev.excMode = true → s.dev.monTracks = false →
            (∀ a b c : Nat, s.dev.hk.mon = .tracking a b c → t.dev.hk.mon = .holding a b c)
            ∧ ((∀ a b c : Nat, s.dev.hk.mon ≠ .tracking a b c) → t.dev.hk.mon = s.dev.hk.mon))
        ∧ t = { s with dev := { s.dev with regs := t.dev.regs, hk := { s.dev.hk with mon := t.dev.hk.mon } } }
        ∧ RegsKeepAll ((fieldsAt 0xB028).map Fld.key) s.dev t.dev)
    ∧ (∀ (mp mn g : Nat) (now held : Int × Int × List Int), HkMon.ground.volts now held = 0
      ∧ (let x := now.1 + now.2.1 + 2 * 2 ^ g * (now.2.2.getD mp 0 - now.2.2.getD mn 0)
         (HkMon.tracking mp mn g).volts now held = max 100000 (min 3500000 x))
      ∧ (HkMon.holding mp mn g).volts now held = (HkMon.tracking mp mn g).volts held now)
    ∧ (∀ (raw : Int) (a b c : Bool) (s : State), s.dev.up = true → s.dev.hkPhase = 2 → 1 < s.dev.hk.disc → s.dev.hk.atConv = [] →
      1000 * s.dev.hk.since + s.dev.convNs < 1000 * s.dev.pw.frames + 1000 →
      s.dev.hk.calReq = false → s.dev.bursts = false →
      Answers (.hkConversionEnd raw a b c) s fun t =>
        t.dev.hk = { s.dev.hk with disc := s.dev.hk.disc - 1, since := s.dev.pw.frames, mon := t.dev.hk.mon } ∧ t.dev.hkPhase = 2
        ∧ t.dev.get Reg.HK_COUNTS_BLANKED = (if s.dev.hk.discBlank then (s.dev.get Reg.HK_COUNTS_BLANKED + 1) % 65536 else s.dev.get Reg.HK_COUNTS_BLANKED)
        ∧ t.dev.get Reg.HK_COUNTS_DISCARDED =
            (if s.dev.hk.discBlank then s.dev.get Reg.HK_COUNTS_DISCARDED else (s.dev.get Reg.HK_COUNTS_DISCARDED + 1) % 65536)
        ∧ t = { s with dev := { s.dev with regs := t.dev.regs, hk := t.dev.hk } }
        ∧ RegsKeepAll [Reg.HK_COUNTS_BLANKED.key, Reg.HK_COUNTS_DISCARDED.key, Reg.HK_STATUS_EXC_ON.key] s.dev t.dev)
    ∧ (∀ (raw : Int) (ovld refLow limit : Bool) (s : State), s.dev.up = true → s.dev.hkPhase = 3 → s.dev.hk.atConv = [] → s.dev.hk.calReq = false →
      s.dev.bursts = false → 1000 * s.dev.hk.since + s.dev.convNs < 1000 * s.dev.pw.frames + 1000 →
      (let g := s.dev.hkF Reg.HK_CONV_CFG_GAIN
       let x := ((raw - s.dev.hkI (Reg.HK_CAL_OFS_OFS g)) * (s.dev.hkF (Reg.HK_CAL_GAIN_GAIN_F g) : Int)).fdiv 4194304
       let v := max (-8388608) (min 8388607 x)
       Answers (.hkConversionEnd raw ovld refLow limit) s fun t =>
        (∃ p ∈ t.dev.hk.post, p.1 % 2 ^ 24 = (v % 2 ^ 24).toNat ∧ bitOf p.1 24 = (ovld || decide (x ≠ v))
          ∧ bitOf p.1 26 = !s.dev.flag Reg.HK_STATUS_CAL_VALID ∧ bitOf p.1 28 = limit ∧ p.2 % 65536 = (s.dev.hk.live.2 + 1) % 65536)
        ∧ t = { s with dev := { s.dev with regs := t.dev.regs, hk := { s.dev.hk with post := t.dev.hk.post, since := s.dev.pw.frames, mon := t.dev.hk.mon } } }
        ∧ RegsKeepAll [Reg.HK_STATUS_EXC_ON.key] s.dev t.dev))
    ∧ (∀ (c : Instr) (s : State), s.dev.up = true → s.dev.pins.hkBlank = false →
      (c = .hkLeadEnd ∧ s.dev.hkPhase = 1
          ∧ 1000 * s.dev.hk.since + 1000 * max 1 (min 100000 (s.dev.hkF Reg.HK_EXC_LEAD_LEAD_US)) < 1000 * s.dev.pw.frames + 1000
        ∨ c = .hkRestEnd ∧ s.dev.hkPhase = 4 ∧ s.dev.effB Reg.HK_CTRL_ENABLE = true ∧ s.dev.bursts = false
          ∧ 1000 * s.dev.hk.since + 1000 * max 1 (min 100000 (s.dev.hkF Reg.HK_EXC_REST_REST_US)) < 1000 * s.dev.pw.frames + 1000) →
      Answers c s fun t =>
        t.dev.hkPhase = 2 ∧ t.dev.hk.disc = 3 ∧ t.dev.hk.discBlank = false
        ∧ t = { s with dev := { s.dev with regs := t.dev.regs, hk := t.dev.hk } }
        ∧ RegsKeepAll [Reg.HK_STATUS_PHASE.key, Reg.HK_STATUS_EXC_ON.key] s.dev t.dev)
    ∧ (∀ s : State, s.dev.up = true → s.dev.hkPhase = 4 → s.dev.effB Reg.HK_CTRL_ENABLE = true → s.dev.bursts = true →
      1000 * s.dev.hk.since + 1000 * max 1 (min 100000 (s.dev.hkF Reg.HK_EXC_REST_REST_US)) < 1000 * s.dev.pw.frames + 1000 →
      Answers .hkRestEnd s fun t =>
        t.dev.hkPhase = 1 ∧ t.dev.hk.keep = s.dev.hkKeep ∧ t.dev.get Reg.HK_STATUS_EXC_ON = (if s.dev.excMode then 1 else 0)
        ∧ t = { s with dev := { s.dev with regs := t.dev.regs, hk := t.dev.hk } }
        ∧ RegsKeepAll [Reg.HK_STATUS_PHASE.key, Reg.HK_STATUS_EXC_ON.key] s.dev t.dev)
    ∧ (∀ s : State, s.dev.up = true → s.dev.pins.hkBlank = false →
      Answers .hkblankAssert s fun t =>
        t.dev.pins = { s.dev.pins with hkBlank := true }
        ∧ (s.dev.hkPhase = 2 ∨ s.dev.hkPhase = 3 ∨ s.dev.hkPhase = 6 →
            t.dev.hkPhase = 5 ∧ t.dev.get Reg.HK_COUNTS_BLANKED = (s.dev.get Reg.HK_COUNTS_BLANKED + 1) % 65536
            ∧ t.dev.hk = { s.dev.hk with
                blanked := some s.dev.hkPhase, mon := t.dev.hk.mon
                since := if s.dev.hkPhase = 6 then s.dev.pw.frames - s.dev.hk.since else s.dev.pw.frames })
        ∧ (s.dev.hkPhase ≠ 2 → s.dev.hkPhase ≠ 3 → s.dev.hkPhase ≠ 6 → t.dev.regs = s.dev.regs ∧ t.dev.hk = s.dev.hk)
        ∧ t = { s with dev := { s.dev with regs := t.dev.regs, pins := t.dev.pins, hk := t.dev.hk } }
        ∧ RegsKeepAll [Reg.HK_STATUS_PHASE.key, Reg.HK_STATUS_EXC_ON.key, Reg.HK_COUNTS_BLANKED.key] s.dev t.dev)
    ∧ (∀ s : State, Answers .hkblankRelease s fun t =>
        t.dev.pins = { s.dev.pins with hkBlank := false }
        ∧ (s.dev.hkPhase = 5 → s.dev.hk.blanked ≠ some 6 → t.dev.hkPhase = 2 ∧ t.dev.hk.disc = 3 ∧ t.dev.hk.discBlank = true)
        ∧ (s.dev.hkPhase = 5 → s.dev.hk.blanked = some 6 → t.dev.hkPhase = 6)
        ∧ (s.dev.hkPhase ≠ 5 → t.dev.hk = s.dev.hk ∧ t.dev.regs = s.dev.regs)
        ∧ t = { s with dev := { s.dev with regs := t.dev.regs, pins := t.dev.pins, hk := t.dev.hk } }
        ∧ RegsKeepAll [Reg.HK_STATUS_PHASE.key, Reg.HK_STATUS_EXC_ON.key] s.dev t.dev)
    ∧ (∀ (ms : List (Int × Int)) (s : State), s.dev.up = true → s.dev.hkPhase = 6 → ms.length = 8 → s.dev.hk.atConv = [] →
      1000 * s.dev.hk.since + 144 * 256 * 977 < 1000 * s.dev.pw.frames + 1000 →
      Answers (.hkSelfcalDone ms) s fun t =>
        t.dev.get Reg.HK_STATUS_CAL_DONE = 1 ∧ t.dev.get Reg.HK_STATUS_CAL_VALID = 1
        ∧ (∀ g : Nat, g < 8 → let m := ms.getD g (0, 0)
            (hkFactorsOk m = true → t.dev.hkI (Reg.HK_CAL_OFS_OFS g) = m.1
              ∧ (hkGainF m).map Int.toNat = some (t.dev.hkF (Reg.HK_CAL_GAIN_GAIN_F g)))
            ∧ (hkFactorsOk m = false → t.dev.hkF (Reg.HK_CAL_OFS_OFS g) = s.dev.hkF (Reg.HK_CAL_OFS_OFS g)
              ∧ t.dev.hkF (Reg.HK_CAL_GAIN_GAIN_F g) = s.dev.hkF (Reg.HK_CAL_GAIN_GAIN_F g))
            ∧ t.dev.get (Reg.HK_CAL_OFS_OFS g) = t.dev.hkF (Reg.HK_CAL_OFS_OFS g)
            ∧ t.dev.get (Reg.HK_CAL_GAIN_GAIN_F g) = t.dev.hkF (Reg.HK_CAL_GAIN_GAIN_F g))
        ∧ t = { s with dev := { talked s.dev t.dev with hk := t.dev.hk } }
        ∧ RegsKeep ([Reg.HK_STATUS_PHASE.key, Reg.HK_STATUS_EXC_ON.key, Reg.HK_STATUS_CAL_DONE.key, Reg.HK_STATUS_CAL_VALID.key]
            ++ (List.range 8).flatMap fun g => [(Reg.HK_CAL_OFS_OFS g).key, (Reg.HK_CAL_GAIN_GAIN_F g).key]) s.dev t.dev)
    ∧ (∀ s : State, s.dev.up = true →
      (s.dev.flag Reg.HK_STATUS_EXC_ON = false → exec .excLimit s = .next s)
      ∧ (s.dev.flag Reg.HK_STATUS_EXC_ON = true → Answers .excLimit s fun t =>
          t.dev.flag Reg.HK_STATUS_EXC_LIMIT = true ∧ t = { s with dev := talked s.dev t.dev }
          ∧ RegsKeep [Reg.HK_STATUS_EXC_LIMIT.key] s.dev t.dev))
    ∧ ∀ s : State, (s.dev.up = true ∨ s.dev.boot = .held) →
      Answers .hkResultCapture s fun t =>
        (∀ f ∈ fieldsAt 0xB01C, t.dev.get f = bits s.dev.hk.live.1 f.lo f.width)
        ∧ (∀ f ∈ fieldsAt 0xB020, t.dev.get f = bits s.dev.hk.live.2 f.lo f.width)
        ∧ t = { s with dev := { s.dev with regs := t.dev.regs } }
        ∧ RegsKeepAll ((fieldsAt 0xB01C ++ fieldsAt 0xB020).map Fld.key) s.dev t.dev

/-! ### Thermal control -/

/-- The power and thermal unit. Sixteen counts that arrive in a frame whose FI is a multiple of 64 become readings t = 25 °C + SLOPE (N0 − n) / 65536 at
once, others wait; T_J is the hottest accepted one. At 120 °C (cause 1) and with fewer than four accepted (cause 3) a trip begins, and below that the thermal
state moves between NORMAL, WARN and THROTTLE. POWER_OVER for 65,536 frames begins a trip with cause 2: TRIP, the ledger entry, what was on its way to the
record FIFO written off, calibrations, retirements and assays abandoned, streams stopped, channel 47 dark. HOLD_REQ is held; in cold hold it is a further
cause only. Cold hold follows when everything not kept is dark. The right key below 90 °C asks for the release, and HOLD_RELEASED leaves the hold with a
power request for each domain of the role. A read of LDG_DATA answers the word at LDG_ADDR, which moves on. (R489, R491, R493, R494, R497, R500, R501, R516, R517.) -/
def Obligations.ThermalTripsAndHold : Prop :=
  (∀ s : State, s.dev.up = true → s.dev.flag Reg.PWR_STATUS_POWER_OVER = true → 65536 ≤ s.dev.pw.overFrames → s.dev.pw.trip = none →
      Answers .powerOverTrip s fun t =>
        t.dev.thermState = 3 ∧ t.dev.get Reg.PWR_THERM_STATUS_CAUSE = 2 ∧ t.dev.pins = { s.dev.pins with trip := true }
        ∧ t.dev.pw = { s.dev.pw with trip := some ⟨s.dev.fn, 2, (s.dev.ldgEntry 1 (s.dev.tripPayload 2)).1, 0⟩, release := false, ramp := [], req := [] }
        ∧ t.dev.ledger = (s.dev.ldgEntry 1 (s.dev.tripPayload 2)).2.ledger
        ∧ t.dev.chState 47 = (if s.dev.chState 47 = 0 then 0 else 6) ∧ (∀ n : Nat, n < 47 → t.dev.chState n = s.dev.chState n)
        ∧ t.dev.flt = { s.dev.flt with retiring := [], assays := [] } ∧ t.dev.get Reg.MEM_RETIRE_OP_BUSY = 0
        ∧ t.dev.rcd.asm = [] ∧ t.dev.rcd.ready = [] ∧ (∀ n : Nat, n < 48 → ∀ k ∈ (t.dev.chan n).caps, k.stage = 2)
        ∧ (∀ a ∈ s.dev.rcd.asm ++ s.dev.rcd.ready, (t.dev.lostKey a.chan a.fn (a.typ == 2)).isSome = true)
        ∧ (∀ k : Nat, k < 4 → t.dev.get (Reg.TRG_STREAM_CFG_ENABLE k) = 0 ∧ t.dev.eff (Reg.TRG_STREAM_CFG_ENABLE k) = 0)
        ∧ (∀ n : Nat, n < 48 → t.dev.get (Reg.CH_STATUS_CAL_ACTIVE n) = 0 ∧ t.dev.get (Reg.CH_TDC_STATUS_LIN_ACTIVE n) = 0)
        ∧ t.dev.get Reg.CH_CAL_STATUS_ROT_ACTIVE = 0 ∧ t.dev.get Reg.CH_CAL_STATUS_CUR_QUAD = 15
        ∧ (∀ l : Nat, l < 48 → t.dev.get (Reg.LN_STATUS_ASSAY_ACTIVE l) = 0)
        ∧ t = { s with dev := { talked s.dev t.dev with
            force := t.dev.force, ledger := t.dev.ledger, acq := t.dev.acq, rcd := t.dev.rcd, flt := t.dev.flt, pins := t.dev.pins, pw := t.dev.pw } })
    ∧ (∀ s : State, ¬ (s.dev.up = true ∧ s.dev.flag Reg.PWR_STATUS_POWER_OVER = true ∧ 65536 ≤ s.dev.pw.overFrames ∧ s.dev.pw.trip = none) →
      exec .powerOverTrip s = .next s)
    ∧ (∀ (cs : List Nat) (s : State), s.dev.up = true → cs.length = 16 → s.dev.fi % 64 ≠ 0 →
      exec (.sensorGateEnd cs) s = .next { s with dev := { s.dev with pw := { s.dev.pw with gate := some (cs.map (min 65535)) } } })
    ∧ (∀ (cs : List Nat) (s : State), s.dev.up = true → cs.length = 16 → s.dev.fi % 64 = 0 →
      (let temp (k : Nat) : Int := 400 + (((s.dev.senSlope k : Nat) : Int) * ((s.dev.senN0 k : Nat) - (min 65535 (cs.getD k 0) : Nat))).fdiv 65536
       let new : Dev := { s.dev with pw := { s.dev.pw with gate := none, counts := cs.map (min 65535) } }
       let bad (k : Nat) : Bool := bitOf (s.dev.get Reg.PWR_SENSOR_FLAGS_BAD) k
       let n : Nat := ((List.range 16).filter fun k => !bad k && !new.rejects k).length
       Answers (.sensorGateEnd cs) s fun t =>
        t.dev.pw.gate = none ∧ t.dev.pw.counts = cs.map (min 65535) ∧ t.dev.get Reg.PWR_THERM_STATUS_ACCEPTED = n
        ∧ (∀ k : Nat, k < 16 → bitOf (t.dev.get Reg.PWR_SENSOR_FLAGS_REJECTED) k = (!bad k && new.rejects k))
        ∧ (∀ k : Nat, k < 16 → (temp k < -960 ∨ 2400 < temp k) → new.rejects k = true)
        ∧ (∀ k : Nat, k < 16 → bad k = false → new.rejects k = true →
            bitOf (t.dev.get Reg.PWR_SENSOR_FLAGS_BAD) k = decide (4 ≤ getT 0 k s.dev.pw.rejects + 1))
        ∧ (∀ k : Nat, k < 16 → bad k = false → new.rejects k = false → temp k ≤ t.dev.tj)
        ∧ (0 < n → t.dev.get Reg.PWR_THERM_STATUS_HOT_SENSOR < 16 ∧ t.dev.tj = temp (t.dev.get Reg.PWR_THERM_STATUS_HOT_SENSOR)
            ∧ bad (t.dev.get Reg.PWR_THERM_STATUS_HOT_SENSOR) = false ∧ new.rejects (t.dev.get Reg.PWR_THERM_STATUS_HOT_SENSOR) = false)
        ∧ (n = 0 → t.dev.tj = s.dev.tj)
        ∧ (0 < n → 1920 ≤ t.dev.tj → s.dev.pw.trip = none → t.dev.thermState = 3 ∧ t.dev.get Reg.PWR_THERM_STATUS_CAUSE = 1)
        ∧ (n < 4 → (n = 0 ∨ t.dev.tj < 1920) → s.dev.pw.trip = none → t.dev.thermState = 3 ∧ t.dev.get Reg.PWR_THERM_STATUS_CAUSE = 3)
        ∧ (4 ≤ n → t.dev.tj < 1920 → s.dev.thermState < 3 →
            t.dev.thermState = if s.dev.throttleAt ≤ t.dev.tj ∧ s.dev.thermState ≠ 2 then 2
              else if s.dev.warnAt ≤ t.dev.tj ∧ s.dev.thermState = 0 then 1 else if t.dev.tj < 1440 then 0 else s.dev.thermState)
        ∧ t.dev.tm = s.dev.tm ∧ t.dev.hm = s.dev.hm ∧ t.fuses = s.fuses ∧ t.ecc = s.ecc ∧ t.pending = s.pending))
    ∧ (∀ (tr : Trip) (s : State), s.dev.up = true → s.dev.thermState = 3 → s.dev.pw.trip = some tr → tr.fn + 48 ≤ s.dev.fn →
      (∀ n : Nat, n < 48 → s.dev.chState n = 0 ∨ s.dev.chState n = 6) →
      (∀ q : Nat, q < 12 → s.dev.keptQuad q = true ∨ s.dev.get (Reg.PWR_DOM_LQ q) = 0) → (∀ m : Nat, m < 4 → s.dev.get (Reg.PWR_DOM_MD m) = 0) →
      Answers .coldHoldEntry s fun t =>
        t.dev.thermState = 4 ∧ t.dev.pw = { s.dev.pw with trip := some { tr with holdFn := s.dev.fn } }
        ∧ t = { s with dev := { talked s.dev t.dev with pw := t.dev.pw } } ∧ RegsKeep [Reg.PWR_THERM_STATUS_STATE.key] s.dev t.dev)
    ∧ (∀ s : State, s.dev.thermState ≠ 3 → exec .coldHoldEntry s = .next s)
    ∧ (∀ (src : Source) (s : State), Passes s.dev src 0xA054 → (s.dev.thermState = 4 → s.dev.pw.trip ≠ none) →
      Answers (.holdReqWrite src) s fun t =>
        t.dev.get Reg.PWR_HOLD_HOLD_REQ = 1
        ∧ (s.dev.thermState ≠ 4 → RegsKeepAll [Reg.PWR_HOLD_HOLD_REQ.key] s.dev t.dev)
        ∧ t = { s with dev := talked s.dev t.dev } ∧ RegsKeep [Reg.PWR_HOLD_HOLD_REQ.key] s.dev t.dev)
    ∧ (∀ (src : Source) (s : State), Passes s.dev src 0xA054 → s.dev.thermState = 4 → s.dev.pw.trip = none →
      Answers (.holdReqWrite src) s fun t =>
        t.dev.get Reg.PWR_HOLD_HOLD_REQ = 1 ∧ t.dev.thermState = 3 ∧ t.dev.get Reg.PWR_THERM_STATUS_CAUSE = 4 ∧ t.dev.pins.trip = true
        ∧ (t.dev.pw.trip.map fun x => x.cause) = some 4 ∧ t.fuses = s.fuses ∧ t.ecc = s.ecc ∧ t.pending = s.pending)
    ∧ (∀ (src : Source) (key : Word) (tr : Trip) (s : State), Passes s.dev src 0xA050 → s.dev.pw.trip = some tr →
      Answers (.pwrReleaseWrite src key) s fun t =>
        (let r : Nat := if s.dev.thermState ≠ 4 ∨ key.toNat ≠ tr.seq % 2 ^ 32 then 2 else if 1440 ≤ s.dev.tj then 1 else 0
         t.dev.get Reg.PWR_HOLD_RELEASE_RESULT = r ∧ t.dev.pw = { s.dev.pw with release := if r = 0 then true else s.dev.pw.release }
         ∧ (r ≠ 0 → t.dev.ledger = s.dev.ledger ∧ RegsKeepAll [Reg.PWR_HOLD_RELEASE_RESULT.key] s.dev t.dev))
        ∧ t = { s with dev := { talked s.dev t.dev with ledger := t.dev.ledger, pw := t.dev.pw } }
        ∧ RegsKeep [Reg.PWR_HOLD_RELEASE_RESULT.key, Reg.LDG_STATUS_NEXT_SLOT.key, Reg.LDG_STATUS_WRITE_ERR.key] s.dev t.dev)
    ∧ (∀ (src : Source) (key : Word) (s : State), Passes s.dev src 0xA050 → s.dev.pw.trip = none →
      Answers (.pwrReleaseWrite src key) s fun t =>
        t.dev.get Reg.PWR_HOLD_RELEASE_RESULT = 2 ∧ t = { s with dev := { s.dev with regs := t.dev.regs } }
        ∧ RegsKeepAll [Reg.PWR_HOLD_RELEASE_RESULT.key] s.dev t.dev)
    ∧ (∀ s : State, s.dev.up = true → s.dev.thermState = 4 → s.dev.pw.release = true →
      Answers .holdReleased s fun t =>
        t.dev.thermState = 0 ∧ t.dev.pins = { s.dev.pins with trip := false } ∧ t.dev.get Reg.PWR_HOLD_HOLD_REQ = 0
        ∧ (∀ n : Nat, n < 48 → t.dev.chState n = if s.dev.chState n = 6 then 0 else s.dev.chState n)
        ∧ (∀ m : Nat, m < 4 → s.dev.mdEn m = true → ∃ c ∈ t.dev.pw.req, c % 64 = 60 + m)
        ∧ (∀ q : Nat, q < 12 → s.dev.lqWanted q = true → ∃ c ∈ t.dev.pw.req, c % 64 = 48 + q)
        ∧ (∀ n : Nat, n < 48 → (s.dev.role = .frontEnd ∧ s.dev.chEn n = true ∨ s.dev.lends n = true) → ∃ c ∈ t.dev.pw.req, c % 64 = n)
        ∧ t.dev.pw = { s.dev.pw with
            trip := none, release := false, resume := s.dev.role == .frontEnd, req := t.dev.pw.req
            throttle := s.dev.pw.throttle && s.dev.flag Reg.PWR_STATUS_POWER_OVER
            ramp := if s.dev.role = .frontEnd ∧ s.dev.acq.fgFn = none then (List.range 48).filter s.dev.chEn else s.dev.pw.ramp }
        ∧ t = { s with dev := { s.dev with
            regs := t.dev.regs, pins := t.dev.pins, pw := t.dev.pw, acq := { s.dev.acq with fstats := t.dev.acq.fstats } } }
        ∧ (s.dev.role = .frontEnd → t.dev.acq.fstats = s.dev.acq.fstats)
        ∧ RegsKeepAll ([Reg.PWR_THERM_STATUS_STATE.key, Reg.PWR_HOLD_HOLD_REQ.key] ++ (List.range 48).map fun n => (Reg.PWR_CH_STATE n).key) s.dev t.dev)
    ∧ (∀ s : State, (s.dev.thermState ≠ 4 ∨ s.dev.pw.release = false) → exec .holdReleased s = .next s)
    ∧ ∀ s : State, (s.dev.up = true ∨ s.dev.boot = .held) →
      Answers .ldgDataRead s fun t =>
        t.dev.get Reg.LDG_DATA_DATA = s.dev.ldgWord (s.dev.get Reg.LDG_ADDR_WORD) % 2 ^ 32
        ∧ t.dev.get Reg.LDG_ADDR_WORD = (s.dev.get Reg.LDG_ADDR_WORD + 1) % 4096
        ∧ t = { s with dev := { s.dev with regs := t.dev.regs } } ∧ RegsKeepAll [Reg.LDG_DATA_DATA.key, Reg.LDG_ADDR_WORD.key] s.dev t.dev

/-! ### The frame boundary -/

/-- A frame boundary of a running device completes: the frame that ends is closed, steps 1 and 2 open the next, held actions run in step 4 and waiting writes
and commands in step 5, the settings then stand for the frame, and lanes and rings open for it; antifuses and the queue of commands stay, and the count of
executed commands begins anew. A device that is not running has none. The frame that opens without a coarse step is the next one of the local clock, with the
excess left over the multiple of 1,000 ns, and ends at the first reference cycle that reaches the next multiple. A held action stays before its target, runs up
to GRACE frames after it and is refused later; the actions go in the order received, none at a coarse step. Of two writes of one register the later stands.
At most four domains begin powering. (R23, R25, R46, R69, R71, R479, R549.) -/
def Obligations.FrameBoundaries : Prop :=
  (∀ (inp : FrameInput) (s : State), s.dev.up = false → exec (.frameBoundary inp) s = .next s)
    ∧ (∀ (inp : FrameInput) (s : State), s.dev.up = true →
      (let r := closeFrame s.fuses inp (s.ecc, s.dev)
       let a := r.2.2.stepsOneTwo inp r.1
       let fires := (a.heldDue a.fi a.tm.stepped).filter fun c => cmdOp c == 3
       let b := a.xcalBoundary (a.writtenAt a.fi a.tm.stepped) (inp.noMajority.contains 2)
       let x := stepFive s.fuses (stepFour s.fuses (r.2.1, { b with pw := { b.pw with shown := Dev.shownPower s.fuses r.2.1 b } }))
       let e := ((({ x.2 with pw := { x.2.pw with shown := [] } } : Dev).acquisition fires).lanesOpen.hubOpen.hkBoundary)
       Answers (.frameBoundary inp) s fun t =>
         t = { s with ecc := x.1, dev := ({ e with mg := { e.mg with execN := 0 } } : Dev).fullService.firstEvents } ∧ t.dev.mg.execN = 0))
    ∧ (∀ (inp : FrameInput) (u : Int) (d : Dev),
      d.stepsOneTwo inp u = (((((inp.voters.foldl (fun d v => d.voterFix v.addr v.bit v.copy v.second) (d.openFrame u)).powerMeasure inp.vinMv
        inp.power).clockStates).refineBoundary 0).refineBoundary 1).refinedStatus)
    ∧ (∀ (d : Dev) (u : Int), d.tm.stepPend = none →
      (let c := d.tm.clk
       let x : Int := (c.exc : Int) + 262144 * c.cyc + c.u - 65536000
       0 ≤ x → x < 65536000 →
       (d.openFrame u).fn = d.fn + 1 ∧ (d.openFrame u).fi = (d.fi + 1) % 2 ^ 32 ∧ (d.openFrame u).tm.clk.fs < 1000000
       ∧ ((d.openFrame u).tm.clk.exc : Int) = x ∧ (d.openFrame u).tm.clk.cyc = frameCycles x u ∧ (d.openFrame u).tm.clk.u = u
       ∧ (d.openFrame u).acq.base = d.acq.base + 10 * (c.cyc : Int)
       ∧ (d.openFrame u).regs = d.regs ∧ (d.openFrame u).lanes = d.lanes ∧ (d.openFrame u).rcd = d.rcd ∧ (d.openFrame u).tm.held = d.tm.held))
    ∧ (∀ e u : Int, e + u < 65536000 →
      65536000 ≤ e + u + 262144 * (frameCycles e u : Int) ∧ e + u + 262144 * ((frameCycles e u : Int) - 1) < 65536000)
    ∧ (∀ (f : Fuses) (x : EccDev) (c : Cmd), 0 < fiDiff (cmdTarget c) x.2.fi → runAction f x c = x)
    ∧ (∀ (f : Fuses) (x : EccDev) (c : Cmd), (x.2.get Reg.TIM_HG_CTRL_GRACE : Int) < -fiDiff (cmdTarget c) x.2.fi →
      runAction f x c = (x.1, (x.2.setHeldActions (x.2.tm.held.erase c)).refuseAction c 2))
    ∧ (∀ (f : Fuses) (x : EccDev) (c : Cmd), fiDiff (cmdTarget c) x.2.fi ≤ 0 → -fiDiff (cmdTarget c) x.2.fi ≤ (x.2.get Reg.TIM_HG_CTRL_GRACE : Int) →
      (let late := (-fiDiff (cmdTarget c) x.2.fi).toNat
       let d := x.2.setHeldActions (x.2.tm.held.erase c)
       let y := runCmd f Dev.settle c late (x.1, if late = 0 then d else d.addWrap Reg.TIM_HG_STATS_LATE_EXEC 1)
       runAction f x c = (y.1, y.2.settle)))
    ∧ (∀ (f : Fuses) (x : EccDev), x.2.tm.stepped = true → stepFour f x = x)
    ∧ (∀ (f : Fuses) (x : EccDev), x.2.tm.stepped = false →
      (let r := x.2.tm.held.foldl (runAction f) (x.1, { x.2 with queue := [] })
       stepFour f x = (r.1, { r.2 with queue := x.2.queue ++ r.2.queue })))
    ∧ (∀ (f : Fuses) (ecc : List (Nat × Nat)) (a b : Source) (v w : Word) (d : Dev),
      (let x := stepFive f (ecc, { d with queue := [.reg a 0x1018 v, .reg b 0x1018 w] })
       x.2.eff Reg.TIM_SERVO_KP_KP = w.toNat % 65536 ∧ x.2.queue = [] ∧ x.1 = ecc ∧ x.2 = { d with queue := [], regs := x.2.regs, force := x.2.force }
       ∧ RegsKeepAll [Reg.TIM_SERVO_KP_KP.key] d x.2))
    ∧ ∀ d : Dev, (d.startPower.pw.startFn.filter fun p => !d.pw.startFn.contains p).length ≤ 4
end

