-- ==== Sys2Proof/Laws/Exec.lean ====
section
/-! SUPPORT. What the shapes of a meaning can do, each said once: a proof about a command cites these and unfolds only the change of
the device the shape carries. Then the canonical form of the sparse tables. -/
namespace Sys2Proof.Machine

/-! ### The shapes of a meaning -/

@[simp] theorem onDev_next (f : Dev → Dev) (s t : State) : onDev f s = .next t ↔ t = { s with dev := f s.dev } := by
  simp [onDev, eq_comm]

@[simp] theorem onUnit_next (n i : Nat) (f : Dev → Dev) (s t : State) :
    onUnit n i f s = .next t ↔ i < n ∧ t = { s with dev := f s.dev } := by
  unfold onUnit; split <;> simp_all

@[simp] theorem onUnit_fault (n i : Nat) (f : Dev → Dev) (s : State) (e : Fault) :
    onUnit n i f s = .fault e ↔ n ≤ i ∧ e = .noSuchUnit := by
  unfold onUnit; split <;> simp_all [onDev, eq_comm]

@[simp] theorem onEcc_next (f : List (Nat × Nat) → Dev → List (Nat × Nat) × Dev) (s t : State) :
    onEcc f s = .next t ↔ t = { s with ecc := (f s.ecc s.dev).1, dev := (f s.ecc s.dev).2 } := by
  simp [onEcc, eq_comm]

@[simp] theorem whenD_true (f : Dev → Dev) (d : Dev) : whenD true f d = f d := rfl
@[simp] theorem whenD_false (f : Dev → Dev) (d : Dev) : whenD false f d = d := rfl

/-- A gated register write does one of three things (R532, R554): nothing where the device takes no writes of the source, its effect where the
source may write the address, and a count of the denial otherwise. -/
theorem Dev.gated_cases (d : Dev) (s : Source) (a : Nat) (f : Dev → Dev) :
    (d.open? s a = false ∧ d.gated s a f = d)
      ∨ (d.open? s a = true ∧ d.mayWrite s a = true ∧ d.gated s a f = f d)
      ∨ (d.open? s a = true ∧ d.mayWrite s a = false ∧ d.gated s a f = d.deny s (groupOf a)) := by
  unfold Dev.gated; cases ho : d.open? s a <;> cases hm : d.mayWrite s a <;> simp

@[simp] theorem onRing_next (r : Nat) (f : Dev → Dev) (s t : State) :
    onRing r f s = .next t ↔ r < 4096 ∧ t = { s with dev := f s.dev } := onUnit_next 4096 r f s t

/-! ### The queue -/

theorem step_cons {s : State} {c : Instr} {rest : List Instr} (h : s.pending = c :: rest) :
    step s = exec c { s with pending := rest } := by
  simp [step, h]

theorem step_nil {s : State} (h : s.pending = []) : step s = .next s := by
  simp [step, h]

/-! ### Canonical tables -/

/-- The canonical form, said of a head and its tail. -/
theorem wfZ_cons (p : Nat × Nat) (t : List (Nat × Nat)) :
    wfZ (p :: t) = true ↔ p.2 ≠ 0 ∧ (∀ q ∈ t.head?, p.1 < q.1) ∧ wfZ t = true := by
  cases t <;> simp [wfZ, and_assoc]

/-- Every key of a canonical table's tail lies above the head's. -/
theorem wfZ_lt {p : Nat × Nat} {t : List (Nat × Nat)} (h : wfZ (p :: t) = true) : ∀ q ∈ t, p.1 < q.1 := by
  induction t generalizing p with
  | nil => simp
  | cons r t ih =>
    obtain ⟨-, h1, h2⟩ := (wfZ_cons _ _).1 h
    intro q hq
    rcases List.mem_cons.1 hq with rfl | hq
    · exact h1 _ rfl
    · exact Nat.lt_trans (h1 r rfl) (ih h2 q hq)

/-- A part of a canonical table is canonical. -/
theorem wfZ_filter {t : List (Nat × Nat)} (f : Nat × Nat → Bool) (h : wfZ t = true) : wfZ (t.filter f) = true := by
  induction t with
  | nil => simpa using h
  | cons p t ih =>
    have hlt := wfZ_lt h
    obtain ⟨h0, -, h2⟩ := (wfZ_cons _ _).1 h
    rw [List.filter_cons]
    split
    · exact (wfZ_cons _ _).2 ⟨h0, fun q hq => hlt q (List.mem_of_mem_filter (List.mem_of_mem_head? hq)), ih h2⟩
    · exact ih h2

theorem wfZ_delT {t : List (Nat × Nat)} (k : Nat) (h : wfZ t = true) : wfZ (delT k t) = true := wfZ_filter _ h

/-- The first key of a table after a write is the written one or the old first. -/
theorem putT_head (k v : Nat) (t : List (Nat × Nat)) :
    ∀ q ∈ (putT k v t).head?, q.1 = k ∨ ∃ r ∈ t.head?, q.1 = r.1 := by
  cases t with
  | nil => simp [putT]
  | cons p t =>
    simp only [putT]
    split
    · simp
    · split <;> simp

theorem wfZ_putT {t : List (Nat × Nat)} (k v : Nat) (hv : v ≠ 0) (h : wfZ t = true) : wfZ (putT k v t) = true := by
  induction t with
  | nil => simpa [putT, wfZ] using hv
  | cons p t ih =>
    obtain ⟨h0, h1, h2⟩ := (wfZ_cons _ _).1 h
    simp only [putT]
    split
    · rename_i hk; exact (wfZ_cons _ _).2 ⟨hv, by simpa using hk, h⟩
    · split
      · subst k; exact (wfZ_cons _ _).2 ⟨hv, h1, h2⟩
      · refine (wfZ_cons _ _).2 ⟨h0, fun q hq => ?_, ih h2⟩
        rcases putT_head k v t q hq with e | ⟨r, hr, e⟩
        · show p.1 < q.1; omega
        · show p.1 < q.1; rw [e]; exact h1 r hr

/-- Every write of a table whose unlisted keys read 0 keeps its canonical form. -/
theorem wfZ_putZ {t : List (Nat × Nat)} (k v : Nat) (h : wfZ t = true) : wfZ (putZ k v t) = true := by
  unfold putZ; split
  · exact wfZ_delT k h
  · rename_i hv; exact wfZ_putT k v hv h

/-! ### Stored words -/

/-- A read of a stored word keeps the stored-bit errors canonical (R414, R416). -/
theorem memRead_canonical {ecc : List (Nat × Nat)} (d : Dev) (idx count : Nat) (h : wfZ ecc = true) :
    wfZ (memRead ecc d idx count).ecc = true := by
  simp only [memRead]; split
  · exact h
  · exact wfZ_putZ _ _ h
  · exact h

/-- So does a read by the scrubber, a copy or a capture (R417, R426). -/
theorem scrubWord_canonical {ecc : List (Nat × Nat)} (d : Dev) (idx : Nat) (h : wfZ ecc = true) :
    wfZ (scrubWord ecc d idx).ecc = true := by
  simp only [scrubWord]; split <;> exact memRead_canonical _ _ _ h

/-- And a step of the scrubber with its upsets. -/
theorem scrubRead_canonical {ecc : List (Nat × Nat)} (d : Dev) (m flips : Nat) (h : wfZ ecc = true) :
    wfZ (scrubRead m flips ecc d).1 = true := by
  simp only [scrubRead]; split
  · exact scrubWord_canonical _ _ (wfZ_putZ _ _ h)
  · exact h

end Sys2Proof.Machine
end

