-- ==== Sys2Proof/Laws/State.lean ====
section
/-! SUPPORT. One lemma per field per update of the device, so that no proof unfolds a record update. -/
namespace Sys2Proof.Machine

/-! ### Tables -/

@[simp] theorem getT_putT_same {α : Type} (x : α) (k : Nat) (v : α) (t : List (Nat × α)) : getT x k (putT k v t) = v := by
  induction t with
  | nil => simp [putT, getT]
  | cons p t ih =>
    obtain ⟨j, w⟩ := p
    simp only [putT]
    split
    · simp [getT]
    · split
      · simp [getT]
      · rename_i h; simp only [getT]; rw [if_neg (fun e => h e.symm)]; exact ih

theorem getT_putT_ne {α : Type} (x : α) {k i : Nat} (h : i ≠ k) (v : α) (t : List (Nat × α)) :
    getT x i (putT k v t) = getT x i t := by
  induction t with
  | nil => simp only [putT, getT]; rw [if_neg (fun e => h e.symm)]
  | cons p t ih =>
    obtain ⟨j, w⟩ := p
    simp only [putT]
    split
    · simp only [getT]; rw [if_neg (fun e => h e.symm)]
    · split
      · subst k; simp only [getT]; rw [if_neg (fun e => h e.symm), if_neg (fun e => h e.symm)]
      · simp only [getT, ih]

/-- What a table reads after one entry is written. -/
theorem getT_putT {α : Type} (x : α) (k i : Nat) (v : α) (t : List (Nat × α)) :
    getT x i (putT k v t) = if i = k then v else getT x i t := by
  by_cases h : i = k
  · subst h; simp
  · rw [if_neg h, getT_putT_ne x h]

/-! ### The derived operations -/

@[simp] theorem Dev.setB_eq (d : Dev) (f : Fld) (b : Bool) : d.setB f b = d.set f (b2n b) := rfl
@[simp] theorem Dev.setI_eq (d : Dev) (f : Fld) (i : Int) : d.setI f i = d.set f (ofSigned f.width i) := rfl
@[simp] theorem Dev.setBoth_eq (d : Dev) (f : Fld) (v : Nat) : d.setBoth f v = (d.set f v).setForce f v := rfl
@[simp] theorem Dev.setBothI_eq (d : Dev) (f : Fld) (i : Int) :
    d.setBothI f i = (d.set f (ofSigned f.width i)).setForce f (ofSigned f.width i) := rfl
@[simp] theorem Dev.addWrap_eq (d : Dev) (f : Fld) (k : Nat) : d.addWrap f k = d.set f (d.get f + k) := rfl
@[simp] theorem Dev.addSat_eq (d : Dev) (f : Fld) (k : Nat) :
    d.addSat f k = d.set f (min (d.get f + k) (2 ^ f.width - 1)) := rfl
@[simp] theorem Dev.updChan_eq (d : Dev) (n : Nat) (g : Chan → Chan) : d.updChan n g = d.setChan n (g (d.chan n)) := rfl
@[simp] theorem Dev.updLane_eq (d : Dev) (l : Nat) (g : Lane → Lane) : d.updLane l g = d.setLane l (g (d.lane l)) := rfl
@[simp] theorem Dev.updDom_eq (d : Dev) (k : Nat) (g : Dom → Dom) : d.updDom k g = d.setDom k (g (d.dom k)) := rfl
@[simp] theorem Dev.updRing_eq (d : Dev) (r : Nat) (g : Ring → Ring) : d.updRing r g = d.setRing r (g (d.ring r)) := rfl

/-! ### Fields of the register store -/

/-- A field reads what was last set in it, cut to its width; every other field reads as before. -/
theorem Dev.get_set (d : Dev) (f g : Fld) (v : Nat) :
    (d.set f v).get g = if g.key = f.key then v % 2 ^ f.width else d.get g := by
  simp only [Dev.get, Dev.set, getT_putT]

@[simp] theorem Dev.get_set_same (d : Dev) (f : Fld) (v : Nat) : (d.set f v).get f = v % 2 ^ f.width := by
  simp [Dev.get_set]

theorem Dev.get_set_ne (d : Dev) {f g : Fld} (h : g.key ≠ f.key) (v : Nat) : (d.set f v).get g = d.get g := by
  rw [Dev.get_set, if_neg h]

@[simp] theorem Dev.get_setForce (d : Dev) (f : Fld) (v : Nat) (g : Fld) : (d.setForce f v).get g = d.get g := rfl
@[simp] theorem Dev.get_setChan (d : Dev) (n : Nat) (c : Chan) (g : Fld) : (d.setChan n c).get g = d.get g := rfl
@[simp] theorem Dev.get_setSlot (d : Dev) (n : Nat) (c : Slot) (g : Fld) : (d.setSlot n c).get g = d.get g := rfl
@[simp] theorem Dev.get_setLane (d : Dev) (n : Nat) (c : Lane) (g : Fld) : (d.setLane n c).get g = d.get g := rfl
@[simp] theorem Dev.get_setDom (d : Dev) (n : Nat) (c : Dom) (g : Fld) : (d.setDom n c).get g = d.get g := rfl
@[simp] theorem Dev.get_setRing (d : Dev) (n : Nat) (c : Ring) (g : Fld) : (d.setRing n c).get g = d.get g := rfl
@[simp] theorem Dev.get_setXing (d : Dev) (n : Nat) (c : Cross) (g : Fld) : (d.setXing n c).get g = d.get g := rfl
@[simp] theorem Dev.get_emit (d : Dev) (o : Out) (g : Fld) : (d.emit o).get g = d.get g := rfl
@[simp] theorem Dev.get_enqueue (d : Dev) (q : Queued) (g : Fld) : (d.enqueue q).get g = d.get g := rfl

/-! ### One field of the device after one update -/

@[simp] theorem Dev.set_free (d : Dev) (f : Fld) (v : Nat) : (d.set f v).free = d.free := rfl
@[simp] theorem Dev.set_out (d : Dev) (f : Fld) (v : Nat) : (d.set f v).out = d.out := rfl
@[simp] theorem Dev.set_boot (d : Dev) (f : Fld) (v : Nat) : (d.set f v).boot = d.boot := rfl
@[simp] theorem Dev.set_force (d : Dev) (f : Fld) (v : Nat) : (d.set f v).force = d.force := rfl
@[simp] theorem Dev.set_queue (d : Dev) (f : Fld) (v : Nat) : (d.set f v).queue = d.queue := rfl
@[simp] theorem Dev.set_pins (d : Dev) (f : Fld) (v : Nat) : (d.set f v).pins = d.pins := rfl
@[simp] theorem Dev.set_hm (d : Dev) (f : Fld) (v : Nat) : (d.set f v).hm = d.hm := rfl
@[simp] theorem Dev.set_ledger (d : Dev) (f : Fld) (v : Nat) : (d.set f v).ledger = d.ledger := rfl
@[simp] theorem Dev.set_ldgWeak (d : Dev) (f : Fld) (v : Nat) : (d.set f v).ldgWeak = d.ldgWeak := rfl
@[simp] theorem Dev.set_tm (d : Dev) (f : Fld) (v : Nat) : (d.set f v).tm = d.tm := rfl
@[simp] theorem Dev.set_acq (d : Dev) (f : Fld) (v : Nat) : (d.set f v).acq = d.acq := rfl
@[simp] theorem Dev.set_rcd (d : Dev) (f : Fld) (v : Nat) : (d.set f v).rcd = d.rcd := rfl
@[simp] theorem Dev.set_lanes (d : Dev) (f : Fld) (v : Nat) : (d.set f v).lanes = d.lanes := rfl
@[simp] theorem Dev.set_mg (d : Dev) (f : Fld) (v : Nat) : (d.set f v).mg = d.mg := rfl
@[simp] theorem Dev.set_mrg (d : Dev) (f : Fld) (v : Nat) : (d.set f v).mrg = d.mrg := rfl
@[simp] theorem Dev.set_hr (d : Dev) (f : Fld) (v : Nat) : (d.set f v).hr = d.hr := rfl
@[simp] theorem Dev.set_cross (d : Dev) (f : Fld) (v : Nat) : (d.set f v).cross = d.cross := rfl
@[simp] theorem Dev.set_flt (d : Dev) (f : Fld) (v : Nat) : (d.set f v).flt = d.flt := rfl
@[simp] theorem Dev.set_hk (d : Dev) (f : Fld) (v : Nat) : (d.set f v).hk = d.hk := rfl
@[simp] theorem Dev.set_pw (d : Dev) (f : Fld) (v : Nat) : (d.set f v).pw = d.pw := rfl
@[simp] theorem Dev.setForce_free (d : Dev) (f : Fld) (v : Nat) : (d.setForce f v).free = d.free := rfl
@[simp] theorem Dev.setForce_out (d : Dev) (f : Fld) (v : Nat) : (d.setForce f v).out = d.out := rfl
@[simp] theorem Dev.setForce_boot (d : Dev) (f : Fld) (v : Nat) : (d.setForce f v).boot = d.boot := rfl
@[simp] theorem Dev.setForce_regs (d : Dev) (f : Fld) (v : Nat) : (d.setForce f v).regs = d.regs := rfl
@[simp] theorem Dev.setForce_queue (d : Dev) (f : Fld) (v : Nat) : (d.setForce f v).queue = d.queue := rfl
@[simp] theorem Dev.setForce_pins (d : Dev) (f : Fld) (v : Nat) : (d.setForce f v).pins = d.pins := rfl
@[simp] theorem Dev.setForce_hm (d : Dev) (f : Fld) (v : Nat) : (d.setForce f v).hm = d.hm := rfl
@[simp] theorem Dev.setForce_ledger (d : Dev) (f : Fld) (v : Nat) : (d.setForce f v).ledger = d.ledger := rfl
@[simp] theorem Dev.setForce_ldgWeak (d : Dev) (f : Fld) (v : Nat) : (d.setForce f v).ldgWeak = d.ldgWeak := rfl
@[simp] theorem Dev.setForce_tm (d : Dev) (f : Fld) (v : Nat) : (d.setForce f v).tm = d.tm := rfl
@[simp] theorem Dev.setForce_acq (d : Dev) (f : Fld) (v : Nat) : (d.setForce f v).acq = d.acq := rfl
@[simp] theorem Dev.setForce_rcd (d : Dev) (f : Fld) (v : Nat) : (d.setForce f v).rcd = d.rcd := rfl
@[simp] theorem Dev.setForce_lanes (d : Dev) (f : Fld) (v : Nat) : (d.setForce f v).lanes = d.lanes := rfl
@[simp] theorem Dev.setForce_mg (d : Dev) (f : Fld) (v : Nat) : (d.setForce f v).mg = d.mg := rfl
@[simp] theorem Dev.setForce_mrg (d : Dev) (f : Fld) (v : Nat) : (d.setForce f v).mrg = d.mrg := rfl
@[simp] theorem Dev.setForce_hr (d : Dev) (f : Fld) (v : Nat) : (d.setForce f v).hr = d.hr := rfl
@[simp] theorem Dev.setForce_cross (d : Dev) (f : Fld) (v : Nat) : (d.setForce f v).cross = d.cross := rfl
@[simp] theorem Dev.setForce_flt (d : Dev) (f : Fld) (v : Nat) : (d.setForce f v).flt = d.flt := rfl
@[simp] theorem Dev.setForce_hk (d : Dev) (f : Fld) (v : Nat) : (d.setForce f v).hk = d.hk := rfl
@[simp] theorem Dev.setForce_pw (d : Dev) (f : Fld) (v : Nat) : (d.setForce f v).pw = d.pw := rfl
@[simp] theorem Dev.setChan_free (d : Dev) (n : Nat) (c : Chan) : (d.setChan n c).free = d.free := rfl
@[simp] theorem Dev.setChan_out (d : Dev) (n : Nat) (c : Chan) : (d.setChan n c).out = d.out := rfl
@[simp] theorem Dev.setChan_boot (d : Dev) (n : Nat) (c : Chan) : (d.setChan n c).boot = d.boot := rfl
@[simp] theorem Dev.setChan_regs (d : Dev) (n : Nat) (c : Chan) : (d.setChan n c).regs = d.regs := rfl
@[simp] theorem Dev.setChan_force (d : Dev) (n : Nat) (c : Chan) : (d.setChan n c).force = d.force := rfl
@[simp] theorem Dev.setChan_queue (d : Dev) (n : Nat) (c : Chan) : (d.setChan n c).queue = d.queue := rfl
@[simp] theorem Dev.setChan_pins (d : Dev) (n : Nat) (c : Chan) : (d.setChan n c).pins = d.pins := rfl
@[simp] theorem Dev.setChan_hm (d : Dev) (n : Nat) (c : Chan) : (d.setChan n c).hm = d.hm := rfl
@[simp] theorem Dev.setChan_ledger (d : Dev) (n : Nat) (c : Chan) : (d.setChan n c).ledger = d.ledger := rfl
@[simp] theorem Dev.setChan_ldgWeak (d : Dev) (n : Nat) (c : Chan) : (d.setChan n c).ldgWeak = d.ldgWeak := rfl
@[simp] theorem Dev.setChan_tm (d : Dev) (n : Nat) (c : Chan) : (d.setChan n c).tm = d.tm := rfl
@[simp] theorem Dev.setChan_rcd (d : Dev) (n : Nat) (c : Chan) : (d.setChan n c).rcd = d.rcd := rfl
@[simp] theorem Dev.setChan_lanes (d : Dev) (n : Nat) (c : Chan) : (d.setChan n c).lanes = d.lanes := rfl
@[simp] theorem Dev.setChan_mg (d : Dev) (n : Nat) (c : Chan) : (d.setChan n c).mg = d.mg := rfl
@[simp] theorem Dev.setChan_mrg (d : Dev) (n : Nat) (c : Chan) : (d.setChan n c).mrg = d.mrg := rfl
@[simp] theorem Dev.setChan_hr (d : Dev) (n : Nat) (c : Chan) : (d.setChan n c).hr = d.hr := rfl
@[simp] theorem Dev.setChan_cross (d : Dev) (n : Nat) (c : Chan) : (d.setChan n c).cross = d.cross := rfl
@[simp] theorem Dev.setChan_flt (d : Dev) (n : Nat) (c : Chan) : (d.setChan n c).flt = d.flt := rfl
@[simp] theorem Dev.setChan_hk (d : Dev) (n : Nat) (c : Chan) : (d.setChan n c).hk = d.hk := rfl
@[simp] theorem Dev.setChan_pw (d : Dev) (n : Nat) (c : Chan) : (d.setChan n c).pw = d.pw := rfl
@[simp] theorem Dev.setSlot_free (d : Dev) (n : Nat) (c : Slot) : (d.setSlot n c).free = d.free := rfl
@[simp] theorem Dev.setSlot_out (d : Dev) (n : Nat) (c : Slot) : (d.setSlot n c).out = d.out := rfl
@[simp] theorem Dev.setSlot_boot (d : Dev) (n : Nat) (c : Slot) : (d.setSlot n c).boot = d.boot := rfl
@[simp] theorem Dev.setSlot_regs (d : Dev) (n : Nat) (c : Slot) : (d.setSlot n c).regs = d.regs := rfl
@[simp] theorem Dev.setSlot_force (d : Dev) (n : Nat) (c : Slot) : (d.setSlot n c).force = d.force := rfl
@[simp] theorem Dev.setSlot_queue (d : Dev) (n : Nat) (c : Slot) : (d.setSlot n c).queue = d.queue := rfl
@[simp] theorem Dev.setSlot_pins (d : Dev) (n : Nat) (c : Slot) : (d.setSlot n c).pins = d.pins := rfl
@[simp] theorem Dev.setSlot_hm (d : Dev) (n : Nat) (c : Slot) : (d.setSlot n c).hm = d.hm := rfl
@[simp] theorem Dev.setSlot_ledger (d : Dev) (n : Nat) (c : Slot) : (d.setSlot n c).ledger = d.ledger := rfl
@[simp] theorem Dev.setSlot_ldgWeak (d : Dev) (n : Nat) (c : Slot) : (d.setSlot n c).ldgWeak = d.ldgWeak := rfl
@[simp] theorem Dev.setSlot_tm (d : Dev) (n : Nat) (c : Slot) : (d.setSlot n c).tm = d.tm := rfl
@[simp] theorem Dev.setSlot_rcd (d : Dev) (n : Nat) (c : Slot) : (d.setSlot n c).rcd = d.rcd := rfl
@[simp] theorem Dev.setSlot_lanes (d : Dev) (n : Nat) (c : Slot) : (d.setSlot n c).lanes = d.lanes := rfl
@[simp] theorem Dev.setSlot_mg (d : Dev) (n : Nat) (c : Slot) : (d.setSlot n c).mg = d.mg := rfl
@[simp] theorem Dev.setSlot_mrg (d : Dev) (n : Nat) (c : Slot) : (d.setSlot n c).mrg = d.mrg := rfl
@[simp] theorem Dev.setSlot_hr (d : Dev) (n : Nat) (c : Slot) : (d.setSlot n c).hr = d.hr := rfl
@[simp] theorem Dev.setSlot_cross (d : Dev) (n : Nat) (c : Slot) : (d.setSlot n c).cross = d.cross := rfl
@[simp] theorem Dev.setSlot_flt (d : Dev) (n : Nat) (c : Slot) : (d.setSlot n c).flt = d.flt := rfl
@[simp] theorem Dev.setSlot_hk (d : Dev) (n : Nat) (c : Slot) : (d.setSlot n c).hk = d.hk := rfl
@[simp] theorem Dev.setSlot_pw (d : Dev) (n : Nat) (c : Slot) : (d.setSlot n c).pw = d.pw := rfl
@[simp] theorem Dev.setLane_free (d : Dev) (n : Nat) (c : Lane) : (d.setLane n c).free = d.free := rfl
@[simp] theorem Dev.setLane_out (d : Dev) (n : Nat) (c : Lane) : (d.setLane n c).out = d.out := rfl
@[simp] theorem Dev.setLane_boot (d : Dev) (n : Nat) (c : Lane) : (d.setLane n c).boot = d.boot := rfl
@[simp] theorem Dev.setLane_regs (d : Dev) (n : Nat) (c : Lane) : (d.setLane n c).regs = d.regs := rfl
@[simp] theorem Dev.setLane_force (d : Dev) (n : Nat) (c : Lane) : (d.setLane n c).force = d.force := rfl
@[simp] theorem Dev.setLane_queue (d : Dev) (n : Nat) (c : Lane) : (d.setLane n c).queue = d.queue := rfl
@[simp] theorem Dev.setLane_pins (d : Dev) (n : Nat) (c : Lane) : (d.setLane n c).pins = d.pins := rfl
@[simp] theorem Dev.setLane_hm (d : Dev) (n : Nat) (c : Lane) : (d.setLane n c).hm = d.hm := rfl
@[simp] theorem Dev.setLane_ledger (d : Dev) (n : Nat) (c : Lane) : (d.setLane n c).ledger = d.ledger := rfl
@[simp] theorem Dev.setLane_ldgWeak (d : Dev) (n : Nat) (c : Lane) : (d.setLane n c).ldgWeak = d.ldgWeak := rfl
@[simp] theorem Dev.setLane_tm (d : Dev) (n : Nat) (c : Lane) : (d.setLane n c).tm = d.tm := rfl
@[simp] theorem Dev.setLane_acq (d : Dev) (n : Nat) (c : Lane) : (d.setLane n c).acq = d.acq := rfl
@[simp] theorem Dev.setLane_rcd (d : Dev) (n : Nat) (c : Lane) : (d.setLane n c).rcd = d.rcd := rfl
@[simp] theorem Dev.setLane_mg (d : Dev) (n : Nat) (c : Lane) : (d.setLane n c).mg = d.mg := rfl
@[simp] theorem Dev.setLane_mrg (d : Dev) (n : Nat) (c : Lane) : (d.setLane n c).mrg = d.mrg := rfl
@[simp] theorem Dev.setLane_hr (d : Dev) (n : Nat) (c : Lane) : (d.setLane n c).hr = d.hr := rfl
@[simp] theorem Dev.setLane_cross (d : Dev) (n : Nat) (c : Lane) : (d.setLane n c).cross = d.cross := rfl
@[simp] theorem Dev.setLane_flt (d : Dev) (n : Nat) (c : Lane) : (d.setLane n c).flt = d.flt := rfl
@[simp] theorem Dev.setLane_hk (d : Dev) (n : Nat) (c : Lane) : (d.setLane n c).hk = d.hk := rfl
@[simp] theorem Dev.setLane_pw (d : Dev) (n : Nat) (c : Lane) : (d.setLane n c).pw = d.pw := rfl
@[simp] theorem Dev.setDom_free (d : Dev) (n : Nat) (c : Dom) : (d.setDom n c).free = d.free := rfl
@[simp] theorem Dev.setDom_out (d : Dev) (n : Nat) (c : Dom) : (d.setDom n c).out = d.out := rfl
@[simp] theorem Dev.setDom_boot (d : Dev) (n : Nat) (c : Dom) : (d.setDom n c).boot = d.boot := rfl
@[simp] theorem Dev.setDom_regs (d : Dev) (n : Nat) (c : Dom) : (d.setDom n c).regs = d.regs := rfl
@[simp] theorem Dev.setDom_force (d : Dev) (n : Nat) (c : Dom) : (d.setDom n c).force = d.force := rfl
@[simp] theorem Dev.setDom_queue (d : Dev) (n : Nat) (c : Dom) : (d.setDom n c).queue = d.queue := rfl
@[simp] theorem Dev.setDom_pins (d : Dev) (n : Nat) (c : Dom) : (d.setDom n c).pins = d.pins := rfl
@[simp] theorem Dev.setDom_hm (d : Dev) (n : Nat) (c : Dom) : (d.setDom n c).hm = d.hm := rfl
@[simp] theorem Dev.setDom_ledger (d : Dev) (n : Nat) (c : Dom) : (d.setDom n c).ledger = d.ledger := rfl
@[simp] theorem Dev.setDom_ldgWeak (d : Dev) (n : Nat) (c : Dom) : (d.setDom n c).ldgWeak = d.ldgWeak := rfl
@[simp] theorem Dev.setDom_acq (d : Dev) (n : Nat) (c : Dom) : (d.setDom n c).acq = d.acq := rfl
@[simp] theorem Dev.setDom_rcd (d : Dev) (n : Nat) (c : Dom) : (d.setDom n c).rcd = d.rcd := rfl
@[simp] theorem Dev.setDom_lanes (d : Dev) (n : Nat) (c : Dom) : (d.setDom n c).lanes = d.lanes := rfl
@[simp] theorem Dev.setDom_mg (d : Dev) (n : Nat) (c : Dom) : (d.setDom n c).mg = d.mg := rfl
@[simp] theorem Dev.setDom_mrg (d : Dev) (n : Nat) (c : Dom) : (d.setDom n c).mrg = d.mrg := rfl
@[simp] theorem Dev.setDom_hr (d : Dev) (n : Nat) (c : Dom) : (d.setDom n c).hr = d.hr := rfl
@[simp] theorem Dev.setDom_cross (d : Dev) (n : Nat) (c : Dom) : (d.setDom n c).cross = d.cross := rfl
@[simp] theorem Dev.setDom_flt (d : Dev) (n : Nat) (c : Dom) : (d.setDom n c).flt = d.flt := rfl
@[simp] theorem Dev.setDom_hk (d : Dev) (n : Nat) (c : Dom) : (d.setDom n c).hk = d.hk := rfl
@[simp] theorem Dev.setDom_pw (d : Dev) (n : Nat) (c : Dom) : (d.setDom n c).pw = d.pw := rfl
@[simp] theorem Dev.setRing_free (d : Dev) (n : Nat) (c : Ring) : (d.setRing n c).free = d.free := rfl
@[simp] theorem Dev.setRing_out (d : Dev) (n : Nat) (c : Ring) : (d.setRing n c).out = d.out := rfl
@[simp] theorem Dev.setRing_boot (d : Dev) (n : Nat) (c : Ring) : (d.setRing n c).boot = d.boot := rfl
@[simp] theorem Dev.setRing_regs (d : Dev) (n : Nat) (c : Ring) : (d.setRing n c).regs = d.regs := rfl
@[simp] theorem Dev.setRing_force (d : Dev) (n : Nat) (c : Ring) : (d.setRing n c).force = d.force := rfl
@[simp] theorem Dev.setRing_queue (d : Dev) (n : Nat) (c : Ring) : (d.setRing n c).queue = d.queue := rfl
@[simp] theorem Dev.setRing_pins (d : Dev) (n : Nat) (c : Ring) : (d.setRing n c).pins = d.pins := rfl
@[simp] theorem Dev.setRing_hm (d : Dev) (n : Nat) (c : Ring) : (d.setRing n c).hm = d.hm := rfl
@[simp] theorem Dev.setRing_ledger (d : Dev) (n : Nat) (c : Ring) : (d.setRing n c).ledger = d.ledger := rfl
@[simp] theorem Dev.setRing_ldgWeak (d : Dev) (n : Nat) (c : Ring) : (d.setRing n c).ldgWeak = d.ldgWeak := rfl
@[simp] theorem Dev.setRing_tm (d : Dev) (n : Nat) (c : Ring) : (d.setRing n c).tm = d.tm := rfl
@[simp] theorem Dev.setRing_acq (d : Dev) (n : Nat) (c : Ring) : (d.setRing n c).acq = d.acq := rfl
@[simp] theorem Dev.setRing_rcd (d : Dev) (n : Nat) (c : Ring) : (d.setRing n c).rcd = d.rcd := rfl
@[simp] theorem Dev.setRing_lanes (d : Dev) (n : Nat) (c : Ring) : (d.setRing n c).lanes = d.lanes := rfl
@[simp] theorem Dev.setRing_mg (d : Dev) (n : Nat) (c : Ring) : (d.setRing n c).mg = d.mg := rfl
@[simp] theorem Dev.setRing_mrg (d : Dev) (n : Nat) (c : Ring) : (d.setRing n c).mrg = d.mrg := rfl
@[simp] theorem Dev.setRing_cross (d : Dev) (n : Nat) (c : Ring) : (d.setRing n c).cross = d.cross := rfl
@[simp] theorem Dev.setRing_flt (d : Dev) (n : Nat) (c : Ring) : (d.setRing n c).flt = d.flt := rfl
@[simp] theorem Dev.setRing_hk (d : Dev) (n : Nat) (c : Ring) : (d.setRing n c).hk = d.hk := rfl
@[simp] theorem Dev.setRing_pw (d : Dev) (n : Nat) (c : Ring) : (d.setRing n c).pw = d.pw := rfl
@[simp] theorem Dev.setXing_free (d : Dev) (n : Nat) (c : Cross) : (d.setXing n c).free = d.free := rfl
@[simp] theorem Dev.setXing_out (d : Dev) (n : Nat) (c : Cross) : (d.setXing n c).out = d.out := rfl
@[simp] theorem Dev.setXing_boot (d : Dev) (n : Nat) (c : Cross) : (d.setXing n c).boot = d.boot := rfl
@[simp] theorem Dev.setXing_regs (d : Dev) (n : Nat) (c : Cross) : (d.setXing n c).regs = d.regs := rfl
@[simp] theorem Dev.setXing_force (d : Dev) (n : Nat) (c : Cross) : (d.setXing n c).force = d.force := rfl
@[simp] theorem Dev.setXing_queue (d : Dev) (n : Nat) (c : Cross) : (d.setXing n c).queue = d.queue := rfl
@[simp] theorem Dev.setXing_pins (d : Dev) (n : Nat) (c : Cross) : (d.setXing n c).pins = d.pins := rfl
@[simp] theorem Dev.setXing_hm (d : Dev) (n : Nat) (c : Cross) : (d.setXing n c).hm = d.hm := rfl
@[simp] theorem Dev.setXing_ledger (d : Dev) (n : Nat) (c : Cross) : (d.setXing n c).ledger = d.ledger := rfl
@[simp] theorem Dev.setXing_ldgWeak (d : Dev) (n : Nat) (c : Cross) : (d.setXing n c).ldgWeak = d.ldgWeak := rfl
@[simp] theorem Dev.setXing_tm (d : Dev) (n : Nat) (c : Cross) : (d.setXing n c).tm = d.tm := rfl
@[simp] theorem Dev.setXing_acq (d : Dev) (n : Nat) (c : Cross) : (d.setXing n c).acq = d.acq := rfl
@[simp] theorem Dev.setXing_rcd (d : Dev) (n : Nat) (c : Cross) : (d.setXing n c).rcd = d.rcd := rfl
@[simp] theorem Dev.setXing_lanes (d : Dev) (n : Nat) (c : Cross) : (d.setXing n c).lanes = d.lanes := rfl
@[simp] theorem Dev.setXing_mg (d : Dev) (n : Nat) (c : Cross) : (d.setXing n c).mg = d.mg := rfl
@[simp] theorem Dev.setXing_mrg (d : Dev) (n : Nat) (c : Cross) : (d.setXing n c).mrg = d.mrg := rfl
@[simp] theorem Dev.setXing_hr (d : Dev) (n : Nat) (c : Cross) : (d.setXing n c).hr = d.hr := rfl
@[simp] theorem Dev.setXing_flt (d : Dev) (n : Nat) (c : Cross) : (d.setXing n c).flt = d.flt := rfl
@[simp] theorem Dev.setXing_hk (d : Dev) (n : Nat) (c : Cross) : (d.setXing n c).hk = d.hk := rfl
@[simp] theorem Dev.setXing_pw (d : Dev) (n : Nat) (c : Cross) : (d.setXing n c).pw = d.pw := rfl
@[simp] theorem Dev.emit_free (d : Dev) (o : Out) : (d.emit o).free = d.free := rfl
@[simp] theorem Dev.emit_boot (d : Dev) (o : Out) : (d.emit o).boot = d.boot := rfl
@[simp] theorem Dev.emit_regs (d : Dev) (o : Out) : (d.emit o).regs = d.regs := rfl
@[simp] theorem Dev.emit_force (d : Dev) (o : Out) : (d.emit o).force = d.force := rfl
@[simp] theorem Dev.emit_queue (d : Dev) (o : Out) : (d.emit o).queue = d.queue := rfl
@[simp] theorem Dev.emit_pins (d : Dev) (o : Out) : (d.emit o).pins = d.pins := rfl
@[simp] theorem Dev.emit_hm (d : Dev) (o : Out) : (d.emit o).hm = d.hm := rfl
@[simp] theorem Dev.emit_ledger (d : Dev) (o : Out) : (d.emit o).ledger = d.ledger := rfl
@[simp] theorem Dev.emit_ldgWeak (d : Dev) (o : Out) : (d.emit o).ldgWeak = d.ldgWeak := rfl
@[simp] theorem Dev.emit_tm (d : Dev) (o : Out) : (d.emit o).tm = d.tm := rfl
@[simp] theorem Dev.emit_acq (d : Dev) (o : Out) : (d.emit o).acq = d.acq := rfl
@[simp] theorem Dev.emit_rcd (d : Dev) (o : Out) : (d.emit o).rcd = d.rcd := rfl
@[simp] theorem Dev.emit_lanes (d : Dev) (o : Out) : (d.emit o).lanes = d.lanes := rfl
@[simp] theorem Dev.emit_mg (d : Dev) (o : Out) : (d.emit o).mg = d.mg := rfl
@[simp] theorem Dev.emit_mrg (d : Dev) (o : Out) : (d.emit o).mrg = d.mrg := rfl
@[simp] theorem Dev.emit_hr (d : Dev) (o : Out) : (d.emit o).hr = d.hr := rfl
@[simp] theorem Dev.emit_cross (d : Dev) (o : Out) : (d.emit o).cross = d.cross := rfl
@[simp] theorem Dev.emit_flt (d : Dev) (o : Out) : (d.emit o).flt = d.flt := rfl
@[simp] theorem Dev.emit_hk (d : Dev) (o : Out) : (d.emit o).hk = d.hk := rfl
@[simp] theorem Dev.emit_pw (d : Dev) (o : Out) : (d.emit o).pw = d.pw := rfl
@[simp] theorem Dev.enqueue_free (d : Dev) (q : Queued) : (d.enqueue q).free = d.free := rfl
@[simp] theorem Dev.enqueue_out (d : Dev) (q : Queued) : (d.enqueue q).out = d.out := rfl
@[simp] theorem Dev.enqueue_boot (d : Dev) (q : Queued) : (d.enqueue q).boot = d.boot := rfl
@[simp] theorem Dev.enqueue_regs (d : Dev) (q : Queued) : (d.enqueue q).regs = d.regs := rfl
@[simp] theorem Dev.enqueue_force (d : Dev) (q : Queued) : (d.enqueue q).force = d.force := rfl
@[simp] theorem Dev.enqueue_pins (d : Dev) (q : Queued) : (d.enqueue q).pins = d.pins := rfl
@[simp] theorem Dev.enqueue_hm (d : Dev) (q : Queued) : (d.enqueue q).hm = d.hm := rfl
@[simp] theorem Dev.enqueue_ledger (d : Dev) (q : Queued) : (d.enqueue q).ledger = d.ledger := rfl
@[simp] theorem Dev.enqueue_ldgWeak (d : Dev) (q : Queued) : (d.enqueue q).ldgWeak = d.ldgWeak := rfl
@[simp] theorem Dev.enqueue_tm (d : Dev) (q : Queued) : (d.enqueue q).tm = d.tm := rfl
@[simp] theorem Dev.enqueue_acq (d : Dev) (q : Queued) : (d.enqueue q).acq = d.acq := rfl
@[simp] theorem Dev.enqueue_rcd (d : Dev) (q : Queued) : (d.enqueue q).rcd = d.rcd := rfl
@[simp] theorem Dev.enqueue_lanes (d : Dev) (q : Queued) : (d.enqueue q).lanes = d.lanes := rfl
@[simp] theorem Dev.enqueue_mg (d : Dev) (q : Queued) : (d.enqueue q).mg = d.mg := rfl
@[simp] theorem Dev.enqueue_mrg (d : Dev) (q : Queued) : (d.enqueue q).mrg = d.mrg := rfl
@[simp] theorem Dev.enqueue_hr (d : Dev) (q : Queued) : (d.enqueue q).hr = d.hr := rfl
@[simp] theorem Dev.enqueue_cross (d : Dev) (q : Queued) : (d.enqueue q).cross = d.cross := rfl
@[simp] theorem Dev.enqueue_flt (d : Dev) (q : Queued) : (d.enqueue q).flt = d.flt := rfl
@[simp] theorem Dev.enqueue_hk (d : Dev) (q : Queued) : (d.enqueue q).hk = d.hk := rfl
@[simp] theorem Dev.enqueue_pw (d : Dev) (q : Queued) : (d.enqueue q).pw = d.pw := rfl

/-! ### Units after one update -/

@[simp] theorem Dev.chan_setChan_same (d : Dev) (n : Nat) (c : Chan) : (d.setChan n c).chan n = c := by
  simp [Dev.chan, Dev.setChan]
theorem Dev.chan_setChan (d : Dev) (n m : Nat) (c : Chan) : (d.setChan n c).chan m = if m = n then c else d.chan m := by
  simp only [Dev.chan, Dev.setChan, getT_putT]
@[simp] theorem Dev.chan_set (d : Dev) (f : Fld) (v : Nat) (m : Nat) : (d.set f v).chan m = d.chan m := rfl
@[simp] theorem Dev.chan_setForce (d : Dev) (f : Fld) (v : Nat) (m : Nat) : (d.setForce f v).chan m = d.chan m := rfl
@[simp] theorem Dev.chan_setSlot (d : Dev) (n : Nat) (c : Slot) (m : Nat) : (d.setSlot n c).chan m = d.chan m := rfl
@[simp] theorem Dev.chan_setLane (d : Dev) (n : Nat) (c : Lane) (m : Nat) : (d.setLane n c).chan m = d.chan m := rfl
@[simp] theorem Dev.chan_setDom (d : Dev) (n : Nat) (c : Dom) (m : Nat) : (d.setDom n c).chan m = d.chan m := rfl
@[simp] theorem Dev.chan_setRing (d : Dev) (n : Nat) (c : Ring) (m : Nat) : (d.setRing n c).chan m = d.chan m := rfl
@[simp] theorem Dev.chan_setXing (d : Dev) (n : Nat) (c : Cross) (m : Nat) : (d.setXing n c).chan m = d.chan m := rfl
@[simp] theorem Dev.chan_emit (d : Dev) (o : Out) (m : Nat) : (d.emit o).chan m = d.chan m := rfl
@[simp] theorem Dev.chan_enqueue (d : Dev) (q : Queued) (m : Nat) : (d.enqueue q).chan m = d.chan m := rfl
@[simp] theorem Dev.slot_setSlot_same (d : Dev) (n : Nat) (c : Slot) : (d.setSlot n c).slot n = c := by
  simp [Dev.slot, Dev.setSlot]
theorem Dev.slot_setSlot (d : Dev) (n m : Nat) (c : Slot) : (d.setSlot n c).slot m = if m = n then c else d.slot m := by
  simp only [Dev.slot, Dev.setSlot, getT_putT]
@[simp] theorem Dev.slot_set (d : Dev) (f : Fld) (v : Nat) (m : Nat) : (d.set f v).slot m = d.slot m := rfl
@[simp] theorem Dev.slot_setForce (d : Dev) (f : Fld) (v : Nat) (m : Nat) : (d.setForce f v).slot m = d.slot m := rfl
@[simp] theorem Dev.slot_setChan (d : Dev) (n : Nat) (c : Chan) (m : Nat) : (d.setChan n c).slot m = d.slot m := rfl
@[simp] theorem Dev.slot_setLane (d : Dev) (n : Nat) (c : Lane) (m : Nat) : (d.setLane n c).slot m = d.slot m := rfl
@[simp] theorem Dev.slot_setDom (d : Dev) (n : Nat) (c : Dom) (m : Nat) : (d.setDom n c).slot m = d.slot m := rfl
@[simp] theorem Dev.slot_setRing (d : Dev) (n : Nat) (c : Ring) (m : Nat) : (d.setRing n c).slot m = d.slot m := rfl
@[simp] theorem Dev.slot_setXing (d : Dev) (n : Nat) (c : Cross) (m : Nat) : (d.setXing n c).slot m = d.slot m := rfl
@[simp] theorem Dev.slot_emit (d : Dev) (o : Out) (m : Nat) : (d.emit o).slot m = d.slot m := rfl
@[simp] theorem Dev.slot_enqueue (d : Dev) (q : Queued) (m : Nat) : (d.enqueue q).slot m = d.slot m := rfl
@[simp] theorem Dev.lane_setLane_same (d : Dev) (n : Nat) (c : Lane) : (d.setLane n c).lane n = c := by
  simp [Dev.lane, Dev.setLane]
theorem Dev.lane_setLane (d : Dev) (n m : Nat) (c : Lane) : (d.setLane n c).lane m = if m = n then c else d.lane m := by
  simp only [Dev.lane, Dev.setLane, getT_putT]
@[simp] theorem Dev.lane_set (d : Dev) (f : Fld) (v : Nat) (m : Nat) : (d.set f v).lane m = d.lane m := rfl
@[simp] theorem Dev.lane_setForce (d : Dev) (f : Fld) (v : Nat) (m : Nat) : (d.setForce f v).lane m = d.lane m := rfl
@[simp] theorem Dev.lane_setChan (d : Dev) (n : Nat) (c : Chan) (m : Nat) : (d.setChan n c).lane m = d.lane m := rfl
@[simp] theorem Dev.lane_setSlot (d : Dev) (n : Nat) (c : Slot) (m : Nat) : (d.setSlot n c).lane m = d.lane m := rfl
@[simp] theorem Dev.lane_setDom (d : Dev) (n : Nat) (c : Dom) (m : Nat) : (d.setDom n c).lane m = d.lane m := rfl
@[simp] theorem Dev.lane_setRing (d : Dev) (n : Nat) (c : Ring) (m : Nat) : (d.setRing n c).lane m = d.lane m := rfl
@[simp] theorem Dev.lane_setXing (d : Dev) (n : Nat) (c : Cross) (m : Nat) : (d.setXing n c).lane m = d.lane m := rfl
@[simp] theorem Dev.lane_emit (d : Dev) (o : Out) (m : Nat) : (d.emit o).lane m = d.lane m := rfl
@[simp] theorem Dev.lane_enqueue (d : Dev) (q : Queued) (m : Nat) : (d.enqueue q).lane m = d.lane m := rfl
@[simp] theorem Dev.dom_setDom_same (d : Dev) (n : Nat) (c : Dom) : (d.setDom n c).dom n = c := by
  simp [Dev.dom, Dev.setDom]
theorem Dev.dom_setDom (d : Dev) (n m : Nat) (c : Dom) : (d.setDom n c).dom m = if m = n then c else d.dom m := by
  simp only [Dev.dom, Dev.setDom, getT_putT]
@[simp] theorem Dev.dom_set (d : Dev) (f : Fld) (v : Nat) (m : Nat) : (d.set f v).dom m = d.dom m := rfl
@[simp] theorem Dev.dom_setForce (d : Dev) (f : Fld) (v : Nat) (m : Nat) : (d.setForce f v).dom m = d.dom m := rfl
@[simp] theorem Dev.dom_setChan (d : Dev) (n : Nat) (c : Chan) (m : Nat) : (d.setChan n c).dom m = d.dom m := rfl
@[simp] theorem Dev.dom_setSlot (d : Dev) (n : Nat) (c : Slot) (m : Nat) : (d.setSlot n c).dom m = d.dom m := rfl
@[simp] theorem Dev.dom_setLane (d : Dev) (n : Nat) (c : Lane) (m : Nat) : (d.setLane n c).dom m = d.dom m := rfl
@[simp] theorem Dev.dom_setRing (d : Dev) (n : Nat) (c : Ring) (m : Nat) : (d.setRing n c).dom m = d.dom m := rfl
@[simp] theorem Dev.dom_setXing (d : Dev) (n : Nat) (c : Cross) (m : Nat) : (d.setXing n c).dom m = d.dom m := rfl
@[simp] theorem Dev.dom_emit (d : Dev) (o : Out) (m : Nat) : (d.emit o).dom m = d.dom m := rfl
@[simp] theorem Dev.dom_enqueue (d : Dev) (q : Queued) (m : Nat) : (d.enqueue q).dom m = d.dom m := rfl
@[simp] theorem Dev.ring_setRing_same (d : Dev) (n : Nat) (c : Ring) : (d.setRing n c).ring n = c := by
  simp [Dev.ring, Dev.setRing]
theorem Dev.ring_setRing (d : Dev) (n m : Nat) (c : Ring) : (d.setRing n c).ring m = if m = n then c else d.ring m := by
  simp only [Dev.ring, Dev.setRing, getT_putT]
@[simp] theorem Dev.ring_set (d : Dev) (f : Fld) (v : Nat) (m : Nat) : (d.set f v).ring m = d.ring m := rfl
@[simp] theorem Dev.ring_setForce (d : Dev) (f : Fld) (v : Nat) (m : Nat) : (d.setForce f v).ring m = d.ring m := rfl
@[simp] theorem Dev.ring_setChan (d : Dev) (n : Nat) (c : Chan) (m : Nat) : (d.setChan n c).ring m = d.ring m := rfl
@[simp] theorem Dev.ring_setSlot (d : Dev) (n : Nat) (c : Slot) (m : Nat) : (d.setSlot n c).ring m = d.ring m := rfl
@[simp] theorem Dev.ring_setLane (d : Dev) (n : Nat) (c : Lane) (m : Nat) : (d.setLane n c).ring m = d.ring m := rfl
@[simp] theorem Dev.ring_setDom (d : Dev) (n : Nat) (c : Dom) (m : Nat) : (d.setDom n c).ring m = d.ring m := rfl
@[simp] theorem Dev.ring_setXing (d : Dev) (n : Nat) (c : Cross) (m : Nat) : (d.setXing n c).ring m = d.ring m := rfl
@[simp] theorem Dev.ring_emit (d : Dev) (o : Out) (m : Nat) : (d.emit o).ring m = d.ring m := rfl
@[simp] theorem Dev.ring_enqueue (d : Dev) (q : Queued) (m : Nat) : (d.enqueue q).ring m = d.ring m := rfl
@[simp] theorem Dev.xing_setXing_same (d : Dev) (n : Nat) (c : Cross) : (d.setXing n c).xing n = c := by
  simp [Dev.xing, Dev.setXing]
theorem Dev.xing_setXing (d : Dev) (n m : Nat) (c : Cross) : (d.setXing n c).xing m = if m = n then c else d.xing m := by
  simp only [Dev.xing, Dev.setXing, getT_putT]
@[simp] theorem Dev.xing_set (d : Dev) (f : Fld) (v : Nat) (m : Nat) : (d.set f v).xing m = d.xing m := rfl
@[simp] theorem Dev.xing_setForce (d : Dev) (f : Fld) (v : Nat) (m : Nat) : (d.setForce f v).xing m = d.xing m := rfl
@[simp] theorem Dev.xing_setChan (d : Dev) (n : Nat) (c : Chan) (m : Nat) : (d.setChan n c).xing m = d.xing m := rfl
@[simp] theorem Dev.xing_setSlot (d : Dev) (n : Nat) (c : Slot) (m : Nat) : (d.setSlot n c).xing m = d.xing m := rfl
@[simp] theorem Dev.xing_setLane (d : Dev) (n : Nat) (c : Lane) (m : Nat) : (d.setLane n c).xing m = d.xing m := rfl
@[simp] theorem Dev.xing_setDom (d : Dev) (n : Nat) (c : Dom) (m : Nat) : (d.setDom n c).xing m = d.xing m := rfl
@[simp] theorem Dev.xing_setRing (d : Dev) (n : Nat) (c : Ring) (m : Nat) : (d.setRing n c).xing m = d.xing m := rfl
@[simp] theorem Dev.xing_emit (d : Dev) (o : Out) (m : Nat) : (d.emit o).xing m = d.xing m := rfl
@[simp] theorem Dev.xing_enqueue (d : Dev) (q : Queued) (m : Nat) : (d.enqueue q).xing m = d.xing m := rfl

end Sys2Proof.Machine
end

