-- ==== Sys2Proof/Laws/Talk.lean ====
section
/-! SUPPORT. What raising an event and queuing a reply can do: `talked` says which parts of the device may change, `RegsKeep []`
that no register but the counts of dropped messages does. -/
namespace Sys2Proof.Machine
open Sys2Proof.Safety

/-- The two halves of what talking leaves alone. -/
def Talks (d t : Dev) : Prop := t = talked d t ∧ RegsKeep [] d t

theorem Talks.refl (d : Dev) : Talks d d := ⟨rfl, fun _ _ _ => rfl⟩

theorem Talks.trans {a b c : Dev} (h : Talks a b) (k : Talks b c) : Talks a c := by
  refine ⟨?_, fun f h1 h2 => (k.2 f h1 h2).trans (h.2 f h1 h2)⟩
  rw [k.1, h.1]; rfl

theorem regsKeep_refl (ks : List Nat) (d : Dev) : RegsKeep ks d d := fun _ _ _ => rfl

theorem regsKeep_trans {ks : List Nat} {a b c : Dev} (h : RegsKeep ks a b) (k : RegsKeep ks b c) : RegsKeep ks a c :=
  fun f h1 h2 => (k f h1 h2).trans (h f h1 h2)

theorem regsKeep_mono {ks ls : List Nat} {a b : Dev} (h : RegsKeep ks a b) (sub : ∀ k ∈ ks, k ∈ ls) : RegsKeep ls a b :=
  fun f h1 h2 => h f (fun m => h1 (sub _ m)) h2

theorem Talks.keep {a b : Dev} (h : Talks a b) (ks : List Nat) : RegsKeep ks a b := regsKeep_mono h.2 (by simp)

/-- A set of a named field keeps every other. -/
theorem regsKeep_set (d : Dev) (f : Fld) (v : Nat) : RegsKeep [f.key] d (d.set f v) := by
  intro g h _
  exact Dev.get_set_ne d (by simpa using h) v

/-- A count of messages set. -/
theorem talks_set {f : Fld} (h : countsTalk f.key) (d : Dev) (v : Nat) : Talks d (d.set f v) :=
  ⟨rfl, fun g _ k => Dev.get_set_ne d (f := f) (g := g) (fun e => k (e ▸ h)) v⟩

theorem talks_evtDropped (d : Dev) (v : Nat) : Talks d (d.set Reg.HR_DROP_STATS_EVT_DROPPED v) := talks_set (Or.inl (Or.inl rfl)) d v
theorem talks_lnDropped (d : Dev) {l : Nat} (h : l < 64) (v : Nat) : Talks d (d.set (Reg.LN_MG_STATS_DROPPED l) v) :=
  talks_set (Or.inr ⟨l, h, Or.inl rfl⟩) d v
theorem talks_lnBusy (d : Dev) {l : Nat} (h : l < 64) (v : Nat) : Talks d (d.set (Reg.LN_MG_STATS_BUSY l) v) :=
  talks_set (Or.inr ⟨l, h, Or.inr (Or.inl rfl)⟩) d v
theorem talks_lnRefused (d : Dev) {l : Nat} (h : l < 64) (v : Nat) : Talks d (d.set (Reg.LN_MG_STATS_REFUSED l) v) :=
  talks_set (Or.inr ⟨l, h, Or.inr (Or.inr rfl)⟩) d v

theorem talks_setRing (d : Dev) (r : Nat) (x : Ring) : Talks d (d.setRing r x) := ⟨rfl, fun _ _ _ => rfl⟩
theorem talks_setLane (d : Dev) (l : Nat) (x : Lane) : Talks d (d.setLane l x) := ⟨rfl, fun _ _ _ => rfl⟩

/-- A ring changed, its pages counted. -/
theorem talks_putRing (d : Dev) (r : Nat) (x : Ring) : Talks d (d.putRing r x) :=
  ((talks_setRing d r x).trans (talks_set (Or.inl (Or.inr (Or.inl rfl))) _ _)).trans (talks_set (Or.inl (Or.inr (Or.inr rfl))) _ _)

/-- The upward lane is an uplink of the role, so a lane the device has. -/
theorem upLane_lt {d : Dev} {l : Nat} (h : d.upLane = some l) : l < 64 := by
  have up : ∀ k, d.role.isUp k = true → k < 64 := by
    intro k hk
    cases r : d.role <;> simp [Role.isUp, Role.uplinks, r] at hk <;> omega
  unfold Dev.upLane at h
  dsimp only at h
  split at h
  · cases h; rename_i c; simp only [Bool.and_eq_true] at c; exact up _ c.1.2
  · split at h
    · cases h; rename_i c; simp only [Bool.and_eq_true] at c; exact up _ c.2
    · have m := List.mem_of_mem_head? (Option.mem_def.mpr h)
      simp only [Dev.maskedUplinks, List.mem_map, List.mem_filter] at m
      obtain ⟨p, ⟨hp, -⟩, rfl⟩ := m
      exact up _ (by simpa [Role.isUp] using (List.mem_zipIdx' hp).2 ▸ List.getElem_mem _)

theorem postUp_talks (d : Dev) (m : Msg) : Talks d (d.postUp m) := by
  unfold Dev.postUp
  split
  · exact ⟨rfl, fun _ _ _ => rfl⟩
  · split
    · exact talks_lnDropped d (upLane_lt ‹_›) _
    · exact Talks.refl d

theorem postLane_talks (d : Dev) (l : Nat) (m : Msg) : Talks d (d.postLane l m) := by
  unfold Dev.postLane Dev.countLane
  split
  · exact talks_setLane d l _
  · split
    · exact talks_lnDropped d (by omega) _
    · exact Talks.refl d

theorem toEventRing_talks (d : Dev) (r : Nat) (ws : List Nat) : Talks d (d.toEventRing r ws) := by
  unfold Dev.toEventRing
  dsimp only
  split
  · split
    · exact talks_putRing d r _
    · exact (talks_setRing d r _).trans (talks_evtDropped _ _)
  · exact talks_evtDropped _ _

/-- Raising an event only talks. -/
theorem raise_talks (d : Dev) (cls code : Nat) (data : List Nat) : Talks d (d.raise cls code data) := by
  unfold Dev.raise
  split
  · exact toEventRing_talks d _ _
  · exact Talks.refl d
  · exact Talks.trans (b := { d with mg := { d.mg with msgSeq := (d.mg.msgSeq + 1) % 2 ^ 32 } }) ⟨rfl, fun _ _ _ => rfl⟩
      (postUp_talks _ _)

theorem raiseOpen_talks (d : Dev) (cls cause : Nat) (data : List Nat) : Talks d (d.raiseOpen cls cause data) :=
  raise_talks d _ _ _

/-- Replying only talks. -/
theorem reply_talks (d : Dev) (c : Cmd) (status : Nat) (data : List Nat) : Talks d (d.reply c status data) := by
  unfold Dev.reply
  dsimp only
  split
  · exact toEventRing_talks d _ _
  · exact postUp_talks d _
  · exact postLane_talks d _ _
  · exact Talks.refl d

theorem notPermitted_talks (d : Dev) (c : Cmd) : Talks d (d.notPermitted c) := by
  have refused (e : Dev) (h : Talks d e) : Talks d (e.countLane Reg.LN_MG_STATS_REFUSED c.port) := by
    unfold Dev.countLane
    split
    · exact h.trans (talks_lnRefused _ (by omega) _)
    · exact h
  unfold Dev.notPermitted
  split
  · exact refused _ (reply_talks d c _ _)
  · exact refused _ (reply_talks d c _ _)
  · exact reply_talks d c _ _

theorem busyAt_talks (d : Dev) (c : Cmd) (retry full : Nat) : Talks d (d.busyAt c retry full) := by
  unfold Dev.busyAt
  dsimp only
  split
  · exact toEventRing_talks d _ _
  · exact Talks.refl d
  · have h := postLane_talks d c.port ⟨2, c.origin, c.ring, c.seq, wordsOf (d.replyDesc c 9 [(d.fi + retry) % 2 ^ 32, full]), 63, 0⟩
    unfold Dev.countLane
    split
    · exact h.trans (talks_lnBusy _ (by omega) _)
    · exact h

/-! ### Per field: what talking leaves alone -/

/-- Two devices with the same fields are the same. -/
theorem dev_eq {a b : Dev} (h : a.free = b.free ∧ a.out = b.out ∧ a.boot = b.boot ∧ a.regs = b.regs ∧ a.force = b.force ∧ a.queue = b.queue ∧ a.pins = b.pins ∧ a.hm = b.hm ∧ a.ledger = b.ledger ∧ a.ldgWeak = b.ldgWeak ∧ a.tm = b.tm ∧ a.acq = b.acq ∧ a.rcd = b.rcd ∧ a.lanes = b.lanes ∧ a.mrg = b.mrg ∧ a.cross = b.cross ∧ a.flt = b.flt ∧ a.hk = b.hk ∧ a.pw = b.pw ∧ a.mg.ownQ = b.mg.ownQ ∧ a.mg.msgSeq = b.mg.msgSeq ∧ a.mg.seen = b.mg.seen ∧ a.mg.execN = b.mg.execN ∧ a.mg.upRot = b.mg.upRot ∧ a.mg.rotPort = b.mg.rotPort ∧ a.mg.attest = b.mg.attest ∧ a.mg.renumUntil = b.mg.renumUntil ∧ a.hr.rings = b.hr.rings ∧ a.hr.ringOp = b.hr.ringOp ∧ a.hr.sweepOut = b.hr.sweepOut ∧ a.hr.lastByte = b.hr.lastByte ∧ a.hr.lines = b.hr.lines ∧ a.hr.reread = b.hr.reread ∧ a.hr.rrRing = b.hr.rrRing ∧ a.hr.outst = b.hr.outst ∧ a.hr.dead = b.hr.dead ∧ a.hr.vecPend = b.hr.vecPend ∧ a.hr.vecLast = b.hr.vecLast ∧ a.hr.msix = b.hr.msix ∧ a.hr.skipEvt = b.hr.skipEvt ∧ a.hr.width = b.hr.width ∧ a.hr.everUp = b.hr.everUp ∧ a.hr.trained = b.hr.trained ∧ a.hr.payload = b.hr.payload ∧ a.hr.readReq = b.hr.readReq ∧ a.hr.bar0 = b.hr.bar0 ∧ a.hr.msixOn = b.hr.msixOn ∧ a.hr.msixMask = b.hr.msixMask ∧ a.hr.msixDue = b.hr.msixDue ∧ a.hr.lossWait = b.hr.lossWait) : a = b := by
  obtain ⟨h0, h1, h2, h3, h4, h5, h6, h7, h8, h9, h10, h11, h12, h13, h14, h15, h16, h17, h18, h19, h20, h21, h22, h23, h24, h25, h26, h27, h28, h29, h30, h31, h32, h33, h34, h35, h36, h37, h38, h39, h40, h41, h42, h43, h44, h45, h46, h47, h48, h49⟩ := h
  have hm : a.mg = b.mg := by
    cases ha : a.mg; cases hb : b.mg; simp_all
  have hh : a.hr = b.hr := by
    cases ha : a.hr; cases hb : b.hr; simp_all
  cases a; cases b; simp_all

@[simp] theorem Dev.raise_free (d : Dev) (cls code : Nat) (data : List Nat) : (d.raise cls code data).free = d.free := by rw [(raise_talks d cls code data).1]; rfl
@[simp] theorem Dev.raise_out (d : Dev) (cls code : Nat) (data : List Nat) : (d.raise cls code data).out = d.out := by rw [(raise_talks d cls code data).1]; rfl
@[simp] theorem Dev.raise_boot (d : Dev) (cls code : Nat) (data : List Nat) : (d.raise cls code data).boot = d.boot := by rw [(raise_talks d cls code data).1]; rfl
@[simp] theorem Dev.raise_force (d : Dev) (cls code : Nat) (data : List Nat) : (d.raise cls code data).force = d.force := by rw [(raise_talks d cls code data).1]; rfl
@[simp] theorem Dev.raise_queue (d : Dev) (cls code : Nat) (data : List Nat) : (d.raise cls code data).queue = d.queue := by rw [(raise_talks d cls code data).1]; rfl
@[simp] theorem Dev.raise_pins (d : Dev) (cls code : Nat) (data : List Nat) : (d.raise cls code data).pins = d.pins := by rw [(raise_talks d cls code data).1]; rfl
@[simp] theorem Dev.raise_hm (d : Dev) (cls code : Nat) (data : List Nat) : (d.raise cls code data).hm = d.hm := by rw [(raise_talks d cls code data).1]; rfl
@[simp] theorem Dev.raise_ledger (d : Dev) (cls code : Nat) (data : List Nat) : (d.raise cls code data).ledger = d.ledger := by rw [(raise_talks d cls code data).1]; rfl
@[simp] theorem Dev.raise_ldgWeak (d : Dev) (cls code : Nat) (data : List Nat) : (d.raise cls code data).ldgWeak = d.ldgWeak := by rw [(raise_talks d cls code data).1]; rfl
@[simp] theorem Dev.raise_tm (d : Dev) (cls code : Nat) (data : List Nat) : (d.raise cls code data).tm = d.tm := by rw [(raise_talks d cls code data).1]; rfl
@[simp] theorem Dev.raise_acq (d : Dev) (cls code : Nat) (data : List Nat) : (d.raise cls code data).acq = d.acq := by rw [(raise_talks d cls code data).1]; rfl
@[simp] theorem Dev.raise_rcd (d : Dev) (cls code : Nat) (data : List Nat) : (d.raise cls code data).rcd = d.rcd := by rw [(raise_talks d cls code data).1]; rfl
@[simp] theorem Dev.raise_mrg (d : Dev) (cls code : Nat) (data : List Nat) : (d.raise cls code data).mrg = d.mrg := by rw [(raise_talks d cls code data).1]; rfl
@[simp] theorem Dev.raise_cross (d : Dev) (cls code : Nat) (data : List Nat) : (d.raise cls code data).cross = d.cross := by rw [(raise_talks d cls code data).1]; rfl
@[simp] theorem Dev.raise_flt (d : Dev) (cls code : Nat) (data : List Nat) : (d.raise cls code data).flt = d.flt := by rw [(raise_talks d cls code data).1]; rfl
@[simp] theorem Dev.raise_hk (d : Dev) (cls code : Nat) (data : List Nat) : (d.raise cls code data).hk = d.hk := by rw [(raise_talks d cls code data).1]; rfl
@[simp] theorem Dev.raise_pw (d : Dev) (cls code : Nat) (data : List Nat) : (d.raise cls code data).pw = d.pw := by rw [(raise_talks d cls code data).1]; rfl
@[simp] theorem Dev.raise_mg_seen (d : Dev) (cls code : Nat) (data : List Nat) : (d.raise cls code data).mg.seen = d.mg.seen := by rw [(raise_talks d cls code data).1]; rfl
@[simp] theorem Dev.raise_mg_execN (d : Dev) (cls code : Nat) (data : List Nat) : (d.raise cls code data).mg.execN = d.mg.execN := by rw [(raise_talks d cls code data).1]; rfl
@[simp] theorem Dev.raise_mg_upRot (d : Dev) (cls code : Nat) (data : List Nat) : (d.raise cls code data).mg.upRot = d.mg.upRot := by rw [(raise_talks d cls code data).1]; rfl
@[simp] theorem Dev.raise_mg_rotPort (d : Dev) (cls code : Nat) (data : List Nat) : (d.raise cls code data).mg.rotPort = d.mg.rotPort := by rw [(raise_talks d cls code data).1]; rfl
@[simp] theorem Dev.raise_mg_attest (d : Dev) (cls code : Nat) (data : List Nat) : (d.raise cls code data).mg.attest = d.mg.attest := by rw [(raise_talks d cls code data).1]; rfl
@[simp] theorem Dev.raise_mg_renumUntil (d : Dev) (cls code : Nat) (data : List Nat) : (d.raise cls code data).mg.renumUntil = d.mg.renumUntil := by rw [(raise_talks d cls code data).1]; rfl
@[simp] theorem Dev.raise_hr_ringOp (d : Dev) (cls code : Nat) (data : List Nat) : (d.raise cls code data).hr.ringOp = d.hr.ringOp := by rw [(raise_talks d cls code data).1]; rfl
@[simp] theorem Dev.raise_hr_sweepOut (d : Dev) (cls code : Nat) (data : List Nat) : (d.raise cls code data).hr.sweepOut = d.hr.sweepOut := by rw [(raise_talks d cls code data).1]; rfl
@[simp] theorem Dev.raise_hr_lastByte (d : Dev) (cls code : Nat) (data : List Nat) : (d.raise cls code data).hr.lastByte = d.hr.lastByte := by rw [(raise_talks d cls code data).1]; rfl
@[simp] theorem Dev.raise_hr_lines (d : Dev) (cls code : Nat) (data : List Nat) : (d.raise cls code data).hr.lines = d.hr.lines := by rw [(raise_talks d cls code data).1]; rfl
@[simp] theorem Dev.raise_hr_reread (d : Dev) (cls code : Nat) (data : List Nat) : (d.raise cls code data).hr.reread = d.hr.reread := by rw [(raise_talks d cls code data).1]; rfl
@[simp] theorem Dev.raise_hr_rrRing (d : Dev) (cls code : Nat) (data : List Nat) : (d.raise cls code data).hr.rrRing = d.hr.rrRing := by rw [(raise_talks d cls code data).1]; rfl
@[simp] theorem Dev.raise_hr_outst (d : Dev) (cls code : Nat) (data : List Nat) : (d.raise cls code data).hr.outst = d.hr.outst := by rw [(raise_talks d cls code data).1]; rfl
@[simp] theorem Dev.raise_hr_dead (d : Dev) (cls code : Nat) (data : List Nat) : (d.raise cls code data).hr.dead = d.hr.dead := by rw [(raise_talks d cls code data).1]; rfl
@[simp] theorem Dev.raise_hr_vecPend (d : Dev) (cls code : Nat) (data : List Nat) : (d.raise cls code data).hr.vecPend = d.hr.vecPend := by rw [(raise_talks d cls code data).1]; rfl
@[simp] theorem Dev.raise_hr_vecLast (d : Dev) (cls code : Nat) (data : List Nat) : (d.raise cls code data).hr.vecLast = d.hr.vecLast := by rw [(raise_talks d cls code data).1]; rfl
@[simp] theorem Dev.raise_hr_msix (d : Dev) (cls code : Nat) (data : List Nat) : (d.raise cls code data).hr.msix = d.hr.msix := by rw [(raise_talks d cls code data).1]; rfl
@[simp] theorem Dev.raise_hr_skipEvt (d : Dev) (cls code : Nat) (data : List Nat) : (d.raise cls code data).hr.skipEvt = d.hr.skipEvt := by rw [(raise_talks d cls code data).1]; rfl
@[simp] theorem Dev.raise_hr_width (d : Dev) (cls code : Nat) (data : List Nat) : (d.raise cls code data).hr.width = d.hr.width := by rw [(raise_talks d cls code data).1]; rfl
@[simp] theorem Dev.raise_hr_everUp (d : Dev) (cls code : Nat) (data : List Nat) : (d.raise cls code data).hr.everUp = d.hr.everUp := by rw [(raise_talks d cls code data).1]; rfl
@[simp] theorem Dev.raise_hr_trained (d : Dev) (cls code : Nat) (data : List Nat) : (d.raise cls code data).hr.trained = d.hr.trained := by rw [(raise_talks d cls code data).1]; rfl
@[simp] theorem Dev.raise_hr_payload (d : Dev) (cls code : Nat) (data : List Nat) : (d.raise cls code data).hr.payload = d.hr.payload := by rw [(raise_talks d cls code data).1]; rfl
@[simp] theorem Dev.raise_hr_readReq (d : Dev) (cls code : Nat) (data : List Nat) : (d.raise cls code data).hr.readReq = d.hr.readReq := by rw [(raise_talks d cls code data).1]; rfl
@[simp] theorem Dev.raise_hr_bar0 (d : Dev) (cls code : Nat) (data : List Nat) : (d.raise cls code data).hr.bar0 = d.hr.bar0 := by rw [(raise_talks d cls code data).1]; rfl
@[simp] theorem Dev.raise_hr_msixOn (d : Dev) (cls code : Nat) (data : List Nat) : (d.raise cls code data).hr.msixOn = d.hr.msixOn := by rw [(raise_talks d cls code data).1]; rfl
@[simp] theorem Dev.raise_hr_msixMask (d : Dev) (cls code : Nat) (data : List Nat) : (d.raise cls code data).hr.msixMask = d.hr.msixMask := by rw [(raise_talks d cls code data).1]; rfl
@[simp] theorem Dev.raise_hr_msixDue (d : Dev) (cls code : Nat) (data : List Nat) : (d.raise cls code data).hr.msixDue = d.hr.msixDue := by rw [(raise_talks d cls code data).1]; rfl
@[simp] theorem Dev.raise_hr_lossWait (d : Dev) (cls code : Nat) (data : List Nat) : (d.raise cls code data).hr.lossWait = d.hr.lossWait := by rw [(raise_talks d cls code data).1]; rfl
@[simp] theorem Dev.raise_get (d : Dev) (cls code : Nat) (data : List Nat) {f : Fld} (hf : ¬ countsTalk f.key) : (d.raise cls code data).get f = d.get f :=
  (raise_talks d cls code data).2 f (by simp) hf
@[simp] theorem Dev.raise_chan (d : Dev) (cls code : Nat) (data : List Nat) (n : Nat) : (d.raise cls code data).chan n = d.chan n := by simp [Dev.chan]
@[simp] theorem Dev.raise_slot (d : Dev) (cls code : Nat) (data : List Nat) (n : Nat) : (d.raise cls code data).slot n = d.slot n := by simp [Dev.slot]
@[simp] theorem Dev.raise_dom (d : Dev) (cls code : Nat) (data : List Nat) (n : Nat) : (d.raise cls code data).dom n = d.dom n := by simp [Dev.dom]
@[simp] theorem Dev.raise_xing (d : Dev) (cls code : Nat) (data : List Nat) (n : Nat) : (d.raise cls code data).xing n = d.xing n := by simp [Dev.xing]
@[simp] theorem Dev.raiseOpen_free (d : Dev) (cls cause : Nat) (data : List Nat) : (d.raiseOpen cls cause data).free = d.free := by rw [(raiseOpen_talks d cls cause data).1]; rfl
@[simp] theorem Dev.raiseOpen_out (d : Dev) (cls cause : Nat) (data : List Nat) : (d.raiseOpen cls cause data).out = d.out := by rw [(raiseOpen_talks d cls cause data).1]; rfl
@[simp] theorem Dev.raiseOpen_boot (d : Dev) (cls cause : Nat) (data : List Nat) : (d.raiseOpen cls cause data).boot = d.boot := by rw [(raiseOpen_talks d cls cause data).1]; rfl
@[simp] theorem Dev.raiseOpen_force (d : Dev) (cls cause : Nat) (data : List Nat) : (d.raiseOpen cls cause data).force = d.force := by rw [(raiseOpen_talks d cls cause data).1]; rfl
@[simp] theorem Dev.raiseOpen_queue (d : Dev) (cls cause : Nat) (data : List Nat) : (d.raiseOpen cls cause data).queue = d.queue := by rw [(raiseOpen_talks d cls cause data).1]; rfl
@[simp] theorem Dev.raiseOpen_pins (d : Dev) (cls cause : Nat) (data : List Nat) : (d.raiseOpen cls cause data).pins = d.pins := by rw [(raiseOpen_talks d cls cause data).1]; rfl
@[simp] theorem Dev.raiseOpen_hm (d : Dev) (cls cause : Nat) (data : List Nat) : (d.raiseOpen cls cause data).hm = d.hm := by rw [(raiseOpen_talks d cls cause data).1]; rfl
@[simp] theorem Dev.raiseOpen_ledger (d : Dev) (cls cause : Nat) (data : List Nat) : (d.raiseOpen cls cause data).ledger = d.ledger := by rw [(raiseOpen_talks d cls cause data).1]; rfl
@[simp] theorem Dev.raiseOpen_ldgWeak (d : Dev) (cls cause : Nat) (data : List Nat) : (d.raiseOpen cls cause data).ldgWeak = d.ldgWeak := by rw [(raiseOpen_talks d cls cause data).1]; rfl
@[simp] theorem Dev.raiseOpen_tm (d : Dev) (cls cause : Nat) (data : List Nat) : (d.raiseOpen cls cause data).tm = d.tm := by rw [(raiseOpen_talks d cls cause data).1]; rfl
@[simp] theorem Dev.raiseOpen_acq (d : Dev) (cls cause : Nat) (data : List Nat) : (d.raiseOpen cls cause data).acq = d.acq := by rw [(raiseOpen_talks d cls cause data).1]; rfl
@[simp] theorem Dev.raiseOpen_rcd (d : Dev) (cls cause : Nat) (data : List Nat) : (d.raiseOpen cls cause data).rcd = d.rcd := by rw [(raiseOpen_talks d cls cause data).1]; rfl
@[simp] theorem Dev.raiseOpen_mrg (d : Dev) (cls cause : Nat) (data : List Nat) : (d.raiseOpen cls cause data).mrg = d.mrg := by rw [(raiseOpen_talks d cls cause data).1]; rfl
@[simp] theorem Dev.raiseOpen_cross (d : Dev) (cls cause : Nat) (data : List Nat) : (d.raiseOpen cls cause data).cross = d.cross := by rw [(raiseOpen_talks d cls cause data).1]; rfl
@[simp] theorem Dev.raiseOpen_flt (d : Dev) (cls cause : Nat) (data : List Nat) : (d.raiseOpen cls cause data).flt = d.flt := by rw [(raiseOpen_talks d cls cause data).1]; rfl
@[simp] theorem Dev.raiseOpen_hk (d : Dev) (cls cause : Nat) (data : List Nat) : (d.raiseOpen cls cause data).hk = d.hk := by rw [(raiseOpen_talks d cls cause data).1]; rfl
@[simp] theorem Dev.raiseOpen_pw (d : Dev) (cls cause : Nat) (data : List Nat) : (d.raiseOpen cls cause data).pw = d.pw := by rw [(raiseOpen_talks d cls cause data).1]; rfl
@[simp] theorem Dev.raiseOpen_mg_seen (d : Dev) (cls cause : Nat) (data : List Nat) : (d.raiseOpen cls cause data).mg.seen = d.mg.seen := by rw [(raiseOpen_talks d cls cause data).1]; rfl
@[simp] theorem Dev.raiseOpen_mg_execN (d : Dev) (cls cause : Nat) (data : List Nat) : (d.raiseOpen cls cause data).mg.execN = d.mg.execN := by rw [(raiseOpen_talks d cls cause data).1]; rfl
@[simp] theorem Dev.raiseOpen_mg_upRot (d : Dev) (cls cause : Nat) (data : List Nat) : (d.raiseOpen cls cause data).mg.upRot = d.mg.upRot := by rw [(raiseOpen_talks d cls cause data).1]; rfl
@[simp] theorem Dev.raiseOpen_mg_rotPort (d : Dev) (cls cause : Nat) (data : List Nat) : (d.raiseOpen cls cause data).mg.rotPort = d.mg.rotPort := by rw [(raiseOpen_talks d cls cause data).1]; rfl
@[simp] theorem Dev.raiseOpen_mg_attest (d : Dev) (cls cause : Nat) (data : List Nat) : (d.raiseOpen cls cause data).mg.attest = d.mg.attest := by rw [(raiseOpen_talks d cls cause data).1]; rfl
@[simp] theorem Dev.raiseOpen_mg_renumUntil (d : Dev) (cls cause : Nat) (data : List Nat) : (d.raiseOpen cls cause data).mg.renumUntil = d.mg.renumUntil := by rw [(raiseOpen_talks d cls cause data).1]; rfl
@[simp] theorem Dev.raiseOpen_hr_ringOp (d : Dev) (cls cause : Nat) (data : List Nat) : (d.raiseOpen cls cause data).hr.ringOp = d.hr.ringOp := by rw [(raiseOpen_talks d cls cause data).1]; rfl
@[simp] theorem Dev.raiseOpen_hr_sweepOut (d : Dev) (cls cause : Nat) (data : List Nat) : (d.raiseOpen cls cause data).hr.sweepOut = d.hr.sweepOut := by rw [(raiseOpen_talks d cls cause data).1]; rfl
@[simp] theorem Dev.raiseOpen_hr_lastByte (d : Dev) (cls cause : Nat) (data : List Nat) : (d.raiseOpen cls cause data).hr.lastByte = d.hr.lastByte := by rw [(raiseOpen_talks d cls cause data).1]; rfl
@[simp] theorem Dev.raiseOpen_hr_lines (d : Dev) (cls cause : Nat) (data : List Nat) : (d.raiseOpen cls cause data).hr.lines = d.hr.lines := by rw [(raiseOpen_talks d cls cause data).1]; rfl
@[simp] theorem Dev.raiseOpen_hr_reread (d : Dev) (cls cause : Nat) (data : List Nat) : (d.raiseOpen cls cause data).hr.reread = d.hr.reread := by rw [(raiseOpen_talks d cls cause data).1]; rfl
@[simp] theorem Dev.raiseOpen_hr_rrRing (d : Dev) (cls cause : Nat) (data : List Nat) : (d.raiseOpen cls cause data).hr.rrRing = d.hr.rrRing := by rw [(raiseOpen_talks d cls cause data).1]; rfl
@[simp] theorem Dev.raiseOpen_hr_outst (d : Dev) (cls cause : Nat) (data : List Nat) : (d.raiseOpen cls cause data).hr.outst = d.hr.outst := by rw [(raiseOpen_talks d cls cause data).1]; rfl
@[simp] theorem Dev.raiseOpen_hr_dead (d : Dev) (cls cause : Nat) (data : List Nat) : (d.raiseOpen cls cause data).hr.dead = d.hr.dead := by rw [(raiseOpen_talks d cls cause data).1]; rfl
@[simp] theorem Dev.raiseOpen_hr_vecPend (d : Dev) (cls cause : Nat) (data : List Nat) : (d.raiseOpen cls cause data).hr.vecPend = d.hr.vecPend := by rw [(raiseOpen_talks d cls cause data).1]; rfl
@[simp] theorem Dev.raiseOpen_hr_vecLast (d : Dev) (cls cause : Nat) (data : List Nat) : (d.raiseOpen cls cause data).hr.vecLast = d.hr.vecLast := by rw [(raiseOpen_talks d cls cause data).1]; rfl
@[simp] theorem Dev.raiseOpen_hr_msix (d : Dev) (cls cause : Nat) (data : List Nat) : (d.raiseOpen cls cause data).hr.msix = d.hr.msix := by rw [(raiseOpen_talks d cls cause data).1]; rfl
@[simp] theorem Dev.raiseOpen_hr_skipEvt (d : Dev) (cls cause : Nat) (data : List Nat) : (d.raiseOpen cls cause data).hr.skipEvt = d.hr.skipEvt := by rw [(raiseOpen_talks d cls cause data).1]; rfl
@[simp] theorem Dev.raiseOpen_hr_width (d : Dev) (cls cause : Nat) (data : List Nat) : (d.raiseOpen cls cause data).hr.width = d.hr.width := by rw [(raiseOpen_talks d cls cause data).1]; rfl
@[simp] theorem Dev.raiseOpen_hr_everUp (d : Dev) (cls cause : Nat) (data : List Nat) : (d.raiseOpen cls cause data).hr.everUp = d.hr.everUp := by rw [(raiseOpen_talks d cls cause data).1]; rfl
@[simp] theorem Dev.raiseOpen_hr_trained (d : Dev) (cls cause : Nat) (data : List Nat) : (d.raiseOpen cls cause data).hr.trained = d.hr.trained := by rw [(raiseOpen_talks d cls cause data).1]; rfl
@[simp] theorem Dev.raiseOpen_hr_payload (d : Dev) (cls cause : Nat) (data : List Nat) : (d.raiseOpen cls cause data).hr.payload = d.hr.payload := by rw [(raiseOpen_talks d cls cause data).1]; rfl
@[simp] theorem Dev.raiseOpen_hr_readReq (d : Dev) (cls cause : Nat) (data : List Nat) : (d.raiseOpen cls cause data).hr.readReq = d.hr.readReq := by rw [(raiseOpen_talks d cls cause data).1]; rfl
@[simp] theorem Dev.raiseOpen_hr_bar0 (d : Dev) (cls cause : Nat) (data : List Nat) : (d.raiseOpen cls cause data).hr.bar0 = d.hr.bar0 := by rw [(raiseOpen_talks d cls cause data).1]; rfl
@[simp] theorem Dev.raiseOpen_hr_msixOn (d : Dev) (cls cause : Nat) (data : List Nat) : (d.raiseOpen cls cause data).hr.msixOn = d.hr.msixOn := by rw [(raiseOpen_talks d cls cause data).1]; rfl
@[simp] theorem Dev.raiseOpen_hr_msixMask (d : Dev) (cls cause : Nat) (data : List Nat) : (d.raiseOpen cls cause data).hr.msixMask = d.hr.msixMask := by rw [(raiseOpen_talks d cls cause data).1]; rfl
@[simp] theorem Dev.raiseOpen_hr_msixDue (d : Dev) (cls cause : Nat) (data : List Nat) : (d.raiseOpen cls cause data).hr.msixDue = d.hr.msixDue := by rw [(raiseOpen_talks d cls cause data).1]; rfl
@[simp] theorem Dev.raiseOpen_hr_lossWait (d : Dev) (cls cause : Nat) (data : List Nat) : (d.raiseOpen cls cause data).hr.lossWait = d.hr.lossWait := by rw [(raiseOpen_talks d cls cause data).1]; rfl
@[simp] theorem Dev.raiseOpen_get (d : Dev) (cls cause : Nat) (data : List Nat) {f : Fld} (hf : ¬ countsTalk f.key) : (d.raiseOpen cls cause data).get f = d.get f :=
  (raiseOpen_talks d cls cause data).2 f (by simp) hf
@[simp] theorem Dev.raiseOpen_chan (d : Dev) (cls cause : Nat) (data : List Nat) (n : Nat) : (d.raiseOpen cls cause data).chan n = d.chan n := by simp [Dev.chan]
@[simp] theorem Dev.raiseOpen_slot (d : Dev) (cls cause : Nat) (data : List Nat) (n : Nat) : (d.raiseOpen cls cause data).slot n = d.slot n := by simp [Dev.slot]
@[simp] theorem Dev.raiseOpen_dom (d : Dev) (cls cause : Nat) (data : List Nat) (n : Nat) : (d.raiseOpen cls cause data).dom n = d.dom n := by simp [Dev.dom]
@[simp] theorem Dev.raiseOpen_xing (d : Dev) (cls cause : Nat) (data : List Nat) (n : Nat) : (d.raiseOpen cls cause data).xing n = d.xing n := by simp [Dev.xing]
@[simp] theorem Dev.reply_free (d : Dev) (c : Cmd) (status : Nat) (data : List Nat) : (d.reply c status data).free = d.free := by rw [(reply_talks d c status data).1]; rfl
@[simp] theorem Dev.reply_out (d : Dev) (c : Cmd) (status : Nat) (data : List Nat) : (d.reply c status data).out = d.out := by rw [(reply_talks d c status data).1]; rfl
@[simp] theorem Dev.reply_boot (d : Dev) (c : Cmd) (status : Nat) (data : List Nat) : (d.reply c status data).boot = d.boot := by rw [(reply_talks d c status data).1]; rfl
@[simp] theorem Dev.reply_force (d : Dev) (c : Cmd) (status : Nat) (data : List Nat) : (d.reply c status data).force = d.force := by rw [(reply_talks d c status data).1]; rfl
@[simp] theorem Dev.reply_queue (d : Dev) (c : Cmd) (status : Nat) (data : List Nat) : (d.reply c status data).queue = d.queue := by rw [(reply_talks d c status data).1]; rfl
@[simp] theorem Dev.reply_pins (d : Dev) (c : Cmd) (status : Nat) (data : List Nat) : (d.reply c status data).pins = d.pins := by rw [(reply_talks d c status data).1]; rfl
@[simp] theorem Dev.reply_hm (d : Dev) (c : Cmd) (status : Nat) (data : List Nat) : (d.reply c status data).hm = d.hm := by rw [(reply_talks d c status data).1]; rfl
@[simp] theorem Dev.reply_ledger (d : Dev) (c : Cmd) (status : Nat) (data : List Nat) : (d.reply c status data).ledger = d.ledger := by rw [(reply_talks d c status data).1]; rfl
@[simp] theorem Dev.reply_ldgWeak (d : Dev) (c : Cmd) (status : Nat) (data : List Nat) : (d.reply c status data).ldgWeak = d.ldgWeak := by rw [(reply_talks d c status data).1]; rfl
@[simp] theorem Dev.reply_tm (d : Dev) (c : Cmd) (status : Nat) (data : List Nat) : (d.reply c status data).tm = d.tm := by rw [(reply_talks d c status data).1]; rfl
@[simp] theorem Dev.reply_acq (d : Dev) (c : Cmd) (status : Nat) (data : List Nat) : (d.reply c status data).acq = d.acq := by rw [(reply_talks d c status data).1]; rfl
@[simp] theorem Dev.reply_rcd (d : Dev) (c : Cmd) (status : Nat) (data : List Nat) : (d.reply c status data).rcd = d.rcd := by rw [(reply_talks d c status data).1]; rfl
@[simp] theorem Dev.reply_mrg (d : Dev) (c : Cmd) (status : Nat) (data : List Nat) : (d.reply c status data).mrg = d.mrg := by rw [(reply_talks d c status data).1]; rfl
@[simp] theorem Dev.reply_cross (d : Dev) (c : Cmd) (status : Nat) (data : List Nat) : (d.reply c status data).cross = d.cross := by rw [(reply_talks d c status data).1]; rfl
@[simp] theorem Dev.reply_flt (d : Dev) (c : Cmd) (status : Nat) (data : List Nat) : (d.reply c status data).flt = d.flt := by rw [(reply_talks d c status data).1]; rfl
@[simp] theorem Dev.reply_hk (d : Dev) (c : Cmd) (status : Nat) (data : List Nat) : (d.reply c status data).hk = d.hk := by rw [(reply_talks d c status data).1]; rfl
@[simp] theorem Dev.reply_pw (d : Dev) (c : Cmd) (status : Nat) (data : List Nat) : (d.reply c status data).pw = d.pw := by rw [(reply_talks d c status data).1]; rfl
@[simp] theorem Dev.reply_mg_seen (d : Dev) (c : Cmd) (status : Nat) (data : List Nat) : (d.reply c status data).mg.seen = d.mg.seen := by rw [(reply_talks d c status data).1]; rfl
@[simp] theorem Dev.reply_mg_execN (d : Dev) (c : Cmd) (status : Nat) (data : List Nat) : (d.reply c status data).mg.execN = d.mg.execN := by rw [(reply_talks d c status data).1]; rfl
@[simp] theorem Dev.reply_mg_upRot (d : Dev) (c : Cmd) (status : Nat) (data : List Nat) : (d.reply c status data).mg.upRot = d.mg.upRot := by rw [(reply_talks d c status data).1]; rfl
@[simp] theorem Dev.reply_mg_rotPort (d : Dev) (c : Cmd) (status : Nat) (data : List Nat) : (d.reply c status data).mg.rotPort = d.mg.rotPort := by rw [(reply_talks d c status data).1]; rfl
@[simp] theorem Dev.reply_mg_attest (d : Dev) (c : Cmd) (status : Nat) (data : List Nat) : (d.reply c status data).mg.attest = d.mg.attest := by rw [(reply_talks d c status data).1]; rfl
@[simp] theorem Dev.reply_mg_renumUntil (d : Dev) (c : Cmd) (status : Nat) (data : List Nat) : (d.reply c status data).mg.renumUntil = d.mg.renumUntil := by rw [(reply_talks d c status data).1]; rfl
@[simp] theorem Dev.reply_hr_ringOp (d : Dev) (c : Cmd) (status : Nat) (data : List Nat) : (d.reply c status data).hr.ringOp = d.hr.ringOp := by rw [(reply_talks d c status data).1]; rfl
@[simp] theorem Dev.reply_hr_sweepOut (d : Dev) (c : Cmd) (status : Nat) (data : List Nat) : (d.reply c status data).hr.sweepOut = d.hr.sweepOut := by rw [(reply_talks d c status data).1]; rfl
@[simp] theorem Dev.reply_hr_lastByte (d : Dev) (c : Cmd) (status : Nat) (data : List Nat) : (d.reply c status data).hr.lastByte = d.hr.lastByte := by rw [(reply_talks d c status data).1]; rfl
@[simp] theorem Dev.reply_hr_lines (d : Dev) (c : Cmd) (status : Nat) (data : List Nat) : (d.reply c status data).hr.lines = d.hr.lines := by rw [(reply_talks d c status data).1]; rfl
@[simp] theorem Dev.reply_hr_reread (d : Dev) (c : Cmd) (status : Nat) (data : List Nat) : (d.reply c status data).hr.reread = d.hr.reread := by rw [(reply_talks d c status data).1]; rfl
@[simp] theorem Dev.reply_hr_rrRing (d : Dev) (c : Cmd) (status : Nat) (data : List Nat) : (d.reply c status data).hr.rrRing = d.hr.rrRing := by rw [(reply_talks d c status data).1]; rfl
@[simp] theorem Dev.reply_hr_outst (d : Dev) (c : Cmd) (status : Nat) (data : List Nat) : (d.reply c status data).hr.outst = d.hr.outst := by rw [(reply_talks d c status data).1]; rfl
@[simp] theorem Dev.reply_hr_dead (d : Dev) (c : Cmd) (status : Nat) (data : List Nat) : (d.reply c status data).hr.dead = d.hr.dead := by rw [(reply_talks d c status data).1]; rfl
@[simp] theorem Dev.reply_hr_vecPend (d : Dev) (c : Cmd) (status : Nat) (data : List Nat) : (d.reply c status data).hr.vecPend = d.hr.vecPend := by rw [(reply_talks d c status data).1]; rfl
@[simp] theorem Dev.reply_hr_vecLast (d : Dev) (c : Cmd) (status : Nat) (data : List Nat) : (d.reply c status data).hr.vecLast = d.hr.vecLast := by rw [(reply_talks d c status data).1]; rfl
@[simp] theorem Dev.reply_hr_msix (d : Dev) (c : Cmd) (status : Nat) (data : List Nat) : (d.reply c status data).hr.msix = d.hr.msix := by rw [(reply_talks d c status data).1]; rfl
@[simp] theorem Dev.reply_hr_skipEvt (d : Dev) (c : Cmd) (status : Nat) (data : List Nat) : (d.reply c status data).hr.skipEvt = d.hr.skipEvt := by rw [(reply_talks d c status data).1]; rfl
@[simp] theorem Dev.reply_hr_width (d : Dev) (c : Cmd) (status : Nat) (data : List Nat) : (d.reply c status data).hr.width = d.hr.width := by rw [(reply_talks d c status data).1]; rfl
@[simp] theorem Dev.reply_hr_everUp (d : Dev) (c : Cmd) (status : Nat) (data : List Nat) : (d.reply c status data).hr.everUp = d.hr.everUp := by rw [(reply_talks d c status data).1]; rfl
@[simp] theorem Dev.reply_hr_trained (d : Dev) (c : Cmd) (status : Nat) (data : List Nat) : (d.reply c status data).hr.trained = d.hr.trained := by rw [(reply_talks d c status data).1]; rfl
@[simp] theorem Dev.reply_hr_payload (d : Dev) (c : Cmd) (status : Nat) (data : List Nat) : (d.reply c status data).hr.payload = d.hr.payload := by rw [(reply_talks d c status data).1]; rfl
@[simp] theorem Dev.reply_hr_readReq (d : Dev) (c : Cmd) (status : Nat) (data : List Nat) : (d.reply c status data).hr.readReq = d.hr.readReq := by rw [(reply_talks d c status data).1]; rfl
@[simp] theorem Dev.reply_hr_bar0 (d : Dev) (c : Cmd) (status : Nat) (data : List Nat) : (d.reply c status data).hr.bar0 = d.hr.bar0 := by rw [(reply_talks d c status data).1]; rfl
@[simp] theorem Dev.reply_hr_msixOn (d : Dev) (c : Cmd) (status : Nat) (data : List Nat) : (d.reply c status data).hr.msixOn = d.hr.msixOn := by rw [(reply_talks d c status data).1]; rfl
@[simp] theorem Dev.reply_hr_msixMask (d : Dev) (c : Cmd) (status : Nat) (data : List Nat) : (d.reply c status data).hr.msixMask = d.hr.msixMask := by rw [(reply_talks d c status data).1]; rfl
@[simp] theorem Dev.reply_hr_msixDue (d : Dev) (c : Cmd) (status : Nat) (data : List Nat) : (d.reply c status data).hr.msixDue = d.hr.msixDue := by rw [(reply_talks d c status data).1]; rfl
@[simp] theorem Dev.reply_hr_lossWait (d : Dev) (c : Cmd) (status : Nat) (data : List Nat) : (d.reply c status data).hr.lossWait = d.hr.lossWait := by rw [(reply_talks d c status data).1]; rfl
@[simp] theorem Dev.reply_get (d : Dev) (c : Cmd) (status : Nat) (data : List Nat) {f : Fld} (hf : ¬ countsTalk f.key) : (d.reply c status data).get f = d.get f :=
  (reply_talks d c status data).2 f (by simp) hf
@[simp] theorem Dev.reply_chan (d : Dev) (c : Cmd) (status : Nat) (data : List Nat) (n : Nat) : (d.reply c status data).chan n = d.chan n := by simp [Dev.chan]
@[simp] theorem Dev.reply_slot (d : Dev) (c : Cmd) (status : Nat) (data : List Nat) (n : Nat) : (d.reply c status data).slot n = d.slot n := by simp [Dev.slot]
@[simp] theorem Dev.reply_dom (d : Dev) (c : Cmd) (status : Nat) (data : List Nat) (n : Nat) : (d.reply c status data).dom n = d.dom n := by simp [Dev.dom]
@[simp] theorem Dev.reply_xing (d : Dev) (c : Cmd) (status : Nat) (data : List Nat) (n : Nat) : (d.reply c status data).xing n = d.xing n := by simp [Dev.xing]
@[simp] theorem Dev.postUp_free (d : Dev) (m : Msg) : (d.postUp m).free = d.free := by rw [(postUp_talks d m).1]; rfl
@[simp] theorem Dev.postUp_out (d : Dev) (m : Msg) : (d.postUp m).out = d.out := by rw [(postUp_talks d m).1]; rfl
@[simp] theorem Dev.postUp_boot (d : Dev) (m : Msg) : (d.postUp m).boot = d.boot := by rw [(postUp_talks d m).1]; rfl
@[simp] theorem Dev.postUp_force (d : Dev) (m : Msg) : (d.postUp m).force = d.force := by rw [(postUp_talks d m).1]; rfl
@[simp] theorem Dev.postUp_queue (d : Dev) (m : Msg) : (d.postUp m).queue = d.queue := by rw [(postUp_talks d m).1]; rfl
@[simp] theorem Dev.postUp_pins (d : Dev) (m : Msg) : (d.postUp m).pins = d.pins := by rw [(postUp_talks d m).1]; rfl
@[simp] theorem Dev.postUp_hm (d : Dev) (m : Msg) : (d.postUp m).hm = d.hm := by rw [(postUp_talks d m).1]; rfl
@[simp] theorem Dev.postUp_ledger (d : Dev) (m : Msg) : (d.postUp m).ledger = d.ledger := by rw [(postUp_talks d m).1]; rfl
@[simp] theorem Dev.postUp_ldgWeak (d : Dev) (m : Msg) : (d.postUp m).ldgWeak = d.ldgWeak := by rw [(postUp_talks d m).1]; rfl
@[simp] theorem Dev.postUp_tm (d : Dev) (m : Msg) : (d.postUp m).tm = d.tm := by rw [(postUp_talks d m).1]; rfl
@[simp] theorem Dev.postUp_acq (d : Dev) (m : Msg) : (d.postUp m).acq = d.acq := by rw [(postUp_talks d m).1]; rfl
@[simp] theorem Dev.postUp_rcd (d : Dev) (m : Msg) : (d.postUp m).rcd = d.rcd := by rw [(postUp_talks d m).1]; rfl
@[simp] theorem Dev.postUp_mrg (d : Dev) (m : Msg) : (d.postUp m).mrg = d.mrg := by rw [(postUp_talks d m).1]; rfl
@[simp] theorem Dev.postUp_cross (d : Dev) (m : Msg) : (d.postUp m).cross = d.cross := by rw [(postUp_talks d m).1]; rfl
@[simp] theorem Dev.postUp_flt (d : Dev) (m : Msg) : (d.postUp m).flt = d.flt := by rw [(postUp_talks d m).1]; rfl
@[simp] theorem Dev.postUp_hk (d : Dev) (m : Msg) : (d.postUp m).hk = d.hk := by rw [(postUp_talks d m).1]; rfl
@[simp] theorem Dev.postUp_pw (d : Dev) (m : Msg) : (d.postUp m).pw = d.pw := by rw [(postUp_talks d m).1]; rfl
@[simp] theorem Dev.postUp_mg_seen (d : Dev) (m : Msg) : (d.postUp m).mg.seen = d.mg.seen := by rw [(postUp_talks d m).1]; rfl
@[simp] theorem Dev.postUp_mg_execN (d : Dev) (m : Msg) : (d.postUp m).mg.execN = d.mg.execN := by rw [(postUp_talks d m).1]; rfl
@[simp] theorem Dev.postUp_mg_upRot (d : Dev) (m : Msg) : (d.postUp m).mg.upRot = d.mg.upRot := by rw [(postUp_talks d m).1]; rfl
@[simp] theorem Dev.postUp_mg_rotPort (d : Dev) (m : Msg) : (d.postUp m).mg.rotPort = d.mg.rotPort := by rw [(postUp_talks d m).1]; rfl
@[simp] theorem Dev.postUp_mg_attest (d : Dev) (m : Msg) : (d.postUp m).mg.attest = d.mg.attest := by rw [(postUp_talks d m).1]; rfl
@[simp] theorem Dev.postUp_mg_renumUntil (d : Dev) (m : Msg) : (d.postUp m).mg.renumUntil = d.mg.renumUntil := by rw [(postUp_talks d m).1]; rfl
@[simp] theorem Dev.postUp_hr_ringOp (d : Dev) (m : Msg) : (d.postUp m).hr.ringOp = d.hr.ringOp := by rw [(postUp_talks d m).1]; rfl
@[simp] theorem Dev.postUp_hr_sweepOut (d : Dev) (m : Msg) : (d.postUp m).hr.sweepOut = d.hr.sweepOut := by rw [(postUp_talks d m).1]; rfl
@[simp] theorem Dev.postUp_hr_lastByte (d : Dev) (m : Msg) : (d.postUp m).hr.lastByte = d.hr.lastByte := by rw [(postUp_talks d m).1]; rfl
@[simp] theorem Dev.postUp_hr_lines (d : Dev) (m : Msg) : (d.postUp m).hr.lines = d.hr.lines := by rw [(postUp_talks d m).1]; rfl
@[simp] theorem Dev.postUp_hr_reread (d : Dev) (m : Msg) : (d.postUp m).hr.reread = d.hr.reread := by rw [(postUp_talks d m).1]; rfl
@[simp] theorem Dev.postUp_hr_rrRing (d : Dev) (m : Msg) : (d.postUp m).hr.rrRing = d.hr.rrRing := by rw [(postUp_talks d m).1]; rfl
@[simp] theorem Dev.postUp_hr_outst (d : Dev) (m : Msg) : (d.postUp m).hr.outst = d.hr.outst := by rw [(postUp_talks d m).1]; rfl
@[simp] theorem Dev.postUp_hr_dead (d : Dev) (m : Msg) : (d.postUp m).hr.dead = d.hr.dead := by rw [(postUp_talks d m).1]; rfl
@[simp] theorem Dev.postUp_hr_vecPend (d : Dev) (m : Msg) : (d.postUp m).hr.vecPend = d.hr.vecPend := by rw [(postUp_talks d m).1]; rfl
@[simp] theorem Dev.postUp_hr_vecLast (d : Dev) (m : Msg) : (d.postUp m).hr.vecLast = d.hr.vecLast := by rw [(postUp_talks d m).1]; rfl
@[simp] theorem Dev.postUp_hr_msix (d : Dev) (m : Msg) : (d.postUp m).hr.msix = d.hr.msix := by rw [(postUp_talks d m).1]; rfl
@[simp] theorem Dev.postUp_hr_skipEvt (d : Dev) (m : Msg) : (d.postUp m).hr.skipEvt = d.hr.skipEvt := by rw [(postUp_talks d m).1]; rfl
@[simp] theorem Dev.postUp_hr_width (d : Dev) (m : Msg) : (d.postUp m).hr.width = d.hr.width := by rw [(postUp_talks d m).1]; rfl
@[simp] theorem Dev.postUp_hr_everUp (d : Dev) (m : Msg) : (d.postUp m).hr.everUp = d.hr.everUp := by rw [(postUp_talks d m).1]; rfl
@[simp] theorem Dev.postUp_hr_trained (d : Dev) (m : Msg) : (d.postUp m).hr.trained = d.hr.trained := by rw [(postUp_talks d m).1]; rfl
@[simp] theorem Dev.postUp_hr_payload (d : Dev) (m : Msg) : (d.postUp m).hr.payload = d.hr.payload := by rw [(postUp_talks d m).1]; rfl
@[simp] theorem Dev.postUp_hr_readReq (d : Dev) (m : Msg) : (d.postUp m).hr.readReq = d.hr.readReq := by rw [(postUp_talks d m).1]; rfl
@[simp] theorem Dev.postUp_hr_bar0 (d : Dev) (m : Msg) : (d.postUp m).hr.bar0 = d.hr.bar0 := by rw [(postUp_talks d m).1]; rfl
@[simp] theorem Dev.postUp_hr_msixOn (d : Dev) (m : Msg) : (d.postUp m).hr.msixOn = d.hr.msixOn := by rw [(postUp_talks d m).1]; rfl
@[simp] theorem Dev.postUp_hr_msixMask (d : Dev) (m : Msg) : (d.postUp m).hr.msixMask = d.hr.msixMask := by rw [(postUp_talks d m).1]; rfl
@[simp] theorem Dev.postUp_hr_msixDue (d : Dev) (m : Msg) : (d.postUp m).hr.msixDue = d.hr.msixDue := by rw [(postUp_talks d m).1]; rfl
@[simp] theorem Dev.postUp_hr_lossWait (d : Dev) (m : Msg) : (d.postUp m).hr.lossWait = d.hr.lossWait := by rw [(postUp_talks d m).1]; rfl
@[simp] theorem Dev.postUp_get (d : Dev) (m : Msg) {f : Fld} (hf : ¬ countsTalk f.key) : (d.postUp m).get f = d.get f :=
  (postUp_talks d m).2 f (by simp) hf
@[simp] theorem Dev.postUp_chan (d : Dev) (m : Msg) (n : Nat) : (d.postUp m).chan n = d.chan n := by simp [Dev.chan]
@[simp] theorem Dev.postUp_slot (d : Dev) (m : Msg) (n : Nat) : (d.postUp m).slot n = d.slot n := by simp [Dev.slot]
@[simp] theorem Dev.postUp_dom (d : Dev) (m : Msg) (n : Nat) : (d.postUp m).dom n = d.dom n := by simp [Dev.dom]
@[simp] theorem Dev.postUp_xing (d : Dev) (m : Msg) (n : Nat) : (d.postUp m).xing n = d.xing n := by simp [Dev.xing]
@[simp] theorem Dev.postLane_free (d : Dev) (l : Nat) (m : Msg) : (d.postLane l m).free = d.free := by rw [(postLane_talks d l m).1]; rfl
@[simp] theorem Dev.postLane_out (d : Dev) (l : Nat) (m : Msg) : (d.postLane l m).out = d.out := by rw [(postLane_talks d l m).1]; rfl
@[simp] theorem Dev.postLane_boot (d : Dev) (l : Nat) (m : Msg) : (d.postLane l m).boot = d.boot := by rw [(postLane_talks d l m).1]; rfl
@[simp] theorem Dev.postLane_force (d : Dev) (l : Nat) (m : Msg) : (d.postLane l m).force = d.force := by rw [(postLane_talks d l m).1]; rfl
@[simp] theorem Dev.postLane_queue (d : Dev) (l : Nat) (m : Msg) : (d.postLane l m).queue = d.queue := by rw [(postLane_talks d l m).1]; rfl
@[simp] theorem Dev.postLane_pins (d : Dev) (l : Nat) (m : Msg) : (d.postLane l m).pins = d.pins := by rw [(postLane_talks d l m).1]; rfl
@[simp] theorem Dev.postLane_hm (d : Dev) (l : Nat) (m : Msg) : (d.postLane l m).hm = d.hm := by rw [(postLane_talks d l m).1]; rfl
@[simp] theorem Dev.postLane_ledger (d : Dev) (l : Nat) (m : Msg) : (d.postLane l m).ledger = d.ledger := by rw [(postLane_talks d l m).1]; rfl
@[simp] theorem Dev.postLane_ldgWeak (d : Dev) (l : Nat) (m : Msg) : (d.postLane l m).ldgWeak = d.ldgWeak := by rw [(postLane_talks d l m).1]; rfl
@[simp] theorem Dev.postLane_tm (d : Dev) (l : Nat) (m : Msg) : (d.postLane l m).tm = d.tm := by rw [(postLane_talks d l m).1]; rfl
@[simp] theorem Dev.postLane_acq (d : Dev) (l : Nat) (m : Msg) : (d.postLane l m).acq = d.acq := by rw [(postLane_talks d l m).1]; rfl
@[simp] theorem Dev.postLane_rcd (d : Dev) (l : Nat) (m : Msg) : (d.postLane l m).rcd = d.rcd := by rw [(postLane_talks d l m).1]; rfl
@[simp] theorem Dev.postLane_mrg (d : Dev) (l : Nat) (m : Msg) : (d.postLane l m).mrg = d.mrg := by rw [(postLane_talks d l m).1]; rfl
@[simp] theorem Dev.postLane_cross (d : Dev) (l : Nat) (m : Msg) : (d.postLane l m).cross = d.cross := by rw [(postLane_talks d l m).1]; rfl
@[simp] theorem Dev.postLane_flt (d : Dev) (l : Nat) (m : Msg) : (d.postLane l m).flt = d.flt := by rw [(postLane_talks d l m).1]; rfl
@[simp] theorem Dev.postLane_hk (d : Dev) (l : Nat) (m : Msg) : (d.postLane l m).hk = d.hk := by rw [(postLane_talks d l m).1]; rfl
@[simp] theorem Dev.postLane_pw (d : Dev) (l : Nat) (m : Msg) : (d.postLane l m).pw = d.pw := by rw [(postLane_talks d l m).1]; rfl
@[simp] theorem Dev.postLane_mg_seen (d : Dev) (l : Nat) (m : Msg) : (d.postLane l m).mg.seen = d.mg.seen := by rw [(postLane_talks d l m).1]; rfl
@[simp] theorem Dev.postLane_mg_execN (d : Dev) (l : Nat) (m : Msg) : (d.postLane l m).mg.execN = d.mg.execN := by rw [(postLane_talks d l m).1]; rfl
@[simp] theorem Dev.postLane_mg_upRot (d : Dev) (l : Nat) (m : Msg) : (d.postLane l m).mg.upRot = d.mg.upRot := by rw [(postLane_talks d l m).1]; rfl
@[simp] theorem Dev.postLane_mg_rotPort (d : Dev) (l : Nat) (m : Msg) : (d.postLane l m).mg.rotPort = d.mg.rotPort := by rw [(postLane_talks d l m).1]; rfl
@[simp] theorem Dev.postLane_mg_attest (d : Dev) (l : Nat) (m : Msg) : (d.postLane l m).mg.attest = d.mg.attest := by rw [(postLane_talks d l m).1]; rfl
@[simp] theorem Dev.postLane_mg_renumUntil (d : Dev) (l : Nat) (m : Msg) : (d.postLane l m).mg.renumUntil = d.mg.renumUntil := by rw [(postLane_talks d l m).1]; rfl
@[simp] theorem Dev.postLane_hr_ringOp (d : Dev) (l : Nat) (m : Msg) : (d.postLane l m).hr.ringOp = d.hr.ringOp := by rw [(postLane_talks d l m).1]; rfl
@[simp] theorem Dev.postLane_hr_sweepOut (d : Dev) (l : Nat) (m : Msg) : (d.postLane l m).hr.sweepOut = d.hr.sweepOut := by rw [(postLane_talks d l m).1]; rfl
@[simp] theorem Dev.postLane_hr_lastByte (d : Dev) (l : Nat) (m : Msg) : (d.postLane l m).hr.lastByte = d.hr.lastByte := by rw [(postLane_talks d l m).1]; rfl
@[simp] theorem Dev.postLane_hr_lines (d : Dev) (l : Nat) (m : Msg) : (d.postLane l m).hr.lines = d.hr.lines := by rw [(postLane_talks d l m).1]; rfl
@[simp] theorem Dev.postLane_hr_reread (d : Dev) (l : Nat) (m : Msg) : (d.postLane l m).hr.reread = d.hr.reread := by rw [(postLane_talks d l m).1]; rfl
@[simp] theorem Dev.postLane_hr_rrRing (d : Dev) (l : Nat) (m : Msg) : (d.postLane l m).hr.rrRing = d.hr.rrRing := by rw [(postLane_talks d l m).1]; rfl
@[simp] theorem Dev.postLane_hr_outst (d : Dev) (l : Nat) (m : Msg) : (d.postLane l m).hr.outst = d.hr.outst := by rw [(postLane_talks d l m).1]; rfl
@[simp] theorem Dev.postLane_hr_dead (d : Dev) (l : Nat) (m : Msg) : (d.postLane l m).hr.dead = d.hr.dead := by rw [(postLane_talks d l m).1]; rfl
@[simp] theorem Dev.postLane_hr_vecPend (d : Dev) (l : Nat) (m : Msg) : (d.postLane l m).hr.vecPend = d.hr.vecPend := by rw [(postLane_talks d l m).1]; rfl
@[simp] theorem Dev.postLane_hr_vecLast (d : Dev) (l : Nat) (m : Msg) : (d.postLane l m).hr.vecLast = d.hr.vecLast := by rw [(postLane_talks d l m).1]; rfl
@[simp] theorem Dev.postLane_hr_msix (d : Dev) (l : Nat) (m : Msg) : (d.postLane l m).hr.msix = d.hr.msix := by rw [(postLane_talks d l m).1]; rfl
@[simp] theorem Dev.postLane_hr_skipEvt (d : Dev) (l : Nat) (m : Msg) : (d.postLane l m).hr.skipEvt = d.hr.skipEvt := by rw [(postLane_talks d l m).1]; rfl
@[simp] theorem Dev.postLane_hr_width (d : Dev) (l : Nat) (m : Msg) : (d.postLane l m).hr.width = d.hr.width := by rw [(postLane_talks d l m).1]; rfl
@[simp] theorem Dev.postLane_hr_everUp (d : Dev) (l : Nat) (m : Msg) : (d.postLane l m).hr.everUp = d.hr.everUp := by rw [(postLane_talks d l m).1]; rfl
@[simp] theorem Dev.postLane_hr_trained (d : Dev) (l : Nat) (m : Msg) : (d.postLane l m).hr.trained = d.hr.trained := by rw [(postLane_talks d l m).1]; rfl
@[simp] theorem Dev.postLane_hr_payload (d : Dev) (l : Nat) (m : Msg) : (d.postLane l m).hr.payload = d.hr.payload := by rw [(postLane_talks d l m).1]; rfl
@[simp] theorem Dev.postLane_hr_readReq (d : Dev) (l : Nat) (m : Msg) : (d.postLane l m).hr.readReq = d.hr.readReq := by rw [(postLane_talks d l m).1]; rfl
@[simp] theorem Dev.postLane_hr_bar0 (d : Dev) (l : Nat) (m : Msg) : (d.postLane l m).hr.bar0 = d.hr.bar0 := by rw [(postLane_talks d l m).1]; rfl
@[simp] theorem Dev.postLane_hr_msixOn (d : Dev) (l : Nat) (m : Msg) : (d.postLane l m).hr.msixOn = d.hr.msixOn := by rw [(postLane_talks d l m).1]; rfl
@[simp] theorem Dev.postLane_hr_msixMask (d : Dev) (l : Nat) (m : Msg) : (d.postLane l m).hr.msixMask = d.hr.msixMask := by rw [(postLane_talks d l m).1]; rfl
@[simp] theorem Dev.postLane_hr_msixDue (d : Dev) (l : Nat) (m : Msg) : (d.postLane l m).hr.msixDue = d.hr.msixDue := by rw [(postLane_talks d l m).1]; rfl
@[simp] theorem Dev.postLane_hr_lossWait (d : Dev) (l : Nat) (m : Msg) : (d.postLane l m).hr.lossWait = d.hr.lossWait := by rw [(postLane_talks d l m).1]; rfl
@[simp] theorem Dev.postLane_get (d : Dev) (l : Nat) (m : Msg) {f : Fld} (hf : ¬ countsTalk f.key) : (d.postLane l m).get f = d.get f :=
  (postLane_talks d l m).2 f (by simp) hf
@[simp] theorem Dev.postLane_chan (d : Dev) (l : Nat) (m : Msg) (n : Nat) : (d.postLane l m).chan n = d.chan n := by simp [Dev.chan]
@[simp] theorem Dev.postLane_slot (d : Dev) (l : Nat) (m : Msg) (n : Nat) : (d.postLane l m).slot n = d.slot n := by simp [Dev.slot]
@[simp] theorem Dev.postLane_dom (d : Dev) (l : Nat) (m : Msg) (n : Nat) : (d.postLane l m).dom n = d.dom n := by simp [Dev.dom]
@[simp] theorem Dev.postLane_xing (d : Dev) (l : Nat) (m : Msg) (n : Nat) : (d.postLane l m).xing n = d.xing n := by simp [Dev.xing]
@[simp] theorem Dev.toEventRing_free (d : Dev) (r : Nat) (ws : List Nat) : (d.toEventRing r ws).free = d.free := by rw [(toEventRing_talks d r ws).1]; rfl
@[simp] theorem Dev.toEventRing_out (d : Dev) (r : Nat) (ws : List Nat) : (d.toEventRing r ws).out = d.out := by rw [(toEventRing_talks d r ws).1]; rfl
@[simp] theorem Dev.toEventRing_boot (d : Dev) (r : Nat) (ws : List Nat) : (d.toEventRing r ws).boot = d.boot := by rw [(toEventRing_talks d r ws).1]; rfl
@[simp] theorem Dev.toEventRing_force (d : Dev) (r : Nat) (ws : List Nat) : (d.toEventRing r ws).force = d.force := by rw [(toEventRing_talks d r ws).1]; rfl
@[simp] theorem Dev.toEventRing_queue (d : Dev) (r : Nat) (ws : List Nat) : (d.toEventRing r ws).queue = d.queue := by rw [(toEventRing_talks d r ws).1]; rfl
@[simp] theorem Dev.toEventRing_pins (d : Dev) (r : Nat) (ws : List Nat) : (d.toEventRing r ws).pins = d.pins := by rw [(toEventRing_talks d r ws).1]; rfl
@[simp] theorem Dev.toEventRing_hm (d : Dev) (r : Nat) (ws : List Nat) : (d.toEventRing r ws).hm = d.hm := by rw [(toEventRing_talks d r ws).1]; rfl
@[simp] theorem Dev.toEventRing_ledger (d : Dev) (r : Nat) (ws : List Nat) : (d.toEventRing r ws).ledger = d.ledger := by rw [(toEventRing_talks d r ws).1]; rfl
@[simp] theorem Dev.toEventRing_ldgWeak (d : Dev) (r : Nat) (ws : List Nat) : (d.toEventRing r ws).ldgWeak = d.ldgWeak := by rw [(toEventRing_talks d r ws).1]; rfl
@[simp] theorem Dev.toEventRing_tm (d : Dev) (r : Nat) (ws : List Nat) : (d.toEventRing r ws).tm = d.tm := by rw [(toEventRing_talks d r ws).1]; rfl
@[simp] theorem Dev.toEventRing_acq (d : Dev) (r : Nat) (ws : List Nat) : (d.toEventRing r ws).acq = d.acq := by rw [(toEventRing_talks d r ws).1]; rfl
@[simp] theorem Dev.toEventRing_rcd (d : Dev) (r : Nat) (ws : List Nat) : (d.toEventRing r ws).rcd = d.rcd := by rw [(toEventRing_talks d r ws).1]; rfl
@[simp] theorem Dev.toEventRing_mrg (d : Dev) (r : Nat) (ws : List Nat) : (d.toEventRing r ws).mrg = d.mrg := by rw [(toEventRing_talks d r ws).1]; rfl
@[simp] theorem Dev.toEventRing_cross (d : Dev) (r : Nat) (ws : List Nat) : (d.toEventRing r ws).cross = d.cross := by rw [(toEventRing_talks d r ws).1]; rfl
@[simp] theorem Dev.toEventRing_flt (d : Dev) (r : Nat) (ws : List Nat) : (d.toEventRing r ws).flt = d.flt := by rw [(toEventRing_talks d r ws).1]; rfl
@[simp] theorem Dev.toEventRing_hk (d : Dev) (r : Nat) (ws : List Nat) : (d.toEventRing r ws).hk = d.hk := by rw [(toEventRing_talks d r ws).1]; rfl
@[simp] theorem Dev.toEventRing_pw (d : Dev) (r : Nat) (ws : List Nat) : (d.toEventRing r ws).pw = d.pw := by rw [(toEventRing_talks d r ws).1]; rfl
@[simp] theorem Dev.toEventRing_mg_seen (d : Dev) (r : Nat) (ws : List Nat) : (d.toEventRing r ws).mg.seen = d.mg.seen := by rw [(toEventRing_talks d r ws).1]; rfl
@[simp] theorem Dev.toEventRing_mg_execN (d : Dev) (r : Nat) (ws : List Nat) : (d.toEventRing r ws).mg.execN = d.mg.execN := by rw [(toEventRing_talks d r ws).1]; rfl
@[simp] theorem Dev.toEventRing_mg_upRot (d : Dev) (r : Nat) (ws : List Nat) : (d.toEventRing r ws).mg.upRot = d.mg.upRot := by rw [(toEventRing_talks d r ws).1]; rfl
@[simp] theorem Dev.toEventRing_mg_rotPort (d : Dev) (r : Nat) (ws : List Nat) : (d.toEventRing r ws).mg.rotPort = d.mg.rotPort := by rw [(toEventRing_talks d r ws).1]; rfl
@[simp] theorem Dev.toEventRing_mg_attest (d : Dev) (r : Nat) (ws : List Nat) : (d.toEventRing r ws).mg.attest = d.mg.attest := by rw [(toEventRing_talks d r ws).1]; rfl
@[simp] theorem Dev.toEventRing_mg_renumUntil (d : Dev) (r : Nat) (ws : List Nat) : (d.toEventRing r ws).mg.renumUntil = d.mg.renumUntil := by rw [(toEventRing_talks d r ws).1]; rfl
@[simp] theorem Dev.toEventRing_hr_ringOp (d : Dev) (r : Nat) (ws : List Nat) : (d.toEventRing r ws).hr.ringOp = d.hr.ringOp := by rw [(toEventRing_talks d r ws).1]; rfl
@[simp] theorem Dev.toEventRing_hr_sweepOut (d : Dev) (r : Nat) (ws : List Nat) : (d.toEventRing r ws).hr.sweepOut = d.hr.sweepOut := by rw [(toEventRing_talks d r ws).1]; rfl
@[simp] theorem Dev.toEventRing_hr_lastByte (d : Dev) (r : Nat) (ws : List Nat) : (d.toEventRing r ws).hr.lastByte = d.hr.lastByte := by rw [(toEventRing_talks d r ws).1]; rfl
@[simp] theorem Dev.toEventRing_hr_lines (d : Dev) (r : Nat) (ws : List Nat) : (d.toEventRing r ws).hr.lines = d.hr.lines := by rw [(toEventRing_talks d r ws).1]; rfl
@[simp] theorem Dev.toEventRing_hr_reread (d : Dev) (r : Nat) (ws : List Nat) : (d.toEventRing r ws).hr.reread = d.hr.reread := by rw [(toEventRing_talks d r ws).1]; rfl
@[simp] theorem Dev.toEventRing_hr_rrRing (d : Dev) (r : Nat) (ws : List Nat) : (d.toEventRing r ws).hr.rrRing = d.hr.rrRing := by rw [(toEventRing_talks d r ws).1]; rfl
@[simp] theorem Dev.toEventRing_hr_outst (d : Dev) (r : Nat) (ws : List Nat) : (d.toEventRing r ws).hr.outst = d.hr.outst := by rw [(toEventRing_talks d r ws).1]; rfl
@[simp] theorem Dev.toEventRing_hr_dead (d : Dev) (r : Nat) (ws : List Nat) : (d.toEventRing r ws).hr.dead = d.hr.dead := by rw [(toEventRing_talks d r ws).1]; rfl
@[simp] theorem Dev.toEventRing_hr_vecPend (d : Dev) (r : Nat) (ws : List Nat) : (d.toEventRing r ws).hr.vecPend = d.hr.vecPend := by rw [(toEventRing_talks d r ws).1]; rfl
@[simp] theorem Dev.toEventRing_hr_vecLast (d : Dev) (r : Nat) (ws : List Nat) : (d.toEventRing r ws).hr.vecLast = d.hr.vecLast := by rw [(toEventRing_talks d r ws).1]; rfl
@[simp] theorem Dev.toEventRing_hr_msix (d : Dev) (r : Nat) (ws : List Nat) : (d.toEventRing r ws).hr.msix = d.hr.msix := by rw [(toEventRing_talks d r ws).1]; rfl
@[simp] theorem Dev.toEventRing_hr_skipEvt (d : Dev) (r : Nat) (ws : List Nat) : (d.toEventRing r ws).hr.skipEvt = d.hr.skipEvt := by rw [(toEventRing_talks d r ws).1]; rfl
@[simp] theorem Dev.toEventRing_hr_width (d : Dev) (r : Nat) (ws : List Nat) : (d.toEventRing r ws).hr.width = d.hr.width := by rw [(toEventRing_talks d r ws).1]; rfl
@[simp] theorem Dev.toEventRing_hr_everUp (d : Dev) (r : Nat) (ws : List Nat) : (d.toEventRing r ws).hr.everUp = d.hr.everUp := by rw [(toEventRing_talks d r ws).1]; rfl
@[simp] theorem Dev.toEventRing_hr_trained (d : Dev) (r : Nat) (ws : List Nat) : (d.toEventRing r ws).hr.trained = d.hr.trained := by rw [(toEventRing_talks d r ws).1]; rfl
@[simp] theorem Dev.toEventRing_hr_payload (d : Dev) (r : Nat) (ws : List Nat) : (d.toEventRing r ws).hr.payload = d.hr.payload := by rw [(toEventRing_talks d r ws).1]; rfl
@[simp] theorem Dev.toEventRing_hr_readReq (d : Dev) (r : Nat) (ws : List Nat) : (d.toEventRing r ws).hr.readReq = d.hr.readReq := by rw [(toEventRing_talks d r ws).1]; rfl
@[simp] theorem Dev.toEventRing_hr_bar0 (d : Dev) (r : Nat) (ws : List Nat) : (d.toEventRing r ws).hr.bar0 = d.hr.bar0 := by rw [(toEventRing_talks d r ws).1]; rfl
@[simp] theorem Dev.toEventRing_hr_msixOn (d : Dev) (r : Nat) (ws : List Nat) : (d.toEventRing r ws).hr.msixOn = d.hr.msixOn := by rw [(toEventRing_talks d r ws).1]; rfl
@[simp] theorem Dev.toEventRing_hr_msixMask (d : Dev) (r : Nat) (ws : List Nat) : (d.toEventRing r ws).hr.msixMask = d.hr.msixMask := by rw [(toEventRing_talks d r ws).1]; rfl
@[simp] theorem Dev.toEventRing_hr_msixDue (d : Dev) (r : Nat) (ws : List Nat) : (d.toEventRing r ws).hr.msixDue = d.hr.msixDue := by rw [(toEventRing_talks d r ws).1]; rfl
@[simp] theorem Dev.toEventRing_hr_lossWait (d : Dev) (r : Nat) (ws : List Nat) : (d.toEventRing r ws).hr.lossWait = d.hr.lossWait := by rw [(toEventRing_talks d r ws).1]; rfl
@[simp] theorem Dev.toEventRing_get (d : Dev) (r : Nat) (ws : List Nat) {f : Fld} (hf : ¬ countsTalk f.key) : (d.toEventRing r ws).get f = d.get f :=
  (toEventRing_talks d r ws).2 f (by simp) hf
@[simp] theorem Dev.toEventRing_chan (d : Dev) (r : Nat) (ws : List Nat) (n : Nat) : (d.toEventRing r ws).chan n = d.chan n := by simp [Dev.chan]
@[simp] theorem Dev.toEventRing_slot (d : Dev) (r : Nat) (ws : List Nat) (n : Nat) : (d.toEventRing r ws).slot n = d.slot n := by simp [Dev.slot]
@[simp] theorem Dev.toEventRing_dom (d : Dev) (r : Nat) (ws : List Nat) (n : Nat) : (d.toEventRing r ws).dom n = d.dom n := by simp [Dev.dom]
@[simp] theorem Dev.toEventRing_xing (d : Dev) (r : Nat) (ws : List Nat) (n : Nat) : (d.toEventRing r ws).xing n = d.xing n := by simp [Dev.xing]
@[simp] theorem Dev.notPermitted_free (d : Dev) (c : Cmd) : (d.notPermitted c).free = d.free := by rw [(notPermitted_talks d c).1]; rfl
@[simp] theorem Dev.notPermitted_out (d : Dev) (c : Cmd) : (d.notPermitted c).out = d.out := by rw [(notPermitted_talks d c).1]; rfl
@[simp] theorem Dev.notPermitted_boot (d : Dev) (c : Cmd) : (d.notPermitted c).boot = d.boot := by rw [(notPermitted_talks d c).1]; rfl
@[simp] theorem Dev.notPermitted_force (d : Dev) (c : Cmd) : (d.notPermitted c).force = d.force := by rw [(notPermitted_talks d c).1]; rfl
@[simp] theorem Dev.notPermitted_queue (d : Dev) (c : Cmd) : (d.notPermitted c).queue = d.queue := by rw [(notPermitted_talks d c).1]; rfl
@[simp] theorem Dev.notPermitted_pins (d : Dev) (c : Cmd) : (d.notPermitted c).pins = d.pins := by rw [(notPermitted_talks d c).1]; rfl
@[simp] theorem Dev.notPermitted_hm (d : Dev) (c : Cmd) : (d.notPermitted c).hm = d.hm := by rw [(notPermitted_talks d c).1]; rfl
@[simp] theorem Dev.notPermitted_ledger (d : Dev) (c : Cmd) : (d.notPermitted c).ledger = d.ledger := by rw [(notPermitted_talks d c).1]; rfl
@[simp] theorem Dev.notPermitted_ldgWeak (d : Dev) (c : Cmd) : (d.notPermitted c).ldgWeak = d.ldgWeak := by rw [(notPermitted_talks d c).1]; rfl
@[simp] theorem Dev.notPermitted_tm (d : Dev) (c : Cmd) : (d.notPermitted c).tm = d.tm := by rw [(notPermitted_talks d c).1]; rfl
@[simp] theorem Dev.notPermitted_acq (d : Dev) (c : Cmd) : (d.notPermitted c).acq = d.acq := by rw [(notPermitted_talks d c).1]; rfl
@[simp] theorem Dev.notPermitted_rcd (d : Dev) (c : Cmd) : (d.notPermitted c).rcd = d.rcd := by rw [(notPermitted_talks d c).1]; rfl
@[simp] theorem Dev.notPermitted_mrg (d : Dev) (c : Cmd) : (d.notPermitted c).mrg = d.mrg := by rw [(notPermitted_talks d c).1]; rfl
@[simp] theorem Dev.notPermitted_cross (d : Dev) (c : Cmd) : (d.notPermitted c).cross = d.cross := by rw [(notPermitted_talks d c).1]; rfl
@[simp] theorem Dev.notPermitted_flt (d : Dev) (c : Cmd) : (d.notPermitted c).flt = d.flt := by rw [(notPermitted_talks d c).1]; rfl
@[simp] theorem Dev.notPermitted_hk (d : Dev) (c : Cmd) : (d.notPermitted c).hk = d.hk := by rw [(notPermitted_talks d c).1]; rfl
@[simp] theorem Dev.notPermitted_pw (d : Dev) (c : Cmd) : (d.notPermitted c).pw = d.pw := by rw [(notPermitted_talks d c).1]; rfl
@[simp] theorem Dev.notPermitted_mg_seen (d : Dev) (c : Cmd) : (d.notPermitted c).mg.seen = d.mg.seen := by rw [(notPermitted_talks d c).1]; rfl
@[simp] theorem Dev.notPermitted_mg_execN (d : Dev) (c : Cmd) : (d.notPermitted c).mg.execN = d.mg.execN := by rw [(notPermitted_talks d c).1]; rfl
@[simp] theorem Dev.notPermitted_mg_upRot (d : Dev) (c : Cmd) : (d.notPermitted c).mg.upRot = d.mg.upRot := by rw [(notPermitted_talks d c).1]; rfl
@[simp] theorem Dev.notPermitted_mg_rotPort (d : Dev) (c : Cmd) : (d.notPermitted c).mg.rotPort = d.mg.rotPort := by rw [(notPermitted_talks d c).1]; rfl
@[simp] theorem Dev.notPermitted_mg_attest (d : Dev) (c : Cmd) : (d.notPermitted c).mg.attest = d.mg.attest := by rw [(notPermitted_talks d c).1]; rfl
@[simp] theorem Dev.notPermitted_mg_renumUntil (d : Dev) (c : Cmd) : (d.notPermitted c).mg.renumUntil = d.mg.renumUntil := by rw [(notPermitted_talks d c).1]; rfl
@[simp] theorem Dev.notPermitted_hr_ringOp (d : Dev) (c : Cmd) : (d.notPermitted c).hr.ringOp = d.hr.ringOp := by rw [(notPermitted_talks d c).1]; rfl
@[simp] theorem Dev.notPermitted_hr_sweepOut (d : Dev) (c : Cmd) : (d.notPermitted c).hr.sweepOut = d.hr.sweepOut := by rw [(notPermitted_talks d c).1]; rfl
@[simp] theorem Dev.notPermitted_hr_lastByte (d : Dev) (c : Cmd) : (d.notPermitted c).hr.lastByte = d.hr.lastByte := by rw [(notPermitted_talks d c).1]; rfl
@[simp] theorem Dev.notPermitted_hr_lines (d : Dev) (c : Cmd) : (d.notPermitted c).hr.lines = d.hr.lines := by rw [(notPermitted_talks d c).1]; rfl
@[simp] theorem Dev.notPermitted_hr_reread (d : Dev) (c : Cmd) : (d.notPermitted c).hr.reread = d.hr.reread := by rw [(notPermitted_talks d c).1]; rfl
@[simp] theorem Dev.notPermitted_hr_rrRing (d : Dev) (c : Cmd) : (d.notPermitted c).hr.rrRing = d.hr.rrRing := by rw [(notPermitted_talks d c).1]; rfl
@[simp] theorem Dev.notPermitted_hr_outst (d : Dev) (c : Cmd) : (d.notPermitted c).hr.outst = d.hr.outst := by rw [(notPermitted_talks d c).1]; rfl
@[simp] theorem Dev.notPermitted_hr_dead (d : Dev) (c : Cmd) : (d.notPermitted c).hr.dead = d.hr.dead := by rw [(notPermitted_talks d c).1]; rfl
@[simp] theorem Dev.notPermitted_hr_vecPend (d : Dev) (c : Cmd) : (d.notPermitted c).hr.vecPend = d.hr.vecPend := by rw [(notPermitted_talks d c).1]; rfl
@[simp] theorem Dev.notPermitted_hr_vecLast (d : Dev) (c : Cmd) : (d.notPermitted c).hr.vecLast = d.hr.vecLast := by rw [(notPermitted_talks d c).1]; rfl
@[simp] theorem Dev.notPermitted_hr_msix (d : Dev) (c : Cmd) : (d.notPermitted c).hr.msix = d.hr.msix := by rw [(notPermitted_talks d c).1]; rfl
@[simp] theorem Dev.notPermitted_hr_skipEvt (d : Dev) (c : Cmd) : (d.notPermitted c).hr.skipEvt = d.hr.skipEvt := by rw [(notPermitted_talks d c).1]; rfl
@[simp] theorem Dev.notPermitted_hr_width (d : Dev) (c : Cmd) : (d.notPermitted c).hr.width = d.hr.width := by rw [(notPermitted_talks d c).1]; rfl
@[simp] theorem Dev.notPermitted_hr_everUp (d : Dev) (c : Cmd) : (d.notPermitted c).hr.everUp = d.hr.everUp := by rw [(notPermitted_talks d c).1]; rfl
@[simp] theorem Dev.notPermitted_hr_trained (d : Dev) (c : Cmd) : (d.notPermitted c).hr.trained = d.hr.trained := by rw [(notPermitted_talks d c).1]; rfl
@[simp] theorem Dev.notPermitted_hr_payload (d : Dev) (c : Cmd) : (d.notPermitted c).hr.payload = d.hr.payload := by rw [(notPermitted_talks d c).1]; rfl
@[simp] theorem Dev.notPermitted_hr_readReq (d : Dev) (c : Cmd) : (d.notPermitted c).hr.readReq = d.hr.readReq := by rw [(notPermitted_talks d c).1]; rfl
@[simp] theorem Dev.notPermitted_hr_bar0 (d : Dev) (c : Cmd) : (d.notPermitted c).hr.bar0 = d.hr.bar0 := by rw [(notPermitted_talks d c).1]; rfl
@[simp] theorem Dev.notPermitted_hr_msixOn (d : Dev) (c : Cmd) : (d.notPermitted c).hr.msixOn = d.hr.msixOn := by rw [(notPermitted_talks d c).1]; rfl
@[simp] theorem Dev.notPermitted_hr_msixMask (d : Dev) (c : Cmd) : (d.notPermitted c).hr.msixMask = d.hr.msixMask := by rw [(notPermitted_talks d c).1]; rfl
@[simp] theorem Dev.notPermitted_hr_msixDue (d : Dev) (c : Cmd) : (d.notPermitted c).hr.msixDue = d.hr.msixDue := by rw [(notPermitted_talks d c).1]; rfl
@[simp] theorem Dev.notPermitted_hr_lossWait (d : Dev) (c : Cmd) : (d.notPermitted c).hr.lossWait = d.hr.lossWait := by rw [(notPermitted_talks d c).1]; rfl
@[simp] theorem Dev.notPermitted_get (d : Dev) (c : Cmd) {f : Fld} (hf : ¬ countsTalk f.key) : (d.notPermitted c).get f = d.get f :=
  (notPermitted_talks d c).2 f (by simp) hf
@[simp] theorem Dev.notPermitted_chan (d : Dev) (c : Cmd) (n : Nat) : (d.notPermitted c).chan n = d.chan n := by simp [Dev.chan]
@[simp] theorem Dev.notPermitted_slot (d : Dev) (c : Cmd) (n : Nat) : (d.notPermitted c).slot n = d.slot n := by simp [Dev.slot]
@[simp] theorem Dev.notPermitted_dom (d : Dev) (c : Cmd) (n : Nat) : (d.notPermitted c).dom n = d.dom n := by simp [Dev.dom]
@[simp] theorem Dev.notPermitted_xing (d : Dev) (c : Cmd) (n : Nat) : (d.notPermitted c).xing n = d.xing n := by simp [Dev.xing]
@[simp] theorem Dev.busyAt_free (d : Dev) (c : Cmd) (retry full : Nat) : (d.busyAt c retry full).free = d.free := by rw [(busyAt_talks d c retry full).1]; rfl
@[simp] theorem Dev.busyAt_out (d : Dev) (c : Cmd) (retry full : Nat) : (d.busyAt c retry full).out = d.out := by rw [(busyAt_talks d c retry full).1]; rfl
@[simp] theorem Dev.busyAt_boot (d : Dev) (c : Cmd) (retry full : Nat) : (d.busyAt c retry full).boot = d.boot := by rw [(busyAt_talks d c retry full).1]; rfl
@[simp] theorem Dev.busyAt_force (d : Dev) (c : Cmd) (retry full : Nat) : (d.busyAt c retry full).force = d.force := by rw [(busyAt_talks d c retry full).1]; rfl
@[simp] theorem Dev.busyAt_queue (d : Dev) (c : Cmd) (retry full : Nat) : (d.busyAt c retry full).queue = d.queue := by rw [(busyAt_talks d c retry full).1]; rfl
@[simp] theorem Dev.busyAt_pins (d : Dev) (c : Cmd) (retry full : Nat) : (d.busyAt c retry full).pins = d.pins := by rw [(busyAt_talks d c retry full).1]; rfl
@[simp] theorem Dev.busyAt_hm (d : Dev) (c : Cmd) (retry full : Nat) : (d.busyAt c retry full).hm = d.hm := by rw [(busyAt_talks d c retry full).1]; rfl
@[simp] theorem Dev.busyAt_ledger (d : Dev) (c : Cmd) (retry full : Nat) : (d.busyAt c retry full).ledger = d.ledger := by rw [(busyAt_talks d c retry full).1]; rfl
@[simp] theorem Dev.busyAt_ldgWeak (d : Dev) (c : Cmd) (retry full : Nat) : (d.busyAt c retry full).ldgWeak = d.ldgWeak := by rw [(busyAt_talks d c retry full).1]; rfl
@[simp] theorem Dev.busyAt_tm (d : Dev) (c : Cmd) (retry full : Nat) : (d.busyAt c retry full).tm = d.tm := by rw [(busyAt_talks d c retry full).1]; rfl
@[simp] theorem Dev.busyAt_acq (d : Dev) (c : Cmd) (retry full : Nat) : (d.busyAt c retry full).acq = d.acq := by rw [(busyAt_talks d c retry full).1]; rfl
@[simp] theorem Dev.busyAt_rcd (d : Dev) (c : Cmd) (retry full : Nat) : (d.busyAt c retry full).rcd = d.rcd := by rw [(busyAt_talks d c retry full).1]; rfl
@[simp] theorem Dev.busyAt_mrg (d : Dev) (c : Cmd) (retry full : Nat) : (d.busyAt c retry full).mrg = d.mrg := by rw [(busyAt_talks d c retry full).1]; rfl
@[simp] theorem Dev.busyAt_cross (d : Dev) (c : Cmd) (retry full : Nat) : (d.busyAt c retry full).cross = d.cross := by rw [(busyAt_talks d c retry full).1]; rfl
@[simp] theorem Dev.busyAt_flt (d : Dev) (c : Cmd) (retry full : Nat) : (d.busyAt c retry full).flt = d.flt := by rw [(busyAt_talks d c retry full).1]; rfl
@[simp] theorem Dev.busyAt_hk (d : Dev) (c : Cmd) (retry full : Nat) : (d.busyAt c retry full).hk = d.hk := by rw [(busyAt_talks d c retry full).1]; rfl
@[simp] theorem Dev.busyAt_pw (d : Dev) (c : Cmd) (retry full : Nat) : (d.busyAt c retry full).pw = d.pw := by rw [(busyAt_talks d c retry full).1]; rfl
@[simp] theorem Dev.busyAt_mg_seen (d : Dev) (c : Cmd) (retry full : Nat) : (d.busyAt c retry full).mg.seen = d.mg.seen := by rw [(busyAt_talks d c retry full).1]; rfl
@[simp] theorem Dev.busyAt_mg_execN (d : Dev) (c : Cmd) (retry full : Nat) : (d.busyAt c retry full).mg.execN = d.mg.execN := by rw [(busyAt_talks d c retry full).1]; rfl
@[simp] theorem Dev.busyAt_mg_upRot (d : Dev) (c : Cmd) (retry full : Nat) : (d.busyAt c retry full).mg.upRot = d.mg.upRot := by rw [(busyAt_talks d c retry full).1]; rfl
@[simp] theorem Dev.busyAt_mg_rotPort (d : Dev) (c : Cmd) (retry full : Nat) : (d.busyAt c retry full).mg.rotPort = d.mg.rotPort := by rw [(busyAt_talks d c retry full).1]; rfl
@[simp] theorem Dev.busyAt_mg_attest (d : Dev) (c : Cmd) (retry full : Nat) : (d.busyAt c retry full).mg.attest = d.mg.attest := by rw [(busyAt_talks d c retry full).1]; rfl
@[simp] theorem Dev.busyAt_mg_renumUntil (d : Dev) (c : Cmd) (retry full : Nat) : (d.busyAt c retry full).mg.renumUntil = d.mg.renumUntil := by rw [(busyAt_talks d c retry full).1]; rfl
@[simp] theorem Dev.busyAt_hr_ringOp (d : Dev) (c : Cmd) (retry full : Nat) : (d.busyAt c retry full).hr.ringOp = d.hr.ringOp := by rw [(busyAt_talks d c retry full).1]; rfl
@[simp] theorem Dev.busyAt_hr_sweepOut (d : Dev) (c : Cmd) (retry full : Nat) : (d.busyAt c retry full).hr.sweepOut = d.hr.sweepOut := by rw [(busyAt_talks d c retry full).1]; rfl
@[simp] theorem Dev.busyAt_hr_lastByte (d : Dev) (c : Cmd) (retry full : Nat) : (d.busyAt c retry full).hr.lastByte = d.hr.lastByte := by rw [(busyAt_talks d c retry full).1]; rfl
@[simp] theorem Dev.busyAt_hr_lines (d : Dev) (c : Cmd) (retry full : Nat) : (d.busyAt c retry full).hr.lines = d.hr.lines := by rw [(busyAt_talks d c retry full).1]; rfl
@[simp] theorem Dev.busyAt_hr_reread (d : Dev) (c : Cmd) (retry full : Nat) : (d.busyAt c retry full).hr.reread = d.hr.reread := by rw [(busyAt_talks d c retry full).1]; rfl
@[simp] theorem Dev.busyAt_hr_rrRing (d : Dev) (c : Cmd) (retry full : Nat) : (d.busyAt c retry full).hr.rrRing = d.hr.rrRing := by rw [(busyAt_talks d c retry full).1]; rfl
@[simp] theorem Dev.busyAt_hr_outst (d : Dev) (c : Cmd) (retry full : Nat) : (d.busyAt c retry full).hr.outst = d.hr.outst := by rw [(busyAt_talks d c retry full).1]; rfl
@[simp] theorem Dev.busyAt_hr_dead (d : Dev) (c : Cmd) (retry full : Nat) : (d.busyAt c retry full).hr.dead = d.hr.dead := by rw [(busyAt_talks d c retry full).1]; rfl
@[simp] theorem Dev.busyAt_hr_vecPend (d : Dev) (c : Cmd) (retry full : Nat) : (d.busyAt c retry full).hr.vecPend = d.hr.vecPend := by rw [(busyAt_talks d c retry full).1]; rfl
@[simp] theorem Dev.busyAt_hr_vecLast (d : Dev) (c : Cmd) (retry full : Nat) : (d.busyAt c retry full).hr.vecLast = d.hr.vecLast := by rw [(busyAt_talks d c retry full).1]; rfl
@[simp] theorem Dev.busyAt_hr_msix (d : Dev) (c : Cmd) (retry full : Nat) : (d.busyAt c retry full).hr.msix = d.hr.msix := by rw [(busyAt_talks d c retry full).1]; rfl
@[simp] theorem Dev.busyAt_hr_skipEvt (d : Dev) (c : Cmd) (retry full : Nat) : (d.busyAt c retry full).hr.skipEvt = d.hr.skipEvt := by rw [(busyAt_talks d c retry full).1]; rfl
@[simp] theorem Dev.busyAt_hr_width (d : Dev) (c : Cmd) (retry full : Nat) : (d.busyAt c retry full).hr.width = d.hr.width := by rw [(busyAt_talks d c retry full).1]; rfl
@[simp] theorem Dev.busyAt_hr_everUp (d : Dev) (c : Cmd) (retry full : Nat) : (d.busyAt c retry full).hr.everUp = d.hr.everUp := by rw [(busyAt_talks d c retry full).1]; rfl
@[simp] theorem Dev.busyAt_hr_trained (d : Dev) (c : Cmd) (retry full : Nat) : (d.busyAt c retry full).hr.trained = d.hr.trained := by rw [(busyAt_talks d c retry full).1]; rfl
@[simp] theorem Dev.busyAt_hr_payload (d : Dev) (c : Cmd) (retry full : Nat) : (d.busyAt c retry full).hr.payload = d.hr.payload := by rw [(busyAt_talks d c retry full).1]; rfl
@[simp] theorem Dev.busyAt_hr_readReq (d : Dev) (c : Cmd) (retry full : Nat) : (d.busyAt c retry full).hr.readReq = d.hr.readReq := by rw [(busyAt_talks d c retry full).1]; rfl
@[simp] theorem Dev.busyAt_hr_bar0 (d : Dev) (c : Cmd) (retry full : Nat) : (d.busyAt c retry full).hr.bar0 = d.hr.bar0 := by rw [(busyAt_talks d c retry full).1]; rfl
@[simp] theorem Dev.busyAt_hr_msixOn (d : Dev) (c : Cmd) (retry full : Nat) : (d.busyAt c retry full).hr.msixOn = d.hr.msixOn := by rw [(busyAt_talks d c retry full).1]; rfl
@[simp] theorem Dev.busyAt_hr_msixMask (d : Dev) (c : Cmd) (retry full : Nat) : (d.busyAt c retry full).hr.msixMask = d.hr.msixMask := by rw [(busyAt_talks d c retry full).1]; rfl
@[simp] theorem Dev.busyAt_hr_msixDue (d : Dev) (c : Cmd) (retry full : Nat) : (d.busyAt c retry full).hr.msixDue = d.hr.msixDue := by rw [(busyAt_talks d c retry full).1]; rfl
@[simp] theorem Dev.busyAt_hr_lossWait (d : Dev) (c : Cmd) (retry full : Nat) : (d.busyAt c retry full).hr.lossWait = d.hr.lossWait := by rw [(busyAt_talks d c retry full).1]; rfl
@[simp] theorem Dev.busyAt_get (d : Dev) (c : Cmd) (retry full : Nat) {f : Fld} (hf : ¬ countsTalk f.key) : (d.busyAt c retry full).get f = d.get f :=
  (busyAt_talks d c retry full).2 f (by simp) hf
@[simp] theorem Dev.busyAt_chan (d : Dev) (c : Cmd) (retry full : Nat) (n : Nat) : (d.busyAt c retry full).chan n = d.chan n := by simp [Dev.chan]
@[simp] theorem Dev.busyAt_slot (d : Dev) (c : Cmd) (retry full : Nat) (n : Nat) : (d.busyAt c retry full).slot n = d.slot n := by simp [Dev.slot]
@[simp] theorem Dev.busyAt_dom (d : Dev) (c : Cmd) (retry full : Nat) (n : Nat) : (d.busyAt c retry full).dom n = d.dom n := by simp [Dev.dom]
@[simp] theorem Dev.busyAt_xing (d : Dev) (c : Cmd) (retry full : Nat) (n : Nat) : (d.busyAt c retry full).xing n = d.xing n := by simp [Dev.xing]

/-- Keys outside the lane registers, but for EVT_DROPPED and EGR_POOL, count no messages. -/
theorem notTalk {k : Nat} (h : k < 655360 ∨ 917504 ≤ k)
    (e : k ≠ Reg.HR_DROP_STATS_EVT_DROPPED.key ∧ k ≠ Reg.EGR_POOL_FREE_PAGES.key ∧ k ≠ Reg.EGR_POOL_LOW_WATER.key) : ¬ countsTalk k := by
  rintro ((r | r | r) | ⟨l, hl, r | r | r⟩)
  · exact e.1 r
  · exact e.2.1 r
  · exact e.2.2 r
  all_goals (simp only [Fld.key, Reg.LN_MG_STATS_DROPPED, Reg.LN_MG_STATS_BUSY, Reg.LN_MG_STATS_REFUSED] at r; omega)


end Sys2Proof.Machine
end

