-- ==== Sys2Proof/Laws/Time.lean ====
section
/-! SUPPORT. What the shared operations of system time and of the fault causes can do. -/
namespace Sys2Proof.Machine
open Sys2Proof.Safety

/-- The registers of the domain states count no messages. -/
theorem domStateFld_notTalk (k : Nat) : ¬ countsTalk (domStateFld k).key := by
  apply notTalk <;> unfold domStateFld <;> split <;> decide
theorem domStateFld_width (k : Nat) : (domStateFld k).width = 3 := by unfold domStateFld; split <;> rfl
theorem domStateFld_ne {k : Nat} {f : Fld} (h : f.key ≠ Reg.TIM_STATUS_DOM_A_STATE.key) (h' : f.key ≠ Reg.TIM_STATUS_DOM_B_STATE.key) : f.key ≠ (domStateFld k).key := by
  unfold domStateFld; split <;> assumption
theorem isSource_congr {d e : Dev} {k : Nat} (h : RegsKeep [(domStateFld k).key] d e) (hk : k < 2) : e.isSource k = d.isSource k := by
  have h1 : e.get (Reg.TIM_DOM_CFG_ENABLE k) = d.get (Reg.TIM_DOM_CFG_ENABLE k) := by
    apply h
    · simp; apply domStateFld_ne <;> simp [Fld.key, Reg.TIM_DOM_CFG_ENABLE, Reg.TIM_STATUS_DOM_A_STATE, Reg.TIM_STATUS_DOM_B_STATE] <;> omega
    · apply notTalk <;> simp [Fld.key, Reg.TIM_DOM_CFG_ENABLE, Reg.HR_DROP_STATS_EVT_DROPPED, Reg.EGR_POOL_FREE_PAGES, Reg.EGR_POOL_LOW_WATER] <;> omega
  have h2 : e.get (Reg.TIM_DOM_CFG_PORT k) = d.get (Reg.TIM_DOM_CFG_PORT k) := by
    apply h
    · simp; apply domStateFld_ne <;> simp [Fld.key, Reg.TIM_DOM_CFG_PORT, Reg.TIM_STATUS_DOM_A_STATE, Reg.TIM_STATUS_DOM_B_STATE] <;> omega
    · apply notTalk <;> simp [Fld.key, Reg.TIM_DOM_CFG_PORT, Reg.HR_DROP_STATS_EVT_DROPPED, Reg.EGR_POOL_FREE_PAGES, Reg.EGR_POOL_LOW_WATER] <;> omega
  simp only [Dev.isSource, Dev.flag, h1, h2]

/-- Everything a change of a domain's state does. -/
theorem setDomState_spec (d : Dev) (k st : Nat) (hk : k < 2) (hst : st < 8) (hne : d.domState k ≠ st) :
    (d.setDomState k st).domState k = st ∧ RegsKeep [(domStateFld k).key] d (d.setDomState k st)
    ∧ (∀ j, (d.setDomState k st).dom j = if j = k then { d.dom k with goodRun := 0 } else d.dom j)
    ∧ d.setDomState k st = { talked d (d.setDomState k st) with tm := { d.tm with doms := (d.setDomState k st).tm.doms, pps := { d.tm.pps with lastFn := if d.isSource k = true ∧ (st = 1 ∨ st = 4) then none else d.tm.pps.lastFn } } } := by
  have hs : ((d.set (domStateFld k) st).updDom k fun x => { x with goodRun := 0 }).isSource k = d.isSource k :=
    isSource_congr (regsKeep_set d _ _) hk
  simp only [Dev.setDomState, hne, if_false, Dev.timeEvent, hs]
  cases hc : d.isSource k && (st == 1 || st == 4)
  · have hc' : ¬ (d.isSource k = true ∧ (st = 1 ∨ st = 4)) := by simpa using hc
    simp only [Bool.false_eq_true, if_false, hc']
    refine ⟨?_, ?_, ?_, ?_⟩
    · simp [Dev.domState, domStateFld_notTalk, domStateFld_width]; omega
    · exact regsKeep_trans (regsKeep_set d (domStateFld k) st) ((raiseOpen_talks _ _ _ _).keep _)
    · intro j; simp [Dev.dom_setDom]
    · apply dev_eq; simp [talked, Dev.setDom]
  · have hc' : (d.isSource k = true ∧ (st = 1 ∨ st = 4)) := by simpa using hc
    simp only [if_true, hc', and_self]
    refine ⟨?_, ?_, ?_, ?_⟩
    · simp [Dev.domState, domStateFld_notTalk]
      show (((d.set (domStateFld k) st)).get (domStateFld k)) = st
      simp [domStateFld_width]; omega
    · refine regsKeep_trans (regsKeep_set d (domStateFld k) st) ?_
      exact (raiseOpen_talks { (d.set (domStateFld k) st).updDom k (fun x => { x with goodRun := 0 }) with tm := { ((d.set (domStateFld k) st).updDom k (fun x => { x with goodRun := 0 })).tm with pps := _ } } _ _ _).keep _
    · intro j; simp [Dev.dom, Dev.setDom, getT_putT]
    · apply dev_eq; simp [talked, Dev.setDom]

/-- Raising a cause bit: it is set, BEYOND_MODEL with it, and otherwise the device only talks. -/
theorem breach_spec (d : Dev) (f : Fld) (hw : f.width = 1) (hf : ¬ countsTalk f.key) (hb : f.key ≠ Reg.FLT_STATUS_BEYOND_MODEL.key) :
    (d.breach f).flag f = true ∧ RegsKeep [f.key, Reg.FLT_STATUS_BEYOND_MODEL.key] d (d.breach f) ∧ d.breach f = talked d (d.breach f) := by
  unfold Dev.breach
  split
  · exact ⟨‹_›, regsKeep_refl _ _, rfl⟩
  · refine ⟨?_, ?_, ?_⟩
    · simp [Dev.flag, hf, Dev.setBeyond, Dev.get_set_ne _ hb, hw, b2n]
    · intro g h1 h2
      simp only [List.mem_cons, List.not_mem_nil, or_false, not_or] at h1
      simp [h2, Dev.setBeyond, Dev.get_set_ne _ h1.1, Dev.get_set_ne _ h1.2]
    · apply dev_eq; simp [talked, Dev.setBeyond]

/-- The two-domain breach, by its own field. -/
theorem bothDomains_spec (d : Dev) :
    (d.domState 0 = 4 ∨ d.domState 0 = 5 → d.domState 1 = 4 ∨ d.domState 1 = 5 → d.bothDomains.flag Reg.FLT_STATUS_BOTH_DOMAINS = true)
    ∧ RegsKeep [Reg.FLT_STATUS_BOTH_DOMAINS.key, Reg.FLT_STATUS_BEYOND_MODEL.key] d d.bothDomains ∧ d.bothDomains = talked d d.bothDomains := by
  have hb := breach_spec d Reg.FLT_STATUS_BOTH_DOMAINS rfl (notTalk (by decide) (by decide)) (by decide)
  unfold Dev.bothDomains
  split
  · exact ⟨fun _ _ => hb.1, hb.2⟩
  · rename_i h
    exact ⟨fun a b => absurd ⟨a, b⟩ h, regsKeep_refl _ _, rfl⟩

end Sys2Proof.Machine
end

