-- ==== Sys2Proof/Tests/Witness.lean ====
section
/-! SUPPORT. For each statement with hypotheses, a concrete state and operands that meet them together, one conjunct for each of its clauses
(in the statement's order). The states are a running device of a role with a few things set. -/
open Sys2Proof Sys2Proof.Machine Sys2Proof.Safety Reg
set_option linter.unusedVariables false

namespace Sys2Proof.Tests

set_option Elab.async false

/-- A state with its device changed. -/
def onD (f : Dev → Dev) (s : State) : State := { s with dev := f s.dev }
/-- A running device of role `r` (0 front-end, 1 cell, 2 hub), numbered 291, 77 s and 1,234 frames into its time. -/
def base (r : Nat) : State :=
  { State.reset with pending := [.refclkLost],
                     dev := ((({ State.reset.dev with boot := .running,
                                                      tm := { State.reset.dev.tm with clk := { State.reset.dev.tm.clk with sec := 77, fs := 1234 } } }.set Reg.GLB_ROLE_STATUS_ACTIVE_ROLE r).setBoth Reg.GLB_DEVICE_NUMBER_DEVNUM 291).setBoth Reg.GLB_DEVICE_NUMBER_VALID 1) }
/-- The upward queue full. -/
def full (s : State) : State :=
  onD (fun d => { d with mg := { d.mg with ownQ := List.replicate 40 ⟨3,0,0,0,[],63,0⟩ } }.setBoth (Reg.LN_CTRL_ENABLE 2) 1) s
/-- The device as a hub with its event ring running. -/
def hub (s : State) : State :=
  onD (fun d => ((d.set Reg.GLB_ROLE_STATUS_ACTIVE_ROLE 2).set Reg.HR_EVT_CFG_EVENT_RING 7).setRing 7 { Ring.init with st := 1, typ := 3, log2 := 4 }) s
/-- Register fields set, in force and as read. -/
def st (l : List (Fld × Nat)) (s : State) : State := onD (fun d => l.foldl (fun d p => d.setBoth p.1 p.2) d) s
/-- The first state of a list. -/
def pick (l : List State) (i : Nat) : State := l.getD i State.reset

/-! ### Witnesses: the queue, the step, and the write gate -/

namespace Front

def cm (src : Source) (ws : List Nat) : Cmd :=
  { src := src, port := 3, origin := 9, ring := 5, seq := 77, w := wordsOf (ws ++ List.replicate (8 - ws.length) 0) }
def bt (b : Boot) (s : State) := onD (fun d => { d with boot := b }) s

theorem wit_WellFormedCommandsComplete :
    (∃ (c : Instr) (rest : List Instr) (s : State), c.wf = true ∧ s.pending = c :: rest)
    ∧ (∃ (c : Instr) (i n : Nat), unitOf c = some (i, n) ∧ n ≤ i)
    ∧ (∃ (c : Instr) (f : Fault) (s : State), exec c s = .fault f)
    ∧ (∃ (c : Instr) (s t : State), exec c s = .next t)
    ∧ (∃ s t : State, step s = .next t) :=
  ⟨⟨.refclkLost, [], base 0, by decide +kernel⟩,
    ⟨.slowLockAcquired 48, 48, 48, by decide +kernel⟩,
    ⟨.slowLockAcquired 48, .noSuchUnit, base 0, rfl⟩,
    ⟨.refclkReturn, State.reset, State.reset, rfl⟩,
    ⟨State.reset, State.reset, rfl⟩⟩

theorem wit_EccStaysCanonical : ∃ s t : State, EccCanonical s ∧ step s = .next t :=
  ⟨State.reset, State.reset, by decide +kernel, rfl⟩

theorem wit_AntifusesOnlyBlowAndOnlyUnderSealing :
    (∃ s t : State, step s = .next t)
    ∧ (∃ (c : Instr) (s t : State), exec c s = .next t ∧ (blowsFuses c = false ∨ s.dev.hm.sealing = false)) :=
  ⟨⟨State.reset, State.reset, rfl⟩,
    ⟨.refclkReturn, State.reset, State.reset, rfl, .inl rfl⟩⟩

theorem wit_StepRunsTheFrontCommand :
    (∃ (c : Instr) (rest : List Instr) (s : State), s.pending = c :: rest)
    ∧ (∃ (s : State), s.pending = []) :=
  ⟨⟨.refclkLost, [], base 0, by decide +kernel⟩,
    ⟨State.reset, by decide +kernel⟩⟩

theorem wit_DeniedWriteIsOnlyCounted :
    (∃ (c : Instr) (src : Source) (a : ℕ) (s : State),
     writeOf c = some (src, a) ∧ c.wf = true ∧ s.dev.open? src a = true ∧ s.dev.mayWrite src a = false)
    ∧ (∃ (c : Cmd) (op : ℕ) (g : ℕ) (i : Instr) (s : State), s.dev.up = true ∧ s.dev.hasSource c = true ∧ g < 16 ∧ (i = Instr.read c ∧ op = 1
      ∨ i = Instr.write c ∧ op = 2 ∨ i = Instr.trigger c ∧ op = 3 ∨ i = Instr.cancel c ∧ op = 4 ∨ i = Instr.release c ∧ op = 16 ∨ i = Instr.assign c
      ∧ op = 18) ∧ s.dev.denial (cmdWithOp c op) = some g) :=
  ⟨⟨(.registerWrite .downLane 0x1018 5#32), Source.downLane, 0x1018, (base 0), by decide +kernel⟩,
    ⟨(cm .downLane [0]), 3, 15, (.trigger (cm .downLane [0])), (base 1), by decide +kernel⟩⟩

theorem wit_WhoMayWrite :
    (∃ (c : Instr) (src : Source) (a : ℕ) (s : State), writeOf c = some (src, a) ∧ c.wf = true ∧ s.dev.open? src a = false)
    ∧ (∃ (d : Dev) (a : ℕ), d.role ≠ Role.hub)
    ∧ (∃ (d : Dev) (src : Source) (a : ℕ), d.boot = Boot.held)
    ∧ (∃ (d : Dev) (a : ℕ), 53264 ≤ a ∧ a ≤ 53276) :=
  ⟨⟨(.registerWrite .spi 0x1018 5#32), Source.spi, 0x1018, bt .held (base 0), by decide +kernel⟩,
    ⟨(base 0).dev, 0x1018, by decide +kernel⟩,
    ⟨(bt .held (base 0)).dev, Source.spi, 0xD010, by decide +kernel⟩,
    ⟨(base 0).dev, 0xD010, by decide +kernel⟩⟩

end Front

/-! ### Witnesses: system time -/

namespace Clock

/-- `u` is `n` / 65536 rounded to the nearest, halves away from zero. -/
abbrev near (u n : Int) : Prop :=
  (0 ≤ n → 65536 * u ≤ n + 32768 ∧ n + 32768 < 65536 * u + 65536) ∧ (n < 0 → 65536 * u - 65536 < n - 32768 ∧ n - 32768 ≤ 65536 * u)
/-- The integrator after an update with error `e`. -/
abbrev newInteg (d : Dev) (e : Int) : Int :=
  max (-(d.get TIM_SERVO_LIMITS_SLEW_LIMIT : Int) * 65536)
    (min (d.tm.integ + (d.eff TIM_SERVO_KI_KI : Int) * e) ((d.get TIM_SERVO_LIMITS_SLEW_LIMIT : Int) * 65536))

def bothDoms : State :=
  st [(TIM_STATUS_DOM_A_STATE, 2), (TIM_STATUS_DOM_B_STATE, 4), (TIM_DOM_CFG_ENABLE 0, 1), (TIM_DOM_CFG_PORT 0, 63)] (onD (fun d => d.updDom 0 fun x => { x with goodRun := 20, idle := 3000000 }) (base 0))
def lk (n : Nat) : State :=
  onD (fun d => { d with tm := { d.tm with lockRun := n, lockPend := true }, pins := { d.pins with refPresent := true } }.updDom 1 fun x => { x with refined := true }) (st [(TIM_STATUS_SELECTED, 1), (TIM_STATUS_DOM_B_STATE, 3), (TIM_STATUS_CLK_STATE, 2)] (base 0))
def stp (l : List (Fld × Nat)) : State := st l (base 0)
def wt (x y : Nat) (sel : Nat) (f : Nat) : State :=
  onD (fun d => { d with tm := { d.tm with watch := some ⟨x, 5, f, y, true⟩ } }) (st [(TIM_STATUS_ASYM_WATCH, 1), (TIM_STATUS_SELECTED, sel),
                                                                                      (TIM_STATUS_DOM_A_STATE, 3), (TIM_STATUS_DOM_B_STATE, 3)] (base 0))
def pps (f : Option Nat) (m : List Tod) : State :=
  onD (fun d => { d with tm := { d.tm with pps := { d.tm.pps with lastFn := f, msgs := m } } }) (st [(TIM_DOM_CFG_ENABLE 1, 1), (TIM_DOM_CFG_PORT 1, 63), (TIM_STATUS_DOM_B_STATE, 2), (TIM_SRC_CFG_DOMAIN_ID, 5), (TIM_PPS_CORR_PPS_CORR, 2^32-700)] (base 0))
def td (f : Nat) : Tod := ⟨77, 3, 4, 9, f⟩
def lend (e : Nat) : State :=
  onD (fun d => d.updChan 46 fun c => { c with lastE := if e = 0 then none else some e }) (st [(CH_TDC_STATUS_SLOW_LOCK 46, 1), (CH_TDC_STATUS_FAST_LOCK 46, 1), (CH_TDC_STATUS_LIN_VALID 46, 1), (TDC_LEND_LEND_B, 46)] (pps (some 76001230) []))
def srv (slew kp ki : Nat) (integ : Int) : State :=
  onD (fun d => { d with tm := { d.tm with integ := integ, lockRun := 7 } }) (st [(TIM_CTRL_SERVO_EN, 1), (TIM_STATUS_CLK_STATE, 2),
                                                                                  (TIM_SERVO_LIMITS_SLEW_LIMIT, slew), (TIM_SERVO_KP_KP, kp),
                                                                                  (TIM_SERVO_KI_KI, ki)] (base 0))
def tod : State := st [(TIM_SRC_CFG_TOD_EN, 1)] (base 0)
def msg0 : List Byte := [0xC7, 1, 5, 6, 7, 8, 9, 10, 6, 2, 0xfe, 0xff]
def msg : List Byte := msg0 ++ (wordBytes (crc32c (msg0.map BitVec.toNat))).map (BitVec.ofNat 8)
def txq (n : Nat) : State := onD (fun d => { d with tm := { d.tm with txq := (List.range n).map fun i => ⟨i+300, i+2, 2^32+i, 2^33+5⟩ } }) (base 0)
def prefs : List State :=
  [base 0, st [(TIM_STATUS_DOM_B_STATE, 3)] (base 0), st [(TIM_STATUS_DOM_B_STATE, 2), (TIM_STATUS_DOM_A_STATE, 4)] (base 0),
   st [(TIM_STATUS_DOM_B_STATE, 3), (TIM_STATUS_DOM_A_STATE, 4)] (base 0), onD (fun d => { d with tm := { d.tm with swPend := some 1 } }) (base 0)]
def doms : List State :=
  [base 0, st [(TIM_DOM_CFG_ENABLE 1, 1), (TIM_DOM_CFG_PORT 1, 63), (TIM_STATUS_DOM_B_STATE, 2)] (base 1),
   st [(TIM_DOM_CFG_ENABLE 1, 1), (TIM_DOM_CFG_PORT 1, 2), (TIM_STATUS_DOM_B_STATE, 2)] (base 0),
  st [(TIM_DOM_CFG_ENABLE 1, 1), (TIM_DOM_CFG_PORT 1, 3), (TIM_STATUS_DOM_B_STATE, 4), (TIM_DOM_CFG_ENABLE 0, 1), (TIM_DOM_CFG_PORT 0, 63)] (wt 1 3 4 5)]

theorem wit_DomainAndClockStates :
    (∃ (k : ℕ) (s : State), k < 2 ∧ s.dev.up = true ∧ s.dev.domState k = 2 ∧ (if s.dev.isSource k = true then 4 else 16) ≤ (s.dev.dom k).goodRun)
    ∧ (∃ (k : ℕ) (s : State), k < 2 ∧ s.dev.up = true ∧ (s.dev.domState k = 2 ∨ s.dev.domState k = 3) ∧ s.dev.lostAfter k ≤ (s.dev.dom k).idle)
    ∧ (∃ (s : State), s.dev.up = true ∧ s.dev.clkState = 2)
    ∧ (∃ (d : Dev), d.clkState = 2 ∧ d.selected < 2 ∧ d.domState d.selected = 3 ∧ (d.dom d.selected).refined = true ∧ d.tm.lockPend = true
      ∧ d.tm.swPend = none ∧ d.flag TIM_CTRL_HOLD_REQ = false ∧ (∀ (w : Watch), d.tm.watch = some w → w.held = false) ∧ d.pins.refPresent = true
      ∧ 16 ≤ d.tm.lockRun)
    ∧ (∃ (d : Dev), d.clkState = 2 ∧ d.selected < 2 ∧ d.domState d.selected = 3 ∧ (d.dom d.selected).refined = true ∧ d.tm.lockPend = true
      ∧ d.tm.swPend = none ∧ d.flag TIM_CTRL_HOLD_REQ = false ∧ (∀ (w : Watch), d.tm.watch = some w → w.held = false) ∧ d.pins.refPresent = true
      ∧ d.tm.lockRun < 16)
    ∧ (∃ (p : ℕ) (s : State), s.dev.up = true ∧ s.dev.get TIM_CTRL_PREFER = p ∧ (s.dev.clkState = 0 ∨ s.dev.clkState = 1) ∧ (s.dev.domState p = 2
      ∨ s.dev.domState p = 3))
    ∧ (∃ (p : ℕ) (s : State), s.dev.up = true ∧ s.dev.get TIM_CTRL_PREFER = p ∧ (s.dev.clkState = 0 ∨ s.dev.clkState = 1) ∧ ¬(s.dev.domState p = 2
      ∨ s.dev.domState p = 3) ∧ (s.dev.domState (1 - p) = 2 ∨ s.dev.domState (1 - p) = 3))
    ∧ (∃ (s : State), 1 < s.dev.clkState) :=
  ⟨⟨0, bothDoms, by decide +kernel⟩,
    ⟨0, bothDoms, by decide +kernel⟩,
    ⟨(lk 16), by decide +kernel⟩,
    ⟨(lk 16).dev, by decide +kernel⟩,
    ⟨(lk 15).dev, by decide +kernel⟩,
    ⟨1, (stp [(TIM_CTRL_PREFER, 1), (TIM_STATUS_DOM_B_STATE, 3)]), by decide +kernel⟩,
    ⟨1, (stp [(TIM_CTRL_PREFER, 1), (TIM_STATUS_DOM_A_STATE, 3)]), by decide +kernel⟩,
    ⟨lk 15, by decide +kernel⟩⟩

theorem wit_AsymmetryWatchVerdicts :
    (∃ (w : Watch) (s : State), s.dev.tm.watch = some w ∧ w.x < 2 ∧ s.dev.up = true ∧ 64 ≤ w.yRun)
    ∧ (∃ (w : Watch) (s : State), s.dev.tm.watch = some w ∧ w.x < 2 ∧ s.dev.up = true ∧ w.yRun < 64 ∧ w.fn + s.dev.window < s.dev.fn)
    ∧ (∃ (src : Source) (a : Bool) (b : Bool) (s : State), Passes s.dev src 4176) :=
  ⟨⟨⟨1, 5, 3, 64, true⟩, wt 1 64 1 3, by decide +kernel⟩,
    ⟨⟨1, 5, 3, 6, true⟩, (wt 1 6 0 3), by decide +kernel⟩,
    ⟨.spi, true, true, (stp [(TIM_STATUS_DOM_A_STATE, 5),(TIM_STATUS_DOM_B_STATE, 5)]), by decide +kernel⟩⟩

theorem wit_ServoRegistersAndUpdate :
    (∃ (src : Source) (v : Word) (a : ℕ) (f : Fld) (s : State), (a = 4120 ∧ f = TIM_SERVO_KP_KP ∨ a = 4124 ∧ f = TIM_SERVO_KI_KI) ∧ Passes s.dev src a)
    ∧ (∃ (fs : Fuses) (ecc : List (ℕ × ℕ)) (src : Source) (v : Word) (a : ℕ) (f : Fld) (d : Dev), a = 4120 ∧ f = TIM_SERVO_KP_KP ∨ a = 4124
      ∧ f = TIM_SERVO_KI_KI)
    ∧ (∃ (src : Source) (v : Word) (s : State), Passes s.dev src 4128)
    ∧ (∃ (d : Dev) (i : Option Int) (w : Int), d.flag TIM_CTRL_SERVO_EN = true ∧ near w d.tm.integ ∧ (i = none ∨ d.servoHolds = true))
    ∧ (∃ (d : Dev) (e : Int) (w : Int), d.flag TIM_CTRL_SERVO_EN = true ∧ d.servoHolds = false
      ∧ near w ((d.eff TIM_SERVO_KP_KP : Int) * e * 256 + newInteg d e) ∧ -(d.get TIM_SERVO_LIMITS_SLEW_LIMIT : Int) ≤ -w
      ∧ -w ≤ d.get TIM_SERVO_LIMITS_SLEW_LIMIT)
    ∧ (∃ (d : Dev) (e : Int) (w : Int), d.flag TIM_CTRL_SERVO_EN = true ∧ d.servoHolds = false
      ∧ near w ((d.eff TIM_SERVO_KP_KP : Int) * e * 256 + newInteg d e) ∧ -w < -(d.get TIM_SERVO_LIMITS_SLEW_LIMIT : Int))
    ∧ (∃ (d : Dev) (e : Int) (w : Int), d.flag TIM_CTRL_SERVO_EN = true ∧ d.servoHolds = false
      ∧ near w ((d.eff TIM_SERVO_KP_KP : Int) * e * 256 + newInteg d e) ∧ (d.get TIM_SERVO_LIMITS_SLEW_LIMIT : Int) < -w)
    ∧ (∃ (d : Dev) (c : ℕ), 0 < d.tm.clk.cyc ∧ c < d.tm.clk.cyc) :=
  ⟨⟨.spi, 0xFFFF1234, 0x1018, Reg.TIM_SERVO_KP_KP, (base 0), by decide +kernel⟩,
    ⟨(base 0).fuses, [], .spi, 0xFFFF1234, 0x101C, Reg.TIM_SERVO_KI_KI, (base 0).dev, by decide +kernel⟩,
    ⟨.spi, 0xFFFFFFFF, (base 0), by decide +kernel⟩,
    ⟨(srv 6553 128 4096 1310720).dev, none, 20, by decide +kernel⟩,
    ⟨(srv 6553 128 4096 1310720).dev, 700, 414, by decide +kernel⟩,
    ⟨(srv 100 128 4096 1310720).dev, 700, 414, by decide +kernel⟩,
    ⟨(srv 100 128 4096 (-1310720)).dev, (-700), (-414), by decide +kernel⟩,
    ⟨(srv 100 128 4096 1310720).dev, 17, by decide +kernel⟩⟩

theorem wit_PpsEdges :
    (∃ (k : ℕ) (cyc : ℕ) (j : ℕ) (code : ℕ) (rising : Bool) (s : State), (k = 0 ∨ k = 1 ∧ s.dev.isSource 0 = false) ∧ s.dev.up = true
      ∧ s.dev.isSource k = true ∧ rising ≠ s.dev.flag TIM_SRC_CFG_PPS_POL ∧ s.dev.lenderOk (s.dev.lender k) = false ∧ s.dev.tm.pps.lastFn = none
      ∧ s.dev.tm.pps.msgs = [])
    ∧ (∃ (k : ℕ) (cyc : ℕ) (j : ℕ) (code : ℕ) (rising : Bool) (s : State) (f : ℕ), (k = 0 ∨ k = 1 ∧ s.dev.isSource 0 = false) ∧ s.dev.up = true
      ∧ s.dev.isSource k = true ∧ rising ≠ s.dev.flag TIM_SRC_CFG_PPS_POL ∧ s.dev.lenderOk (s.dev.lender k) = false ∧ s.dev.tm.pps.lastFn = some f
      ∧ ¬(f + 999900 ≤ s.dev.fn ∧ s.dev.fn ≤ f + 1000100))
    ∧ (∃ (k : ℕ) (cyc : ℕ) (j : ℕ) (code : ℕ) (rising : Bool) (s : State) (f : ℕ), (k = 0 ∨ k = 1 ∧ s.dev.isSource 0 = false) ∧ s.dev.up = true
      ∧ s.dev.isSource k = true ∧ rising ≠ s.dev.flag TIM_SRC_CFG_PPS_POL ∧ s.dev.lenderOk (s.dev.lender k) = false ∧ s.dev.tm.pps.lastFn = some f
      ∧ f + 999900 ≤ s.dev.fn ∧ s.dev.fn ≤ f + 1000100 ∧ s.dev.tm.pps.msgs = [] ∧ s.dev.get TIM_SRC_CFG_DOMAIN_ID ≠ 0 ∧ (s.dev.domState k = 2
      ∨ s.dev.domState k = 3))
    ∧ (∃ (k : ℕ) (cyc : ℕ) (j : ℕ) (code : ℕ) (rising : Bool) (s : State) (m : Tod), (k = 0 ∨ k = 1 ∧ s.dev.isSource 0 = false) ∧ s.dev.up = true
      ∧ s.dev.isSource k = true ∧ rising ≠ s.dev.flag TIM_SRC_CFG_PPS_POL ∧ s.dev.lenderOk (s.dev.lender k) = false ∧ s.dev.tm.pps.lastFn = none
      ∧ s.dev.tm.pps.msgs = [m])
    ∧ (∃ (k : ℕ) (cyc : ℕ) (j : ℕ) (code : ℕ) (rising : Bool) (s : State) (f : ℕ) (n : ℕ),
       (k = 0 ∨ k = 1 ∧ s.dev.isSource 0 = false) ∧ s.dev.up = true
      ∧ s.dev.isSource k = true ∧ rising ≠ s.dev.flag TIM_SRC_CFG_PPS_POL ∧ n = s.dev.lender k ∧ s.dev.lenderOk n = true ∧ code < 128
      ∧ s.dev.tm.pps.lastFn = some f ∧ f + 999900 ≤ s.dev.fn ∧ s.dev.fn ≤ f + 1000100 ∧ s.dev.tm.pps.msgs = [] ∧ s.dev.get TIM_SRC_CFG_DOMAIN_ID ≠ 0
      ∧ (s.dev.domState k = 2 ∨ s.dev.domState k = 3)) :=
  ⟨⟨1, 17, 3, 9, true, pps none [], by decide +kernel⟩,
    ⟨1, 17, 3, 9, true, (pps (some 5) []), 5, by decide +kernel⟩,
    ⟨1, 17, 3, 9, true, (pps (some 76001230) []), 76001230, by decide +kernel⟩,
    ⟨1, 17, 3, 9, true, pps none [td 76991234], (td 76991234), by decide +kernel⟩,
    ⟨1, 17, 3, 9, true, lend 0, 76001230, 46, by decide +kernel⟩⟩

theorem wit_TodMessages :
    (∃ (bytes : List Byte) (s : State), s.dev.up = true ∧ s.dev.flag TIM_SRC_CFG_TOD_EN = true ∧ s.dev.tm.pps.buf.length + bytes.length < 16)
    ∧ (∃ (b : List Byte) (s : State), s.dev.up = true ∧   s.dev.flag TIM_SRC_CFG_TOD_EN = true ∧     s.dev.tm.pps.buf = [] ∧       b.length = 16
      ∧         (∀ (f : ℕ), s.dev.tm.pps.edgeFn = some f → f + 50000 ≤ s.dev.fn)
      ∧           have n := List.map BitVec.toNat b;           nth n 0 = 199 ∧ nth n 1 = 1
      ∧ nth n 12 + 256 * nth n 13 + 65536 * nth n 14 + 16777216 * nth n 15 = crc32c (List.take 12 n))
    ∧ (∃ (b : List Byte) (s : State), s.dev.up = true ∧   s.dev.flag TIM_SRC_CFG_TOD_EN = true ∧     s.dev.tm.pps.buf = [] ∧       b.length = 16
      ∧         have n := List.map BitVec.toNat b;         nth n 0 ≠ 199 ∨ nth n 1 ≠ 1
      ∨ nth n 12 + 256 * nth n 13 + 65536 * nth n 14 + 16777216 * nth n 15 ≠ crc32c (List.take 12 n) ∨ ∃ f, s.dev.tm.pps.edgeFn = some f
      ∧ s.dev.fn < f + 50000) :=
  ⟨⟨[1,2], tod, by decide +kernel⟩,
    ⟨msg, tod, by decide +kernel⟩,
    ⟨(msg0 ++ [0,0,0,0]), tod, by decide +kernel⟩⟩

theorem wit_TimeStampsAreTakenOut :
    (∃ (src : Source) (e : TxqE) (q : List TxqE) (s : State), Passes s.dev src 4240 ∧ s.dev.tm.txq = e :: q)
    ∧ (∃ (src : Source) (s : State), Passes s.dev src 4240 ∧ s.dev.tm.txq = [])
    ∧ (∃ (cyc : ℕ) (s : State), s.dev.up = true ∧ 0 ≤ s.dev.edge cyc ∧ s.dev.edge cyc < 2 ^ 48 * 65536000000000) :=
  ⟨⟨.spi, ⟨300, 2, 2^32, 2^33+5⟩, [⟨301, 3, 2^32+1, 2^33+5⟩, ⟨302, 4, 2^32+2, 2^33+5⟩], (txq 3), by decide +kernel⟩,
    ⟨.spi, (txq 0), by decide +kernel⟩,
    ⟨249, base 0, by decide +kernel⟩⟩

theorem wit_TimeControlWrites :
    (∃ (src : Source) (v : Word) (s : State), Passes s.dev src 4096)
    ∧ (∃ (src : Source) (b : Bool) (s : State), Passes s.dev src 4096)
    ∧ (∃ (src : Source) (s : State), Passes s.dev src 4096)
    ∧ (∃ (src : Source) (k : ℕ) (v : Word) (s : State), k < 2 ∧ Passes s.dev src (4144 + 4 * k)) :=
  ⟨⟨.spi, 0x0001F04F, (pick (prefs) 0), by decide +kernel⟩,
    ⟨.spi, true, (pick (prefs) 0), by decide +kernel⟩,
    ⟨.spi, (pick (prefs) 0), by decide +kernel⟩,
    ⟨.spi, 1, (w32 (0x0B070040 + 63)), (pick (doms) 0), by decide +kernel⟩⟩

end Clock

/-! ### Witnesses: bring-up, reset and the hallmark -/

namespace Boot

/-- A device that waits for its role, with strap `k`, self-test `t` and the roles of mask `p` permitted. -/
def waits (k : Nat) (t : SelfTest) (p : Nat) : State :=
  onD (fun d => { d.set GLB_ROLE_STATUS_PERMITTED p with boot := .waiting, pins := { d.pins with strap := k, refPresent := true },
                                                         hm := { d.hm with test := t } }) State.reset

def rw : List State := [base 0, base 1, base 2, st [(HM_STATUS_SEALED, 1)] (base 0)]
def sealedF (s : State) : State := { s with fuses := (((s.fuses.blow 140 1).blow 128 0x9).blow 129 0x70) }
def offs : List State :=
  [State.reset, sealedF State.reset, onD (fun d => { d with pins := { d.pins with strap := 5, refPresent := false }, ledger := [(3,4)] }) State.reset]
def boot1 (r : Nat) (t : SelfTest) (s : State) : State :=
  match exec (.vinValid t) (onD (fun d => { d with pins := { d.pins with strap := r } }) s) with | .next t => t | _ => s
def noref (s : State) : State := onD (fun d => { d with pins := { d.pins with refPresent := false, refLostFn := some 5 } }) s
def wait0 : State := boot1 0 SelfTest.clean State.reset
def relk : State := onD (fun d => { d with pins := { d.pins with refRelock := true, refLostFn := some 5 } }) (base 0)
def prg (l : List (Fld × Nat)) : State := st l (st [(PWR_INPUT_VIN_MV, 12000), (PWR_THERM_STATUS_T_J, 400)] (base 0))
def sealS : State :=
  onD (fun d => { d with hm := { d.hm with sealing := true, stage := [(0, 9), (5, 0xFFFFFFFF)] } }) (st [(HM_PROG_CTRL_BUSY, 1)] (base 0))

theorem wit_GlobalWritesWaitForTheBoundary :
    (∃ (src : Source) (v : Word) (s : State), Passes s.dev src 260 ∧ (s.dev.role = Role.frontEnd ∧ BitVec.toNat v % 16 = 0 ∨ s.dev.role = Role.cell
      ∧ BitVec.toNat v % 256 = 0))
    ∧ (∃ (src : Source) (v : Word) (s : State), Passes s.dev src 260 ∧ ¬(s.dev.role = Role.frontEnd ∧ BitVec.toNat v % 16 = 0 ∨ s.dev.role = Role.cell
      ∧ BitVec.toNat v % 256 = 0))
    ∧ (∃ (src : Source) (v : Word) (s : State), Passes s.dev src 264) :=
  ⟨⟨.spi, 0xFFFFFF00, base 0, by decide +kernel⟩,
    ⟨.upLane, 0x00000103, base 0, by decide +kernel⟩,
    ⟨.upLane, 0x00010103, base 0, by decide +kernel⟩⟩

theorem wit_RegisterWrites :
    (∃ (src : Source) (v : Word) (s : State) (a : ℕ), s.dev.role.usesReg (wholeAddr a) = false ∧ Passes s.dev src (wholeAddr a))
    ∧ (∃ (src : Source) (v : Word) (s : State), Passes s.dev src 28)
    ∧ (∃ (src : Source) (v : Word) (s : State), Passes s.dev src 4192)
    ∧ (∃ (src : Source) (v : Word) (s : State), Passes s.dev src 4100)
    ∧ (∃ (src : Source) (v : Word) (s : State), Passes s.dev src 53264)
    ∧ (∃ (src : Source) (v : Word) (s : State), s.dev.role = Role.frontEnd)
    ∧ (∃ (src : Source) (v : Word) (s : State) (k : ℕ), s.dev.role = Role.frontEnd ∧ k < 4)
    ∧ (∃ (src : Source) (v : Word) (s : State) (l : ℕ), l < 48 ∧ s.dev.role.usesLane l = true)
    ∧ (∃ (src : Source) (v : Word) (s : State), s.dev.role ≠ Role.frontEnd ∧ s.dev.role ≠ Role.noRole)
    ∧ (∃ (src : Source) (v : Word) (s : State), s.dev.role = Role.hub)
    ∧ (∃ (src : Source) (v : Word) (s : State), bitOf (BitVec.toNat v) 0 = true) :=
  ⟨⟨.spi, 0x30, base 0, 0x9000, by decide +kernel⟩,
    ⟨.spi, 0x30, base 0, by decide +kernel⟩,
    ⟨.spi, 0x12345, base 0, by decide +kernel⟩,
    ⟨.spi, 0x1000, base 0, by decide +kernel⟩,
    ⟨.spi, 0x4007, base 0, by decide +kernel⟩,
    ⟨.spi, 0x1234567, base 0, by decide +kernel⟩,
    ⟨.spi, 0x1234567, base 0, 2, by decide +kernel⟩,
    ⟨.spi, 0x1237567, base 0, 2, by decide +kernel⟩,
    ⟨.spi, 0x1234567, base 1, by decide +kernel⟩,
    ⟨.spi, 0x1234567, base 2, by decide +kernel⟩,
    ⟨.spi, 0x1234567, (pick (rw) 0), by decide +kernel⟩⟩

theorem wit_PowerUpReadsTheHallmark :
    ∃ (c : Instr) (test : SelfTest) (s : State), c = Instr.vinValid test ∧ s.dev.boot = Boot.off ∨ c = Instr.nresetRelease test
      ∧ s.dev.boot = Boot.resetHeld :=
  ⟨(.vinValid ⟨3, 5, 7, true, false⟩), ⟨3, 5, 7, true, false⟩, (pick (offs) 0), by decide +kernel⟩

theorem wit_LossOfPowerAndReset :
    ∃ (c : Instr) (k : ℕ) (s : State), s.dev.boot ≠ Boot.off ∧ (c = Instr.converterStop k ∨ c = Instr.railLimitTrip k ∨ c = Instr.nresetAssert k) :=
  ⟨(.converterStop 4), 4, base 0, by decide +kernel⟩

theorem wit_RoleFixedTakesOrRefusesTheRole :
    (∃ (s : State) (r : ℕ),
     s.dev.boot = Boot.waiting ∧ s.dev.pins.refPresent = true ∧ r = s.dev.pins.strap % 4 ∧ (s.dev.flag HM_STATUS_CRC_FAIL = true
      ∨ r = 3 ∨ bitOf (s.dev.get GLB_ROLE_STATUS_PERMITTED) r = false))
    ∧ (∃ (s : State) (r : ℕ), s.dev.boot = Boot.waiting ∧ s.dev.pins.refPresent = true ∧ r = s.dev.pins.strap % 4 ∧ r ≠ 3
      ∧ s.dev.flag HM_STATUS_CRC_FAIL = false ∧ bitOf (s.dev.get GLB_ROLE_STATUS_PERMITTED) r = true ∧ (s.dev.hm.test.smallMem = true
      ∨ s.dev.hm.test.core = true))
    ∧ (∃ (s : State) (r : ℕ), s.dev.boot = Boot.waiting ∧ s.dev.pins.refPresent = true ∧ r = s.dev.pins.strap % 4 ∧ r ≠ 3
      ∧ s.dev.flag HM_STATUS_CRC_FAIL = false ∧ bitOf (s.dev.get GLB_ROLE_STATUS_PERMITTED) r = true ∧ s.dev.hm.test.smallMem = false
      ∧ s.dev.hm.test.core = false ∧ s.dev.hm.test.banks = 0) :=
  ⟨⟨waits 3 SelfTest.clean 7, 3, by decide +kernel⟩,
    ⟨waits 2 ⟨0, 5, 7, false, true⟩ 7, 2, by decide +kernel⟩,
    ⟨waits 0 ⟨0, 5, 7, false, false⟩ 7, 0, by decide +kernel⟩⟩

theorem wit_ReferenceClockAndStraps :
    (∃ (s : State), s.dev.boot = Boot.waiting ∧ s.dev.pins.refPresent = false)
    ∧ (∃ (s : State), s.dev.boot = Boot.waiting ∧ s.dev.pins.refPresent = true)
    ∧ (∃ (s : State), s.dev.boot = Boot.running ∧ s.dev.pins.refPresent = true)
    ∧ (∃ (f : ℕ) (s : State), s.dev.boot = Boot.running ∧ s.dev.pins.refPresent = false ∧ s.dev.pins.refLostFn = some f)
    ∧ (∃ (s : State), s.dev.boot = Boot.running ∧ s.dev.pins.refRelock = true)
    ∧ (∃ (v : ℕ) (s : State), s.dev.boot ≠ Boot.off ∧ s.dev.boot ≠ Boot.resetHeld) :=
  ⟨⟨noref wait0, by decide +kernel⟩,
    ⟨wait0, by decide +kernel⟩,
    ⟨(base 0), by decide +kernel⟩,
    ⟨5, noref (base 0), by decide +kernel⟩,
    ⟨relk, by decide +kernel⟩,
    ⟨7, (base 0), by decide +kernel⟩⟩

theorem wit_StagingProgramAndSealing :
    (∃ (src : Source) (v : Word) (s : State), Passes s.dev src 53268 ∧ s.dev.flag HM_STATUS_RWL_LOCKED = false ∧ s.dev.get HM_PROG_ADDR_WORD ≤ 10)
    ∧ (∃ (src : Source) (s : State), Passes s.dev src 53276 ∧ s.dev.flag HM_PROG_CTRL_BUSY = false)
    ∧ (∃ (src : Source) (s : State), Passes s.dev src 53276 ∧ s.dev.flag HM_PROG_CTRL_BUSY = true)
    ∧ (∃ (s : State), s.dev.hm.sealing = true)
    ∧ (∃ (b : Bool) (s : State), s.dev.hm.sealing = false) :=
  ⟨⟨.spi, 0x12345678, base 0, by decide +kernel⟩,
    ⟨.spi, prg [], by decide +kernel⟩,
    ⟨.spi, st [(HM_PROG_CTRL_BUSY, 1)] (base 0), by decide +kernel⟩,
    ⟨sealS, by decide +kernel⟩,
    ⟨true, base 0, by decide +kernel⟩⟩

end Boot

/-! ### Witnesses: calibration and edge timing -/

namespace Calib

def on (l : List Nat) (s : State) : State := st ((l.map fun n => (PWR_CH_STATE n, 2))) s
def acqS (n : Nat) (s : State) : State := onD (fun d => d.updChan n fun c => { c with acquiring := true }) (on [n] s)
def cal (n : Nat) (s : State) :=
  onD (fun d => { (d.updChan n fun c => { c with calFn := some 9, acquiring := false }) with acq := { (d.updChan n fun c => { c with calFn := some 9, acquiring := false }).acq with fgFn := some 9, fgBoot := [n] } }) (st [(CH_STATUS_CAL_ACTIVE n, 1)] (on [n] s))
def sc : SubCal := ⟨4194304, 5, -7, 30⟩
def bgS := acqS 5 (st [(CH_CAL_STATUS_FG_DONE, 1), (CH_BG_CFG_BG_EN, 1)] (base 0))
def lk (n : Nat) (s : State) :=
  st [(CH_TDC_STATUS_SLOW_LOCK n, 1), (CH_TDC_STATUS_FAST_LOCK n, 1), (CH_DISC_EDGE n, 3), (CH_TDC_COUNTS_UNAVAIL n, 4095),
      (CH_TDC_COUNTS_BUSY n, 65535)] (acqS n s)
def lkd (n : Nat) (s : State) := onD (fun d => d.updChan n fun c => { c with linDue := false, lastE := some 1000 }) (lk n s)
def hit1 : Hit := ⟨true, 5, 0, 9, .converting 123456⟩
def cv (s : State) := onD (fun d => d.updChan 4 fun c => { c with hits := [⟨true, 5, 0, 9, .busy⟩, hit1, hit1] }) (lkd 4 s)
def chks (a b : Nat) (s : State) :=
  onD (fun d => d.updChan 4 fun c => { c with checks := List.replicate a true ++ List.replicate b false, lockLost := true }) (st [(CH_TDC_STATUS_SLOW_LOCK 4, 1)] (on [4] s))
def lr (s : State) := onD (fun d => { d with acq := { d.acq with linRun := [(2,5),(4,7),(9,9)] } }) (st [(TDC_CAL_STATUS_ACTIVE, 1)] (lk 4 s))
def sd :=
  onD (fun d => { d with acq := { d.acq with stat := ⟨-7, 90, -300, 12, none, [], []⟩ } }) (st [(TDC_STAT_STATUS_RUNNING, 1), (TDC_STAT_CTRL_K, 2), (TDC_STAT_STATUS_COUNT, 4)] (base 0))
def ld :=
  st [(TIM_DOM_CFG_ENABLE 1, 1), (TIM_DOM_CFG_PORT 1, 40), (LN_STATUS_LSTATE 40, 4), (CH_TDC_STATUS_LIN_VALID 1, 1)] (onD (fun d => d.updDom 1 fun x => { x with phN := 300, phSum := -5000 }) (lk 1 (base 1)))
def rf := onD (fun d => d.updDom 1 fun x => { x with phMean := some 77 }) ld
def rg :=
  onD (fun d => d.updDom 0 fun x => { x with phase := some 77, refined := true }) (st [(TIM_DOM_CFG_ENABLE 0, 1), (TIM_DOM_CFG_PORT 0, 40)] (base 1))

theorem wit_ForegroundCalibration :
    (∃ (r : ℕ) (s : State),
     s.dev.up = true ∧ s.dev.role = Role.frontEnd ∧ s.dev.acq.fgDue = some r ∧ r + 1000 * s.dev.get CH_CAL_CTRL_FG_WAIT ≤ s.dev.fn)
    ∧ (∃ (n : ℕ) (r : ℕ) (s : State), n < 48 ∧ s.dev.up = true ∧ s.dev.role = Role.frontEnd ∧ (s.dev.chan n).fgDue = some r
      ∧ r + 1000 * s.dev.laterWait ≤ s.dev.fn ∧ s.dev.chanIsOn n = true ∧ s.dev.flag (CH_STATUS_CAL_ACTIVE n) = false)
    ∧ (∃ (r : CalResult) (f : ℕ) (s : State), r.n < 48 ∧ s.dev.up = true ∧ (s.dev.chan r.n).calFn = some f ∧ f + 160000 ≤ s.dev.fn) :=
  ⟨⟨5, onD (fun d => { d with acq := { d.acq with fgDue := some 5 } }) (acqS 3 (acqS 7 (base 0))), by decide +kernel⟩,
    ⟨3, 5, onD (fun d => (d.updChan 3 fun c => { c with fgDue := some 5 })) (acqS 3 (acqS 7 (base 0))), by decide +kernel⟩,
    ⟨⟨9, 4194304, -300, 4200000, 77, 20000, 100, List.replicate 9 sc, List.replicate 9 sc⟩, 9, (cal 9 (acqS 3 (base 0))), by decide +kernel⟩⟩

theorem wit_RecalibrationRequests :
    (∃ (src : Source) (q : ℕ) (force : Bool) (s : State), Passes s.dev src 11264 ∧ s.dev.role = Role.frontEnd)
    ∧ (∃ (src : Source) (s : State), Passes s.dev src 11264 ∧ s.dev.role = Role.frontEnd)
    ∧ (∃ (n : ℕ) (high : Bool) (diff : ℤ) (gl : ℕ) (ol : ℤ) (sub : SubCal) (b : Bg) (s : State), n < 48 ∧ s.dev.up = true
      ∧ s.dev.flag CH_CAL_STATUS_FG_DONE = true ∧ s.dev.flag CH_BG_CFG_BG_EN = true ∧ s.dev.pw.throttle = false ∧ (s.dev.chan n).acquiring = true
      ∧ gl < 2 ^ 24 ∧ ol.natAbs < 2 ^ 19 ∧ (b = if high = true then (s.dev.chan n).bgH else (s.dev.chan n).bgL)
      ∧ b.slotFn + 1000 * max 1 (s.dev.get CH_BG_CFG_SLOT_MS) ≤ s.dev.fn + 1 ∧ b.swap = none) :=
  ⟨⟨.spi, 0x10F3, true, base 0, by decide +kernel⟩,
    ⟨.spi, base 0, by decide +kernel⟩,
    ⟨5, false, 4, 88, (-7), sc, (bgS.dev.chan 5).bgL, bgS, by decide +kernel⟩⟩

theorem wit_DiscriminatorHits :
    (∃ (n : ℕ) (cyc : ℕ) (j : ℕ) (rising : Bool) (lo : ℤ) (hi : ℤ) (thr : ℤ) (h : ℤ) (armR : Bool) (armF : Bool) (s : State), n < 48 ∧ s.dev.up = true
      ∧ s.dev.role = Role.frontEnd ∧ (s.dev.chan n).acquiring = true ∧ thr = s.dev.effI (CH_DISC_THRESH n) ∧ h = 4 * ↑(s.dev.eff (CH_DISC_HYST n))
      ∧ armR = ((s.dev.chan n).armR || decide (lo < thr - h)) ∧ armF = ((s.dev.chan n).armF || decide (thr + h < hi))
      ∧ ((if rising = true then armR else armF) && bitOf (s.dev.eff (CH_DISC_EDGE n)) (if rising = true then 0 else 1)) = true)
    ∧ (∃ (n : ℕ) (cyc : ℕ) (j : ℕ) (rising : Bool) (lo : ℤ) (hi : ℤ) (thr : ℤ) (h : ℤ) (armR : Bool) (armF : Bool) (s : State),
       n < 48 ∧ s.dev.up = true
      ∧ s.dev.role = Role.frontEnd ∧ (s.dev.chan n).acquiring = true ∧ thr = s.dev.effI (CH_DISC_THRESH n) ∧ h = 4 * ↑(s.dev.eff (CH_DISC_HYST n))
      ∧ armR = ((s.dev.chan n).armR || decide (lo < thr - h)) ∧ armF = ((s.dev.chan n).armF || decide (thr + h < hi))
      ∧ ((if rising = true then armR else armF) && bitOf (s.dev.eff (CH_DISC_EDGE n)) (if rising = true then 0 else 1)) = false) :=
  ⟨⟨4, 7, 3, true, (-90000), 90000, ((lk 4 (base 0)).dev.effI (CH_DISC_THRESH 4)), (4*(lk 4 (base 0)).dev.eff (CH_DISC_HYST 4)), true, true,
    lk 4 (base 0), by decide +kernel⟩,
    ⟨4, 77, 3, true, 90000, 90000, ((lk 4 (base 0)).dev.effI (CH_DISC_THRESH 4)), (4*(lk 4 (base 0)).dev.eff (CH_DISC_HYST 4)), false, true,
     lk 4 (base 0), by decide +kernel⟩⟩

theorem wit_ConversionsEnd :
    (∃ (n : ℕ) (k : ℕ) (h : Hit) (e : ℤ) (s : State), n < 48 ∧ k < 128 ∧ s.dev.up = true ∧ List.find? Hit.running (s.dev.chan n).hits = some h
      ∧ h.st = HitState.converting e)
    ∧ (∃ (n : ℕ) (s : State), n < 48 ∧ s.dev.up = true ∧ (s.dev.chan n).hits.any Hit.running = true) :=
  ⟨⟨4, 55, hit1, 123456, cv (base 0), by decide +kernel⟩,
    ⟨4, (cv (base 0)), by decide +kernel⟩⟩

theorem wit_OscillatorLocks :
    (∃ (n : ℕ) (s : State), n < 48 ∧ s.dev.up = true ∧ s.dev.chanOn n = true ∧ s.dev.flag (CH_TDC_STATUS_SLOW_LOCK n) = false)
    ∧ (∃ (c : Instr) (forced : Bool) (n : ℕ) (cyc : ℕ) (early : Bool) (s : State), n < 48 ∧ s.dev.up = true ∧ s.dev.chanOn n = true
      ∧ s.dev.flag (CH_TDC_STATUS_SLOW_LOCK n) = true ∧ (c = Instr.fastLockCheck n early cyc ∧ forced = false
      ∧ s.dev.idleFor n (s.dev.edgeCount cyc) = true ∨ c = Instr.forcedLockCheck n early ∧ forced = true ∧ cyc = 0
      ∧ (s.dev.chan n).lastCheck + 64 ≤ s.dev.fn))
    ∧ (∃ (n : ℕ) (slow : Bool) (s : State), n < 48 ∧ s.dev.up = true
      ∧ s.dev.flag (if slow = true then CH_TDC_STATUS_SLOW_LOCK n else CH_TDC_STATUS_FAST_LOCK n) = true ∧ (slow = true
      ∨ List.count true (s.dev.chan n).checks < 24 ∨ List.count false (s.dev.chan n).checks < 24)) :=
  ⟨⟨4, (on [4] (base 0)), by decide +kernel⟩,
    ⟨(.fastLockCheck 4 false 9), false, 4, 9, false, (chks 40 23 (base 0)), by decide +kernel⟩,
    ⟨4, true, (st [(CH_TDC_STATUS_FAST_LOCK 4, 1)] (chks 40 24 (base 0))), by decide +kernel⟩⟩

theorem wit_LinearityCalibration :
    (∃ (n : ℕ) (s : State),
     n < 48 ∧ s.dev.up = true ∧ s.dev.chanOn n = true ∧ s.dev.tdcLocked n = true ∧ s.dev.flag (CH_TDC_STATUS_LIN_ACTIVE n) = false
      ∧ ((s.dev.chan n).linDue = true ∨ (s.dev.chan n).linWant = true))
    ∧ (∃ (n : ℕ) (f : ℕ) (h : List ℕ) (s : State), n < 48 ∧ s.dev.up = true ∧ List.find? (fun p => p.1 == n) s.dev.acq.linRun = some (n, f)
      ∧ f + 100000 ≤ s.dev.fn)
    ∧ (∃ (src : Source) (q : ℕ) (s : State), Passes s.dev src 11280) :=
  ⟨⟨4, lk 4 (base 0), by decide +kernel⟩,
    ⟨4, 7, (List.replicate 128 8192), (lr (base 0)), by decide +kernel⟩,
    ⟨.spi, 0x1803, base 0, by decide +kernel⟩⟩

theorem wit_IntervalStatistics :
    (∃ (src : Source) (v : Word) (s : State), Passes s.dev src 11312 ∧ s.dev.role = Role.frontEnd)
    ∧ (∃ (src : Source) (s : State), Passes s.dev src 11312 ∧ s.dev.role = Role.frontEnd)
    ∧ (∃ (s : State), s.dev.up = true ∧ s.dev.flag TDC_STAT_STATUS_RUNNING = true
      ∧ 2 ^ min 20 (s.dev.get TDC_STAT_CTRL_K) ≤ s.dev.get TDC_STAT_STATUS_COUNT) :=
  ⟨⟨.spi, 0x12345678, base 0, by decide +kernel⟩,
    ⟨.spi, base 0, by decide +kernel⟩,
    ⟨sd, by decide +kernel⟩⟩

theorem wit_LentConversionsAverage :
    (∃ (k : ℕ) (cyc : ℕ) (j : ℕ) (code : ℕ) (n : ℕ) (s : State),
     k < 2 ∧ n = s.dev.lender k ∧ s.dev.up = true ∧ s.dev.flag (TIM_DOM_CFG_ENABLE k) = true
      ∧ s.dev.get (TIM_DOM_CFG_PORT k) ≠ 63 ∧ s.dev.lenderOk n = true ∧ code < 128 ∧ s.dev.lstate (s.dev.get (TIM_DOM_CFG_PORT k)) = 4
      ∧ (s.dev.lendsLane (1 - k) n = false ∨ ∀ (p : ℕ × ℕ), (s.dev.chan n).lent = some p → p.1 ≠ k) ∧ (s.dev.lentFull n = true
      ∧ s.dev.tdcIdle n (s.dev.edgeCount cyc + ↑j) = true ∨ s.dev.lentFull n = false ∧ s.dev.tdcIdle n (s.dev.edgeCount 200) = true
      ∧ s.dev.edgeCount 200 ≤ s.dev.edgeCount cyc + ↑j ∧ s.dev.edgeCount cyc + ↑j ≤ s.dev.edgeCount 200 + 16
      ∧ ∀ (p : ℕ × ℕ), (s.dev.chan n).lent = some p → p.2 ≠ s.dev.fn))
    ∧ (∃ (k : ℕ) (s : State), k < 2 ∧ s.dev.up = true ∧ 2 ^ min 20 (s.dev.get TIM_CTRL_PHASE_AVG_K) ≤ (s.dev.dom k).phN)
    ∧ (∃ (k : ℕ) (d : Dev), d.flag (TIM_DOM_CFG_ENABLE k) = true ∧ d.lenderOk (d.lender k) = true ∧ (d.dom k).phMean.isSome = true
      ∧ d.lstate (d.get (TIM_DOM_CFG_PORT k)) = 4)
    ∧ (∃ (l : ℕ) (raw : ℤ) (d : Dev) (p : ℤ), d.flag (TIM_DOM_CFG_ENABLE 0) = true ∧ d.get (TIM_DOM_CFG_PORT 0) = l ∧ (d.dom 0).refined = true
      ∧ (d.dom 0).phase = some p) :=
  ⟨⟨1, 17, 5, 99, 1, ld, by decide +kernel⟩,
    ⟨1, ld, by decide +kernel⟩,
    ⟨1, rf.dev, by decide +kernel⟩,
    ⟨40, 1000, rg.dev, 77, by decide +kernel⟩⟩

end Calib

/-! ### Witnesses: triggers, masks, streams and channel power -/

namespace Trig

def smps (f : Nat → Int) : List Sample := (List.range 2500).map fun k => ⟨f k, false, false, false, false⟩
def fs (s : State) (fo : List (Nat × Nat)) : FStat :=
  { fn := s.dev.fn, base := 1000, cyc := 250, exc := 0, u := 0, clkState := 3, selected := 0, stepped := false, force := fo, env := [], anchor := [],
    acq := [4,5], accept := [4,5], calib := [], age := 0, dead := [], reasons := 0, refused := none, nHit := 0, nStream := 0, nLoss := 0, nDrop := 0,
    nDup := 0, judged := false, ports := [], summed := false, gone := false }
def fo : List (Nat × Nat) :=
  [(CH_TRGA_CTRL_TYPE 4, 1), (CH_TRGA_CTRL_DIR 4, 1), (CH_TRGA_CTRL_CAPTURE_EN 4, 1), (CH_TRGA_LEVEL_LEVEL 4, 100), (CH_CAPTURE_LEN_DIV8 4, 20),
   (CH_CAPTURE_PRE 4, 40)].map fun p => (p.1.key, p.2)
def b0 := base 0
def tr (caps : List Cap) (since : Int) (fo : List (Nat × Nat)) : State :=
  onD (fun d => { (d.updChan 4 fun c => { c with acquiring := true,
                                                 ring := [⟨d.fn, 1000, 0, 250, 0, smps fun k => if 300 ≤ k ∧ k < 500 then 2000 else -2000⟩],
                                                 since := since, merged := 3500, caps := caps }) with acq := { (d.updChan 4 fun c => { c with acquiring := true, ring := [⟨d.fn, 1000, 0, 250, 0, smps fun k => if 300 ≤ k ∧ k < 500 then 2000 else -2000⟩], since := since, merged := 3500, caps := caps }).acq with fstats := [fs b0 fo] }, rcd := { d.rcd with startFn := some 0, pool := 256 } }) b0
def fi0 := b0.dev.fn % 2^32
def cap (x last : Int) (ext off : Bool) (stage : Nat) : Cap :=
  { start := x - 20, last := last, x := x, fn := b0.dev.fn, xi := 0, srcB := false, ua := true, ub := false, kind := 1, quality := 1, tx := none,
    tdc := none, fused := 0, post := 140, extend := ext, exts := [], more := 0, deadFrom := some (x+1), refs := [], off := off, cut := false,
    stage := stage }
def ds (n r : Nat) : State :=
  onD (fun d => { d with acq := { d.acq with dead := [(25, 0x123456789ABC)] } }) (st [(TRG_DEAD_SEL_CHAN, n), (TRG_DEAD_SEL_REASON, r)] b0)
def mk (q e p : Nat) :=
  onD (fun d => { d with acq := { d.acq with envS := [(77, 5), ((2*q+e)*512+p, 9)], envA := [(4*512, 3)], commit := 5, rearm := 6,
                                             stops := [⟨1, 3, 4, none⟩, ⟨7, 3, 4, none⟩] } }) (st [(TRG_MASK_ADDR_QUAD, q), (TRG_MASK_ADDR_ENV, e), (TRG_MASK_ADDR_POINT, p), (TRG_MASK_CFG_STOPPED 1, 1)] b0)
def sl := st [(CH_CTRL_ENABLE 7, 1), (GLB_ROLE_CFG_UPLINK_MASK, 15)] b0
def dr := st [(PWR_CH_STATE 4, 4), (CH_TDC_STATUS_SLOW_LOCK 4, 1)] (tr [] 0 fo)
def drl := st [(TIM_DOM_CFG_ENABLE 1, 1), (TDC_LEND_LEND_B, 4)] dr
def pwd (c k : Nat) (s : State) := onD (fun d => { d with pw := { d.pw with startFn := [(3, 5), (c, d.fn - k)], ramp := [c] } }) s

theorem wit_TriggerDecisions :
    (∃ (n : ℕ) (fi : ℕ) (x : ℕ) (f : FStat) (s : State), n < 48 ∧ TriggerReady s.dev n fi x f ∧ s.dev.fires f n false (f.base + ↑x) = none
      ∧ s.dev.fires f n true (f.base + ↑x) = none)
    ∧ (∃ (n : ℕ) (fi : ℕ) (x : ℕ) (f : FStat) (s : State), n < 48 ∧ TriggerReady s.dev n fi x f ∧ ((s.dev.fires f n false (f.base + ↑x)).isSome = true
      ∧ (f.unit n false).cap = true ∨ (s.dev.fires f n true (f.base + ↑x)).isSome = true ∧ (f.unit n true).cap = true)
      ∧ (s.dev.chan n).since ≤ f.base + ↑x - ↑(f.capPre n) ∧ (s.dev.chan n).capMet (f.base + ↑x) = none)
    ∧ (∃ (n : ℕ) (fi : ℕ) (x : ℕ) (f : FStat) (k : Cap) (s : State), n < 48 ∧ TriggerReady s.dev n fi x f
      ∧ ((s.dev.fires f n false (f.base + ↑x)).isSome = true ∧ (f.unit n false).cap = true ∨ (s.dev.fires f n true (f.base + ↑x)).isSome = true
      ∧ (f.unit n true).cap = true) ∧ (s.dev.chan n).since ≤ f.base + ↑x - ↑(f.capPre n) ∧ (s.dev.chan n).capMet (f.base + ↑x) = some k
      ∧ (k.last < f.base + ↑x ∨ k.extend = false ∨ k.last = k.start + 8191 ∨ k.stage = 2))
    ∧ (∃ (n : ℕ) (fi : ℕ) (x : ℕ) (f : FStat) (s : State), n < 48 ∧ TriggerReady s.dev n fi x f ∧ ((s.dev.fires f n false (f.base + ↑x)).isSome = true
      ∧ (f.unit n false).cap = true ∨ (s.dev.fires f n true (f.base + ↑x)).isSome = true ∧ (f.unit n true).cap = true)
      ∧ f.base + ↑x - ↑(f.capPre n) < (s.dev.chan n).since)
    ∧ (∃ (n : ℕ) (fi : ℕ) (x : ℕ) (f : FStat) (k : Cap) (s : State), n < 48 ∧ TriggerReady s.dev n fi x f
      ∧ ((s.dev.fires f n false (f.base + ↑x)).isSome = true ∧ (f.unit n false).cap = true ∨ (s.dev.fires f n true (f.base + ↑x)).isSome = true
      ∧ (f.unit n true).cap = true) ∧ (s.dev.chan n).since ≤ f.base + ↑x - ↑(f.capPre n) ∧ (s.dev.chan n).capMet (f.base + ↑x) = some k
      ∧ k.extend = true ∧ f.base + ↑x ≤ k.last ∧ k.last ≠ k.start + 8191 ∧ k.stage ≠ 2) :=
  ⟨⟨4, fi0, 299, (fs b0 fo), tr [] 0 fo, by decide +kernel⟩,
    ⟨4, fi0, 300, (fs b0 fo), tr [] 0 fo, by decide +kernel⟩,
    ⟨4, fi0, 300, (fs b0 fo), (cap 1290 1295 false false 1), tr [cap 1290 1295 false false 1] 0 fo, by decide +kernel⟩,
    ⟨4, fi0, 300, (fs b0 fo), tr [cap 1290 1345 true true 2] 1261 fo, by decide +kernel⟩,
    ⟨4, fi0, 300, (fs b0 fo), (cap 1290 1345 true false 0), tr [cap 1290 1345 true false 0] 0 fo, by decide +kernel⟩⟩

theorem wit_CapturesCloseAndDeadCountsRead :
    (∃ (n : ℕ) (k : Cap) (s : State), n < 48 ∧ s.dev.up = true ∧ List.find? (fun c => c.stage == 0) (s.dev.chan n).caps = some k
      ∧ k.last < (s.dev.chan n).merged)
    ∧ (∃ (s : State), s.dev.up = true) :=
  ⟨⟨4, (cap 1290 1345 true false 0), tr [cap 1000 1010 false false 1, cap 1290 1345 true false 0] 0 fo, by decide +kernel⟩,
    ⟨ds 6 1, by decide +kernel⟩⟩

theorem wit_MaskEnvelopes :
    (∃ (src : Source) (v : Word) (s : State), FrontEndWrite s.dev src 13988 ∧ s.dev.get TRG_MASK_ADDR_QUAD < 12)
    ∧ (∃ (src : Source) (v : Word) (s : State), FrontEndWrite s.dev src 13988 ∧ 12 ≤ s.dev.get TRG_MASK_ADDR_QUAD)
    ∧ (∃ (src : Source) (q : ℕ) (s : State), FrontEndWrite s.dev src 13992)
    ∧ (∃ (src : Source) (q : ℕ) (s : State), q < 12 ∧ FrontEndWrite s.dev src (13888 + 4 * q))
    ∧ (∃ (d : Dev) (q : ℕ) (lower : Bool) (p : ℕ), q < 12 ∧ p < 512) :=
  ⟨⟨.spi, 0x1F3F3, mk 3 1 511, by decide +kernel⟩,
    ⟨.spi, 0x1F3F3, mk 12 1 511, by decide +kernel⟩,
    ⟨.spi, 0xF012, mk 12 1 511, by decide +kernel⟩,
    ⟨.spi, 3, mk 12 1 511, by decide +kernel⟩,
    ⟨(mk 2 0 5).dev, 2, false, 5, by decide +kernel⟩⟩

theorem wit_StreamSlotsWithinTheBudget :
    (∃ (src : Source) (k : ℕ) (v : Word) (s : State), k < 4 ∧ Passes s.dev src (14080 + 8 * k) ∧ s.dev.role ≠ Role.frontEnd)
    ∧ (∃ (src : Source) (k : ℕ) (v : Word) (s : State), k < 4 ∧ FrontEndWrite s.dev src (14080 + 8 * k)
      ∧ s.dev.budgetReason k (slotCfg (BitVec.toNat v)) = 0)
    ∧ (∃ (src : Source) (k : ℕ) (v : Word) (s : State), k < 4 ∧ FrontEndWrite s.dev src (14080 + 8 * k)
      ∧ s.dev.budgetReason k (slotCfg (BitVec.toNat v)) ≠ 0)
    ∧ (∃ (d : Dev) (k : ℕ) (c : SlotCfg), d.role = Role.frontEnd ∧ k < 4 ∧ d.budgetReason k c = 0 ∧ c.enable = true) :=
  ⟨⟨.spi, 2, 0, base 1, by decide +kernel⟩,
    ⟨.spi, 2, (BitVec.ofNat 32 (1 + 7*2 + 1*128 + 200*65536)), sl, by decide +kernel⟩,
    ⟨.spi, 2, (BitVec.ofNat 32 (1 + 7*2 + 1*128 + 20*65536)), sl, by decide +kernel⟩,
    ⟨(st [(CH_DEC_LOG2D 7, 4)] sl).dev, 2, (slotCfg (1 + 7*2 + 1*128 + 200*65536)), by decide +kernel⟩⟩

theorem wit_ChannelsEnableDisableAndDrain :
    (∃ (src : Source) (n : ℕ) (on : Bool) (s : State), n < 48 ∧ FrontEndWrite s.dev src (8192 + 64 * n))
    ∧ (∃ (n : ℕ) (s : State), n < 48 ∧ s.dev.up = true ∧ s.dev.chState n = 4 ∧ s.dev.chanHasRecords n = false ∧ s.dev.lends n = true)
    ∧ (∃ (n : ℕ) (s : State), n < 48 ∧ s.dev.up = true ∧ s.dev.chState n = 4 ∧ s.dev.chanHasRecords n = false ∧ s.dev.lends n = false) :=
  ⟨⟨.spi, 7, false, b0, by decide +kernel⟩,
    ⟨4, drl, by decide +kernel⟩,
    ⟨4, dr, by decide +kernel⟩⟩

theorem wit_DomainsEnterService :
    (∃ (c : ℕ) (s : State), c < 60 ∧ s.dev.poweredFor c 20 = false)
    ∧ (∃ (n : ℕ) (s : State), n < 48 ∧ s.dev.up = true ∧ s.dev.poweredFor n 20 = true ∧ s.dev.chState n = 1)
    ∧ (∃ (q : ℕ) (s : State), q < 12 ∧ s.dev.up = true ∧ s.dev.poweredFor (48 + q) 20 = true ∧ s.dev.get (PWR_DOM_LQ q) = 1)
    ∧ (∃ (m : ℕ) (s : State), m < 4 ∧ s.dev.up = true ∧ s.dev.poweredFor (60 + m) 283 = true ∧ (s.dev.get (PWR_DOM_MD m) = 1
      ∨ s.dev.get (PWR_DOM_MD m) = 2))
    ∧ (∃ (src : Source) (v : Word) (s : State), Passes s.dev src 40976) :=
  ⟨⟨4, pwd 4 19 b0, by decide +kernel⟩,
    ⟨4, (st [(PWR_CH_STATE 4, 1), (CH_CTRL_ENABLE 4, 1)] (pwd 4 20 b0)), by decide +kernel⟩,
    ⟨4,
     (st [(PWR_DOM_LQ 4, 1), (LN_CTRL_ENABLE 17, 1), (LN_CTRL_ENABLE 18, 1), (LN_STATUS_LSTATE 18, 3), (LN_CTRL_ENABLE 20, 1)] (pwd 52 20 (base 1))),
     by decide +kernel⟩,
    ⟨2, onD (fun d => d) { st [(PWR_DOM_MD 2, 2)] (pwd 62 283 b0) with ecc := [(5, 1), (1048576, 7), (1572863, 6), (1572864, 8)] }, by decide +kernel⟩,
    ⟨.spi, 0x37, b0, by decide +kernel⟩⟩

end Trig

/-! ### Witnesses: records, compression and the record FIFO -/

namespace Recs

def smps (f : Nat → Int) (p : Nat → Bool) : List Sample := (List.range 2500).map fun k => ⟨f k, false, false, false, p k⟩
def b0 := base 0
def fs (fn age : Nat) : FStat :=
  { fn := fn, base := 1000, cyc := 250, exc := 0, u := 0, clkState := 3, selected := 0, stepped := false, force := [], env := [], anchor := [],
    acq := [4,5], accept := [4,5], calib := [], age := age, dead := [(3,7)], reasons := 0, refused := none, nHit := 0, nStream := 0, nLoss := 0,
    nDrop := 0, nDup := 0, judged := false, ports := [], summed := false, gone := false }
def cap (x last : Int) (ext off : Bool) (stage : Nat) : Cap :=
  { start := x - 20, last := last, x := x, fn := b0.dev.fn, xi := 0, srcB := false, ua := true, ub := false, kind := 1, quality := 1, tx := none,
    tdc := none, fused := 0, post := 140, extend := ext, exts := [], more := 0, deadFrom := some (x+1), refs := [b0.dev.fn], off := off, cut := false,
    stage := stage }
def tr (caps : List Cap) (p : Nat → Bool) : State :=
  onD (fun d => let d := d.updChan 4 fun c => { c with acquiring := true,
                                                       ring := [⟨d.fn, 1000, 0, 250, 0, smps (fun k => if 300 ≤ k ∧ k < 500 then 2000 else -2000) p⟩],
                                                       since := 0, merged := 3500, caps := caps, pois := [3] }
  { d with acq := { d.acq with fstats := [fs d.fn 0] }, rcd := { d.rcd with startFn := some 0, pool := 256, seqs := [(4, 65540)] } }) b0
def k1 := cap 1300 1399 false false 1
def np : Nat → Bool := fun _ => false
def am (typ chan seq : Nat) (e : Option Nat) (smp : List Int) (af : Nat) : Asm :=
  { typ := typ, chan := chan, slot := 0, fn := b0.dev.fn, seq := seq, head := List.replicate 6 0#32, smp := smp, width := 16, first := 5, asmFn := af,
    cfgFn := af, engine := e, ref := none, enc := 0, out := [] }
def a1 := am 1 4 7 (some 3) (List.replicate 100 55) 0
def a2 := am 2 4 8 none [100, -30000, 20000, 4] 77
def cmq (s : State) : State :=
  st [(CMP_STATUS_ENC_ENGINES, 255), (CMP_RAW_STATS_EXPANDED, 65535)] (onD (fun d => { d with rcd := { d.rcd with asm := [am 1 5 1 none [3] b0.dev.fn, a1, a2], ready := [am 1 9 9 none [] 0] } }) s)
def fr (id typ fn : Nat) (b : List Nat) (l : Option Loss) (own : Bool) : FRec :=
  ⟨id, [BitVec.ofNat 32 typ, 0, 5], typ, 4, 291, fn, 0, b, [], false, false, l, own⟩
def ls : Loss := ⟨291, 4, 9, 291, 63, 8, true, none, false, false, true, 2, 5, 1⟩
def rd (pool : Nat) (s : State) : State :=
  onD (fun d => { d with rcd := { d.rcd with fifo := [fr 1 1 9 [2] none true, fr 2 1 9 [] none true, fr 3 3 9 [] none true, fr 4 4 9 [] (some ls) true,
                                                      fr 5 2 d.fn [] none true], nextId := 6, fifoWr := 262140, pool := pool,
                                             asm := [am 1 5 1 none [3] b0.dev.fn, am 1 6 1 (some 2) [3] b0.dev.fn],
                                             ready := [a2.raw, { am 1 7 2 none [7] 0 with ref := some (8,1) }, (am 1 8 1 none [6] 0).raw] } }) s
def sm : State :=
  onD (fun d => { d with acq := { d.acq with fstats := [fs 5 4] },
                         rcd := { d.rcd with startFn := some 0, pool := 256, seqs := [(200, 65536)], fifo := [fr 1 1 9 [2] none true] } }) b0

theorem wit_RecordsAreAssembled :
    (∃ (n : ℕ) (differ : Bool) (k : Cap) (s : State), n < 48 ∧ s.dev.up = true ∧ s.dev.role = Role.frontEnd
      ∧ List.find? (fun c => c.stage != 2) (s.dev.chan n).caps = some k ∧ k.stage = 1
      ∧ ∀ m ∈ s.dev.lowerPeers n (s.dev.closeFn k), Option.all (fun y => y.stage == 2) ((s.dev.chan m).twin k) = true)
    ∧ (∃ (n : ℕ) (cyc : ℕ) (s : State), n < 48 ∧ s.dev.up = true ∧ (s.dev.chan n).acquiring = true ∧ cyc < 2 * s.dev.tm.clk.cyc) :=
  ⟨⟨4, false, k1, (tr [cap 1200 1220 false false 2, k1] np), by decide +kernel⟩,
    ⟨4, 3, (tr [k1] np), by decide +kernel⟩⟩

theorem wit_CompressionReleasesRecords :
    (∃ (e : ℕ) (emitted : Option (List Word)) (a : Asm) (s : State), e < 8 ∧ s.dev.up = true
      ∧ List.find? (fun x => x.engine == some e) s.dev.rcd.asm = some a)
    ∧ (∃ (a : Asm) (s : State), s.dev.up = true ∧ List.find? (fun x => x.engine.isNone && decide (x.asmFn + 1 < s.dev.fn)) s.dev.rcd.asm = some a) :=
  ⟨⟨3, none, a1, (cmq (tr [] np)), by decide +kernel⟩,
    ⟨a2, (cmq (tr [] np)), by decide +kernel⟩⟩

theorem wit_RecordFifoTakesKeepsAndFlushes :
    (∃ (a : Asm) (s : State), s.dev.up = true ∧ s.dev.role = Role.frontEnd ∧ List.find? s.dev.mayEnter s.dev.rcd.ready = some a
      ∧ ∀ x ∈ s.dev.rcd.ready, s.dev.lostReason x.chan x.fn x.seq (x.typ == 2) = none)
    ∧ (∃ (f : FStat) (s : State), s.dev.up = true ∧ s.dev.role = Role.frontEnd
      ∧ List.find? (fun f => !f.summed && !f.gone && s.dev.recording f.fn) s.dev.acq.fstats = some f ∧ 2 ≤ f.age ∧ s.dev.frameBusy f.fn = false)
    ∧ (∃ (src : Source) (s : State), Passes s.dev src 28676 ∧ (s.dev.role = Role.frontEnd ∨ s.dev.role = Role.cell))
    ∧ (∃ (reason : ℕ) (s : State), s.dev.up = true ∧ s.dev.rcd.flush = some reason) :=
  ⟨⟨a2.raw, rd 256 (tr [] np), by decide +kernel⟩,
    ⟨(fs 5 4), sm, by decide +kernel⟩,
    ⟨.spi, sm, by decide +kernel⟩,
    ⟨8, onD (fun d => { d with rcd := { d.rcd with flush := some 8 } }) (rd 256 (tr [] np)), by decide +kernel⟩⟩

end Recs

/-! ### Witnesses: uplinks and diagnostic reads -/

namespace Uplinks

def fr (id typ fn : Nat) (b : List Nat) (own : Bool) (ch : Nat) : FRec :=
  ⟨id, [BitVec.ofNat 32 (typ + ch * 256), 0, BitVec.ofNat 32 id, 0, 0, 0, 0], typ, ch, 291, fn, 0, b, [], false, false, none, own⟩
def ln (r : Nat) (l : Nat) : State :=
  st [(LN_STATUS_DATA_SERVICE l, 1), (GLB_ROLE_CFG_UPLINK_MASK, 255)] (onD (fun d => (d.updLane l fun x => { x with partnerNum := true, partnerDev := 5, heard := true, openLf := some ⟨d.fn, true, 500, 0, []⟩ }).updLane (if r = 1 then 40 else 0) fun x => { x with partnerNum := true, partnerDev := 5, heard := true }) (base r))
def up (r l : Nat) (f : Nat → List FRec) :=
  onD (fun d => { d with rcd := { d.rcd with fifo := f d.fn, nextId := 50, pool := 256, startFn := some 0 } }) (ln r l)
def F := (base 0).dev.fn
def g0 (s : State) (l : Nat) := (s.dev.upGroups.find? (fun g => (s.dev.dataLanes g).contains l)).getD []
def s1 := up 0 2 fun f => [fr 1 1 f [] true 4, fr 2 1 f [] true 4, fr 3 2 f [] true 5]
def s3 (r : Nat) :=
  up r (if r = 1 then 41 else 2) fun f => [fr 1 1 (f-16) [2] true 4, fr 2 1 (f-16) [] true 4, fr 3 3 (f-17) [] true 5, fr 4 3 (f-16) [] true 5,
                                           fr 5 1 (f-48) [] false 5, fr 6 1 (f-15) [] true 4, fr 7 5 (f-49) [] true 4]
def s4 (m : Nat) :=
  st [(LN_STATUS_DATA_SERVICE 2, m)] (onD (fun d => d.updLane 2 fun x => { x with tx := [⟨1, F, false, true, [3#32], 7, false⟩,
                                                                                         ⟨2, F, false, false, [3#32], 7, false⟩,
                                                                                         ⟨3, F, false, true, [3#32], 7, true⟩] }) (s3 0))
def dg (k : Nat) := st [(REC_DIAG_SEL_WORD, k)] s1
def hubR : State := onD (fun d => d.setRing 3 { (d.ring 3) with st := 1, typ := 1, log2 := 4, wait := [[5#32, 7#32]] }) (hub (base 2))

theorem wit_UplinksSendWithdrawAndAbandon :
    (∃ (l : ℕ) (g : List ℕ) (r : FRec) (s : State), l < 48 ∧ s.dev.up = true ∧ s.dev.rcd.flush = none ∧ s.ecc = []
      ∧ List.find? (fun g => (s.dev.dataLanes g).contains l) s.dev.upGroups = some g ∧ s.dev.pickSend g l = some r)
    ∧ (∃ (s : State), s.dev.up = true ∧ (s.dev.role = Role.frontEnd ∨ s.dev.role = Role.cell))
    ∧ (∃ (l : ℕ) (s : State), l < 48 ∧ s.dev.up = true ∧ (s.dev.lane l).tx ≠ [] ∧ (s.dev.inData l = false ∨ l ∉ s.dev.maskedUplinks)) :=
  ⟨⟨2, (g0 s1 2), (fr 1 1 F [] true 4), s1, by decide +kernel⟩,
    ⟨s3 0, by decide +kernel⟩,
    ⟨2, s4 0, by decide +kernel⟩⟩

theorem wit_DiagnosticReadsShowTheQueue :
    (∃ (v : ℕ) (a : Option ℕ) (op : Bool) (s : State), s.dev.up = true ∧ s.dev.role ≠ Role.hub ∧ s.ecc = []
      ∧ s.dev.diagWords[s.dev.get REC_DIAG_SEL_WORD]? = some (v, a, op))
    ∧ (∃ (v : ℕ) (sent : Bool) (what : Victim) (s : State), s.dev.up = true ∧ s.dev.role = Role.hub ∧ s.ecc = []
      ∧ (Ring.diagWords (s.dev.get REC_DIAG_SEL_QUEUE) (s.dev.ring (s.dev.get REC_DIAG_SEL_QUEUE)))[s.dev.get REC_DIAG_SEL_WORD]? = some (v, sent, what))
    ∧ (∃ (s : State), s.dev.up = true ∧ (s.dev.role ≠ Role.hub → s.dev.diagWords[s.dev.get REC_DIAG_SEL_WORD]? = none)
      ∧ (s.dev.role = Role.hub → (Ring.diagWords (s.dev.get REC_DIAG_SEL_QUEUE) (s.dev.ring (s.dev.get REC_DIAG_SEL_QUEUE)))[s.dev.get REC_DIAG_SEL_WORD]? = none)) :=
  ⟨⟨3, (some 2), false, dg 16, by decide +kernel⟩,
    ⟨7, false, (.queued 3 [5#32, 7#32]), st [(REC_DIAG_SEL_QUEUE, 3), (REC_DIAG_SEL_WORD, 1)] hubR, by decide +kernel⟩,
    ⟨dg 160, by decide +kernel⟩⟩

end Uplinks

/-! ### Witnesses: lanes and crossings -/

namespace Lines

/-- A crossing's hold register given a value. -/
abbrev put (h : Hold) (v : Word) : Hold := if h.reg = none then { h with reg := some v, loaded := false } else { h with shadow := some v }
/-- The steps of a crossing that are no check error, with what they leave. -/
abbrev CrossStepTo (c : Cross) (x : CrossStep) (v : Word) (k : Cross) : Prop :=
  (x = .send v ∧ k = { c with val := put c.val v })
    ∨ (x = .happen ∧ k = { c with count := c.count + 1, cnt := put c.cnt (c.count + 1) })
    ∨ (x = .ack false ∧ c.val.loaded = true ∧ k = { c with val := { c.val with reg := c.val.shadow, loaded := false, shadow := none } })
    ∨ (x = .ack true ∧ c.cnt.loaded = true ∧ k = { c with cnt := { c.cnt with reg := c.cnt.shadow, loaded := false, shadow := none } })
    ∨ (x = .load false false ∧ c.val.loaded = false ∧ c.val.reg = some v ∧ k = { c with val := { c.val with loaded := true, got := v } })
    ∨ (x = .load true false ∧ c.cnt.loaded = false ∧ c.cnt.reg = some v
      ∧ k = { c with cnt := { c.cnt with loaded := true, got := v }, events := c.events + (v - c.cnt.got).toNat })

def ln (f : Lane → Lane) (l st' : Nat) (s : State) : State := st [(LN_STATUS_LSTATE l, st')] (onD (fun d => d.updLane l f) s)
def msg (k : Nat) : Msg := ⟨k, 5, 0, 7, List.replicate 8 0#32, 63, 0⟩
def big (x : Lane) : Lane :=
  { x with okRun := 5, badRun := 8, txFull := true, recIn := [[3#32]], fwdQ := [msg 1, msg 2, msg 3], upQ := [msg 2],
           tx := [⟨1, 2, false, true, [3#32], 0, false⟩], partnerDev := 9 }
def half (x : Lane) : Lane := { x with okRun := 4, recRx := ⟨[3#32], true, 0, 5⟩, badRun := 7 }
def junk : List Nat := [5, 0b0011111010, 700]
def rx0 : LaneRx := ⟨0, 0, 0, (sendChars false [comma, (false, 1), (false, 2)]).1⟩
def words (up : Bool) : List Nat := let w := [0xBC + 256 * 5 + 65536 * 9, 0x10000000, 64 + 128 + (if up then 2048 else 0)] ++ List.replicate 121 0 ; w ++ [crc32c ((bytesOf w).drop 1)]
def rx1 (up : Bool) : LaneRx := ⟨0, 0, 0, (sendChars false (frameSymbols (words up) 0)).1⟩
def asy (fn p c : Nat) (s : State) :=
  st [(LN_ASSAY_ERR_PRBS_ERR 3, p), (LN_ASSAY_ERR_CRC_ERR 3, c), (LN_STATUS_ASSAY_ACTIVE 3, 1), (LN_ASSAY_WORDS_WORDS 3, 123456789)] (onD (fun d => { d with flt := { d.flt with assays := [⟨⟨1, 3⟩, 7, true, 5, 3, false⟩, ⟨⟨4, 3⟩, 9, true, fn, 3, false⟩] } }) s)
def xs (l : Bool) (s : State) :=
  onD (fun d => d.setXing 3 { Cross.init with val := ⟨some 3, l, some 8, 5⟩, cnt := ⟨some 9, l, none, 7⟩, count := 9, events := 2, flushes := 6,
                                              checkErr := 4095 }) s
def xk (l : Bool) : Cross := (xs l (base 1)).dev.xing 3

theorem wit_LaneStateTransitions :
    (∃ (l : ℕ) (s : State), l < 48 ∧ s.dev.up = true ∧ s.dev.lstate l = 1 ∧ 4 ≤ (s.dev.lane l).okRun)
    ∧ (∃ (l : ℕ) (s : State), l < 48 ∧ s.dev.up = true ∧ s.dev.lstate l = 1 ∧ (s.dev.lane l).sinceFn + 1000 ≤ s.dev.fn)
    ∧ (∃ (l : ℕ) (s : State), l < 48 ∧ s.dev.up = true ∧ s.dev.lstate l = 2 ∧ 16 ≤ (s.dev.lane l).raiseRun ∧ s.dev.fullOk l = true
      ∧ (s.dev.lane l).noRaiseUntil ≤ s.dev.fn)
    ∧ (∃ (c : Instr) (l : ℕ) (s : State), l < 48 ∧ s.dev.up = true ∧ (c = Instr.raiseTimeout l ∧ s.dev.lstate l = 3 ∧ (s.dev.lane l).rxGot = false
      ∧ (s.dev.lane l).switchFn + 17 < s.dev.fn ∨ c = Instr.framingLost l ∧ (s.dev.lstate l = 2 ∨ s.dev.lstate l = 3 ∨ s.dev.lstate l = 4)
      ∧ 8 ≤ (s.dev.lane l).badRun)) :=
  ⟨⟨3, (ln (fun x => { x with okRun := 4, badRun := 7 }) 3 1 (base 1)), by decide +kernel⟩,
    ⟨3, (ln (fun x => { x with okRun := 4, badRun := 7 }) 3 1 (base 1)), by decide +kernel⟩,
    ⟨3, (st [(LN_CTRL_ATTESTED 3, 1)] (ln (fun x => { x with raiseRun := 16, badRun := 7 }) 3 2 (base 1))), by decide +kernel⟩,
    ⟨(.raiseTimeout 3), 3, (st [(LN_CTRL_ATTESTED 3, 1)] (ln big 3 3 (base 1))), by decide +kernel⟩⟩

theorem wit_LaneControlsAndEyeScan :
    (∃ (c : Instr) (src : Source) (l : ℕ) (b : ℕ) (on : Bool) (f : Fld) (s : State), l < 48 ∧ Passes s.dev src (20480 + 128 * l)
      ∧ s.dev.role.usesLane l = true ∧ (c = Instr.laneEnable src l ∧ b = 0 ∧ on = true ∧ f = LN_CTRL_ENABLE l ∨ c = Instr.laneDisable src l ∧ b = 0
      ∧ on = false ∧ f = LN_CTRL_ENABLE l ∨ c = Instr.laneIdleEnter src l ∧ b = 1 ∧ on = true ∧ f = LN_CTRL_IDLE l ∨ c = Instr.laneIdleExit src l
      ∧ b = 1 ∧ on = false ∧ f = LN_CTRL_IDLE l ∨ c = Instr.laneAttestSet src l on ∧ b = 4 ∧ f = LN_CTRL_ATTESTED l))
    ∧ (∃ (src : Source) (l : ℕ) (s : State), l < 48 ∧ Passes s.dev src (20480 + 128 * l) ∧ s.dev.role.usesLane l = true)
    ∧ (∃ (c : Instr) (src : Source) (l : ℕ) (a : ℕ) (s : State),
       l < 48 ∧ Passes s.dev src a ∧ s.dev.role.usesLane l = false ∧ (c = Instr.laneEnable src l
      ∧ a = 20480 + 128 * l ∨ c = Instr.laneDisable src l ∧ a = 20480 + 128 * l ∨ c = Instr.laneIdleEnter src l ∧ a = 20480 + 128 * l
      ∨ c = Instr.laneIdleExit src l ∧ a = 20480 + 128 * l ∨ c = Instr.assayStart src l ∧ a = 20480 + 128 * l))
    ∧ (∃ (src : Source) (l : ℕ) (v : Word) (s : State), l < 48 ∧ Passes s.dev src (20516 + 128 * l) ∧ s.dev.role.usesLane l = true)
    ∧ (∃ (l : ℕ) (e : ℕ) (s : State), l < 48 ∧ s.dev.up = true ∧ s.dev.get (LN_EYE_CTRL_BUSY l) = 1
      ∧ ((s.dev.lane l).eyeFn + 2 ^ (20 + min 12 (s.dev.get (LN_EYE_CTRL_DWELL_LOG2 l))) / if (s.dev.lane l).txFull = true then 20000 else 5000) ≤ s.dev.fn) :=
  ⟨⟨(.laneEnable .spi 3), .spi, 3, 0, true, (Reg.LN_CTRL_ENABLE 3), (st [(LN_CTRL_SLIP 3, 7)] (base 1)), by decide +kernel⟩,
    ⟨.spi, 3, (st [(LN_CTRL_SLIP 3, 7), (LN_CTRL_IDLE 3, 1)] (base 1)), by decide +kernel⟩,
    ⟨(.laneIdleExit .spi 30), .spi, 30, (0x5000 + 0x80 * 30), base 0, by decide +kernel⟩,
    ⟨.spi, 3, 0x3F777, base 1, by decide +kernel⟩,
    ⟨3, 77, st [(LN_EYE_CTRL_BUSY 3, 1), (LN_EYE_CTRL_V 3, 1)] (base 1), by decide +kernel⟩⟩

set_option maxRecDepth 100000 in
theorem wit_LaneFramesAreAcceptedOrRejected :
    (∃ (l : ℕ) (s : State), l < 48 ∧ s.dev.up = true ∧ s.dev.role.usesLane l = true ∧ s.dev.lstate l ≠ 0 ∧ s.dev.lstate l ≠ 6)
    ∧ (∃ (l : ℕ) (cs : List ℕ) (s : State), l < 48 ∧ s.dev.up = true ∧ s.dev.role.usesLane l = true ∧ s.dev.lstate l ≠ 0 ∧ s.dev.lstate l ≠ 6)
    ∧ (∃ (l : ℕ) (r : LaneRx) (s : State), l < 48 ∧ s.dev.up = true ∧ s.dev.role.usesLane l = true ∧ s.dev.lstate l ≠ 0 ∧ s.dev.lstate l ≠ 6
      ∧ ¬AcceptsLf s.dev l r ∧ (s.dev.lane l).trainUntil < s.dev.fn)
    ∧ (∃ (l : ℕ) (r : LaneRx) (s : State), l < 48 ∧ s.dev.up = true ∧ s.dev.role.usesLane l = true ∧ s.dev.lstate l ≠ 0 ∧ s.dev.lstate l ≠ 6
      ∧ AcceptsLf s.dev l r)
    ∧ (∃ (l : ℕ) (fill : ℕ) (s : State), l < 48 ∧ 4 ≤ fill ∧ fill ≤ 12)
    ∧ (∃ (c : Instr) (g : ℕ) (held : Bool) (s : State), g < 48 ∧ s.dev.up = true ∧ s.dev.role.usesLane g = true ∧ (c = Instr.crossingFlush g held
      ∨ ∃ fill, c = Instr.laneFifoSlip g fill ∧ held = false ∧ (fill < 4 ∨ 12 < fill))) :=
  ⟨⟨3, (ln half 3 1 (base 1)), by decide +kernel⟩,
    ⟨3, junk, (ln half 3 1 (base 1)), by decide +kernel⟩,
    ⟨3, rx0, (ln half 3 1 (base 1)), by decide +kernel⟩,
    ⟨3, (rx1 true), (ln half 3 1 (base 1)), by decide +kernel⟩,
    ⟨3, 12, base 0, by decide +kernel⟩,
    ⟨(.crossingFlush 3 true), 3, true, (ln big 3 4 (base 0)), by decide, by decide +kernel, by decide +kernel, .inl rfl⟩⟩

theorem wit_LaneAssaysAndCrossings :
    (∃ (l : ℕ) (a : Assay) (s : State), l < 48 ∧ s.dev.up = true
      ∧ List.find? (fun a => a.u == { unit := 4, loc := l } && a.running) s.dev.flt.assays = some a ∧ ((0 < s.dev.get (LN_ASSAY_ERR_PRBS_ERR l)
      ∨ max 1 (s.dev.get LN_ASSAY_CFG_CRC_LIMIT) ≤ s.dev.get (LN_ASSAY_ERR_CRC_ERR l)) ∨ a.fn + max 1 (s.dev.get LN_ASSAY_CFG_ASSAY_FRAMES) ≤ s.dev.fn
      ∧ 1024 * max 1 (s.dev.get LN_ASSAY_CFG_MIN_KWORDS) ≤ s.dev.get (LN_ASSAY_WORDS_WORDS l)
      ∨ a.fn + 10 * max 1 (s.dev.get LN_ASSAY_CFG_ASSAY_FRAMES) ≤ s.dev.fn))
    ∧ (∃ (g : Nat) (x : CrossStep) (v : Word) (k : Cross) (s : State), g < 51 ∧ s.dev.up = true ∧ s.dev.usesGroup g = true
      ∧ CrossStepTo (s.dev.xing g) x v k)
    ∧ (∃ (g : ℕ) (count : Bool) (s : State), g < 51 ∧ s.dev.up = true ∧ s.dev.usesGroup g = true
      ∧ (if count = true then (s.dev.xing g).cnt else (s.dev.xing g).val).reg ≠ none
      ∧ (if count = true then (s.dev.xing g).cnt else (s.dev.xing g).val).loaded = false) :=
  ⟨⟨3, ⟨⟨4, 3⟩, 9, true, 5, 3, false⟩, (asy 5 0 0 (base 1)), by decide +kernel⟩,
    ⟨3, (.send 77), 77, ({ xk false with val := ⟨some 3, false, some 77, 5⟩ }), (xs false (base 1)), by decide +kernel⟩,
    ⟨3, false, (xs false (base 1)), by decide +kernel⟩⟩

end Lines

/-! ### Witnesses: management commands -/

namespace Cmds

/-- The command that a message of lane `l` carries. -/
abbrev carried (d : Dev) (l : Nat) (m : Msg) : Cmd :=
  { src := if decide (l < d.role.downLanes) then .downLane else .upLane, port := l, origin := m.origin, ring := m.ring, seq := m.seq, w := m.body }
/-- The device with the message taken. -/
abbrev emptied (d : Dev) (l : Nat) : Dev := d.updLane l fun x => { x with msgIn := x.msgIn.eraseP fun m => m.kind == 1 }
/-- The oldest command message of a lane of a running device. -/
abbrev waiting (l : Nat) (m : Msg) (s : State) : Prop :=
  l < 48 ∧ s.dev.up = true ∧ (s.dev.lane l).msgIn.find? (fun m => m.kind == 1) = some m
abbrev heard (l : Nat) (m : Msg) (s : State) : Prop :=
  decide (l < s.dev.role.downLanes) = true ∨ s.dev.numbered = true ∨ cmdScope (carried s.dev l m) = 3
abbrev fresh (m : Msg) (s : State) : Prop := m.idx < s.dev.reqLimit ∧ (m.origin, m.seq) ∉ s.dev.mg.seen
abbrev taken (l : Nat) (m : Msg) (s : State) : Prop :=
  heard l m s ∧ m.idx < s.dev.reqLimit ∧ (m.origin, m.seq) ∉ s.dev.mg.seen ∧ (emptied s.dev l).denial (carried s.dev l m) = none
abbrev own (l : Nat) (m : Msg) (s : State) : Bool := s.dev.numbered && s.dev.devnum == cmdDest (carried s.dev l m)
abbrev toMe (l : Nat) (m : Msg) (s : State) : Bool := own l m s || (emptied s.dev l).below (carried s.dev l m)
abbrev here (l : Nat) (m : Msg) (s : State) : Prop :=
  decide (l < s.dev.role.downLanes) = true ∨ cmdScope (carried s.dev l m) = 0 ∧ own l m s = true
    ∨ s.dev.role = .frontEnd ∧ (cmdScope (carried s.dev l m) = 2 ∨ cmdScope (carried s.dev l m) = 1 ∧ toMe l m s = true
      ∨ cmdScope (carried s.dev l m) = 3 ∧ cmdPathLen (carried s.dev l m) = 2)
    ∨ s.dev.role = .cell ∧ cmdScope (carried s.dev l m) = 3 ∧ cmdPathLen (carried s.dev l m) = 1
abbrev spread (l : Nat) (m : Msg) (s : State) : Prop :=
  s.dev.role = .cell ∧ decide (l < s.dev.role.downLanes) = false
    ∧ (cmdScope (carried s.dev l m) = 2 ∨ cmdScope (carried s.dev l m) = 1 ∧ toMe l m s = true)
abbrev ports (l : Nat) (m : Msg) (s : State) : List Nat :=
  if cmdScope (carried s.dev l m) = 3 then
    (if (emptied s.dev l).pathPort (cmdPath (carried s.dev l m) 1) then [cmdPath (carried s.dev l m) 1] else [])
  else (s.dev.route (cmdDest (carried s.dev l m))).toList
abbrev away (l : Nat) (m : Msg) (s : State) : Prop :=
  s.dev.role = .cell ∧ decide (l < s.dev.role.downLanes) = false ∧ (cmdScope (carried s.dev l m) = 0 ∧ own l m s = false
    ∨ cmdScope (carried s.dev l m) = 1 ∧ toMe l m s = false ∨ cmdScope (carried s.dev l m) = 3 ∧ cmdPathLen (carried s.dev l m) = 2)
/-- The device after the command has executed here as one of those it goes on to. -/
abbrev ranHere (l : Nat) (m : Msg) (s : State) : EccDev :=
  takeLocal s.fuses (carried s.dev l m) (s.ecc, ({ emptied s.dev l with
    mg := { (emptied s.dev l).mg with execN := (emptied s.dev l).mg.execN + 1, rotPort := l } } : Dev).keepId (carried s.dev l m))

def cm (src : Source) (ws : List Nat) : Cmd :=
  { src := src, port := 3, origin := 9, ring := 5, seq := 77, w := wordsOf (ws ++ List.replicate (8 - ws.length) 0) }
def fst0 : FStat :=
  { fn := 77001234, base := 0, cyc := 250, exc := 0, u := 0, clkState := 1, selected := 0, stepped := false,
    force := [((CH_TRGA_CTRL_TYPE 0).key, 5), ((CH_TRGB_CTRL_TYPE 1).key, 5), ((CH_TRGA_CTRL_TYPE 1).key, 5), ((CH_TRGA_CTRL_CAPTURE_EN 1).key, 1),
              ((CH_TRGB_CTRL_CAPTURE_EN 1).key, 1)], env := [], anchor := [], acq := [0,1,2], accept := [0,2], calib := [], age := 0, dead := [],
    reasons := 0, refused := none, nHit := 0, nStream := 0, nLoss := 0, nDrop := 0, nDup := 0, judged := false, ports := [], summed := false,
    gone := false }
def fr (s : State) : State := onD (fun d => { d with acq := { d.acq with fstats := [fst0] } }) s
def tr0 : Trip := ⟨3, 2, 0x123, 9⟩
def hot (tj : Nat) (s : State) : State :=
  st [(PWR_THERM_STATUS_STATE, 4), (PWR_THERM_STATUS_T_J, tj)] (onD (fun d => { d with pw := { d.pw with trip := some tr0 },
                                                                                       mg := { d.mg with seen := [(9, 77), (1,1)] } }) s)
def att (c : Cmd) (s : State) : State := onD (fun d => { d with mg := { d.mg with attest := some (c, 5), seen := [(9, 77)] } }) s
def hv (s : State) : State := onD (fun d => { d with hm := { d.hm with view := [(0, 17), (1,3)] } }) s
def clk (s : State) : State := st [(TIM_STATUS_CLK_STATE, 2), (TIM_HG_CTRL_GRACE, 5)] s
def hl (s : State) : State :=
  onD (fun d => { d with tm := { d.tm with held := [cm .upLane [5,1,7,3], cm .upLane [5,2,2,8], cm .upLane [5,2,9,2]] } }) s
def cd (sc dest : Nat) (i : Nat) (w3 : Nat :=
  0) (op : Nat := 5) (hg : Nat := 0): Msg := ⟨1, 9, 5, 77, wordsOf [op + 256 * sc + hg * 1024 + 65536 * dest, 78001000, 0, w3, 0x1234, 5, 6, 7], 63, i⟩
def ln (l : Nat) (ms : List Msg) (s : State) : State :=
  onD (fun d => d.updLane l fun x => { x with msgIn := ms }) (st [(TIM_STATUS_CLK_STATE, 2), (LN_MG_CFG_EXEC_LIMIT, 4), (LN_MG_CFG_REQ_LIMIT, 2)] s)
def un (s : State) : State := onD (fun d => { d with force := [] }) s
def ev : Msg := ⟨3, 9, 5, 77, [], 63, 0⟩
def seen (s : State) : State := onD (fun d => { d with mg := { d.mg with seen := [(1,2), (9, 77)] } }) s
def mr := cd 0 5 1 0 16
def me := cd 0 291 1
def busy (s : State) : State := onD (fun d => { d with mg := { d.mg with execN := 4 } }) (st [(LN_MG_CFG_EXEC_LIMIT, 4)] s)
def rt (s : State) : State :=
  onD (fun d => { d with mrg := { d.mrg with routes := [(5, w32 0x52)] } }) (st [(LN_STATUS_LSTATE 18, 4), (LN_STATUS_DATA_SERVICE 18, 1),
                                                                                 (MRG_PORT_DEV_VALID 18, 1), (LN_STATUS_DATA_SERVICE 2, 1),
                                                                                 (MRG_PORT_DEV_VALID 2, 1)] s)
def fq (s : State) : State := onD (fun d => d.updLane 18 fun x => { x with fwdQ := List.replicate 32 ev }) s
def re (k seq : Nat) : Msg := ⟨k, 9, 5, seq, wordsOf [1,2,3,4,5,6,7,8], 63, 0⟩
def uq (s : State) : State := onD (fun d => d.updLane 3 fun x => { x with upQ := List.replicate 32 ev }) s
def ost (s : State) : State :=
  onD (fun d => { d with hr := { d.hr with outst := [⟨3, d.fn, cm .pcie [5]⟩, ⟨4, d.fn + 1, cm .pcie [5]⟩], dead := [8] } }) s
def swp (s : State) : State :=
  st [(HR_CTRL_ENABLE, 1), (HR_LINK_STATUS_LINK_UP, 1)] (onD (fun d => { d with hr := { d.hr with sweepOut := some [] } }) s)
def cr (s : State) : State := onD (fun d => d.setRing 5 { Ring.init with st := 2, typ := 2, log2 := 4, fetched := 1 }) (swp (base 2))

theorem wit_CommandsReadWriteEchoAndTrigger :
    (∃ (c : Cmd) (op : ℕ) (i : Instr) (s : State),
     s.dev.up = true ∧ s.dev.hasSource c = true ∧ (i = Instr.read c ∧ op = 1 ∨ i = Instr.write c ∧ op = 2
      ∨ i = Instr.trigger c ∧ op = 3 ∨ i = Instr.cancel c ∧ op = 4 ∨ i = Instr.echo c ∧ op = 5 ∨ i = Instr.release c ∧ op = 16 ∨ i = Instr.attest c
      ∧ op = 17 ∨ i = Instr.assign c ∧ op = 18))
    ∧ (∃ (c : Cmd) (op : ℕ) (i : Instr) (s : State) (g : ℕ),
       s.dev.up = true ∧ s.dev.hasSource c = true ∧ (i = Instr.read c ∧ op = 1 ∨ i = Instr.write c
      ∧ op = 2 ∨ i = Instr.trigger c ∧ op = 3 ∨ i = Instr.cancel c ∧ op = 4 ∨ i = Instr.echo c ∧ op = 5 ∨ i = Instr.release c ∧ op = 16
      ∨ i = Instr.attest c ∧ op = 17 ∨ i = Instr.assign c ∧ op = 18) ∧ s.dev.denial (cmdWithOp c op) = some g)
    ∧ (∃ (c : Cmd) (op : ℕ) (i : Instr) (s : State),
       s.dev.up = true ∧ s.dev.hasSource c = true ∧ (i = Instr.read c ∧ op = 1 ∨ i = Instr.write c ∧ op = 2
      ∨ i = Instr.trigger c ∧ op = 3 ∨ i = Instr.cancel c ∧ op = 4 ∨ i = Instr.echo c ∧ op = 5 ∨ i = Instr.release c ∧ op = 16 ∨ i = Instr.attest c
      ∧ op = 17 ∨ i = Instr.assign c ∧ op = 18) ∧ s.dev.denial (cmdWithOp c op) = none ∧ cmdBad (cmdWithOp c op) = true)
    ∧ (∃ (c : Cmd) (s : State), s.dev.up = true ∧ s.dev.hasSource c = true ∧ s.dev.denial (cmdWithOp c 1) = none ∧ cmdBad (cmdWithOp c 1) = false
      ∧ ∀ k < cmdCount c, cmdAddr c k ∉ readActs)
    ∧ (∃ (c : Cmd) (s : State), s.dev.up = true ∧ s.dev.hasSource c = true ∧ s.dev.denial (cmdWithOp c 2) = none ∧ cmdBad (cmdWithOp c 2) = false)
    ∧ (∃ (c : Cmd) (s : State), s.dev.up = true ∧ s.dev.hasSource c = true ∧ cmdBad (cmdWithOp c 5) = false)
    ∧ (∃ (c : Cmd) (f : FStat) (s : State), s.dev.up = true ∧ s.dev.role = Role.frontEnd ∧ c.src = Source.upLane ∧ cmdBad (cmdWithOp c 3) = false
      ∧ s.dev.denial (cmdWithOp c 3) = none ∧ s.dev.frameOf s.dev.fn = some f) :=
  ⟨⟨(cm .upLane [0]), 16, (.release (cm .upLane [0])), (base 1), by decide +kernel⟩,
    ⟨(cm .downLane [0]), 3, (.trigger (cm .downLane [0])), (base 1), 15, by decide +kernel⟩,
    ⟨(cm .upLane [0]), 3, (.trigger (cm .upLane [0])), (base 1), by decide +kernel⟩,
    ⟨(cm .upLane [0,0,0,0, 0x20104]), (base 1), by decide +kernel⟩,
    ⟨(cm .upLane [0,0,0,0, 0x1034,0xFFFFFFFF,0xF0]), (base 1), by decide +kernel⟩,
    ⟨(cm .downLane [0,0,0,0, 0x1050,0xFFFFFFFF,0xFFFFFFFF]), (base 1), by decide +kernel⟩,
    ⟨(cm .upLane [0x0803,0,0,0, 0xF,0x20000]), fst0, fr (base 0), by decide +kernel⟩⟩

theorem wit_ReleaseAttestAndAssign :
    (∃ (c : Cmd) (tr : Trip) (s : State), s.dev.up = true ∧ s.dev.hasSource c = true ∧ s.dev.denial (cmdWithOp c 16) = none
      ∧ cmdBad (cmdWithOp c 16) = false ∧ s.dev.pw.trip = some tr ∧ s.dev.thermState = 4 ∧ cmdWd c 4 = tr.seq % 2 ^ 32 ∧ s.dev.tj < 1440)
    ∧ (∃ (c : Cmd) (op : ℕ) (retry : ℕ) (i : Instr) (s : State),
       s.dev.up = true ∧ s.dev.hasSource c = true ∧ (i = Instr.release c ∧ op = 16 ∧ retry = 1000
      ∧ (∃ tr ∈ s.dev.pw.trip, cmdWd c 4 = tr.seq % 2 ^ 32) ∧ s.dev.thermState = 4 ∧ 1440 ≤ s.dev.tj ∨ i = Instr.attest c ∧ op = 17 ∧ retry = 64
      ∧ s.dev.mg.attest ≠ none) ∧ s.dev.denial (cmdWithOp c op) = none ∧ cmdBad (cmdWithOp c op) = false)
    ∧ (∃ (c : Cmd) (s : State), s.dev.up = true ∧ s.dev.hasSource c = true ∧ s.dev.denial (cmdWithOp c 16) = none ∧ cmdBad (cmdWithOp c 16) = false
      ∧ (s.dev.thermState ≠ 4 ∨ Option.all (fun tr => cmdWd c 4 != tr.seq % 2 ^ 32) s.dev.pw.trip = true))
    ∧ (∃ (c : Cmd) (s : State), s.dev.up = true ∧ s.dev.hasSource c = true ∧ cmdBad (cmdWithOp c 17) = false ∧ s.dev.mg.attest = none)
    ∧ (∃ (c : Cmd) (fn : ℕ) (s : State), s.dev.up = true ∧ s.dev.mg.attest = some (c, fn))
    ∧ (∃ (c : Cmd) (s : State), s.dev.up = true ∧ s.dev.hasSource c = true ∧ s.dev.denial (cmdWithOp c 18) = none ∧ cmdBad (cmdWithOp c 18) = false
      ∧ cmdWd c 5 = s.dev.hmWord 0 ∧ cmdWd c 6 = s.dev.hmWord 1)
    ∧ (∃ (c : Cmd) (s : State), s.dev.up = true ∧ s.dev.hasSource c = true ∧ s.dev.denial (cmdWithOp c 18) = none ∧ cmdBad (cmdWithOp c 18) = false
      ∧ (cmdWd c 5 ≠ s.dev.hmWord 0 ∨ cmdWd c 6 ≠ s.dev.hmWord 1)) :=
  ⟨⟨(cm .upLane [0,0,0,0,0x123]), tr0, hot 1000 (base 0), by decide +kernel⟩,
    ⟨(cm .upLane [0,0,0,0,0x123]), 16, 1000, (.release (cm .upLane [0,0,0,0,0x123])), hot 1440 (base 0), by decide +kernel⟩,
    ⟨(cm .upLane [0,0,0,0,0x124]), hot 1440 (base 0), by decide +kernel⟩,
    ⟨(cm .downLane [0,0,0,0,0x124]), (base 1), by decide +kernel⟩,
    ⟨(cm .upLane [1,2,3,4,5]), 5, (att (cm .upLane [1,2,3,4,5]) (base 1)), by decide +kernel⟩,
    ⟨(cm .upLane [1,2,3,4,0x51234,17,3]), (hv (base 1)), by decide +kernel⟩,
    ⟨(cm .upLane [1,2,3,4,0x51234,17,4]), (hv (base 1)), by decide +kernel⟩⟩

theorem wit_HeadgateActionsAndCancel :
    (∃ (c : Cmd) (s : State), s.dev.up = true ∧ s.dev.hasSource c = true
      ∧ s.dev.denial { src := c.src, port := c.port, origin := c.origin, ring := c.ring, seq := c.seq, w := c.w.set 0 (w32 (setBit (cmdWd c 0) 11)) } = none
      ∧ cmdBad { src := c.src, port := c.port, origin := c.origin, ring := c.ring, seq := c.seq, w := c.w.set 0 (w32 (setBit (cmdWd c 0) 11)) } = false)
    ∧ (∃ (c : Cmd) (s : State), s.dev.up = true ∧ s.dev.hasSource c = true ∧ s.dev.denial (cmdWithOp c 4) = none ∧ cmdBad (cmdWithOp c 4) = false)
    ∧ (∃ (f : Fuses) (x : EccDev) (c : Cmd), cmdOp c = 4)
    ∧ (∃ (d : Dev) (c : Cmd), ∀ h ∈ d.tm.held, cmdTag h ≠ cmdWd c 4 % 65536)
    ∧ (∃ (d : Dev) (c : Cmd) (h : Cmd), List.find? (fun x => cmdTag x == cmdWd c 4 % 65536) d.tm.held = some h) :=
  ⟨⟨(cm .upLane [0x0005,0,77001000,0,9]), clk (base 1), by decide +kernel⟩,
    ⟨(cm .upLane [0,0,0,0,9]), (base 1), by decide +kernel⟩,
    ⟨(hl (base 1)).fuses, ([(3,4)], (hl (base 1)).dev), (cm .upLane [4,0,0,0,2]), by decide +kernel⟩,
    ⟨(hl (base 1)).dev, (cm .upLane [0,0,0,0,9]), by decide +kernel⟩,
    ⟨(hl (base 1)).dev, (cm .upLane [0,0,0,0,2]), (cm .upLane [5,2,2,8]), by decide +kernel⟩⟩

theorem wit_CommandsArriveOnLanes :
    (∃ (l : Nat) (m : Msg) (s : State), waiting l m s ∧ ¬ heard l m s)
    ∧ (∃ (l : Nat) (m : Msg) (s : State), waiting l m s ∧ heard l m s ∧ s.dev.reqLimit ≤ m.idx)
    ∧ (∃ (l : Nat) (m : Msg) (s : State), waiting l m s ∧ heard l m s ∧ m.idx < s.dev.reqLimit ∧ (m.origin, m.seq) ∈ s.dev.mg.seen)
    ∧ (∃ (l : Nat) (m : Msg) (s : State) (p : Nat), waiting l m s ∧ heard l m s ∧ fresh m s ∧ (emptied s.dev l).denial (carried s.dev l m) = some p)
    ∧ (∃ (l : Nat) (m : Msg) (s : State), waiting l m s ∧ taken l m s ∧ here l m s ∧ s.dev.mg.execN + (emptied s.dev l).portsAhead l < s.dev.execLimit)
    ∧ (∃ (l : Nat) (m : Msg) (s : State), waiting l m s ∧ taken l m s ∧ (here l m s ∨ spread l m s)
      ∧ s.dev.execLimit ≤ s.dev.mg.execN + (emptied s.dev l).portsAhead l)
    ∧ (∃ (l : Nat) (m : Msg) (s : State),
       waiting l m s ∧ taken l m s ∧ spread l m s ∧ s.dev.mg.execN + (emptied s.dev l).portsAhead l < s.dev.execLimit
      ∧ (ranHere l m s).2.alone = false ∧ (ranHere l m s).2.dataPorts ≠ []
      ∧ ∀ p ∈ (ranHere l m s).2.dataPorts, ((ranHere l m s).2.lane p).fwdQ.length < 32)
    ∧ (∃ (l : Nat) (m : Msg) (s : State) (p : Nat), waiting l m s ∧ taken l m s ∧ away l m s ∧ ports l m s = [p] ∧ s.dev.alone = false
      ∧ ((emptied s.dev l).lane p).fwdQ.length < 32)
    ∧ (∃ (l : Nat) (m : Msg) (s : State) (p : Nat), waiting l m s ∧ taken l m s ∧ away l m s ∧ ports l m s = [p] ∧ s.dev.alone = false
      ∧ 32 ≤ ((emptied s.dev l).lane p).fwdQ.length)
    ∧ (∃ (l : Nat) (m : Msg) (s : State), waiting l m s ∧ taken l m s ∧ away l m s ∧ (ports l m s = [] ∨ s.dev.alone = true))
    ∧ (∃ (l : Nat) (m : Msg) (s : State), waiting l m s ∧ taken l m s ∧ decide (l < s.dev.role.downLanes) = false ∧ s.dev.role = .frontEnd
      ∧ (cmdScope (carried s.dev l m) = 0 ∧ own l m s = false ∨ cmdScope (carried s.dev l m) = 1 ∧ toMe l m s = false
      ∨ cmdScope (carried s.dev l m) = 3 ∧ cmdPathLen (carried s.dev l m) < 2))
    ∧ (∃ (l : Nat) (m : Msg) (s : State), waiting l m s ∧ taken l m s ∧ decide (l < s.dev.role.downLanes) = false ∧ cmdScope (carried s.dev l m) = 3
      ∧ cmdPathLen (carried s.dev l m) = 3) :=
  ⟨⟨43, (cd 0 5 0), ln 43 [ev, cd 0 5 0] (un (base 1)), by decide +kernel⟩,
    ⟨43, (cd 0 5 4), ln 43 [ev, cd 0 5 4] (base 1), by decide +kernel⟩,
    ⟨3, (cd 0 5 1), seen (ln 3 [ev, cd 0 5 1] (base 1)), by decide +kernel⟩,
    ⟨3, mr, ln 3 [ev, mr] (base 1), 10, by decide +kernel⟩,
    ⟨3, me, ln 3 [ev, me] (base 1), by decide +kernel⟩,
    ⟨43, me, busy (ln 43 [ev, me] (base 1)), by decide +kernel⟩,
    ⟨43, (cd 2 5 1), ln 43 [ev, cd 2 5 1] (rt (base 1)), by decide +kernel⟩,
    ⟨43, (cd 0 5 1), ln 43 [ev, cd 0 5 1] (rt (base 1)), 18, by decide +kernel⟩,
    ⟨43, (cd 0 5 1), fq (ln 43 [ev, cd 0 5 1] (rt (base 1))), 18, by decide +kernel⟩,
    ⟨43, (cd 0 6 1), ln 43 [ev, cd 0 6 1] (rt (base 1)), by decide +kernel⟩,
    ⟨1, (cd 0 6 1), ln 1 [ev, cd 0 6 1] (base 0), by decide +kernel⟩,
    ⟨1, (cd 3 6 1 0x3000), ln 1 [ev, cd 3 6 1 0x3000] (base 0), by decide +kernel⟩⟩

theorem wit_RepliesAndReadCompletions :
    (∃ (l : ℕ) (m : Msg) (s : State), l < 48 ∧ s.dev.up = true ∧ List.find? (fun m => m.kind == 2 || m.kind == 3) (s.dev.lane l).msgIn = some m
      ∧ s.dev.role.downLanes ≤ l)
    ∧ (∃ (l : ℕ) (m : Msg) (s : State), l < 48 ∧ s.dev.up = true ∧ List.find? (fun m => m.kind == 2 || m.kind == 3) (s.dev.lane l).msgIn = some m
      ∧ l < s.dev.role.downLanes ∧ s.dev.role = Role.cell ∧ (s.dev.lane l).upQ.length < s.dev.upQueue)
    ∧ (∃ (l : ℕ) (m : Msg) (s : State), l < 48 ∧ s.dev.up = true ∧ List.find? (fun m => m.kind == 2 || m.kind == 3) (s.dev.lane l).msgIn = some m
      ∧ l < s.dev.role.downLanes ∧ s.dev.role = Role.cell ∧ s.dev.upQueue ≤ (s.dev.lane l).upQ.length)
    ∧ (∃ (l : ℕ) (m : Msg) (s : State), l < 48 ∧ s.dev.up = true ∧ List.find? (fun m => m.kind == 2 || m.kind == 3) (s.dev.lane l).msgIn = some m
      ∧ l < s.dev.role.downLanes ∧ s.dev.role = Role.hub ∧ m.kind = 3)
    ∧ (∃ (l : ℕ) (m : Msg) (s : State), l < 48 ∧ s.dev.up = true ∧ List.find? (fun m => m.kind == 2 || m.kind == 3) (s.dev.lane l).msgIn = some m
      ∧ l < s.dev.role.downLanes ∧ s.dev.role = Role.hub ∧ m.kind = 2 ∧ m.seq ∉ s.dev.hr.dead)
    ∧ (∃ (l : ℕ) (m : Msg) (s : State), l < 48 ∧ s.dev.up = true ∧ List.find? (fun m => m.kind == 2 || m.kind == 3) (s.dev.lane l).msgIn = some m
      ∧ l < s.dev.role.downLanes ∧ s.dev.role = Role.hub ∧ m.kind = 2 ∧ m.seq ∈ s.dev.hr.dead)
    ∧ (∃ (s : State), s.dev.up = true ∧ s.dev.role = Role.hub)
    ∧ (∃ (bytes : List ℕ) (s : State), s.dev.ringsRun = true ∧ s.dev.hr.sweepOut = some [] ∧ ∀ b ∈ bytes, b = 0)
    ∧ (∃ (bytes : List ℕ) (b : ℕ) (s : State), s.dev.ringsRun = true ∧ s.dev.hr.sweepOut = some [] ∧ b < 512 ∧ ∀ k < 512, bytes.getD k 0 ≠ 0 ↔ k = b)
    ∧ (∃ (byte : ℕ) (ws : List (ℕ × ℕ)) (s : State), s.dev.ringsRun = true)
    ∧ (∃ (r : ℕ) (w : List Word) (s : State),
       s.dev.ringsRun = true ∧ r < 4096 ∧ (s.dev.ring r).typ = 2 ∧ ((s.dev.ring r).st = 1 ∨ (s.dev.ring r).st = 2)
      ∧ (s.dev.ring r).head ≠ (s.dev.ring r).fetched)
    ∧ (∃ (r : ℕ) (w : List Word) (s : State), s.dev.ringsRun = true ∧ (s.dev.ring r).typ ≠ 2) :=
  ⟨⟨43, (re 2 3), ln 43 [re 2 3] (base 1), by decide +kernel⟩,
    ⟨3, (re 2 3), ln 3 [re 2 3] (base 1), by decide +kernel⟩,
    ⟨3, (re 2 3), uq (ln 3 [re 2 3] (base 1)), by decide +kernel⟩,
    ⟨3, (re 3 3), ln 3 [re 3 3] (hub (base 2)), by decide +kernel⟩,
    ⟨3, (re 2 3), ost (ln 3 [re 2 3] (hub (base 2))), by decide +kernel⟩,
    ⟨3, (re 2 8), ost (ln 3 [re 2 8] (hub (base 2))), by decide +kernel⟩,
    ⟨ost (hub (base 2)), by decide +kernel⟩,
    ⟨[0,0], swp (base 2), by decide +kernel⟩,
    ⟨[0,0,8], 2, swp (base 2), by decide +kernel⟩,
    ⟨2, [(1,2),(3,4)], swp (base 2), by decide +kernel⟩,
    ⟨5, (wordsOf [5 + 291 * 65536, 2, 3, 4, 5, 6, 7, 8]), cr (base 2), by decide +kernel⟩,
    ⟨5, (wordsOf [5, 2, 3, 4, 5, 6, 7, 8]), swp (base 2), by decide +kernel⟩⟩

end Cmds

/-! ### Witnesses: merging -/

namespace Merge

def nz (s : State) : List State := [s, full s]
def F := 77001234
def rec (typ dev fi : Nat) (extra : List Nat) : List Word := wordsOf ([recW0 typ 1 3 dev, recW1 (3 + extra.length) 5, fi % 2^32] ++ extra)
def port (l dev r : Nat) (rs : List (List Word)) : State :=
  st [(MRG_PORT_DEV_VALID l, 1), (MRG_PORT_DEV_DEVNUM l, dev), (LN_STATUS_DATA_SERVICE l, 1), (LN_STATUS_LSTATE l, 4), (MRG_PORT_DEV_VALID 4, 1),
      (MRG_PORT_DEV_DEVNUM 4, 8), (MRG_RX_STATS_UNASSOC, 255)] (onD (fun d => d.updLane l fun x => { x with recIn := rs }) (base r))
def r1 := rec 1 7 F [1,2,3]
def r3 := rec 1 7 (F-57) [1,2,3]
def q (ws : List Word) (a : Nat) (p : Nat := 3) : RxRec := ⟨p, F-56, ws, a, false, false⟩
def rx (l : List RxRec) (s : State) : State := onD (fun d => { d with mrg := { d.mrg with rxFifo := l } }) s
def h1 := rec 1 7 (F-56) [1,2,3,4,5]
def okw : List Nat := let b := [recW0 2 1 3 7, recW1 7 5, (F-56) % 2^32, 0, 0, 0]; b ++ [0]
def okq : RxRec := ⟨3, F-56, wordsOf okw, 8, false, false⟩
def ff (fn : Nat) (j : Bool) : FStat :=
  { fn := fn, base := 0, cyc := 250, exc := 0, u := 0, clkState := 1, selected := 0, stepped := false, force := [], env := [], anchor := [],
    acq := [0,1,2], accept := [0,1,2], calib := [], age := 0, dead := [], reasons := 0, refused := none, nHit := 0, nStream := 0, nLoss := 0,
    nDrop := 0, nDup := 0, judged := j, ports := [], summed := false, gone := false }
def hz (g : Nat) (rn : Bool) (s : State) : State :=
  onD (fun d => { d with acq := { d.acq with fstats := [ff (F-g-1) true, ff (F-g) false, ff (F-g+1) false, ff F false] },
                         rcd := { d.rcd with startFn := if rn then some 0 else none, pool := 300 } }) s
def onr (r : Nat) (s : State) : State :=
  onD (fun d => d.setRing r { Ring.init with st := 1, typ := 1, log2 := 4, bufKb := 4, entFrames := 4, post := 3 }) s
def ringy (s : State) : List State := [s, onr 7 (st [(MRG_RING_SEL0_ACCT_RING, 7), (MRG_RING_SEL1_RESIDUE_RING, 7)] s), hub s, full s]
def g3 (s : State) :=
  st [(MRG_PORT_DEV_VALID 3, 1), (MRG_PORT_DEV_DEVNUM 3, 7), (MRG_PORT_DEV_VALID 5, 1), (MRG_PORT_DEV_DEVNUM 5, 7), (MRG_PORT_DEV_VALID 4, 1),
      (MRG_PORT_DEV_DEVNUM 4, 8)] s
def ck (r : RxRec) : RxRec := { r with checked := true }
def sm2 (dev n : Nat) := wordsOf [recW0 3 0 63 dev, recW1 8 5, (F-56) % 2^32, 0, 0, 0, n, 0]
def allJ (s : State) : State :=
  onD (fun d => { d with acq := { d.acq with fstats := (d.acq.fstats.map fun f => { f with judged := true }) ++ [ff (F-55) false] } }) s
def bl (b : Nat) (s : State) :=
  allJ (onD (fun d => { d with mrg := { d.mrg with bjs := [(F-58, 5), (F-59, 3), (F-58, 3)],
                                                   bwait := [⟨3, F-59, h1, 4, true, false⟩, ⟨3, F-59, h1, 6, true, false⟩,
                                                             ⟨3, F-57, h1, 5, true, false⟩] } }) (st [(MRG_HUB_CTRL_BUILD_EN, b % 2), (MRG_HUB_CTRL_UNSELECTED, b / 2), (MRG_SEL_CFG_ENABLE 2, 1), (MRG_SEL_COND_RING 2, 7)] s))
def bw1 (s : State) := onD (fun d => { d with mrg := { d.mrg with bwait := d.mrg.bwait.take 1, bjs := [(F-59, 3)] } }) s

theorem wit_LateRecordsAreDiscardedAndCounted :
    (∃ (l : ℕ) (ws : List Word) (rest : List (List Word)) (s : State), s.dev.up = true ∧ l < s.dev.role.downLanes ∧ (s.dev.lane l).recIn = ws :: rest
      ∧ (s.dev.inData l && s.dev.effB (MRG_PORT_DEV_VALID l) && s.dev.fitsPort l (recDev (natsOf ws)) (recTyp (natsOf ws))) = true
      ∧ fiDiff (recFi (natsOf ws)) s.dev.fi ≤ 1 ∧ s.dev.pastHorizon (s.dev.fnOfFi (recFi (natsOf ws))) = true)
    ∧ (∃ (d : Dev) (fn : ℕ), d.role = Role.cell ∨ d.role = Role.hub)
    ∧ (∃ (d : Dev) (fn : ℕ) (f : FStat), d.frameOf fn = some f ∧ f.judged = true) :=
  ⟨⟨3, r3, [r1], (pick (nz (port 3 7 1 [r3, r1])) 0), by decide +kernel⟩,
    ⟨(hz 56 true (base 2)).dev, (F-57), by decide +kernel⟩,
    ⟨(hz 56 true (base 2)).dev, (F-57), (ff (F-57) true), by decide +kernel⟩⟩

theorem wit_RecordsReceivedAndChecked :
    (∃ (l : ℕ) (ws : List Word) (rest : List (List Word)) (s : State), s.dev.up = true ∧ l < s.dev.role.downLanes ∧ (s.dev.lane l).recIn = ws :: rest)
    ∧ (∃ (p : ℕ) (r : RxRec) (s : State) (xs : List ℤ), p < 48 ∧ s.dev.up = true ∧ s.dev.role = Role.hub
      ∧ List.find? (fun r => r.port == p && !r.checked && hasSamples (natsOf r.words)) s.dev.mrg.rxFifo = some r
      ∧ decodeRec (natsOf r.words) (refOf s.dev.mrg.rxFifo r) = Decoded.ok xs)
    ∧ (∃ (p : ℕ) (r : RxRec) (s : State) (c : ℕ), p < 48 ∧ s.dev.up = true ∧ s.dev.role = Role.hub
      ∧ List.find? (fun r => r.port == p && !r.checked && hasSamples (natsOf r.words)) s.dev.mrg.rxFifo = some r
      ∧ decodeRec (natsOf r.words) (refOf s.dev.mrg.rxFifo r) = Decoded.bad c)
    ∧ (∃ (p : ℕ) (s : State), p < 48 ∧ List.find? (fun r => r.port == p && !r.checked && hasSamples (natsOf r.words)) s.dev.mrg.rxFifo = none) :=
  ⟨⟨3, r1, [r1], (pick (nz (port 3 7 1 [r1, r1])) 0), by decide +kernel⟩,
    ⟨3, okq, (rx [q r1 5 4, okq, q h1 7] (base 2)), [], by decide +kernel⟩,
    ⟨3, (q h1 6), (rx [q r1 5 4, q h1 6, q h1 7] (st [(CMP_CHECK_STATS_NO_REF, 70000)] (base 2))), 5, by decide +kernel⟩,
    ⟨8, (rx [q r1 5 4, q h1 6, q h1 7] (st [(CMP_CHECK_STATS_NO_REF, 70000)] (base 2))), by decide +kernel⟩⟩

theorem wit_HorizonBuilderAndRoutes :
    (∃ (f : FStat) (s : State), s.dev.up = true ∧ (s.dev.role = Role.cell ∨ s.dev.role = Role.hub)
      ∧ List.find? (fun f => !f.judged) s.dev.acq.fstats = some f ∧ (f.fn + if s.dev.role = Role.hub then 56 else 40) ≤ s.dev.fn)
    ∧ (∃ (f : FStat) (s : State),
       s.dev.up = true ∧ s.dev.role = Role.hub ∧ List.find? (fun f => !f.judged) s.dev.acq.fstats = some f ∧ f.fn + 56 ≤ s.dev.fn
      ∧ s.dev.recording f.fn = true ∧ (s.dev.mrg.rxFifo.all fun r => r.fn != f.fn || r.checked) = true)
    ∧ (∃ (s : State), ∀ b ∈ s.dev.mrg.bjs, s.dev.fn < b.1 + 56 + b.2 ∨ ∃ f ∈ s.dev.acq.fstats, f.fn ≤ b.1 + b.2 ∧ f.judged = false)
    ∧ (∃ (fn : ℕ) (j : ℕ) (s : State), s.dev.up = true ∧ s.dev.role = Role.hub
      ∧ List.find? (fun b => decide (b.1 + 56 + b.2 ≤ s.dev.fn) && s.dev.acq.fstats.all fun f => f.judged || decide (b.1 + b.2 < f.fn)) s.dev.mrg.bjs = some (fn, j))
    ∧ (∃ (fn : ℕ) (j : ℕ) (k : ℕ) (a : RxRec) (s : State),
       s.dev.up = true ∧ s.dev.role = Role.hub ∧ s.dev.mrg.bjs = [(fn, j)] ∧ fn + 56 + j ≤ s.dev.fn
      ∧ (∀ f ∈ s.dev.acq.fstats, f.judged = true ∨ fn + j < f.fn) ∧ s.dev.mrg.bwait = [a] ∧ a.fn = fn ∧ s.dev.effB MRG_HUB_CTRL_BUILD_EN = true
      ∧ k < 8 ∧ (∀ i < 8, s.dev.effB (MRG_SEL_CFG_ENABLE i) = decide (i = k)) ∧ s.dev.meets k [a] = true)
    ∧ (∃ (src : Source) (v : Word) (s : State), Passes s.dev src 32804) :=
  ⟨⟨(ff (F-56) false), (pick (ringy (hz 56 true (g3 (rx [q h1 5 4, q h1 6, q h1 7] (base 2))))) 0), by decide +kernel⟩,
    ⟨(ff (F-56) false),
     (pick (ringy (hz 56 true (g3 (rx [ck (q h1 5 4), ck (q h1 6), ck (q (sm2 7 1) 7 5), ck (q (sm2 7 1) 8), ck (q h1 9 5)] (st [(MRG_HUB_CTRL_BUILD_EN, 1), (MRG_SEL_CFG_ENABLE 2, 1), (MRG_SEL_CFG_WINDOW_NS 2, 2000)] (base 2)))))) 0),
     by decide +kernel⟩,
    ⟨base 2, by decide +kernel⟩,
    ⟨(F-59), 3, (pick (ringy (bl 0 (base 2))) 0), by decide +kernel⟩,
    ⟨(F-59), 3, 2, ⟨3, F-59, h1, 4, true, false⟩, (pick (ringy (bw1 (bl 1 (base 2)))) 0), by decide +kernel⟩,
    ⟨.spi, 0x12345678, base 2, by decide +kernel⟩⟩

end Merge

/-! ### Witnesses: rings and the link -/

namespace Rings

def F := 77001234
def rw' (typ dev fi n : Nat) : List Word := wordsOf ([recW0 typ 1 3 dev, recW1 (3 + n) 5, fi % 2^32] ++ List.replicate n 7)
def hb (s : State) : State :=
  st [(HR_CTRL_ENABLE, 1), (HR_LINK_STATUS_LINK_UP, 1), (HR_HEAD_BASE_LO_ADDR_LO, 0x8000), (HR_HEAD_BASE_HI_ADDR_HI, 3), (MRG_RING_SEL0_ACCT_RING, 8)] s
def rg (r : Nat) (g : Ring) (s : State) : State := onD (fun d => d.setRing r g) s
def on1 : Ring :=
  { Ring.init with st := 1, typ := 1, log2 := 4, bufKb := 1, entFrames := 4, post := 3, vec := 5, intEn := true, base := 0x100000, rewinds := 7 }
def acct (s : State) : State := rg 8 on1 s
def nz2 (s : State) : List State := [s, hub s, acct s, acct (hub s), st [(HR_DROP_STATS_EVT_DROPPED, 4095)] s]
def op (r k : Nat) (s : State) := st [(HR_RING_OP_BUSY, 1)] (onD (fun d => { d with hr := { d.hr with ringOp := some (r, k) } }) s)
def stp : Ring := { on1 with st := 2, head := 2^32-1, entries := [⟨4, 0x100, [rw' 1 7 F 3], F-3, F-2, false, false, false, true, true⟩] }
def ln (l : List (Nat × Nat × Nat × Nat)) (s : State) := onD (fun d => { d with hr := { d.hr with lines := l } }) s
def en (j : Nat) (w : Bool) : Entry := ⟨j, 0x100, [rw' 1 7 F 3], F-3, F-2, false, false, false, true, w⟩
def r5 : Ring := { on1 with head := 3, post := 4, confirm := 1, entries := [en 1 true, en 2 true, en 3 false], qStart := 900, error := true }
def big := rw' 1 7 F 200
def w5 : Ring :=
  { on1 with head := 3, post := 6, confirm := 1, entries := [en 2 true, en 3 false], wait := [big, rw' 6 0 F 3, rw' 1 7 F 30, big, big], rewinds := 7 }
def op5 : Entry := ⟨4, 0x100, [rw' 1 7 F 3], F-3, 0, false, false, true, false, false⟩
def vp (l : Nat) (s : State) := onD (fun d => { d with hr := { d.hr with vecPend := [3, 37], vecLast := [(37, F-l)] } }) s
def um (s : State) := onD (fun d => d.setMsix (4*37+3) 0) s
def mon (s : State) := onD (fun d => { d with hr := { d.hr with msixOn := true } }) s
def due (s : State) := onD (fun d => { d with hr := { d.hr with vecPend := [37], msixDue := [37] } }) (um (mon (hb s)))
def dl : Ring :=
  { on1 with wait := [rw' 1 7 (F-128) 5, rw' 1 7 (F-127) 5, rw' 4 7 (F-200) 5, rw' 6 7 (F-128) 5, rw' 1 8 (F-129) 5],
             hold := [rw' 1 7 (F-128) 5, rw' 1 7 (F-12) 5] }
def trn (s : State) : State := onD (fun d => { d with hr := { d.hr with everUp := true, trained := true } }) s
def rt (s : State) :=
  onD (fun d => { d with pins := { d.pins with perst := false }, hr := { d.hr with everUp := true, lossWait := (3,4,5) } }) (st [(HR_LINK_STATUS_LINK_UP, 0)] (hb s))
def evr : Ring := { on1 with typ := 3, entries := [⟨1, 0, [wordsOf [1,2,3,4]], 0, 0, false, false, false, true, true⟩], head := 2, confirm := 1 }

theorem wit_RingsEnableAndDisable :
    (∃ (src : Source) (v : Word) (s : State), Passes s.dev src 36864 ∧ s.dev.role = Role.hub)
    ∧ (∃ (src : Source) (r : ℕ) (s : State), Passes s.dev src 36900 ∧ s.dev.role = Role.hub ∧ r < 4096)
    ∧ (∃ (r : ℕ) (w : List Word) (post : ℕ) (confirm : ℕ) (s : State), s.dev.ringsRun = true ∧ r < 4096 ∧ s.dev.hr.ringOp = some (r, 3))
    ∧ (∃ (r : ℕ) (s : State), r < 4096 ∧ s.dev.ringsRun = true ∧ (s.dev.ring r).st = 2 ∧ (s.dev.ring r).finalHead = false
      ∧ ((s.dev.ring r).entries.all fun x => x.written) = true ∧ ((s.dev.ring r).typ = 2 → (s.dev.ring r).head = (s.dev.ring r).fetched))
    ∧ (∃ (r : ℕ) (p : ℕ) (c : ℕ) (f : ℕ) (s : State), s.dev.up = true ∧ s.dev.engineOn = true
      ∧ List.filter (fun x => decide (x.2.2.2 < s.dev.fn)) s.dev.hr.lines = [(r, p, c, f)] ∧ (s.dev.ring r).st = 1)
    ∧ (∃ (s : State), s.dev.up = true ∧ s.dev.engineOn = true ∧ (s.dev.hr.lines.all fun x => decide (s.dev.fn ≤ x.2.2.2)) = true) :=
  ⟨⟨.spi, 0, base 2, by decide +kernel⟩,
    ⟨.spi, 77, base 2, by decide +kernel⟩,
    ⟨5, (wordsOf [64, 1, 1 + 4 * 256, 1 + 5 * 65536 + 7 * 2^24, 7]), 0, 0, (pick (nz2 (op 5 3 (hb (base 2)))) 0), by decide +kernel⟩,
    ⟨5, (pick (nz2 (rg 5 stp (hb (base 2)))) 0), by decide +kernel⟩,
    ⟨5, 6, 2, (F-1), (pick (nz2 (ln [(5, 6, 2, F-1), (5, 9, 9, F)] (rg 5 r5 (hb (base 2))))) 0), by decide +kernel⟩,
    ⟨(pick (nz2 (ln [(5, 9, 9, F)] (rg 5 {r5 with typ := 3} (hb (base 2))))) 0), by decide +kernel⟩⟩

theorem wit_EntriesAndHeadWords :
    (∃ (r : ℕ) (buf : ℕ) (s : State), r < 4096 ∧ s.dev.ringsRun = true ∧ (s.dev.ring r).st = 1 ∧ (s.dev.ring r).typ = 1 ∧ (s.dev.ring r).wait ≠ []
      ∧ (s.dev.ring r).openEntry = none ∧ cntDiff (s.dev.ring r).post (s.dev.ring r).nextJ ≠ 0
      ∧ cntDiff (s.dev.ring r).post (s.dev.ring r).nextJ ≤ 2 ^ (s.dev.ring r).log2)
    ∧ (∃ (r : ℕ) (e : Entry) (s : State), r < 4096 ∧ s.dev.up = true ∧ (s.dev.ring r).openEntry = some e)
    ∧ (∃ (r : ℕ) (e : Entry) (s : State), r < 4096 ∧ s.dev.ringsRun = true ∧ (s.dev.ring r).typ ≠ 3
      ∧ List.find? (fun e => !e.written) (s.dev.ring r).entries = some e ∧ e.closed = true ∧ e.closeFn < s.dev.fn)
    ∧ (∃ (r : ℕ) (s : State), r < 4096 ∧ s.dev.ringsRun = true ∧ (s.dev.ring r).st = 1)
    ∧ (∃ (r : ℕ) (s : State), r < 4096 ∧ s.dev.ringsRun = true ∧ (s.dev.ring r).st = 1 ∧ ((s.dev.ring r).hb = 0
      ∨ s.dev.fn < (s.dev.ring r).lastHeadFn + (s.dev.ring r).hb))
    ∧ (∃ (v : ℕ) (s : State), v < 64 ∧ s.dev.ringsRun = true ∧ s.dev.hr.msixOn = true ∧ v ∈ s.dev.hr.vecPend)
    ∧ (∃ (v : ℕ) (d : Dev), v < 64 ∧ d.hr.vecPend = [v] ∧ d.hr.msixDue = [v] ∧ d.hr.msixMask = false ∧ bitOf (d.msixWord (4 * v + 3)) 0 = false)
    ∧ (∃ (r : ℕ) (s : State), r < 4096 ∧ s.dev.ringsRun = true ∧ (s.dev.ring r).st = 1 ∧ (s.dev.ring r).typ = 3 ∧ 0 < (s.dev.ring r).lost
      ∧ (s.dev.ring r).wait = [] ∧ ((s.dev.ring r).entries.all fun x => x.written) = true
      ∧ cntDiff ((s.dev.ring r).head % 2 ^ 32) (s.dev.ring r).confirm < 2 ^ (s.dev.ring r).log2)
    ∧ (∃ (s : State), s.dev.up = true ∧ s.dev.role = Role.hub) :=
  ⟨⟨5, 0x1000, (pick (nz2 (rg 5 w5 (hb (base 2)))) 0), by decide +kernel⟩,
    ⟨5, op5, (pick (nz2 (rg 5 {w5 with entries := [en 3 false, op5]} (hb (base 2)))) 0), by decide +kernel⟩,
    ⟨5, (en 3 false), (pick (nz2 (rg 5 w5 (hb (base 2)))) 0), by decide +kernel⟩,
    ⟨5, (pick (nz2 (rg 5 {w5 with hb := 3} (hb (base 2)))) 0), by decide +kernel⟩,
    ⟨5, (pick (nz2 (rg 5 {w5 with hb := 3, lastHeadFn := F-2} (hb (base 2)))) 0), by decide +kernel⟩,
    ⟨37, vp 3 (mon (hb (base 2))), by decide +kernel⟩,
    ⟨37, (due (base 2)).dev, by decide +kernel⟩,
    ⟨5, (pick (nz2 (rg 5 { on1 with typ := 3, lost := 4, head := 2^32-1, confirm := 2^32-4 } (hb (base 2)))) 0), by decide +kernel⟩,
    ⟨(pick (nz2 (rg 5 dl (hb (base 2)))) 0), by decide +kernel⟩⟩

theorem wit_LinkAndEndpoint :
    (∃ (s : State), s.dev.up = true ∧ s.dev.role = Role.hub ∧ s.dev.hr.trained = true)
    ∧ (∃ (width : ℕ) (s : State), s.dev.up = true ∧ s.dev.role = Role.hub ∧ s.dev.hr.everUp = false ∧ s.dev.pins.perst = false)
    ∧ (∃ (s : State), s.dev.up = true ∧ s.dev.role = Role.hub ∧ s.dev.hr.everUp = true ∧ s.dev.hr.trained = false ∧ s.dev.pins.perst = false
      ∧ s.dev.get HR_LINK_STATUS_D3HOT = 0 ∧ s.dev.hr.lines = [])
    ∧ (∃ (s : State), s.dev.up = true ∧ s.dev.role = Role.hub ∧ s.dev.hr.everUp = true ∧ s.dev.hr.trained = false ∧ s.dev.pins.perst = false
      ∧ s.dev.get HR_LINK_STATUS_D3HOT = 1)
    ∧ (∃ (r : ℕ) (s : State), r < 4096 ∧ s.dev.ringsRun = true ∧ (s.dev.ring r).st = 1 ∧ ((s.dev.ring r).typ = 1 ∨ (s.dev.ring r).typ = 3)
      ∧ s.dev.hr.lines = [])
    ∧ (∃ (c : Instr) (s : State),
       s.dev.up = true ∧ s.dev.role = Role.hub ∧ (c = Instr.pciePerst ∨ c = Instr.functionLevelReset ∨ c = Instr.d3hotEntry)) :=
  ⟨⟨(pick (nz2 (trn (hb (base 2)))) 0), by decide +kernel⟩,
    ⟨8, (pick (nz2 (onD (fun d => { d with pins := { d.pins with perst := false } }) (base 2))) 0), by decide +kernel⟩,
    ⟨(pick (nz2 (rg 5 w5 (rt (rg 6 evr (rg 4 stp (base 2)))))) 0), by decide +kernel⟩,
    ⟨st [(HR_LINK_STATUS_D3HOT, 1)] (rt (base 2)), by decide +kernel⟩,
    ⟨5, (pick (nz2 (rg 5 w5 (hb (rg 6 evr (rg 4 stp (base 2)))))) 0), by decide +kernel⟩,
    ⟨.functionLevelReset, (pick (nz2 (trn (rg 5 w5 (hb (rg 6 evr (rg 4 stp (base 2))))))) 0), by decide +kernel⟩⟩

end Rings

/-! ### Witnesses: host and SPI access -/

namespace Access

def hb (s : State) : State := st [(HR_CTRL_ENABLE, 1), (HR_LINK_STATUS_LINK_UP, 1)] s
def fr (n : Nat) (s : State) :=
  onD (fun d => { d with pins := { d.pins with perst := false }, pw := { d.pw with frames := n }, free := 77,
                         hr := { d.hr with trained := true, bar0 := 2^40 + 2^21 } }) s
def rdy := fr 30000 (st [(HR_LINK_STATUS_D3HOT, 1)] (base 2))

theorem wit_HostAndSpiAccess :
    (∃ (r : BarReq) (s : State), ¬(s.dev.up = true ∧ s.dev.role = Role.hub ∧ s.dev.linkUp = true))
    ∧ (∃ (r : BarReq) (s : State), s.dev.up = true ∧ s.dev.role = Role.hub ∧ s.dev.linkUp = true ∧ r.offset < 65536 ∧ (r.dws ≠ 1 ∨ r.allBe = false))
    ∧ (∃ (r : BarReq) (s : State), s.dev.up = true ∧ s.dev.role = Role.hub ∧ s.dev.linkUp = true ∧ r.offset < 65536 ∧ r.dws = 1 ∧ r.allBe = true
      ∧ r.data = none ∧ r.offset / 4 * 4 ∉ readActs)
    ∧ (∃ (r : BarReq) (s : State) (v : Word),
       s.dev.up = true ∧ s.dev.role = Role.hub ∧ s.dev.linkUp = true ∧ r.offset < 65536 ∧ r.dws = 1 ∧ r.allBe = true
      ∧ r.data = some [v])
    ∧ (∃ (k : ℕ) (v : Word) (s : State), s.dev.up = true ∧ s.dev.role = Role.hub ∧ s.dev.linkUp = true ∧ k < 256)
    ∧ (∃ (k : ℕ) (s : State), s.dev.up = true ∧ s.dev.role = Role.hub ∧ s.dev.linkUp = true ∧ k < 256)
    ∧ (∃ (q : CfgReq) (s : State), s.dev.up = true ∧ s.dev.role = Role.hub ∧ s.dev.hr.trained = true ∧ s.dev.pins.perst = false
      ∧ s.dev.pw.frames < s.dev.pins.perstFn + 30000)
    ∧ (∃ (s : State) (a : ℕ), s.dev.up = true ∧ s.dev.role = Role.hub ∧ s.dev.hr.trained = true ∧ s.dev.pins.perst = false
      ∧ s.dev.pins.perstFn + 30000 ≤ s.dev.pw.frames ∧ a < 4)
    ∧ (∃ (s : State) (a : ℕ), s.dev.up = true ∧ s.dev.role = Role.hub ∧ s.dev.hr.trained = true ∧ s.dev.pins.perst = false
      ∧ s.dev.pins.perstFn + 30000 ≤ s.dev.pw.frames ∧ a / 4 ∉ [0, 2, 4, 5, 6, 7, 8, 9, 11, 12])
    ∧ (∃ (s : State) (c : CfgCap), s.dev.up = true ∧ s.dev.role = Role.hub ∧ s.dev.hr.trained = true ∧ s.dev.pins.perst = false
      ∧ s.dev.pins.perstFn + 30000 ≤ s.dev.pw.frames)
    ∧ (∃ (s : State) (p : ℕ) (r : ℕ), s.dev.up = true ∧ s.dev.role = Role.hub ∧ s.dev.hr.trained = true ∧ s.dev.pins.perst = false
      ∧ s.dev.pins.perstFn + 30000 ≤ s.dev.pw.frames)
    ∧ (∃ (s : State) (e : Bool) (m : Bool), s.dev.up = true ∧ s.dev.role = Role.hub ∧ s.dev.hr.trained = true ∧ s.dev.pins.perst = false
      ∧ s.dev.pins.perstFn + 30000 ≤ s.dev.pw.frames)
    ∧ (∃ (s : State) (v : Word), s.dev.up = true ∧ s.dev.role = Role.hub ∧ s.dev.hr.trained = true ∧ s.dev.pins.perst = false
      ∧ s.dev.pins.perstFn + 30000 ≤ s.dev.pw.frames)
    ∧ (∃ (s : State), s.dev.up = true ∧ s.dev.role = Role.hub ∧ s.dev.hr.trained = true ∧ s.dev.pins.perst = false
      ∧ s.dev.pins.perstFn + 30000 ≤ s.dev.pw.frames)
    ∧ (∃ (mosi : List Bool) (n : ℕ) (s : State), s.dev.boot ≠ Boot.off ∧ mosi.length < 32)
    ∧ (∃ (a : ℕ) (s : State), s.dev.boot ≠ Boot.off ∧ a < 65536 ∧ a / 4 * 4 ∉ readActs)
    ∧ (∃ (a : ℕ) (n : ℕ) (v : Word) (s : State), s.dev.boot ≠ Boot.off ∧ a < 65536)
    ∧ (∃ (a : ℕ) (d : Dev), d.pw.shown = []) :=
  ⟨⟨⟨0x104, 1, true, none⟩, base 1, by decide +kernel⟩,
    ⟨⟨0x104, 2, true, none⟩, (hb (base 2)), by decide +kernel⟩,
    ⟨⟨0x106, 1, true, none⟩, (hb (base 2)), by decide +kernel⟩,
    ⟨⟨0x1060, 1, true, some [0x12345678#32]⟩, (hb (base 2)), 0x12345678, by decide +kernel⟩,
    ⟨255, 1, (hb (base 2)), by decide +kernel⟩,
    ⟨255, (hb (base 2)), by decide +kernel⟩,
    ⟨(.read 9), fr 29999 (base 2), by decide +kernel⟩,
    ⟨rdy, 3, by decide +kernel⟩,
    ⟨rdy, 13, by decide +kernel⟩,
    ⟨rdy, .serialHi, by decide +kernel⟩,
    ⟨rdy, 2, 9, by decide +kernel⟩,
    ⟨rdy, true, true, by decide +kernel⟩,
    ⟨rdy, 0xFFFFFFFF, by decide +kernel⟩,
    ⟨rdy, by decide +kernel⟩,
    ⟨[true, false], 3, (base 1), by decide +kernel⟩,
    ⟨0x0106, (base 1), by decide +kernel⟩,
    ⟨0x1060, 4, 0x12345, (base 1), by decide +kernel⟩,
    ⟨0xA014, (base 1).dev, by decide +kernel⟩⟩

end Access

/-! ### Witnesses: faults and recovery -/

namespace Recovery

def F := 77001234
def md (s : State) : State := st [(PWR_DOM_MD 0, 3), (PWR_DOM_MD 1, 3), (PWR_DOM_MD 2, 3)] s
def ec (l : List (Nat × Nat)) (s : State) : State := { s with ecc := l }
def lap (s : State) : State := onD (fun d => { d with flt := { d.flt with laps := (List.range 17).map fun m => (m, 5000 + m) } }) s
def asy (l : List Assay) (s : State) :=
  onD (fun d => { d with flt := { d.flt with assays := l, logSeq := 10, log := [(7, wordsOf [1,2,3,7]), (9, wordsOf [1,2,3,9])] } }) s
def rtg (p n : Nat) (s : State) :=
  onD (fun d => { d with flt := { d.flt with retiring := [(p, some n)] } }) (st [(MEM_RETIRE_OP_BUSY, 1), (MEM_SPARE_REMAPPED, 2047)] s)
def am (typ chan seq : Nat) (e : Option Nat) (smp : List Int) (af : Nat) : Asm :=
  { typ := typ, chan := chan, slot := 0, fn := 5, seq := seq, head := List.replicate 6 0#32, smp := smp, width := 16, first := 5, asmFn := af,
    cfgFn := af, engine := e, ref := none, enc := 0, out := [] }
def eng (s : State) : State :=
  onD (fun d => { d with rcd := { d.rcd with asm := [am 1 5 1 none [3] F, am 1 6 1 (some 5) [3] F, am 2 5 2 none [3] F] } }) s

theorem wit_FaultsAndRecovery :
    (∃ (m : ℕ) (flips : ℕ) (s : State), m < 17 ∧ s.dev.up = true ∧ (m = 16 ∨ s.dev.mdOn (m / 4) = true)
      ∧ wordRead (getT 0 (if m < 16 then 131072 * m + getT 0 m s.dev.flt.scrub else smallIdx (getT 0 m s.dev.flt.scrub)) s.ecc ^^^ flips % 2 ^ 52) = ByteRead.clean)
    ∧ (∃ (m : ℕ) (flips : ℕ) (s : State), m < 17 ∧ s.dev.up = true ∧ (m = 16 ∨ s.dev.mdOn (m / 4) = true)
      ∧ wordRead (getT 0 (if m < 16 then 131072 * m + getT 0 m s.dev.flt.scrub else smallIdx (getT 0 m s.dev.flt.scrub)) s.ecc ^^^ flips % 2 ^ 52) = ByteRead.corrected
      ∧ EccCanonical s)
    ∧ (∃ (m : ℕ) (flips : ℕ) (s : State), m < 17 ∧ s.dev.up = true ∧ (m = 16 ∨ s.dev.mdOn (m / 4) = true)
      ∧ wordRead (getT 0 (if m < 16 then 131072 * m + getT 0 m s.dev.flt.scrub else smallIdx (getT 0 m s.dev.flt.scrub)) s.ecc ^^^ flips % 2 ^ 52) = ByteRead.uncorrectable)
    ∧ (∃ (s : State), s.dev.up = true ∧ (∃ b < 16, s.dev.mdOn (b / 4) = true)
      ∧ ∀ b < 16, s.dev.mdOn (b / 4) = true → b ∈ List.map (fun x => x.1) s.dev.flt.laps)
    ∧ (∃ (b : ℕ) (s : State), b < 16 ∧ s.dev.mdOn (b / 4) = true ∧ b ∉ List.map (fun x => x.1) s.dev.flt.laps)
    ∧ (∃ (u : UnitId) (s : State), s.dev.up = true ∧ (∃ a ∈ s.dev.flt.assays, a.u = u ∧ a.running = false)
      ∧ (u.unit = 7 → ∀ a ∈ s.dev.rcd.asm, a.engine ≠ some u.loc))
    ∧ (∃ (e : ℕ) (a : Asm) (s : State), e < 8 ∧ s.dev.up = true ∧ (∃ a ∈ s.dev.flt.assays, a.u = { unit := 7, loc := e } ∧ a.running = false)
      ∧ List.find? (fun x => x.engine == some e) s.dev.rcd.asm = some a)
    ∧ (∃ (u : UnitId) (a : Assay) (test : Bool) (s : State), s.dev.up = true ∧ (u.unit = 3 ∨ u.unit = 5 ∨ u.unit = 6)
      ∧ List.find? (fun a => a.u == u && a.running) s.dev.flt.assays = some a ∧ a.again = false)
    ∧ (∃ (u : UnitId) (a : Assay) (test : Bool) (s : State), s.dev.up = true ∧ (u.unit = 3 ∨ u.unit = 5 ∨ u.unit = 6)
      ∧ List.find? (fun a => a.u == u && a.running) s.dev.flt.assays = some a ∧ a.again = true)
    ∧ (∃ (loc : ℕ) (a : Assay) (lasting : Bool) (s : State), s.dev.up = true ∧ loc < 2097152
      ∧ List.find? (fun a => a.u == { unit := 1, loc := loc } && a.running) s.dev.flt.assays = some a ∧ a.fn ≤ s.dev.fn)
    ∧ (∃ (src : Source) (v : Word) (s : State), Passes s.dev src 28940 ∧ bitOf (BitVec.toNat v) 15 = false)
    ∧ (∃ (s : State), s.dev.flt.retiring = [])
    ∧ (∃ (p : ℕ) (n : ℕ) (s : State),
       s.dev.up = true ∧ s.dev.flt.retiring = [(p, some n)] ∧ p < 2048 ∧ s.dev.assayIn p = false ∧ (s.dev.role = Role.hub
      ∨ s.dev.mdOn (n / 512) = true) ∧ ∀ x ∈ s.ecc, x.1 / 1024 ≠ p)
    ∧ (∃ (s : State), (s.dev.up = true ∨ s.dev.boot = Boot.held) ∧ ∀ k < 4, getT 0 (4390912 + 4 * s.dev.get FLT_LOG_SEL_SLOT + k) s.ecc = 0)
    ∧ (∃ (addr : ℕ) (bit : ℕ) (copy : ℕ) (s : State), copy < 3 ∧ s.dev.up = true
      ∧ (s.dev.flt.assays.all fun a => a.u != { unit := 3, loc := addr % 65536 + bit % 32 * 65536 }) = true) :=
  ⟨⟨3, 0, md (base 0), by decide +kernel⟩,
    ⟨3, 1, (md (base 0)), by decide +kernel⟩,
    ⟨3, 3, (md (base 0)), by decide +kernel⟩,
    ⟨(lap (md (base 1))), by decide +kernel⟩,
    ⟨3, (onD (fun d => { d with flt := { d.flt with laps := [(0,1)] } }) (md (base 1))), by decide +kernel⟩,
    ⟨⟨7,5⟩, (asy [⟨⟨1, 5⟩, 7, false, 3, 3, true⟩, ⟨⟨7, 5⟩, 9, false, 3, 3, true⟩] (base 0)), by decide +kernel⟩,
    ⟨5, (am 1 6 1 (some 5) [3] F), st [(CMP_STATUS_ENC_ENGINES, 255)] (eng (asy [⟨⟨7, 5⟩, 9, false, 3, 3, false⟩] (base 0))), by decide +kernel⟩,
    ⟨⟨5, 7⟩, ⟨⟨5, 7⟩, 9, true, 3, 3, false⟩, true, (asy [⟨⟨5, 7⟩, 9, true, 3, 3, false⟩] (base 0)), by decide +kernel⟩,
    ⟨⟨5, 7⟩, ⟨⟨5, 7⟩, 9, true, 3, 3, true⟩, false, (asy [⟨⟨5, 7⟩, 9, true, 3, 3, true⟩] (base 0)), by decide +kernel⟩,
    ⟨5, ⟨⟨1, 5⟩, 7, true, 3, 3, false⟩, true, (ec [(5,3), (6,4)] (asy [⟨⟨1, 5⟩, 7, true, 3, 3, false⟩, ⟨⟨4, 5⟩, 9, false, 3, 3, true⟩] (base 0))),
     by decide +kernel⟩,
    ⟨.spi, 0x105FF, (md (base 0)), by decide +kernel⟩,
    ⟨(md (base 0)), by decide +kernel⟩,
    ⟨5, 1300, (ec [(6*1024, 4)] (rtg 5 1300 (md (base 0)))), by decide +kernel⟩,
    ⟨(asy [] (st [(FLT_LOG_SEL_SLOT, 7)] (base 0))), by decide +kernel⟩,
    ⟨0x12345, 40, 2, (asy [] (base 0)), by decide +kernel⟩⟩

end Recovery

/-! ### Witnesses: housekeeping -/

namespace House

def ph (n : Nat) (s : State) : State :=
  onD (fun d => { d with pw := { d.pw with frames := 10000000 }, hk := { d.hk with since := 7 } }) (st [(HK_STATUS_PHASE, n), (HK_CTRL_ENABLE, 1)] s)
def hk (f : Hk → Hk) (s : State) : State := onD (fun d => { d with hk := f d.hk }) s
def d3 (b : Bool) (s : State) := hk (fun h => { h with disc := 3, discBlank := b }) s
def brst (s : State) := onD (fun d => d.hkPut [(0xB004, 0xFFFFFFFF), (0xB00C, 0xFFFFFFFF)]) s

def ms : List (Int × Int) :=
  [(5, 6291461), (-77777, 6291400-77777), (131073, 6291456), (0,0), (5,-5), (131072, 6291456+131072-100000), (1,1), (3, 6291459)]


theorem wit_Housekeeping :
    (∃ (src : Source) (v : Word) (s : State), Passes s.dev src 45056)
    ∧ (∃ (src : Source) (s : State), Passes s.dev src 45056)
    ∧ (∃ (src : Source) (s : State), Passes s.dev src 45056 ∧ s.dev.calRuns = true)
    ∧ (∃ (src : Source) (v : Word) (s : State), Passes s.dev src 45096)
    ∧ (∃ (raw : ℤ) (a : Bool) (b : Bool) (c : Bool) (s : State), s.dev.up = true ∧ s.dev.hkPhase = 2 ∧ 1 < s.dev.hk.disc ∧ s.dev.hk.atConv = []
      ∧ 1000 * s.dev.hk.since + s.dev.convNs < 1000 * s.dev.pw.frames + 1000 ∧ s.dev.hk.calReq = false ∧ s.dev.bursts = false)
    ∧ (∃ (raw : ℤ) (ovld : Bool) (refLow : Bool) (limit : Bool) (s : State), s.dev.up = true ∧ s.dev.hkPhase = 3 ∧ s.dev.hk.atConv = []
      ∧ s.dev.hk.calReq = false ∧ s.dev.bursts = false ∧ 1000 * s.dev.hk.since + s.dev.convNs < 1000 * s.dev.pw.frames + 1000)
    ∧ (∃ (c : Instr) (s : State), s.dev.up = true ∧ s.dev.pins.hkBlank = false ∧ (c = Instr.hkLeadEnd ∧ s.dev.hkPhase = 1
      ∧ 1000 * s.dev.hk.since + 1000 * max 1 (min 100000 (s.dev.hkF HK_EXC_LEAD_LEAD_US)) < 1000 * s.dev.pw.frames + 1000 ∨ c = Instr.hkRestEnd
      ∧ s.dev.hkPhase = 4 ∧ s.dev.effB HK_CTRL_ENABLE = true ∧ s.dev.bursts = false
      ∧ 1000 * s.dev.hk.since + 1000 * max 1 (min 100000 (s.dev.hkF HK_EXC_REST_REST_US)) < 1000 * s.dev.pw.frames + 1000))
    ∧ (∃ (s : State), s.dev.up = true ∧ s.dev.hkPhase = 4 ∧ s.dev.effB HK_CTRL_ENABLE = true ∧ s.dev.bursts = true
      ∧ 1000 * s.dev.hk.since + 1000 * max 1 (min 100000 (s.dev.hkF HK_EXC_REST_REST_US)) < 1000 * s.dev.pw.frames + 1000)
    ∧ (∃ (s : State), s.dev.up = true ∧ s.dev.pins.hkBlank = false)
    ∧ (∃ (ms : List (ℤ × ℤ)) (s : State), s.dev.up = true ∧ s.dev.hkPhase = 6 ∧ ms.length = 8 ∧ s.dev.hk.atConv = []
      ∧ 1000 * s.dev.hk.since + 144 * 256 * 977 < 1000 * s.dev.pw.frames + 1000)
    ∧ (∃ (s : State), s.dev.up = true)
    ∧ (∃ (s : State), s.dev.up = true ∧ s.dev.flag HK_STATUS_EXC_ON = true)
    ∧ (∃ (s : State), s.dev.up = true ∨ s.dev.boot = Boot.held) :=
  ⟨⟨.spi, 0x1203, (base 1), by decide +kernel⟩,
    ⟨.spi, (base 1), by decide +kernel⟩,
    ⟨.spi, (ph 6 (base 1)), by decide +kernel⟩,
    ⟨.spi, 0x12345, (base 1), by decide +kernel⟩,
    ⟨5, true, true, true, (ph 2 (d3 true (base 1))), by decide +kernel⟩,
    ⟨5000, true, true, true, (ph 3 (base 1)), by decide +kernel⟩,
    ⟨.hkLeadEnd, (ph 1 (base 1)), by decide +kernel⟩,
    ⟨(ph 4 (brst (base 1))), by decide +kernel⟩,
    ⟨(ph 4 (brst (base 1))), by decide +kernel⟩,
    ⟨ms, (ph 6 (brst (base 1))), by decide +kernel⟩,
    ⟨(base 1), by decide +kernel⟩,
    ⟨(st [(HK_STATUS_EXC_ON, 1)] (base 1)), by decide +kernel⟩,
    ⟨(hk (fun h => { h with live := (0xFFFFFFFFF, 0x12345678) }) (base 1)), by decide +kernel⟩⟩

end House

/-! ### Witnesses: power and thermal control -/

namespace Therm

def F := 77001234
def pw (f : Pw → Pw) (s : State) : State := onD (fun d => { d with pw := f d.pw }) s
def povr (s : State) := st [(PWR_STATUS_POWER_OVER, 1), (PWR_CH_STATE 47, 2), (PWR_CH_STATE 3, 2)] (pw (fun p => { p with overFrames := 65536 }) s)
def sens (v : Nat) (s : State) : State :=
  onD (fun d => { d with hm := { d.hm with view := rowOf 76 16 0xA0006400 }, tm := { d.tm with clk := { d.tm.clk with fs := 1280 } } }) (st [(PWR_THERM_STATUS_STATE, v)] s)
def cs (n : Nat) := List.replicate 16 n
def tr0 : Trip := ⟨F - 48, 2, 0x123, 9⟩
def trp (s : State) := pw (fun p => { p with trip := some tr0 }) s
def rel (s : State) :=
  st [(PWR_CH_STATE 5, 6), (PWR_CH_STATE 6, 2), (PWR_MEM_CTRL_MD_EN, 15), (CH_CTRL_ENABLE 7, 1), (CH_CTRL_ENABLE 5, 1), (LN_CTRL_ENABLE 5, 1)] (pw (fun p => { p with release := true, throttle := true }) (trp (sens 4 s)))

theorem wit_ThermalTripsAndHold :
    (∃ (s : State), s.dev.up = true ∧ s.dev.flag PWR_STATUS_POWER_OVER = true ∧ 65536 ≤ s.dev.pw.overFrames ∧ s.dev.pw.trip = none)
    ∧ (∃ (s : State), ¬(s.dev.up = true ∧ s.dev.flag PWR_STATUS_POWER_OVER = true ∧ 65536 ≤ s.dev.pw.overFrames ∧ s.dev.pw.trip = none))
    ∧ (∃ (cs : List ℕ) (s : State), s.dev.up = true ∧ cs.length = 16 ∧ s.dev.fi % 64 ≠ 0)
    ∧ (∃ (cs : List ℕ) (s : State), s.dev.up = true ∧ cs.length = 16 ∧ s.dev.fi % 64 = 0)
    ∧ (∃ (tr : Trip) (s : State),
       s.dev.up = true ∧ s.dev.thermState = 3 ∧ s.dev.pw.trip = some tr ∧ tr.fn + 48 ≤ s.dev.fn ∧ (∀ n < 48, s.dev.chState n = 0
      ∨ s.dev.chState n = 6) ∧ (∀ q < 12, s.dev.keptQuad q = true ∨ s.dev.get (PWR_DOM_LQ q) = 0) ∧ ∀ m < 4, s.dev.get (PWR_DOM_MD m) = 0)
    ∧ (∃ (s : State), s.dev.thermState ≠ 3)
    ∧ (∃ (src : Source) (s : State), Passes s.dev src 41044 ∧ (s.dev.thermState = 4 → s.dev.pw.trip ≠ none))
    ∧ (∃ (src : Source) (s : State), Passes s.dev src 41044 ∧ s.dev.thermState = 4 ∧ s.dev.pw.trip = none)
    ∧ (∃ (src : Source) (key : Word) (tr : Trip) (s : State), Passes s.dev src 41040 ∧ s.dev.pw.trip = some tr)
    ∧ (∃ (src : Source) (key : Word) (s : State), Passes s.dev src 41040 ∧ s.dev.pw.trip = none)
    ∧ (∃ (s : State), s.dev.up = true ∧ s.dev.thermState = 4 ∧ s.dev.pw.release = true)
    ∧ (∃ (s : State), s.dev.thermState ≠ 4 ∨ s.dev.pw.release = false)
    ∧ (∃ (s : State), s.dev.up = true ∨ s.dev.boot = Boot.held) :=
  ⟨⟨(povr (base 0)), by decide +kernel⟩,
    ⟨(base 0), by decide +kernel⟩,
    ⟨(List.replicate 16 70000), (base 0), by decide +kernel⟩,
    ⟨(cs 25000), (sens 0 (base 0)), by decide +kernel⟩,
    ⟨tr0, (trp (sens 3 (base 0))), by decide +kernel⟩,
    ⟨(trp (base 0)), by decide +kernel⟩,
    ⟨.spi, (trp (base 0)), by decide +kernel⟩,
    ⟨.spi, (sens 4 (base 0)), by decide +kernel⟩,
    ⟨.spi, 0x123, tr0, (trp (base 0)), by decide +kernel⟩,
    ⟨.spi, 0x123, (sens 4 (base 0)), by decide +kernel⟩,
    ⟨(rel (base 0)), by decide +kernel⟩,
    ⟨(base 0), by decide +kernel⟩,
    ⟨(base 0), by decide +kernel⟩⟩

end Therm

/-! ### Witnesses: the frame boundary -/

namespace Bound

def inp : FrameInput := ⟨12000, 3000, [], [], []⟩
def ck (c : Clk) := (onD (fun d => { d with tm := { d.tm with clk := c } }) (base 0)).dev
def c (n : Nat) : Cmd := ⟨.upLane, 3, 5, 6, 7, wordsOf [0x803, n, 4, 5, 6, 7, 8, 9]⟩
def c2 : Cmd := ⟨.upLane, 3, 5, 6, 7, wordsOf [0x803, 77001235, 77001235, 77001235, 77001235, 7, 8, 9]⟩
def c3 : Cmd := ⟨.upLane, 3, 5, 6, 7, wordsOf [0x803, 77001201, 77001201, 77001201, 77001201, 7, 8, 9]⟩
def heldD (l : List Cmd) : Dev := (onD (fun d => { d with tm := { d.tm with held := l } }) (base 0)).dev
def c4 : Cmd := ⟨.upLane, 3, 5, 6, 7, wordsOf [0x803, 77001224, 77001224, 77001224, 77001224, 7, 8, 9]⟩

theorem wit_FrameBoundaries :
    (∃ (inp : FrameInput) (s : State), s.dev.up = false)
    ∧ (∃ (inp : FrameInput) (s : State), s.dev.up = true)
    ∧ (∃ (d : Dev) (u : ℤ), d.tm.stepPend = none ∧ 0 ≤ ↑d.tm.clk.exc + 262144 * ↑d.tm.clk.cyc + d.tm.clk.u - 65536000
      ∧ ↑d.tm.clk.exc + 262144 * ↑d.tm.clk.cyc + d.tm.clk.u - 65536000 < 65536000)
    ∧ (∃ (e : ℤ) (u : ℤ), e + u < 65536000)
    ∧ (∃ (f : Fuses) (x : EccDev) (c : Cmd), 0 < fiDiff (cmdTarget c) x.2.fi)
    ∧ (∃ (f : Fuses) (x : EccDev) (c : Cmd), ↑(x.2.get TIM_HG_CTRL_GRACE) < -fiDiff (cmdTarget c) x.2.fi)
    ∧ (∃ (f : Fuses) (x : EccDev) (c : Cmd), fiDiff (cmdTarget c) x.2.fi ≤ 0 ∧ -fiDiff (cmdTarget c) x.2.fi ≤ ↑(x.2.get TIM_HG_CTRL_GRACE))
    ∧ (∃ (f : Fuses) (x : EccDev), x.2.tm.stepped = true)
    ∧ (∃ (f : Fuses) (x : EccDev), x.2.tm.stepped = false) :=
  ⟨⟨inp, State.reset, by decide +kernel⟩,
    ⟨inp, (base 0), by decide +kernel⟩,
    ⟨(ck ⟨5, 999999, 100, 250, -3⟩), 77, by decide +kernel⟩,
    ⟨0, 65535999, by decide +kernel⟩,
    ⟨(base 0).fuses, ([(3,4)], (base 0).dev), c2, by decide +kernel⟩,
    ⟨(base 0).fuses, ([(3,4)], (base 0).dev), c3, by decide +kernel⟩,
    ⟨(base 0).fuses, ([(3,4)], heldD [c2, c4, c3]), c4, by decide +kernel⟩,
    ⟨(base 0).fuses, ([(3,4)], { heldD [c2, c4, c3] with tm := { (heldD [c4]).tm with stepped := true } }), by decide +kernel⟩,
    ⟨(base 0).fuses, ([(3,4)], heldD [c2, c4, c3]), by decide +kernel⟩⟩

end Bound

end Sys2Proof.Tests
end

