-- ==== Sys2Proof/Tests/Slice0.lean ====
section
/-! SUPPORT. The model held to the manual's worked examples and printed check values (each test names its place), well-formedness with an
ill-formed term for each of its checks, and one step of a few commands. -/
open Sys2Proof Sys2Proof.Machine

namespace Sys2Proof.Tests.Slice0

set_option Elab.async false

/-! ### Well-formed commands -/

def st0 : SelfTest := { banks := 0, lqs := 0, engines := 0, smallMem := false, core := false }
def inp0 : FrameInput := { vinMv := 12000, power := 0, codes := [], voters := [], noMajority := [] }
def c0 : Cmd := { src := .spi, port := 63, origin := 9, ring := 5, seq := 77, w := wordsOf [1, 0, 0, 0, 0, 0, 0, 0] }
def cal0 (n : Nat) : CalResult := { n := n, gl := 0x400000, ol := 0, gh := 0x400000, oh := 0, ds := 22938, disc := 0, low := [], high := [] }

/-- Well-formed commands are accepted. -/
theorem test_wf_good :
    ([.vinValid st0, .frameBoundary { inp0 with codes := [{ n := 47, codes := [] }] }, .read c0, .fgCalStart none, .fgCalStart (some 47),
      .fgCalDone [cal0 47], .domainQualified 1, .registerWrite .spi 0xD010 0#32, .ringEnable 4095 (wordsOf (List.replicate 16 0)) 0 0,
      .scrubRead 16 0, .oneCopyDiffers 0x1000 31 2, .roleStrapChange 3, .crossingFlush 50 true, .laneFramed 47] : List Instr).all
      Instr.wf = true := by decide

/-- A self-test of a 17th bank, a 13th lane quad, a 25th engine. -/
theorem test_wf_self_test :
    ([.vinValid { st0 with banks := 2 ^ 16 }, .nresetRelease { st0 with lqs := 2 ^ 12 }, .vinValid { st0 with engines := 2 ^ 24 }] : List Instr).all
      (fun c => c.wf == false) = true := by decide

/-- Codes of a 49th channel, VIN beyond its field. -/
theorem test_wf_frame :
    ([.frameBoundary { inp0 with codes := [{ n := 48, codes := [] }] }, .frameBoundary { inp0 with vinMv := 65536 }] : List Instr).all
      (fun c => c.wf == false) = true := by decide

/-- A descriptor of seven words, a port, an origin, a ring or a count beyond its field. -/
theorem test_wf_descriptor :
    ([.read { c0 with w := wordsOf [0, 0, 0, 0, 0, 0, 0] }, .write { c0 with port := 64 }, .headgateAction { c0 with origin := 65536 },
      .cancel { c0 with ring := 4096 }, .attest { c0 with seq := 2 ^ 32 }] : List Instr).all (fun c => c.wf == false) = true := by decide

/-- Units beyond the last. -/
theorem test_wf_units :
    ([.domainQualified 2, .domCfgWrite .spi 2 0#32, .fgCalStart (some 48), .fgCalDone [cal0 48], .tdcConversionDone 48 0,
      .discriminatorHit 48 true 0 0 0 0, .discriminatorHit 0 true 0 16 0 0, .triggerDecision 48 0 0, .triggerDecision 0 (2 ^ 32) 0,
      .maskRearm .spi 12, .streamCfgWrite .spi 4 0#32, .domainInService 60, .memoryInitDone 4, .compressVerifyDone 8 none, .uplinkSend 48,
      .laneEnable .spi 48, .recordReceived 48, .msixSend 64, .crossingFlush 51 false, .scrubRead 17 0, .scrubRead 0 (2 ^ 52),
      .registerWrite .spi 65536 0#32, .oneCopyDiffers 65536 0 0, .oneCopyDiffers 0 32 0, .oneCopyDiffers 0 0 3, .roleStrapChange 4,
      .assayBegin { unit := 16, loc := 0 }, .assayComplete { unit := 16, loc := 0 } false, .ringStopped 4096, .entryOpen 4096 0,
      .ringEnable 4096 (wordsOf (List.replicate 16 0)) 0 0, .ringEnable 0 (wordsOf (List.replicate 15 0)) 0 0] : List Instr).all
      (fun c => c.wf == false) = true := by decide

/-! ### Time (02) -/

/-- The manual's running front-end with the servo's settings of the worked example of R58: integrator 20, COARSE. -/
def timed (s : State) : Dev :=
  let d := ((s.dev.setBoth Reg.TIM_CTRL_SERVO_EN 1).setBoth Reg.TIM_SERVO_KP_KP 128).setBoth Reg.TIM_SERVO_KI_KI 4096
  { d with tm := { d.tm with integ := 20 * 65536 } }.set Reg.TIM_STATUS_CLK_STATE 2

/-- R58's worked example: e = 700 gives u = −414, and the integrator 63.75 shows as 63. -/
theorem test_servo_worked_example :
    ((timed (base 0)).servo (some 700)).1 = -414
    ∧ (((timed (base 0)).servo (some 700)).2).get Reg.TIM_SERVO_INTEG_INTEG = 63 := by decide +kernel

/-- u = −414 spread over 250 cycles (R58): cycles 0 to 85 take −1, cycles 86 to 249 take −2. -/
theorem test_spread_worked_example :
    edgeOfs 0 250 (-414) 86 = 86 * 262143 ∧ edgeOfs 0 250 (-414) 250 = 86 * 262143 + 164 * 262142 := by decide +kernel

/-- The differences of R57's worked example. -/
theorem test_exchange_worked_example :
    stampDiff (5000010, 29492200) (5000010, 19660800) = 9831400 ∧ stampDiff (5000010, -36045600) (5000009, 19661000) = 9829400 := by
  decide

/-- R69's worked example: leads of +31, −9 and −33 across the wrap. -/
theorem test_headgate_worked_example :
    fiDiff 0x00000010 0xFFFFFFF1 = 31 ∧ fiDiff 0xFFFFFFE8 0xFFFFFFF1 = -9 ∧ fiDiff 0xFFFFFFD0 0xFFFFFFF1 = -33 := by decide

/-! ### Acquisition (03) -/

def corr5 : Corr := { gl := 4198400, ol := 48, gh := 4192256, oh := -40 }
def calm : Cand := { lo := 0, hi := 0, loClip := false, hiClip := false, endg := false, prov := false, pois := false, mode := 0 }
def lowAt (i : Int) (l : Bool) (start : Int) : MergeSt :=
  { low := l, start := start, hist := List.replicate 8 false, mode := 0, idx := i, seams := 0, clips := 0 }

/-- The two samples of the worked example of R97: 2,399 in the low range, 1,002 in the high. -/
theorem test_merge_values :
    roundS (corrL 4198400 48 150) = 2399 ∧ roundS (corrH 4192256 (-40) 1000) = 1002
    ∧ (corr5.cand 0 false false (150, 1000)).lo = 2399 ∧ (corr5.cand 0 false false (150, 1000)).hi = 1002 := by decide

/-- Its seams: sample 1,202 turns low because 1,210 is endangered, 1,223 stays low within the window, 1,252 turns high. -/
theorem test_merge_seams :
    ((lowAt 1201 false 0).step false calm).1.low = false ∧ ((lowAt 1202 false 0).step true calm).1.low = true
    ∧ ((lowAt 1202 false 0).step true calm).1.start = 1202 ∧ ((lowAt 1223 true 1202).step false calm).1.low = true
    ∧ ((lowAt 1252 true 1202).step false calm).1.low = false := by decide

/-! ### Edges and triggers (04, 06) -/

/-- The bisection of the worked example of R136: f = 39 on the cubic; and f = 73 on the line of the record decoded in 06. -/
theorem test_bisection :
    bisect (cubicAt 400 1500 5500 9000) (6 * 2000 * 16777216) true 8 0 256 = 39
    ∧ bisect (cubicAt 3340 3854 4368 4882) (6 * 4000 * 16777216) true 8 0 256 = 73
    ∧ bisect (lineAt 3854 4368) (6 * 4000 * 16777216) true 8 0 256 = 73 := by decide

/-- T[40] of the worked example from its histogram (R133), and the instant of its hit. -/
theorem test_tdc_instant :
    nth (linTable (329340 :: List.replicate 39 0 ++ [8200])) 40 = 5210
    ∧ 137 * 262144 + 5 * 16384 - 5210 - (14416 + 29491 + 3277) = 35943254 := by decide

/-! ### Records (06, 07, 12) -/

/-- Words W0 and W1 of the record decoded in 06, and its sample check word. -/
theorem test_record_head :
    recW0 1 1 21 0x123 = 0x01231511 ∧ recW1 18 5 = 0x00050012
    ∧ checkWord 16 ((List.range 16).map fun i => (256 + 514 * i : Int)) = 0x46DD794E
    ∧ nth (rawPayload 16 ((List.range 16).map fun i => (256 + 514 * i : Int))) 7 = 0x1F1E1D1C := by decide +kernel

/-- The loss record of the write-off in 12. -/
theorem test_loss_record :
    lossWords { dev := 0x123, chan := 21, fn := 1048640, writer := 0x123, port := 63, reason := 8, known := true, last := none,
                stream := false, maybe := false, seqValid := true, count := 1, firstSeq := 5, seq := 2 }
      = [0x01231504, 0x00020006, 0x00100040, 0x463F0123, 0x00050001, 0] := by decide

/-- The byte code (R412, R414): 0x4E with d0 and d1 upset gives s = 6, p = 0 and is uncorrectable; a single upset of d5 (position 10) is
corrected. -/
theorem test_byte_code :
    byteS 3 0 = 6 ∧ byteP 3 0 = 0 ∧ wordRead 3 = .uncorrectable ∧ memDetail 3 = 6
    ∧ byteS 32 0 = 10 ∧ byteP 32 0 = 1 ∧ wordRead 32 = .corrected ∧ correctWord 32 = 0 := by decide

/-- The 32 samples of the block in 07. -/
def block : List Int :=
  [100, 102, 101, 99, 100, 103, 101, 100, 98, 100, 101, 99, 100, 102, 100, 101,
   100, 99, 101, 100, 120, 118, 110, 104, 101, 100, 99, 100, 101, 100, 102, 100]

/-- The device chooses P1 with K 2, and the payload is the six words printed there. -/
theorem test_codec_choice : ((chooseCode 16 [0, 1, 2] 0 0 0 (block.map fun x => (x, 0))).map fun c => (c.1, c.2.1)) = some (1, 2) := by
  decide +kernel

theorem test_codec_payload :
    encodeRecord 16 [0, 1, 2] none block [] = [0x00000001, 0x24000003, 0x212FCDEF, 0x4DF27D6A, 0x500271CE, 0xB6ED5380] := by decide +kernel

/-- And decodes to the samples. -/
theorem test_codec_decode :
    decodePayload 16 32 none [0x00000001, 0x24000003, 0x212FCDEF, 0x4DF27D6A, 0x500271CE, 0xB6ED5380] = .ok block := by decide +kernel

/-- CRC-32C of the nine bytes "123456789" (R66, R430). -/
theorem test_crc : crc32c [49, 50, 51, 52, 53, 54, 55, 56, 57] = 0xE3069283 := by decide +kernel

/-! ### Merging (08) -/

/-- A raw hit record of the group in 08: DEVNUM, CHAN, X_OFS. -/
def hitRec (dev chan x arr : Nat) : RxRec :=
  { port := 0, fn := 2000000, arr := arr, checked := true, lost := false,
    words := wordsOf ([recW0 1 1 chan dev, recW1 18 0, 2000000, 0, x] ++ List.replicate 13 0) }

/-- The bundle header of that group. -/
theorem test_bundle_header :
    bundleHead 1 2000000 0 0 102400 122880 [hitRec 0x200 1 102400 1, hitRec 0x201 5 110592 2, hitRec 0x200 2 122880 3]
        [hitRec 0x200 1 102400 1, hitRec 0x201 5 110592 2, hitRec 0x200 2 122880 3]
      = [0x00013F06, 0x00000008, 0x001E8480, 0x00030000, 0x00000036, 0x00019000, 0x00020003, 0x00005000] := by decide +kernel

/-! ### Host rings (09) -/

/-- The ring table entry of ring 5 in 09. -/
theorem test_ring_entry :
    let g := ringOf [0, 0, 0x00430401, 0x10040020] 7
    g.typ = 1 ∧ g.log2 = 4 ∧ g.vec = 3 ∧ g.intEn = true ∧ g.bufKb = 32 ∧ g.entFrames = 4 ∧ g.hb = 16 := by decide

/-! ### Lanes (10) -/

/-- K28.5 in both disparities, and the words of lane frames of 249, 250 and 251 cycles (R350). -/
theorem test_lane_code :
    lineCode false true 0xBC = 0b0011111010 ∧ lineCode true true 0xBC = 0b1100000101
    ∧ (lfWords true 249, lfWords true 250, lfWords true 251) = (498, 500, 502)
    ∧ (lfWords false 249, lfWords false 250, lfWords false 251) = (124, 125, 125)
    ∧ (lfFill false 249, lfFill false 250, lfFill false 251) = (2, 0, 2) := by decide +kernel

/-! ### Housekeeping and sensors (13, 14) -/

/-- The strain bridge of 13: raw 859,000 gives 859,528. -/
theorem test_strain_bridge :
    let g := Reg.HK_CONV_CFG_GAIN
    let d : Dev := { (base 0).dev with hk := { (base 0).dev.hk with cfg :=
      [(g.addr, fieldAt g.lo g.width 7), ((Reg.HK_CAL_OFS_OFS 7).addr, 310), ((Reg.HK_CAL_GAIN_GAIN_F 7).addr, 0x401000)] } }
    d.hkExact 859000 = 859528 := by decide +kernel

/-- The strain bridge on HKMON (R464): SNS at 1.5 V and 0 V, bridge output 1,200.7 µV taken as 1,201 and 0, MGAIN 7. -/
theorem test_hkmon : (HkMon.tracking 2 3 7).volts (1500000, 0, [0, 0, 1201, 0]) (0, 0, []) = 1807456 := by decide

/-- The sensors of 14: 1,618 and 2,032 sixteenths of a degree; and 1,665. -/
theorem test_sensors :
    let d : Dev := { (base 0).dev with hm := { (base 0).dev.hm with view :=
      [(80, 25590 + 65536 * 40960), (81, 25612 + 65536 * 40960), (82, 25605 + 65536 * 40960)] } }
    (d.t16 4 23640, d.t16 5 23000, d.t16 6 23580) = (1618, 2032, 1665) := by decide +kernel

/-! ### Capabilities (16) -/

/-- The walk of a front-end's list, and the stream and eye-scan entries. -/
theorem test_capabilities :
    [0x840, 0x880, 0x8C0, 0x900, 0x940, 0x980, 0x9C0].map (capWord .frontEnd)
      = [0x22010002, 0x23010003, 0x24010004, 0x25010005, 0x26010006, 0x27010007, 0x00010008]
    ∧ [0x8C4, 0x8C8, 0x8CC, 0x9C8].map (capWord .frontEnd) = [0x00243700, 0x02710004, 0x140, 0x03000080]
    ∧ [0x800, 0x900, 0x940, 0x980, 0x9C0, 0xA00].map (capWord .hub)
      = [0x24010001, 0x25010005, 0x26010006, 0x27010007, 0x28010008, 0x00010009] := by decide

/-! ### One step -/

/-- What a step leaves in the device, where it answers a next state. -/
def after {α : Type} (dflt : α) (f : Dev → α) (r : Res) : α :=
  match r with
  | .next s => f s.dev
  | _ => dflt

def up (r : Nat) : State := { base r with pending := [] }

/-- The empty queue idles. -/
theorem test_idle : step State.reset = .next State.reset := rfl

/-- A register write: TIM_SERVO_LIMITS takes the word (R77). -/
theorem test_register_write :
    after 0 (fun d => d.get Reg.TIM_SERVO_LIMITS_LOCK_THRESH)
      (exec (.registerWrite .spi Reg.TIM_SERVO_LIMITS_LOCK_THRESH.addr 0xFFFFFFFF#32) (up 0))
      = 2 ^ Reg.TIM_SERVO_LIMITS_LOCK_THRESH.width - 1 := by decide +kernel

/-- A write of ID_PART, which is RO, changes nothing (R546). -/
theorem test_read_only : after 0 (fun d => d.get Reg.ID_PART_PART) (exec (.registerWrite .spi Reg.ID_PART_PART.addr 0#32) (up 0)) = 72 := by
  decide +kernel

/-- A fifth unit of four is the fault noSuchUnit. -/
theorem test_no_such_unit : exec (.memoryInitDone 4) (up 0) = .fault .noSuchUnit := rfl

/-- A write of a downstream lane is denied and counted (R532, R540). -/
theorem test_denied :
    after (0, 0) (fun d => (d.get Reg.HM_DENIED_COUNT, d.get Reg.HM_DENIED_LAST_SOURCE))
      (exec (.registerWrite .downLane Reg.TIM_SERVO_KP_KP.addr 1#32) (up 1)) = (1, 2) := by decide +kernel

/-- The ROLE straps after the latch show only in STRAP_LIVE (R18). -/
theorem test_strap :
    after (0, 0) (fun d => (d.get Reg.GLB_ROLE_STATUS_STRAP_LIVE, d.get Reg.GLB_ROLE_STATUS_ACTIVE_ROLE))
      (exec (.roleStrapChange 2) (up 0)) = (2, 0) := by decide +kernel

/-- A read of TIM_NOW_SEC_LO captures the whole clock (R74). -/
theorem test_now : after 0 (fun d => d.get Reg.TIM_NOW_SEC_LO_SEC_LO) (exec (.timNowCapture 10) (up 0)) = 77 := by decide +kernel

/-- HOLD_REQ is held by TIM_CTRL from the write on (R62). -/
theorem test_hold_req : after 0 (fun d => d.get Reg.TIM_CTRL_HOLD_REQ) (exec (.holdReq .spi true) (up 0)) = 1 := by decide +kernel

end Sys2Proof.Tests.Slice0
end

section
/-! PROOF. What every command can do, from the shape of its meaning: it completes, or it names a unit the device does not have; and O2 from it. -/
namespace Sys2Proof.Machine
open Sys2Proof.Safety

/-- The outcome of a command that names the unit `u`: a state with the queue as it was, or the one fault where the device has no such unit (R12). -/
def CompletesFor (u : Option (Nat × Nat)) (s : State) (r : Res) : Prop :=
  ((∀ p ∈ u, p.1 < p.2) ∧ ∃ t, r = .next t ∧ t.pending = s.pending)
    ∨ ((∃ p ∈ u, p.2 ≤ p.1) ∧ r = .fault .noSuchUnit)

theorem completesFor_next {s t : State} (h : t.pending = s.pending) : CompletesFor none s (.next t) :=
  .inl ⟨by simp, t, rfl, h⟩

theorem completesFor_onDev (f : Dev → Dev) (s : State) : CompletesFor none s (onDev f s) := completesFor_next rfl

theorem completesFor_onEcc (f : List (Nat × Nat) → Dev → List (Nat × Nat) × Dev) (s : State) : CompletesFor none s (onEcc f s) :=
  completesFor_next rfl

/-- A meaning kept to the units the device has. -/
theorem completesFor_guarded {i n : Nat} {s : State} {r : Res} (h : CompletesFor none s r) :
    CompletesFor (some (i, n)) s (if i < n then r else .fault .noSuchUnit) := by
  rcases h with ⟨-, t, rfl, ht⟩ | ⟨⟨p, hp, -⟩, -⟩
  · by_cases hi : i < n
    · exact .inl ⟨by simpa using hi, t, by simp [hi], ht⟩
    · exact .inr ⟨by simpa using hi, by simp [hi]⟩
  · exact absurd hp (by simp)

theorem completesFor_onUnit (n i : Nat) (f : Dev → Dev) (s : State) : CompletesFor (some (i, n)) s (onUnit n i f s) :=
  completesFor_guarded (completesFor_onDev f s)

theorem unpowered_pending (s : State) (blown : Nat) : (s.unpowered blown).pending = s.pending := by
  unfold State.unpowered; split <;> rfl

/-- A reset or a bring-up step taken only in one stage of power. -/
theorem completesFor_ite {p : Prop} [Decidable p] {s : State} {r q : Res} (hr : CompletesFor none s r) (hq : CompletesFor none s q) :
    CompletesFor none s (if p then r else q) := by
  split <;> assumption

/-- What every command can do: the shape of its meaning says it. -/
theorem exec_completesFor (c : Instr) (s : State) : CompletesFor (unitOf c) s (exec c s) := by
  cases c
  case vinValid | nresetAssert | nresetRelease => exact completesFor_ite (completesFor_next rfl) (completesFor_next rfl)
  case converterStop | railLimitTrip => exact completesFor_next (unpowered_pending s _)
  case fgCalStart who => cases who with
    | none => exact completesFor_next rfl
    | some n => exact completesFor_onUnit 48 n _ s
  case uplinkSend | memoryInitDone | scrubRead | commandReceived => exact completesFor_guarded (completesFor_onEcc _ s)
  case domainQualified | domainLost | domCfgWrite | lenderConversion | phaseAvgDone | oneCopyDiffers | streamCfgWrite | compressVerifyDone
      | maskRearm | bgCalSwap | discriminatorHit | tdcConversionDone | tdcConversionTimeout | slowLockAcquired | fastLockCheck
      | forcedLockCheck | tdcLockLost | linCalStart | linCalDone | triggerDecision | captureClose | recordAssembled | channelDisable
      | channelEnable | channelDrainEnd | uplinkCopyAbandon | laneFrameReceived | laneFramed | blindRetry | laneRaise | raiseTimeout
      | framingLost | laneEnable | laneDisable | laneIdleEnter | laneIdleExit | laneAttestSet | assayStart | laneAssayVerdict | eyeScanStart
      | eyeScanDone | laneFifoSlip | replyEventReceived | recordReceived | hubRecordCheck | pipelineMismatch | crossingTransfer
      | crossingFlush | domainInService | msixSend | ringEnable | ringDisable | ringStopped | entryOpen | entryClose | entryWriteback
      | headWordHeartbeat | eventsLostWrite | aerEgressError => exact completesFor_onUnit _ _ _ s
  -- every other command names no unit, and its meaning answers with the queue as it was
  all_goals exact completesFor_next rfl

/-- A well-formed command names only units the device has. -/
theorem unit_of_wf {c : Instr} (hc : c.wf = true) : ∀ p ∈ unitOf c, p.1 < p.2 := by
  cases c
  case fgCalStart who => cases who <;> simp_all [Instr.wf, unitOf, chanOk]
  all_goals simp_all [Instr.wf, unitOf, chanOk, laneOk, ringOk]

theorem exec_of_unit {c : Instr} {s : State} (h : ∀ p ∈ unitOf c, p.1 < p.2) : ∃ t, exec c s = .next t ∧ t.pending = s.pending := by
  rcases exec_completesFor c s with ⟨-, ht⟩ | ⟨⟨p, hp, hle⟩, -⟩
  · exact ht
  · exact absurd (h p hp) (by omega)

theorem exec_fault_iff {c : Instr} {s : State} {f : Fault} :
    exec c s = .fault f ↔ f = .noSuchUnit ∧ ∃ p ∈ unitOf c, p.2 ≤ p.1 := by
  rcases exec_completesFor c s with ⟨hu, t, ht, -⟩ | ⟨hu, hf⟩
  · simp only [ht, reduceCtorEq, false_iff, not_and, not_exists]
    intro _ p hp hle
    exact absurd (hu p hp) (by omega)
  · rw [hf, Host.Outcome.fault.injEq]
    exact ⟨fun e => ⟨e.symm, hu⟩, fun e => e.1.symm⟩

theorem exec_ne_refused (c : Instr) (s : State) (r : Refusal) : exec c s ≠ .refused r := by
  rcases exec_completesFor c s with ⟨-, t, ht, -⟩ | ⟨-, hf⟩
  · simp [ht]
  · simp [hf]

theorem exec_next_pending {c : Instr} {s t : State} (h : exec c s = .next t) : t.pending = s.pending := by
  rcases exec_completesFor c s with ⟨-, u, hu, hp⟩ | ⟨-, hf⟩
  · obtain rfl : u = t := by simpa [hu] using h
    exact hp
  · simp [hf] at h

/-- Settles O2: the shape of each meaning says that it completes, or faults on a unit the device does not have, and keeps the queue. -/
theorem wellFormedCommandsComplete : Obligations.WellFormedCommandsComplete := by
  refine ⟨fun c rest s hc hp => ?_, fun c i n s hu hi => exec_fault_iff.2 ⟨rfl, (i, n), hu, hi⟩, fun c f s h => ?_,
    fun c r s => exec_ne_refused c s r, fun c s t => exec_next_pending, fun s t h => ?_⟩
  · rw [step_cons hp]
    exact exec_of_unit (unit_of_wf hc)
  · obtain ⟨-, ⟨i, n⟩, hu, hle⟩ := exec_fault_iff.1 h
    exact ⟨i, n, hu, hle⟩
  · cases hp : s.pending with
    | nil =>
      obtain rfl : s = t := by simpa [step_nil hp] using h
      simpa using hp
    | cons c rest =>
      rw [step_cons hp] at h
      exact exec_next_pending h

end Sys2Proof.Machine
end

section
/-! PROOF. What a software write of a register does, field by field and register by register: the gate, the access types, the rows that are the same
write; and O16 from it. -/
namespace Sys2Proof.Machine
open Sys2Proof.Safety

/-! ### The gate and the register's own behaviour -/

@[simp] theorem wholeAddr_wholeAddr (a : Nat) : wholeAddr (wholeAddr a) = wholeAddr a := by
  simp only [wholeAddr]; omega

/-- Bits [1:0] of the address count for nothing (R546). -/
theorem exec_registerWrite_wholeAddr (src : Source) (a : Nat) (v : Word) (s : State) :
    exec (.registerWrite src a v) s = exec (.registerWrite src (wholeAddr a) v) s := by
  simp only [exec, execRegisterWrite, wholeAddr_wholeAddr]

/-- A write that passes its gate has its effect. -/
theorem gated_of_passes {d : Dev} {src : Source} {a : Nat} (h : Passes d src a) (f : Dev → Dev) : d.gated src a f = f d := by
  simp [Dev.gated, h.1, h.2]

/-- The gate asks nothing of the write behind it. -/
theorem gated_congr {d : Dev} {src : Source} {a : Nat} {f g : Dev → Dev} (h : f d = g d) : d.gated src a f = d.gated src a g := by
  simp [Dev.gated, h]

/-- REGISTER_WRITE is a row's own write where both do the same to the device behind the gate. -/
theorem exec_registerWrite_eq {src : Source} {a : Nat} {v : Word} {s : State} {f : Dev → Dev} (ha : wholeAddr a = a)
    (h : softWrite s.fuses s.dev src a v.toNat = f s.dev) :
    exec (.registerWrite src a v) s = onDev (fun d => d.gated src a f) s := by
  show onDev (fun d => d.gated src (wholeAddr a) fun d => softWrite s.fuses d src (wholeAddr a) v.toNat) s = _
  simp only [onDev, ha, gated_congr (f := fun d => softWrite s.fuses d src a v.toNat) h]

/-- A REGISTER_WRITE that passes its gate does what its register's write does. -/
theorem exec_registerWrite_of_passes {src : Source} {a : Nat} {v : Word} {s : State} (ha : wholeAddr a = a) (h : Passes s.dev src a) :
    exec (.registerWrite src a v) s = .next { s with dev := softWrite s.fuses s.dev src a v.toNat } := by
  rw [exec_registerWrite_eq ha (f := fun d => softWrite s.fuses d src a v.toNat) rfl, onDev, gated_of_passes h]

theorem softWrite_unused {f : Fuses} {d : Dev} {src : Source} {a w : Nat} (h : d.role.usesReg a = false) : softWrite f d src a w = d := by
  simp [softWrite, h]

theorem softWrite_low {f : Fuses} {d : Dev} {src : Source} {a w : Nat} (h : d.role.usesReg a = true) (ha : a < 0x4000) :
    softWrite f d src a w = d.writeLow src a w := by
  simp [softWrite, h, ha]

theorem softWrite_high {f : Fuses} {d : Dev} {src : Source} {a w : Nat} (h : d.role.usesReg a = true) (ha : 0x4000 ≤ a) :
    softWrite f d src a w = d.writeHigh f src a w := by
  simp [softWrite, h, Nat.not_lt.2 ha]

/-- Every role uses the registers below the Trigger and capture block. -/
theorem usesReg_below_trigger (r : Role) {a : Nat} (h : a < 0x3000) : r.usesReg a = true := by
  unfold Role.usesReg
  repeat rw [if_neg (by omega)]

/-- Every role uses the registers from the Power and thermal block on. -/
theorem usesReg_from_power (r : Role) {a : Nat} (h : 0xA000 ≤ a) : r.usesReg a = true := by
  unfold Role.usesReg
  repeat rw [if_neg (by omega)]

/-- Only a front-end uses the Trigger and capture block. -/
theorem usesReg_trigger (r : Role) {a : Nat} (h : 0x3000 ≤ a) (h' : a < 0x4000) : r.usesReg a = (r == .frontEnd) := by
  unfold Role.usesReg
  rw [if_pos ⟨h, h'⟩]

/-- A lane's registers are used with the lane. -/
theorem usesReg_lane (r : Role) {a : Nat} (h : 0x5000 ≤ a) (h' : a < 0x6800) : r.usesReg a = r.usesLane ((a - 0x5000) / 0x80) := by
  unfold Role.usesReg
  rw [if_neg (by omega), if_neg (by omega), if_pos ⟨h, h'⟩]

/-! ### Fields written by their access type -/

/-- What a field of value `old` holds after a software write of `v` (R14), `locked` the seal's lock of the RWL fields (R534). -/
def Fld.written (f : Fld) (locked : Bool) (old v : Nat) : Nat :=
  match f.acc with
  | .rw => v % 2 ^ f.width
  | .ro | .wo => old
  | .w1c => (old &&& (2 ^ f.width - 1 - v % 2 ^ f.width)) % 2 ^ f.width
  | .w1s => (old ||| v % 2 ^ f.width) % 2 ^ f.width
  | .rwl => if locked then old else v % 2 ^ f.width

theorem get_writeField (d : Dev) (f : Fld) (v : Nat) :
    (d.writeField f v).get f = f.written (d.flag Reg.HM_STATUS_RWL_LOCKED) (d.get f) v := by
  unfold Dev.writeField Fld.written
  cases f.acc
  case rwl => by_cases hl : d.flag Reg.HM_STATUS_RWL_LOCKED = true <;> simp [hl]
  all_goals simp

/-- A write of one field leaves the device alone or sets that field, which then is not read-only. -/
theorem writeField_cases (d : Dev) (f : Fld) (v : Nat) : d.writeField f v = d ∨ f.acc ≠ .ro ∧ ∃ x, d.writeField f v = d.set f x := by
  unfold Dev.writeField
  cases f.acc
  case ro | wo => exact .inl rfl
  case rwl => by_cases hl : d.flag Reg.HM_STATUS_RWL_LOCKED = true <;> simp [hl]
  all_goals exact .inr ⟨by simp, _, rfl⟩

/-- A write of one field leaves the others, and a read-only field leaves all. -/
theorem get_writeField_ne (d : Dev) {f g : Fld} (v : Nat) (h : f.acc ≠ .ro → g.key ≠ f.key) : (d.writeField f v).get g = d.get g := by
  rcases writeField_cases d f v with e | ⟨hacc, x, e⟩
  · rw [e]
  · rw [e, d.get_set_ne (h hacc)]

/-- A write of one field changes nothing but the register store. -/
theorem writeField_regs (d : Dev) (f : Fld) (v : Nat) : d.writeField f v = { d with regs := (d.writeField f v).regs } := by
  rcases writeField_cases d f v with e | ⟨-, x, e⟩ <;> rw [e]
  rfl

theorem writeFields_cons (d : Dev) (f : Fld) (fs : List Fld) (w : Nat) :
    d.writeFields (f :: fs) w = (d.writeField f (bits w f.lo f.width)).writeFields fs w := rfl

/-- A write of a register changes nothing but the register store. -/
theorem writeFields_regs (d : Dev) (fs : List Fld) (w : Nat) : d.writeFields fs w = { d with regs := (d.writeFields fs w).regs } := by
  induction fs generalizing d with
  | nil => rfl
  | cons f fs ih => rw [writeFields_cons, ih, writeField_regs]

/-- A write of a register leaves every field it does not hold, and its own read-only ones. -/
theorem get_writeFields_ne {d : Dev} {fs : List Fld} {g : Fld} (w : Nat) (h : ∀ f ∈ fs, f.acc ≠ .ro → g.key ≠ f.key) :
    (d.writeFields fs w).get g = d.get g := by
  induction fs generalizing d with
  | nil => rfl
  | cons f fs ih =>
    rw [writeFields_cons, ih fun e he => h e (.tail _ he), get_writeField_ne d _ (h f (.head _))]

/-- A write of a register keeps every field but its own that a write may change. -/
theorem regsKeepAll_writeFields {d : Dev} {fs : List Fld} {w : Nat} {ks : List Nat} (hks : (fs.filter fun f => f.acc != .ro).map Fld.key = ks) :
    RegsKeepAll ks d (d.writeFields fs w) := by
  intro g hg
  rw [← hks] at hg
  refine get_writeFields_ne w fun f hf hacc e => hg ?_
  exact List.mem_map.2 ⟨f, List.mem_filter.2 ⟨hf, by simpa using hacc⟩, e.symm⟩

/-- Each field of a register takes its bits of the word by its access type: the fields do not overlap, and the lock is none of them. -/
theorem get_writeFields_of_mem {d : Dev} {fs : List Fld} {f : Fld} (w : Nat) (hf : f ∈ fs) (hd : fs.Pairwise fun a b => a.key ≠ b.key)
    (hl : ∀ g ∈ fs, Reg.HM_STATUS_RWL_LOCKED.key ≠ g.key) :
    (d.writeFields fs w).get f = f.written (d.flag Reg.HM_STATUS_RWL_LOCKED) (d.get f) (bits w f.lo f.width) := by
  induction fs generalizing d with
  | nil => cases hf
  | cons g fs ih =>
    obtain ⟨hg, hd⟩ := List.pairwise_cons.1 hd
    rw [writeFields_cons]
    rcases List.mem_cons.1 hf with rfl | hf
    · rw [get_writeFields_ne w fun e he _ => hg e he, get_writeField]
    · rw [ih hf hd fun e he => hl e (.tail _ he), Dev.flag, get_writeField_ne d _ fun _ => hl g (.head _),
        get_writeField_ne d _ fun _ => (hg f hf).symm, Dev.flag]

/-- A plain field of a register reads back as written (R14). -/
theorem get_writeFields_rw {d : Dev} {fs : List Fld} {f : Fld} (w : Nat) (hf : f ∈ fs) (hd : fs.Pairwise fun a b => a.key ≠ b.key)
    (hl : ∀ g ∈ fs, Reg.HM_STATUS_RWL_LOCKED.key ≠ g.key) (hacc : f.acc = .rw) :
    (d.writeFields fs w).get f = bits w f.lo f.width := by
  rw [get_writeFields_of_mem w hf hd hl]
  simp [Fld.written, hacc, bits]

/-- A lockable field keeps its value under the lock (R534). -/
theorem get_writeFields_rwl {d : Dev} {fs : List Fld} {f : Fld} (w : Nat) (hf : f ∈ fs) (hd : fs.Pairwise fun a b => a.key ≠ b.key)
    (hl : ∀ g ∈ fs, Reg.HM_STATUS_RWL_LOCKED.key ≠ g.key) (hacc : f.acc = .rwl) :
    (d.writeFields fs w).get f = if d.flag Reg.HM_STATUS_RWL_LOCKED = true then d.get f else bits w f.lo f.width := by
  rw [get_writeFields_of_mem w hf hd hl]
  simp [Fld.written, hacc, bits]

/-- A one-bit W1C field: a written 1 clears it and a 0 leaves its bit (R14). -/
theorem flag_writeFields_w1c {d : Dev} {fs : List Fld} {f : Fld} (w : Nat) (hf : f ∈ fs) (hd : fs.Pairwise fun a b => a.key ≠ b.key)
    (hl : ∀ g ∈ fs, Reg.HM_STATUS_RWL_LOCKED.key ≠ g.key) (hacc : f.acc = .w1c) (hw : f.width = 1) :
    (d.writeFields fs w).flag f = (d.flag f && d.get f % 2 == 1 && !bitOf w f.lo) := by
  have hodd : (d.flag f && d.get f % 2 == 1) = (d.get f % 2 == 1) := by
    rw [Bool.eq_iff_iff]; simp [Dev.flag]; omega
  rw [hodd, Dev.flag, get_writeFields_of_mem w hf hd hl]
  simp only [Fld.written, hacc, hw, bits, bitOf, pow_one]
  rcases Nat.mod_two_eq_zero_or_one (w / 2 ^ f.lo) with h | h
  · rcases Nat.mod_two_eq_zero_or_one (d.get f) with ho | ho <;> simp [h, ho]
  · simp [h]

/-- A register without frame-synchronous fields takes its write at once. -/
theorem plainWrite_of_not_sync {d : Dev} {src : Source} {a w : Nat} (h : syncAt a = false) :
    d.plainWrite src a w = d.writeFields (fieldsAt a) w := by
  simp only [Dev.plainWrite, show ((fieldsAt a).any fun f => f.sync && f.acc == .rw) = false from h, Bool.false_eq_true, if_false]

/-- REGISTER_WRITE of a register without behaviour of its own and without frame-synchronous fields. -/
theorem exec_registerWrite_plain {src : Source} {a : Nat} {v : Word} {s : State} {fs : List Fld} (ha : wholeAddr a = a) (hp : Passes s.dev src a)
    (hw : softWrite s.fuses s.dev src a v.toNat = s.dev.plainWrite src a v.toNat) (hs : syncAt a = false) (hf : fieldsAt a = fs) :
    exec (.registerWrite src a v) s = .next { s with dev := s.dev.writeFields fs v.toNat } := by
  rw [exec_registerWrite_of_passes ha hp, hw, plainWrite_of_not_sync hs, hf]

/-! ### Writes of one register -/

/-- A stream slot's settings have the slot's own write. -/
theorem writeLow_streamCfg (d : Dev) (src : Source) {k : Nat} (hk : k < 4) (w : Nat) :
    d.writeLow src (0x3700 + 8 * k) w = (d.writeStreamCfg src k w).2 := by
  interval_cases k <;> rfl

/-- A lane's registers have the lane's write, but its eye scan its own. -/
theorem writeHigh_lane (f : Fuses) (d : Dev) (src : Source) {a : Nat} (h : 0x5000 ≤ a) (h' : a < 0x6800) (w : Nat) :
    d.writeHigh f src a w
      = if a % 0x80 = 0x24 then d.writeEye src ((a - 0x5000) / 0x80) w else d.writeLane src ((a - 0x5000) / 0x80) a w := by
  unfold Dev.writeHigh
  split
  case h_14 => rw [if_pos ⟨h, h'⟩]
  all_goals omega

theorem writeHigh_eye (f : Fuses) (d : Dev) (src : Source) {l : Nat} (hl : l < 48) (w : Nat) :
    d.writeHigh f src (0x5024 + 0x80 * l) w = d.writeEye src l w := by
  rw [writeHigh_lane f d src (by omega) (by omega), if_pos (by omega), show (0x5024 + 0x80 * l - 0x5000) / 0x80 = l by omega]

/-! ### The rows that are a register write -/

/-- A row of a register below the Compression block. -/
theorem exec_registerWrite_low {src : Source} {a : Nat} {v : Word} {s : State} {f : Dev → Dev} (ha : wholeAddr a = a) (hlow : a < 0x4000)
    (hu : s.dev.role.usesReg a = true) (h : s.dev.writeLow src a v.toNat = f s.dev) :
    exec (.registerWrite src a v) s = onDev (fun d => d.gated src a f) s :=
  exec_registerWrite_eq ha ((softWrite_low hu hlow).trans h)

/-- A row of a register from the Compression block on. -/
theorem exec_registerWrite_high {src : Source} {a : Nat} {v : Word} {s : State} {f : Dev → Dev} (ha : wholeAddr a = a) (hhigh : 0x4000 ≤ a)
    (hu : s.dev.role.usesReg a = true) (h : s.dev.writeHigh s.fuses src a v.toNat = f s.dev) :
    exec (.registerWrite src a v) s = onDev (fun d => d.gated src a f) s :=
  exec_registerWrite_eq ha ((softWrite_high hu hhigh).trans h)

/-- A register every role uses, below the Trigger and capture block. -/
theorem exec_registerWrite_below_trigger {src : Source} {a : Nat} {v : Word} {s : State} {f : Dev → Dev} (ha : wholeAddr a = a) (hlow : a < 0x3000)
    (h : s.dev.writeLow src a v.toNat = f s.dev) : exec (.registerWrite src a v) s = onDev (fun d => d.gated src a f) s :=
  exec_registerWrite_low ha (by omega) (usesReg_below_trigger _ hlow) h

/-- A register every role uses, from the Power and thermal block on. -/
theorem exec_registerWrite_from_power {src : Source} {a : Nat} {v : Word} {s : State} {f : Dev → Dev} (ha : wholeAddr a = a) (hhigh : 0xA000 ≤ a)
    (h : s.dev.writeHigh s.fuses src a v.toNat = f s.dev) : exec (.registerWrite src a v) s = onDev (fun d => d.gated src a f) s :=
  exec_registerWrite_high ha (by omega) (usesReg_from_power _ hhigh) h


/-! ### One register of each access type -/

theorem fieldsAt_srcCfg : fieldsAt 0x1060 = [Reg.TIM_SRC_CFG_DOMAIN_ID, Reg.TIM_SRC_CFG_PPS_POL, Reg.TIM_SRC_CFG_TOD_EN] := by decide +kernel

theorem fieldsAt_timStatus : fieldsAt 0x1004 = [Reg.TIM_STATUS_CLK_STATE, Reg.TIM_STATUS_SELECTED, Reg.TIM_STATUS_DOM_A_STATE,
    Reg.TIM_STATUS_DOM_B_STATE, Reg.TIM_STATUS_STAMPS_REFINED, Reg.TIM_STATUS_ASYM_WATCH, Reg.TIM_STATUS_TOD_MISMATCH,
    Reg.TIM_STATUS_PPS_OUT_OF_BAND, Reg.TIM_STATUS_STEPPED] := by decide +kernel

theorem fieldsAt_progAddr : fieldsAt 0xD010 = [Reg.HM_PROG_ADDR_WORD] := by decide +kernel

theorem fieldsAt_pattern : fieldsAt 0x001C = [Reg.ID_PATTERN_PATTERN] := by decide +kernel

/-- ID_PATTERN (R558) is read-only. -/
theorem registerWrite_pattern {src : Source} {v : Word} {s : State} (hp : Passes s.dev src 0x001C) :
    exec (.registerWrite src 0x001C v) s = .next s :=
  exec_registerWrite_plain rfl hp (softWrite_low (usesReg_below_trigger _ (by decide)) (by decide)) (by decide +kernel) fieldsAt_pattern

/-- TIM_SRC_CFG (R85): every field reads back as written. -/
theorem registerWrite_srcCfg {src : Source} {v : Word} {s : State} (hp : Passes s.dev src 0x1060) :
    Answers (.registerWrite src 0x1060 v) s fun t =>
      t.dev.get Reg.TIM_SRC_CFG_DOMAIN_ID = bits v.toNat 0 8 ∧ t.dev.get Reg.TIM_SRC_CFG_PPS_POL = bits v.toNat 8 1
      ∧ t.dev.get Reg.TIM_SRC_CFG_TOD_EN = bits v.toNat 9 1 ∧ t = { s with dev := { s.dev with regs := t.dev.regs } }
      ∧ RegsKeepAll [Reg.TIM_SRC_CFG_DOMAIN_ID.key, Reg.TIM_SRC_CFG_PPS_POL.key, Reg.TIM_SRC_CFG_TOD_EN.key] s.dev t.dev := by
  refine ⟨_, exec_registerWrite_plain rfl hp (softWrite_low (usesReg_below_trigger _ (by decide)) (by decide)) (by decide +kernel)
    fieldsAt_srcCfg, ?_, ?_, ?_, congrArg (fun d => { s with dev := d }) (writeFields_regs ..), regsKeepAll_writeFields rfl⟩
  all_goals exact get_writeFields_rw _ (by decide) (by decide) (by decide) rfl

/-- TIM_STATUS (R73): a written 1 clears TOD_MISMATCH, and CLK_STATE is read-only. -/
theorem registerWrite_timStatus {src : Source} {v : Word} {s : State} (hp : Passes s.dev src 0x1004) :
    Answers (.registerWrite src 0x1004 v) s fun t =>
      t.dev.flag Reg.TIM_STATUS_TOD_MISMATCH
        = (s.dev.flag Reg.TIM_STATUS_TOD_MISMATCH && s.dev.get Reg.TIM_STATUS_TOD_MISMATCH % 2 == 1 && !bitOf v.toNat 12)
      ∧ t.dev.clkState = s.dev.clkState ∧ t = { s with dev := { s.dev with regs := t.dev.regs } }
      ∧ RegsKeepAll [Reg.TIM_STATUS_TOD_MISMATCH.key, Reg.TIM_STATUS_PPS_OUT_OF_BAND.key, Reg.TIM_STATUS_STEPPED.key] s.dev t.dev :=
  ⟨_, exec_registerWrite_plain rfl hp (softWrite_low (usesReg_below_trigger _ (by decide)) (by decide)) (by decide +kernel)
    fieldsAt_timStatus, flag_writeFields_w1c _ (by decide) (by decide) (by decide) rfl rfl, get_writeFields_ne _ (by decide),
    congrArg (fun d => { s with dev := d }) (writeFields_regs ..), regsKeepAll_writeFields rfl⟩

/-- HM_PROG_ADDR (R534, R541): the locked address keeps its value. -/
theorem registerWrite_progAddr {src : Source} {v : Word} {s : State} (hp : Passes s.dev src 0xD010) :
    Answers (.registerWrite src 0xD010 v) s fun t =>
      t.dev.get Reg.HM_PROG_ADDR_WORD
        = (if s.dev.flag Reg.HM_STATUS_RWL_LOCKED = true then s.dev.get Reg.HM_PROG_ADDR_WORD else bits v.toNat 0 4)
      ∧ t = { s with dev := { s.dev with regs := t.dev.regs } } ∧ RegsKeepAll [Reg.HM_PROG_ADDR_WORD.key] s.dev t.dev := by
  refine ⟨_, exec_registerWrite_plain rfl hp (softWrite_high (usesReg_from_power _ (by decide)) (by decide)) (by decide +kernel)
    fieldsAt_progAddr, ?_, congrArg (fun d => { s with dev := d }) (writeFields_regs ..), regsKeepAll_writeFields rfl⟩
  exact get_writeFields_rwl _ (by decide) (by decide) (by decide) rfl

/-! ### The rows of registers that only some roles use -/

theorem onUnit_of_lt {n i : Nat} (h : i < n) (f : Dev → Dev) (s : State) : onUnit n i f s = onDev f s := if_pos h

theorem exec_registerWrite_maskData {src : Source} {v : Word} {s : State} (hr : s.dev.role = .frontEnd) :
    exec (.registerWrite src 0x36A4 v) s = exec (.trgMaskDataWrite src v) s :=
  exec_registerWrite_low rfl (by decide) (by rw [hr]; rfl) (by rw [hr]; rfl)

theorem exec_registerWrite_streamCfg {src : Source} {v : Word} {s : State} (hr : s.dev.role = .frontEnd) {k : Nat} (hk : k < 4) :
    exec (.registerWrite src (0x3700 + 8 * k) v) s = exec (.streamCfgWrite src k v) s := by
  refine Eq.trans (exec_registerWrite_low ?_ (by omega) ?_ (writeLow_streamCfg s.dev src hk v.toNat)) (onUnit_of_lt hk _ s).symm
  · simp only [wholeAddr]; omega
  · rw [usesReg_trigger _ (by omega) (by omega), hr]; rfl

theorem exec_registerWrite_eyeCtrl {src : Source} {v : Word} {s : State} {l : Nat} (hl : l < 48) (hu : s.dev.role.usesLane l = true) :
    exec (.registerWrite src (0x5024 + 0x80 * l) v) s = exec (.eyeScanStart src l v) s := by
  refine Eq.trans (exec_registerWrite_high ?_ (by omega) ?_ (writeHigh_eye s.fuses s.dev src hl v.toNat)) (onUnit_of_lt hl _ s).symm
  · simp only [wholeAddr]; omega
  · rw [usesReg_lane _ (by omega) (by omega), show (0x5024 + 0x80 * l - 0x5000) / 0x80 = l by omega, hu]

/-- Memory retirement belongs to every role. -/
theorem exec_registerWrite_retire (src : Source) (v : Word) (s : State) :
    exec (.registerWrite src 0x710C v) s = exec (.retireStart src v) s :=
  exec_registerWrite_high rfl (by decide) rfl rfl

theorem exec_registerWrite_route {src : Source} {v : Word} {s : State} (hf : s.dev.role ≠ .frontEnd) (hn : s.dev.role ≠ .noRole) :
    exec (.registerWrite src 0x8024 v) s = exec (.routeDataWrite src v) s := by
  refine exec_registerWrite_high rfl (by decide) ?_ rfl
  cases hr : s.dev.role
  case frontEnd => exact absurd hr hf
  case noRole => exact absurd hr hn
  case cell | hub => rfl

theorem exec_registerWrite_hrCtrl {src : Source} {v : Word} {s : State} (hr : s.dev.role = .hub) :
    exec (.registerWrite src 0x9000 v) s = exec (.hrCtrlWrite src v) s :=
  exec_registerWrite_high rfl (by decide) (by rw [hr]; rfl) rfl

theorem exec_registerWrite_program {src : Source} {v : Word} {s : State} (hv : bitOf v.toNat 0 = true) :
    exec (.registerWrite src 0xD01C v) s = exec (.program src) s :=
  exec_registerWrite_from_power (f := fun d => d.program src s.fuses) rfl (by decide) (if_pos hv)

theorem exec_registerWrite_holdReq {src : Source} {v : Word} {s : State} (hv : bitOf v.toNat 0 = true) :
    exec (.registerWrite src 0xA054 v) s = exec (.holdReqWrite src) s :=
  exec_registerWrite_from_power (f := Dev.writeHoldReq) rfl (by decide) (if_pos hv)

/-- A register the role does not use takes nothing. -/
theorem registerWrite_unused {src : Source} {a : Nat} {v : Word} {s : State} (hu : s.dev.role.usesReg (wholeAddr a) = false)
    (hp : Passes s.dev src (wholeAddr a)) : exec (.registerWrite src a v) s = .next s := by
  rw [exec_registerWrite_wholeAddr, exec_registerWrite_of_passes (wholeAddr_wholeAddr a) hp, softWrite_unused hu]

/-- Settles O16: the gate and the register's own write say what REGISTER_WRITE does, and a row is the same write behind the same gate. -/
theorem registerWrites : Obligations.RegisterWrites := by
  refine ⟨fun src v s => ⟨fun a => registerWrite_unused, fun a => exec_registerWrite_wholeAddr src a v s, registerWrite_pattern,
    registerWrite_srcCfg, registerWrite_timStatus, registerWrite_progAddr⟩, fun src v s => ?_⟩
  have low {a : Nat} {f : Dev → Dev} := exec_registerWrite_below_trigger (src := src) (a := a) (v := v) (s := s) (f := f)
  have high {a : Nat} {f : Dev → Dev} := exec_registerWrite_from_power (src := src) (a := a) (v := v) (s := s) (f := f)
  exact ⟨low rfl (by decide) rfl, low rfl (by decide) rfl, low rfl (by decide) rfl, low rfl (by decide) rfl, low rfl (by decide) rfl,
    exec_registerWrite_maskData, fun hr k hk => exec_registerWrite_streamCfg hr hk, fun l hl hu => exec_registerWrite_eyeCtrl hl hu,
    exec_registerWrite_retire src v s, exec_registerWrite_route, exec_registerWrite_hrCtrl,
    high rfl (by decide) rfl, high rfl (by decide) rfl, high rfl (by decide) rfl, high rfl (by decide) rfl, high rfl (by decide) rfl,
    exec_registerWrite_program, exec_registerWrite_holdReq⟩

end Sys2Proof.Machine
end

section
/-! PROOF. A software write of the uplink mask or of the device number: what is stored, what waits, and the event that tells the outcome; O15 from it. -/
namespace Sys2Proof.Machine
open Sys2Proof.Safety

theorem fieldsAt_roleCfg : fieldsAt 0x0104 = [Reg.GLB_ROLE_CFG_UPLINK_MASK] := by decide +kernel

theorem fieldsAt_deviceNumber : fieldsAt 0x0108 = [Reg.GLB_DEVICE_NUMBER_DEVNUM, Reg.GLB_DEVICE_NUMBER_VALID] := by decide +kernel

theorem w32_toNat (v : Word) : w32 v.toNat = v := BitVec.ofNat_toNat 32 v

/-- A register with frame-synchronous fields takes its write in what it reads, and queues it for the boundary (R25). -/
theorem plainWrite_of_sync {d : Dev} {src : Source} {a w : Nat} (h : syncAt a = true) :
    d.plainWrite src a w = (d.writeFields (fieldsAt a) w).enqueue (.reg src a (w32 w)) := by
  simp only [Dev.plainWrite, show ((fieldsAt a).any fun f => f.sync && f.acc == .rw) = true from h, if_true]

/-- What a message shows of itself without its free words: its kind, and the class of the event it carries. -/
def Msg.shown (m : Msg) : Nat × Nat := (m.kind, nth (natsOf m.body) 0 / 256 % 256)

/-- The descriptor of an event shows its class (R327). -/
theorem eventDesc_class (d : Dev) {cls : Nat} (h : cls < 256) (code : Nat) (data : List Nat) :
    nth (natsOf (wordsOf (d.eventDesc cls code data))) 0 / 256 % 256 = cls := by
  simp [Dev.eventDesc, wordsOf, natsOf, nth, w32]
  omega

/-- An event of a front-end with room in its upward queue goes to the queue's end (R367). -/
theorem raise_ownQ_frontEnd {d : Dev} (hr : d.role = .frontEnd) (hq : d.mg.ownQ.length < d.upQueue) {cls : Nat} (hc : cls < 256) (code : Nat)
    (data : List Nat) : (d.raise cls code data).mg.ownQ.map Msg.shown = d.mg.ownQ.map Msg.shown ++ [(3, cls)] := by
  have hq' : d.mg.ownQ.length < ({ d with mg := { d.mg with msgSeq := (d.mg.msgSeq + 1) % 2 ^ 32 } } : Dev).upQueue := hq
  simp only [Dev.raise, hr, Dev.postUp, if_pos hq', List.map_append, List.map_cons, List.map_nil, Msg.shown, eventDesc_class d hc]


/-- The outcome of a write of the mask is told in a front-end, and in no other role. -/
def Dev.tellMask (e : Dev) (cause : Nat) (data : List Nat) : Dev := if e.role == .frontEnd then e.trgEvent cause data else e

/-- Telling it is all the device does besides the write: an event of class 0x04 where it finds room, and nothing outside a front-end. -/
theorem tellMask_spec (e : Dev) (cause : Nat) (data : List Nat) :
    Talks e (e.tellMask cause data) ∧ (e.role ≠ .frontEnd → e.tellMask cause data = e)
    ∧ (e.role = .frontEnd → e.mg.ownQ.length < e.upQueue →
        (e.tellMask cause data).mg.ownQ.map Msg.shown = e.mg.ownQ.map Msg.shown ++ [(3, 4)]) := by
  by_cases hr : e.role = .frontEnd
  · have he : e.tellMask cause data = e.raiseOpen 4 cause data := by simp [Dev.tellMask, hr, Dev.trgEvent]
    rw [he]
    exact ⟨raiseOpen_talks e 4 cause data, fun hn => absurd hr hn, fun _ hq => raise_ownQ_frontEnd hr hq (by decide) _ _⟩
  · have he : e.tellMask cause data = e := by simp [Dev.tellMask, hr]
    exact ⟨he.symm ▸ Talks.refl e, fun _ => he, fun h => absurd h hr⟩

/-- A mask that leaves the role no uplink (R40). -/
def emptyMask (r : Role) (w : Nat) : Prop := r = .frontEnd ∧ w % 16 = 0 ∨ r = .cell ∧ w % 256 = 0

theorem role_set {d : Dev} {f : Fld} {v : Nat} (h : Reg.GLB_ROLE_STATUS_ACTIVE_ROLE.key ≠ f.key) : (d.set f v).role = d.role := by
  rw [Dev.role, d.get_set_ne h, Dev.role]

theorem upQueue_set {d : Dev} {f : Fld} {v : Nat} (h : Reg.LN_MG_CFG_UP_QUEUE.key ≠ f.key) : (d.set f v).upQueue = d.upQueue := by
  rw [Dev.upQueue, d.get_set_ne h, Dev.upQueue]

/-- A refused mask is not stored: CFG_REFUSED is set, and the refusal told. -/
theorem writeRoleCfg_refused {d : Dev} {src : Source} {w : Nat} (h : emptyMask d.role w) :
    d.writeRoleCfg src w = (d.set Reg.GLB_ROLE_STATUS_CFG_REFUSED 1).tellMask 8 [w % 16] := by
  have hb : ((d.role == .frontEnd && w % 16 == 0) || (d.role == .cell && w % 256 == 0)) = true := by simpa [emptyMask] using h
  simp only [Dev.writeRoleCfg, hb, if_true]
  rfl

/-- Any other mask is stored and waits, and that is told. -/
theorem writeRoleCfg_stored {d : Dev} {src : Source} {w : Nat} (h : ¬ emptyMask d.role w) :
    d.writeRoleCfg src w
      = ((d.set Reg.GLB_ROLE_CFG_UPLINK_MASK (bits w 0 8)).enqueue (.reg src 0x0104 (w32 w))).tellMask 7 [w % 16] := by
  have hb : ((d.role == .frontEnd && w % 16 == 0) || (d.role == .cell && w % 256 == 0)) = false := by
    rw [← Bool.not_eq_true]; simpa [emptyMask] using h
  simp only [Dev.writeRoleCfg, hb, plainWrite_of_sync (a := 0x0104) (by decide +kernel), fieldsAt_roleCfg]
  rfl

theorem exec_roleCfg {src : Source} {v : Word} {s : State} (hp : Passes s.dev src 0x0104) :
    exec (.glbRoleCfgWrite src v) s = .next { s with dev := s.dev.writeRoleCfg src v.toNat } := by
  show onDev (fun d => d.gated src 0x0104 fun d => d.writeRoleCfg src v.toNat) s = _
  rw [onDev, gated_of_passes hp]

/-- What a write of the mask leaves of the device `d`: a field is stored, the writes that wait may change, and the outcome is told. -/
theorem tellMask_of_set {d e t : Dev} {f : Fld} {x cause : Nat} {data : List Nat} (ht : t = e.tellMask cause data)
    (he : e = { d.set f x with queue := e.queue }) (hrole : Reg.GLB_ROLE_STATUS_ACTIVE_ROLE.key ≠ f.key)
    (hup : Reg.LN_MG_CFG_UP_QUEUE.key ≠ f.key) (hf : ¬ countsTalk f.key) :
    t.get f = x % 2 ^ f.width
    ∧ (d.role = .frontEnd → d.mg.ownQ.length < d.upQueue → t.mg.ownQ.map Msg.shown = d.mg.ownQ.map Msg.shown ++ [(3, 4)])
    ∧ (d.role ≠ .frontEnd → t = { d with regs := t.regs, queue := t.queue })
    ∧ t.queue = e.queue ∧ t = { talked d t with queue := t.queue } ∧ RegsKeep [f.key] d t := by
  obtain ⟨⟨hdev, hregs⟩, hother, hown⟩ := tellMask_spec e cause data
  rw [← ht] at hdev hregs hother hown
  have hqueue : t.queue = e.queue := (congrArg Dev.queue hdev).trans rfl
  have hrole' : e.role = d.role := he ▸ role_set hrole
  have hup' : e.upQueue = d.upQueue := he ▸ upQueue_set hup
  refine ⟨?_, fun hr hroom => ?_, fun hr => ?_, hqueue, ?_, fun g hg hgt => ?_⟩
  · rw [hregs f (by simp) hf, he]
    exact d.get_set_same f x
  · have hmg : e.mg = d.mg := by rw [he]; rfl
    exact hmg ▸ hown (hrole'.trans hr) (by rw [hup', hmg]; exact hroom)
  · rw [hother (hrole'.symm ▸ hr), he]
    rfl
  · have htalk : talked e t = { talked d t with queue := e.queue } := by rw [he]; rfl
    exact hdev.trans (htalk.trans (hqueue ▸ rfl))
  · rw [hregs g (by simp) hgt, he]
    exact d.get_set_ne (by simpa using hg) x

theorem writeDeviceNumber_eq (d : Dev) (src : Source) (w : Nat) :
    d.writeLow src 0x0108 w = (d.writeFields [Reg.GLB_DEVICE_NUMBER_DEVNUM, Reg.GLB_DEVICE_NUMBER_VALID] w).enqueue (.reg src 0x0108 (w32 w)) := by
  rw [← fieldsAt_deviceNumber]
  rfl

theorem exec_deviceNumber {src : Source} {v : Word} {s : State} (hp : Passes s.dev src 0x0108) :
    exec (.glbDeviceNumberWrite src v) s = .next { s with dev := s.dev.writeLow src 0x0108 v.toNat } := by
  show onDev (fun d => d.gated src 0x0108 fun d => d.writeLow src 0x0108 v.toNat) s = _
  rw [onDev, gated_of_passes hp]

/-- A device number is stored and waits (R41). -/
theorem deviceNumber_stored {src : Source} {v : Word} {s : State} (hp : Passes s.dev src 0x0108) :
    Answers (.glbDeviceNumberWrite src v) s fun t =>
      t.dev.get Reg.GLB_DEVICE_NUMBER_DEVNUM = bits v.toNat 0 16 ∧ t.dev.get Reg.GLB_DEVICE_NUMBER_VALID = bits v.toNat 16 1
      ∧ t.dev.devnum = s.dev.devnum ∧ t.dev.numbered = s.dev.numbered ∧ t.dev.queue = s.dev.queue ++ [.reg src 0x0108 v]
      ∧ t = { s with dev := { s.dev with regs := t.dev.regs, queue := t.dev.queue } }
      ∧ RegsKeepAll [Reg.GLB_DEVICE_NUMBER_DEVNUM.key, Reg.GLB_DEVICE_NUMBER_VALID.key] s.dev t.dev := by
  refine ⟨_, exec_deviceNumber hp, ?_⟩
  rw [writeDeviceNumber_eq, w32_toNat]
  have hdev := writeFields_regs s.dev [Reg.GLB_DEVICE_NUMBER_DEVNUM, Reg.GLB_DEVICE_NUMBER_VALID] v.toNat
  refine ⟨get_writeFields_rw v.toNat (by decide) (by decide) (by decide) rfl, get_writeFields_rw v.toNat (by decide) (by decide) (by decide) rfl,
    rfl, rfl, ?_, ?_, regsKeepAll_writeFields (d := s.dev) (w := v.toNat) rfl⟩
  · rfl
  · exact congrArg (fun d : Dev => { s with dev := d.enqueue (.reg src 0x0108 v) }) hdev

/-- A refused mask leaves no more than CFG_REFUSED and, in a front-end, an event (R40, R181). -/
theorem roleCfg_refused {src : Source} {v : Word} {s : State} (hp : Passes s.dev src 0x0104) (hbad : emptyMask s.dev.role v.toNat) :
    Answers (.glbRoleCfgWrite src v) s fun t =>
      t.dev.get Reg.GLB_ROLE_STATUS_CFG_REFUSED = 1
      ∧ (s.dev.role = .frontEnd → s.dev.mg.ownQ.length < s.dev.upQueue →
          t.dev.mg.ownQ.map Msg.shown = s.dev.mg.ownQ.map Msg.shown ++ [(3, 4)])
      ∧ (s.dev.role ≠ .frontEnd → t = { s with dev := { s.dev with regs := t.dev.regs } })
      ∧ t = { s with dev := talked s.dev t.dev }
      ∧ RegsKeep [Reg.GLB_ROLE_STATUS_CFG_REFUSED.key] s.dev t.dev := by
  obtain ⟨hget, hown, hother, hqueue, hdev, hregs⟩ := tellMask_of_set (writeRoleCfg_refused (src := src) hbad) rfl (by decide) (by decide)
    (notTalk (by decide) (by decide))
  rw [hqueue] at hother hdev
  exact ⟨_, exec_roleCfg hp, hget, hown, fun hr => congrArg (fun d : Dev => { s with dev := d }) (hother hr),
    congrArg (fun d : Dev => { s with dev := d }) hdev, hregs⟩

/-- Any other mask reads back and waits; the one in force stays (R40, R181). -/
theorem roleCfg_stored {src : Source} {v : Word} {s : State} (hp : Passes s.dev src 0x0104) (hgood : ¬ emptyMask s.dev.role v.toNat) :
    Answers (.glbRoleCfgWrite src v) s fun t =>
      t.dev.get Reg.GLB_ROLE_CFG_UPLINK_MASK = bits v.toNat 0 8 ∧ t.dev.queue = s.dev.queue ++ [.reg src 0x0104 v]
      ∧ (s.dev.role = .frontEnd → s.dev.mg.ownQ.length < s.dev.upQueue →
          t.dev.mg.ownQ.map Msg.shown = s.dev.mg.ownQ.map Msg.shown ++ [(3, 4)])
      ∧ (s.dev.role ≠ .frontEnd → t = { s with dev := { s.dev with regs := t.dev.regs, queue := t.dev.queue } })
      ∧ t.dev.eff Reg.GLB_ROLE_CFG_UPLINK_MASK = s.dev.eff Reg.GLB_ROLE_CFG_UPLINK_MASK
      ∧ t = { s with dev := { talked s.dev t.dev with queue := t.dev.queue } }
      ∧ RegsKeep [Reg.GLB_ROLE_CFG_UPLINK_MASK.key] s.dev t.dev := by
  obtain ⟨hget, hown, hother, hqueue, hdev, hregs⟩ := tellMask_of_set (writeRoleCfg_stored (src := src) hgood) rfl (by decide) (by decide)
    (notTalk (by decide) (by decide))
  have hforce : (s.dev.writeRoleCfg src v.toNat).force = s.dev.force := (congrArg Dev.force hdev).trans rfl
  exact ⟨_, exec_roleCfg hp, hget.trans (Nat.mod_mod _ _), by rw [hqueue, w32_toNat]; rfl, hown,
    fun hr => congrArg (fun d : Dev => { s with dev := d }) (hother hr), congrArg (getT 255 Reg.GLB_ROLE_CFG_UPLINK_MASK.key) hforce,
    congrArg (fun d : Dev => { s with dev := d }) hdev, hregs⟩

/-- Settles O15: a write of the mask is one stored field and an outcome told in a front-end, a write of the number two fields that wait. -/
theorem globalWritesWaitForTheBoundary : Obligations.GlobalWritesWaitForTheBoundary :=
  ⟨fun _ _ _ hp hbad => roleCfg_refused hp hbad, fun _ _ _ hp hgood => roleCfg_stored hp hgood, fun _ _ _ hp => deviceNumber_stored hp⟩

end Sys2Proof.Machine
end

section
/-! PROOF. A record that reaches a cell device or hub after the horizon of its frame; O50 from it. -/
namespace Sys2Proof.Machine
open Sys2Proof.Safety

/-- A set of a named field keeps every other field, the counts of messages too. -/
theorem regsKeepAll_set (d : Dev) (f : Fld) (v : Nat) : RegsKeepAll [f.key] d (d.set f v) :=
  fun _ hg => Dev.get_set_ne d (by simpa using hg) v

/-- A late record leaves its port and is counted (R34). -/
theorem recordReceived_late {d : Dev} {l : Nat} {ws : List Word} {rest : List (List Word)} (hup : d.up = true) (hl : l < d.role.downLanes)
    (hin : (d.lane l).recIn = ws :: rest)
    (hassoc : (d.inData l && d.effB (Reg.MRG_PORT_DEV_VALID l) && d.fitsPort l (recDev (natsOf ws)) (recTyp (natsOf ws))) = true)
    (hnear : fiDiff (recFi (natsOf ws)) d.fi ≤ 1) (hpast : d.pastHorizon (d.fnOfFi (recFi (natsOf ws))) = true) :
    d.recordReceived l = (d.setLane l { d.lane l with recIn := rest }).addWrap Reg.GLB_LADDER_LATE_LATE_RECORDS 1 := by
  have hguard : (!d.up || !decide (l < d.role.downLanes)) = false := by simp [hup, hl]
  unfold Dev.recordReceived
  simp only [hin, hguard, Bool.false_eq_true, if_false]
  rw [if_neg, if_neg, if_pos]
  · rfl
  · exact hpast
  · exact Int.not_lt.2 hnear
  · show ¬ (!(d.inData l && d.effB (Reg.MRG_PORT_DEV_VALID l) && d.fitsPort l (recDev (natsOf ws)) (recTyp (natsOf ws)))) = true
    rw [hassoc]
    decide

theorem downLanes_lt {r : Role} {l : Nat} (h : l < r.downLanes) : l < 48 := by
  cases r <;> simp only [Role.downLanes] at h <;> omega

theorem horizon_eq (d : Dev) : d.horizon = if d.role = .hub then 56 else 40 := by
  simp [Dev.horizon]

/-- The horizon of a frame is passed with its time, and with its verdict (R34). -/
theorem pastHorizon_iff (d : Dev) (fn : Nat) :
    d.pastHorizon fn = true ↔ fn + (if d.role = .hub then 56 else 40) < d.fn ∨ ∃ f, d.frameOf fn = some f ∧ f.judged = true := by
  rw [Dev.pastHorizon, horizon_eq, Bool.or_eq_true, decide_eq_true_iff]
  refine or_congr_right ?_
  cases hf : d.frameOf fn <;> simp

/-- Settles O50: a late record leaves its port's list and adds 1 to the count; a frame is past its horizon by its age or by its verdict. -/
theorem lateRecordsAreDiscardedAndCounted : Obligations.LateRecordsAreDiscardedAndCounted := by
  refine ⟨fun l ws rest s hup hl hin hassoc hnear hpast => ?_, fun d fn hr => ⟨fun hold => ?_, fun hyoung hopen => ?_⟩, fun d fn f hf hj => ?_⟩
  · have hexec : exec (.recordReceived l) s = .next { s with dev := s.dev.recordReceived l } := onUnit_of_lt (downLanes_lt hl) _ s
    rw [recordReceived_late hup hl hin hassoc hnear hpast] at hexec
    exact ⟨_, hexec, Dev.get_set_same _ _ _, getT_putT_same _ _ _ _, fun m hm => getT_putT_ne _ hm _ _, rfl,
      regsKeepAll_set (s.dev.setLane l { s.dev.lane l with recIn := rest }) _ _⟩
  · exact (pastHorizon_iff d fn).2 (.inl hold)
  · rw [← Bool.not_eq_true, pastHorizon_iff]
    rintro (hold | ⟨f, hf, hj⟩)
    · omega
    · simp [hf, hj] at hopen
  · exact (pastHorizon_iff d fn).2 (.inr ⟨f, hf, hj⟩)

end Sys2Proof.Machine
end

section
/-! PROOF. Two statements that a state refutes: O20 by the excitation that the loss of the reference turns on, O19 by a power-on that waits before the role step. -/
namespace Sys2Proof.Machine
open Sys2Proof.Safety

/-- What is claimed of a command whose meaning changes only the device is so of the device it leaves. -/
theorem of_answers_onDev {c : Instr} {s : State} {f : Dev → Dev} {P : State → Prop} (hc : exec c s = onDev f s) (h : Answers c s P) :
    P { s with dev := f s.dev } := by
  obtain ⟨t, ht, hP⟩ := h
  obtain rfl : { s with dev := f s.dev } = t := by simpa [hc, onDev] using ht
  exact hP

/-! ### The reference is lost while a pulsed excitation rests -/

/-- A running device between two bursts of a pulsed voltage excitation: HK_CONV_CFG with EXC_USE, HK_EXC_CTRL with MODE 1 and PULSED, the
converter in its rest and the excitation off (R454). -/
def restingBurst : State :=
  { State.reset with
    dev := Dev.set { State.reset.dev with boot := .running, hk := { State.reset.dev.hk with cfg := [(0xB004, 2 ^ 14), (0xB00C, 5)] } }
      Reg.HK_STATUS_PHASE 4 }

theorem restingBurst_excitation_off : restingBurst.dev.get Reg.HK_STATUS_EXC_ON = 0 := by decide +kernel

/-- Without the reference a pulsed excitation stays on (R463). -/
theorem restingBurst_refLost_excitation_on : restingBurst.dev.refLost.get Reg.HK_STATUS_EXC_ON = 1 := by decide +kernel

/-- Refutes O20: the clause on REFCLK_LOST of a running device names HK_STATUS.PHASE as the only housekeeping field that may change, but where
the loss meets the rest between two bursts it also turns the excitation on, as R463 asks, and HK_STATUS.EXC_ON shows it. -/
theorem not_referenceClockAndStraps : ¬ Obligations.ReferenceClockAndStraps := by
  rintro ⟨-, -, hlost, -⟩
  obtain ⟨-, -, hregs⟩ := of_answers_onDev (f := Dev.refLost) rfl (hlost restingBurst rfl rfl)
  have hkept := hregs Reg.HK_STATUS_EXC_ON (by decide) (notTalk (by decide) (by decide))
  rw [restingBurst_excitation_off] at hkept
  exact absurd (restingBurst_refLost_excitation_on.symm.trans hkept) (by decide)

/-! ### A role is taken over a power-on that still waits -/

/-- A front-end before its role step, in which channel 5 still waits for a power-on with admission while P_MEAS stands above the ceiling.
Power-up itself empties the list of requests (R550); the statement asks nothing of it. -/
def channelFiveAsks : State :=
  { State.reset with
    dev := ((Dev.set { State.reset.dev with boot := .waiting, pw := { State.reset.dev.pw with req := [64 + 5] } }
      Reg.GLB_ROLE_STATUS_PERMITTED 7).set Reg.PWR_INPUT_P_MEAS 2000).set Reg.PWR_CLASS_CEILING 1600 }

/-- The role step starts the waiting power-ons (R518), so that admission refuses channel 5 (R488) and the ramp goes without it. -/
theorem channelFiveAsks_ramp : channelFiveAsks.dev.roleFixed.pw.ramp = (List.range 48).filter (· ≠ 5) := by decide +kernel

/-- Refutes O19: the last clause says that a front-end's ramp holds all 48 channels whatever the state before, but a power-on that already
waited may be refused in the same step and take its channel out of the ramp. -/
theorem not_roleFixedTakesOrRefusesTheRole : ¬ Obligations.RoleFixedTakesOrRefusesTheRole := by
  intro h
  obtain ⟨-, htaken⟩ := h channelFiveAsks rfl (by decide +kernel)
  obtain ⟨-, hruns⟩ := htaken 0 (by decide +kernel) (by decide) (by decide +kernel) (by decide +kernel)
  obtain ⟨-, -, -, -, -, hramp, -⟩ := of_answers_onDev (f := Dev.roleFixed) rfl (hruns rfl rfl rfl)
  exact absurd (channelFiveAsks_ramp.symm.trans hramp) (by decide)

end Sys2Proof.Machine
end

section
/-! PROOF. The frame boundary: its starts, its clock, held actions and waiting writes, each by what the rule says of it; O60 from them. -/
namespace Sys2Proof.Machine
open Sys2Proof.Safety

/-! ### The starts of one boundary (R479) -/

/-- One write of a table adds at most one entry with a property. -/
theorem countP_putT_le {α : Type} (p : Nat × α → Bool) (k : Nat) (v : α) (t : List (Nat × α)) : (putT k v t).countP p ≤ t.countP p + 1 := by
  have hnew (l : List (Nat × α)) : ((k, v) :: l).countP p ≤ l.countP p + 1 := by
    rw [List.countP_cons]; split <;> omega
  induction t with
  | nil => exact hnew []
  | cons q t ih =>
    obtain ⟨j, w⟩ := q
    unfold putT
    split
    · exact hnew _
    · split
      · exact (hnew t).trans (by rw [List.countP_cons]; omega)
      · simp only [List.countP_cons]; omega

theorem setLinBoot_pw (d : Dev) (l : List Nat) : (d.setLinBoot l).pw = d.pw := by
  unfold Dev.setLinBoot
  split <;> rfl

theorem skipRamp_startFn (d : Dev) (n : Nat) : (d.skipRamp n).pw.startFn = d.pw.startFn := by
  have hleave (e : Dev) : (e.leaveRamp n).pw.startFn = e.pw.startFn := by
    unfold Dev.leaveRamp
    split
    · rfl
    · dsimp only; split <;> rfl
  unfold Dev.skipRamp
  split
  · rw [hleave, setLinBoot_pw]
  · rfl

/-- A refused power-on starts no domain (R488). -/
theorem refusePower_startFn (d : Dev) (code : Nat) : (d.refusePower code).pw.startFn = d.pw.startFn := by
  have hlanes (ls : List Nat) : (ls.foldl (fun d l => d.setBoth (Reg.LN_CTRL_ENABLE l) 0) d).pw = d.pw :=
    List.foldlRecOn (motive := fun e : Dev => e.pw = d.pw) ls _ rfl fun _ he _ _ => he
  simp only [Dev.refusePower, Dev.pwrEvent, Dev.raise_pw, Dev.setB_eq, Dev.set_pw]
  split
  · exact skipRamp_startFn _ _
  · split
    · rw [hlanes]
    · rfl

theorem beginPower_startFn (d : Dev) (code : Nat) : (d.beginPower code).pw.startFn = putT code d.fn d.pw.startFn := by
  unfold Dev.beginPower
  dsimp only
  split
  · rfl
  · split <;> rfl

/-- With room for `room` starts, at most so many entries of a kind are added to the table of starts. -/
theorem countP_startList_le (p : Nat × Nat → Bool) (l : List Nat) (room : Nat) (d : Dev) :
    (startList l room d).pw.startFn.countP p ≤ d.pw.startFn.countP p + room := by
  induction l generalizing room d with
  | nil => simp [startList]
  | cons c t ih =>
    unfold startList
    dsimp only
    split
    · exact ih room d
    · split
      · exact (ih room _).trans (by rw [refusePower_startFn])
      · cases room with
        | zero => exact ih 0 _
        | succ k =>
          have hrest := ih k (d.beginPower (c % 64))
          have hone := countP_putT_le p (c % 64) d.fn d.pw.startFn
          rw [beginPower_startFn] at hrest
          exact hrest.trans (by omega)

/-- At most four domains begin powering at a boundary. -/
theorem startPower_at_most_four (d : Dev) : (d.startPower.pw.startFn.filter fun p => !d.pw.startFn.contains p).length ≤ 4 := by
  have hnone : d.pw.startFn.countP (fun p => !d.pw.startFn.contains p) = 0 := List.countP_eq_zero.2 (by simp)
  rw [← List.countP_eq_length_filter]
  unfold Dev.startPower
  split
  · omega
  · have h := countP_startList_le (fun p => !d.pw.startFn.contains p)
      (sortBy (fun a b => decide (powerOrder a < powerOrder b)) d.pw.req) 4 { d with pw := { d.pw with req := [] } }
    exact h.trans (by dsimp only; omega)

/-! ### The clock (R46, R47) -/

/-- A frame ends at the first reference edge at or past 1,000 ns. -/
theorem frameCycles_spec (e u : Int) (h : e + u < 65536000) :
    65536000 ≤ e + u + 262144 * (frameCycles e u : Int) ∧ e + u + 262144 * ((frameCycles e u : Int) - 1) < 65536000 := by
  have hdiv : floorDiv (frameUnits - e - u + cycleUnits - 1) cycleUnits = (65536000 - e - u + 262144 - 1) / 262144 :=
    Int.fdiv_eq_ediv_of_nonneg _ (by decide)
  have hcyc : (frameCycles e u : Int) = (65536000 - e - u + 262144 - 1) / 262144 := by
    rw [frameCycles, hdiv]; omega
  omega

/-- An instant that lies `x` units into frame `n` is of frame `n`. -/
theorem instFn_eq (n : Nat) {x : Int} (h0 : 0 ≤ x) (h1 : x < 65536000) : instFn (65536000 * n + x) = n := by
  rw [instFn, floorDiv, Int.fdiv_eq_ediv_of_nonneg _ (by decide)]
  simp only [frameUnits]
  omega

/-- Without a coarse step the clock goes to the next frame, with the excess over the multiple of 1,000 ns. -/
theorem advanceClock_of_no_step {d : Dev} {u x : Int} (hs : d.tm.stepPend = none)
    (hx : x = (d.tm.clk.exc : Int) + 262144 * d.tm.clk.cyc + d.tm.clk.u - 65536000) (h0 : 0 ≤ x) (h1 : x < 65536000) :
    d.advanceClock u = { d with tm := { d.tm with stepped := false, clk :=
      { sec := (d.fn + 1) / 1000000, fs := (d.fn + 1) % 1000000, exc := x.toNat, cyc := frameCycles x u, u := u } } } := by
  have ht : frameUnits * d.fn + (d.tm.clk.exc : Int) + cycleUnits * d.tm.clk.cyc + d.tm.clk.u = 65536000 * ((d.fn + 1 : Nat) : Int) + x := by
    simp only [frameUnits, cycleUnits]; omega
  have hexc : 65536000 * ((d.fn + 1 : Nat) : Int) + x - frameUnits * ((d.fn + 1 : Nat) : Int) = x := by
    simp only [frameUnits]; omega
  simp only [Dev.advanceClock, hs, Option.map_none, ht, instFn_eq (d.fn + 1) h0 h1, hexc, Option.isSome_none, Int.toNat_of_nonneg h0]

theorem openFrame_of_no_step {d : Dev} (hs : d.tm.stepPend = none) (u : Int) :
    d.openFrame u = { d.advanceClock u with
      acq := { d.acq with base := d.acq.base + 10 * (d.tm.clk.cyc : Int),
                          fstats := (d.acq.fstats.map fun s => { s with age := s.age + 1 }).filter fun s => decide (s.age < 144) }
      pw := { d.pw with frames := d.pw.frames + 1 } } := by
  have hpend : (d.advanceClock u).tm.stepPend = none := hs
  simp only [Dev.openFrame, hpend]
  rfl

theorem openFrame_clk {d : Dev} {u x : Int} (hs : d.tm.stepPend = none)
    (hx : x = (d.tm.clk.exc : Int) + 262144 * d.tm.clk.cyc + d.tm.clk.u - 65536000) (h0 : 0 ≤ x) (h1 : x < 65536000) :
    (d.openFrame u).tm.clk
      = { sec := (d.fn + 1) / 1000000, fs := (d.fn + 1) % 1000000, exc := x.toNat, cyc := frameCycles x u, u := u } := by
  rw [openFrame_of_no_step hs, advanceClock_of_no_step hs hx h0 h1]

/-- The frame that opens without a coarse step (R46, R47): the count goes up by one, the excess over the multiple of 1,000 ns is left. -/
theorem openFrame_next (d : Dev) (u : Int) (hs : d.tm.stepPend = none) {x : Int}
    (hx : x = (d.tm.clk.exc : Int) + 262144 * d.tm.clk.cyc + d.tm.clk.u - 65536000) (h0 : 0 ≤ x) (h1 : x < 65536000) :
    (d.openFrame u).fn = d.fn + 1 ∧ (d.openFrame u).fi = (d.fi + 1) % 2 ^ 32 ∧ (d.openFrame u).tm.clk.fs < 1000000
    ∧ ((d.openFrame u).tm.clk.exc : Int) = x ∧ (d.openFrame u).tm.clk.cyc = frameCycles x u ∧ (d.openFrame u).tm.clk.u = u
    ∧ (d.openFrame u).acq.base = d.acq.base + 10 * (d.tm.clk.cyc : Int)
    ∧ (d.openFrame u).regs = d.regs ∧ (d.openFrame u).lanes = d.lanes ∧ (d.openFrame u).rcd = d.rcd
    ∧ (d.openFrame u).tm.held = d.tm.held := by
  have hfn : (d.openFrame u).fn = d.fn + 1 := by
    rw [Dev.fn, openFrame_clk hs hx h0 h1]
    exact Nat.div_add_mod' _ _
  have hfi : (d.openFrame u).fi = (d.fi + 1) % 2 ^ 32 := by
    rw [Dev.fi, hfn, Dev.fi, Nat.mod_add_mod]
  rw [openFrame_clk hs hx h0 h1]
  refine ⟨hfn, hfi, Nat.mod_lt _ (by decide), Int.toNat_of_nonneg h0, rfl, rfl, ?_⟩
  rw [openFrame_of_no_step hs]
  exact ⟨rfl, rfl, rfl, rfl, rfl⟩

/-! ### Held actions (R69 to R71) -/

/-- What becomes of a held action, by what is due: it stays, it is refused, or it executes so many frames late. -/
def actionResult (f : Fuses) (x : EccDev) (c : Cmd) : Option (Option Nat) → EccDev
  | none => x
  | some none => (x.1, (x.2.setHeldActions (x.2.tm.held.erase c)).refuseAction c 2)
  | some (some late) =>
    let d := x.2.setHeldActions (x.2.tm.held.erase c)
    let y := runCmd f Dev.settle c late (x.1, if late = 0 then d else d.addWrap Reg.TIM_HG_STATS_LATE_EXEC 1)
    (y.1, y.2.settle)

/-- `runAction` splits on what is due. (Stated of the unapplied function: the kernel would otherwise evaluate the difference of two frame
indices when it unfolds the split.) -/
theorem runAction_eq_actionResult : runAction = fun f x c => actionResult f x c (x.2.actionDue x.2.fi c) := by
  delta runAction
  funext f x c
  generalize x.2.actionDue x.2.fi c = due
  rcases due with _ | _ | late <;> rfl

theorem runAction_of_due {f : Fuses} {x : EccDev} {c : Cmd} {due : Option (Option Nat)} (h : x.2.actionDue x.2.fi c = due) :
    runAction f x c = actionResult f x c due :=
  h ▸ congrFun (congrFun (congrFun runAction_eq_actionResult f) x) c

theorem runAction_held {x : EccDev} {c : Cmd} (f : Fuses) (h : 0 < fiDiff (cmdTarget c) x.2.fi) : runAction f x c = x :=
  runAction_of_due (if_pos h)

theorem runAction_refused {x : EccDev} {c : Cmd} (f : Fuses) (h : (x.2.get Reg.TIM_HG_CTRL_GRACE : Int) < -fiDiff (cmdTarget c) x.2.fi) :
    runAction f x c = (x.1, (x.2.setHeldActions (x.2.tm.held.erase c)).refuseAction c 2) :=
  runAction_of_due ((if_neg (by omega)).trans (if_neg (Int.not_le.2 h)))

theorem runAction_executed {x : EccDev} {c : Cmd} (f : Fuses) (hdue : fiDiff (cmdTarget c) x.2.fi ≤ 0)
    (hgrace : -fiDiff (cmdTarget c) x.2.fi ≤ (x.2.get Reg.TIM_HG_CTRL_GRACE : Int)) :
    (let late := (-fiDiff (cmdTarget c) x.2.fi).toNat
     let d := x.2.setHeldActions (x.2.tm.held.erase c)
     let y := runCmd f Dev.settle c late (x.1, if late = 0 then d else d.addWrap Reg.TIM_HG_STATS_LATE_EXEC 1)
     runAction f x c = (y.1, y.2.settle)) :=
  runAction_of_due ((if_neg (Int.not_lt.2 hdue)).trans (if_pos hgrace))

/-! ### Writes that take effect (R25, step 5) -/

theorem fieldsAt_servoKp : fieldsAt 0x1018 = [Reg.TIM_SERVO_KP_KP] := by decide +kernel

/-- A write of TIM_SERVO_KP takes effect by putting its field into force. -/
theorem applyReg_servoKp (d : Dev) (w : Nat) : d.applyReg 0x1018 w = d.setBoth Reg.TIM_SERVO_KP_KP (bits w 0 16) := by
  have hforce : d.forceFields (fieldsAt 0x1018) w = d.setBoth Reg.TIM_SERVO_KP_KP (bits w 0 16) := by rw [fieldsAt_servoKp]; rfl
  rw [← hforce]
  rfl

/-- Of two waiting writes of TIM_SERVO_KP the later stands. -/
theorem stepFive_servoKp (f : Fuses) (ecc : List (Nat × Nat)) (a b : Source) (v w : Word) (d : Dev) :
    (let x := stepFive f (ecc, { d with queue := [.reg a 0x1018 v, .reg b 0x1018 w] })
     x.2.eff Reg.TIM_SERVO_KP_KP = w.toNat % 65536 ∧ x.2.queue = [] ∧ x.1 = ecc ∧ x.2 = { d with queue := [], regs := x.2.regs, force := x.2.force }
     ∧ RegsKeepAll [Reg.TIM_SERVO_KP_KP.key] d x.2) := by
  have hfive : stepFive f (ecc, { d with queue := [.reg a 0x1018 v, .reg b 0x1018 w] })
      = (ecc, (Dev.setBoth { d with queue := [] } Reg.TIM_SERVO_KP_KP (bits v.toNat 0 16)).setBoth Reg.TIM_SERVO_KP_KP (bits w.toNat 0 16)) := by
    rw [← applyReg_servoKp, ← applyReg_servoKp]
    rfl
  dsimp only
  rw [hfive]
  refine ⟨?_, rfl, rfl, rfl, fun g hg => ?_⟩
  · exact (getT_putT_same _ _ _ _).trans (by simp [bits, Reg.TIM_SERVO_KP_KP])
  · have hne : g.key ≠ Reg.TIM_SERVO_KP_KP.key := by simpa using hg
    exact (Dev.get_set_ne _ hne _).trans (Dev.get_set_ne _ hne _)

/-! ### The boundary as a whole (R25, R23) -/

theorem fullService_execN (d : Dev) : d.fullService.mg.execN = d.mg.execN := by
  unfold Dev.fullService
  dsimp only
  split
  · rfl
  · split <;> simp [Dev.bootEvent]

theorem firstEvents_execN (d : Dev) : d.firstEvents.mg.execN = d.mg.execN := by
  unfold Dev.firstEvents
  dsimp only
  split
  · rfl
  · split <;> split <;> simp [Dev.bootEvent]

/-- A device that is not running has no boundaries. -/
theorem exec_frameBoundary_down {s : State} (h : s.dev.up = false) (inp : FrameInput) : exec (.frameBoundary inp) s = .next s := by
  show onEcc (frameBoundary s.fuses inp) s = _
  simp only [onEcc, frameBoundary, h, Bool.not_false, if_true]

/-- Settles O60: the boundary is its parts in R25's order, and each part does what its rule says. -/
theorem frameBoundaries : Obligations.FrameBoundaries := by
  refine ⟨fun inp s h => exec_frameBoundary_down h inp, fun inp s h => ?_, fun _ _ _ => rfl,
    fun d u hs h0 h1 => openFrame_next d u hs rfl h0 h1, frameCycles_spec, fun f _ _ h => runAction_held f h,
    fun f _ _ h => runAction_refused f h, fun f _ _ h h' => runAction_executed f h h', fun f x h => by simp only [stepFour, h, if_true],
    fun f x h => by simp only [stepFour, h, Bool.false_eq_true, if_false], stepFive_servoKp, startPower_at_most_four⟩
  refine ⟨_, ?_, rfl, ?_⟩
  · show onEcc (frameBoundary s.fuses inp) s = _
    simp only [onEcc, frameBoundary, h, Bool.not_true, Bool.false_eq_true, if_false]
  · rw [firstEvents_execN, fullService_execN]

end Sys2Proof.Machine
end

section
/-! PROOF. The states of the two domains, of the asymmetry watch and of the clock; O8 and O9 from them. -/
namespace Sys2Proof.Machine
open Sys2Proof.Safety

/-! ### One domain's state -/

theorem domStateFld_key_ne {j k : Nat} (hj : j < 2) (hk : k < 2) (h : j ≠ k) : (domStateFld j).key ≠ (domStateFld k).key := by
  rcases (show j = 0 ∧ k = 1 ∨ j = 1 ∧ k = 0 by omega) with ⟨rfl, rfl⟩ | ⟨rfl, rfl⟩ <;> decide

/-- A domain's state stays where its field is none of those that may change. -/
theorem domState_of_regsKeep {ks : List Nat} {d e : Dev} (h : RegsKeep ks d e) {j : Nat} (hj : (domStateFld j).key ∉ ks) :
    e.domState j = d.domState j :=
  h _ hj (domStateFld_notTalk j)

/-- What talks after a change of the time path's data leaves those data as changed. -/
theorem eq_talked_of_talks {d e t : Dev} {x : Tm} (he : e = { talked d e with tm := x }) (ht : t = talked e t) :
    t = { talked d t with tm := x } := by
  rw [ht, he]; rfl

/-- Two changes that each leave all but the domains alone. -/
theorem eq_talked_doms_trans {d e t : Dev} (h : e = { talked d e with tm := { d.tm with doms := e.tm.doms } })
    (h' : t = { talked e t with tm := { e.tm with doms := t.tm.doms } }) :
    t = { talked d t with tm := { d.tm with doms := t.tm.doms } } := by
  rw [h', h]; rfl

/-- A domain that enters neither WAIT nor LOST, or stays where it is, leaves the edges of PPS_IN alone. -/
theorem setDomState_of_no_restart (d : Dev) {k st : Nat} (hk : k < 2) (hst : st < 8) (hn : ¬ (st = 1 ∨ st = 4)) :
    (d.setDomState k st).domState k = st ∧ RegsKeep [(domStateFld k).key] d (d.setDomState k st)
    ∧ d.setDomState k st = { talked d (d.setDomState k st) with tm := { d.tm with doms := (d.setDomState k st).tm.doms } } := by
  by_cases hsame : d.domState k = st
  · have hid : d.setDomState k st = d := if_pos hsame
    rw [hid]
    exact ⟨hsame, regsKeep_refl _ _, rfl⟩
  · obtain ⟨hstate, hregs, -, hdev⟩ := setDomState_spec d k st hk hst hsame
    rw [if_neg fun h => hn h.2] at hdev
    exact ⟨hstate, hregs, hdev⟩

/-- DOMAIN_QUALIFIED (R60). -/
theorem exec_domainQualified {k : Nat} {s : State} (hk : k < 2) (hup : s.dev.up = true) (hst : s.dev.domState k = 2)
    (hrun : (if s.dev.isSource k then 4 else 16) ≤ (s.dev.dom k).goodRun) :
    exec (.domainQualified k) s = .next { s with dev := s.dev.setDomState k 3 } := by
  have hdo : s.dev.domainQualified k = s.dev.setDomState k 3 := by
    simp only [Dev.domainQualified, hup, hst, hrun, whenD, beq_self_eq_true, decide_true, Bool.and_self, if_true]
  rw [← hdo]
  exact onUnit_of_lt hk _ s

/-- DOMAIN_LOST (R60). -/
theorem exec_domainLost {k : Nat} {s : State} (hk : k < 2) (hup : s.dev.up = true) (hst : s.dev.domState k = 2 ∨ s.dev.domState k = 3)
    (hidle : s.dev.lostAfter k ≤ (s.dev.dom k).idle) :
    exec (.domainLost k) s = .next { s with dev := (s.dev.setDomState k 4).bothDomains } := by
  have hdo : s.dev.domainLost k = (s.dev.setDomState k 4).bothDomains := by
    have hin : (s.dev.domState k == 2 || s.dev.domState k == 3) = true := by simpa using hst
    simp only [Dev.domainLost, hup, hin, hidle, whenD, decide_true, Bool.and_self, if_true]
  rw [← hdo]
  exact onUnit_of_lt hk _ s

theorem domainQualified_spec {k : Nat} {s : State} (hk : k < 2) (hup : s.dev.up = true) (hst : s.dev.domState k = 2)
    (hrun : (if s.dev.isSource k then 4 else 16) ≤ (s.dev.dom k).goodRun) :
    Answers (.domainQualified k) s fun t =>
      t.dev.domState k = 3 ∧ t.dev.dom k = { s.dev.dom k with goodRun := 0 } ∧ t.dev.dom (1 - k) = s.dev.dom (1 - k)
      ∧ t = { s with dev := { talked s.dev t.dev with tm := { s.dev.tm with doms := t.dev.tm.doms } } }
      ∧ RegsKeep [(domStateFld k).key] s.dev t.dev := by
  obtain ⟨hstate, hregs, hdom, -⟩ := setDomState_spec s.dev k 3 hk (by decide) (by omega)
  obtain ⟨-, -, hdev⟩ := setDomState_of_no_restart s.dev (st := 3) hk (by decide) (by decide)
  exact ⟨_, exec_domainQualified hk hup hst hrun, hstate, (hdom k).trans (if_pos rfl), (hdom (1 - k)).trans (if_neg (by omega)),
    congrArg (fun d : Dev => { s with dev := d }) hdev, hregs⟩

/-- A domain is lost: its own state, the breach where the other is out too, and a source's edges from the start. -/
theorem domainLost_spec {k : Nat} {s : State} (hk : k < 2) (hup : s.dev.up = true) (hst : s.dev.domState k = 2 ∨ s.dev.domState k = 3)
    (hidle : s.dev.lostAfter k ≤ (s.dev.dom k).idle) :
    Answers (.domainLost k) s fun t =>
      t.dev.domState k = 4 ∧ t.dev.domState (1 - k) = s.dev.domState (1 - k)
      ∧ ((s.dev.domState (1 - k) = 4 ∨ s.dev.domState (1 - k) = 5) → t.dev.flag Reg.FLT_STATUS_BOTH_DOMAINS = true)
      ∧ (s.dev.isSource k = true → t.dev.tm.pps.lastFn = none)
      ∧ t = { s with dev := { talked s.dev t.dev with
                tm := { s.dev.tm with doms := t.dev.tm.doms, pps := { s.dev.tm.pps with lastFn := t.dev.tm.pps.lastFn } } } }
      ∧ RegsKeep [(domStateFld k).key, Reg.FLT_STATUS_BOTH_DOMAINS.key, Reg.FLT_STATUS_BEYOND_MODEL.key] s.dev t.dev := by
  refine ⟨_, exec_domainLost hk hup hst hidle, ?_⟩
  obtain ⟨hstate, hregs, -, hdev⟩ := setDomState_spec s.dev k 4 hk (by decide) (by omega)
  obtain ⟨hflag, hboth, htalk⟩ := bothDomains_spec (s.dev.setDomState k 4)
  generalize s.dev.setDomState k 4 = e at hstate hregs hdev hflag hboth htalk ⊢
  have hlost := eq_talked_of_talks hdev htalk
  have hdoms : e.bothDomains.tm.doms = e.tm.doms := (congrArg (·.tm.doms) hlost).trans rfl
  have hedge : e.bothDomains.tm.pps.lastFn = if s.dev.isSource k = true ∧ (4 = 1 ∨ 4 = 4) then none else s.dev.tm.pps.lastFn :=
    (congrArg (·.tm.pps.lastFn) hlost).trans rfl
  have hother : e.domState (1 - k) = s.dev.domState (1 - k) :=
    domState_of_regsKeep hregs (by simpa using domStateFld_key_ne (by omega) hk (by omega))
  have hkeep (j : Nat) : e.bothDomains.domState j = e.domState j :=
    domState_of_regsKeep hboth (by unfold domStateFld; split <;> decide)
  refine ⟨(hkeep k).trans hstate, (hkeep _).trans hother, fun hout => ?_, fun hsrc => ?_, ?_,
    regsKeep_trans (regsKeep_mono hregs (by simp)) (regsKeep_mono hboth (by simp))⟩
  · have hin (j : Nat) (hj : j < 2) : e.domState j = 4 ∨ e.domState j = 5 := by
      rcases (show j = k ∨ j = 1 - k by omega) with rfl | rfl
      · exact .inl hstate
      · rw [hother]; exact hout
    exact hflag (hin 0 (by decide)) (hin 1 (by decide))
  · exact hedge.trans (if_pos ⟨hsrc, .inr rfl⟩)
  · rw [hdoms, hedge]
    exact congrArg (fun d : Dev => { s with dev := d }) hlost

/-! ### The clock's state (R50, R51, R53) -/

/-- A change of the clock's state: its register, and an event. -/
theorem setClkState_spec (d : Dev) {st : Nat} (hst : st < 8) (hne : d.clkState ≠ st) :
    (d.setClkState st).clkState = st ∧ (d.setClkState st).tm = d.tm ∧ d.setClkState st = talked d (d.setClkState st)
    ∧ RegsKeep [Reg.TIM_STATUS_CLK_STATE.key] d (d.setClkState st) := by
  have hdo : d.setClkState st = (d.set Reg.TIM_STATUS_CLK_STATE st).timeEvent 1 [] := if_neg hne
  obtain ⟨htalk, hregs⟩ := raiseOpen_talks (d.set Reg.TIM_STATUS_CLK_STATE st) 1 1 []
  have hclk := hregs Reg.TIM_STATUS_CLK_STATE (by simp) (notTalk (by decide) (by decide))
  rw [hdo, Dev.timeEvent]
  refine ⟨hclk.trans ((Dev.get_set_same _ _ _).trans (Nat.mod_eq_of_lt hst)), Dev.raise_tm _ _ _ _, ?_,
    regsKeep_trans (regsKeep_set d _ _) (regsKeep_mono hregs (by simp))⟩
  exact htalk.trans rfl

theorem switchDomain_of_no_target {d : Dev} (hpend : d.tm.swPend = none) (hsel : d.domState d.selected ≠ 4) : d.switchDomain = d := by
  have htarget : d.switchTarget = none := by simp [Dev.switchTarget, hpend, hsel]
  simp only [Dev.switchDomain, htarget]
  rw [← hpend]

/-- Nothing puts the clock in HOLDOVER (R62): no request, no watch on the selected domain, and the reference is there. -/
def Dev.FreeOfHold (d : Dev) : Prop :=
  d.flag Reg.TIM_CTRL_HOLD_REQ = false ∧ (∀ w, d.tm.watch = some w → w.held = false) ∧ d.pins.refPresent = true

/-- A COARSE clock on a QUALIFIED domain stays COARSE where nothing holds it. -/
theorem holdoverRules_of_coarse {d : Dev} (hclk : d.clkState = 2) (hsel : d.domState d.selected = 3) (hfree : d.FreeOfHold) :
    d.holdoverRules = d := by
  obtain ⟨hreq, hwatch, href⟩ := hfree
  cases hw : d.tm.watch with
  | none => simp [Dev.holdoverRules, hclk, hsel, hreq, href, hw]
  | some w => simp [Dev.holdoverRules, hclk, hsel, hreq, href, hw, hwatch w hw]

/-- The boundary after CLOCK_LOCKED: LOCKED where the run of updates is complete, COARSE otherwise (R53). -/
theorem clockStates_of_coarse {d : Dev} (hclk : d.clkState = 2) (hsel : d.domState d.selected = 3) (href : (d.dom d.selected).refined = true)
    (hlock : d.tm.lockPend = true) (hpend : d.tm.swPend = none) (hfree : d.FreeOfHold) :
    d.clockStates = if 16 ≤ d.tm.lockRun then Dev.setClkState { d with tm := { d.tm with lockPend := false } } 3
      else { d with tm := { d.tm with lockPend := false } } := by
  have hnow : d.locksNow = decide (16 ≤ d.tm.lockRun) := by simp [Dev.locksNow, hclk, hsel, href, hlock]
  have hswitch : Dev.switchDomain { d with tm := { d.tm with lockPend := false } } = { d with tm := { d.tm with lockPend := false } } :=
    switchDomain_of_no_target hpend (by change d.domState d.selected ≠ 4; omega)
  have hhold : Dev.holdoverRules { d with tm := { d.tm with lockPend := false } } = { d with tm := { d.tm with lockPend := false } } :=
    holdoverRules_of_coarse hclk hsel hfree
  have hclk' : Dev.clkState { d with tm := { d.tm with lockPend := false } } = 2 := hclk
  simp only [Dev.clockStates, hnow, hswitch, hhold, hclk', beq_self_eq_true, Bool.and_true, decide_eq_true_eq]

/-- COARSE_STEP in UNTIMED and FREE takes the preferred domain, else the other, where it is TRACKING or better (R51). -/
theorem coarseStep_eq {d : Dev} (hup : d.up = true) (hclk : d.clkState = 0 ∨ d.clkState = 1) :
    d.coarseStep
      = if d.domState (d.get Reg.TIM_CTRL_PREFER) = 2 ∨ d.domState (d.get Reg.TIM_CTRL_PREFER) = 3 then
          { d with tm := { d.tm with stepPend := some (d.get Reg.TIM_CTRL_PREFER) } }
        else if d.domState (1 - d.get Reg.TIM_CTRL_PREFER) = 2 ∨ d.domState (1 - d.get Reg.TIM_CTRL_PREFER) = 3 then
          { d with tm := { d.tm with stepPend := some (1 - d.get Reg.TIM_CTRL_PREFER) } }
        else d := by
  have hin : (d.clkState == 0 || d.clkState == 1) = true := by simpa using hclk
  simp only [Dev.coarseStep, hup, hin, Bool.and_self, if_true, Bool.or_eq_true, beq_iff_eq]

theorem coarseStep_of_timed {d : Dev} (hclk : 1 < d.clkState) : d.coarseStep = d := by
  have hout : (d.clkState == 0 || d.clkState == 1) = false := by simp; omega
  simp only [Dev.coarseStep, hout, Bool.and_false, Bool.false_eq_true, if_false]

/-- Settles O8: each row is one change of a domain's or the clock's state, guarded by the condition of its rule. -/
theorem domainAndClockStates : Obligations.DomainAndClockStates := by
  refine ⟨fun k s => domainQualified_spec, fun k s => domainLost_spec, fun s hup hclk => ?_,
    fun d hclk _ hsel href hlock hpend hreq hwatch hpins => ?_, fun p s hup hp hclk => ?_, fun s hclk => ?_⟩
  · show onDev Dev.clockLocked s = _
    simp only [onDev, Dev.clockLocked, hup, hclk, beq_self_eq_true, Bool.and_self, whenD_true]
  · have hnext := clockStates_of_coarse hclk hsel href hlock hpend ⟨hreq, hwatch, hpins⟩
    refine ⟨fun hrun => ?_, fun hrun => hnext.trans (if_neg (by omega))⟩
    rw [if_pos hrun] at hnext
    obtain ⟨hclk', htm, hdev, hregs⟩ := setClkState_spec { d with tm := { d.tm with lockPend := false } } (st := 3) (by decide)
      (by change d.clkState ≠ 3; omega)
    rw [← hnext] at hclk' htm hdev hregs
    refine ⟨hclk', htm, hdev.trans ?_, hregs⟩
    rw [htm]; rfl
  · subst hp
    have hstep : exec .coarseStep s = .next { s with dev := s.dev.coarseStep } := rfl
    rw [coarseStep_eq hup hclk] at hstep
    refine ⟨fun hin => ?_, fun hout hin => ?_⟩
    · rw [hstep, if_pos hin]
    · rw [hstep, if_neg hout, if_pos hin]
  · show onDev Dev.coarseStep s = _
    rw [onDev, coarseStep_of_timed hclk]

/-! ### The asymmetry watch (R64) -/

/-- A watch that ends with X under suspicion. -/
theorem suspectX_spec (d : Dev) {w : Watch} (hx : w.x < 2) :
    (d.suspectX w).domState w.x = 5 ∧ (d.suspectX w).flag Reg.TIM_STATUS_ASYM_WATCH = false
    ∧ d.suspectX w = { talked d (d.suspectX w) with tm := { d.tm with watch := none, doms := (d.suspectX w).tm.doms } }
    ∧ RegsKeep [(domStateFld w.x).key, Reg.TIM_STATUS_ASYM_WATCH.key, Reg.FLT_STATUS_BOTH_DOMAINS.key,
        Reg.FLT_STATUS_BEYOND_MODEL.key] d (d.suspectX w) := by
  have hends : RegsKeep [Reg.TIM_STATUS_ASYM_WATCH.key] d (d.setWatch none) := regsKeep_set { d with tm := { d.tm with watch := none } } _ _
  obtain ⟨hstate, hregs, hdev⟩ := setDomState_of_no_restart (d.setWatch none) (st := 5) hx (by decide) (by decide)
  obtain ⟨-, hboth, htalk⟩ := bothDomains_spec ((d.setWatch none).setDomState w.x 5)
  obtain ⟨htold, hevent⟩ := raiseOpen_talks ((d.setWatch none).setDomState w.x 5).bothDomains 1 5 []
  have hdo : d.suspectX w = ((d.setWatch none).setDomState w.x 5).bothDomains.raiseOpen 1 5 [] := rfl
  rw [← hdo] at htold hevent
  generalize ((d.setWatch none).setDomState w.x 5).bothDomains = b at hboth htalk htold hevent
  generalize (d.setWatch none).setDomState w.x 5 = e at hstate hregs hdev hboth htalk
  have hlate : RegsKeep [Reg.FLT_STATUS_BOTH_DOMAINS.key, Reg.FLT_STATUS_BEYOND_MODEL.key] e (d.suspectX w) :=
    regsKeep_trans hboth (regsKeep_mono hevent (by simp))
  have hstays : (d.suspectX w).flag Reg.TIM_STATUS_ASYM_WATCH = e.flag Reg.TIM_STATUS_ASYM_WATCH :=
    congrArg (· != 0) (hlate _ (by decide) (notTalk (by decide) (by decide)))
  have hended : e.flag Reg.TIM_STATUS_ASYM_WATCH = (d.setWatch none).flag Reg.TIM_STATUS_ASYM_WATCH :=
    congrArg (· != 0) (hregs _ (by simpa using domStateFld_ne (by decide) (by decide)) (notTalk (by decide) (by decide)))
  refine ⟨(domState_of_regsKeep hlate ?_).trans hstate, hstays.trans (hended.trans ?_), ?_,
    regsKeep_trans (regsKeep_mono hends (by simp)) (regsKeep_trans (regsKeep_mono hregs (by simp)) (regsKeep_mono hlate (by simp)))⟩
  · unfold domStateFld; split <;> decide
  · simp [Dev.flag, Dev.setWatch, b2n]
  · have hdone := eq_talked_of_talks (eq_talked_of_talks hdev htalk) htold
    have hdoms : (d.suspectX w).tm.doms = e.tm.doms := (congrArg (·.tm.doms) hdone).trans rfl
    rw [hdoms]
    exact hdone

/-- ASYM_WATCH_CONFIRM: X is SUSPECT, and the next boundary leaves it where it may. -/
theorem asymConfirm_eq {d : Dev} {w : Watch} (hw : d.tm.watch = some w) (hx : w.x < 2) (hup : d.up = true) (hrun : 64 ≤ w.yRun) :
    d.asymConfirm
      = if d.selected = w.x ∧ d.flag Reg.TIM_CTRL_AUTO_SWITCH = true then
          { d.suspectX w with tm := { (d.suspectX w).tm with swPend := some (1 - w.x) } }
        else d.suspectX w := by
  obtain ⟨-, -, -, hregs⟩ := suspectX_spec d hx
  have hsel : (d.suspectX w).selected = d.selected := hregs Reg.TIM_STATUS_SELECTED
    (by simpa using ⟨domStateFld_ne (by decide) (by decide), by decide, by decide, by decide⟩) (notTalk (by decide) (by decide))
  have hauto : (d.suspectX w).flag Reg.TIM_CTRL_AUTO_SWITCH = d.flag Reg.TIM_CTRL_AUTO_SWITCH := congrArg (· != 0) (hregs _
    (by simpa using ⟨domStateFld_ne (by decide) (by decide), by decide, by decide, by decide⟩) (notTalk (by decide) (by decide)))
  simp only [Dev.asymConfirm, hw, hup, hrun, decide_true, Bool.and_self, if_true, hsel, hauto]

/-- ASYM_WATCH_EXPIRY: X is SUSPECT. -/
theorem asymExpiry_eq {d : Dev} {w : Watch} (hw : d.tm.watch = some w) (hup : d.up = true) (hrun : w.yRun < 64)
    (hpast : w.fn + d.window < d.fn) : d.asymExpiry = d.suspectX w := by
  simp only [Dev.asymExpiry, hw, hup, hrun, hpast, decide_true, Bool.and_self, if_true]

/-- A change of the time path's data that comes after what `talked` allows. -/
theorem withTm_eq_talked {d e : Dev} {x : Tm} (he : e = { talked d e with tm := x }) (y : Tm) :
    ({ e with tm := y } : Dev) = { talked d e with tm := y } := by
  rw [he]; rfl

theorem asymWatchConfirm_spec {w : Watch} {s : State} (hw : s.dev.tm.watch = some w) (hx : w.x < 2) (hup : s.dev.up = true)
    (hrun : 64 ≤ w.yRun) :
    Answers .asymWatchConfirm s fun t =>
      t.dev.domState w.x = 5 ∧ t.dev.domState (1 - w.x) = s.dev.domState (1 - w.x)
      ∧ t.dev.tm.watch = none ∧ t.dev.flag Reg.TIM_STATUS_ASYM_WATCH = false
      ∧ (s.dev.selected = w.x → s.dev.flag Reg.TIM_CTRL_AUTO_SWITCH = true → t.dev.tm.swPend = some (1 - w.x))
      ∧ (¬ (s.dev.selected = w.x ∧ s.dev.flag Reg.TIM_CTRL_AUTO_SWITCH = true) → t.dev.tm.swPend = s.dev.tm.swPend)
      ∧ t = { s with dev := { talked s.dev t.dev with
                tm := { s.dev.tm with watch := none, doms := t.dev.tm.doms, swPend := t.dev.tm.swPend } } }
      ∧ RegsKeep [(domStateFld w.x).key, Reg.TIM_STATUS_ASYM_WATCH.key, Reg.FLT_STATUS_BOTH_DOMAINS.key,
          Reg.FLT_STATUS_BEYOND_MODEL.key] s.dev t.dev := by
  obtain ⟨hstate, hwatch, hdev, hregs⟩ := suspectX_spec s.dev hx
  have hexec : exec .asymWatchConfirm s = .next { s with dev := s.dev.asymConfirm } := rfl
  rw [asymConfirm_eq hw hx hup hrun] at hexec
  have hother : (s.dev.suspectX w).domState (1 - w.x) = s.dev.domState (1 - w.x) := by
    refine domState_of_regsKeep hregs ?_
    simpa using ⟨domStateFld_key_ne (by omega) hx (by omega), by unfold domStateFld; split <;> decide⟩
  have htm : (s.dev.suspectX w).tm = { s.dev.tm with watch := none, doms := (s.dev.suspectX w).tm.doms } :=
    (congrArg Dev.tm hdev).trans rfl
  generalize s.dev.suspectX w = e at hstate hwatch hdev hregs hexec hother htm
  refine ⟨_, hexec, ?_⟩
  split
  next hswitch =>
    refine ⟨hstate, hother, (congrArg Tm.watch htm).trans rfl, hwatch, fun _ _ => rfl, fun h => absurd hswitch h, ?_, hregs⟩
    refine congrArg (fun d : Dev => { s with dev := d }) ((withTm_eq_talked hdev _).trans ?_)
    dsimp only
    rw [htm]
    rfl
  next hstay =>
    have hpend : e.tm.swPend = s.dev.tm.swPend := (congrArg Tm.swPend htm).trans rfl
    refine ⟨hstate, hother, (congrArg Tm.watch htm).trans rfl, hwatch, fun h h' => absurd ⟨h, h'⟩ hstay, fun _ => hpend, ?_, hregs⟩
    rw [hpend]
    exact congrArg (fun d : Dev => { s with dev := d }) hdev

theorem asymWatchExpiry_spec {w : Watch} {s : State} (hw : s.dev.tm.watch = some w) (hx : w.x < 2) (hup : s.dev.up = true)
    (hrun : w.yRun < 64) (hpast : w.fn + s.dev.window < s.dev.fn) :
    Answers .asymWatchExpiry s fun t =>
      t.dev.domState w.x = 5 ∧ t.dev.tm.watch = none ∧ t.dev.flag Reg.TIM_STATUS_ASYM_WATCH = false
      ∧ t = { s with dev := { talked s.dev t.dev with tm := { s.dev.tm with watch := none, doms := t.dev.tm.doms } } }
      ∧ RegsKeep [(domStateFld w.x).key, Reg.TIM_STATUS_ASYM_WATCH.key, Reg.FLT_STATUS_BOTH_DOMAINS.key,
          Reg.FLT_STATUS_BEYOND_MODEL.key] s.dev t.dev := by
  obtain ⟨hstate, hwatch, hdev, hregs⟩ := suspectX_spec s.dev hx
  have hexec : exec .asymWatchExpiry s = .next { s with dev := s.dev.asymExpiry } := rfl
  rw [asymExpiry_eq hw hup hrun hpast] at hexec
  exact ⟨_, hexec, hstate, (congrArg (·.tm.watch) hdev).trans rfl, hwatch, congrArg (fun d : Dev => { s with dev := d }) hdev, hregs⟩

/-- What CLEAR_SUSPECT does for one domain: from SUSPECT to TRACKING if it is named. -/
def Dev.clearOne (d : Dev) (k : Nat) (c : Bool) : Dev := if c && d.domState k == 5 then d.setDomState k 2 else d

theorem clearSuspect_eq (d : Dev) (a b : Bool) : d.clearSuspect a b = (d.clearOne 0 a).clearOne 1 b := rfl

theorem clearOne_spec (d : Dev) {k : Nat} (hk : k < 2) (c : Bool) :
    (d.clearOne k c).domState k = (if c = true ∧ d.domState k = 5 then 2 else d.domState k)
    ∧ RegsKeep [(domStateFld k).key] d (d.clearOne k c)
    ∧ d.clearOne k c = { talked d (d.clearOne k c) with tm := { d.tm with doms := (d.clearOne k c).tm.doms } } := by
  by_cases hc : c = true ∧ d.domState k = 5
  · have hdo : d.clearOne k c = d.setDomState k 2 := if_pos (by simpa using hc)
    rw [hdo, if_pos hc]
    exact setDomState_of_no_restart d hk (by decide) (by decide)
  · have hdo : d.clearOne k c = d := if_neg (by simpa using hc)
    rw [hdo, if_neg hc]
    exact ⟨rfl, regsKeep_refl _ _, rfl⟩

theorem clearSuspect_spec {src : Source} {s : State} (hp : Passes s.dev src 0x1050) (a b : Bool) :
    Answers (.clearSuspect src a b) s fun t =>
      t.dev.domState 0 = (if a = true ∧ s.dev.domState 0 = 5 then 2 else s.dev.domState 0)
      ∧ t.dev.domState 1 = (if b = true ∧ s.dev.domState 1 = 5 then 2 else s.dev.domState 1)
      ∧ t = { s with dev := { talked s.dev t.dev with tm := { s.dev.tm with doms := t.dev.tm.doms } } }
      ∧ RegsKeep [(domStateFld 0).key, (domStateFld 1).key] s.dev t.dev := by
  have hexec : exec (.clearSuspect src a b) s = .next { s with dev := s.dev.clearSuspect a b } := by
    show onDev (fun d => d.gated src 0x1050 fun d => d.clearSuspect a b) s = _
    rw [onDev, gated_of_passes hp]
  rw [clearSuspect_eq] at hexec
  obtain ⟨hzero, hregs, hdev⟩ := clearOne_spec s.dev (k := 0) (by decide) a
  generalize s.dev.clearOne 0 a = e at hexec hzero hregs hdev
  obtain ⟨hone, hregs', hdev'⟩ := clearOne_spec e (k := 1) (by decide) b
  have hkeep : e.domState 1 = s.dev.domState 1 := domState_of_regsKeep hregs (by decide)
  exact ⟨_, hexec, (domState_of_regsKeep hregs' (by decide)).trans hzero, by rw [hone, hkeep],
    congrArg (fun d : Dev => { s with dev := d }) (eq_talked_doms_trans hdev hdev'),
    regsKeep_trans (regsKeep_mono hregs (by simp)) (regsKeep_mono hregs' (by simp))⟩

/-- Settles O9: both verdicts make X SUSPECT by one change of state, and CLEAR_SUSPECT is such a change for each domain it names. -/
theorem asymmetryWatchVerdicts : Obligations.AsymmetryWatchVerdicts :=
  ⟨fun _ _ => asymWatchConfirm_spec, fun _ _ => asymWatchExpiry_spec, fun _ a b _ hp => clearSuspect_spec hp a b⟩

end Sys2Proof.Machine
end

section
/-! PROOF. Several fields set at once; the messages of TOD_IN, the transmit time stamps and the instant latched for software; O12 and O13 from
them. -/
namespace Sys2Proof.Machine
open Sys2Proof.Safety

/-! ### Several fields set, one after another -/

def Dev.setAll (d : Dev) (l : List (Fld × Nat)) : Dev := l.foldl (fun d p => d.set p.1 p.2) d

theorem setAll_cons (d : Dev) (p : Fld × Nat) (l : List (Fld × Nat)) : d.setAll (p :: l) = (d.set p.1 p.2).setAll l := rfl

/-- Fields set change nothing but the register store. -/
theorem setAll_regs (d : Dev) (l : List (Fld × Nat)) : d.setAll l = { d with regs := (d.setAll l).regs } := by
  induction l generalizing d with
  | nil => rfl
  | cons p l ih => rw [setAll_cons, ih]; rfl

theorem get_setAll_ne {d : Dev} {l : List (Fld × Nat)} {g : Fld} (h : ∀ p ∈ l, g.key ≠ p.1.key) : (d.setAll l).get g = d.get g := by
  induction l generalizing d with
  | nil => rfl
  | cons p l ih => rw [setAll_cons, ih fun q hq => h q (.tail _ hq), d.get_set_ne (h p (.head _))]

/-- Of fields that are not the same each reads what it was set to, cut to its width. -/
theorem get_setAll_of_mem {d : Dev} {l : List (Fld × Nat)} {fs : List Fld} {f : Fld} {v : Nat} (hfs : l.map Prod.fst = fs)
    (hd : fs.Pairwise fun a b => a.key ≠ b.key) (hf : (f, v) ∈ l) : (d.setAll l).get f = v % 2 ^ f.width := by
  subst hfs
  induction l generalizing d with
  | nil => cases hf
  | cons p l ih =>
    obtain ⟨hp, hd⟩ := List.pairwise_cons.1 hd
    rw [setAll_cons]
    rcases List.mem_cons.1 hf with rfl | hf
    · rw [get_setAll_ne fun q hq => hp _ (List.mem_map_of_mem hq), Dev.get_set_same]
    · exact ih hf hd

theorem regsKeepAll_setAll {d : Dev} {l : List (Fld × Nat)} {ks : List Nat} (hks : l.map (fun p => p.1.key) = ks) :
    RegsKeepAll ks d (d.setAll l) := by
  subst hks
  exact fun g hg => get_setAll_ne fun p hp e => hg (List.mem_map.2 ⟨p, hp, e.symm⟩)

/-! ### TOD_IN (R66, R67) -/

/-- The number in `n` bytes of a message from byte `i` on, the least significant first (R66). -/
def leBytes (b : List Nat) (i n : Nat) : Nat := ((rangeFrom i (i + n)).map fun j => nth b j * 256 ^ (j - i)).sum

theorem leBytes_zero (b : List Nat) (i : Nat) : leBytes b i 0 = 0 := by simp [leBytes, rangeFrom]

theorem leBytes_succ (b : List Nat) (i n : Nat) : leBytes b i (n + 1) = leBytes b i n + nth b (i + n) * 256 ^ n := by
  simp [leBytes, rangeFrom, List.range_succ, Nat.add_comm _ i]

theorem leBytes_two (b : List Nat) (i : Nat) : leBytes b i 2 = nth b i + 256 * nth b (i + 1) := by
  rw [leBytes_succ, leBytes_succ, leBytes_zero, Nat.add_zero i]; ring

theorem leBytes_four (b : List Nat) (i : Nat) :
    leBytes b i 4 = nth b i + 256 * nth b (i + 1) + 65536 * nth b (i + 2) + 16777216 * nth b (i + 3) := by
  rw [leBytes_succ, leBytes_succ, leBytes_two]; ring

theorem leBytes_six (b : List Nat) (i : Nat) :
    leBytes b i 6 = nth b i + 2 ^ 8 * nth b (i + 1) + 2 ^ 16 * nth b (i + 2) + 2 ^ 24 * nth b (i + 3) + 2 ^ 32 * nth b (i + 4)
      + 2 ^ 40 * nth b (i + 5) := by
  rw [leBytes_succ, leBytes_succ, leBytes_four]; ring

/-- A whole message of the right form: its two marks, and the CRC over the 12 bytes before it. -/
def todOk (n : List Nat) : Bool := nth n 0 == 0xC7 && nth n 1 == 0x01 && leBytes n 12 4 == crc32c (n.take 12)

/-- Less than 50 ms since the last accepted edge. -/
def Dev.todLate (d : Dev) : Bool :=
  match d.tm.pps.edgeFn with
  | some f => decide (d.fn < f + 50000)
  | none => false

/-- What a message says, and the frame in which it ended. -/
def Dev.todOf (d : Dev) (n : List Nat) : Tod :=
  { sec := leBytes n 2 6, flags := nth n 8, src := nth n 9, seq := leBytes n 10 2, fn := d.fn }

theorem todOk_iff (n : List Nat) :
    todOk n = true ↔ nth n 0 = 0xC7 ∧ nth n 1 = 0x01
      ∧ nth n 12 + 256 * nth n 13 + 65536 * nth n 14 + 16777216 * nth n 15 = crc32c (n.take 12) := by
  rw [todOk, leBytes_four, Bool.and_eq_true, Bool.and_eq_true, beq_iff_eq, beq_iff_eq, beq_iff_eq, and_assoc]

theorem todLate_iff (d : Dev) : d.todLate = true ↔ ∃ f, d.tm.pps.edgeFn = some f ∧ d.fn < f + 50000 := by
  unfold Dev.todLate
  cases d.tm.pps.edgeFn <;> simp

/-- A whole message waits for its edge, or counts as bad. -/
theorem todWhole_eq (d : Dev) (n : List Nat) :
    d.todWhole n
      = if todOk n && !d.todLate then { d with tm := { d.tm with pps := { d.tm.pps with msgs := d.tm.pps.msgs ++ [d.todOf n] } } }
        else d.addSat Reg.TIM_TOD_STATUS_BAD_MSG 1 := rfl

theorem todWhole_buf (d : Dev) (n : List Nat) : (d.todWhole n).tm.pps.buf = d.tm.pps.buf := by
  rw [todWhole_eq]; split <;> rfl

/-- An empty partial message dropped is nothing dropped. -/
theorem todGap_of_empty {d : Dev} (h : d.tm.pps.buf = []) : d.todGap = d := by
  unfold Dev.todGap; rw [← h]

/-- Bytes that do not complete a message join the partial one. -/
theorem todMessage_partial {d : Dev} {bytes : List Byte} (hup : d.up = true) (hen : d.flag Reg.TIM_SRC_CFG_TOD_EN = true)
    (hlen : d.tm.pps.buf.length + bytes.length < 16) :
    d.todMessage bytes = { d with tm := { d.tm with pps := { d.tm.pps with buf := d.tm.pps.buf ++ bytes.map BitVec.toNat } } } := by
  have hlen' : (d.tm.pps.buf ++ bytes.map BitVec.toNat).length < 16 := by simpa using hlen
  simp only [Dev.todMessage, hup, hen, Bool.and_self, if_true, Nat.div_eq_of_lt hlen', todBytes, if_pos hlen']

/-- Sixteen bytes from the start are one message. -/
theorem todMessage_whole {d : Dev} {bytes : List Byte} (hup : d.up = true) (hen : d.flag Reg.TIM_SRC_CFG_TOD_EN = true)
    (hbuf : d.tm.pps.buf = []) (hlen : bytes.length = 16) : d.todMessage bytes = d.todWhole (bytes.map BitVec.toNat) := by
  have hlen' : (bytes.map BitVec.toNat).length = 16 := by simpa using hlen
  have hgap := todGap_of_empty ((todWhole_buf d (bytes.map BitVec.toNat)).trans hbuf)
  simp only [Dev.todMessage, hup, hen, Bool.and_self, if_true, hbuf, List.nil_append, hlen', todBytes]
  rw [List.take_of_length_le hlen'.le, List.drop_of_length_le hlen'.le]
  exact hgap

theorem exec_todMessage (bytes : List Byte) (s : State) : exec (.todMessage bytes) s = .next { s with dev := s.dev.todMessage bytes } := rfl

/-- Settles O12: fewer than 16 bytes only gather, sixteen are one message, and a message waits or counts as its form and its time say. -/
theorem todMessages : Obligations.TodMessages := by
  refine ⟨fun bytes s hup hen hlen => ?_, fun b s hup hen hbuf hlen htime hform => ?_, fun b s hup hen hbuf hlen hbad => ?_, fun _ => rfl⟩
  · rw [exec_todMessage, todMessage_partial hup hen hlen]
  · have hok : (todOk (b.map BitVec.toNat) && !s.dev.todLate) = true := by
      rw [(todOk_iff _).2 hform, Bool.true_and, Bool.not_eq_true', ← Bool.not_eq_true, todLate_iff]
      rintro ⟨f, hf, hlt⟩
      exact absurd (htime f hf) (by omega)
    show exec (.todMessage b) s = _
    rw [exec_todMessage, todMessage_whole hup hen hbuf hlen, todWhole_eq, if_pos hok, Dev.todOf, leBytes_six, leBytes_two]
  · have hno : ¬ (todOk (b.map BitVec.toNat) && !s.dev.todLate) = true := by
      rw [Bool.and_eq_true, todOk_iff, Bool.not_eq_true', ← Bool.not_eq_true, todLate_iff]
      rintro ⟨⟨hsync, htype, hcrc⟩, htime⟩
      rcases hbad with h | h | h | h
      exacts [h hsync, h htype, h hcrc, htime h]
    refine ⟨_, exec_todMessage b s, ?_⟩
    rw [todMessage_whole hup hen hbuf hlen, todWhole_eq, if_neg hno]
    refine ⟨(Dev.get_set_same _ _ _).trans (Nat.mod_eq_of_lt ?_), rfl, regsKeepAll_set _ _ _⟩
    exact Nat.lt_of_le_of_lt (Nat.min_le_right _ _) (by decide)

/-! ### Transmit time stamps (R68, R90) -/

theorem exec_txqPop {src : Source} {s : State} (hp : Passes s.dev src 0x1090) : exec (.txqPop src) s = .next { s with dev := s.dev.txqPop } := by
  show onDev (fun d => d.gated src 0x1090 Dev.txqPop) s = _
  rw [onDev, gated_of_passes hp]

/-- What a POP sets for the entry `e` that leaves `q` behind. -/
def popped (e : TxqE) (q : List TxqE) : List (Fld × Nat) :=
  [(Reg.TIM_TXQ_CTRL_LEVEL, q.length), (Reg.TIM_TXQ_ENTRY_VALID, 1), (Reg.TIM_TXQ_ENTRY_ID, e.id), (Reg.TIM_TXQ_ENTRY_LANE, e.lane),
    (Reg.TIM_TXQ_FI_FI, e.fi), (Reg.TIM_TXQ_OFS_OFS, e.ofs)]

theorem txqPop_cons {d : Dev} {e : TxqE} {q : List TxqE} (h : d.tm.txq = e :: q) :
    d.txqPop = Dev.setAll { d with tm := { d.tm with txq := q } } (popped e q) := by
  simp only [Dev.txqPop, h]; rfl

theorem txqPop_empty {d : Dev} (h : d.tm.txq = []) : d.txqPop = d.setB Reg.TIM_TXQ_ENTRY_VALID false := by
  simp only [Dev.txqPop, h]

/-! ### The instant latched for software (R74) -/

/-- The parts of an instant as TIM_NOW shows them. -/
def nowParts (t : Int) : List (Fld × Nat) :=
  let fn := instFn t
  let rem := (t - frameUnits * fn).toNat
  [(Reg.TIM_NOW_SEC_LO_SEC_LO, fn / 1000000), (Reg.TIM_NOW_SEC_HI_SEC_HI, fn / 1000000 / 2 ^ 32), (Reg.TIM_NOW_SEC_HI_FRAC, rem % 65536),
    (Reg.TIM_NOW_NS_NS, fn % 1000000 * 1000 + rem / 65536), (Reg.TIM_NOW_FI_FI, fn)]

theorem captureNow_eq (d : Dev) (cyc : Nat) : d.captureNow cyc = d.setAll (nowParts (d.edge cyc)) := rfl

theorem exec_timNowCapture {s : State} (hup : s.dev.up = true) (cyc : Nat) :
    exec (.timNowCapture cyc) s = .next { s with dev := s.dev.setAll (nowParts (s.dev.edge cyc)) } := by
  show onDev (fun d => whenD d.up (fun d => d.captureNow cyc) d) s = _
  rw [onDev, hup, whenD_true, captureNow_eq]

/-- An instant that is not before the origin is its frame count and its place in the frame. -/
theorem instFn_add_rem {t : Int} (h : 0 ≤ t) :
    (instFn t : Int) = t / 65536000 ∧ ((t - frameUnits * instFn t).toNat : Int) = t % 65536000 := by
  have hfn : (instFn t : Int) = t / 65536000 := by
    rw [instFn, floorDiv, Int.fdiv_eq_ediv_of_nonneg _ (by decide), frameUnits]; omega
  refine ⟨hfn, ?_⟩
  rw [hfn, frameUnits]; omega

/-- The parts, each within its field, make up the instant again. -/
theorem instant_of_parts {t : Int} {fn rem : Nat} (hfn : (fn : Int) = t / 65536000) (hrem : (rem : Int) = t % 65536000)
    (h1 : t < 2 ^ 48 * 65536000000000) :
    ((fn / 1000000 % 2 ^ 32 + 2 ^ 32 * (fn / 1000000 / 2 ^ 32 % 2 ^ 16) : Nat) : Int) * 65536000000000
        + ((fn % 1000000 * 1000 + rem / 65536) % 2 ^ 30 : Nat) * 65536 + (rem % 65536 % 2 ^ 16 : Nat) = t
      ∧ (fn % 1000000 * 1000 + rem / 65536) % 2 ^ 30 < 1000000000 := by
  have hsec : fn / 1000000 % 2 ^ 32 + 2 ^ 32 * (fn / 1000000 / 2 ^ 32 % 2 ^ 16) = fn / 1000000 := by
    rw [Nat.mod_eq_of_lt (a := fn / 1000000 / 2 ^ 32) (by omega)]
    exact Nat.mod_add_div _ _
  have hns : fn % 1000000 * 1000 + rem / 65536 < 1000000000 := by omega
  rw [hsec, Nat.mod_eq_of_lt (a := fn % 1000000 * 1000 + rem / 65536) (by omega), Nat.mod_eq_of_lt (a := rem % 65536) (by omega)]
  omega

theorem timNow_spec {s : State} (hup : s.dev.up = true) (cyc : Nat) (h0 : 0 ≤ s.dev.edge cyc)
    (h1 : s.dev.edge cyc < 2 ^ 48 * 65536000000000) :
    Answers (.timNowCapture cyc) s fun t =>
      ((t.dev.get Reg.TIM_NOW_SEC_LO_SEC_LO + 2 ^ 32 * t.dev.get Reg.TIM_NOW_SEC_HI_SEC_HI : Nat) : Int) * 65536000000000
          + (t.dev.get Reg.TIM_NOW_NS_NS : Int) * 65536 + (t.dev.get Reg.TIM_NOW_SEC_HI_FRAC : Int) = s.dev.edge cyc
      ∧ t.dev.get Reg.TIM_NOW_NS_NS < 1000000000
      ∧ (t.dev.get Reg.TIM_NOW_FI_FI : Int) = s.dev.edge cyc / 65536000 % 2 ^ 32
      ∧ t = { s with dev := { s.dev with regs := t.dev.regs } }
      ∧ RegsKeepAll [Reg.TIM_NOW_SEC_LO_SEC_LO.key, Reg.TIM_NOW_SEC_HI_SEC_HI.key, Reg.TIM_NOW_NS_NS.key, Reg.TIM_NOW_SEC_HI_FRAC.key,
          Reg.TIM_NOW_FI_FI.key] s.dev t.dev := by
  refine ⟨_, exec_timNowCapture hup cyc, ?_⟩
  generalize s.dev.edge cyc = t at h0 h1 ⊢
  have reads {f : Fld} {v : Nat} (hf : (f, v) ∈ nowParts t) : (s.dev.setAll (nowParts t)).get f = v % 2 ^ f.width :=
    get_setAll_of_mem (fs := [Reg.TIM_NOW_SEC_LO_SEC_LO, Reg.TIM_NOW_SEC_HI_SEC_HI, Reg.TIM_NOW_SEC_HI_FRAC, Reg.TIM_NOW_NS_NS,
      Reg.TIM_NOW_FI_FI]) rfl (by decide) hf
  have hlo := reads (.head _)
  have hhi := reads (.tail _ (.head _))
  have hfrac := reads (.tail _ (.tail _ (.head _)))
  have hns := reads (.tail _ (.tail _ (.tail _ (.head _))))
  have hfi := reads (.tail _ (.tail _ (.tail _ (.tail _ (.head _)))))
  obtain ⟨hfn, hrem⟩ := instFn_add_rem h0
  obtain ⟨hwhole, hbound⟩ := instant_of_parts hfn hrem h1
  refine ⟨?_, ?_, ?_, congrArg (fun d : Dev => { s with dev := d }) (setAll_regs ..), ?_⟩
  · dsimp only
    rw [hlo, hhi, hns, hfrac]
    exact hwhole
  · exact hns.trans_lt hbound
  · dsimp only
    rw [hfi, ← hfn]
    rfl
  · exact fun g hg => regsKeepAll_setAll rfl g fun h => hg (by simpa [nowParts, or_left_comm] using h)

/-- Settles O13: a POP and a capture each set fields of their own, from the oldest entry and from the parts of one instant. -/
theorem timeStampsAreTakenOut : Obligations.TimeStampsAreTakenOut := by
  refine ⟨⟨fun src e q s hp hq => ?_, fun src s hp hq => ?_⟩, fun cyc s hup h0 h1 => timNow_spec hup cyc h0 h1⟩
  · refine ⟨_, exec_txqPop hp, ?_⟩
    rw [txqPop_cons hq]
    have reads {f : Fld} {v : Nat} (hf : (f, v) ∈ popped e q) :
        (Dev.setAll { s.dev with tm := { s.dev.tm with txq := q } } (popped e q)).get f = v % 2 ^ f.width :=
      get_setAll_of_mem (fs := [Reg.TIM_TXQ_CTRL_LEVEL, Reg.TIM_TXQ_ENTRY_VALID, Reg.TIM_TXQ_ENTRY_ID, Reg.TIM_TXQ_ENTRY_LANE,
        Reg.TIM_TXQ_FI_FI, Reg.TIM_TXQ_OFS_OFS]) rfl (by decide) hf
    refine ⟨reads (.tail _ (.head _)), reads (.tail _ (.tail _ (.head _))), reads (.tail _ (.tail _ (.tail _ (.head _)))),
      reads (.tail _ (.tail _ (.tail _ (.tail _ (.head _))))), reads (.tail _ (.tail _ (.tail _ (.tail _ (.tail _ (.head _)))))),
      reads (.head _), congrArg (fun d : Dev => { s with dev := d }) ((setAll_regs ..).trans rfl), ?_⟩
    exact fun g hg => regsKeepAll_setAll rfl g fun h => hg (by simp only [popped, List.map, List.mem_cons] at h ⊢; tauto)
  · refine ⟨_, exec_txqPop hp, ?_⟩
    rw [txqPop_empty hq]
    exact ⟨Dev.get_set_same _ _ _, rfl, regsKeepAll_set _ _ _⟩

end Sys2Proof.Machine
end

section
/-! PROOF. The servo: its registers, one update, and the correction spread over the cycles of a frame; O10 from them. -/
namespace Sys2Proof.Machine
open Sys2Proof.Safety

/-! ### The registers (R75, R76, R77) -/

theorem fieldsAt_servoKi : fieldsAt 0x101C = [Reg.TIM_SERVO_KI_KI] := by decide +kernel

theorem fieldsAt_servoLimits : fieldsAt 0x1020 = [Reg.TIM_SERVO_LIMITS_SLEW_LIMIT, Reg.TIM_SERVO_LIMITS_LOCK_THRESH] := by decide +kernel

/-- What the servo's registers read as (R545). -/
theorem regWord_servo (d : Dev) :
    d.regWord 0x1018 = d.get Reg.TIM_SERVO_KP_KP % 2 ^ 16 ∧ d.regWord 0x101C = d.get Reg.TIM_SERVO_KI_KI % 2 ^ 16
    ∧ d.regWord 0x1020 = d.get Reg.TIM_SERVO_LIMITS_SLEW_LIMIT % 2 ^ 13 + d.get Reg.TIM_SERVO_LIMITS_LOCK_THRESH % 2 ^ 16 * 2 ^ 16 := by
  have hkp : d.regWord 0x1018 = d.readFields (fieldsAt 0x1018) := rfl
  have hki : d.regWord 0x101C = d.readFields (fieldsAt 0x101C) := rfl
  have hlimits : d.regWord 0x1020 = d.readFields (fieldsAt 0x1020) := rfl
  rw [hkp, hki, hlimits, fieldsAt_servoKp, fieldsAt_servoKi, fieldsAt_servoLimits]
  refine ⟨?_, ?_, ?_⟩ <;>
    simp [Dev.readFields, Dev.readField, fieldAt, Reg.TIM_SERVO_KP_KP, Reg.TIM_SERVO_KI_KI, Reg.TIM_SERVO_LIMITS_SLEW_LIMIT,
      Reg.TIM_SERVO_LIMITS_LOCK_THRESH]

/-- The register at `a` holds the servo's gain `f`. -/
def IsGain (a : Nat) (f : Fld) : Prop := a = 0x1018 ∧ f = Reg.TIM_SERVO_KP_KP ∨ a = 0x101C ∧ f = Reg.TIM_SERVO_KI_KI

/-- A gain written is stored, and waits for the boundary. -/
theorem writeLow_gain {a : Nat} {f : Fld} (h : IsGain a f) (d : Dev) (src : Source) (w : Nat) :
    d.writeLow src a w = (d.set f (bits w 0 16)).enqueue (.reg src a (w32 w)) := by
  rcases h with ⟨rfl, rfl⟩ | ⟨rfl, rfl⟩
  · have hplain : d.writeLow src 0x1018 w = d.plainWrite src 0x1018 w := rfl
    rw [hplain, plainWrite_of_sync (by decide +kernel), fieldsAt_servoKp]; rfl
  · have hplain : d.writeLow src 0x101C w = d.plainWrite src 0x101C w := rfl
    rw [hplain, plainWrite_of_sync (by decide +kernel), fieldsAt_servoKi]; rfl

/-- At the boundary it is put into force. -/
theorem applyReg_gain {a : Nat} {f : Fld} (h : IsGain a f) (d : Dev) (w : Nat) : d.applyReg a w = d.setBoth f (bits w 0 16) := by
  rcases h with ⟨rfl, rfl⟩ | ⟨rfl, rfl⟩
  · exact applyReg_servoKp d w
  · have hforce : d.forceFields (fieldsAt 0x101C) w = d.setBoth Reg.TIM_SERVO_KI_KI (bits w 0 16) := by rw [fieldsAt_servoKi]; rfl
    rw [← hforce]; rfl

/-- A gain has 16 bits and two values, the one read and the one in force. -/
theorem gain_field {a : Nat} {f : Fld} (h : IsGain a f) : f.width = 16 ∧ f.sync = true := by
  rcases h with ⟨-, rfl⟩ | ⟨-, rfl⟩ <;> exact ⟨rfl, rfl⟩

/-- A register of the Time block takes its own write. -/
theorem exec_registerWrite_time {src : Source} {a : Nat} {v : Word} {s : State} (ha : wholeAddr a = a) (hlow : a < 0x3000)
    (hp : Passes s.dev src a) : exec (.registerWrite src a v) s = .next { s with dev := s.dev.writeLow src a v.toNat } := by
  rw [exec_registerWrite_of_passes ha hp, softWrite_low (usesReg_below_trigger _ hlow) (by omega)]

theorem registerWrite_gain {src : Source} {v : Word} {a : Nat} {f : Fld} {s : State} (h : IsGain a f) (hp : Passes s.dev src a) :
    Answers (.registerWrite src a v) s fun t =>
      t.dev.get f = v.toNat % 65536 ∧ t.dev.eff f = s.dev.eff f ∧ t.dev.queue = s.dev.queue ++ [.reg src a v]
      ∧ t = { s with dev := { s.dev with regs := t.dev.regs, queue := t.dev.queue } } ∧ RegsKeepAll [f.key] s.dev t.dev := by
  obtain ⟨hwidth, hsync⟩ := gain_field h
  have hplace : wholeAddr a = a ∧ a < 0x3000 := by rcases h with ⟨rfl, -⟩ | ⟨rfl, -⟩ <;> decide
  refine ⟨_, exec_registerWrite_time hplace.1 hplace.2 hp, ?_⟩
  rw [writeLow_gain h, w32_toNat]
  refine ⟨?_, ?_, rfl, rfl, regsKeepAll_set _ _ _⟩
  · exact (Dev.get_set_same _ _ _).trans (by simp [bits, hwidth])
  · simp only [Dev.eff, hsync, if_true]; rfl

theorem stepFive_gain {src : Source} {v : Word} {a : Nat} {f : Fld} (h : IsGain a f) (fs : Fuses) (ecc : List (Nat × Nat)) (d : Dev) :
    (stepFive fs (ecc, { d with queue := [.reg src a v] })).2.eff f = v.toNat % 65536 := by
  obtain ⟨hwidth, hsync⟩ := gain_field h
  have hfive : stepFive fs (ecc, { d with queue := [.reg src a v] }) = (ecc, Dev.applyReg { d with queue := [] } a v.toNat) := rfl
  rw [hfive, applyReg_gain h, Dev.eff, if_pos hsync]
  exact (getT_putT_same _ _ _ _).trans (by simp [bits, hwidth])

theorem writeServoLimits_spec (d : Dev) (w : Nat) :
    (d.writeServoLimits w).get Reg.TIM_SERVO_LIMITS_SLEW_LIMIT = max 1 (min (w % 8192) 6553)
    ∧ (d.writeServoLimits w).get Reg.TIM_SERVO_LIMITS_LOCK_THRESH = w / 65536 % 65536
    ∧ RegsKeepAll [Reg.TIM_SERVO_LIMITS_SLEW_LIMIT.key, Reg.TIM_SERVO_LIMITS_LOCK_THRESH.key] d (d.writeServoLimits w) := by
  refine ⟨?_, (Dev.get_set_same _ _ _).trans (Nat.mod_mod _ _), fun g hg => ?_⟩
  · have hlow : bits w 0 13 = w % 8192 := by simp [bits]
    have hfits : max 1 (min (w % 8192) 6553) < 2 ^ 13 := by omega
    rw [Dev.writeServoLimits, hlow, clampN, Dev.get_set_ne _ (by decide), Dev.get_set_same]
    exact Nat.mod_eq_of_lt hfits
  · obtain ⟨hslew, hthresh⟩ : g.key ≠ Reg.TIM_SERVO_LIMITS_SLEW_LIMIT.key ∧ g.key ≠ Reg.TIM_SERVO_LIMITS_LOCK_THRESH.key := by
      simpa using hg
    exact (Dev.get_set_ne _ hthresh _).trans (Dev.get_set_ne _ hslew _)

/-- The limits read back, the slew limit held to 1 … 6,553 (R77). -/
theorem registerWrite_limits {src : Source} {v : Word} {s : State} (hp : Passes s.dev src 0x1020) :
    Answers (.registerWrite src 0x1020 v) s fun t =>
      (6553 < v.toNat % 8192 → t.dev.get Reg.TIM_SERVO_LIMITS_SLEW_LIMIT = 6553)
      ∧ (v.toNat % 8192 = 0 → t.dev.get Reg.TIM_SERVO_LIMITS_SLEW_LIMIT = 1)
      ∧ (1 ≤ v.toNat % 8192 → v.toNat % 8192 ≤ 6553 → t.dev.get Reg.TIM_SERVO_LIMITS_SLEW_LIMIT = v.toNat % 8192)
      ∧ t.dev.get Reg.TIM_SERVO_LIMITS_LOCK_THRESH = v.toNat / 2 ^ 16 ∧ t = { s with dev := { s.dev with regs := t.dev.regs } }
      ∧ RegsKeepAll [Reg.TIM_SERVO_LIMITS_SLEW_LIMIT.key, Reg.TIM_SERVO_LIMITS_LOCK_THRESH.key] s.dev t.dev := by
  have hexec : exec (.registerWrite src 0x1020 v) s = .next { s with dev := s.dev.writeServoLimits v.toNat } :=
    exec_registerWrite_time rfl (by decide) hp
  obtain ⟨hslew, hthresh, hregs⟩ := writeServoLimits_spec s.dev v.toNat
  have hv : v.toNat < 2 ^ 32 := v.isLt
  exact ⟨_, hexec, fun h => hslew.trans (by omega), fun h => hslew.trans (by omega), fun h h' => hslew.trans (by omega),
    hthresh.trans (by omega), rfl, hregs⟩

/-! ### One update (R58) -/

/-- `u` is `n` / 65536 rounded to the nearest, halves away from zero. -/
def RoundsTo (u n : Int) : Prop :=
  (0 ≤ n → 65536 * u ≤ n + 32768 ∧ n + 32768 < 65536 * u + 65536) ∧ (n < 0 → 65536 * u - 65536 < n - 32768 ∧ n - 32768 ≤ 65536 * u)

theorem roundAway_eq {u n : Int} (h : RoundsTo u n) : roundAway n 65536 = u := by
  obtain ⟨hpos, hneg⟩ := h
  unfold roundAway floorDiv
  split
  next hn =>
    obtain ⟨hlo, hhi⟩ := hpos hn
    rw [Int.fdiv_eq_ediv_of_nonneg _ (by decide)]
    omega
  next hn =>
    obtain ⟨hlo, hhi⟩ := hneg (by omega)
    rw [Int.fdiv_eq_ediv_of_nonneg _ (by decide)]
    omega

/-- Without an input, or where the servo holds, the integrator alone gives the correction. -/
theorem servo_holding {d : Dev} (hen : d.flag Reg.TIM_CTRL_SERVO_EN = true) {i : Option Int} (hno : i = none ∨ d.servoHolds = true) {w : Int}
    (hw : RoundsTo w d.tm.integ) : d.servo i = (clampI (-d.slew) d.slew (-w), d) := by
  have hinput : (if d.servoHolds = true then none else i) = none := by
    rcases hno with rfl | hh
    · exact ite_self none
    · exact if_pos hh
  simp only [Dev.servo, hen, hinput, roundAway_eq hw, Bool.true_eq_false, if_false]

/-- The integrator after an input, held to the slew limit. -/
def Dev.nextInteg (d : Dev) (e : Int) : Int :=
  clampI (-d.slew * 65536) (d.slew * 65536) (d.tm.integ + (d.eff Reg.TIM_SERVO_KI_KI : Int) * e)

/-- The run toward LOCKED after an input. -/
def Dev.nextRun (d : Dev) (e : Int) : Nat := if e.natAbs ≤ d.get Reg.TIM_SERVO_LIMITS_LOCK_THRESH then d.tm.lockRun + 1 else 0

/-- With an input: a correction beyond the limit is clamped and leaves the integrator. -/
theorem servo_input {d : Dev} (hen : d.flag Reg.TIM_CTRL_SERVO_EN = true) (hgo : d.servoHolds = false) {e w : Int}
    (hw : RoundsTo w ((d.eff Reg.TIM_SERVO_KP_KP : Int) * e * 256 + d.nextInteg e)) :
    d.servo (some e)
      = if -w < -d.slew ∨ d.slew < -w then (clampI (-d.slew) d.slew (-w), { d with tm := { d.tm with lockRun := d.nextRun e } })
        else (-w, Dev.setI { d with tm := { d.tm with integ := d.nextInteg e, lockRun := d.nextRun e } } Reg.TIM_SERVO_INTEG_INTEG
          (floorDiv (d.nextInteg e) 65536)) := by
  have hu := roundAway_eq hw
  simp only [Dev.nextInteg] at hu
  simp only [Dev.servo, hen, hgo, hu, Bool.true_eq_false, Bool.false_eq_true, if_false, Dev.nextInteg, Dev.nextRun]

/-! ### The correction spread over a frame (R46) -/

theorem edge_succ_sub_edge (d : Dev) {c : Nat} (hc : c < d.tm.clk.cyc) :
    d.edge (c + 1) - d.edge c
      = 262144 + d.tm.clk.u / (d.tm.clk.cyc : Int) + (if (c : Int) < d.tm.clk.u % (d.tm.clk.cyc : Int) then 1 else 0) := by
  have hdiv : floorDiv d.tm.clk.u d.tm.clk.cyc = d.tm.clk.u / (d.tm.clk.cyc : Int) := Int.fdiv_eq_ediv_of_nonneg _ (by omega)
  have hrest : d.tm.clk.u - d.tm.clk.u / (d.tm.clk.cyc : Int) * d.tm.clk.cyc = d.tm.clk.u % (d.tm.clk.cyc : Int) := by
    rw [Int.emod_def, Int.mul_comm]
  have hpos : 0 ≤ d.tm.clk.u % (d.tm.clk.cyc : Int) := Int.emod_nonneg _ (by omega)
  simp only [Dev.edge, edgeOfs, hdiv, hrest, cycleUnits]
  generalize d.tm.clk.u / (d.tm.clk.cyc : Int) = q
  generalize d.tm.clk.u % (d.tm.clk.cyc : Int) = r at hpos
  have hshare : q * ((c + 1 : Nat) : Int) = q * c + q := by push_cast; ring
  rw [hshare]
  split <;> omega

/-- The three outcomes of an input, by where the correction lies. -/
theorem servo_input_cases {d : Dev} (hen : d.flag Reg.TIM_CTRL_SERVO_EN = true) (hgo : d.servoHolds = false) {e w : Int}
    (hw : RoundsTo w ((d.eff Reg.TIM_SERVO_KP_KP : Int) * e * 256 + d.nextInteg e)) :
    ((-d.slew ≤ -w ∧ -w ≤ d.slew) → (d.servo (some e)).1 = -w ∧ (d.servo (some e)).2.tm.integ = d.nextInteg e
      ∧ (d.servo (some e)).2.get Reg.TIM_SERVO_INTEG_INTEG = ((d.nextInteg e / 65536) % 2 ^ 32).toNat
      ∧ (d.servo (some e)).2
          = { d with regs := (d.servo (some e)).2.regs, tm := { d.tm with integ := d.nextInteg e, lockRun := d.nextRun e } }
      ∧ RegsKeepAll [Reg.TIM_SERVO_INTEG_INTEG.key] d (d.servo (some e)).2)
    ∧ (-w < -d.slew → d.servo (some e) = (-d.slew, { d with tm := { d.tm with lockRun := d.nextRun e } }))
    ∧ (d.slew < -w → d.servo (some e) = (d.slew, { d with tm := { d.tm with lockRun := d.nextRun e } })) := by
  have hslew : 0 ≤ d.slew := Int.natCast_nonneg _
  rw [servo_input hen hgo hw]
  refine ⟨fun hin => ?_, fun hlow => ?_, fun hhigh => ?_⟩
  · rw [if_neg (by omega)]
    refine ⟨rfl, rfl, ?_, rfl, regsKeepAll_set _ _ _⟩
    have hfloor : floorDiv (d.nextInteg e) 65536 = d.nextInteg e / 65536 := Int.fdiv_eq_ediv_of_nonneg _ (by decide)
    refine (Dev.get_set_same _ _ _).trans ?_
    rw [hfloor]
    change (d.nextInteg e / 65536 % 2 ^ 32).toNat % 2 ^ 32 = _
    omega
  · rw [if_pos (.inl hlow), clampI, show max (-d.slew) (min (-w) d.slew) = -d.slew by omega]
  · rw [if_pos (.inr hhigh), clampI, show max (-d.slew) (min (-w) d.slew) = d.slew by omega]

/-- Settles O10: the registers by what their writes store and put into force, the update by where its correction lies, the spread edge by edge. -/
theorem servoRegistersAndUpdate : Obligations.ServoRegistersAndUpdate :=
  ⟨⟨rfl, rfl, rfl, rfl⟩, regWord_servo, fun _ _ _ _ _ h hp => registerWrite_gain h hp, fun fs ecc _ _ _ _ d h => stepFive_gain h fs ecc d,
    fun _ _ _ hp => registerWrite_limits hp, fun _ hen =>
      ⟨fun _ _ hw hno => servo_holding hen hno hw, fun _ _ hgo hw => servo_input_cases hen hgo hw⟩,
    fun d _ _ hc => edge_succ_sub_edge d hc⟩

end Sys2Proof.Machine
end

section
/-! PROOF. Headgate actions as they arrive, and CANCEL at step 5; O47 from them. -/
namespace Sys2Proof.Machine
open Sys2Proof.Safety

/-- A command the device can have, that the profile lets its source have and that is well formed, has its row's effect (R365). -/
theorem cmdRow_of_taken {c : Cmd} {f : EccDev → EccDev} {ecc : List (Nat × Nat)} {d : Dev} (hup : d.up = true) (hsrc : d.hasSource c = true)
    (hden : d.denial c = none) (hbad : cmdBad c = false) : cmdRow c f ecc d = f (ecc, d) := by
  simp only [cmdRow, hup, hsrc, hden, hbad, Bool.and_self, Bool.not_true, Bool.false_eq_true, if_false]

/-! ### Arrival (R69 to R71) -/

/-- The status a headgate action is answered on arrival, 0 where it is held; `df` the frames from the next boundary to its target. -/
def Dev.arrivalStatus (d : Dev) (df : Int) : Nat :=
  if d.clkState = 0 then 4 else if df < 0 ∧ (d.get Reg.TIM_HG_CTRL_GRACE : Int) < -df then 2
  else if 64 ≤ d.tm.held.length then 3 else 0

/-- An action on its arrival is held, or refused with its status. -/
theorem headgateArrive_eq (d : Dev) (c : Cmd) :
    d.headgateArrive c
      = if d.arrivalStatus (fiDiff (cmdTarget c) ((d.fi + 1) % 2 ^ 32)) = 0 then d.setHeldActions (d.tm.held ++ [c])
        else d.refuseAction c (d.arrivalStatus (fiDiff (cmdTarget c) ((d.fi + 1) % 2 ^ 32))) := by
  unfold Dev.headgateArrive Dev.arrivalStatus
  dsimp only
  generalize fiDiff (cmdTarget c) ((d.fi + 1) % 2 ^ 32) = df
  split
  · rfl
  · split
    · rfl
    · split <;> rfl

/-- A refused action is answered and counted (R70, R89). -/
theorem refuseAction_spec (d : Dev) (c : Cmd) (status : Nat) :
    (d.refuseAction c status).get Reg.TIM_HG_STATS_REFUSED = (d.get Reg.TIM_HG_STATS_REFUSED + 1) % 65536
    ∧ d.refuseAction c status = { d.reply c status [] with regs := (d.refuseAction c status).regs }
    ∧ RegsKeep [Reg.TIM_HG_STATS_REFUSED.key] d (d.refuseAction c status) := by
  have hsame : (d.reply c status []).get Reg.TIM_HG_STATS_REFUSED = d.get Reg.TIM_HG_STATS_REFUSED :=
    Dev.reply_get d c status [] (notTalk (by decide) (by decide))
  refine ⟨(Dev.get_set_same _ _ _).trans (by rw [hsame]; rfl), rfl, ?_⟩
  exact regsKeep_trans ((reply_talks d c status []).keep _) (regsKeep_set _ _ _)

theorem setHeldActions_spec (d : Dev) (l : List Cmd) :
    (d.setHeldActions l).tm.held = l ∧ (d.setHeldActions l).get Reg.TIM_HG_CTRL_HELD = l.length % 128
    ∧ d.setHeldActions l = { d with regs := (d.setHeldActions l).regs, tm := { d.tm with held := l } }
    ∧ RegsKeepAll [Reg.TIM_HG_CTRL_HELD.key] d (d.setHeldActions l) :=
  ⟨rfl, Dev.get_set_same _ _ _, rfl, regsKeepAll_set { d with tm := { d.tm with held := l } } _ _⟩

/-- The command as a headgate action (R322). -/
def asHeadgate (c : Cmd) : Cmd := { c with w := c.w.set 0 (w32 (setBit (cmdWd c 0) 11)) }

theorem exec_headgateAction {c : Cmd} {s : State} (hup : s.dev.up = true) (hsrc : s.dev.hasSource c = true)
    (hden : s.dev.denial (asHeadgate c) = none) (hbad : cmdBad (asHeadgate c) = false) :
    exec (.headgateAction c) s = .next { s with dev := s.dev.headgateArrive (asHeadgate c) } := by
  show onEcc (cmdRow (asHeadgate c) fun x => (x.1, x.2.headgateArrive (asHeadgate c))) s = _
  have hsrc' : s.dev.hasSource (asHeadgate c) = true := hsrc
  rw [onEcc, cmdRow_of_taken hup hsrc' hden hbad]

theorem headgateAction_spec {c : Cmd} {s : State} (hup : s.dev.up = true) (hsrc : s.dev.hasSource c = true)
    (hden : s.dev.denial (asHeadgate c) = none) (hbad : cmdBad (asHeadgate c) = false) :
    Answers (.headgateAction c) s fun t =>
      (s.dev.arrivalStatus (fiDiff (cmdTarget (asHeadgate c)) ((s.dev.fi + 1) % 2 ^ 32)) = 0 →
        t.dev.tm.held = s.dev.tm.held ++ [asHeadgate c] ∧ t.dev.get Reg.TIM_HG_CTRL_HELD = (s.dev.tm.held.length + 1) % 128
          ∧ t = { s with dev := { s.dev with regs := t.dev.regs, tm := { s.dev.tm with held := t.dev.tm.held } } }
          ∧ RegsKeepAll [Reg.TIM_HG_CTRL_HELD.key] s.dev t.dev)
      ∧ (s.dev.arrivalStatus (fiDiff (cmdTarget (asHeadgate c)) ((s.dev.fi + 1) % 2 ^ 32)) ≠ 0 →
        t.dev.get Reg.TIM_HG_STATS_REFUSED = (s.dev.get Reg.TIM_HG_STATS_REFUSED + 1) % 65536
          ∧ t = { s with dev := { s.dev.reply (asHeadgate c)
              (s.dev.arrivalStatus (fiDiff (cmdTarget (asHeadgate c)) ((s.dev.fi + 1) % 2 ^ 32))) [] with regs := t.dev.regs } }
          ∧ RegsKeep [Reg.TIM_HG_STATS_REFUSED.key] s.dev t.dev) := by
  refine ⟨_, exec_headgateAction hup hsrc hden hbad, ?_⟩
  rw [headgateArrive_eq]
  generalize s.dev.arrivalStatus (fiDiff (cmdTarget (asHeadgate c)) ((s.dev.fi + 1) % 2 ^ 32)) = status
  refine ⟨fun hheld => ?_, fun hno => ?_⟩
  · rw [if_pos hheld]
    obtain ⟨hlist, hcount, hdev, hregs⟩ := setHeldActions_spec s.dev (s.dev.tm.held ++ [asHeadgate c])
    exact ⟨hlist, hcount.trans (by rw [List.length_append]; rfl), congrArg (fun d : Dev => { s with dev := d }) hdev, hregs⟩
  · rw [if_neg hno]
    obtain ⟨hcount, hdev, hregs⟩ := refuseAction_spec s.dev (asHeadgate c) status
    exact ⟨hcount, congrArg (fun d : Dev => { s with dev := d }) hdev, hregs⟩

/-! ### CANCEL (R70) -/

theorem exec_cancel {c : Cmd} {s : State} (hup : s.dev.up = true) (hsrc : s.dev.hasSource c = true)
    (hden : s.dev.denial (cmdWithOp c 4) = none) (hbad : cmdBad (cmdWithOp c 4) = false) :
    exec (.cancel c) s = .next { s with dev := s.dev.enqueue (.cmd (cmdWithOp c 4)) } := by
  show onEcc (cmdRow (cmdWithOp c 4) fun x => (x.1, x.2.enqueue (.cmd (cmdWithOp c 4)))) s = _
  have hsrc' : s.dev.hasSource (cmdWithOp c 4) = true := hsrc
  rw [onEcc, cmdRow_of_taken hup hsrc' hden hbad]

theorem cancelTag_of_none {d : Dev} {c : Cmd} (h : ∀ x ∈ d.tm.held, cmdTag x ≠ cmdWd c 4 % 65536) : d.cancelTag c = d.reply c 6 [] := by
  have hnone : d.tm.held.find? (fun x => cmdTag x == nth (natsOf c.w) 4 % 65536) = none :=
    List.find?_eq_none.2 fun x hx => by simpa [cmdWd] using h x hx
  simp only [Dev.cancelTag, hnone]

theorem cancelTag_of_found {d : Dev} {c h : Cmd} (hf : d.tm.held.find? (fun x => cmdTag x == cmdWd c 4 % 65536) = some h) :
    d.cancelTag c
      = ((d.setHeldActions (d.tm.held.eraseP fun x => cmdTag x == cmdWd c 4 % 65536)).reply h 5 []).reply c 0 [] := by
  have hf' : d.tm.held.find? (fun x => cmdTag x == nth (natsOf c.w) 4 % 65536) = some h := hf
  simp only [Dev.cancelTag, hf']
  rfl

/-- Settles O47: arrival is one of two outcomes by its status, CANCEL waits in the queue, and at step 5 it takes the first action of its tag. -/
theorem headgateActionsAndCancel : Obligations.HeadgateActionsAndCancel := by
  refine ⟨fun c s => headgateAction_spec, fun c s => exec_cancel, fun f x c hop => if_pos hop,
    fun d c => ⟨cancelTag_of_none, fun h hf => ⟨?_, cancelTag_of_found hf⟩⟩⟩
  have hlen := List.length_eraseP_of_mem (List.mem_of_find?_eq_some hf) (List.find?_some hf)
  have hpos := List.length_pos_of_mem (List.mem_of_find?_eq_some hf)
  omega

end Sys2Proof.Machine
end

section
/-! PROOF. A statement that a state refutes: O14 by a PREFER that holds more than its one bit. -/
namespace Sys2Proof.Machine
open Sys2Proof.Safety

/-- A running device in which TIM_CTRL.PREFER, one bit wide, reads 2. No write stores such a value; the statement asks nothing of what the
fields held before. -/
def preferReadsTwo : State :=
  { State.reset with dev := { State.reset.dev with boot := .running, regs := [(Reg.TIM_CTRL_PREFER.key, 2)] } }

theorem preferReadsTwo_passes : Passes preferReadsTwo.dev .spi 0x1000 := by decide +kernel

/-- Domain B is OFF, so a write that prefers it is refused. -/
theorem preferReadsTwo_refuses :
    preferReadsTwo.dev.tm.swPend = none ∧ preferReadsTwo.dev.selected = 0 ∧ preferReadsTwo.dev.domState 1 = 0 := by decide +kernel

theorem preferReadsTwo_prefer : preferReadsTwo.dev.get Reg.TIM_CTRL_PREFER = 2 := by decide +kernel

/-- The refused write puts PREFER back, cut to its one bit. -/
theorem preferReadsTwo_prefer_after : (preferReadsTwo.dev.writeTimCtrl 4).get Reg.TIM_CTRL_PREFER = 0 := by decide +kernel

/-- Refutes O14: a refused switch is said to leave PREFER as it read, but where PREFER reads more than its width holds the write puts it back
cut to one bit. -/
theorem not_timeControlWrites : ¬ Obligations.TimeControlWrites := by
  rintro ⟨⟨hprefer, -, -⟩, -⟩
  obtain ⟨hpend, hsel, hB⟩ := preferReadsTwo_refuses
  have hwrite := of_answers_onDev (f := fun d => d.gated .spi 0x1000 fun d => d.writeTimCtrl 4) rfl
    (hprefer .spi 4#32 preferReadsTwo preferReadsTwo_passes)
  rw [gated_of_passes preferReadsTwo_passes] at hwrite
  obtain ⟨⟨-, -, hrefused⟩, -⟩ := hwrite
  obtain ⟨hkept, -⟩ := hrefused (by simp [hpend, hsel, bits, bitOf]) (by simp [hB, bits, bitOf])
  rw [preferReadsTwo_prefer] at hkept
  exact absurd (preferReadsTwo_prefer_after.symm.trans hkept) (by decide)

end Sys2Proof.Machine
end

section
/-! PROOF. Foreground calibration: a channel leaves acquisition, its factors are taken or kept, and it starts again; O22 from it. -/
namespace Sys2Proof.Machine
open Sys2Proof.Safety

theorem regsKeepAll_trans {ks : List Nat} {a b c : Dev} (h : RegsKeepAll ks a b) (k : RegsKeepAll ks b c) : RegsKeepAll ks a c :=
  fun f hf => (k f hf).trans (h f hf)

theorem regsKeepAll_mono {ks ls : List Nat} {a b : Dev} (h : RegsKeepAll ks a b) (sub : ∀ k ∈ ks, k ∈ ls) : RegsKeepAll ls a b :=
  fun f hf => h f fun hk => hf (sub _ hk)

/-- The registers below the Compression block count no messages. -/
theorem notTalk_below_compression {k : Nat} (h : k < 0x4000 * 32) : ¬ countsTalk k :=
  notTalk (.inl (by omega)) (by
    have hevt : 0x4000 * 32 ≤ Reg.HR_DROP_STATS_EVT_DROPPED.key := by decide
    have hfree : 0x4000 * 32 ≤ Reg.EGR_POOL_FREE_PAGES.key := by decide
    have hlow : 0x4000 * 32 ≤ Reg.EGR_POOL_LOW_WATER.key := by decide
    omega)

/-- A set of one of the named fields keeps every field not named. -/
theorem regsKeepAll_set_of_mem {ks : List Nat} {d : Dev} {f : Fld} {v : Nat} (hf : f.key ∈ ks) : RegsKeepAll ks d (d.set f v) :=
  regsKeepAll_mono (regsKeepAll_set d f v) (by simpa using hf)

theorem regsKeep_of_regsKeepAll {ks : List Nat} {a b : Dev} (h : RegsKeepAll ks a b) : RegsKeep ks a b := fun f hf _ => h f hf

/-! ### A calibration begins (R103, R104) -/

/-- Nothing changes but registers, channels and the accounts of frames. -/
def AcqWork (d t : Dev) : Prop :=
  t = { d with regs := t.regs, acq := { d.acq with chans := t.acq.chans, fstats := t.acq.fstats } }

theorem AcqWork.trans {a b c : Dev} (h : AcqWork a b) (k : AcqWork b c) : AcqWork a c := by
  unfold AcqWork at *
  rw [k, h]

theorem AcqWork.regs_acq {d t : Dev} (h : AcqWork d t) : t = { d with regs := t.regs, acq := t.acq } := by
  unfold AcqWork at h
  rw [h]

/-- The register fields of channel `n` that the begin of a calibration may change. -/
def calBeginKeys (n : Nat) : List Nat :=
  [(Reg.CH_STATUS_CAL_ACTIVE n).key, (Reg.CH_MERGE_STATS_SEAMS n).key, (Reg.CH_MERGE_STATS_CLIPS n).key]

theorem calActive_not_mem_calBeginKeys {m n : Nat} (h : m ≠ n) : (Reg.CH_STATUS_CAL_ACTIVE m).key ∉ calBeginKeys n := by
  simp only [calBeginKeys, Fld.key, Reg.CH_STATUS_CAL_ACTIVE, Reg.CH_MERGE_STATS_SEAMS, Reg.CH_MERGE_STATS_CLIPS,
    List.mem_cons, List.not_mem_nil, or_false]
  omega

theorem regsKeepAll_countMerge (d : Dev) (n seams clips : Nat) : RegsKeepAll (calBeginKeys n) d (d.countMerge n seams clips) :=
  regsKeepAll_trans (b := d.addWrap (Reg.CH_MERGE_STATS_SEAMS n) seams) (regsKeepAll_set_of_mem (by simp [calBeginKeys]))
    (regsKeepAll_set_of_mem (by simp [calBeginKeys]))

/-- A channel that stops acquires no more; only its merge, its counts and the frame's account take note. -/
theorem stopChan_spec (d : Dev) (n : Nat) :
    ((d.stopChan n).chan n).acquiring = false ∧ (∀ m, m ≠ n → (d.stopChan n).chan m = d.chan m)
    ∧ AcqWork d (d.stopChan n) ∧ RegsKeepAll (calBeginKeys n) d (d.stopChan n) := by
  by_cases hacq : (d.chan n).acquiring = true
  · have hdo : d.stopChan n = ((d.setChan n { ((d.chan n).mergeIn none []).2.2 with acquiring := false }).countMerge n
        ((d.chan n).mergeIn none []).1 ((d.chan n).mergeIn none []).2.1).updFrame d.fn fun s =>
          { s with acq := s.acq.filter (· != n), accept := s.accept.filter (· != n) } := by
      simp [Dev.stopChan, hacq]
    rw [hdo]
    generalize ((d.chan n).mergeIn none []).2.2 = c
    refine ⟨congrArg Chan.acquiring (d.chan_setChan_same n { c with acquiring := false }), fun m hm => ?_, rfl, ?_⟩
    · exact (d.chan_setChan n m { c with acquiring := false }).trans (if_neg hm)
    · exact regsKeepAll_countMerge (d.setChan n { c with acquiring := false }) n _ _
  · have hdo : d.stopChan n = d := by simp [Dev.stopChan, hacq]
    rw [hdo]
    exact ⟨by simpa using hacq, fun _ _ => rfl, rfl, fun _ _ => rfl⟩

/-- A channel's calibration begins with its stop. -/
theorem calBegin_spec (d : Dev) (n : Nat) :
    (d.calBegin n).get (Reg.CH_STATUS_CAL_ACTIVE n) = 1
    ∧ (((d.calBegin n).chan n).calFn = some d.fn ∧ ((d.calBegin n).chan n).fgDue = none ∧ ((d.calBegin n).chan n).acquiring = false)
    ∧ (∀ m, m ≠ n → (d.calBegin n).chan m = d.chan m) ∧ AcqWork d (d.calBegin n) ∧ RegsKeepAll (calBeginKeys n) d (d.calBegin n) := by
  obtain ⟨hacq, hothers, hwork, hregs⟩ := stopChan_spec d n
  unfold Dev.calBegin Dev.cutCaps
  generalize d.stopChan n = e at *
  refine ⟨Dev.get_set_same _ _ _, ?_, fun m hm => ?_, hwork.trans rfl, regsKeepAll_trans hregs ?_⟩
  · simp [hacq]
  · simp [Dev.chan_setChan, hm, hothers m hm]
  · exact regsKeepAll_set_of_mem (d := e.updChan n fun c => { c with caps := c.caps.map c.cutCap }) (by simp [calBeginKeys])

/-- The calibrations of several channels begin: each of them by its own, no other channel changes. -/
theorem calBegin_all_spec (ns : List Nat) (d : Dev) :
    (∀ n ∈ ns, (ns.foldl Dev.calBegin d).get (Reg.CH_STATUS_CAL_ACTIVE n) = 1 ∧ ((ns.foldl Dev.calBegin d).chan n).calFn = some d.fn
      ∧ ((ns.foldl Dev.calBegin d).chan n).acquiring = false)
    ∧ (∀ n, n ∉ ns → (ns.foldl Dev.calBegin d).chan n = d.chan n
      ∧ (ns.foldl Dev.calBegin d).get (Reg.CH_STATUS_CAL_ACTIVE n) = d.get (Reg.CH_STATUS_CAL_ACTIVE n))
    ∧ AcqWork d (ns.foldl Dev.calBegin d) := by
  induction ns generalizing d with
  | nil => exact ⟨by simp, fun _ _ => ⟨rfl, rfl⟩, rfl⟩
  | cons k ks ih =>
    obtain ⟨hactive, ⟨hcalFn, -, hacq⟩, hothers, hwork, hregs⟩ := calBegin_spec d k
    obtain ⟨hin, hout, hrest⟩ := ih (d.calBegin k)
    have hfn : (d.calBegin k).fn = d.fn := by unfold Dev.fn; rw [hwork]
    rw [hfn] at hin
    refine ⟨fun n hn => ?_, fun n hn => ?_, hwork.trans hrest⟩
    · by_cases hks : n ∈ ks
      · exact hin n hks
      · obtain rfl : n = k := (List.mem_cons.1 hn).resolve_right hks
        obtain ⟨hchan, hreg⟩ := hout n hks
        rw [List.foldl_cons, hchan, hreg]
        exact ⟨hactive, hcalFn, hacq⟩
    · obtain ⟨hne, hks⟩ := not_or.1 (mt List.mem_cons.2 hn)
      obtain ⟨hchan, hreg⟩ := hout n hks
      exact ⟨hchan.trans (hothers n hne), hreg.trans (hregs _ (calActive_not_mem_calBeginKeys hne))⟩

/-- The bring-up calibration of the channels `ns` has begun in frame `fn`. -/
def Dev.fgBegun (d : Dev) (ns : List Nat) (fn : Nat) : Dev := { d with acq := { d.acq with fgBoot := ns, fgDue := none, fgFn := some fn } }

theorem AcqWork.fgBegun {d e : Dev} (h : AcqWork d e) (ns : List Nat) (fn : Nat) :
    e.fgBegun ns fn = { d with regs := (e.fgBegun ns fn).regs, acq := (e.fgBegun ns fn).acq } :=
  congrArg (fun x => x.fgBegun ns fn) h.regs_acq

/-- FG_CAL_START of the bring-up calibration. -/
theorem exec_fgCalStart_all {s : State} {r : Nat} (hup : s.dev.up = true) (hrole : s.dev.role = .frontEnd) (hdue : s.dev.acq.fgDue = some r)
    (hwait : r + 1000 * s.dev.get Reg.CH_CAL_CTRL_FG_WAIT ≤ s.dev.fn) :
    exec (.fgCalStart none) s = .next { s with dev :=
      (((List.range 48).filter s.dev.chanIsOn).foldl Dev.calBegin s.dev).fgBegun ((List.range 48).filter s.dev.chanIsOn) s.dev.fn } := by
  show onDev (fun d => d.fgCalStart none) s = _
  simp [onDev, Dev.fgCalStart, Dev.fgBegun, hup, hrole, hdue, Nat.not_lt.2 hwait]

/-- FG_CAL_START of a channel's own calibration (R122). -/
theorem exec_fgCalStart_one {s : State} {n r : Nat} (hn : n < 48) (hup : s.dev.up = true) (hrole : s.dev.role = .frontEnd)
    (hdue : (s.dev.chan n).fgDue = some r) (hwait : r + 1000 * s.dev.laterWait ≤ s.dev.fn) (hon : s.dev.chanIsOn n = true)
    (hidle : s.dev.flag (Reg.CH_STATUS_CAL_ACTIVE n) = false) :
    exec (.fgCalStart (some n)) s = .next { s with dev := s.dev.calBegin n } := by
  refine (onUnit_of_lt hn _ s).trans ?_
  simp [onDev, Dev.fgCalStart, hup, hrole, hdue, Nat.not_lt.2 hwait, hon, hidle]

/-! ### A calibration ends (R103, R105) -/

/-- Nothing changes but what an event may, the values in force, channels, accounts of frames and FG_WAIT at FG_DONE. -/
def CalWork (d t : Dev) : Prop :=
  t = { talked d t with force := t.force, acq := { d.acq with chans := t.acq.chans, fstats := t.acq.fstats, fgWait := t.acq.fgWait } }

theorem CalWork.trans {a b c : Dev} (h : CalWork a b) (k : CalWork b c) : CalWork a c := by
  unfold CalWork at *
  rw [k, h]
  rfl

theorem CalWork.of_talks {d t : Dev} (h : Talks d t) : CalWork d t := by
  unfold CalWork
  rw [h.1]
  rfl

/-- What a calibration says of its channel: the frame it began, whether nominal factors stand, whether it failed, and what it measured. -/
def Chan.calOutcome (c : Chan) : Option Nat × Bool × Bool × Option Nat × List SubCal × List SubCal × Int :=
  (c.calFn, c.nominal, c.calFailed, c.dS, c.subL, c.subH, c.discOfs)

/-- The register fields that the end of a calibration of channel `n` may change. -/
def calEndKeys (n : Nat) : List Nat :=
  [(Reg.CH_STATUS_CAL_ACTIVE n).key, (Reg.CH_STATUS_CAL_FAIL n).key, Reg.CH_CAL_STATUS_FAIL_QUADS.key, Reg.CH_CAL_STATUS_FG_DONE.key,
    (Reg.CH_LG_GAIN_GL n).key, (Reg.CH_LG_OFS_OL n).key, (Reg.CH_HG_GAIN_GH n).key, (Reg.CH_HG_OFS_OH n).key, (Reg.CH_ALIGN_TRIM n).key,
    (Reg.CH_TDC_STATUS_ALIGN_RANGE n).key, (Reg.CH_TRG_STATUS_FILLED n).key]

theorem regsKeep_set_of_mem {ks : List Nat} {d : Dev} {f : Fld} {v : Nat} (hf : f.key ∈ ks) : RegsKeep ks d (d.set f v) :=
  regsKeep_of_regsKeepAll (regsKeepAll_set_of_mem hf)

/-- The value in force of a frame-synchronous field (R25). -/
theorem eff_of_sync {f : Fld} (hs : f.sync = true) (d : Dev) : d.eff f = getT f.reset f.key d.force := if_pos hs

/-- A gain within its band fits its field. -/
theorem gain_mod_of_gainOk {g : Nat} (h : gainOk g = true) : g % 2 ^ 24 = g := by
  simp only [gainOk, Bool.and_eq_true, decide_eq_true_eq] at h
  omega

/-- An offset within its band reads back from its field. -/
theorem toSigned_ofSigned_of_ofsOk {o : Int} (h : ofsOk o = true) : toSigned 20 (ofSigned 20 o % 2 ^ 20) = o := by
  simp only [ofsOk, decide_eq_true_eq] at h
  unfold toSigned ofSigned
  by_cases hneg : o < 0
  · rw [if_neg (by omega)]; omega
  · rw [if_pos (by omega)]; omega

/-- The four factors of R105 that have registers, as their fields hold them. -/
def factors (r : CalResult) : List (Fld × Nat) :=
  [(Reg.CH_LG_GAIN_GL r.n, r.gl), (Reg.CH_LG_OFS_OL r.n, ofSigned 20 r.ol), (Reg.CH_HG_GAIN_GH r.n, r.gh),
    (Reg.CH_HG_OFS_OH r.n, ofSigned 20 r.oh)]

theorem factors_keys_pairwise (r : CalResult) : ((factors r).map Prod.fst).Pairwise fun a b => a.key ≠ b.key := by
  simp [factors, Fld.key, Reg.CH_LG_GAIN_GL, Reg.CH_LG_OFS_OL, Reg.CH_HG_GAIN_GH, Reg.CH_HG_OFS_OH]

theorem factors_sync (r : CalResult) : ∀ p ∈ factors r, p.1.sync = true := by
  simp [factors, Reg.CH_LG_GAIN_GL, Reg.CH_LG_OFS_OL, Reg.CH_HG_GAIN_GH, Reg.CH_HG_OFS_OH]

/-- Their fields are neither those of the alignment nor counts of messages. -/
theorem factors_key {r : CalResult} (hn : r.n < 48) (p : Fld × Nat) (hp : p ∈ factors r) :
    p.1.key ∉ [(Reg.CH_ALIGN_TRIM r.n).key, (Reg.CH_TDC_STATUS_ALIGN_RANGE r.n).key] ∧ ¬ countsTalk p.1.key := by
  simp only [factors, List.mem_cons, List.not_mem_nil, or_false] at hp
  rcases hp with rfl | rfl | rfl | rfl
  all_goals
    simp only [Fld.key, Reg.CH_LG_GAIN_GL, Reg.CH_LG_OFS_OL, Reg.CH_HG_GAIN_GH, Reg.CH_HG_OFS_OH, Reg.CH_ALIGN_TRIM,
      Reg.CH_TDC_STATUS_ALIGN_RANGE, List.mem_cons, List.not_mem_nil, or_false]
    exact ⟨by omega, notTalk_below_compression (by omega)⟩

theorem eff_eq_of_force {f : Fld} (hs : f.sync = true) {d e : Dev} (h : e.force = d.force) : e.eff f = d.eff f := by
  rw [eff_of_sync hs, eff_of_sync hs, h]

/-- They are stored and put into force. -/
def Dev.takeFactors (d : Dev) (r : CalResult) : Dev :=
  (((d.setBoth (Reg.CH_LG_GAIN_GL r.n) r.gl).setBothI (Reg.CH_LG_OFS_OL r.n) r.ol).setBoth (Reg.CH_HG_GAIN_GH r.n) r.gh).setBothI
    (Reg.CH_HG_OFS_OH r.n) r.oh

theorem takeFactors_chan (d : Dev) (r : CalResult) (m : Nat) : (d.takeFactors r).chan m = d.chan m := by simp [Dev.takeFactors]

theorem takeFactors_get (d : Dev) {r : CalResult} {f : Fld} {v : Nat} (hf : (f, v) ∈ factors r) : (d.takeFactors r).get f = v % 2 ^ f.width :=
  get_setAll_of_mem (d := d) rfl (factors_keys_pairwise r) hf

theorem takeFactors_eff (d : Dev) {r : CalResult} {f : Fld} {v : Nat} (hs : f.sync = true) (hf : (f, v) ∈ factors r) :
    (d.takeFactors r).eff f = v % 2 ^ f.width :=
  (eff_of_sync hs _).trans (get_setAll_of_mem (d := { d with regs := d.force }) rfl (factors_keys_pairwise r) hf)

/-- A step of the end of channel `n`'s calibration: no other channel changes, and of the register fields only those at `ks`. -/
structure CalStep (n : Nat) (ks : List Nat) (d t : Dev) : Prop where
  work : CalWork d t
  regs : RegsKeep ks d t
  others : ∀ m, m ≠ n → t.chan m = d.chan m

theorem CalStep.refl (n : Nat) (ks : List Nat) (d : Dev) : CalStep n ks d d := ⟨rfl, regsKeep_refl ks d, fun _ _ => rfl⟩

theorem CalStep.trans {n : Nat} {ks : List Nat} {a b c : Dev} (h : CalStep n ks a b) (k : CalStep n ks b c) : CalStep n ks a c :=
  ⟨h.work.trans k.work, regsKeep_trans h.regs k.regs, fun m hm => (k.others m hm).trans (h.others m hm)⟩

theorem CalStep.mono {n : Nat} {ks ls : List Nat} {a b : Dev} (h : CalStep n ks a b) (sub : ∀ k ∈ ks, k ∈ ls) : CalStep n ls a b :=
  ⟨h.work, regsKeep_mono h.regs sub, h.others⟩

theorem CalStep.set {n : Nat} {ks : List Nat} {d : Dev} {f : Fld} {v : Nat} (hf : f.key ∈ ks) : CalStep n ks d (d.set f v) :=
  ⟨rfl, regsKeep_set_of_mem hf, fun _ _ => rfl⟩

theorem CalStep.setBoth {n : Nat} {ks : List Nat} {d : Dev} {f : Fld} {v : Nat} (hf : f.key ∈ ks) : CalStep n ks d (d.setBoth f v) :=
  ⟨rfl, regsKeep_set_of_mem hf, fun _ _ => rfl⟩

theorem CalStep.setChan (n : Nat) (ks : List Nat) (d : Dev) (c : Chan) : CalStep n ks d (d.setChan n c) :=
  ⟨rfl, fun _ _ _ => rfl, fun m hm => (d.chan_setChan n m c).trans (if_neg hm)⟩

theorem CalStep.updChan (n : Nat) (ks : List Nat) (d : Dev) (g : Chan → Chan) : CalStep n ks d (d.updChan n g) := .setChan n ks d _

theorem CalStep.acqEvent (n : Nat) (ks : List Nat) (d : Dev) (cause m : Nat) : CalStep n ks d (d.acqEvent cause m) :=
  ⟨.of_talks (raiseOpen_talks d 2 cause [m]), (raiseOpen_talks d 2 cause [m]).keep ks, fun k _ => Dev.raiseOpen_chan d 2 cause [m] k⟩

/-- The alignment of the sampling clock forms TRIM from what was measured. -/
theorem align_spec (d : Dev) (n : Nat) :
    CalStep n [(Reg.CH_ALIGN_TRIM n).key, (Reg.CH_TDC_STATUS_ALIGN_RANGE n).key] d (d.align n)
    ∧ (d.align n).force = d.force ∧ (d.align n).chan n = d.chan n := by
  unfold Dev.align
  split
  · exact ⟨.refl _ _ d, rfl, rfl⟩
  · dsimp only
    split
    · exact ⟨(CalStep.set (by simp)).trans (.set (by simp)), rfl, rfl⟩
    · exact ⟨.set (by simp), rfl, rfl⟩

/-- The register fields that the verdict on the results may change. -/
def judgeKeys (n : Nat) : List Nat :=
  [(Reg.CH_STATUS_CAL_FAIL n).key, Reg.CH_CAL_STATUS_FAIL_QUADS.key, (Reg.CH_LG_GAIN_GL n).key, (Reg.CH_LG_OFS_OL n).key,
    (Reg.CH_HG_GAIN_GH n).key, (Reg.CH_HG_OFS_OH n).key, (Reg.CH_ALIGN_TRIM n).key, (Reg.CH_TDC_STATUS_ALIGN_RANGE n).key]

/-- What a channel keeps of accepted results. -/
def Chan.takeResults (r : CalResult) (c : Chan) : Chan :=
  { c with nominal := false, calFailed := false, dS := some r.ds, subL := r.low, subH := r.high, discOfs := r.disc, pendTrk := none,
           pendBg := none }

/-- The results are taken. -/
def Dev.acceptCal (d : Dev) (r : CalResult) : Dev := ((d.takeFactors r).updChan r.n (Chan.takeResults r)).align r.n

/-- The results are refused. -/
def Dev.rejectCal (d : Dev) (n : Nat) : Dev :=
  let e := (d.setB (Reg.CH_STATUS_CAL_FAIL n) true).updChan n fun c => { c with calFailed := true }
  (e.set Reg.CH_CAL_STATUS_FAIL_QUADS (setBit (e.get Reg.CH_CAL_STATUS_FAIL_QUADS) (n / 4))).acqEvent 2 n

/-- A channel that is ON starts again. -/
def Dev.restart (d : Dev) (n : Nat) : Dev := if d.chanIsOn n then d.startChan n else d

theorem calEnd_of_calOk {d : Dev} {r : CalResult} (h : calOk r = true) : d.calEnd r = ((d.calClear r.n).acceptCal r).restart r.n := by
  unfold Dev.calEnd
  simp only [h, if_true]
  rfl

theorem calEnd_of_not_calOk {d : Dev} {r : CalResult} (h : calOk r = false) : d.calEnd r = ((d.calClear r.n).rejectCal r.n).restart r.n := by
  unfold Dev.calEnd
  simp only [h, Bool.false_eq_true, if_false]
  rfl

theorem calClear_spec (d : Dev) (n : Nat) :
    (d.calClear n).get (Reg.CH_STATUS_CAL_ACTIVE n) = 0 ∧ (d.calClear n).chan n = { d.chan n with calFn := none }
    ∧ (d.calClear n).force = d.force ∧ CalStep n [(Reg.CH_STATUS_CAL_ACTIVE n).key] d (d.calClear n) :=
  ⟨Dev.get_set_same d (Reg.CH_STATUS_CAL_ACTIVE n) 0, Dev.chan_setChan_same _ _ _, rfl,
    (CalStep.set (d := d) (by simp)).trans (.setChan n _ _ _)⟩

/-- Of accepted results the four factors are stored and in force, and the channel keeps the others. -/
theorem acceptCal_spec (d : Dev) {r : CalResult} (hn : r.n < 48) :
    (∀ p ∈ factors r, (d.acceptCal r).get p.1 = p.2 % 2 ^ p.1.width ∧ (d.acceptCal r).eff p.1 = p.2 % 2 ^ p.1.width)
    ∧ ((d.acceptCal r).chan r.n).calOutcome = ((d.chan r.n).calFn, false, false, some r.ds, r.low, r.high, r.disc)
    ∧ CalStep r.n (judgeKeys r.n) d (d.acceptCal r) := by
  unfold Dev.acceptCal
  have htake : CalStep r.n (judgeKeys r.n) d (d.takeFactors r) :=
    (((CalStep.setBoth (by simp [judgeKeys])).trans (.setBoth (by simp [judgeKeys]))).trans (.setBoth (by simp [judgeKeys]))).trans
      (.setBoth (by simp [judgeKeys]))
  have hfactors (p : Fld × Nat) (hp : p ∈ factors r) :
      (d.takeFactors r).get p.1 = p.2 % 2 ^ p.1.width ∧ (d.takeFactors r).eff p.1 = p.2 % 2 ^ p.1.width :=
    ⟨takeFactors_get d hp, takeFactors_eff d (factors_sync r p hp) hp⟩
  have hcalFn : ((d.takeFactors r).chan r.n).calFn = (d.chan r.n).calFn := by rw [takeFactors_chan]
  generalize d.takeFactors r = e at *
  obtain ⟨halign, hforce, hchan⟩ := align_spec (e.updChan r.n (Chan.takeResults r)) r.n
  refine ⟨fun p hp => ?_, ?_, (htake.trans (.updChan _ _ _ _)).trans (halign.mono (by simp [judgeKeys]))⟩
  · obtain ⟨hget, heff⟩ := hfactors p hp
    obtain ⟨hkey, htalk⟩ := factors_key hn p hp
    exact ⟨(halign.regs _ hkey htalk).trans hget, (eff_eq_of_force (factors_sync r p hp) hforce).trans heff⟩
  · rw [hchan, Dev.updChan_eq, Dev.chan_setChan_same, Chan.takeResults, Chan.calOutcome, hcalFn]

theorem bitOf_eq_testBit (n i : Nat) : bitOf n i = n.testBit i := by
  rw [bitOf, Nat.testBit_eq_decide_div_mod_eq]; rfl

/-- A bit set in a register field that has it reads 1. -/
theorem bitOf_setBit_mod {i w : Nat} (n : Nat) (h : i < w) : bitOf (setBit n i % 2 ^ w) i = true := by
  unfold setBit
  rw [bitOf_eq_testBit, Nat.testBit_mod_two_pow, decide_eq_true h, Bool.true_and, bitOf_eq_testBit]
  split
  next hset => exact hset
  next hclear => rw [Nat.add_comm, Nat.testBit_two_pow_add_eq]; simpa using hclear

/-- Refused results leave the factors and show the failure, by channel and by quad. -/
theorem rejectCal_spec (d : Dev) {n : Nat} (hn : n < 48) :
    (d.rejectCal n).get (Reg.CH_STATUS_CAL_FAIL n) = 1 ∧ bitOf ((d.rejectCal n).get Reg.CH_CAL_STATUS_FAIL_QUADS) (n / 4) = true
    ∧ ((d.rejectCal n).chan n).calOutcome = { d.chan n with calFailed := true }.calOutcome ∧ (d.rejectCal n).force = d.force
    ∧ CalStep n (judgeKeys n) d (d.rejectCal n) := by
  have hquads : (Reg.CH_STATUS_CAL_FAIL n).key ≠ Reg.CH_CAL_STATUS_FAIL_QUADS.key := by
    simp only [Fld.key, Reg.CH_STATUS_CAL_FAIL, Reg.CH_CAL_STATUS_FAIL_QUADS]
    omega
  have hfail : ¬ countsTalk (Reg.CH_STATUS_CAL_FAIL n).key := notTalk_below_compression (by
    simp only [Fld.key, Reg.CH_STATUS_CAL_FAIL]
    omega)
  unfold Dev.rejectCal Dev.acqEvent
  refine ⟨?_, ?_, ?_, Dev.raiseOpen_force .., ?_⟩
  · rw [Dev.raiseOpen_get _ _ _ _ hfail, Dev.get_set_ne _ hquads]
    exact Dev.get_set_same d (Reg.CH_STATUS_CAL_FAIL n) 1
  · rw [Dev.raiseOpen_get _ _ _ _ (notTalk (by decide) (by decide)), Dev.get_set_same]
    exact bitOf_setBit_mod (w := 12) _ (by omega)
  · rw [Dev.raiseOpen_chan, Dev.chan_set, Dev.updChan_eq, Dev.chan_setChan_same]
    rfl
  · exact (((CalStep.set (by simp [judgeKeys])).trans (.updChan _ _ _ _)).trans (.set (by simp [judgeKeys]))).trans (.acqEvent _ _ _ _ _)

/-- A start leaves what a calibration said of the channel. -/
theorem startChan_spec (d : Dev) (n : Nat) :
    ((d.startChan n).chan n).acquiring = true ∧ ((d.startChan n).chan n).calOutcome = (d.chan n).calOutcome
    ∧ (d.startChan n).force = d.force ∧ CalStep n [(Reg.CH_TRG_STATUS_FILLED n).key] d (d.startChan n) := by
  unfold Dev.startChan
  refine ⟨?_, ?_, rfl, rfl, ?_, fun m hm => ?_⟩
  · exact congrArg Chan.acquiring (Dev.chan_setChan_same d n _)
  · exact (congrArg Chan.calOutcome (Dev.chan_setChan_same d n _)).trans rfl
  · exact regsKeep_set d (Reg.CH_TRG_STATUS_FILLED n) 0
  · exact (d.chan_setChan n m _).trans (if_neg hm)

theorem fgDone_spec (d : Dev) (n : Nat) :
    d.fgDone.chan n = d.chan n ∧ d.fgDone.force = d.force ∧ CalStep n [Reg.CH_CAL_STATUS_FG_DONE.key] d d.fgDone := by
  unfold Dev.fgDone
  split
  · exact ⟨rfl, rfl, rfl, regsKeep_of_regsKeepAll (regsKeepAll_set _ _ _), fun _ _ => rfl⟩
  · exact ⟨rfl, rfl, .refl _ _ d⟩

/-- The last part of the end of a calibration: the channel starts again where it is ON, and FG_DONE may be due. -/
theorem restart_fgDone_spec (d : Dev) (n : Nat) :
    (d.chanIsOn n = true → ((d.restart n).fgDone.chan n).acquiring = true)
    ∧ ((d.restart n).fgDone.chan n).calOutcome = (d.chan n).calOutcome ∧ (d.restart n).fgDone.force = d.force
    ∧ CalStep n [(Reg.CH_TRG_STATUS_FILLED n).key, Reg.CH_CAL_STATUS_FG_DONE.key] d (d.restart n).fgDone := by
  obtain ⟨hchan, hforce, hstep⟩ := fgDone_spec (d.restart n) n
  rw [hchan, hforce]
  unfold Dev.restart at *
  by_cases hon : d.chanIsOn n = true
  · rw [if_pos hon] at *
    obtain ⟨hacq, houtcome, hforce', hstart⟩ := startChan_spec d n
    exact ⟨fun _ => hacq, houtcome, hforce', (hstart.mono (by simp)).trans (hstep.mono (by simp))⟩
  · rw [if_neg hon] at *
    exact ⟨fun h => absurd h hon, rfl, rfl, hstep.mono (by simp)⟩

/-- The register fields of a calibration's end count no messages, and none of them is a channel's power state. -/
theorem calEndKeys_lt {n k : Nat} (hn : n < 48) (hk : k ∈ calEndKeys n) : k < 0x4000 * 32 := by
  simp only [calEndKeys, Fld.key, Reg.CH_STATUS_CAL_ACTIVE, Reg.CH_STATUS_CAL_FAIL, Reg.CH_CAL_STATUS_FAIL_QUADS, Reg.CH_CAL_STATUS_FG_DONE,
    Reg.CH_LG_GAIN_GL, Reg.CH_LG_OFS_OL, Reg.CH_HG_GAIN_GH, Reg.CH_HG_OFS_OH, Reg.CH_ALIGN_TRIM, Reg.CH_TDC_STATUS_ALIGN_RANGE,
    Reg.CH_TRG_STATUS_FILLED, List.mem_cons, List.not_mem_nil, or_false] at hk
  omega

theorem judgeKeys_subset (n : Nat) : ∀ k ∈ judgeKeys n, k ∈ calEndKeys n := by simp [judgeKeys, calEndKeys]

theorem chanIsOn_of_regsKeep {n m : Nat} {d e : Dev} (hn : n < 48) (h : RegsKeep (calEndKeys n) d e) : e.chanIsOn m = d.chanIsOn m := by
  have hkey : 0xA018 * 32 ≤ (Reg.PWR_CH_STATE m).key := by
    simp only [Fld.key, Reg.PWR_CH_STATE]; omega
  have htalk : ¬ countsTalk (Reg.PWR_CH_STATE m).key := notTalk (.inr (by omega)) (by
    have hevt : Reg.HR_DROP_STATS_EVT_DROPPED.key < 0xA018 * 32 := by decide
    have hfree : Reg.EGR_POOL_FREE_PAGES.key < 0xA018 * 32 := by decide
    have hlow : Reg.EGR_POOL_LOW_WATER.key < 0xA018 * 32 := by decide
    omega)
  unfold Dev.chanIsOn
  rw [h _ (fun hk => absurd (calEndKeys_lt hn hk) (by omega)) htalk]

/-- The end of a calibration after its verdict `e`: CAL_ACTIVE is clear, the channel runs where it is ON, and the verdict stands. -/
theorem calEnd_of_judged {d e t : Dev} {n : Nat} (hn : n < 48) (hjudge : CalStep n (judgeKeys n) (d.calClear n) e)
    (ht : t = (e.restart n).fgDone) :
    t.get (Reg.CH_STATUS_CAL_ACTIVE n) = 0 ∧ (d.chanIsOn n = true → (t.chan n).acquiring = true) ∧ CalStep n (calEndKeys n) d t
    ∧ (t.chan n).calOutcome = (e.chan n).calOutcome ∧ t.force = e.force
    ∧ ∀ f : Fld, f.key ∈ judgeKeys n → t.get f = e.get f := by
  subst ht
  obtain ⟨hzero, -, -, hclear⟩ := calClear_spec d n
  obtain ⟨hacq, houtcome, hforce, hend⟩ := restart_fgDone_spec e n
  have hbefore : CalStep n (calEndKeys n) d e := (hclear.mono (by simp [calEndKeys])).trans (hjudge.mono (judgeKeys_subset n))
  have hlow (f : Fld) (hf : f.key ∈ calEndKeys n) : ¬ countsTalk f.key := notTalk_below_compression (calEndKeys_lt hn hf)
  have hactive : (Reg.CH_STATUS_CAL_ACTIVE n).key ∉ judgeKeys n := by
    simp only [judgeKeys, Fld.key, Reg.CH_STATUS_CAL_ACTIVE, Reg.CH_STATUS_CAL_FAIL, Reg.CH_CAL_STATUS_FAIL_QUADS, Reg.CH_LG_GAIN_GL,
      Reg.CH_LG_OFS_OL, Reg.CH_HG_GAIN_GH, Reg.CH_HG_OFS_OH, Reg.CH_ALIGN_TRIM, Reg.CH_TDC_STATUS_ALIGN_RANGE, List.mem_cons,
      List.not_mem_nil, or_false]
    omega
  have hapart (k : Nat) (hk : k ∈ (Reg.CH_STATUS_CAL_ACTIVE n).key :: judgeKeys n) :
      k ∉ [(Reg.CH_TRG_STATUS_FILLED n).key, Reg.CH_CAL_STATUS_FG_DONE.key] := by
    simp only [judgeKeys, Fld.key, Reg.CH_STATUS_CAL_ACTIVE, Reg.CH_STATUS_CAL_FAIL, Reg.CH_CAL_STATUS_FAIL_QUADS, Reg.CH_LG_GAIN_GL,
      Reg.CH_LG_OFS_OL, Reg.CH_HG_GAIN_GH, Reg.CH_HG_OFS_OH, Reg.CH_ALIGN_TRIM, Reg.CH_TDC_STATUS_ALIGN_RANGE, Reg.CH_TRG_STATUS_FILLED,
      Reg.CH_CAL_STATUS_FG_DONE, List.mem_cons, List.not_mem_nil, or_false] at hk ⊢
    omega
  refine ⟨?_, fun hon => hacq ?_, hbefore.trans (hend.mono (by simp [calEndKeys])), houtcome, hforce, fun f hf => ?_⟩
  · have htalk := hlow (Reg.CH_STATUS_CAL_ACTIVE n) (by simp [calEndKeys])
    rw [hend.regs _ (hapart _ (.head _)) htalk, hjudge.regs _ hactive htalk, hzero]
  · rw [chanIsOn_of_regsKeep hn hbefore.regs, hon]
  · exact hend.regs _ (hapart _ (.tail _ hf)) (hlow f (judgeKeys_subset n _ hf))

/-- FG_CAL_DONE of one channel whose 160 ms have passed. -/
theorem exec_fgCalDone {s : State} {r : CalResult} {f : Nat} (hn : r.n < 48) (hup : s.dev.up = true) (hcal : (s.dev.chan r.n).calFn = some f)
    (hdue : f + 160000 ≤ s.dev.fn) : exec (.fgCalDone [r]) s = .next { s with dev := (s.dev.calEnd r).fgDone } := by
  show onDev (fun d => d.fgCalDone [r]) s = _
  simp [onDev, Dev.fgCalDone, hup, hcal, hn, fgFrames, hdue]

theorem fgCalStart_all_spec {s : State} {r : Nat} (hup : s.dev.up = true) (hrole : s.dev.role = .frontEnd) (hdue : s.dev.acq.fgDue = some r)
    (hwait : r + 1000 * s.dev.get Reg.CH_CAL_CTRL_FG_WAIT ≤ s.dev.fn) :
    Answers (.fgCalStart none) s fun t =>
      t.dev.acq.fgBoot = (List.range 48).filter s.dev.chanIsOn ∧ t.dev.acq.fgDue = none ∧ t.dev.acq.fgFn = some s.dev.fn
      ∧ (∀ n : Nat, n < 48 → s.dev.chanIsOn n = true →
          t.dev.get (Reg.CH_STATUS_CAL_ACTIVE n) = 1 ∧ (t.dev.chan n).calFn = some s.dev.fn ∧ (t.dev.chan n).acquiring = false)
      ∧ (∀ n : Nat, s.dev.chanIsOn n = false →
          t.dev.chan n = s.dev.chan n ∧ t.dev.get (Reg.CH_STATUS_CAL_ACTIVE n) = s.dev.get (Reg.CH_STATUS_CAL_ACTIVE n))
      ∧ t = { s with dev := { s.dev with regs := t.dev.regs, acq := t.dev.acq } } := by
  obtain ⟨hin, hout, hwork⟩ := calBegin_all_spec ((List.range 48).filter s.dev.chanIsOn) s.dev
  refine ⟨_, exec_fgCalStart_all hup hrole hdue hwait, rfl, rfl, rfl, fun n hn hon => ?_, fun n hoff => ?_, ?_⟩
  · exact hin n (List.mem_filter.2 ⟨List.mem_range.2 hn, hon⟩)
  · exact hout n fun hmem => by simp [hoff] at hmem
  · exact congrArg (fun d : Dev => { s with dev := d }) (hwork.fgBegun _ _)

theorem fgCalStart_one_spec {s : State} {n r : Nat} (hn : n < 48) (hup : s.dev.up = true) (hrole : s.dev.role = .frontEnd)
    (hdue : (s.dev.chan n).fgDue = some r) (hwait : r + 1000 * s.dev.laterWait ≤ s.dev.fn) (hon : s.dev.chanIsOn n = true)
    (hidle : s.dev.flag (Reg.CH_STATUS_CAL_ACTIVE n) = false) :
    Answers (.fgCalStart (some n)) s fun t =>
      t.dev.get (Reg.CH_STATUS_CAL_ACTIVE n) = 1 ∧ (t.dev.chan n).calFn = some s.dev.fn ∧ (t.dev.chan n).fgDue = none
      ∧ (t.dev.chan n).acquiring = false ∧ (∀ m : Nat, m ≠ n → t.dev.chan m = s.dev.chan m)
      ∧ t = { s with dev := { s.dev with regs := t.dev.regs, acq := { s.dev.acq with chans := t.dev.acq.chans, fstats := t.dev.acq.fstats } } }
      ∧ RegsKeepAll (calBeginKeys n) s.dev t.dev := by
  obtain ⟨hactive, ⟨hcalFn, hnone, hacq⟩, hothers, hwork, hregs⟩ := calBegin_spec s.dev n
  exact ⟨_, exec_fgCalStart_one hn hup hrole hdue hwait hon hidle, hactive, hcalFn, hnone, hacq, hothers,
    congrArg (fun d : Dev => { s with dev := d }) hwork, hregs⟩

/-- Accepted results are the factors in force and the ones read. -/
theorem calEnd_accepted {d t : Dev} {r : CalResult} (hn : r.n < 48) (hok : calOk r = true) (ht : t = (d.calEnd r).fgDone) :
    t.eff (Reg.CH_LG_GAIN_GL r.n) = r.gl ∧ t.get (Reg.CH_LG_GAIN_GL r.n) = r.gl ∧ t.effI (Reg.CH_LG_OFS_OL r.n) = r.ol
    ∧ t.eff (Reg.CH_HG_GAIN_GH r.n) = r.gh ∧ t.effI (Reg.CH_HG_OFS_OH r.n) = r.oh
    ∧ (t.chan r.n).calOutcome = (none, false, false, some r.ds, r.low, r.high, r.disc) := by
  rw [calEnd_of_calOk hok] at ht
  obtain ⟨-, hcleared, -, -⟩ := calClear_spec d r.n
  obtain ⟨hfactors, houtcome, hjudge⟩ := acceptCal_spec (d.calClear r.n) hn
  obtain ⟨-, -, -, hkept, hforce, hget⟩ := calEnd_of_judged hn hjudge ht
  have heff (p : Fld × Nat) (hp : p ∈ factors r) : t.eff p.1 = p.2 % 2 ^ p.1.width :=
    (eff_eq_of_force (factors_sync r p hp) hforce).trans (hfactors p hp).2
  have hget' (p : Fld × Nat) (hp : p ∈ factors r) (hkey : p.1.key ∈ judgeKeys r.n) : t.get p.1 = p.2 % 2 ^ p.1.width :=
    (hget p.1 hkey).trans (hfactors p hp).1
  simp only [calOk, Bool.and_eq_true] at hok
  obtain ⟨⟨⟨⟨⟨hgl, hgh⟩, hol⟩, hoh⟩, -⟩, -⟩ := hok
  refine ⟨?_, ?_, ?_, ?_, ?_, ?_⟩
  · exact (heff _ (.head _)).trans (gain_mod_of_gainOk hgl)
  · exact (hget' _ (.head _) (by simp [judgeKeys])).trans (gain_mod_of_gainOk hgl)
  · exact (congrArg (toSigned 20) (heff _ (.tail _ (.head _)))).trans (toSigned_ofSigned_of_ofsOk hol)
  · exact (heff _ (.tail _ (.tail _ (.head _)))).trans (gain_mod_of_gainOk hgh)
  · exact (congrArg (toSigned 20) (heff _ (.tail _ (.tail _ (.tail _ (.head _)))))).trans (toSigned_ofSigned_of_ofsOk hoh)
  · rw [hkept, houtcome, hcleared]

/-- Refused results leave every factor as it was and show the failure. -/
theorem calEnd_refused {d t : Dev} {r : CalResult} (hn : r.n < 48) (hbad : calOk r = false) (ht : t = (d.calEnd r).fgDone) :
    t.force = d.force ∧ t.get (Reg.CH_STATUS_CAL_FAIL r.n) = 1 ∧ bitOf (t.get Reg.CH_CAL_STATUS_FAIL_QUADS) (r.n / 4) = true
    ∧ (t.chan r.n).calOutcome = { d.chan r.n with calFn := none, calFailed := true }.calOutcome := by
  rw [calEnd_of_not_calOk hbad] at ht
  obtain ⟨-, hcleared, hsame, -⟩ := calClear_spec d r.n
  obtain ⟨hfail, hquad, houtcome, hsame', hjudge⟩ := rejectCal_spec (d.calClear r.n) hn
  obtain ⟨-, -, -, hkept, hforce, hget⟩ := calEnd_of_judged hn hjudge ht
  refine ⟨hforce.trans (hsame'.trans hsame), (hget _ (by simp [judgeKeys])).trans hfail, ?_, ?_⟩
  · rw [hget _ (by simp [judgeKeys]), hquad]
  · rw [hkept, houtcome, hcleared]

/-- Whatever the verdict, the calibration is over, and the channel that is ON acquires again. -/
theorem calEnd_over {d t : Dev} {r : CalResult} (hn : r.n < 48) (ht : t = (d.calEnd r).fgDone) :
    t.get (Reg.CH_STATUS_CAL_ACTIVE r.n) = 0 ∧ (d.chanIsOn r.n = true → (t.chan r.n).acquiring = true)
    ∧ CalStep r.n (calEndKeys r.n) d t := by
  cases hok : calOk r with
  | true =>
    obtain ⟨-, -, hjudge⟩ := acceptCal_spec (d.calClear r.n) hn
    obtain ⟨hactive, hacq, hstep, -⟩ := calEnd_of_judged hn hjudge (calEnd_of_calOk hok ▸ ht)
    exact ⟨hactive, hacq, hstep⟩
  | false =>
    obtain ⟨-, -, -, -, hjudge⟩ := rejectCal_spec (d.calClear r.n) hn
    obtain ⟨hactive, hacq, hstep, -⟩ := calEnd_of_judged hn hjudge (calEnd_of_not_calOk hok ▸ ht)
    exact ⟨hactive, hacq, hstep⟩

/-- Settles O22: a begin is a stop of each channel it names, an end the verdict on the results between the clearing of CAL_ACTIVE and the start. -/
theorem foregroundCalibration : Obligations.ForegroundCalibration := by
  refine ⟨⟨fun r s => fgCalStart_all_spec, fun n r s hn => fgCalStart_one_spec hn⟩, fun r f s hn hup hcal hdue => ?_⟩
  refine ⟨_, exec_fgCalDone hn hup hcal hdue, ?_⟩
  obtain ⟨t, ht⟩ : ∃ t, t = (s.dev.calEnd r).fgDone := ⟨_, rfl⟩
  rw [← ht]
  obtain ⟨hactive, hacq, hwork, hregs, hothers⟩ := calEnd_over hn ht
  have hover : (t.chan r.n).calFn = none := by
    cases hok : calOk r with
    | true =>
      obtain ⟨-, -, -, -, -, houtcome⟩ := calEnd_accepted hn hok ht
      exact congrArg Prod.fst houtcome
    | false =>
      obtain ⟨-, -, -, houtcome⟩ := calEnd_refused hn hok ht
      exact congrArg Prod.fst houtcome
  refine ⟨hactive, hover, hacq, fun hok => ?_, fun hbad => ?_, hothers, congrArg (fun d : Dev => { s with dev := d }) hwork, hregs⟩
  · obtain ⟨hgl, hgl', hol, hgh, hoh, houtcome⟩ := calEnd_accepted hn hok ht
    simp only [Chan.calOutcome, Prod.mk.injEq] at houtcome
    obtain ⟨-, hnominal, hfailed, hds, hlow, hhigh, hdisc⟩ := houtcome
    exact ⟨hgl, hgl', hol, hgh, hoh, hnominal, hfailed, hds, hlow, hhigh, hdisc⟩
  · obtain ⟨hforce, hfail, hquad, houtcome⟩ := calEnd_refused hn hbad ht
    simp only [Chan.calOutcome, Prod.mk.injEq] at houtcome
    obtain ⟨-, hnominal, hfailed, hds, hlow, hhigh, hdisc⟩ := houtcome
    exact ⟨hforce, hfail, hquad, hfailed, hnominal, hds, hlow, hhigh, hdisc⟩

end Sys2Proof.Machine
end

section
/-! PROOF. Requests of a rotation and the end of a background slot; O23 from them. -/
namespace Sys2Proof.Machine
open Sys2Proof.Safety

/-! ### A rotation is asked for, or dropped (R107) -/

/-- RECAL_START writes the mask and FORCE. -/
def recalFields (q : Nat) (force : Bool) : List (Fld × Nat) := [(Reg.CH_CAL_CTRL_QUAD_MASK, q), (Reg.CH_CAL_CTRL_FORCE, b2n force)]

/-- A START is refused while a rotation runs or waits, and under throttle. -/
def Dev.refusesRecal (d : Dev) : Bool := d.rotBusy || d.pw.throttle

theorem refusesRecal_iff (d : Dev) :
    d.refusesRecal = true
      ↔ d.flag Reg.CH_CAL_STATUS_ROT_ACTIVE = true ∨ d.acq.rotReq.isSome = true ∨ d.pw.throttle = true := by
  simp only [Dev.refusesRecal, Dev.rotBusy, Bool.or_eq_true, or_assoc]

theorem recalStart_of_refused {d : Dev} (h : d.refusesRecal = true) (q : Nat) (force : Bool) :
    d.recalStart q force = d.setB Reg.CH_CAL_STATUS_CAL_REFUSED true := if_pos h

theorem recalStart_of_free {d : Dev} (h : d.refusesRecal = false) (q : Nat) (force : Bool) :
    d.recalStart q force = { d with acq := { d.acq with rotReq := some (q, force) } } := by
  unfold Dev.recalStart
  exact if_neg (by rw [← Dev.refusesRecal, h]; decide)

/-- The mask and FORCE do not bear on the refusal. -/
theorem refusesRecal_recalFields (d : Dev) (q : Nat) (force : Bool) : (d.setAll (recalFields q force)).refusesRecal = d.refusesRecal := by
  have hactive : (d.setAll (recalFields q force)).get Reg.CH_CAL_STATUS_ROT_ACTIVE = d.get Reg.CH_CAL_STATUS_ROT_ACTIVE :=
    get_setAll_ne fun p hp => by
      rcases List.mem_pair.1 hp with rfl | rfl
      · exact (by decide : Reg.CH_CAL_STATUS_ROT_ACTIVE.key ≠ Reg.CH_CAL_CTRL_QUAD_MASK.key)
      · exact (by decide : Reg.CH_CAL_STATUS_ROT_ACTIVE.key ≠ Reg.CH_CAL_CTRL_FORCE.key)
  unfold Dev.refusesRecal Dev.rotBusy Dev.flag
  rw [hactive, setAll_regs]

theorem exec_recalStart {src : Source} {s : State} (hp : Passes s.dev src 0x2C00) (hrole : s.dev.role = .frontEnd) (q : Nat) (force : Bool) :
    exec (.recalStart src q force) s
      = .next { s with dev := (s.dev.setAll (recalFields q force)).recalStart (q % 4096) force } := by
  refine congrArg (fun d : Dev => Host.Outcome.next { s with dev := d }) ((gated_of_passes hp _).trans ?_)
  rw [hrole]
  rfl

theorem get_recalFields {d : Dev} {q : Nat} {force : Bool} {f : Fld} {v : Nat} (hf : (f, v) ∈ recalFields q force) :
    (d.setAll (recalFields q force)).get f = v % 2 ^ f.width :=
  get_setAll_of_mem (fs := [Reg.CH_CAL_CTRL_QUAD_MASK, Reg.CH_CAL_CTRL_FORCE]) rfl (by decide) hf

theorem flag_of_b2n {d : Dev} {f : Fld} {b : Bool} (h : d.get f = b2n b % 2) : d.flag f = b := by
  rw [Dev.flag, h]
  cases b <;> rfl

/-- A START that waits: mask, FORCE and the request. -/
theorem recalStart_taken_spec {d t : Dev} {q : Nat} {force : Bool} (h : d.refusesRecal = false)
    (ht : t = (d.setAll (recalFields q force)).recalStart (q % 4096) force) :
    t.get Reg.CH_CAL_CTRL_QUAD_MASK = q % 4096 ∧ t.flag Reg.CH_CAL_CTRL_FORCE = force
    ∧ t.acq = { d.acq with rotReq := some (q % 4096, force) } ∧ t = { d with regs := t.regs, acq := t.acq }
    ∧ RegsKeepAll [Reg.CH_CAL_CTRL_QUAD_MASK.key, Reg.CH_CAL_CTRL_FORCE.key] d t := by
  rw [recalStart_of_free ((refusesRecal_recalFields d q force).trans h)] at ht
  have hstore : t.regs = (d.setAll (recalFields q force)).regs := by rw [ht]
  have hget (f : Fld) : t.get f = (d.setAll (recalFields q force)).get f := by rw [Dev.get, Dev.get, hstore]
  have hwritten := setAll_regs d (recalFields q force)
  refine ⟨(hget _).trans (get_recalFields (.head _)), flag_of_b2n ((hget _).trans (get_recalFields (.tail _ (.head _)))), ?_, ?_,
    fun f hf => (hget f).trans (regsKeepAll_setAll (d := d) (l := recalFields q force) rfl f hf)⟩
  · rw [ht, hwritten]
  · rw [ht, hwritten]

/-- A START that is refused: mask, FORCE and CAL_REFUSED. -/
theorem recalStart_refused_spec {d t : Dev} {q : Nat} {force : Bool} (h : d.refusesRecal = true)
    (ht : t = (d.setAll (recalFields q force)).recalStart (q % 4096) force) :
    t.get Reg.CH_CAL_CTRL_QUAD_MASK = q % 4096 ∧ t.flag Reg.CH_CAL_CTRL_FORCE = force ∧ t.get Reg.CH_CAL_STATUS_CAL_REFUSED = 1
    ∧ t = { d with regs := t.regs }
    ∧ RegsKeepAll [Reg.CH_CAL_CTRL_QUAD_MASK.key, Reg.CH_CAL_CTRL_FORCE.key, Reg.CH_CAL_STATUS_CAL_REFUSED.key] d t := by
  have hall : t = d.setAll (recalFields q force ++ [(Reg.CH_CAL_STATUS_CAL_REFUSED, 1)]) := by
    rw [ht, recalStart_of_refused ((refusesRecal_recalFields d q force).trans h)]
    rfl
  have reads {f : Fld} {v : Nat} (hf : (f, v) ∈ recalFields q force ++ [(Reg.CH_CAL_STATUS_CAL_REFUSED, 1)]) : t.get f = v % 2 ^ f.width := by
    rw [hall]
    exact get_setAll_of_mem (fs := [Reg.CH_CAL_CTRL_QUAD_MASK, Reg.CH_CAL_CTRL_FORCE, Reg.CH_CAL_STATUS_CAL_REFUSED]) rfl (by decide) hf
  refine ⟨reads (.head _), flag_of_b2n (reads (.tail _ (.head _))), reads (.tail _ (.tail _ (.head _))), ?_, ?_⟩
  · rw [hall]
    exact setAll_regs _ _
  · rw [hall]
    exact regsKeepAll_setAll rfl

theorem recalStart_spec {src : Source} {q : Nat} {force : Bool} {s : State} (hp : Passes s.dev src 0x2C00) (hrole : s.dev.role = .frontEnd) :
    Answers (.recalStart src q force) s fun t =>
      t.dev.get Reg.CH_CAL_CTRL_QUAD_MASK = q % 4096 ∧ t.dev.flag Reg.CH_CAL_CTRL_FORCE = force
      ∧ (s.dev.refusesRecal = true → t.dev.get Reg.CH_CAL_STATUS_CAL_REFUSED = 1 ∧ t.dev.acq = s.dev.acq)
      ∧ (s.dev.refusesRecal = false →
          t.dev.get Reg.CH_CAL_STATUS_CAL_REFUSED = s.dev.get Reg.CH_CAL_STATUS_CAL_REFUSED
          ∧ t.dev.acq = { s.dev.acq with rotReq := some (q % 4096, force) })
      ∧ t = { s with dev := { s.dev with regs := t.dev.regs, acq := t.dev.acq } }
      ∧ RegsKeepAll [Reg.CH_CAL_CTRL_QUAD_MASK.key, Reg.CH_CAL_CTRL_FORCE.key, Reg.CH_CAL_STATUS_CAL_REFUSED.key] s.dev t.dev := by
  obtain ⟨t, ht⟩ : ∃ t, t = (s.dev.setAll (recalFields q force)).recalStart (q % 4096) force := ⟨_, rfl⟩
  refine ⟨_, ht ▸ exec_recalStart hp hrole q force, ?_⟩
  cases hbusy : s.dev.refusesRecal with
  | true =>
    obtain ⟨hmask, hforce, hrefused, hdev, hregs⟩ := recalStart_refused_spec hbusy ht
    have hacq : t.acq = s.dev.acq := by rw [hdev]
    exact ⟨hmask, hforce, fun _ => ⟨hrefused, hacq⟩, fun h => absurd h (by decide),
      congrArg (fun d : Dev => { s with dev := d }) (hdev.trans (by rw [hacq])), hregs⟩
  | false =>
    obtain ⟨hmask, hforce, hacq, hdev, hregs⟩ := recalStart_taken_spec hbusy ht
    exact ⟨hmask, hforce, fun h => absurd h (by decide), fun _ => ⟨hregs _ (by decide), hacq⟩,
      congrArg (fun d : Dev => { s with dev := d }) hdev, regsKeepAll_mono hregs fun k hk => List.mem_append_left _ hk⟩

theorem exec_recalAbort {src : Source} {s : State} (hp : Passes s.dev src 0x2C00) (hrole : s.dev.role = .frontEnd) :
    exec (.recalAbort src) s = .next { s with dev := { s.dev with acq := { s.dev.acq with rot := [], rotReq := none } } } := by
  refine congrArg (fun d : Dev => Host.Outcome.next { s with dev := d }) ((gated_of_passes hp _).trans ?_)
  rw [hrole]
  rfl

/-! ### The end of a background slot (R108) -/

/-- The channel with the rotation of its high-gain or low-gain converter at `b`. -/
def Chan.withBg (high : Bool) (b : Bg) (c : Chan) : Chan := if high then { c with bgH := b } else { c with bgL := b }

/-- The sub-converter is taken for the next boundary, with the factors of the low-gain converter. -/
def Chan.swapDue (high : Bool) (b : Bg) (gl : Nat) (ol : Int) (sub : SubCal) (c : Chan) : Chan :=
  if high then { c with bgH := { b with swap := some sub } } else { c with bgL := { b with swap := some sub }, pendBg := some (gl, ol) }

/-- Background rotation runs, and the slot of `b` ends with the present frame. -/
def Dev.slotEnds (d : Dev) (n : Nat) (b : Bg) : Bool :=
  d.up && d.flag Reg.CH_CAL_STATUS_FG_DONE && d.flag Reg.CH_BG_CFG_BG_EN && !d.pw.throttle && (d.chan n).acquiring
    && decide (b.slotFn + d.slotFrames ≤ d.fn + 1) && b.swap.isNone

theorem satSigned_of_fits {ol : Int} (h : ol.natAbs < 2 ^ 19) : satSigned 20 ol = ol := by
  unfold satSigned
  omega

theorem bgCalSwap_agrees {d : Dev} {n gl : Nat} {high : Bool} {diff ol : Int} {b : Bg} (sub : SubCal)
    (hb : b = if high then (d.chan n).bgH else (d.chan n).bgL) (hend : d.slotEnds n b = true) (hgl : gl < 2 ^ 24) (hol : ol.natAbs < 2 ^ 19)
    (hdiff : diff.natAbs ≤ 4) : d.bgCalSwap n high diff gl ol sub = d.updChan n (Chan.swapDue high b gl ol sub) := by
  subst hb
  unfold Dev.bgCalSwap
  refine (if_pos hend).trans ((if_pos hdiff).trans ?_)
  rw [satSigned_of_fits hol, Nat.mod_eq_of_lt (b := 16777216) hgl]
  cases high <;> rfl

theorem bgCalSwap_rejects {d : Dev} {n : Nat} {high : Bool} {diff : Int} {b : Bg} (gl : Nat) (ol : Int) (sub : SubCal)
    (hb : b = if high then (d.chan n).bgH else (d.chan n).bgL) (hend : d.slotEnds n b = true) (hdiff : 4 < diff.natAbs) :
    d.bgCalSwap n high diff gl ol sub
      = ((d.updChan n (Chan.withBg high { b with slotFn := d.fn + 1 })).set (Reg.CH_STATUS_BG_REJECT n) 1).acqEvent 3 n := by
  subst hb
  unfold Dev.bgCalSwap
  exact (if_pos hend).trans (if_neg (by omega))

/-- What raises an event over changed registers and channels changes nothing else but what an event may. -/
theorem eq_talked_chans {d e t : Dev} (he : e = { d with regs := e.regs, acq := { d.acq with chans := e.acq.chans } }) (ht : Talks e t) :
    t = { talked d t with acq := { d.acq with chans := t.acq.chans } } := by
  rw [ht.1, he]
  rfl

/-- A rejected swap leaves the channel at `c`, shows BG_REJECT and raises an event. -/
theorem bgReject_spec (d : Dev) {n : Nat} (hn : n < 48) (c : Chan) :
    let t := ((d.setChan n c).set (Reg.CH_STATUS_BG_REJECT n) 1).acqEvent 3 n
    t.get (Reg.CH_STATUS_BG_REJECT n) = 1 ∧ t.chan n = c ∧ (∀ m, m ≠ n → t.chan m = d.chan m)
    ∧ t = { talked d t with acq := { d.acq with chans := t.acq.chans } } ∧ RegsKeep [(Reg.CH_STATUS_BG_REJECT n).key] d t := by
  have hwork : (d.setChan n c).set (Reg.CH_STATUS_BG_REJECT n) 1 = { d with
      regs := ((d.setChan n c).set (Reg.CH_STATUS_BG_REJECT n) 1).regs
      acq := { d.acq with chans := ((d.setChan n c).set (Reg.CH_STATUS_BG_REJECT n) 1).acq.chans } } := rfl
  have hkey : ¬ countsTalk (Reg.CH_STATUS_BG_REJECT n).key := notTalk_below_compression (by
    simp only [Fld.key, Reg.CH_STATUS_BG_REJECT]
    omega)
  have htalks := raiseOpen_talks ((d.setChan n c).set (Reg.CH_STATUS_BG_REJECT n) 1) 2 3 [n]
  refine ⟨?_, ?_, fun m hm => ?_, eq_talked_chans hwork htalks, regsKeep_trans (regsKeep_set (d.setChan n c) _ 1) (htalks.keep _)⟩
  · exact (Dev.raiseOpen_get _ _ _ _ hkey).trans (Dev.get_set_same _ _ _)
  · exact (Dev.raiseOpen_chan _ _ _ _ _).trans (d.chan_setChan_same n c)
  · exact (Dev.raiseOpen_chan _ _ _ _ _).trans ((d.chan_setChan n m c).trans (if_neg hm))

theorem exec_bgCalSwap {n : Nat} (hn : n < 48) (high : Bool) (diff : Int) (gl : Nat) (ol : Int) (sub : SubCal) (s : State) :
    exec (.bgCalSwap n high diff gl ol sub) s = .next { s with dev := s.dev.bgCalSwap n high diff gl ol sub } := onUnit_of_lt hn _ s

theorem bgCalSwap_spec {n gl : Nat} {high : Bool} {diff ol : Int} {sub : SubCal} {b : Bg} {s : State} (hn : n < 48)
    (hgl : gl < 2 ^ 24) (hol : ol.natAbs < 2 ^ 19) (hb : b = if high then (s.dev.chan n).bgH else (s.dev.chan n).bgL)
    (hend : s.dev.slotEnds n b = true) :
    Answers (.bgCalSwap n high diff gl ol sub) s fun t =>
      (diff.natAbs ≤ 4 → t.dev.chan n = (s.dev.chan n).swapDue high b gl ol sub
        ∧ t.dev = { s.dev with acq := { s.dev.acq with chans := t.dev.acq.chans } })
      ∧ (4 < diff.natAbs → t.dev.get (Reg.CH_STATUS_BG_REJECT n) = 1
        ∧ t.dev.chan n = (s.dev.chan n).withBg high { b with slotFn := s.dev.fn + 1 })
      ∧ (∀ m : Nat, m ≠ n → t.dev.chan m = s.dev.chan m)
      ∧ t = { s with dev := { talked s.dev t.dev with acq := { s.dev.acq with chans := t.dev.acq.chans } } }
      ∧ RegsKeep [(Reg.CH_STATUS_BG_REJECT n).key] s.dev t.dev := by
  refine ⟨_, exec_bgCalSwap hn high diff gl ol sub s, ?_⟩
  by_cases hdiff : diff.natAbs ≤ 4
  · rw [bgCalSwap_agrees sub hb hend hgl hol hdiff]
    exact ⟨fun _ => ⟨s.dev.chan_setChan_same n _, rfl⟩, fun h => absurd hdiff (by omega),
      fun m hm => (s.dev.chan_setChan n m _).trans (if_neg hm), rfl, fun _ _ _ => rfl⟩
  · rw [bgCalSwap_rejects gl ol sub hb hend (by omega)]
    obtain ⟨hreject, hchan, hothers, hframe, hregs⟩ := bgReject_spec s.dev hn ((s.dev.chan n).withBg high { b with slotFn := s.dev.fn + 1 })
    exact ⟨fun h => absurd h hdiff, fun _ => ⟨hreject, hchan⟩, hothers, congrArg (fun d : Dev => { s with dev := d }) hframe, hregs⟩

/-- Settles O23: a START is taken or refused by one condition, an ABORT drops what is to come, and a slot that ends hands its sub-converter over
or has the next slot too. -/
theorem recalibrationRequests : Obligations.RecalibrationRequests := by
  refine ⟨fun src q force s hp hrole => ?_, fun src s => exec_recalAbort,
    fun n high diff gl ol sub b s hn hup hdone hen hthrottle hacq hgl hol hb hslot hswap => ?_⟩
  · simp only [← refusesRecal_iff, Bool.not_eq_true]
    exact recalStart_spec hp hrole
  · have hend : s.dev.slotEnds n b = true := by
      simp only [Dev.slotEnds, Dev.slotFrames, hup, hdone, hen, hthrottle, hacq, hswap, hslot, decide_true, Option.isNone_none, Bool.not_false,
        Bool.and_self]
    obtain ⟨t, ht, hagrees, hrejects, hothers, hframe, hregs⟩ := bgCalSwap_spec (diff := diff) (sub := sub) hn hgl hol hb hend
    refine ⟨t, ht, fun hdiff hhigh => ?_, fun hdiff hlow => ?_, fun hdiff => (hagrees hdiff).2, hrejects, hothers, hframe, hregs⟩
    · subst hhigh
      exact (hagrees hdiff).1
    · subst hlow
      exact (hagrees hdiff).1

end Sys2Proof.Machine
end

section
/-! PROOF. The discriminator: a direction arms, an armed one that EDGE selects fires, and the hit goes to the TDC; O24 from it. -/
namespace Sys2Proof.Machine
open Sys2Proof.Safety

/-! ### The counts of a hit (R152) -/

/-- A hit that is not converted counts as busy, and as unavailable where the TDC cannot stamp at all. -/
def Dev.countHit (d : Dev) (n : Nat) (un free : Bool) : Dev :=
  let d := if un || !free then d.addWrap (Reg.CH_TDC_COUNTS_BUSY n) 1 else d
  if un then d.addWrap (Reg.CH_TDC_COUNTS_UNAVAIL n) 1 else d

theorem countHit_regs (d : Dev) (n : Nat) (un free : Bool) : d.countHit n un free = { d with regs := (d.countHit n un free).regs } := by
  cases un <;> cases free <;> rfl

theorem countHit_counts (d : Dev) (n : Nat) (un free : Bool) :
    (d.countHit n un free).get (Reg.CH_TDC_COUNTS_BUSY n)
        = (if un = true ∨ free = false then (d.get (Reg.CH_TDC_COUNTS_BUSY n) + 1) % 65536 else d.get (Reg.CH_TDC_COUNTS_BUSY n))
    ∧ (d.countHit n un free).get (Reg.CH_TDC_COUNTS_UNAVAIL n)
        = (if un = true then (d.get (Reg.CH_TDC_COUNTS_UNAVAIL n) + 1) % 4096 else d.get (Reg.CH_TDC_COUNTS_UNAVAIL n))
    ∧ RegsKeepAll [(Reg.CH_TDC_COUNTS_BUSY n).key, (Reg.CH_TDC_COUNTS_UNAVAIL n).key] d (d.countHit n un free) := by
  have hne : (Reg.CH_TDC_COUNTS_BUSY n).key ≠ (Reg.CH_TDC_COUNTS_UNAVAIL n).key := by
    simp only [Fld.key, Reg.CH_TDC_COUNTS_BUSY, Reg.CH_TDC_COUNTS_UNAVAIL]
    omega
  cases un with
  | true =>
    have hdo : d.countHit n true free = (d.set (Reg.CH_TDC_COUNTS_BUSY n) (d.get (Reg.CH_TDC_COUNTS_BUSY n) + 1)).set
        (Reg.CH_TDC_COUNTS_UNAVAIL n) (d.get (Reg.CH_TDC_COUNTS_UNAVAIL n) + 1) := by
      rw [← d.get_set_ne hne.symm (d.get (Reg.CH_TDC_COUNTS_BUSY n) + 1)]
      rfl
    rw [hdo, if_pos (.inl rfl), if_pos rfl]
    refine ⟨?_, Dev.get_set_same _ _ _, regsKeepAll_trans (regsKeepAll_set_of_mem (d := d) ?_) (regsKeepAll_set_of_mem ?_)⟩
    · rw [Dev.get_set_ne _ hne]
      exact d.get_set_same _ _
    · simp
    · simp
  | false => cases free with
    | true => exact ⟨rfl, rfl, fun _ _ => rfl⟩
    | false => exact ⟨d.get_set_same _ _, d.get_set_ne hne.symm _, regsKeepAll_set_of_mem (by simp)⟩

/-! ### Arming and firing (R111, R129) -/

/-- The channel with both directions armed as given. -/
def Chan.armed (armR armF : Bool) (c : Chan) : Chan := { c with armR := armR, armF := armF }

/-- Whether the TDC can take a hit at slow edge `j` of cycle `cyc`. -/
def Dev.tdcFree (d : Dev) (n cyc j : Nat) : Bool := d.tdcIdle n (d.edgeCount cyc + j) && d.flag (Reg.CH_TDC_CTRL_TDC_EN n)

/-- The slow edge of a hit. -/
def Dev.hitEdge (d : Dev) (n cyc j : Nat) : Int := d.edge cyc + (if d.flag (Reg.CH_TDC_STATUS_SLOW_LOCK n) then 16384 * (j : Int) else 0)

/-- What becomes of a hit. -/
def Dev.hitState (d : Dev) (n cyc j : Nat) : HitState :=
  if d.tdcUnavail n then .unavail else if d.tdcFree n cyc j then .converting (d.hitEdge n cyc j) else .busy

/-- The hit itself. -/
def Dev.hitAt (d : Dev) (n : Nat) (rising : Bool) (cyc j : Nat) : Hit :=
  let est := d.hitEdge n cyc j - d.pathDelay n
  { rising := rising, est := est, cycFrom := (d.cycleOf est).1, cycTo := (d.cycleOf est).2, st := d.hitState n cyc j }

/-- The channel after a fire. -/
def Dev.fired (d : Dev) (n : Nat) (rising : Bool) (cyc j : Nat) (c : Chan) : Chan :=
  { c with hits := c.hits ++ [d.hitAt n rising cyc j]
           lastE := if !d.tdcUnavail n && d.tdcFree n cyc j then some (d.edgeCount cyc + j) else c.lastE
           armR := c.armR && !rising
           armF := c.armF && rising }

theorem fired_eq (d : Dev) (n : Nat) (rising : Bool) (cyc j : Nat) (c : Chan) :
    d.fired n rising cyc j c
      = { c with
          hits := c.hits ++ [d.hitAt n rising cyc j]
          lastE := if d.tdcUnavail n = false ∧ d.tdcFree n cyc j = true then some (d.edgeCount cyc + j) else c.lastE
          armR := c.armR && !rising
          armF := c.armF && rising } := by
  simp only [Dev.fired, Bool.and_eq_true, Bool.not_eq_true']

theorem discFire_eq (d : Dev) (n : Nat) (rising : Bool) (cyc j : Nat) :
    d.discFire n rising cyc j = (d.countHit n (d.tdcUnavail n) (d.tdcFree n cyc j)).updChan n (d.fired n rising cyc j) := rfl

theorem chan_armed (d : Dev) (n : Nat) (a b : Bool) : (d.updChan n (Chan.armed a b)).chan n = (d.chan n).armed a b := d.chan_setChan_same n _

/-- What decides of a hit does not look at the arming. -/
theorem tdcUnavail_armed (d : Dev) (n : Nat) (a b : Bool) : (d.updChan n (Chan.armed a b)).tdcUnavail n = d.tdcUnavail n := by
  have hlent : (d.updChan n (Chan.armed a b)).lentFull n = d.lentFull n := rfl
  have hlin : ((d.updChan n (Chan.armed a b)).chan n).linDue = (d.chan n).linDue := by rw [chan_armed]; rfl
  have hlock : (d.updChan n (Chan.armed a b)).tdcLocked n = d.tdcLocked n := rfl
  unfold Dev.tdcUnavail
  rw [hlent, hlin, hlock]
  rfl

theorem tdcFree_armed (d : Dev) (n cyc j : Nat) (a b : Bool) : (d.updChan n (Chan.armed a b)).tdcFree n cyc j = d.tdcFree n cyc j := by
  have hlast : ((d.updChan n (Chan.armed a b)).chan n).lastE = (d.chan n).lastE := by rw [chan_armed]; rfl
  unfold Dev.tdcFree Dev.tdcIdle
  rw [hlast]
  rfl

theorem fired_armed (d : Dev) (n : Nat) (rising : Bool) (cyc j : Nat) (a b : Bool) :
    (d.updChan n (Chan.armed a b)).fired n rising cyc j = d.fired n rising cyc j := by
  have hest : (d.updChan n (Chan.armed a b)).hitEdge n cyc j - (d.updChan n (Chan.armed a b)).pathDelay n
      = d.hitEdge n cyc j - d.pathDelay n := rfl
  funext c
  unfold Dev.fired Dev.hitAt Dev.hitState
  rw [tdcUnavail_armed, tdcFree_armed, hest]
  rfl

/-- The direction's arming, and whether EDGE selects it. -/
def Dev.firesFor (d : Dev) (n : Nat) (rising armR armF : Bool) : Bool := (if rising then armR else armF) && d.discOn n rising

/-- DISCRIMINATOR_HIT arms, and then fires or does not. -/
theorem discHit_eq {d : Dev} {n : Nat} {rising armR armF : Bool} {lo hi thr h : Int} (cyc j : Nat) (hup : d.up = true)
    (hrole : d.role = .frontEnd) (hacq : (d.chan n).acquiring = true) (hthr : thr = d.effI (Reg.CH_DISC_THRESH n))
    (hh : h = 4 * d.eff (Reg.CH_DISC_HYST n)) (hR : armR = ((d.chan n).armR || decide (lo < thr - h)))
    (hF : armF = ((d.chan n).armF || decide (thr + h < hi))) :
    d.discHit n rising cyc j lo hi
      = if d.firesFor n rising armR armF = true then (d.updChan n (Chan.armed armR armF)).discFire n rising cyc j
        else d.updChan n (Chan.armed armR armF) := by
  have harm : d.armDisc n lo hi = d.updChan n (Chan.armed armR armF) := by
    subst hthr hh hR hF
    rfl
  have hsel : (d.updChan n (Chan.armed armR armF)).discOn n rising = d.discOn n rising := rfl
  have hguard : (d.up && d.role == .frontEnd && (d.chan n).acquiring) = true := by simp [hup, hrole, hacq]
  unfold Dev.discHit Dev.firesFor
  rw [if_pos hguard, harm]
  dsimp only
  rw [hsel, chan_armed]
  rfl

theorem exec_discriminatorHit {n : Nat} (hn : n < 48) (rising : Bool) (cyc j : Nat) (lo hi : Int) (s : State) :
    exec (.discriminatorHit n rising cyc j lo hi) s = .next { s with dev := s.dev.discHit n rising cyc j lo hi } := onUnit_of_lt hn _ s

/-- A fire from the arming given: its counts and its channel. -/
theorem discFire_armed (d : Dev) (n : Nat) (rising : Bool) (cyc j : Nat) (a b : Bool) :
    (d.updChan n (Chan.armed a b)).discFire n rising cyc j
      = ((d.updChan n (Chan.armed a b)).countHit n (d.tdcUnavail n) (d.tdcFree n cyc j)).updChan n (d.fired n rising cyc j) := by
  rw [discFire_eq, tdcUnavail_armed, tdcFree_armed, fired_armed]

theorem chan_discFire_armed (d : Dev) (n : Nat) (rising : Bool) (cyc j : Nat) (a b : Bool) :
    ((d.updChan n (Chan.armed a b)).discFire n rising cyc j).chan n = d.fired n rising cyc j ((d.chan n).armed a b)
    ∧ ∀ m, m ≠ n → ((d.updChan n (Chan.armed a b)).discFire n rising cyc j).chan m = d.chan m := by
  have hcount (m : Nat) : ((d.updChan n (Chan.armed a b)).countHit n (d.tdcUnavail n) (d.tdcFree n cyc j)).chan m
      = (d.updChan n (Chan.armed a b)).chan m := by
    rw [countHit_regs]; rfl
  rw [discFire_armed]
  refine ⟨?_, fun m hm => ?_⟩
  · rw [Dev.updChan_eq, Dev.chan_setChan_same, hcount, chan_armed]
  · rw [Dev.updChan_eq, Dev.chan_setChan, if_neg hm, hcount, Dev.updChan_eq, Dev.chan_setChan, if_neg hm]

theorem discFire_armed_frame (d : Dev) (n : Nat) (rising : Bool) (cyc j : Nat) (a b : Bool) {t : Dev}
    (ht : t = (d.updChan n (Chan.armed a b)).discFire n rising cyc j) :
    t = { d with regs := t.regs, acq := { d.acq with chans := t.acq.chans } } := by
  rw [discFire_armed, countHit_regs] at ht
  rw [ht]
  rfl

/-- Settles O24: the event arms, and a fire counts by what the TDC can do and appends its hit to the channel. -/
theorem discriminatorHits : Obligations.DiscriminatorHits := by
  intro n cyc j rising lo hi thr h armR armF s hn hup hrole hacq hthr hh hR hF
  have hexec := exec_discriminatorHit hn rising cyc j lo hi s
  rw [discHit_eq cyc j hup hrole hacq hthr hh hR hF, Dev.firesFor, Dev.discOn] at hexec
  refine ⟨fun hfires => ?_, fun hno => ?_⟩
  · rw [if_pos hfires] at hexec
    obtain ⟨hchan, hothers⟩ := chan_discFire_armed s.dev n rising cyc j armR armF
    obtain ⟨hbusy, hunavail, hregs⟩ :=
      countHit_counts (s.dev.updChan n (Chan.armed armR armF)) n (s.dev.tdcUnavail n) (s.dev.tdcFree n cyc j)
    have hget := congrArg Dev.get (discFire_armed s.dev n rising cyc j armR armF)
    have hframe := discFire_armed_frame s.dev n rising cyc j armR armF rfl
    refine ⟨_, hexec, ⟨?_, ?_, ?_⟩, hothers, congrArg (fun d : Dev => { s with dev := d }) hframe, ?_⟩
    · exact hchan.trans (fired_eq _ _ _ _ _ _)
    · exact (congrFun hget _).trans hbusy
    · exact (congrFun hget _).trans hunavail
    · exact fun f hf => (congrFun hget f).trans (hregs f hf)
  · rw [if_neg (by rw [hno]; decide)] at hexec
    exact ⟨_, hexec, chan_armed _ _ _ _, fun m hm => (s.dev.chan_setChan n m _).trans (if_neg hm), rfl⟩

end Sys2Proof.Machine
end

section
/-! PROOF. What an entry of the fault log and a value for the statistics engine can change; the end of a conversion, by its code or by its timeout; O25
from them. -/
namespace Sys2Proof.Machine
open Sys2Proof.Safety

/-! ### An entry of the fault log (R419 to R424) -/

/-- Nothing changes but what an event may, and the fault log with its registers. -/
structure LogStep (d t : Dev) : Prop where
  work : t = { talked d t with flt := t.flt }
  regs : RegsKeep logKeys d t

theorem LogStep.refl (d : Dev) : LogStep d d := ⟨rfl, regsKeep_refl _ d⟩

theorem LogStep.trans {a b c : Dev} (h : LogStep a b) (k : LogStep b c) : LogStep a c :=
  ⟨by rw [k.work, h.work]; rfl, regsKeep_trans h.regs k.regs⟩

theorem LogStep.of_talks {d t : Dev} (h : Talks d t) : LogStep d t := ⟨by rw [h.1]; rfl, h.keep _⟩

theorem LogStep.set {d : Dev} {f : Fld} {v : Nat} (hf : f.key ∈ logKeys) : LogStep d (d.set f v) := ⟨rfl, regsKeep_set_of_mem hf⟩

theorem LogStep.withFlt (d : Dev) (x : Flt) : LogStep d { d with flt := x } := ⟨rfl, fun _ _ _ => rfl⟩

theorem logOverwrite_step (d : Dev) : LogStep d d.logOverwrite := by
  have hcount : LogStep d (d.addWrap Reg.FLT_LOG_OVERWRITES_OVERWRITES 1) := .set (by simp [logKeys])
  unfold Dev.logOverwrite
  dsimp only
  split
  · exact (hcount.trans (.withFlt _ _)).trans (.of_talks (raise_talks _ _ _ _))
  · exact hcount.trans (.withFlt _ _)

theorem setAssays_step (d : Dev) (l : List Assay) : LogStep d (d.setAssays l) :=
  ((LogStep.withFlt d _).trans (.set (by simp [logKeys]))).trans (.set (by simp [logKeys]))

/-- A detected error joins an assay, or writes an entry and raises one. -/
theorem logError_step (d : Dev) (unit kind action : Nat) (beyond : Bool) (detail loc byte count : Nat) :
    LogStep d (d.logError unit kind action beyond detail loc byte count) := by
  have hentry (e : Dev) (s q : Nat) (ws data : List Nat) : LogStep e ((((({ e.setLogSlot s ws with
      flt := { (e.setLogSlot s ws).flt with logSeq := q + 1 } } : Dev).set Reg.FLT_LOG_STATUS_ENTRIES (min 256 (q + 1))).set
        Reg.FLT_LOG_STATUS_NEXT_SEQ (q + 1))).raise 9 1 data) :=
    (((LogStep.withFlt e _).trans (.set (by simp [logKeys]))).trans (.set (by simp [logKeys]))).trans (.of_talks (raise_talks _ _ _ _))
  unfold Dev.logError
  dsimp only
  split
  · split
    · exact .withFlt d _
    · exact .withFlt d _
  · have hroom : LogStep d (if 256 ≤ d.flt.logSeq then d.logOverwrite else d) := by
      split
      · exact logOverwrite_step d
      · exact .refl d
    split
    · exact (hroom.trans (hentry _ _ _ _ _)).trans (.set (by simp [logKeys]))
    · split
      · exact (hroom.trans (hentry _ _ _ _ _)).trans (setAssays_step _ _)
      · exact hroom.trans (hentry _ _ _ _ _)

/-! ### A value for the statistics engine (R141 to R143) -/

/-- The register fields that a value may count in. -/
def statKeys : List Nat := [Reg.TDC_STAT_STATUS_COUNT.key, Reg.TDC_STAT_FLAGS_NEAR.key]

/-- Nothing changes but the engine and its counts. -/
structure StatStep (d t : Dev) : Prop where
  work : t = { d with regs := t.regs, acq := { d.acq with stat := t.acq.stat } }
  regs : RegsKeepAll statKeys d t

theorem StatStep.refl (d : Dev) : StatStep d d := ⟨rfl, fun _ _ => rfl⟩

theorem StatStep.trans {a b c : Dev} (h : StatStep a b) (k : StatStep b c) : StatStep a c :=
  ⟨by rw [k.work, h.work], regsKeepAll_trans h.regs k.regs⟩

theorem StatStep.set {d : Dev} {f : Fld} {v : Nat} (hf : f.key ∈ statKeys) : StatStep d (d.set f v) := ⟨rfl, regsKeepAll_set_of_mem hf⟩

theorem StatStep.withStat (d : Dev) (x : Stat) : StatStep d { d with acq := { d.acq with stat := x } } := ⟨rfl, fun _ _ => rfl⟩

theorem StatStep.chan {d t : Dev} (h : StatStep d t) (m : Nat) : t.chan m = d.chan m := by
  rw [h.work]
  rfl

/-- After a change of one channel, channels and the engine are all that has changed. -/
theorem StatStep.of_updChan {d t : Dev} {n : Nat} {g : Chan → Chan} (h : StatStep (d.updChan n g) t) :
    t = { d with regs := t.regs, acq := { d.acq with chans := t.acq.chans, stat := t.acq.stat } } := by
  rw [h.work]
  rfl

theorem statAdd_step (d : Dev) (x : Int) : StatStep d (d.statAdd x) := by
  unfold Dev.statAdd
  dsimp only
  split
  · exact .refl d
  · split
    · exact ((StatStep.withStat d _).trans (.set (by simp [statKeys]))).trans (.set (by simp [statKeys]))
    · exact (StatStep.withStat d _).trans (.set (by simp [statKeys]))

theorem statPhase_step (d : Dev) (t : Int) : StatStep d (d.statPhase t) := by
  unfold Dev.statPhase
  dsimp only
  split
  · exact (statAdd_step d _).trans (.withStat _ _)
  · exact statAdd_step d _

theorem statHit_of_stopped {d : Dev} (h : d.flag Reg.TDC_STAT_STATUS_RUNNING = false) (n : Nat) (t : Int) : d.statHit n t = d := if_pos h

theorem statHit_step (d : Dev) (n : Nat) (t : Int) : StatStep d (d.statHit n t) := by
  unfold Dev.statHit
  dsimp only
  split
  · exact .refl d
  · split
    · split
      · exact statPhase_step d t
      · exact .refl d
    · exact .withStat d _

/-- In interval mode a hit of the START source waits for its stop. -/
theorem statHit_of_start {d : Dev} {n : Nat} (hrun : d.flag Reg.TDC_STAT_STATUS_RUNNING = true) (hmode : d.flag Reg.TDC_STAT_CTRL_MODE = false)
    (hstart : statSrc (d.get Reg.TDC_STAT_CTRL_START_SRC) = .chan n) (hstop : statSrc (d.get Reg.TDC_STAT_CTRL_STOP_SRC) ≠ .chan n) (t : Int) :
    (d.statHit n t).acq.stat = { d.acq.stat with starts := d.acq.stat.starts ++ [t] } := by
  simp [Dev.statHit, hrun, hmode, hstart, hstop]

/-! ### The end of a conversion (R127, R130) -/

/-- The channel with what became of the hit whose conversion has run longest. -/
def Chan.endOldest (st : HitState) (c : Chan) : Chan := { c with hits := updFirst Hit.running (fun x => { x with st := st }) c.hits }

/-- The instant of a hit by its slow edge and code (R128). -/
def Dev.hitInstant (d : Dev) (n : Nat) (e : Int) (code : Nat) : Int := e - ((d.chan n).tOf code : Int) - d.pathDelay n

theorem convDone_eq {d : Dev} {n code : Nat} {h : Hit} {e : Int} (hcode : code < 128) (hup : d.up = true)
    (hfind : (d.chan n).hits.find? Hit.running = some h) (hst : h.st = .converting e) :
    d.convDone n code = (d.updChan n (Chan.endOldest (.stamped (d.hitInstant n e code)))).statHit n (d.hitInstant n e code) := by
  obtain ⟨rising, est, cycFrom, cycTo, st⟩ := h
  obtain rfl : st = .converting e := hst
  unfold Dev.convDone
  dsimp only
  rw [hfind]
  simp only [hup, hcode, decide_true, Bool.and_self, if_true]
  rfl

theorem exec_tdcConversionDone {n : Nat} (hn : n < 48) (code : Nat) (s : State) :
    exec (.tdcConversionDone n code) s = .next { s with dev := s.dev.convDone n code } := onUnit_of_lt hn _ s

theorem convTimeout_eq {d : Dev} {n : Nat} (hup : d.up = true) (hrun : (d.chan n).hits.any Hit.running = true) :
    d.convTimeout n = (((d.updChan n (Chan.endOldest .busy)).addSat (Reg.CH_TDC_COUNTS_ERR n) 1).addWrap
      (Reg.CH_TDC_COUNTS_BUSY n) 1).logError 5 9 0 false 0 n 0 0 := by
  unfold Dev.convTimeout
  rw [if_pos (by rw [hup, hrun]; rfl)]
  rfl

theorem exec_tdcConversionTimeout {n : Nat} (hn : n < 48) (s : State) :
    exec (.tdcConversionTimeout n) s = .next { s with dev := s.dev.convTimeout n } := onUnit_of_lt hn _ s

/-- The registers of the channels are none of the fault log's, and count no messages. -/
theorem not_logKey_of_lt {k : Nat} (h : k < 0x4000 * 32) : k ∉ logKeys := by
  have hlog : ∀ j ∈ logKeys, 0x4000 * 32 ≤ j := by decide
  exact fun hk => absurd (hlog k hk) (by omega)

/-- A timed-out conversion counts in ERR, which saturates, and in BUSY. -/
theorem countTimeout_spec (d : Dev) (n : Nat) :
    let t := (d.addSat (Reg.CH_TDC_COUNTS_ERR n) 1).addWrap (Reg.CH_TDC_COUNTS_BUSY n) 1
    t.get (Reg.CH_TDC_COUNTS_ERR n) = min (d.get (Reg.CH_TDC_COUNTS_ERR n) + 1) 15
    ∧ t.get (Reg.CH_TDC_COUNTS_BUSY n) = (d.get (Reg.CH_TDC_COUNTS_BUSY n) + 1) % 65536
    ∧ RegsKeepAll [(Reg.CH_TDC_COUNTS_ERR n).key, (Reg.CH_TDC_COUNTS_BUSY n).key] d t := by
  have hne : (Reg.CH_TDC_COUNTS_ERR n).key ≠ (Reg.CH_TDC_COUNTS_BUSY n).key := by
    simp only [Fld.key, Reg.CH_TDC_COUNTS_ERR, Reg.CH_TDC_COUNTS_BUSY]
    omega
  refine ⟨?_, ?_, regsKeepAll_trans (b := d.addSat (Reg.CH_TDC_COUNTS_ERR n) 1) (regsKeepAll_set_of_mem (by simp)) (regsKeepAll_set_of_mem (by simp))⟩
  · have hfits : min (d.get (Reg.CH_TDC_COUNTS_ERR n) + 1) 15 % 16 = min (d.get (Reg.CH_TDC_COUNTS_ERR n) + 1) 15 := by omega
    exact (Dev.get_set_ne _ hne _).trans ((d.get_set_same _ _).trans hfits)
  · refine (Dev.get_set_same _ _ _).trans ?_
    rw [Dev.addSat_eq, Dev.get_set_ne _ hne.symm]
    rfl

theorem tdcConversionDone_spec {n code : Nat} {h : Hit} {e : Int} {s : State} (hn : n < 48) (hcode : code < 128) (hup : s.dev.up = true)
    (hfind : (s.dev.chan n).hits.find? Hit.running = some h) (hst : h.st = .converting e) :
    Answers (.tdcConversionDone n code) s fun t =>
      (t.dev.chan n = (s.dev.chan n).endOldest (.stamped (s.dev.hitInstant n e code))
        ∧ (s.dev.flag Reg.TDC_STAT_STATUS_RUNNING = true → s.dev.flag Reg.TDC_STAT_CTRL_MODE = false →
            statSrc (s.dev.get Reg.TDC_STAT_CTRL_START_SRC) = .chan n → statSrc (s.dev.get Reg.TDC_STAT_CTRL_STOP_SRC) ≠ .chan n →
            t.dev.acq.stat = { s.dev.acq.stat with starts := s.dev.acq.stat.starts ++ [s.dev.hitInstant n e code] }))
      ∧ (∀ m : Nat, m ≠ n → t.dev.chan m = s.dev.chan m)
      ∧ (s.dev.flag Reg.TDC_STAT_STATUS_RUNNING = false → t.dev.regs = s.dev.regs ∧ t.dev.acq.stat = s.dev.acq.stat)
      ∧ t = { s with dev := { s.dev with regs := t.dev.regs, acq := { s.dev.acq with chans := t.dev.acq.chans, stat := t.dev.acq.stat } } }
      ∧ RegsKeepAll statKeys s.dev t.dev := by
  have hexec := exec_tdcConversionDone hn code s
  rw [convDone_eq hcode hup hfind hst] at hexec
  have hstep := statHit_step (s.dev.updChan n (Chan.endOldest (.stamped (s.dev.hitInstant n e code)))) n (s.dev.hitInstant n e code)
  refine ⟨_, hexec, ⟨(hstep.chan n).trans (s.dev.chan_setChan_same n _),
      fun hrun hmode hstart hstop => statHit_of_start (d := s.dev.updChan n _) hrun hmode hstart hstop _⟩,
    fun m hm => (hstep.chan m).trans ((s.dev.chan_setChan n m _).trans (if_neg hm)), fun hstopped => ?_,
    congrArg (fun d : Dev => { s with dev := d }) hstep.of_updChan, hstep.regs⟩
  rw [statHit_of_stopped (d := s.dev.updChan n _) hstopped]
  exact ⟨rfl, rfl⟩

theorem tdcConversionTimeout_spec {n : Nat} {s : State} (hn : n < 48) (hup : s.dev.up = true)
    (hrun : (s.dev.chan n).hits.any Hit.running = true) :
    Answers (.tdcConversionTimeout n) s fun t =>
      t.dev.chan n = (s.dev.chan n).endOldest .busy
      ∧ t.dev.get (Reg.CH_TDC_COUNTS_ERR n) = min (s.dev.get (Reg.CH_TDC_COUNTS_ERR n) + 1) 15
      ∧ t.dev.get (Reg.CH_TDC_COUNTS_BUSY n) = (s.dev.get (Reg.CH_TDC_COUNTS_BUSY n) + 1) % 65536
      ∧ (∀ m : Nat, m ≠ n → t.dev.chan m = s.dev.chan m)
      ∧ t = { s with dev := { talked s.dev t.dev with acq := { s.dev.acq with chans := t.dev.acq.chans }, flt := t.dev.flt } }
      ∧ RegsKeep ((Reg.CH_TDC_COUNTS_ERR n).key :: (Reg.CH_TDC_COUNTS_BUSY n).key :: logKeys) s.dev t.dev := by
  have hlow (f : Fld) (hf : f = Reg.CH_TDC_COUNTS_ERR n ∨ f = Reg.CH_TDC_COUNTS_BUSY n) : f.key < 0x4000 * 32 := by
    rcases hf with rfl | rfl <;> simp only [Fld.key, Reg.CH_TDC_COUNTS_ERR, Reg.CH_TDC_COUNTS_BUSY] <;> omega
  obtain ⟨herr, hbusy, hcounts⟩ := countTimeout_spec (s.dev.updChan n (Chan.endOldest .busy)) n
  obtain ⟨e, he⟩ : ∃ e, e = ((s.dev.updChan n (Chan.endOldest .busy)).addSat (Reg.CH_TDC_COUNTS_ERR n) 1).addWrap
    (Reg.CH_TDC_COUNTS_BUSY n) 1 := ⟨_, rfl⟩
  have hexec := exec_tdcConversionTimeout hn s
  rw [convTimeout_eq hup hrun, ← he] at hexec
  have hstep := logError_step e 5 9 0 false 0 n 0 0
  have hchan (m : Nat) : (e.logError 5 9 0 false 0 n 0 0).chan m = if m = n then (s.dev.chan n).endOldest .busy else s.dev.chan m := by
    rw [hstep.work, ← s.dev.chan_setChan, he]
    rfl
  have hkept (f : Fld) (hf : f = Reg.CH_TDC_COUNTS_ERR n ∨ f = Reg.CH_TDC_COUNTS_BUSY n) :
      (e.logError 5 9 0 false 0 n 0 0).get f = e.get f :=
    hstep.regs f (not_logKey_of_lt (hlow f hf)) (notTalk_below_compression (hlow f hf))
  rw [← he] at herr hbusy hcounts
  refine ⟨_, hexec, (hchan n).trans (if_pos rfl), (hkept _ (.inl rfl)).trans herr, (hkept _ (.inr rfl)).trans hbusy,
    fun m hm => (hchan m).trans (if_neg hm), congrArg (fun d : Dev => { s with dev := d }) ?_, ?_⟩
  · rw [hstep.work, he]
    rfl
  · exact regsKeep_trans (regsKeep_mono (regsKeep_of_regsKeepAll hcounts) (by simp)) (regsKeep_mono hstep.regs fun _ hk => .tail _ (.tail _ hk))

/-- Settles O25: a conversion that ends stamps its hit and hands it to the engine, one that does not makes it busy, counts it and writes the log. -/
theorem conversionsEnd : Obligations.ConversionsEnd :=
  ⟨fun _ _ _ _ _ hn hcode hup hfind hst => tdcConversionDone_spec hn hcode hup hfind hst,
    fun _ _ hn hup hrun => tdcConversionTimeout_spec hn hup hrun⟩

end Sys2Proof.Machine
end

section
/-! PROOF. The locks of a TDC's oscillators: acquired, checked, forced, lost; O26 from them. -/
namespace Sys2Proof.Machine
open Sys2Proof.Safety

/-! ### Steps of one channel's TDC -/

/-- Nothing changes but what an event may, channel `n` and the register fields at `ks`. -/
structure TdcStep (n : Nat) (ks : List Nat) (d t : Dev) : Prop where
  work : t = { talked d t with acq := { d.acq with chans := t.acq.chans } }
  regs : RegsKeep ks d t
  others : ∀ m, m ≠ n → t.chan m = d.chan m

theorem TdcStep.trans {n : Nat} {ks : List Nat} {a b c : Dev} (h : TdcStep n ks a b) (k : TdcStep n ks b c) : TdcStep n ks a c :=
  ⟨by rw [k.work, h.work]; rfl, regsKeep_trans h.regs k.regs, fun m hm => (k.others m hm).trans (h.others m hm)⟩

theorem TdcStep.refl (n : Nat) (ks : List Nat) (d : Dev) : TdcStep n ks d d := ⟨rfl, regsKeep_refl ks d, fun _ _ => rfl⟩

theorem TdcStep.set {n : Nat} {ks : List Nat} {d : Dev} {f : Fld} {v : Nat} (hf : f.key ∈ ks) : TdcStep n ks d (d.set f v) :=
  ⟨rfl, regsKeep_set_of_mem hf, fun _ _ => rfl⟩

theorem TdcStep.updChan (n : Nat) (ks : List Nat) (d : Dev) (g : Chan → Chan) : TdcStep n ks d (d.updChan n g) :=
  ⟨rfl, fun _ _ _ => rfl, fun m hm => (d.chan_setChan n m _).trans (if_neg hm)⟩

theorem TdcStep.tdcEvent (n : Nat) (ks : List Nat) (d : Dev) (cause m : Nat) : TdcStep n ks d (d.tdcEvent cause m) :=
  ⟨by rw [Dev.tdcEvent, (raiseOpen_talks d 3 cause [m]).1]; rfl, (raiseOpen_talks d 3 cause [m]).keep ks,
    fun k _ => Dev.raiseOpen_chan d 3 cause [m] k⟩

theorem chan_updChan_same (d : Dev) (n : Nat) (g : Chan → Chan) : (d.updChan n g).chan n = g (d.chan n) := d.chan_setChan_same n _

theorem chan_tdcEvent (d : Dev) (cause n m : Nat) : (d.tdcEvent cause n).chan m = d.chan m := Dev.raiseOpen_chan d 3 cause [n] m

/-- An event counts in no register below the Compression block. -/
theorem get_tdcEvent {f : Fld} (hf : f.key < 0x4000 * 32) (d : Dev) (cause n : Nat) : (d.tdcEvent cause n).get f = d.get f :=
  Dev.raiseOpen_get d 3 cause [n] (notTalk_below_compression hf)

/-! ### The two locks (R131, R132) -/

/-- SLOW_LOCK or FAST_LOCK of channel `n`. -/
def lockFld (n : Nat) (slow : Bool) : Fld := if slow then Reg.CH_TDC_STATUS_SLOW_LOCK n else Reg.CH_TDC_STATUS_FAST_LOCK n

theorem lockFld_key_lt {n : Nat} (hn : n < 48) (slow : Bool) : (lockFld n slow).key < 0x4000 * 32 := by
  have hslow : (Reg.CH_TDC_STATUS_SLOW_LOCK n).key < 0x4000 * 32 := by
    simp only [Fld.key, Reg.CH_TDC_STATUS_SLOW_LOCK]
    omega
  have hfast : (Reg.CH_TDC_STATUS_FAST_LOCK n).key < 0x4000 * 32 := by
    simp only [Fld.key, Reg.CH_TDC_STATUS_FAST_LOCK]
    omega
  cases slow
  · exact hfast
  · exact hslow

theorem fastLock_key_ne_slowLock (n : Nat) : (Reg.CH_TDC_STATUS_FAST_LOCK n).key ≠ (Reg.CH_TDC_STATUS_SLOW_LOCK n).key := by
  simp [Fld.key, Reg.CH_TDC_STATUS_SLOW_LOCK, Reg.CH_TDC_STATUS_FAST_LOCK]

theorem flag_set_one {d : Dev} {f : Fld} (hw : f.width = 1) : (d.set f 1).flag f = true := by
  simp [Dev.flag, hw]

theorem flag_eq_of_get {d e : Dev} {f : Fld} (h : e.get f = d.get f) : e.flag f = d.flag f := by
  rw [Dev.flag, Dev.flag, h]

/-- The channel with a loss of lock noted, or none. -/
def Chan.withLoss (lost : Bool) (c : Chan) : Chan := { c with lockLost := lost }

/-- Relocking: once both locks are back, no loss is left to make good. -/
theorem relocked_spec (d : Dev) (n : Nat) :
    (d.relocked n).chan n = (d.chan n).withLoss ((d.chan n).lockLost && !d.tdcLocked n)
    ∧ (∀ f : Fld, f.key < 0x4000 * 32 → (d.relocked n).get f = d.get f) ∧ ∀ ks, TdcStep n ks d (d.relocked n) := by
  unfold Dev.relocked
  cases hlost : (d.chan n).lockLost with
  | false => exact ⟨congrArg (Chan.withLoss · (d.chan n)) hlost, fun _ _ => rfl, fun ks => .refl n ks d⟩
  | true => cases d.tdcLocked n with
    | false => exact ⟨congrArg (Chan.withLoss · (d.chan n)) hlost, fun _ _ => rfl, fun ks => .refl n ks d⟩
    | true =>
      exact ⟨(chan_tdcEvent _ _ _ _).trans (chan_updChan_same _ _ _), fun f hf => get_tdcEvent hf _ _ _,
        fun ks => (TdcStep.updChan n ks d _).trans (.tdcEvent n ks _ _ _)⟩

/-- A lock that is lost, and its event. -/
theorem lockLost_spec {d : Dev} {n : Nat} {slow : Bool} (hn : n < 48) (hup : d.up = true) (hlock : d.flag (lockFld n slow) = true)
    (hloss : slow = true ∨ balanced (d.chan n).checks = false) :
    (d.lockLost n slow).get (lockFld n slow) = 0 ∧ (d.lockLost n slow).chan n = (d.chan n).withLoss true
    ∧ TdcStep n [(lockFld n slow).key] d (d.lockLost n slow) := by
  have hdo : d.lockLost n slow = ((d.set (lockFld n slow) 0).updChan n (Chan.withLoss true)).tdcEvent 1 n := by
    unfold Dev.lockLost
    refine if_pos ?_
    rw [hup, Bool.true_and, ← lockFld, hlock]
    rcases hloss with rfl | hloss
    · rfl
    · simp [hloss]
  rw [hdo]
  exact ⟨(get_tdcEvent (lockFld_key_lt hn slow) _ _ _).trans (by rw [Dev.updChan_eq, Dev.get_setChan, Dev.get_set_same, Nat.zero_mod]),
    (chan_tdcEvent _ _ _ _).trans (chan_updChan_same _ _ _),
    ((TdcStep.set (by simp)).trans (.updChan _ _ _ _)).trans (.tdcEvent _ _ _ _ _)⟩

theorem lockLost_of_unlocked {d : Dev} {n : Nat} {slow : Bool} (h : d.flag (lockFld n slow) = false) : d.lockLost n slow = d := by
  unfold Dev.lockLost
  refine if_neg ?_
  rw [← lockFld, h]
  simp

/-! ### SLOW_LOCK_ACQUIRED (R131) -/

theorem exec_slowLockAcquired {n : Nat} (hn : n < 48) (s : State) :
    exec (.slowLockAcquired n) s = .next { s with dev := s.dev.slowLock n } := onUnit_of_lt hn _ s

theorem slowLockAcquired_spec {n : Nat} {s : State} (hn : n < 48) (hup : s.dev.up = true) (hon : s.dev.chanOn n = true)
    (hlock : s.dev.flag (Reg.CH_TDC_STATUS_SLOW_LOCK n) = false) :
    Answers (.slowLockAcquired n) s fun t =>
      t.dev.get (Reg.CH_TDC_STATUS_SLOW_LOCK n) = 1
      ∧ t.dev.chan n = { s.dev.chan n with lockLost := (s.dev.chan n).lockLost && !s.dev.flag (Reg.CH_TDC_STATUS_FAST_LOCK n) }
      ∧ (∀ m : Nat, m ≠ n → t.dev.chan m = s.dev.chan m)
      ∧ t = { s with dev := { talked s.dev t.dev with acq := { s.dev.acq with chans := t.dev.acq.chans } } }
      ∧ RegsKeep [(Reg.CH_TDC_STATUS_SLOW_LOCK n).key] s.dev t.dev := by
  obtain ⟨d, hd⟩ : ∃ d, d = s.dev.set (Reg.CH_TDC_STATUS_SLOW_LOCK n) 1 := ⟨_, rfl⟩
  have hdo : s.dev.slowLock n = d.relocked n := by
    unfold Dev.slowLock
    rw [hd]
    exact if_pos (by rw [hup, hon, hlock]; rfl)
  have hfast : d.tdcLocked n = s.dev.flag (Reg.CH_TDC_STATUS_FAST_LOCK n) := by
    have hslow : d.flag (Reg.CH_TDC_STATUS_SLOW_LOCK n) = true := by
      rw [hd]
      exact flag_set_one rfl
    have hkept : d.get (Reg.CH_TDC_STATUS_FAST_LOCK n) = s.dev.get (Reg.CH_TDC_STATUS_FAST_LOCK n) := by
      rw [hd]
      exact Dev.get_set_ne _ (fastLock_key_ne_slowLock n) _
    rw [Dev.tdcLocked, hslow, Bool.true_and, flag_eq_of_get hkept]
  obtain ⟨hchan, hget, hstep⟩ := relocked_spec d n
  have hall : TdcStep n [(Reg.CH_TDC_STATUS_SLOW_LOCK n).key] s.dev (d.relocked n) := by
    refine .trans ?_ (hstep _)
    rw [hd]
    exact .set (by simp)
  have hexec := exec_slowLockAcquired hn s
  rw [hdo] at hexec
  refine ⟨_, hexec, (hget _ (lockFld_key_lt hn true)).trans ?_, hchan.trans ?_, hall.others,
    congrArg (fun d : Dev => { s with dev := d }) hall.work, hall.regs⟩
  · rw [hd]
    exact Dev.get_set_same _ _ _
  · rw [hfast, hd]
    rfl

/-! ### A lock check (R131) -/

/-- The last 64 outcomes, the newest first. -/
def Chan.outcomes (early : Bool) (c : Chan) : List Bool := (early :: c.checks).take 64

/-- The channel after a check at slow-edge count `count` of frame `fn`. -/
def Chan.checked (early : Bool) (fn : Nat) (count : Int) (c : Chan) : Chan :=
  { c with checks := c.outcomes early, lastCheck := fn, checkE := some count, dac := if early then c.dac + 1 else c.dac - 1 }

theorem balanced_eq (l : List Bool) : balanced l = (decide (24 ≤ l.count true) && decide (24 ≤ l.count false)) := by
  have hneg : (l.filter (!·)).length = l.count false := by
    rw [List.count_eq_countP, List.countP_eq_length_filter]
    congr 2
    funext b
    cases b <;> rfl
  have hpos : (l.filter id).length = l.count true := by
    rw [List.count_eq_countP, List.countP_eq_length_filter]
    congr 2
    funext b
    cases b <;> rfl
  rw [balanced, hpos, hneg]

/-- What the outcomes, balanced or not, make of FAST_LOCK. -/
def Dev.afterOutcome (d : Dev) (n : Nat) (ok was : Bool) : Dev :=
  match ok, was with
  | false, _ => d.lockLost n false
  | true, false => (d.set (Reg.CH_TDC_STATUS_FAST_LOCK n) 1).relocked n
  | true, true => d

theorem lockCheck_eq (d : Dev) (n : Nat) (early : Bool) (count : Int) :
    d.lockCheck n early count
      = (d.updChan n (Chan.checked early d.fn count)).afterOutcome n (balanced ((d.chan n).outcomes early))
          (d.flag (Reg.CH_TDC_STATUS_FAST_LOCK n)) := by
  have hfast : (d.updChan n (Chan.checked early d.fn count)).flag (Reg.CH_TDC_STATUS_FAST_LOCK n)
      = d.flag (Reg.CH_TDC_STATUS_FAST_LOCK n) := rfl
  have hdo : d.lockCheck n early count
      = if (!balanced ((d.chan n).outcomes early)) = true then (d.updChan n (Chan.checked early d.fn count)).lockLost n false
        else if (!d.flag (Reg.CH_TDC_STATUS_FAST_LOCK n)) = true then
          ((d.updChan n (Chan.checked early d.fn count)).set (Reg.CH_TDC_STATUS_FAST_LOCK n) 1).relocked n
        else d.updChan n (Chan.checked early d.fn count) := rfl
  rw [hdo]
  cases balanced ((d.chan n).outcomes early) with
  | false => rfl
  | true => cases d.flag (Reg.CH_TDC_STATUS_FAST_LOCK n) <;> rfl

/-- FAST_LOCK is 1 while the outcomes are balanced; a loss is noted with the lock that goes, and made good with the one that comes. -/
theorem afterOutcome_spec {d : Dev} {n : Nat} {ok was : Bool} (hn : n < 48) (hup : d.up = true)
    (hslow : d.flag (Reg.CH_TDC_STATUS_SLOW_LOCK n) = true) (hok : balanced (d.chan n).checks = ok)
    (hwas : d.flag (Reg.CH_TDC_STATUS_FAST_LOCK n) = was) :
    (d.afterOutcome n ok was).flag (Reg.CH_TDC_STATUS_FAST_LOCK n) = ok
    ∧ (d.afterOutcome n ok was).chan n = (d.chan n).withLoss (if was = ok then (d.chan n).lockLost else was)
    ∧ TdcStep n [(Reg.CH_TDC_STATUS_FAST_LOCK n).key] d (d.afterOutcome n ok was) := by
  cases ok with
  | false => cases was with
    | false =>
      have hdo : d.afterOutcome n false false = d := lockLost_of_unlocked hwas
      rw [hdo]
      exact ⟨hwas, rfl, .refl _ _ d⟩
    | true =>
      obtain ⟨hzero, hlost, hstep⟩ := lockLost_spec (slow := false) hn hup hwas (.inr hok)
      exact ⟨congrArg (· != 0) hzero, hlost, hstep⟩
  | true => cases was with
    | false =>
      obtain ⟨hback, hkept, hstep⟩ := relocked_spec (d.set (Reg.CH_TDC_STATUS_FAST_LOCK n) 1) n
      have hset : (d.set (Reg.CH_TDC_STATUS_FAST_LOCK n) 1).flag (Reg.CH_TDC_STATUS_FAST_LOCK n) = true := flag_set_one rfl
      have hlocked : (d.set (Reg.CH_TDC_STATUS_FAST_LOCK n) 1).tdcLocked n = true := by
        rw [Dev.tdcLocked, hset, Bool.and_true, flag_eq_of_get (d.get_set_ne (fastLock_key_ne_slowLock n).symm 1), hslow]
      rw [hlocked, Bool.not_true, Bool.and_false] at hback
      exact ⟨(flag_eq_of_get (hkept _ (lockFld_key_lt hn false))).trans hset, hback, (TdcStep.set (by simp)).trans (hstep _)⟩
    | true => exact ⟨hwas, rfl, .refl _ _ d⟩

/-- What a check leaves: the outcome noted, and FAST_LOCK as the outcomes say. -/
theorem lockCheck_spec {d : Dev} {n : Nat} {early : Bool} {count : Int} {ok was : Bool} (hn : n < 48) (hup : d.up = true)
    (hslow : d.flag (Reg.CH_TDC_STATUS_SLOW_LOCK n) = true) (hok : balanced ((d.chan n).outcomes early) = ok)
    (hwas : d.flag (Reg.CH_TDC_STATUS_FAST_LOCK n) = was) :
    (d.lockCheck n early count).flag (Reg.CH_TDC_STATUS_FAST_LOCK n) = ok
    ∧ (d.lockCheck n early count).chan n
        = ((d.chan n).checked early d.fn count).withLoss (if was = ok then (d.chan n).lockLost else was)
    ∧ TdcStep n [(Reg.CH_TDC_STATUS_FAST_LOCK n).key] d (d.lockCheck n early count) := by
  have hchan := chan_updChan_same d n (Chan.checked early d.fn count)
  obtain ⟨hflag, hafter, hstep⟩ := afterOutcome_spec (d := d.updChan n (Chan.checked early d.fn count)) hn hup hslow
    ((congrArg (fun c => balanced c.checks) hchan).trans hok) hwas
  rw [lockCheck_eq, hok, hwas]
  refine ⟨hflag, hafter.trans ?_, (TdcStep.updChan n _ d _).trans hstep⟩
  rw [hchan]
  rfl

theorem exec_fastLockCheck {n cyc : Nat} {s : State} (hn : n < 48) (hup : s.dev.up = true) (hon : s.dev.chanOn n = true)
    (hslow : s.dev.flag (Reg.CH_TDC_STATUS_SLOW_LOCK n) = true) (hidle : s.dev.idleFor n (s.dev.edgeCount cyc) = true) (early : Bool) :
    exec (.fastLockCheck n early cyc) s = .next { s with dev := s.dev.lockCheck n early (s.dev.edgeCount cyc) } := by
  refine (onUnit_of_lt hn _ s).trans ?_
  simp only [onDev, hup, hon, hslow, hidle, Bool.and_self, whenD_true]

/-- The channel with its TDC last taken as given. -/
def Chan.taken (e : Option Int) (c : Chan) : Chan := { c with lastE := e }

theorem exec_forcedLockCheck {n : Nat} {s : State} (hn : n < 48) (hup : s.dev.up = true) (hon : s.dev.chanOn n = true)
    (hslow : s.dev.flag (Reg.CH_TDC_STATUS_SLOW_LOCK n) = true) (hdue : (s.dev.chan n).lastCheck + 64 ≤ s.dev.fn) (early : Bool) :
    exec (.forcedLockCheck n early) s = .next { s with dev :=
      (s.dev.lockCheck n early (s.dev.edgeCount 0)).updChan n (Chan.taken (some (s.dev.edgeCount 0))) } := by
  refine (onUnit_of_lt hn _ s).trans ?_
  simp only [onDev, hup, hon, hslow, hdue, decide_true, Bool.and_self, whenD_true]
  rfl

/-- What a check leaves in the channel, with the TDC last taken and the loss noted. -/
def Chan.afterCheck (early : Bool) (fn : Nat) (count : Int) (e : Option Int) (lost : Bool) (c : Chan) : Chan :=
  { c with
    checks := c.outcomes early, lastCheck := fn, checkE := some count, dac := c.dac + (if early then 1 else -1), lastE := e, lockLost := lost }

theorem checked_withLoss_taken (early : Bool) (fn : Nat) (count : Int) (e : Option Int) (lost : Bool) (c : Chan) :
    ((c.checked early fn count).withLoss lost).taken e = c.afterCheck early fn count e lost := by
  cases early <;> rfl

theorem lockChecks_spec {c : Instr} {forced : Bool} {n cyc : Nat} {early : Bool} {s : State} {ok was : Bool} (hn : n < 48)
    (hup : s.dev.up = true) (hon : s.dev.chanOn n = true) (hslow : s.dev.flag (Reg.CH_TDC_STATUS_SLOW_LOCK n) = true)
    (hc : c = .fastLockCheck n early cyc ∧ forced = false ∧ s.dev.idleFor n (s.dev.edgeCount cyc) = true
      ∨ c = .forcedLockCheck n early ∧ forced = true ∧ cyc = 0 ∧ (s.dev.chan n).lastCheck + 64 ≤ s.dev.fn)
    (hok : balanced ((s.dev.chan n).outcomes early) = ok) (hwas : s.dev.flag (Reg.CH_TDC_STATUS_FAST_LOCK n) = was) :
    Answers c s fun t =>
      (t.dev.flag (Reg.CH_TDC_STATUS_FAST_LOCK n) = ok
        ∧ t.dev.chan n = (s.dev.chan n).afterCheck early s.dev.fn (s.dev.edgeCount cyc)
            (if forced then some (s.dev.edgeCount 0) else (s.dev.chan n).lastE) (if was = ok then (s.dev.chan n).lockLost else was))
      ∧ (∀ m : Nat, m ≠ n → t.dev.chan m = s.dev.chan m)
      ∧ t = { s with dev := { talked s.dev t.dev with acq := { s.dev.acq with chans := t.dev.acq.chans } } }
      ∧ RegsKeep [(Reg.CH_TDC_STATUS_FAST_LOCK n).key] s.dev t.dev := by
  obtain ⟨hflag, hchan, hstep⟩ := lockCheck_spec (count := s.dev.edgeCount cyc) hn hup hslow hok hwas
  rcases hc with ⟨rfl, rfl, hidle⟩ | ⟨rfl, rfl, rfl, hdue⟩
  · refine ⟨_, exec_fastLockCheck hn hup hon hslow hidle early, ⟨hflag, hchan.trans ?_⟩, hstep.others,
      congrArg (fun d : Dev => { s with dev := d }) hstep.work, hstep.regs⟩
    rw [← checked_withLoss_taken]
    rfl
  · have hall := hstep.trans (.updChan n _ _ (Chan.taken (some (s.dev.edgeCount 0))))
    refine ⟨_, exec_forcedLockCheck hn hup hon hslow hdue early, ⟨hflag, (chan_updChan_same _ _ _).trans ?_⟩, hall.others,
      congrArg (fun d : Dev => { s with dev := d }) hall.work, hall.regs⟩
    rw [hchan]
    exact checked_withLoss_taken early _ _ _ _ _

/-! ### TDC_LOCK_LOST (R132) -/

theorem exec_tdcLockLost {n : Nat} (hn : n < 48) (slow : Bool) (s : State) :
    exec (.tdcLockLost n slow) s = .next { s with dev := s.dev.lockLost n slow } := onUnit_of_lt hn _ s

theorem balanced_eq_false {l : List Bool} (h : l.count true < 24 ∨ l.count false < 24) : balanced l = false := by
  rw [balanced_eq, Bool.and_eq_false_iff, decide_eq_false_iff_not, decide_eq_false_iff_not]
  omega

/-- Settles O26: each lock is set, kept or cleared with the loss it makes good or notes. -/
theorem oscillatorLocks : Obligations.OscillatorLocks := by
  refine ⟨fun n s => slowLockAcquired_spec, fun c forced n cyc early s hn hup hon hslow hc => ?_, fun n slow s hn hup hlock hloss => ?_⟩
  · exact lockChecks_spec hn hup hon hslow hc (balanced_eq _) rfl
  · obtain ⟨hzero, hchan, hstep⟩ := lockLost_spec (slow := slow) hn hup hlock (hloss.imp id balanced_eq_false)
    exact ⟨_, exec_tdcLockLost hn slow s, hzero, hchan, hstep.others, congrArg (fun d : Dev => { s with dev := d }) hstep.work, hstep.regs⟩

end Sys2Proof.Machine
end

section
/-! PROOF. Linearity calibration: it begins, ends with a good or a bad histogram, and is asked for; O27 from them. -/
namespace Sys2Proof.Machine
open Sys2Proof.Safety

/-- The status of a channel's TDC stands below the device's own. -/
theorem tdcStatus_key_lt {n : Nat} (hn : n < 48) {k : Nat} (hk : k ≤ (Reg.CH_TDC_STATUS_LIN_FAIL n).key) :
    k < Reg.TDC_CAL_STATUS_BOOT_DONE.key := by
  simp only [Fld.key, Reg.CH_TDC_STATUS_LIN_FAIL, Reg.TDC_CAL_STATUS_BOOT_DONE] at *
  omega

theorem linValid_lt_linActive (n : Nat) : (Reg.CH_TDC_STATUS_LIN_VALID n).key < (Reg.CH_TDC_STATUS_LIN_ACTIVE n).key := by
  simp only [Fld.key, Reg.CH_TDC_STATUS_LIN_VALID, Reg.CH_TDC_STATUS_LIN_ACTIVE]
  omega

theorem linActive_lt_linFail (n : Nat) : (Reg.CH_TDC_STATUS_LIN_ACTIVE n).key < (Reg.CH_TDC_STATUS_LIN_FAIL n).key := by
  simp only [Fld.key, Reg.CH_TDC_STATUS_LIN_FAIL, Reg.CH_TDC_STATUS_LIN_ACTIVE]
  omega

theorem calStatus_keys :
    Reg.TDC_CAL_STATUS_BOOT_DONE.key ≤ Reg.TDC_CAL_STATUS_ACTIVE.key ∧ Reg.TDC_CAL_STATUS_BOOT_DONE.key ≤ Reg.TDC_CAL_STATUS_FAIL_QUADS.key
    ∧ Reg.TDC_CAL_STATUS_BOOT_DONE.key < 0x4000 * 32 := by decide

/-! ### A calibration begins (R134) -/

theorem exec_linCalStart {n : Nat} (hn : n < 48) (s : State) : exec (.linCalStart n) s = .next { s with dev := s.dev.linStart n } :=
  onUnit_of_lt hn _ s

theorem putT_isEmpty {α : Type} (k : Nat) (v : α) (t : List (Nat × α)) : (putT k v t).isEmpty = false := by
  cases t with
  | nil => rfl
  | cons p t =>
    simp only [putT]
    split
    · rfl
    · split <;> rfl

/-- The channel is asked for no calibration. -/
def Chan.linAnswered (c : Chan) : Chan := { c with linWant := false }

theorem linStart_eq {d : Dev} {n : Nat} (hup : d.up = true) (hon : d.chanOn n = true) (hlocked : d.tdcLocked n = true)
    (hidle : d.flag (Reg.CH_TDC_STATUS_LIN_ACTIVE n) = false) (hasked : (d.chan n).linDue = true ∨ (d.chan n).linWant = true) :
    d.linStart n = ((d.set (Reg.CH_TDC_STATUS_LIN_ACTIVE n) 1).updChan n Chan.linAnswered).setLinRun
      (putT n d.fn d.acq.linRun) := by
  unfold Dev.linStart
  refine if_pos ?_
  rw [hup, hon, hlocked, hidle, (Bool.or_eq_true _ _).mpr hasked]
  rfl

theorem linCalStart_spec {n : Nat} {s : State} (hn : n < 48) (hup : s.dev.up = true) (hon : s.dev.chanOn n = true)
    (hlocked : s.dev.tdcLocked n = true) (hidle : s.dev.flag (Reg.CH_TDC_STATUS_LIN_ACTIVE n) = false)
    (hasked : (s.dev.chan n).linDue = true ∨ (s.dev.chan n).linWant = true) :
    Answers (.linCalStart n) s fun t =>
      t.dev.get (Reg.CH_TDC_STATUS_LIN_ACTIVE n) = 1 ∧ t.dev.get Reg.TDC_CAL_STATUS_ACTIVE = 1
      ∧ t.dev.acq.linRun = putT n s.dev.fn s.dev.acq.linRun ∧ t.dev.chan n = { s.dev.chan n with linWant := false }
      ∧ (∀ m : Nat, m ≠ n → t.dev.chan m = s.dev.chan m)
      ∧ t = { s with dev := { s.dev with regs := t.dev.regs, acq := { s.dev.acq with chans := t.dev.acq.chans, linRun := t.dev.acq.linRun } } }
      ∧ RegsKeepAll [(Reg.CH_TDC_STATUS_LIN_ACTIVE n).key, Reg.TDC_CAL_STATUS_ACTIVE.key] s.dev t.dev := by
  have hne : (Reg.CH_TDC_STATUS_LIN_ACTIVE n).key ≠ Reg.TDC_CAL_STATUS_ACTIVE.key :=
    ne_of_lt (lt_of_lt_of_le (tdcStatus_key_lt hn (linActive_lt_linFail n).le) calStatus_keys.1)
  have hexec := exec_linCalStart hn s
  rw [linStart_eq hup hon hlocked hidle hasked, Dev.setLinRun, putT_isEmpty] at hexec
  refine ⟨_, hexec, (Dev.get_set_ne _ hne _).trans (s.dev.get_set_same _ _), Dev.get_set_same _ _ _, rfl,
    chan_updChan_same (s.dev.set (Reg.CH_TDC_STATUS_LIN_ACTIVE n) 1) n Chan.linAnswered, fun m hm => (s.dev.chan_setChan n m _).trans (if_neg hm), rfl, ?_⟩
  exact regsKeepAll_trans (b := s.dev.set (Reg.CH_TDC_STATUS_LIN_ACTIVE n) 1) (regsKeepAll_set_of_mem (by simp)) (regsKeepAll_set_of_mem (by simp))

/-! ### A calibration ends (R133, R134) -/

/-- Nothing changes but what an event may, channel `n`, the account of runs, bring-up and temperatures, and the register fields at `ks`. -/
structure LinStep (n : Nat) (ks : List Nat) (d t : Dev) : Prop where
  work : t = { talked d t with
    acq := { d.acq with chans := t.acq.chans, linRun := t.acq.linRun, linBoot := t.acq.linBoot, linTemp := t.acq.linTemp } }
  regs : RegsKeep ks d t
  others : ∀ m, m ≠ n → t.chan m = d.chan m

theorem LinStep.trans {n : Nat} {ks : List Nat} {a b c : Dev} (h : LinStep n ks a b) (k : LinStep n ks b c) : LinStep n ks a c :=
  ⟨by rw [k.work, h.work]; rfl, regsKeep_trans h.regs k.regs, fun m hm => (k.others m hm).trans (h.others m hm)⟩

theorem LinStep.mono {n : Nat} {ks ls : List Nat} {a b : Dev} (h : LinStep n ks a b) (sub : ∀ k ∈ ks, k ∈ ls) : LinStep n ls a b :=
  ⟨h.work, regsKeep_mono h.regs sub, h.others⟩

theorem LinStep.of_tdcStep {n : Nat} {ks : List Nat} {d t : Dev} (h : TdcStep n ks d t) : LinStep n ks d t :=
  ⟨by rw [h.work]; rfl, h.regs, h.others⟩

theorem LinStep.set {n : Nat} {ks : List Nat} {d : Dev} {f : Fld} {v : Nat} (hf : f.key ∈ ks) : LinStep n ks d (d.set f v) :=
  .of_tdcStep (.set hf)

theorem LinStep.setLinRun (n : Nat) (d : Dev) (l : List (Nat × Nat)) : LinStep n [Reg.TDC_CAL_STATUS_ACTIVE.key] d (d.setLinRun l) :=
  LinStep.trans (b := { d with acq := { d.acq with linRun := l } }) ⟨rfl, fun _ _ _ => rfl, fun _ _ => rfl⟩ (.set (by simp))

/-- The bring-up channels still to end. -/
theorem setLinBoot_spec (n : Nat) (d : Dev) (l : List Nat) :
    (d.setLinBoot l).acq.chans = d.acq.chans ∧ (d.setLinBoot l).acq.linRun = d.acq.linRun
    ∧ LinStep n [Reg.TDC_CAL_STATUS_BOOT_DONE.key] d (d.setLinBoot l) := by
  have hlist : LinStep n [Reg.TDC_CAL_STATUS_BOOT_DONE.key] d { d with acq := { d.acq with linBoot := l } } :=
    ⟨rfl, fun _ _ _ => rfl, fun _ _ => rfl⟩
  unfold Dev.setLinBoot
  dsimp only
  split
  · exact ⟨rfl, rfl, hlist.trans (.set (by simp))⟩
  · exact ⟨rfl, rfl, hlist⟩

/-- The quad's temperature, where there is one, is noted for AUTO_DT. -/
def Dev.noteLinTemp (d : Dev) (n : Nat) : Dev :=
  match d.quadTemp (n / 4) with
  | some t => { d with acq := { d.acq with linTemp := putT (n / 4) (ofSigned 32 t) d.acq.linTemp } }
  | none => d

theorem noteLinTemp_spec (d : Dev) (n : Nat) :
    (d.noteLinTemp n).acq.chans = d.acq.chans ∧ (d.noteLinTemp n).acq.linRun = d.acq.linRun ∧ LinStep n [] d (d.noteLinTemp n) := by
  unfold Dev.noteLinTemp
  split
  · exact ⟨rfl, rfl, rfl, fun _ _ _ => rfl, fun _ _ => rfl⟩
  · exact ⟨rfl, rfl, rfl, fun _ _ _ => rfl, fun _ _ => rfl⟩

/-- The channel owes no calibration. -/
def Chan.linPaid (c : Chan) : Chan := { c with linDue := false }

/-- The run of channel `n` is over, whatever it gave. -/
def Dev.linRunOver (d : Dev) (n : Nat) : Dev :=
  ((d.set (Reg.CH_TDC_STATUS_LIN_ACTIVE n) 0).updChan n Chan.linPaid).setLinRun (delT n d.acq.linRun)

theorem linEnd_eq (d : Dev) (n : Nat) :
    d.linEnd n = ((d.linRunOver n).setLinBoot ((d.linRunOver n).acq.linBoot.filter (· != n))).noteLinTemp n := rfl

/-- The register fields that the end of a run may change. -/
def linEndKeys (n : Nat) : List Nat :=
  [(Reg.CH_TDC_STATUS_LIN_ACTIVE n).key, Reg.TDC_CAL_STATUS_ACTIVE.key, Reg.TDC_CAL_STATUS_BOOT_DONE.key]

theorem linEnd_spec (d : Dev) {n : Nat} (hn : n < 48) :
    (d.linEnd n).get (Reg.CH_TDC_STATUS_LIN_ACTIVE n) = 0 ∧ (d.linEnd n).chan n = (d.chan n).linPaid
    ∧ (d.linEnd n).acq.linRun = d.acq.linRun.filter (fun p => p.1 ≠ n) ∧ LinStep n (linEndKeys n) d (d.linEnd n) := by
  have hlow := tdcStatus_key_lt hn (linActive_lt_linFail n).le
  obtain ⟨hactive, hboot, hbelow⟩ := calStatus_keys
  obtain ⟨hchans, hruns, hbootStep⟩ := setLinBoot_spec n (d.linRunOver n) ((d.linRunOver n).acq.linBoot.filter (· != n))
  obtain ⟨hchans', hruns', htempStep⟩ := noteLinTemp_spec ((d.linRunOver n).setLinBoot ((d.linRunOver n).acq.linBoot.filter (· != n))) n
  have hover : LinStep n (linEndKeys n) d (d.linRunOver n) :=
    ((LinStep.set (by simp [linEndKeys])).trans (.of_tdcStep (.updChan _ _ _ _))).trans ((LinStep.setLinRun _ _ _).mono (by simp [linEndKeys]))
  have hafter : LinStep n [Reg.TDC_CAL_STATUS_BOOT_DONE.key] (d.linRunOver n) (d.linEnd n) := by
    rw [linEnd_eq]
    exact hbootStep.trans (htempStep.mono (by simp))
  refine ⟨?_, ?_, ?_, hover.trans (hafter.mono (by simp [linEndKeys]))⟩
  · rw [hafter.regs _ (by simpa using ne_of_lt hlow) (notTalk_below_compression (hlow.trans hbelow))]
    exact (Dev.get_set_ne _ (ne_of_lt (lt_of_lt_of_le hlow hactive)) _).trans (d.get_set_same _ _)
  · have hsame : (d.linEnd n).acq.chans = (d.linRunOver n).acq.chans := by rw [linEnd_eq, hchans', hchans]
    rw [Dev.chan, hsame]
    exact chan_updChan_same (d.set (Reg.CH_TDC_STATUS_LIN_ACTIVE n) 0) n Chan.linPaid
  · rw [linEnd_eq, hruns', hruns]
    rfl

/-- The table of the channel. -/
def Chan.withTable (l : List Nat) (c : Chan) : Chan := { c with table := some l }

/-- A good histogram gives the table. -/
def Dev.linGood (d : Dev) (n : Nat) (h : List Nat) : Dev := (d.updChan n (Chan.withTable (linTable h))).set (Reg.CH_TDC_STATUS_LIN_VALID n) 1

/-- A bad one shows by channel and by quad. -/
def Dev.linBad (d : Dev) (n : Nat) : Dev :=
  ((d.set (Reg.CH_TDC_STATUS_LIN_FAIL n) 1).set Reg.TDC_CAL_STATUS_FAIL_QUADS
    (setBit ((d.set (Reg.CH_TDC_STATUS_LIN_FAIL n) 1).get Reg.TDC_CAL_STATUS_FAIL_QUADS) (n / 4))).tdcEvent 3 n

theorem linDone_eq {d : Dev} {n f : Nat} (hup : d.up = true) (hrun : d.acq.linRun.find? (fun p => p.1 == n) = some (n, f))
    (hdue : f + 100000 ≤ d.fn) (h : List Nat) :
    d.linDone n h = if linOk h then (d.linEnd n).linGood n h else (d.linEnd n).linBad n := by
  unfold Dev.linDone
  rw [hrun]
  exact if_pos (by rw [hup, Bool.true_and]; exact decide_eq_true hdue)

theorem exec_linCalDone {n f : Nat} {s : State} (hn : n < 48) (hup : s.dev.up = true)
    (hrun : s.dev.acq.linRun.find? (fun p => p.1 == n) = some (n, f)) (hdue : f + 100000 ≤ s.dev.fn) (h : List Nat) :
    exec (.linCalDone n h) s
      = .next { s with dev := if linOk h then (s.dev.linEnd n).linGood n h else (s.dev.linEnd n).linBad n } :=
  (onUnit_of_lt hn _ s).trans (congrArg (fun d : Dev => (Host.Outcome.next { s with dev := d } : Res)) (linDone_eq hup hrun hdue h))

theorem linOk_iff (h : List Nat) :
    linOk h = true ↔ h.length = 128 ∧ h.sum = 1048576 ∧ ∀ x ∈ h, 2048 ≤ x ∧ x ≤ 16384 := by
  simp [linOk, and_assoc]

/-- The register fields that the end of a calibration may change. -/
def linKeys (n : Nat) : List Nat :=
  [(Reg.CH_TDC_STATUS_LIN_ACTIVE n).key, (Reg.CH_TDC_STATUS_LIN_VALID n).key, (Reg.CH_TDC_STATUS_LIN_FAIL n).key,
    Reg.TDC_CAL_STATUS_ACTIVE.key, Reg.TDC_CAL_STATUS_BOOT_DONE.key, Reg.TDC_CAL_STATUS_FAIL_QUADS.key]

theorem linGood_spec (d : Dev) (n : Nat) (h : List Nat) :
    (d.linGood n h).get (Reg.CH_TDC_STATUS_LIN_VALID n) = 1 ∧ (d.linGood n h).chan n = (d.chan n).withTable (linTable h)
    ∧ (d.linGood n h).acq.linRun = d.acq.linRun ∧ LinStep n [(Reg.CH_TDC_STATUS_LIN_VALID n).key] d (d.linGood n h) :=
  ⟨Dev.get_set_same _ _ _, chan_updChan_same _ _ _, rfl, (LinStep.of_tdcStep (.updChan _ _ _ _)).trans (.set (by simp))⟩

theorem linBad_spec (d : Dev) {n : Nat} (hn : n < 48) :
    (d.linBad n).get (Reg.CH_TDC_STATUS_LIN_FAIL n) = 1 ∧ bitOf ((d.linBad n).get Reg.TDC_CAL_STATUS_FAIL_QUADS) (n / 4) = true
    ∧ (d.linBad n).chan n = d.chan n ∧ (d.linBad n).acq.linRun = d.acq.linRun
    ∧ LinStep n [(Reg.CH_TDC_STATUS_LIN_FAIL n).key, Reg.TDC_CAL_STATUS_FAIL_QUADS.key] d (d.linBad n) := by
  have hlow := tdcStatus_key_lt hn le_rfl
  obtain ⟨-, hquads, hbelow⟩ := calStatus_keys
  unfold Dev.linBad
  refine ⟨?_, ?_, chan_tdcEvent _ _ _ _, congrArg Acq.linRun (Dev.raiseOpen_acq _ 3 3 [n]),
    ((LinStep.set (by simp)).trans (.set (by simp))).trans (.of_tdcStep (.tdcEvent _ _ _ _ _))⟩
  · rw [get_tdcEvent (hlow.trans hbelow), Dev.get_set_ne _ (ne_of_lt (lt_of_lt_of_le hlow hquads))]
    exact d.get_set_same _ _
  · rw [get_tdcEvent (by decide), Dev.get_set_same]
    exact bitOf_setBit_mod (w := 12) _ (by omega)

/-- The run is over, and the histogram gives the table or is refused. -/
theorem linDone_spec {d t : Dev} {n : Nat} {h : List Nat} (hn : n < 48)
    (ht : t = if linOk h then (d.linEnd n).linGood n h else (d.linEnd n).linBad n) :
    t.get (Reg.CH_TDC_STATUS_LIN_ACTIVE n) = 0 ∧ (t.chan n).linDue = false ∧ t.acq.linRun = d.acq.linRun.filter (fun p => p.1 ≠ n)
    ∧ (linOk h = true → t.get (Reg.CH_TDC_STATUS_LIN_VALID n) = 1 ∧ (t.chan n).table = some (linTable h))
    ∧ (linOk h = false → t.get (Reg.CH_TDC_STATUS_LIN_FAIL n) = 1 ∧ (t.chan n).table = (d.chan n).table
        ∧ bitOf (t.get Reg.TDC_CAL_STATUS_FAIL_QUADS) (n / 4) = true
        ∧ t.get (Reg.CH_TDC_STATUS_LIN_VALID n) = d.get (Reg.CH_TDC_STATUS_LIN_VALID n))
    ∧ LinStep n (linKeys n) d t := by
  have hlow := tdcStatus_key_lt hn (linActive_lt_linFail n).le
  obtain ⟨hactive, hquads, hbelow⟩ := calStatus_keys
  have hva := linValid_lt_linActive n
  have haf := linActive_lt_linFail n
  obtain ⟨hzero, hpaid, hruns, hend⟩ := linEnd_spec d hn
  have hkept {f : Fld} (ks : List Nat) {e : Dev} (hstep : LinStep n ks (d.linEnd n) e) (hf : f.key ≤ (Reg.CH_TDC_STATUS_LIN_ACTIVE n).key)
      (hks : f.key ∉ ks) : e.get f = (d.linEnd n).get f :=
    hstep.regs f hks (notTalk_below_compression (by omega))
  subst ht
  cases hok : linOk h with
  | true =>
    obtain ⟨hvalid, hchan, hsame, hstep⟩ := linGood_spec (d.linEnd n) n h
    refine ⟨(hkept _ hstep le_rfl (by simpa using ne_of_gt hva)).trans hzero, ?_, hsame.trans hruns,
      fun _ => ⟨hvalid, ?_⟩, fun hno => absurd hno (by decide),
      (hend.mono (by simp [linEndKeys, linKeys])).trans (hstep.mono (by simp [linKeys]))⟩
    · exact congrArg Chan.linDue (hchan.trans (congrArg _ hpaid))
    · exact congrArg Chan.table hchan
  | false =>
    obtain ⟨hfail, hquad, hchan, hsame, hstep⟩ := linBad_spec (d.linEnd n) hn
    have hpaid' := hchan.trans hpaid
    refine ⟨(hkept _ hstep le_rfl ?_).trans hzero, congrArg Chan.linDue hpaid', hsame.trans hruns, fun hno => absurd hno (by decide),
      fun _ => ⟨hfail, (congrArg Chan.table hpaid').trans rfl, hquad,
        (hkept _ hstep hva.le ?_).trans (hend.regs _ ?_ (notTalk_below_compression (by omega)))⟩,
      (hend.mono (by simp [linEndKeys, linKeys])).trans (hstep.mono (by simp [linKeys]))⟩
    · simp only [List.mem_cons, List.not_mem_nil, or_false]
      omega
    · simp only [List.mem_cons, List.not_mem_nil, or_false]
      omega
    · simp only [linEndKeys, List.mem_cons, List.not_mem_nil, or_false]
      omega

/-! ### A calibration is asked for (R134, R153) -/

/-- The channels of the quads that `p` names, lowest first. -/
theorem flatMap_quadChannels (p : Nat → Bool) (m : Nat) :
    ((List.range m).filter p).flatMap (fun q => rangeFrom (4 * q) (4 * q + 4)) = (List.range (4 * m)).filter fun n => p (n / 4) := by
  induction m with
  | zero => rfl
  | succ m ih =>
    have hquad : List.range (4 * (m + 1)) = List.range (4 * m) ++ rangeFrom (4 * m) (4 * m + 4) := by
      rw [rangeFrom, Nat.mul_add, Nat.mul_one, List.range_add, Nat.add_sub_cancel_left]
      exact congrArg _ (List.map_congr_left fun i _ => Nat.add_comm _ _)
    have hone : (rangeFrom (4 * m) (4 * m + 4)).filter (fun n => p (n / 4)) = if p m then rangeFrom (4 * m) (4 * m + 4) else [] := by
      have hall : ∀ n ∈ rangeFrom (4 * m) (4 * m + 4), n / 4 = m := by
        intro n hmem
        simp only [rangeFrom, List.mem_map, List.mem_range] at hmem
        omega
      rw [List.filter_congr fun n hmem => congrArg p (hall n hmem)]
      cases p m <;> simp
    rw [List.range_succ, List.filter_append, List.flatMap_append, ih, hquad, List.filter_append, hone]
    cases hp : p m <;> simp [hp]

theorem bitOf_mod_4096 (q : Nat) {i : Nat} (h : i < 12) : bitOf (q % 4096) i = bitOf q i := by
  rw [bitOf_eq_testBit, bitOf_eq_testBit, show 4096 = 2 ^ 12 from rfl, Nat.testBit_mod_two_pow, decide_eq_true h, Bool.true_and]

theorem linRequest_of_active {d : Dev} (h : d.flag Reg.TDC_CAL_STATUS_ACTIVE = true) (quads : Nat) :
    d.linRequest quads = d.set Reg.TDC_CAL_STATUS_REFUSED 1 := if_pos h

theorem linRequest_of_idle {d : Dev} (h : d.flag Reg.TDC_CAL_STATUS_ACTIVE = false) (q : Nat) :
    d.linRequest (q % 4096)
      = { d with acq := { d.acq with linReq := d.acq.linReq ++ (List.range 48).filter fun n => bitOf q (n / 4) } } := by
  have hnamed : (setBits (q % 4096) 12).flatMap (fun q => rangeFrom (4 * q) (4 * q + 4)) = (List.range 48).filter fun n => bitOf q (n / 4) := by
    rw [setBits, flatMap_quadChannels]
    refine List.filter_congr fun n hn => bitOf_mod_4096 q ?_
    rw [List.mem_range] at hn
    omega
  unfold Dev.linRequest
  rw [if_neg (by rw [h]; decide), hnamed]

theorem exec_tdcCalStart {src : Source} {s : State} (hp : Passes s.dev src 0x2C10) (q : Nat) :
    exec (.tdcCalStart src q) s = .next { s with dev := (s.dev.set Reg.TDC_CAL_CTRL_QUAD_MASK q).linRequest (q % 4096) } :=
  congrArg (fun d : Dev => (Host.Outcome.next { s with dev := d } : Res))
    (gated_of_passes hp fun d => (d.set Reg.TDC_CAL_CTRL_QUAD_MASK q).linRequest (q % 4096))

theorem tdcCalStart_spec {src : Source} {q : Nat} {s : State} (hp : Passes s.dev src 0x2C10) :
    Answers (.tdcCalStart src q) s fun t =>
      t.dev.get Reg.TDC_CAL_CTRL_QUAD_MASK = q % 4096
      ∧ (s.dev.flag Reg.TDC_CAL_STATUS_ACTIVE = true → t.dev.get Reg.TDC_CAL_STATUS_REFUSED = 1 ∧ t.dev.acq = s.dev.acq)
      ∧ (s.dev.flag Reg.TDC_CAL_STATUS_ACTIVE = false →
          t.dev.get Reg.TDC_CAL_STATUS_REFUSED = s.dev.get Reg.TDC_CAL_STATUS_REFUSED
          ∧ t.dev.acq = { s.dev.acq with linReq := s.dev.acq.linReq ++ (List.range 48).filter fun n => bitOf q (n / 4) })
      ∧ t = { s with dev := { s.dev with regs := t.dev.regs, acq := t.dev.acq } }
      ∧ RegsKeepAll [Reg.TDC_CAL_CTRL_QUAD_MASK.key, Reg.TDC_CAL_STATUS_REFUSED.key] s.dev t.dev := by
  have hmask := s.dev.get_set_same Reg.TDC_CAL_CTRL_QUAD_MASK q
  have hregs : RegsKeepAll [Reg.TDC_CAL_CTRL_QUAD_MASK.key, Reg.TDC_CAL_STATUS_REFUSED.key] s.dev (s.dev.set Reg.TDC_CAL_CTRL_QUAD_MASK q) :=
    regsKeepAll_set_of_mem (by simp)
  have hflag : (s.dev.set Reg.TDC_CAL_CTRL_QUAD_MASK q).flag Reg.TDC_CAL_STATUS_ACTIVE = s.dev.flag Reg.TDC_CAL_STATUS_ACTIVE :=
    flag_eq_of_get (hregs _ (by decide))
  have hexec := exec_tdcCalStart hp q
  cases hactive : s.dev.flag Reg.TDC_CAL_STATUS_ACTIVE with
  | true =>
    rw [linRequest_of_active (hflag.trans hactive)] at hexec
    exact ⟨_, hexec, (Dev.get_set_ne _ (by decide) _).trans hmask, fun _ => ⟨Dev.get_set_same _ _ _, rfl⟩, fun hno => absurd hno (by decide),
      rfl, regsKeepAll_trans hregs (regsKeepAll_set_of_mem (by simp))⟩
  | false =>
    rw [linRequest_of_idle (hflag.trans hactive)] at hexec
    exact ⟨_, hexec, hmask, fun hno => absurd hno (by decide), fun _ => ⟨s.dev.get_set_ne (by decide) _, rfl⟩, rfl, hregs⟩

/-- Settles O27: a begin notes the run, an end closes it by what the histogram says, a request names its quads' channels. -/
theorem linearityCalibration : Obligations.LinearityCalibration := by
  refine ⟨fun n s => linCalStart_spec, fun n f h s hn hup hrun hdue => ?_, fun src q s => tdcCalStart_spec⟩
  obtain ⟨hzero, hpaid, hruns, hgood, hbad, hstep⟩ := linDone_spec (d := s.dev) (h := h) hn rfl
  refine ⟨_, exec_linCalDone hn hup hrun hdue h, hzero, hpaid, hruns, fun hok => hgood ((linOk_iff h).2 hok), fun hno => hbad ?_, hstep.others,
    congrArg (fun d : Dev => { s with dev := d }) hstep.work, hstep.regs⟩
  exact Bool.eq_false_iff.2 fun hok => hno ((linOk_iff h).1 hok)

end Sys2Proof.Machine
end

section
/-! PROOF. The interval-statistics engine: its start, its abort, and its results; O28 from them. -/
namespace Sys2Proof.Machine
open Sys2Proof.Safety

/-! ### START and ABORT (R143) -/

theorem fieldsAt_statCtrl : fieldsAt 0x2C30 = [Reg.TDC_STAT_CTRL_START, Reg.TDC_STAT_CTRL_ABORT, Reg.TDC_STAT_CTRL_MODE, Reg.TDC_STAT_CTRL_K,
    Reg.TDC_STAT_CTRL_START_SRC, Reg.TDC_STAT_CTRL_STOP_SRC, Reg.TDC_STAT_CTRL_SPAN_LOG2] := by decide +kernel

/-- An engine that holds nothing. -/
def Stat.empty : Stat := { sum := 0, sumSq := 0, mn := 0, mx := 0, phi0 := none, starts := [], stops := [] }

/-- The status and flags of an engine that starts. -/
def statStartFields : List (Fld × Nat) :=
  [(Reg.TDC_STAT_STATUS_RUNNING, 1), (Reg.TDC_STAT_STATUS_DONE, 0), (Reg.TDC_STAT_STATUS_COUNT, 0), (Reg.TDC_STAT_FLAGS_NEAR, 0),
    (Reg.TDC_STAT_FLAGS_UNPAIRED, 0)]

theorem statStart_eq (d : Dev) : d.statStart = ({ d with acq := { d.acq with stat := Stat.empty } } : Dev).setAll statStartFields := rfl

theorem exec_statStart {src : Source} {s : State} (hp : Passes s.dev src 0x2C30) (hrole : s.dev.role = .frontEnd) (v : Word) :
    exec (.statStart src v) s = .next { s with dev := (s.dev.writeFields (fieldsAt 0x2C30) v.toNat).statStart } := by
  refine congrArg (fun d : Dev => (Host.Outcome.next { s with dev := d } : Res)) ((gated_of_passes hp _).trans ?_)
  rw [hrole]
  rfl

theorem exec_statAbort {src : Source} {s : State} (hp : Passes s.dev src 0x2C30) (hrole : s.dev.role = .frontEnd) :
    exec (.statAbort src) s = .next { s with dev := s.dev.set Reg.TDC_STAT_STATUS_RUNNING 0 } := by
  refine congrArg (fun d : Dev => (Host.Outcome.next { s with dev := d } : Res)) ((gated_of_passes hp _).trans ?_)
  rw [hrole]
  rfl

/-- A plain field of TDC_STAT_CTRL takes its bits of the written word, and a start leaves it. -/
theorem statStart_ctrl (d : Dev) (w : Nat) {f : Fld} (hf : f ∈ fieldsAt 0x2C30) (hacc : f.acc = .rw)
    (hne : ∀ p ∈ statStartFields, f.key ≠ p.1.key) : (d.writeFields (fieldsAt 0x2C30) w).statStart.get f = bits w f.lo f.width := by
  rw [statStart_eq, get_setAll_ne hne]
  refine get_writeFields_rw (d := d) w hf ?_ ?_ hacc
  · rw [fieldsAt_statCtrl]
    decide
  · rw [fieldsAt_statCtrl]
    decide

theorem statStart_status (d : Dev) {f : Fld} {v : Nat} (hf : (f, v) ∈ statStartFields) : d.statStart.get f = v % 2 ^ f.width := by
  rw [statStart_eq]
  exact get_setAll_of_mem rfl (by decide) hf

theorem statStart_spec {src : Source} {v : Word} {s : State} (hp : Passes s.dev src 0x2C30) (hrole : s.dev.role = .frontEnd) :
    Answers (.statStart src v) s fun t =>
      t.dev.get Reg.TDC_STAT_STATUS_RUNNING = 1 ∧ t.dev.get Reg.TDC_STAT_STATUS_DONE = 0 ∧ t.dev.get Reg.TDC_STAT_STATUS_COUNT = 0
      ∧ t.dev.get Reg.TDC_STAT_FLAGS_NEAR = 0 ∧ t.dev.get Reg.TDC_STAT_FLAGS_UNPAIRED = 0
      ∧ t.dev.get Reg.TDC_STAT_CTRL_MODE = bits v.toNat 2 1 ∧ t.dev.get Reg.TDC_STAT_CTRL_K = bits v.toNat 3 5
      ∧ t.dev.acq.stat = Stat.empty
      ∧ t = { s with dev := { s.dev with regs := t.dev.regs, acq := { s.dev.acq with stat := t.dev.acq.stat } } } := by
  have hframe : (s.dev.writeFields (fieldsAt 0x2C30) v.toNat).statStart = { s.dev with
      regs := (s.dev.writeFields (fieldsAt 0x2C30) v.toNat).statStart.regs, acq := { s.dev.acq with stat := Stat.empty } } := by
    rw [statStart_eq, setAll_regs, writeFields_regs]
  refine ⟨_, exec_statStart hp hrole v, statStart_status _ (.head _), statStart_status _ (.tail _ (.head _)),
    statStart_status _ (.tail _ (.tail _ (.head _))), statStart_status _ (.tail _ (.tail _ (.tail _ (.head _)))),
    statStart_status _ (.tail _ (.tail _ (.tail _ (.tail _ (.head _))))), statStart_ctrl _ _ ?_ rfl (by decide),
    statStart_ctrl _ _ ?_ rfl (by decide), congrArg (fun d : Dev => d.acq.stat) hframe, ?_⟩
  · rw [fieldsAt_statCtrl]
    exact .tail _ (.tail _ (.head _))
  · rw [fieldsAt_statCtrl]
    exact .tail _ (.tail _ (.tail _ (.head _)))
  · rw [congrArg (fun d : Dev => d.acq.stat) hframe]
    exact congrArg (fun d : Dev => { s with dev := d }) hframe

/-! ### The integer square root -/

/-- From a root short by less than the next power of two, the steps below it find the root. -/
theorem isqrtFrom_spec (n k r : Nat) (hle : r * r ≤ n) (hlt : n < (r + 2 ^ (k + 1)) * (r + 2 ^ (k + 1))) :
    isqrtFrom n k r * isqrtFrom n k r ≤ n ∧ n < (isqrtFrom n k r + 1) * (isqrtFrom n k r + 1) := by
  induction k generalizing r with
  | zero =>
    unfold isqrtFrom
    split
    next hfits => exact ⟨hfits, hlt⟩
    next hover => exact ⟨hle, by omega⟩
  | succ k ih =>
    have hhalf : r + 2 ^ (k + 1) + 2 ^ (k + 1) = r + 2 ^ (k + 1 + 1) := by
      rw [pow_succ 2 (k + 1)]
      omega
    unfold isqrtFrom
    dsimp only
    split
    next hfits => exact ih _ hfits (by rw [hhalf]; exact hlt)
    next hover => exact ih _ hle (by omega)

theorem isqrt_spec {n : Nat} (h : n < 2 ^ 130) : isqrt n * isqrt n ≤ n ∧ n < (isqrt n + 1) * (isqrt n + 1) :=
  isqrtFrom_spec n 64 0 (Nat.zero_le n) (by omega)

/-- The root of a number that is no less than 0, among the integers. -/
theorem isqrt_toNat_spec {x : Int} (h0 : 0 ≤ x) (h : x < 2 ^ 84) :
    (isqrt x.toNat : Int) * isqrt x.toNat ≤ x ∧ x < ((isqrt x.toNat : Int) + 1) * (isqrt x.toNat + 1) := by
  obtain ⟨hle, hlt⟩ := isqrt_spec (n := x.toNat) (by omega)
  have hle' : ((isqrt x.toNat * isqrt x.toNat : Nat) : Int) ≤ (x.toNat : Int) := Int.ofNat_le.2 hle
  have hlt' : (x.toNat : Int) < (((isqrt x.toNat + 1) * (isqrt x.toNat + 1) : Nat) : Int) := Int.ofNat_lt.2 hlt
  rw [Int.toNat_of_nonneg h0] at hle' hlt'
  push_cast at hle' hlt'
  exact ⟨hle', hlt'⟩

/-! ### STAT_DONE (R143) -/

/-- N² times the variance of the values. -/
def Dev.statVar (d : Dev) : Int := (d.statN : Int) * d.acq.stat.sumSq - d.acq.stat.sum * d.acq.stat.sum

/-- The results of an engine that ends. -/
def Dev.statResults (d : Dev) : List (Fld × Nat) :=
  [(Reg.TDC_STAT_MEAN_MEAN, ofSigned 32 (floorDiv d.acq.stat.sum d.statN)), (Reg.TDC_STAT_DEV_DEV, isqrt d.statVar.toNat / d.statN),
    (Reg.TDC_STAT_MIN_MIN, ofSigned 32 d.acq.stat.mn), (Reg.TDC_STAT_MAX_MAX, ofSigned 32 d.acq.stat.mx),
    (Reg.TDC_STAT_STATUS_RUNNING, 0), (Reg.TDC_STAT_STATUS_DONE, 1)]

/-- The fields they stand in. -/
def statResultFields : List Fld :=
  [Reg.TDC_STAT_MEAN_MEAN, Reg.TDC_STAT_DEV_DEV, Reg.TDC_STAT_MIN_MIN, Reg.TDC_STAT_MAX_MAX, Reg.TDC_STAT_STATUS_RUNNING,
    Reg.TDC_STAT_STATUS_DONE]

theorem exec_statDone {s : State} (hup : s.dev.up = true) (hrun : s.dev.flag Reg.TDC_STAT_STATUS_RUNNING = true)
    (hfull : s.dev.statN ≤ s.dev.get Reg.TDC_STAT_STATUS_COUNT) :
    exec .statDone s = .next { s with dev := s.dev.setAll s.dev.statResults } := by
  refine congrArg (fun d : Dev => (Host.Outcome.next { s with dev := d } : Res)) (?_ : s.dev.statDone = _)
  unfold Dev.statDone
  exact if_pos (by rw [hup, hrun, Bool.true_and, Bool.true_and]; exact decide_eq_true hfull)

theorem statResults_get (d : Dev) {f : Fld} {v : Nat} (hf : (f, v) ∈ d.statResults) : (d.setAll d.statResults).get f = v % 2 ^ f.width :=
  get_setAll_of_mem (fs := statResultFields) rfl (by decide) hf

/-- A value within 32 bits reads back from its field. -/
theorem toSigned_ofSigned_32 {i : Int} (hlo : -(2 ^ 31) ≤ i) (hhi : i < 2 ^ 31) : toSigned 32 (ofSigned 32 i % 2 ^ 32) = i := by
  unfold toSigned ofSigned
  by_cases hneg : i < 0
  · rw [if_neg (by omega)]
    omega
  · rw [if_pos (by omega)]
    omega

theorem statResults_getI (d : Dev) {f : Fld} {i : Int} (hw : f.width = 32) (hf : (f, ofSigned 32 i) ∈ d.statResults)
    (hfits : -(2 ^ 31) ≤ i ∧ i < 2 ^ 31) : (d.setAll d.statResults).getI f = i := by
  rw [Dev.getI, statResults_get d hf, hw]
  exact toSigned_ofSigned_32 hfits.1 hfits.2

theorem statN_cast (d : Dev) : (d.statN : Int) = 2 ^ min 20 (d.get Reg.TDC_STAT_CTRL_K) := by
  rw [Dev.statN, Nat.cast_pow, Nat.cast_ofNat]

theorem floorDiv_statN (d : Dev) (x : Int) : floorDiv x d.statN = x / (d.statN : Int) :=
  Int.fdiv_eq_ediv_of_nonneg _ (Int.natCast_nonneg _)

theorem statDone_spec {s : State} (hup : s.dev.up = true) (hrun : s.dev.flag Reg.TDC_STAT_STATUS_RUNNING = true)
    (hfull : s.dev.statN ≤ s.dev.get Reg.TDC_STAT_STATUS_COUNT) :
    Answers .statDone s fun t =>
      t.dev.get Reg.TDC_STAT_STATUS_RUNNING = 0 ∧ t.dev.get Reg.TDC_STAT_STATUS_DONE = 1
      ∧ (let x := s.dev.acq.stat
         ((-(2 ^ 31) ≤ x.sum / (s.dev.statN : Int) ∧ x.sum / (s.dev.statN : Int) < 2 ^ 31) →
            t.dev.getI Reg.TDC_STAT_MEAN_MEAN = x.sum / (s.dev.statN : Int))
         ∧ ((-(2 ^ 31) ≤ x.mn ∧ x.mn < 2 ^ 31) → t.dev.getI Reg.TDC_STAT_MIN_MIN = x.mn)
         ∧ ((-(2 ^ 31) ≤ x.mx ∧ x.mx < 2 ^ 31) → t.dev.getI Reg.TDC_STAT_MAX_MAX = x.mx)
         ∧ (s.dev.statVar < 2 ^ 84 → 0 ≤ s.dev.statVar → ∃ r : Nat,
             (r : Int) * r ≤ s.dev.statVar ∧ s.dev.statVar < ((r : Int) + 1) * (r + 1)
             ∧ t.dev.get Reg.TDC_STAT_DEV_DEV = r / s.dev.statN % 2 ^ 32))
      ∧ t = { s with dev := { s.dev with regs := t.dev.regs } }
      ∧ RegsKeepAll [Reg.TDC_STAT_STATUS_RUNNING.key, Reg.TDC_STAT_STATUS_DONE.key, Reg.TDC_STAT_MEAN_MEAN.key, Reg.TDC_STAT_DEV_DEV.key,
          Reg.TDC_STAT_MIN_MIN.key, Reg.TDC_STAT_MAX_MAX.key] s.dev t.dev := by
  refine ⟨_, exec_statDone hup hrun hfull, statResults_get _ (.tail _ (.tail _ (.tail _ (.tail _ (.head _))))),
    statResults_get _ (.tail _ (.tail _ (.tail _ (.tail _ (.tail _ (.head _)))))), ⟨fun hfits => ?_, ?_, ?_, fun hsmall hpos => ?_⟩,
    congrArg (fun d : Dev => { s with dev := d }) (setAll_regs _ _), ?_⟩
  · exact statResults_getI s.dev rfl (by rw [← floorDiv_statN]; exact .head _) hfits
  · exact statResults_getI s.dev rfl (.tail _ (.tail _ (.head _)))
  · exact statResults_getI s.dev rfl (.tail _ (.tail _ (.tail _ (.head _))))
  · obtain ⟨hle, hlt⟩ := isqrt_toNat_spec hpos hsmall
    exact ⟨_, hle, hlt, statResults_get _ (.tail _ (.head _))⟩
  · exact regsKeepAll_mono (regsKeepAll_setAll (l := s.dev.statResults) (ks := statResultFields.map Fld.key) rfl) (by decide)

/-- Settles O28: a start empties the engine, an abort stops it, and the end shows floor, root and extremes of what it holds. -/
theorem intervalStatistics : Obligations.IntervalStatistics := by
  refine ⟨fun src v s => statStart_spec, fun src s hp hrole => ?_, fun s hup hrun hfull => ?_⟩
  · exact ⟨_, exec_statAbort hp hrole, Dev.get_set_same _ _ _, rfl, regsKeepAll_set _ _ _⟩
  · obtain ⟨t, hexec, hstopped, hdone, hresults, hframe, hregs⟩ := statDone_spec hup hrun hfull
    unfold Dev.statVar at hresults
    rw [statN_cast] at hresults
    exact ⟨t, hexec, hstopped, hdone, hresults, hframe, hregs⟩

end Sys2Proof.Machine
end

section
/-! PROOF. Lending: a lent conversion enters the phase average, the average is latched, and the latched one refines stamps; O29 from them. -/
namespace Sys2Proof.Machine
open Sys2Proof.Safety

/-! ### A lent conversion (R144, R145) -/

/-- Full mode takes a conversion whenever the TDC is idle. -/
def Dev.lendsNow (d : Dev) (n : Nat) (count : Int) : Prop := d.lentFull n = true ∧ d.tdcIdle n count = true

/-- Share mode takes the one of the frame armed at edge 0 of cycle 200. -/
def Dev.lendsInTurn (d : Dev) (n : Nat) (count : Int) : Prop :=
  d.lentFull n = false ∧ d.tdcIdle n (d.edgeCount 200) = true ∧ d.edgeCount 200 ≤ count ∧ count ≤ d.edgeCount 200 + 16
    ∧ ∀ p, (d.chan n).lent = some p → p.2 ≠ d.fn

theorem lendTurn_eq (d : Dev) (k n : Nat) (count : Int) :
    d.lendTurn k n count
      = ((!d.lendsLane (1 - k) n || (d.chan n).lent.all fun p => p.1 != k)
        && if d.lentFull n then d.tdcIdle n count
           else d.tdcIdle n (d.edgeCount 200) && decide (d.edgeCount 200 ≤ count) && decide (count ≤ d.edgeCount 200 + 16)
             && (d.chan n).lent.all fun p => p.2 != d.fn) := by
  unfold Dev.lendTurn
  cases (d.chan n).lent <;> rfl

theorem all_ne_of {last : Option (Nat × Nat)} {g : Nat × Nat → Nat} {a : Nat} (h : ∀ p, last = some p → g p ≠ a) :
    (last.all fun p => g p != a) = true :=
  (Option.all_eq_true _ _).2 fun p hp => bne_iff_ne.2 (h p hp)

theorem lendTurn_of {d : Dev} {k n : Nat} {count : Int} (hturn : d.lendsLane (1 - k) n = false ∨ ∀ p, (d.chan n).lent = some p → p.1 ≠ k)
    (hmode : d.lendsNow n count ∨ d.lendsInTurn n count) : d.lendTurn k n count = true := by
  rw [lendTurn_eq]
  refine Bool.and_eq_true_iff.2 ⟨?_, ?_⟩
  · rcases hturn with hother | hlast
    · rw [hother]
      rfl
    · rw [all_ne_of hlast, Bool.or_true]
  · rcases hmode with ⟨hfull, hidle⟩ | ⟨hshare, hidle, hfrom, hto, hlast⟩
    · rw [if_pos hfull, hidle]
    · rw [if_neg (by rw [hshare]; decide), hidle, decide_eq_true hfrom, decide_eq_true hto, all_ne_of hlast]
      rfl

/-- The channel with its TDC taken for domain `k` in frame `fn`. -/
def Chan.lentTo (k fn : Nat) (count : Int) (c : Chan) : Chan := { c with lastE := some count, lent := some (k, fn) }

/-- The average with one more phase, which is the first of it where none was. -/
def Dom.addPhase (x : Int) (y : Dom) : Dom := { y with phi0 := some (y.phi0.getD x), phSum := y.phSum + x, phN := y.phN + 1 }

theorem exec_lenderConversion {k : Nat} (hk : k < 2) (cyc j code : Nat) (s : State) :
    exec (.lenderConversion k cyc j code) s = .next { s with dev := s.dev.lend k cyc j code } := onUnit_of_lt hk _ s

theorem lend_eq {d : Dev} {k n cyc j code : Nat} (hn : n = d.lender k) (hup : d.up = true) (hlane : d.lendsLane k n = true)
    (hok : d.lenderOk n = true) (hcode : code < 128) (hturn : d.lendTurn k n (d.edgeCount cyc + j) = true) :
    d.lend k cyc j code = (d.updChan n (Chan.lentTo k d.fn (d.edgeCount cyc + j))).updDom k
      (Dom.addPhase (d.phaseOf (d.dom k).phi0 (d.convInstant n cyc j code))) := by
  subst hn
  unfold Dev.lend
  exact if_pos (by rw [hup, hlane, hok, decide_eq_true hcode, hturn]; rfl)

theorem dom_updDom (d : Dev) (k j : Nat) (g : Dom → Dom) : (d.updDom k g).dom j = if j = k then g (d.dom k) else d.dom j :=
  d.dom_setDom k j _

theorem lendsLane_of {d : Dev} {k n : Nat} (hn : n = d.lender k) (hen : d.flag (Reg.TIM_DOM_CFG_ENABLE k) = true)
    (hport : d.get (Reg.TIM_DOM_CFG_PORT k) ≠ 63) (hfull : d.lstate (d.get (Reg.TIM_DOM_CFG_PORT k)) = 4) : d.lendsLane k n = true := by
  simp [Dev.lendsLane, hen, hport, hfull, hn]

/-! ### The average is latched (R145) -/

/-- The mean waits for the boundary, and the average begins again. -/
def Dom.latched (y : Dom) : Dom := { y with phMean := some (y.phSum / (y.phN : Int)), phSum := 0, phN := 0, phi0 := none }

theorem exec_phaseAvgDone {k : Nat} (hk : k < 2) (s : State) : exec (.phaseAvgDone k) s = .next { s with dev := s.dev.phaseDone k } :=
  onUnit_of_lt hk _ s

theorem phaseDone_eq {d : Dev} {k : Nat} (hup : d.up = true) (hfull : 2 ^ min 20 (d.get Reg.TIM_CTRL_PHASE_AVG_K) ≤ (d.dom k).phN) :
    d.phaseDone k = d.updDom k Dom.latched := by
  have hmean : floorDiv (d.dom k).phSum (d.dom k).phN = (d.dom k).phSum / ((d.dom k).phN : Int) :=
    Int.fdiv_eq_ediv_of_nonneg _ (Int.natCast_nonneg _)
  have hdo : d.phaseDone k = d.setDom k
      { d.dom k with phMean := some (floorDiv (d.dom k).phSum (d.dom k).phN), phSum := 0, phN := 0, phi0 := none } := by
    unfold Dev.phaseDone
    exact if_pos (by rw [hup, Bool.true_and]; exact decide_eq_true hfull)
  rw [hdo, hmean]
  rfl

/-! ### The latched mean refines (R55, R145) -/

/-- A boundary makes the mean in hand the one that refines, while the lender stamps and the lane is at full rate. -/
theorem refineBoundary_dom {d : Dev} {k : Nat} (hen : d.flag (Reg.TIM_DOM_CFG_ENABLE k) = true) (hok : d.lenderOk (d.lender k) = true)
    (hmean : (d.dom k).phMean.isSome = true) (hfull : d.lstate (d.get (Reg.TIM_DOM_CFG_PORT k)) = 4) :
    (d.refineBoundary k).dom k = { d.dom k with refined := true, phase := (d.dom k).phMean } := by
  unfold Dev.refineBoundary
  rw [hen, hok, hmean, hfull, Dev.updDom_eq, Dev.dom_setDom_same]
  simp

/-- On the port of domain 0 the phase of that domain refines. -/
theorem refine_domainZero {l : Nat} {d : Dev} (hen : d.flag (Reg.TIM_DOM_CFG_ENABLE 0) = true) (hport : d.get (Reg.TIM_DOM_CFG_PORT 0) = l)
    (href : (d.dom 0).refined = true) {p : Int} (hphase : (d.dom 0).phase = some p) (raw : Int) : d.refine l raw = raw + p := by
  have hstamp : d.stampPhase l = some p := by
    simp [Dev.stampPhase, List.range_succ, hen, hport, href, hphase]
  rw [Dev.refine, hstamp]
  rfl

/-- Settles O29: a conversion that its turn and mode take adds to the average, and the latched mean is the one that refines. -/
theorem lentConversionsAverage : Obligations.LentConversionsAverage := by
  refine ⟨fun k cyc j code n s hk hn hup hen hport hok hcode hfull hturn hmode => ?_, fun k s hk hup hfull => ?_,
    fun k d => refineBoundary_dom, fun l raw d hen hport href p hphase => refine_domainZero hen hport href hphase raw⟩
  · have hexec := exec_lenderConversion hk cyc j code s
    rw [lend_eq hn hup (lendsLane_of hn hen hport hfull) hok hcode (lendTurn_of hturn hmode)] at hexec
    exact ⟨_, hexec, ⟨(dom_updDom _ k k _).trans (if_pos rfl), chan_updChan_same _ _ _,
      fun m hm => (s.dev.chan_setChan n m _).trans (if_neg hm)⟩, (dom_updDom _ k (1 - k) _).trans (if_neg (by omega)), rfl⟩
  · have hexec := exec_phaseAvgDone hk s
    rw [phaseDone_eq hup hfull] at hexec
    exact ⟨_, hexec, (dom_updDom _ k k _).trans (if_pos rfl), (dom_updDom _ k (1 - k) _).trans (if_neg (by omega)), rfl⟩

end Sys2Proof.Machine
end

section
/-! PROOF. A capture closes, and the dead count is latched; O31 from them. -/
namespace Sys2Proof.Machine
open Sys2Proof.Safety

/-! ### The first element of its kind, changed -/

/-- A change that keeps what `g` reads keeps what `g` reads of the whole list. -/
theorem map_updFirst {α β : Type} {p : α → Bool} {f : α → α} {g : α → β} (h : ∀ x, p x = true → g (f x) = g x) (l : List α) :
    (updFirst p f l).map g = l.map g := by
  induction l with
  | nil => rfl
  | cons x l ih =>
    unfold updFirst
    split
    next hx => rw [List.map_cons, List.map_cons, h x hx]
    next => rw [List.map_cons, List.map_cons, ih]

theorem length_updFirst {α : Type} (p : α → Bool) (f : α → α) (l : List α) : (updFirst p f l).length = l.length := by
  simpa using congrArg List.length (map_updFirst (p := p) (f := f) (g := fun _ => ()) (fun _ _ => rfl) l)

/-- Where the changed element is still of its kind, it is the first of it. -/
theorem find?_updFirst {α : Type} {p : α → Bool} {f : α → α} (h : ∀ x, p x = true → p (f x) = true) (l : List α) :
    (updFirst p f l).find? p = (l.find? p).map f := by
  induction l with
  | nil => rfl
  | cons x l ih =>
    unfold updFirst
    split
    next hx => rw [List.find?_cons_of_pos (h x hx), List.find?_cons_of_pos hx, Option.map_some]
    next hx => rw [List.find?_cons_of_neg hx, List.find?_cons_of_neg hx, ih]

/-! ### The captures of one channel -/

theorem chan_updChan_ne (d : Dev) {n m : Nat} (h : m ≠ n) (g : Chan → Chan) : (d.updChan n g).chan m = d.chan m :=
  (d.chan_setChan n m _).trans (if_neg h)

/-- Of the captures at the trigger sample of one that the channel has, the first is the one changed. -/
theorem find?_updFirst_capX {k : Cap} {l : List Cap} (hk : k ∈ l) {f : Cap → Cap} (hf : ∀ y, (f y).x = y.x ∨ (f y).x = k.x) :
    ∃ y, (updFirst (fun c => c.x == k.x) f l).find? (fun c => c.x == k.x) = some (f y) := by
  obtain ⟨y, hy⟩ := Option.isSome_iff_exists.1
    (List.find?_isSome.2 ⟨k, hk, beq_self_eq_true k.x⟩ : (l.find? fun c => c.x == k.x).isSome = true)
  refine ⟨y, ?_⟩
  rw [find?_updFirst (fun x hx => ?_), hy, Option.map_some]
  rcases hf x with h | h
  · rw [h]
    exact hx
  · rw [h]
    exact beq_self_eq_true k.x

/-- AT_LIMIT and CAPTURE_OPEN follow the captures; nothing else changes (R191). -/
theorem capStatus_spec (d : Dev) (n : Nat) :
    (d.capStatus n).get (Reg.CH_TRG_STATUS_CAPTURE_OPEN n) = b2n ((d.chan n).caps.any fun c => c.stage == 0)
    ∧ d.capStatus n = { d with regs := (d.capStatus n).regs }
    ∧ RegsKeepAll [(Reg.CH_TRG_STATUS_CAPTURE_OPEN n).key, (Reg.CH_TRG_STATUS_AT_LIMIT n).key] d (d.capStatus n) := by
  have hne : (Reg.CH_TRG_STATUS_CAPTURE_OPEN n).key ≠ (Reg.CH_TRG_STATUS_AT_LIMIT n).key := by
    simp only [Fld.key, Reg.CH_TRG_STATUS_CAPTURE_OPEN, Reg.CH_TRG_STATUS_AT_LIMIT]
    omega
  refine ⟨?_, rfl, regsKeepAll_trans (b := d.setB (Reg.CH_TRG_STATUS_CAPTURE_OPEN n) _) (regsKeepAll_set_of_mem (by simp))
    (regsKeepAll_set_of_mem (by simp))⟩
  refine (Dev.get_set_ne _ hne _).trans ((Dev.get_set_same _ _ _).trans ?_)
  rw [List.isSome_find?]
  cases (d.chan n).caps.any fun c => c.stage == 0 <;> rfl

/-! ### CAPTURE_CLOSE (R172) -/

def Cap.close (k : Cap) : Cap := { k with stage := 1 }

/-- The captures with the one of `k`'s trigger sample closed. -/
def Chan.closeCap (k : Cap) (c : Chan) : Chan := { c with caps := updFirst (fun y => y.x == k.x) Cap.close c.caps }

theorem captureClose_eq {d : Dev} {n : Nat} {k : Cap} (hup : d.up = true) (hopen : (d.chan n).caps.find? (fun c => c.stage == 0) = some k)
    (hmerged : k.last < (d.chan n).merged) : d.captureClose n = (d.updChan n (Chan.closeCap k)).capStatus n := by
  unfold Dev.captureClose
  dsimp only
  rw [hopen]
  exact if_pos (by rw [hup, Bool.true_and]; exact decide_eq_true hmerged)

theorem captureClose_spec {n : Nat} {k : Cap} {s : State} (hn : n < 48) (hup : s.dev.up = true)
    (hopen : (s.dev.chan n).caps.find? (fun c => c.stage == 0) = some k) (hmerged : k.last < (s.dev.chan n).merged) :
    Answers (.captureClose n) s fun t =>
      (t.dev.chan n).caps.map (fun c => (c.x, c.start, c.last)) = (s.dev.chan n).caps.map (fun c => (c.x, c.start, c.last))
      ∧ ((t.dev.chan n).caps.find? fun c => c.x == k.x).map (·.stage) = some 1
      ∧ t.dev.chan n = { s.dev.chan n with caps := (t.dev.chan n).caps }
      ∧ (∀ m : Nat, m ≠ n → t.dev.chan m = s.dev.chan m)
      ∧ t = { s with dev := { s.dev with regs := t.dev.regs, acq := { s.dev.acq with chans := t.dev.acq.chans } } }
      ∧ RegsKeepAll [(Reg.CH_TRG_STATUS_CAPTURE_OPEN n).key, (Reg.CH_TRG_STATUS_AT_LIMIT n).key] s.dev t.dev := by
  have hexec : exec (.captureClose n) s = .next { s with dev := s.dev.captureClose n } := onUnit_of_lt hn _ s
  rw [captureClose_eq hup hopen hmerged] at hexec
  have hchan : ((s.dev.updChan n (Chan.closeCap k)).capStatus n).chan n = (s.dev.chan n).closeCap k := chan_updChan_same _ _ _
  obtain ⟨-, -, hregs⟩ := capStatus_spec (s.dev.updChan n (Chan.closeCap k)) n
  refine ⟨_, hexec, ?_, ?_, ?_, fun m hm => chan_updChan_ne s.dev hm _, rfl, hregs⟩
  · rw [hchan]
    exact map_updFirst (f := Cap.close) (fun _ _ => rfl) _
  · obtain ⟨y, hy⟩ := find?_updFirst_capX (List.mem_of_find?_eq_some hopen) (f := Cap.close) fun _ => .inl rfl
    rw [hchan]
    exact (congrArg (Option.map (·.stage)) hy).trans rfl
  · rw [hchan]
    rfl

/-! ### TRG_DEAD_CAPTURE (R195) -/

theorem deadCapture_spec (d : Dev) {v : Nat}
    (hv : v = if d.get Reg.TRG_DEAD_SEL_CHAN < 48 then getT 0 (4 * d.get Reg.TRG_DEAD_SEL_CHAN + d.get Reg.TRG_DEAD_SEL_REASON) d.acq.dead else 0) :
    d.deadCapture.get Reg.TRG_DEAD_LO_COUNT_LO = v % 2 ^ 32 ∧ d.deadCapture.get Reg.TRG_DEAD_HI_COUNT_HI = v / 2 ^ 32 % 65536
    ∧ RegsKeepAll [Reg.TRG_DEAD_LO_COUNT_LO.key, Reg.TRG_DEAD_HI_COUNT_HI.key] d d.deadCapture := by
  have hdo : d.deadCapture = (d.set Reg.TRG_DEAD_LO_COUNT_LO v).set Reg.TRG_DEAD_HI_COUNT_HI (v / 2 ^ 32) := by rw [hv]; rfl
  rw [hdo]
  exact ⟨(Dev.get_set_ne _ (by decide) _).trans (d.get_set_same _ _), Dev.get_set_same _ _ _,
    regsKeepAll_trans (b := d.set Reg.TRG_DEAD_LO_COUNT_LO v) (regsKeepAll_set_of_mem (by simp)) (regsKeepAll_set_of_mem (by simp))⟩

theorem exec_trgDeadCapture {s : State} (hup : s.dev.up = true) : exec .trgDeadCapture s = .next { s with dev := s.dev.deadCapture } := by
  show onDev (fun d => whenD d.up Dev.deadCapture d) s = _
  rw [onDev, hup, whenD_true]

/-- Settles O31: a close changes the stage of one capture, a capture of the dead count splits it over two words. -/
theorem capturesCloseAndDeadCountsRead : Obligations.CapturesCloseAndDeadCountsRead := by
  refine ⟨fun n k s => captureClose_spec, fun s hup => ?_⟩
  obtain ⟨hlo, hhi, hregs⟩ := deadCapture_spec s.dev rfl
  refine ⟨_, exec_trgDeadCapture hup, fun hsel => ?_, fun hsel => ?_, rfl, hregs⟩
  · rw [if_pos hsel] at hlo hhi
    exact ⟨hlo, hhi⟩
  · rw [if_neg (by omega)] at hlo hhi
    exact ⟨hlo, hhi⟩

end Sys2Proof.Machine
end

section
/-! PROOF. A stream slot's settings: taken where no check of the budget fails, refused otherwise; O33 from them. -/
namespace Sys2Proof.Machine
open Sys2Proof.Safety

/-! ### The slot's register (R201) -/

/-- The fields of TRG_STREAM_CFG. -/
def slotFields (k : Nat) : List Fld :=
  [Reg.TRG_STREAM_CFG_ENABLE k, Reg.TRG_STREAM_CFG_CHAN k, Reg.TRG_STREAM_CFG_LANE k, Reg.TRG_STREAM_CFG_RESERVE k]

theorem fieldsAt_streamCfg : ∀ k < 4, fieldsAt (0x3700 + 8 * k) = slotFields k ∧ syncAt (0x3700 + 8 * k) = true := by decide +kernel

theorem slotFields_apart : ∀ k < 4, ((slotFields k).Pairwise fun a b => a.key ≠ b.key)
    ∧ ∀ f ∈ slotFields k, Reg.HM_STATUS_RWL_LOCKED.key ≠ f.key ∧ f.acc = .rw ∧ f.key < 0x4000 * 32 := by decide

/-- The settings of a slot are what its four fields hold. -/
theorem slotWritten_congr {d e : Dev} {k : Nat} (h : ∀ f ∈ slotFields k, e.get f = d.get f) : e.slotWritten k = d.slotWritten k := by
  simp only [slotFields, List.forall_mem_cons] at h
  obtain ⟨hen, hchan, hlane, hres, -⟩ := h
  rw [Dev.slotWritten, Dev.slotWritten, Dev.flag, Dev.flag, hen, hchan, hlane, hres]

theorem slotWritten_writeFields (d : Dev) {k : Nat} (hk : k < 4) (w : Nat) : (d.writeFields (slotFields k) w).slotWritten k = slotCfg w := by
  obtain ⟨hapart, hrw⟩ := slotFields_apart k hk
  have hget (f : Fld) (hf : f ∈ slotFields k) : (d.writeFields (slotFields k) w).get f = bits w f.lo f.width :=
    get_writeFields_rw w hf hapart (fun g hg => (hrw g hg).1) (hrw f hf).2.1
  have henable : (bits w 0 1 != 0) = bitOf w 0 := by
    rw [bits, bitOf, Bool.eq_iff_iff, bne_iff_ne, beq_iff_eq]
    omega
  simp only [slotFields, List.forall_mem_cons] at hget
  obtain ⟨hen, hchan, hlane, hres, -⟩ := hget
  rw [Dev.slotWritten, Dev.flag]
  simp only [slotFields]
  rw [hen, hchan, hlane, hres]
  exact congrArg (SlotCfg.mk · _ _ _) henable

/-- The outcome's event counts in no register below the Compression block. -/
theorem get_trgEvent {f : Fld} (hf : f.key < 0x4000 * 32) (d : Dev) (cause : Nat) (data : List Nat) : (d.trgEvent cause data).get f = d.get f :=
  Dev.raiseOpen_get d 4 cause data (notTalk_below_compression hf)

/-! ### The checks of the budget (R183) -/

theorem budgetReason_lt (d : Dev) (k : Nat) (c : SlotCfg) : d.budgetReason k c < 8 := by
  unfold Dev.budgetReason
  dsimp only
  split_ifs <;> decide

/-- The other slots, as last written. -/
def Dev.otherSlots (d : Dev) (k : Nat) : List SlotCfg := ((List.range 4).filter (· != k)).map d.slotWritten

theorem mem_otherSlots (d : Dev) {j k : Nat} (hj : j < 4) (hne : j ≠ k) : d.slotWritten j ∈ d.otherSlots k :=
  List.mem_map_of_mem (List.mem_filter.2 ⟨List.mem_range.2 hj, bne_iff_ne.2 hne⟩)

/-- What an enabled slot that passes has: a channel of its own, a lane of the mask, and room on it. -/
theorem budget_of_passed {d : Dev} {k : Nat} {c : SlotCfg} (hpass : d.budgetReason k c = 0) (hen : c.enable = true) :
    c.chan < 48 ∧ bitOf (d.get Reg.GLB_ROLE_CFG_UPLINK_MASK) c.lane = true
    ∧ (∀ o ∈ d.otherSlots k, o.enable = true → o.chan ≠ c.chan)
    ∧ c.reserve + (((d.otherSlots k).filter fun o => o.enable && o.lane == c.lane).map (·.reserve)).sum ≤ 320 := by
  unfold Dev.budgetReason at hpass
  dsimp only at hpass
  rw [hen] at hpass
  split_ifs at hpass with hoff hrole htaken hchan hlane hfloor hroom
  · simp at hoff
  · refine ⟨?_, by simpa using hlane, fun o ho hoen heq => htaken ?_, Nat.not_lt.1 hroom⟩
    · simp only [Bool.or_eq_true, decide_eq_true_eq, not_or] at hchan
      exact Nat.not_le.1 hchan.1
    · exact List.any_eq_true.2 ⟨o, ho, by simp [hoen, heq]⟩

/-! ### A write of the slot -/

theorem exec_streamCfgWrite {src : Source} {k : Nat} {v : Word} {s : State} (hk : k < 4) (hp : Passes s.dev src (0x3700 + 8 * k)) :
    exec (.streamCfgWrite src k v) s = .next { s with dev := (s.dev.writeStreamCfg src k v.toNat).2 } :=
  (onUnit_of_lt hk _ s).trans
    (congrArg (fun d : Dev => (Host.Outcome.next { s with dev := d } : Res)) (gated_of_passes hp fun d => (d.writeStreamCfg src k v.toNat).2))

theorem writeStreamCfg_of_otherRole {d : Dev} (h : d.role ≠ .frontEnd) (src : Source) (k w : Nat) : d.writeStreamCfg src k w = (true, d) :=
  if_pos (bne_iff_ne.2 h)

/-- A write that passes stores its settings, which wait, and is told. -/
theorem writeStreamCfg_taken {d : Dev} {src : Source} {k w : Nat} (hk : k < 4) (hrole : d.role = .frontEnd)
    (hpass : d.budgetReason k (slotCfg w) = 0) :
    (d.writeStreamCfg src k w).2
      = ((d.writeFields (slotFields k) w).enqueue (.reg src (0x3700 + 8 * k) (w32 w))).trgEvent 2 [k] := by
  obtain ⟨hfields, hsync⟩ := fieldsAt_streamCfg k hk
  unfold Dev.writeStreamCfg
  dsimp only
  rw [if_neg (by rw [hrole]; decide), if_pos hpass, plainWrite_of_sync hsync, hfields]

/-- TRG_BUDGET_STATUS of a refusal: the slot, the first failed check `r`, and the least reserve where the channel has one. -/
def Dev.refusal (d : Dev) (k r : Nat) (c : SlotCfg) : List (Fld × Nat) :=
  [(Reg.TRG_BUDGET_STATUS_REFUSED, 1), (Reg.TRG_BUDGET_STATUS_REASON, r), (Reg.TRG_BUDGET_STATUS_SLOT, k), (Reg.TRG_BUDGET_STATUS_FLOOR,
    if c.chan < 48 then (rawWords (log2dOf (d.get (Reg.CH_DEC_LOG2D c.chan))) (d.get (Reg.CH_DEC_FMT c.chan)) + 1) / 2 else 0)]

/-- The fields they stand in. -/
def refusalFields : List Fld :=
  [Reg.TRG_BUDGET_STATUS_REFUSED, Reg.TRG_BUDGET_STATUS_REASON, Reg.TRG_BUDGET_STATUS_SLOT, Reg.TRG_BUDGET_STATUS_FLOOR]

theorem slotFields_not_refusal : ∀ k < 4, ∀ f ∈ slotFields k, ∀ g ∈ refusalFields, f.key ≠ g.key := by decide

theorem writeStreamCfg_refused {d : Dev} {src : Source} {k w : Nat} (hrole : d.role = .frontEnd) (hfail : d.budgetReason k (slotCfg w) ≠ 0) :
    (d.writeStreamCfg src k w).2
      = (d.setAll (d.refusal k (d.budgetReason k (slotCfg w)) (slotCfg w))).trgEvent 3 [k, d.budgetReason k (slotCfg w)] := by
  unfold Dev.writeStreamCfg
  dsimp only
  rw [if_neg (by rw [hrole]; decide), if_neg hfail]
  rfl

theorem streamCfg_taken {src : Source} {k : Nat} {v : Word} {s : State} (hk : k < 4) (hw : FrontEndWrite s.dev src (0x3700 + 8 * k))
    (hpass : s.dev.budgetReason k (slotCfg v.toNat) = 0) :
    Answers (.streamCfgWrite src k v) s fun t =>
      t.dev.slotWritten k = slotCfg v.toNat ∧ t.dev.queue = s.dev.queue ++ [.reg src (0x3700 + 8 * k) v] ∧ t.dev.force = s.dev.force
      ∧ t = { s with dev := { talked s.dev t.dev with queue := t.dev.queue, free := t.dev.free } }
      ∧ RegsKeep ((slotFields k).map Fld.key) s.dev t.dev := by
  obtain ⟨-, hrw⟩ := slotFields_apart k hk
  have hexec := exec_streamCfgWrite (v := v) hk hw.1
  rw [writeStreamCfg_taken hk hw.2 hpass, w32_toNat] at hexec
  obtain ⟨e, he⟩ : ∃ e, e = (s.dev.writeFields (slotFields k) v.toNat).enqueue (.reg src (0x3700 + 8 * k) v) := ⟨_, rfl⟩
  have hdev : e = { s.dev with regs := e.regs, queue := s.dev.queue ++ [.reg src (0x3700 + 8 * k) v] } := by
    rw [he, writeFields_regs]
    rfl
  rw [← he] at hexec
  have htalks : Talks e (e.trgEvent 2 [k]) := raiseOpen_talks e 4 2 [k]
  refine ⟨_, hexec, ?_, (Dev.raiseOpen_queue ..).trans (by rw [hdev]), (Dev.raiseOpen_force ..).trans (by rw [hdev]), ?_, ?_⟩
  · rw [slotWritten_congr fun f hf => get_trgEvent (hrw f hf).2.2 e 2 [k], he]
    exact slotWritten_writeFields s.dev hk v.toNat
  · refine congrArg (fun d : Dev => { s with dev := d }) (htalks.1.trans ?_)
    rw [htalks.1, hdev]
    rfl
  · exact regsKeep_trans (b := e) (he ▸ regsKeep_of_regsKeepAll (regsKeepAll_writeFields (d := s.dev) (w := v.toNat) rfl)) (htalks.keep _)

theorem streamCfg_refused {src : Source} {k : Nat} {v : Word} {s : State} (hk : k < 4) (hw : FrontEndWrite s.dev src (0x3700 + 8 * k))
    (hfail : s.dev.budgetReason k (slotCfg v.toNat) ≠ 0) :
    Answers (.streamCfgWrite src k v) s fun t =>
      t.dev.slotWritten k = s.dev.slotWritten k ∧ t.dev.get Reg.TRG_BUDGET_STATUS_REFUSED = 1
      ∧ t.dev.get Reg.TRG_BUDGET_STATUS_REASON = s.dev.budgetReason k (slotCfg v.toNat) ∧ t.dev.get Reg.TRG_BUDGET_STATUS_SLOT = k
      ∧ t = { s with dev := { talked s.dev t.dev with free := t.dev.free } }
      ∧ RegsKeep (refusalFields.map Fld.key) s.dev t.dev := by
  obtain ⟨-, hrw⟩ := slotFields_apart k hk
  have hlt := budgetReason_lt s.dev k (slotCfg v.toNat)
  have hexec := exec_streamCfgWrite (v := v) hk hw.1
  rw [writeStreamCfg_refused hw.2 hfail] at hexec
  generalize s.dev.budgetReason k (slotCfg v.toNat) = r at *
  have hget {f : Fld} {x : Nat} (hlow : f.key < 0x4000 * 32) (hf : (f, x) ∈ s.dev.refusal k r (slotCfg v.toNat)) :
      ((s.dev.setAll (s.dev.refusal k r (slotCfg v.toNat))).trgEvent 3 [k, r]).get f = x % 2 ^ f.width :=
    (get_trgEvent hlow _ _ _).trans (get_setAll_of_mem (fs := refusalFields) rfl (by decide) hf)
  have htalks : Talks (s.dev.setAll (s.dev.refusal k r (slotCfg v.toNat))) ((s.dev.setAll (s.dev.refusal k r (slotCfg v.toNat))).trgEvent 3 [k, r]) :=
    raiseOpen_talks _ 4 3 [k, r]
  refine ⟨_, hexec, slotWritten_congr fun f hf => ?_, hget (by decide) (.head _),
    (hget (by decide) (.tail _ (.head _))).trans (Nat.mod_eq_of_lt hlt), (hget (by decide) (.tail _ (.tail _ (.head _)))).trans (Nat.mod_eq_of_lt hk), ?_, ?_⟩
  · refine (get_trgEvent (hrw f hf).2.2 _ _ _).trans (get_setAll_ne fun p hp => ?_)
    exact slotFields_not_refusal k hk f hf p.1 (List.mem_map_of_mem (f := Prod.fst) hp)
  · refine congrArg (fun d : Dev => { s with dev := d }) (htalks.1.trans ?_)
    rw [htalks.1, setAll_regs]
    rfl
  · exact regsKeep_trans (regsKeep_of_regsKeepAll (regsKeepAll_setAll rfl)) (htalks.keep _)

/-- Settles O33: a write is taken or refused by its first failed check, and what passes the checks keeps to the budget. -/
theorem streamSlotsWithinTheBudget : Obligations.StreamSlotsWithinTheBudget := by
  refine ⟨fun src k v s hk hp hrole => ?_, fun src k v s => streamCfg_taken, fun src k v s => streamCfg_refused, fun d k c _ _ hpass hen => ?_⟩
  · rw [exec_streamCfgWrite hk hp, writeStreamCfg_of_otherRole hrole]
  · obtain ⟨hchan, hlane, hown, hroom⟩ := budget_of_passed hpass hen
    exact ⟨hchan, hlane, fun j hj hne => hown _ (mem_otherSlots d hj hne), hroom⟩

end Sys2Proof.Machine
end

section
/-! PROOF. Mask envelopes: the shadow is written point by point, and a boundary makes it active, quad by quad; O32 from them. -/
namespace Sys2Proof.Machine
open Sys2Proof.Safety

/-! ### Bits set -/

theorem bitOf_or (m n i : Nat) : bitOf (m ||| n) i = (bitOf m i || bitOf n i) := by
  simp only [bitOf_eq_testBit, Nat.testBit_or]

/-- A bit that was clear carries into no higher one. -/
theorem bitOf_add_two_pow_of_gt {n i j : Nat} (hclear : ¬ bitOf n j = true) (h : j < i) : bitOf (n + 2 ^ j) i = bitOf n i := by
  have hcarry : (n + 2 ^ j) / 2 ^ j / 2 = n / 2 ^ j / 2 := by
    rw [Nat.add_div_right n (Nat.two_pow_pos j)]
    simp only [bitOf, beq_iff_eq] at hclear
    omega
  have hsplit : 2 ^ i = 2 ^ j * 2 * 2 ^ (i - (j + 1)) := by
    rw [← pow_succ, ← pow_add]
    congr 1
    omega
  simp only [bitOf, hsplit, ← Nat.div_div_eq_div_mul, hcarry]

theorem bitOf_setBit (n i j : Nat) : bitOf (setBit n j) i = (bitOf n i || decide (i = j)) := by
  unfold setBit
  split
  next hset =>
    by_cases h : i = j
    · rw [h, hset, Bool.true_or]
    · rw [decide_eq_false h, Bool.or_false]
  next hclear =>
    rcases Nat.lt_trichotomy i j with h | rfl | h
    · rw [bitOf_eq_testBit, Nat.add_comm, Nat.testBit_two_pow_add_gt h, decide_eq_false h.ne, Bool.or_false, bitOf_eq_testBit]
    · rw [bitOf_eq_testBit, Nat.add_comm, Nat.testBit_two_pow_add_eq, ← bitOf_eq_testBit, Bool.eq_false_iff.2 hclear]
      simp
    · rw [bitOf_add_two_pow_of_gt hclear h, decide_eq_false h.ne', Bool.or_false]

theorem bitOf_foldl_setBit (l : List Nat) (n i : Nat) : bitOf (l.foldl setBit n) i = (bitOf n i || decide (i ∈ l)) := by
  induction l generalizing n with
  | nil => simp
  | cons j l ih =>
    rw [List.foldl_cons, ih, bitOf_setBit, Bool.or_assoc, ← Bool.decide_or]
    simp only [List.mem_cons]

theorem bitOf_maskOf (l : List Nat) (i : Nat) : bitOf (maskOf l) i = decide (i ∈ l) := by
  rw [maskOf, bitOf_foldl_setBit, bitOf_eq_testBit, Nat.zero_testBit, Bool.false_or]

theorem mem_setBits {n w i : Nat} : i ∈ setBits n w ↔ i < w ∧ bitOf n i = true := by
  rw [setBits, List.mem_filter, List.mem_range]

/-! ### Writes of the mask's registers (R179, R199, R200) -/

/-- A row that only a front-end carries out has its effect there. -/
theorem gated_of_frontEndWrite {d : Dev} {src : Source} {a : Nat} (h : FrontEndWrite d src a) (f : Dev → Dev) :
    d.gated src a (fun d => whenD (d.role == .frontEnd) f d) = f d := by
  rw [gated_of_passes h.1, h.2]
  rfl

theorem exec_trgMaskDataWrite {src : Source} {v : Word} {s : State} (h : FrontEndWrite s.dev src 0x36A4) :
    exec (.trgMaskDataWrite src v) s = .next { s with dev := s.dev.maskData v.toNat } :=
  congrArg (fun d : Dev => (Host.Outcome.next { s with dev := d } : Res)) (gated_of_frontEndWrite h fun d => d.maskData v.toNat)

/-- The place of the selected point in the shadow. -/
def Dev.maskPoint (d : Dev) : Nat :=
  (2 * d.get Reg.TRG_MASK_ADDR_QUAD + d.get Reg.TRG_MASK_ADDR_ENV) * 512 + d.get Reg.TRG_MASK_ADDR_POINT

/-- The device with `x` at place `k` of the shadow. -/
def Dev.withShadow (d : Dev) (k x : Nat) : Dev := { d with acq := { d.acq with envS := putT k x d.acq.envS } }

theorem maskData_of_quad {d : Dev} (h : d.get Reg.TRG_MASK_ADDR_QUAD < 12) (v : Nat) :
    d.maskData v = (d.withShadow d.maskPoint (v % 65536)).set Reg.TRG_MASK_ADDR_POINT ((d.get Reg.TRG_MASK_ADDR_POINT + 1) % 512) :=
  if_neg (Nat.not_le.2 h)

theorem maskData_of_noQuad {d : Dev} (h : 12 ≤ d.get Reg.TRG_MASK_ADDR_QUAD) (v : Nat) : d.maskData v = d := if_pos h

theorem trgMaskDataWrite_spec {src : Source} {v : Word} {s : State} (hw : FrontEndWrite s.dev src 0x36A4)
    (hquad : s.dev.get Reg.TRG_MASK_ADDR_QUAD < 12) :
    Answers (.trgMaskDataWrite src v) s fun t =>
      getT 0 s.dev.maskPoint t.dev.acq.envS = v.toNat % 65536
      ∧ (∀ j x : Nat, j ≠ s.dev.maskPoint → getT x j t.dev.acq.envS = getT x j s.dev.acq.envS)
      ∧ t.dev.get Reg.TRG_MASK_ADDR_POINT = (s.dev.get Reg.TRG_MASK_ADDR_POINT + 1) % 512
      ∧ t = { s with dev := { s.dev with regs := t.dev.regs, acq := { s.dev.acq with envS := t.dev.acq.envS } } }
      ∧ RegsKeepAll [Reg.TRG_MASK_ADDR_POINT.key] s.dev t.dev := by
  have hexec := exec_trgMaskDataWrite (v := v) hw
  rw [maskData_of_quad hquad] at hexec
  exact ⟨_, hexec, getT_putT_same _ _ _ _, fun j x hj => getT_putT_ne x hj _ _, (Dev.get_set_same _ _ _).trans (Nat.mod_mod _ _), rfl,
    regsKeepAll_set (s.dev.withShadow s.dev.maskPoint (v.toNat % 65536)) _ _⟩

theorem trgMaskCommit_spec {src : Source} {q : Nat} {s : State} (hw : FrontEndWrite s.dev src 0x36A8) :
    Answers (.trgMaskCommit src q) s fun t =>
      (∀ i : Nat, bitOf t.dev.acq.commit i = (bitOf s.dev.acq.commit i || (decide (i < 12) && bitOf q i)))
      ∧ t = { s with dev := { s.dev with acq := { s.dev.acq with commit := t.dev.acq.commit } } } := by
  have hexec : exec (.trgMaskCommit src q) s = .next { s with dev := s.dev.maskCommit q } :=
    congrArg (fun d : Dev => (Host.Outcome.next { s with dev := d } : Res)) (gated_of_frontEndWrite hw fun d => d.maskCommit q)
  refine ⟨_, hexec, fun i => ?_, rfl⟩
  have hlow : bitOf (q % 4096) i = (decide (i < 12) && bitOf q i) := by
    rw [bitOf_eq_testBit, show 4096 = 2 ^ 12 from rfl, Nat.testBit_mod_two_pow, bitOf_eq_testBit]
  exact (bitOf_or _ _ i).trans (congrArg (bitOf s.dev.acq.commit i || ·) hlow)

theorem maskRearm_spec {src : Source} {q : Nat} {s : State} (hq : q < 12) (hw : FrontEndWrite s.dev src (0x3640 + 4 * q)) :
    Answers (.maskRearm src q) s fun t =>
      (∀ i : Nat, bitOf t.dev.acq.rearm i = (bitOf s.dev.acq.rearm i || decide (i = q)))
      ∧ t = { s with dev := { s.dev with acq := { s.dev.acq with rearm := t.dev.acq.rearm } } } := by
  have hexec : exec (.maskRearm src q) s = .next { s with dev := s.dev.maskRearm q } :=
    (onUnit_of_lt hq _ s).trans
      (congrArg (fun d : Dev => (Host.Outcome.next { s with dev := d } : Res)) (gated_of_frontEndWrite hw fun d => d.maskRearm q))
  exact ⟨_, hexec, fun i => bitOf_setBit _ i q, rfl⟩

/-! ### Tables, in part (R180) -/

/-- A part of a table that takes a key whole reads the same at it. -/
theorem getT_filter_of_pos {α : Type} (x : α) {k : Nat} {p : Nat × α → Bool} (h : ∀ v, p (k, v) = true) (t : List (Nat × α)) :
    getT x k (t.filter p) = getT x k t := by
  induction t with
  | nil => rfl
  | cons e t ih =>
    obtain ⟨j, v⟩ := e
    rw [List.filter_cons]
    by_cases hj : j = k
    · rw [if_pos (hj ▸ h v), getT, getT, if_pos hj, if_pos hj]
    · rw [getT, if_neg hj]
      split
      · rw [getT, if_neg hj, ih]
      · exact ih

/-- A part of a table that leaves a key out has no value at it. -/
theorem getT_filter_of_neg {α : Type} (x : α) {k : Nat} {p : Nat × α → Bool} (h : ∀ v, p (k, v) = false) (t : List (Nat × α)) :
    getT x k (t.filter p) = x := by
  induction t with
  | nil => rfl
  | cons e t ih =>
    obtain ⟨j, v⟩ := e
    rw [List.filter_cons]
    split
    next hp =>
      have hj : j ≠ k := fun hj => absurd (hj ▸ hp) (by simp [h])
      rw [getT, if_neg hj, ih]
    next => exact ih

/-- A table written over another: its own values where it has one. -/
theorem getT_foldr_putT (x k : Nat) (t base : List (Nat × Nat)) :
    getT x k (t.foldr (fun p a => putT p.1 p.2 a) base) = getT (getT x k base) k t := by
  induction t with
  | nil => rfl
  | cons e t ih =>
    obtain ⟨j, v⟩ := e
    rw [List.foldr_cons, getT_putT, ih, getT]
    by_cases hj : k = j
    · rw [if_pos hj, if_pos hj.symm]
    · rw [if_neg hj, if_neg (Ne.symm hj)]

/-- A quad has 1,024 places in the tables, 512 for each of its two envelopes. -/
theorem getT_commitQuad (x k : Nat) (sh act : List (Nat × Nat)) (q : Nat) :
    getT x k (commitQuad sh act q) = if k / 1024 = q then getT x k sh else getT x k act := by
  unfold commitQuad
  dsimp only
  rw [getT_foldr_putT]
  split
  next hq =>
    have hmine : (decide (1024 * q ≤ k) && decide (k < 1024 * q + 1024)) = true := by
      rw [Bool.and_eq_true, decide_eq_true_eq, decide_eq_true_eq]
      omega
    rw [getT_filter_of_pos _ fun _ => hmine, getT_filter_of_neg x fun _ => congrArg not hmine]
  next hq =>
    have hother : (decide (1024 * q ≤ k) && decide (k < 1024 * q + 1024)) = false := by
      rw [Bool.and_eq_false_iff, decide_eq_false_iff_not, decide_eq_false_iff_not]
      omega
    rw [getT_filter_of_neg _ fun _ => hother, getT_filter_of_pos x fun _ => congrArg not hother]

theorem getT_commitQuads (x k : Nat) (sh : List (Nat × Nat)) (qs : List Nat) (act : List (Nat × Nat)) :
    getT x k (qs.foldl (commitQuad sh) act) = if k / 1024 ∈ qs then getT x k sh else getT x k act := by
  induction qs generalizing act with
  | nil => simp
  | cons q qs ih =>
    rw [List.foldl_cons, ih, getT_commitQuad]
    by_cases hin : k / 1024 ∈ qs
    · rw [if_pos hin, if_pos (.tail _ hin)]
    · simp only [List.mem_cons, hin, or_false, if_false]

theorem envAt_commitQuads (sh act : List (Nat × Nat)) (qs : List Nat) {q p : Nat} (lower : Bool) (hp : p < 512) :
    envAt (qs.foldl (commitQuad sh) act) q lower p = if q ∈ qs then envAt sh q lower p else envAt act q lower p := by
  have hquad : ((2 * q + b2n lower) * 512 + p) / 1024 = q := by
    cases lower <;> simp only [b2n, if_true, Bool.false_eq_true, if_false] <;> omega
  rw [envAt, getT_commitQuads, hquad, apply_ite (toSigned 16)]
  rfl

/-! ### The boundary (R179, R180, R432) -/

/-- The quads whose active envelope stays spoilt. -/
def Acq.stillBad (a : Acq) : Nat := maskOf ((setBits a.envBad 12).filter fun q => !bitOf a.commit q)

/-- The quads whose test resumes. -/
def Acq.resuming (a : Acq) : List Nat := (setBits a.rearm 12).filter fun q => !bitOf a.stillBad q

theorem mem_resuming {a : Acq} {q : Nat} (hq : q < 12) (hrearm : bitOf a.rearm q = true) (hgood : bitOf a.envBad q = false) :
    q ∈ a.resuming := by
  refine List.mem_filter.2 ⟨mem_setBits.2 ⟨hq, hrearm⟩, ?_⟩
  rw [Acq.stillBad, bitOf_maskOf, Bool.not_eq_true', decide_eq_false_iff_not]
  intro hmem
  rw [List.mem_filter, mem_setBits, hgood] at hmem
  exact absurd hmem.1.2 (by decide)

/-- A stop that has not resumed resumes with its quad. -/
def MaskStop.resumeWith (qs : List Nat) (base : Int) (p : MaskStop) : MaskStop :=
  if qs.contains p.q && p.resume.isNone then { p with resume := some base } else p

theorem resumeWith_keeps (qs : List Nat) (base : Int) (p : MaskStop) :
    ((p.resumeWith qs base).q, (p.resumeWith qs base).x, (p.resumeWith qs base).n) = (p.q, p.x, p.n) := by
  unfold MaskStop.resumeWith
  split <;> rfl

theorem resumeWith_resumes {qs : List Nat} {p : MaskStop} (h : p.q ∈ qs) (base : Int) : (p.resumeWith qs base).resume.isSome = true := by
  unfold MaskStop.resumeWith
  split
  next => rfl
  next hno =>
    cases hr : p.resume with
    | none => exact absurd (by rw [hr, List.contains_iff_mem.2 h]; rfl) hno
    | some r => rfl

/-- What a boundary makes of the envelopes and the stops. -/
def Acq.maskStep (a : Acq) : Acq :=
  { a with envA := (setBits a.commit 12).foldl (commitQuad a.envS) a.envA, commit := 0, rearm := 0, envBad := a.stillBad,
           stops := a.stops.map (MaskStop.resumeWith a.resuming a.base), rearms := a.resuming.map (fun q => (q, a.base)) ++ a.rearms }

theorem maskBoundary_eq (d : Dev) :
    d.maskBoundary = Dev.setAll { d with acq := d.acq.maskStep } (d.acq.resuming.map fun q => (Reg.TRG_MASK_CFG_STOPPED q, 0)) := by
  rw [Dev.setAll, List.foldl_map]
  rfl

theorem maskBoundary_acq (d : Dev) : d.maskBoundary.acq = d.acq.maskStep := by
  rw [maskBoundary_eq, setAll_regs]

theorem maskBoundary_stopped {d : Dev} {q : Nat} (h : q ∈ d.acq.resuming) : d.maskBoundary.get (Reg.TRG_MASK_CFG_STOPPED q) = 0 := by
  have hnodup : d.acq.resuming.Nodup := (List.nodup_range.filter _).filter _
  have hapart : (d.acq.resuming.map Reg.TRG_MASK_CFG_STOPPED).Pairwise fun a b => a.key ≠ b.key := by
    refine List.pairwise_map.2 (hnodup.imp fun hne => ?_)
    simp only [Fld.key, Reg.TRG_MASK_CFG_STOPPED]
    omega
  have hset : (Reg.TRG_MASK_CFG_STOPPED q, 0) ∈ d.acq.resuming.map fun q => (Reg.TRG_MASK_CFG_STOPPED q, 0) := List.mem_map.2 ⟨q, h, rfl⟩
  rw [maskBoundary_eq]
  refine (get_setAll_of_mem (fs := d.acq.resuming.map Reg.TRG_MASK_CFG_STOPPED) ?_ hapart hset).trans (Nat.zero_mod _)
  rw [List.map_map]
  rfl

theorem maskBoundary_envelopes (d : Dev) {q p : Nat} (lower : Bool) (hq : q < 12) (hp : p < 512) :
    envAt d.maskBoundary.acq.envA q lower p = if bitOf d.acq.commit q = true then envAt d.acq.envS q lower p else envAt d.acq.envA q lower p := by
  rw [maskBoundary_acq]
  refine (envAt_commitQuads d.acq.envS d.acq.envA (setBits d.acq.commit 12) lower hp).trans ?_
  simp only [mem_setBits, hq, true_and]

theorem maskBoundary_resumes {d : Dev} {q : Nat} (h : q ∈ d.acq.resuming) :
    d.maskBoundary.acq.stops.all (fun x => x.q != q || x.resume.isSome) = true := by
  rw [maskBoundary_acq, Acq.maskStep, List.all_map, List.all_eq_true]
  intro p _
  have hkeeps := resumeWith_keeps d.acq.resuming d.acq.base p
  simp only [Prod.mk.injEq] at hkeeps
  rw [Function.comp_apply, hkeeps.1, Bool.or_eq_true, bne_iff_ne]
  by_cases hpq : p.q = q
  · exact .inr (resumeWith_resumes (hpq ▸ h) _)
  · exact .inl hpq

/-- Settles O32: writes store a point or wait, and a boundary reads each place from the shadow where its quad is committed. -/
theorem maskEnvelopes : Obligations.MaskEnvelopes := by
  refine ⟨fun src v s => trgMaskDataWrite_spec, fun src v s hw hquad => ?_, fun src q s => trgMaskCommit_spec, fun src q s => maskRearm_spec,
    fun d q lower p hq hp => ?_⟩
  · rw [exec_trgMaskDataWrite hw, maskData_of_noQuad hquad]
  · refine ⟨maskBoundary_envelopes d lower hq hp, ?_, ?_, ?_, fun hrearm hgood => ?_⟩
    · rw [maskBoundary_acq]
      rfl
    · rw [maskBoundary_acq]
      rfl
    · rw [maskBoundary_acq]
      rfl
    · have hmem := mem_resuming hq hrearm hgood
      refine ⟨maskBoundary_stopped hmem, maskBoundary_resumes hmem, ?_⟩
      rw [maskBoundary_acq, Acq.maskStep, List.map_map]
      exact List.map_congr_left fun p _ => resumeWith_keeps _ _ p

end Sys2Proof.Machine
end

section
/-! PROOF. What a loss record can change: the record FIFO, its registers, and the account of the frame. -/
namespace Sys2Proof.Machine
open Sys2Proof.Safety

/-- Nothing changes but records, accounts of frames and the registers of `lossKeys`. -/
structure LossStep (d t : Dev) : Prop where
  work : t = { d with regs := t.regs, rcd := t.rcd, acq := { d.acq with fstats := t.acq.fstats } }
  regs : RegsKeepAll lossKeys d t

theorem LossStep.refl (d : Dev) : LossStep d d := ⟨rfl, fun _ _ => rfl⟩

theorem LossStep.trans {a b c : Dev} (h : LossStep a b) (k : LossStep b c) : LossStep a c :=
  ⟨by rw [k.work, h.work], regsKeepAll_trans h.regs k.regs⟩

theorem LossStep.set {d : Dev} {f : Fld} {v : Nat} (hf : f.key ∈ lossKeys) : LossStep d (d.set f v) := ⟨rfl, regsKeepAll_set_of_mem hf⟩

theorem LossStep.withRcd (d : Dev) (x : Rcd) : LossStep d { d with rcd := x } := ⟨rfl, fun _ _ => rfl⟩

theorem LossStep.updFrame (d : Dev) (fn : Nat) (g : FStat → FStat) : LossStep d (d.updFrame fn g) := ⟨rfl, fun _ _ => rfl⟩

theorem fifoLevel_step (d : Dev) : LossStep d d.fifoLevel :=
  LossStep.trans (b := d.set Reg.REC_FIFO_LEVEL_PAGES_USED (d.fifoPages 0)) (.set (by simp [lossKeys])) (.set (by simp [lossKeys]))

theorem setFifo_step (d : Dev) (l : List FRec) : LossStep d (d.setFifo l) := (LossStep.withRcd d _).trans (fifoLevel_step _)

theorem fifoPush_step (d : Dev) (ws : List Nat) (fn : Nat) (loss : Option Loss) (own : Bool) : LossStep d (d.fifoPush ws fn loss own) :=
  (LossStep.withRcd d _).trans (fifoLevel_step _)

theorem dropSummary_step (d : Dev) (fn : Nat) : LossStep d (d.dropSummary fn) :=
  ((LossStep.withRcd d _).trans (.updFrame _ fn _)).trans (.set (by simp [lossKeys]))

theorem withhold_step (d : Dev) (fn : Nat) : LossStep d (d.withhold fn) := by
  unfold Dev.withhold
  split
  · exact .refl d
  · split
    · exact .refl d
    · split
      · exact dropSummary_step d fn
      · split
        · exact (setFifo_step d _).trans (dropSummary_step _ fn)
        · exact .refl d

/-- A loss joins a record, makes one, widens one, or withholds the summary of its frame (R220, R225). -/
theorem lose_step (d : Dev) (l : Loss) : LossStep d (d.lose l) := by
  unfold Dev.lose
  split
  · exact .refl d
  · split
    · exact setFifo_step d _
    · split
      · exact (((LossStep.withRcd d _).trans (fifoPush_step _ _ _ _ _)).trans (.set (by simp [lossKeys]))).trans (.updFrame _ _ _)
      · split
        · exact setFifo_step d _
        · exact withhold_step d _

end Sys2Proof.Machine
end

section
/-! PROOF. A trigger's decision: its mark, and what it does to the captures of its channel: one opens, one extends, or it is refused; O30 from them. -/
namespace Sys2Proof.Machine
open Sys2Proof.Safety

/-! ### What a decision may change -/

/-- Nothing changes but channel `n`, the stream slots and the register fields at `ks`. -/
structure CapStep (n : Nat) (ks : List Nat) (d t : Dev) : Prop where
  work : t = { d with regs := t.regs, acq := { d.acq with chans := t.acq.chans, slots := t.acq.slots } }
  regs : RegsKeepAll ks d t
  others : ∀ m, m ≠ n → t.chan m = d.chan m

/-- The same with the accounts of frames, and records where `rec` holds. -/
structure RefusalStep (n : Nat) (ks : List Nat) (rec : Prop) (d t : Dev) : Prop where
  work : t = { d with regs := t.regs, rcd := t.rcd,
                      acq := { d.acq with chans := t.acq.chans, slots := t.acq.slots, fstats := t.acq.fstats } }
  regs : RegsKeepAll ks d t
  others : ∀ m, m ≠ n → t.chan m = d.chan m
  records : ¬ rec → t.rcd = d.rcd

section
variable {n : Nat} {ks : List Nat} {rec : Prop} {a b c d t : Dev}

theorem CapStep.trans (h : CapStep n ks a b) (k : CapStep n ks b c) : CapStep n ks a c :=
  ⟨by rw [k.work, h.work], regsKeepAll_trans h.regs k.regs, fun m hm => (k.others m hm).trans (h.others m hm)⟩

theorem CapStep.mono {ls : List Nat} (h : CapStep n ks a b) (sub : ∀ k ∈ ks, k ∈ ls) : CapStep n ls a b :=
  ⟨h.work, regsKeepAll_mono h.regs sub, h.others⟩

theorem CapStep.set {f : Fld} {v : Nat} (hf : f.key ∈ ks) : CapStep n ks d (d.set f v) := ⟨rfl, regsKeepAll_set_of_mem hf, fun _ _ => rfl⟩

theorem CapStep.setSlot (k : Nat) (x : Slot) : CapStep n ks d (d.setSlot k x) := ⟨rfl, fun _ _ => rfl, fun _ _ => rfl⟩

theorem CapStep.updChan (g : Chan → Chan) : CapStep n ks d (d.updChan n g) := ⟨rfl, fun _ _ => rfl, fun _ hm => chan_updChan_ne d hm g⟩

theorem CapStep.refl : CapStep n ks d d := ⟨rfl, fun _ _ => rfl, fun _ _ => rfl⟩

theorem CapStep.capStatus (h : (Reg.CH_TRG_STATUS_CAPTURE_OPEN n).key ∈ ks ∧ (Reg.CH_TRG_STATUS_AT_LIMIT n).key ∈ ks) :
    CapStep n ks d (d.capStatus n) :=
  (CapStep.set h.1).trans (.set h.2)

theorem RefusalStep.of_capStep (h : CapStep n ks a b) : RefusalStep n ks rec a b :=
  ⟨by rw [h.work], h.regs, h.others, fun _ => by rw [h.work]⟩

theorem RefusalStep.trans (h : RefusalStep n ks rec a b) (k : RefusalStep n ks rec b c) : RefusalStep n ks rec a c :=
  ⟨by rw [k.work, h.work], regsKeepAll_trans h.regs k.regs, fun m hm => (k.others m hm).trans (h.others m hm),
    fun hno => (k.records hno).trans (h.records hno)⟩

theorem RefusalStep.mono {ls : List Nat} (h : RefusalStep n ks rec a b) (sub : ∀ k ∈ ks, k ∈ ls) : RefusalStep n ls rec a b :=
  ⟨h.work, regsKeepAll_mono h.regs sub, h.others, h.records⟩

end

/-! ### The mark of a trigger (R182) -/

/-- The register fields that a mark may count in. -/
def markKeys : List Nat := (List.range 4).map fun k => (Reg.TRG_STREAM_STATUS_MARK_OVF k).key

theorem mem_markKeys {k : Nat} (hk : k < 4) : (Reg.TRG_STREAM_STATUS_MARK_OVF k).key ∈ markKeys :=
  List.mem_map.2 ⟨k, List.mem_range.2 hk, rfl⟩

theorem not_markKey_of_lt {k : Nat} (h : k < 0x3704 * 32) : k ∉ markKeys := by
  have hmark : ∀ j ∈ markKeys, 0x3704 * 32 ≤ j := by decide
  exact fun hk => absurd (hmark k hk) (by omega)

/-- A mark changes one stream slot, and may count as one too many; no channel changes. -/
theorem mark_spec (d : Dev) (n fn : Nat) (x : Int) (a b opened : Bool) :
    CapStep n markKeys d (d.mark n fn x a b opened) ∧ (d.mark n fn x a b opened).acq.chans = d.acq.chans := by
  unfold Dev.mark
  split
  next => exact ⟨.refl, rfl⟩
  next k hk =>
    have hslot : k < 4 := List.mem_range.1 (List.mem_of_find?_eq_some hk)
    dsimp only
    split
    · exact ⟨(CapStep.set (mem_markKeys hslot)).trans (.setSlot k _), rfl⟩
    · exact ⟨.setSlot k _, rfl⟩

theorem chan_mark (d : Dev) (n fn : Nat) (x : Int) (a b opened : Bool) (m : Nat) : (d.mark n fn x a b opened).chan m = d.chan m :=
  congrArg (getT Chan.init m) (mark_spec d n fn x a b opened).2

/-! ### The trigger registers of a channel -/

/-- The fields a decision for channel `n` may count in or follow. -/
def chTrgFields (n : Nat) : List Fld :=
  [Reg.CH_TRG_REF_LO_FILL n, Reg.CH_TRG_REF_LO_REARM n, Reg.CH_TRG_REF_HI_BUSY n, Reg.CH_TRG_REF_HI_OFF n, Reg.CH_TRG_STATUS_CAPTURES n,
    Reg.CH_TRG_STATUS_CAPTURE_OPEN n, Reg.CH_TRG_STATUS_AT_LIMIT n]

theorem chTrgFields_apart : ∀ n < 48, ((chTrgFields n).Pairwise fun a b => a.key ≠ b.key)
    ∧ ∀ f ∈ chTrgFields n, 0x3000 * 32 ≤ f.key ∧ f.key < 0x3704 * 32 := by decide +kernel

theorem chTrgFields_notLoss {n : Nat} (hn : n < 48) {f : Fld} (hf : f ∈ chTrgFields n) : f.key ∉ lossKeys := by
  have hloss : ∀ j ∈ lossKeys, j < 0x3000 * 32 ∨ 0x3704 * 32 ≤ j := by decide
  obtain ⟨hlo, hhi⟩ := (chTrgFields_apart n hn).2 f hf
  exact fun hk => absurd (hloss _ hk) (by omega)

theorem get_mark {n : Nat} (hn : n < 48) {f : Fld} (hf : f ∈ chTrgFields n) (d : Dev) (fn : Nat) (x : Int) (a b opened : Bool) :
    (d.mark n fn x a b opened).get f = d.get f :=
  (mark_spec d n fn x a b opened).1.regs f (not_markKey_of_lt ((chTrgFields_apart n hn).2 f hf).2)

/-! ### A refused trigger (R173) -/

/-- The count of a refusal by its case. -/
def refusalFld (n case : Nat) : Fld :=
  match case with
  | 0 => Reg.CH_TRG_REF_LO_FILL n
  | 1 => Reg.CH_TRG_REF_LO_REARM n
  | 2 => Reg.CH_TRG_REF_HI_BUSY n
  | _ => Reg.CH_TRG_REF_HI_OFF n

theorem refusalFld_cases (n case : Nat) : refusalFld n case ∈ chTrgFields n ∧ (refusalFld n case).width = 16 := by
  unfold refusalFld
  split <;> simp [chTrgFields, Reg.CH_TRG_REF_LO_FILL, Reg.CH_TRG_REF_LO_REARM, Reg.CH_TRG_REF_HI_BUSY, Reg.CH_TRG_REF_HI_OFF]

theorem refuse_spec (d : Dev) (n fn k case : Nat) :
    (d.refuse n fn k case).get (refusalFld n case) = (d.get (refusalFld n case) + 1) % 65536
    ∧ (d.refuse n fn k case).acq.chans = d.acq.chans ∧ RefusalStep n [(refusalFld n case).key] False d (d.refuse n fn k case) := by
  have hget := d.get_set_same (refusalFld n case) (d.get (refusalFld n case) + 1)
  rw [(refusalFld_cases n case).2] at hget
  exact ⟨hget, rfl, rfl, regsKeepAll_set d _ _, fun _ _ => rfl, fun _ => rfl⟩

/-- The captures, that of `cap`'s trigger sample with frame `fn` among those in which a trigger was refused because of it. -/
def Cap.refuseIn (fn : Nat) (k : Cap) : Cap := { k with refs := k.refs ++ [fn] }

def Chan.refuseIn (cap : Cap) (fn : Nat) (c : Chan) : Chan := { c with caps := updFirst (fun x => x.x == cap.x) (Cap.refuseIn fn) c.caps }

/-- A refusal because of a capture counts, is noted with the capture, and loses a record where the capture is written off (R409). -/
theorem refuseFor_spec (d : Dev) {n : Nat} (hn : n < 48) (fn k case : Nat) (cap : Cap) :
    (d.refuseFor n fn k case cap).get (refusalFld n case) = (d.get (refusalFld n case) + 1) % 65536
    ∧ (d.refuseFor n fn k case cap).chan n = (d.chan n).refuseIn cap fn
    ∧ RefusalStep n ((refusalFld n case).key :: lossKeys) (cap.off = true) d (d.refuseFor n fn k case cap) := by
  obtain ⟨hcount, hchans, hstep⟩ := refuse_spec d n fn k case
  have hnoted : RefusalStep n ((refusalFld n case).key :: lossKeys) (cap.off = true) d ((d.refuse n fn k case).updChan n (Chan.refuseIn cap fn)) :=
    RefusalStep.trans (b := d.refuse n fn k case)
      ⟨hstep.work, regsKeepAll_mono hstep.regs (by simp), hstep.others, fun _ => hstep.records id⟩ (.of_capStep (.updChan _))
  have hchan : ((d.refuse n fn k case).updChan n (Chan.refuseIn cap fn)).chan n = (d.chan n).refuseIn cap fn :=
    (chan_updChan_same _ _ _).trans (congrArg (fun l => (getT Chan.init n l).refuseIn cap fn) hchans)
  have hdo : d.refuseFor n fn k case cap
      = if cap.off then ((d.refuse n fn k case).updChan n (Chan.refuseIn cap fn)).lose
          (((d.refuse n fn k case).updChan n (Chan.refuseIn cap fn)).refusedLoss n fn)
        else (d.refuse n fn k case).updChan n (Chan.refuseIn cap fn) := rfl
  rw [hdo]
  generalize hnow : (d.refuse n fn k case).updChan n (Chan.refuseIn cap fn) = e at *
  have hget : e.get (refusalFld n case) = (d.get (refusalFld n case) + 1) % 65536 := by rw [← hnow]; exact hcount
  split
  next hoff =>
    have hlose := lose_step e (e.refusedLoss n fn)
    have hkept (m : Nat) : (e.lose (e.refusedLoss n fn)).chan m = e.chan m := by rw [hlose.work]; rfl
    refine ⟨(hlose.regs _ (chTrgFields_notLoss hn (refusalFld_cases n case).1)).trans hget, (hkept n).trans hchan, hnoted.trans ?_⟩
    exact ⟨by rw [hlose.work], regsKeepAll_mono hlose.regs fun _ hk => .tail _ hk, fun m _ => hkept m, fun hno => absurd hoff hno⟩
  next => exact ⟨hget, hchan, hnoted⟩

/-! ### A capture ends with its channel (R185) -/

/-- The last sample of a capture of the channel that would end at `last`. -/
def Chan.endOf (c : Chan) (last : Int) : Int := if c.acquiring = false ∧ c.merged ≤ last then c.merged - 1 else last

theorem cutCap_open {c : Chan} {k : Cap} (h : k.stage = 0) : c.cutCap k = { k with last := c.endOf k.last, cut := (c.cutCap k).cut } := by
  unfold Chan.cutCap Chan.endOf
  by_cases hend : c.acquiring = false ∧ c.merged ≤ k.last
  · rw [if_pos hend, if_pos (by rw [h, hend.1, decide_eq_true hend.2]; rfl)]
  · rw [if_neg hend, if_neg]
    simpa [h] using hend

/-! ### A capture opens (R169, R172) -/

/-- The channel with capture `k` opened, and its anchors. -/
def Chan.opened (k : Cap) (anchors : List Int) (c : Chan) : Chan := { c with caps := c.caps ++ [c.cutCap k], anchors := anchors }

/-- The geometry, the origin and the source of the capture that a trigger at sample `x` opens. -/
def Cap.OpenedBy (s : FStat) (n : Nat) (x : Int) (srcB a b : Bool) (k : Cap) : Prop :=
  (k.x = x ∧ k.start = x - s.capPre n ∧ k.last = x - s.capPre n + s.capLen n - 1)
  ∧ (k.fn = s.fn ∧ k.xi = (x - s.base).toNat ∧ k.stage = 0 ∧ k.extend = s.capExtend n) ∧ (k.ua = a ∧ k.ub = b) ∧ k.srcB = srcB

theorem openCap_eq (d : Dev) (s : FStat) (n : Nat) (x : Int) (srcB a b : Bool) (t : Timing) :
    ∃ k : Cap, k.OpenedBy s n x srcB a b ∧ ∃ anchors : List Int, d.openCap s n x srcB a b t
      = ((d.updChan n (Chan.opened k anchors)).addWrap (Reg.CH_TRG_STATUS_CAPTURES n) 1).capStatus n :=
  ⟨_, ⟨⟨rfl, rfl, rfl⟩, ⟨rfl, rfl, rfl, rfl⟩, ⟨rfl, rfl⟩, rfl⟩, _, rfl⟩

/-- The register fields that an opening may change. -/
def openKeys (n : Nat) : List Nat :=
  [(Reg.CH_TRG_STATUS_CAPTURES n).key, (Reg.CH_TRG_STATUS_CAPTURE_OPEN n).key, (Reg.CH_TRG_STATUS_AT_LIMIT n).key]

theorem openCap_spec (d : Dev) (s : FStat) {n : Nat} (hn : n < 48) (x : Int) (srcB a b : Bool) (t : Timing) :
    (∃ k : Cap, k.OpenedBy s n x srcB a b ∧ ((d.openCap s n x srcB a b t).chan n).caps = (d.chan n).caps ++ [(d.chan n).cutCap k])
    ∧ (d.openCap s n x srcB a b t).get (Reg.CH_TRG_STATUS_CAPTURES n) = (d.get (Reg.CH_TRG_STATUS_CAPTURES n) + 1) % 65536
    ∧ (d.openCap s n x srcB a b t).get (Reg.CH_TRG_STATUS_CAPTURE_OPEN n) = 1
    ∧ CapStep n (openKeys n) d (d.openCap s n x srcB a b t) := by
  obtain ⟨k, hk, anchors, hdo⟩ := openCap_eq d s n x srcB a b t
  rw [hdo]
  obtain ⟨e, he⟩ : ∃ e, e = (d.updChan n (Chan.opened k anchors)).addWrap (Reg.CH_TRG_STATUS_CAPTURES n) 1 := ⟨_, rfl⟩
  have hchan : e.chan n = (d.chan n).opened k anchors := by rw [he]; exact chan_updChan_same _ _ _
  have hstep : CapStep n (openKeys n) d e := he ▸ (CapStep.updChan _).trans (.set (by simp [openKeys]))
  have hstage : ((d.chan n).cutCap k).stage = 0 := (congrArg Cap.stage (cutCap_open hk.2.1.2.2.1)).trans hk.2.1.2.2.1
  obtain ⟨hopen, -, hregs⟩ := capStatus_spec e n
  rw [← he]
  refine ⟨⟨k, hk, ?_⟩, ?_, ?_, hstep.trans (.capStatus (by simp [openKeys]))⟩
  · exact congrArg Chan.caps hchan
  · rw [hregs, he]
    · exact Dev.get_set_same _ _ _
    · have hapart := (chTrgFields_apart n hn).1
      simp only [chTrgFields, List.pairwise_cons] at hapart
      simpa using ⟨hapart.2.2.2.2.1 _ (.head _), hapart.2.2.2.2.1 _ (.tail _ (.head _))⟩
  · rw [hopen, hchan]
    have hany : ((d.chan n).opened k anchors).caps.any (fun c => c.stage == 0) = true :=
      List.any_eq_true.2 ⟨_, List.mem_append_right _ (.head _), beq_iff_eq.2 hstage⟩
    rw [hany]
    rfl

/-! ### A capture extends (R174) -/

/-- The channel with `k'` for the capture at the trigger sample of `k`. -/
def Chan.extended (k k' : Cap) (c : Chan) : Chan := { c with caps := updFirst (fun y => y.x == k.x) (fun _ => c.cutCap k') c.caps }

/-- Where a capture that a trigger at sample `x` extends would end: on a word of 8 samples, within its limit. -/
def Cap.extendedTo (k : Cap) (x : Int) : Int := max k.last (min (k.start + 8 * ((x + k.post - k.start + 7) / 8) - 1) (k.start + 8191))

/-- What a trigger at sample `x` makes of a capture that extends. -/
def Cap.ExtendedBy (x : Int) (a b : Bool) (k k' : Cap) : Prop :=
  (k'.x = k.x ∧ k'.start = k.start ∧ k'.stage = 0) ∧ k'.last = k.extendedTo x
  ∧ k'.exts = if k.exts.length < 8 then k.exts ++ [((x - k.start).toNat, a, b)] else k.exts

theorem extendCap_eq (d : Dev) (n : Nat) (k : Cap) (x : Int) (a b : Bool) :
    ∃ k' : Cap, d.extendCap n k x a b = (d.updChan n (Chan.extended k k')).capStatus n ∧ k.ExtendedBy x a b k' := by
  have hwords : floorDiv (x + k.post - k.start + 7) 8 = (x + k.post - k.start + 7) / 8 := Int.fdiv_eq_ediv_of_nonneg _ (by decide)
  refine ⟨_, rfl, ⟨rfl, rfl, rfl⟩, ?_, rfl⟩
  rw [Cap.extendedTo, ← hwords]

theorem extendCap_spec (d : Dev) {n : Nat} {k : Cap} (hk : k ∈ (d.chan n).caps) (x : Int) (a b : Bool) :
    (∃ k' : Cap, k.ExtendedBy x a b k'
      ∧ ((d.extendCap n k x a b).chan n).caps.find? (fun c => c.x == k.x) = some ((d.chan n).cutCap k'))
    ∧ ((d.extendCap n k x a b).chan n).caps.length = (d.chan n).caps.length
    ∧ CapStep n [(Reg.CH_TRG_STATUS_CAPTURE_OPEN n).key, (Reg.CH_TRG_STATUS_AT_LIMIT n).key] d (d.extendCap n k x a b) := by
  obtain ⟨k', hdo, hk'⟩ := extendCap_eq d n k x a b
  rw [hdo]
  have hchan : ((d.updChan n (Chan.extended k k')).capStatus n).chan n = (d.chan n).extended k k' := chan_updChan_same _ _ _
  have hx : ((d.chan n).cutCap k').x = k.x := (congrArg Cap.x (cutCap_open hk'.1.2.2)).trans hk'.1.1
  rw [hchan]
  obtain ⟨-, hfind⟩ := find?_updFirst_capX hk (f := fun _ => (d.chan n).cutCap k') fun _ => .inr hx
  exact ⟨⟨k', hk', hfind⟩, length_updFirst _ _ _, (CapStep.updChan _).trans (.capStatus (by simp))⟩

/-! ### The decision (R164, R169, R170) -/

theorem decideAt_of_ready {d : Dev} {n fi x : Nat} {f : FStat} (h : TriggerReady d n fi x f) :
    d.decideAt n fi x = d.decideTrig f n (f.base + x) := by
  obtain ⟨hup, hrole, hframe, hage, hacc, hx, hlater, hhits, hmerged⟩ := h
  unfold Dev.decideAt
  rw [hframe]
  refine if_pos ?_
  simp only [Bool.and_eq_true, Bool.or_eq_true, Bool.not_eq_true', decide_eq_true_eq, beq_iff_eq, List.contains_iff_mem, List.all_eq_true,
    FStat.young]
  exact ⟨⟨⟨⟨⟨⟨⟨hup, hrole⟩, hage⟩, hacc⟩, hx⟩, hlater⟩, hhits⟩, hmerged⟩

theorem exec_triggerDecision {n fi x : Nat} {f : FStat} {s : State} (hn : n < 48) (h : TriggerReady s.dev n fi x f) :
    exec (.triggerDecision n fi x) s = .next { s with dev := s.dev.decideTrig f n (f.base + x) } :=
  (onUnit_of_lt hn _ s).trans (congrArg (fun d : Dev => (Host.Outcome.next { s with dev := d } : Res)) (decideAt_of_ready h))

theorem decideTrig_of_quiet {d : Dev} {f : FStat} {n : Nat} {g : Int} (ha : d.fires f n false g = none) (hb : d.fires f n true g = none) :
    d.decideTrig f n g = d := if_pos (by rw [ha, hb]; rfl)

/-- A unit that captures fires at sample `g`. -/
def Dev.capturesAt (d : Dev) (f : FStat) (n : Nat) (g : Int) : Prop :=
  (d.fires f n false g).isSome = true ∧ (f.unit n false).cap = true ∨ (d.fires f n true g).isSome = true ∧ (f.unit n true).cap = true

/-- The source is unit A wherever it captures. -/
theorem srcIsB_of_capturing {ua ub : UnitCfg} {fa fb : Option Handed}
    (h : fa.isSome = true ∧ ua.cap = true ∨ fb.isSome = true ∧ ub.cap = true) : srcIsB ua ub fa fb = !(fa.isSome && ua.cap) := by
  unfold srcIsB
  rcases h with ⟨ha, hcap⟩ | ⟨hb, hcap⟩
  · rw [ha, hcap]
    rfl
  · rw [hb, hcap]
    simp

/-- The channel with sample `g` decided, and the pair of its trigger (R140). -/
def Chan.noteTrig (fn : Nat) (g : Int) (t : Timing) (c : Chan) : Chan :=
  { c with decided := c.decided ++ [g], pairs := match t.pair with | some p => c.pairs ++ [(fn, p)] | none => c.pairs }

/-- The timing of the trigger, by the condition of its source (R169). -/
def Dev.trigTiming (d : Dev) (f : FStat) (n : Nat) (g : Int) : Timing :=
  let srcB := srcIsB (f.unit n false) (f.unit n true) (d.fires f n false g) (d.fires f n true g)
  d.timing f n (if srcB then f.unit n true else f.unit n false) ((if srcB then d.fires f n true g else d.fires f n false g).getD none) g

/-- The device with the decision noted. -/
def Dev.noted (d : Dev) (f : FStat) (n : Nat) (g : Int) : Dev := d.updChan n (Chan.noteTrig f.fn g (d.trigTiming f n g))

/-- What a capturing trigger does, and whether it opens. -/
def Dev.captured (d : Dev) (f : FStat) (n : Nat) (g : Int) : Bool × Dev :=
  (d.noted f n g).capture f n g (!((d.fires f n false g).isSome && (f.unit n false).cap)) (d.fires f n false g).isSome
    (d.fires f n true g).isSome (d.trigTiming f n g)

theorem decideTrig_of_capturing {d : Dev} {f : FStat} {n : Nat} {g : Int} (h : d.capturesAt f n g) :
    d.decideTrig f n g
      = (d.captured f n g).2.mark n f.fn g (d.fires f n false g).isSome (d.fires f n true g).isSome (d.captured f n g).1 := by
  have hsome : ¬ ((d.fires f n false g).isNone && (d.fires f n true g).isNone) = true := by
    rcases h with ⟨ha, -⟩ | ⟨hb, -⟩
    · simp [Option.isNone_eq_false_iff.2 ha]
    · simp [Option.isNone_eq_false_iff.2 hb]
  have hcap : (((d.fires f n false g).isSome && (f.unit n false).cap) || ((d.fires f n true g).isSome && (f.unit n true).cap)) = true := by
    simpa only [Bool.or_eq_true, Bool.and_eq_true, Dev.capturesAt] using h
  unfold Dev.decideTrig Dev.captured
  dsimp only
  rw [if_neg hsome, if_pos hcap, ← srcIsB_of_capturing h]
  rfl

/-! ### What becomes of a capturing trigger (R173, R174) -/

section
variable {d : Dev} {s : FStat} {n : Nat} {x : Int} {srcB a b : Bool} {t : Timing} {k : Cap}

theorem capture_before_fill (h : x - s.capPre n < (d.chan n).since) :
    d.capture s n x srcB a b t = (false, d.refuse n s.fn (x - s.base).toNat 0) := if_pos h

theorem capture_in_the_clear (h : (d.chan n).since ≤ x - s.capPre n) (hmet : (d.chan n).capMet x = none) :
    d.capture s n x srcB a b t = (true, d.openCap s n x srcB a b t) := by
  unfold Dev.capture
  dsimp only
  rw [if_neg (by omega), hmet]

theorem capture_barred (h : (d.chan n).since ≤ x - s.capPre n) (hmet : (d.chan n).capMet x = some k)
    (hbar : k.last < x ∨ k.extend = false ∨ k.last = k.start + 8191 ∨ k.stage = 2) :
    d.capture s n x srcB a b t = (false, d.refuseFor n s.fn (x - s.base).toNat (if k.last < x then 1 else 2) k) := by
  unfold Dev.capture
  dsimp only
  rw [if_neg (by omega), hmet]
  dsimp only
  by_cases hlast : k.last < x
  · rw [if_pos hlast, if_pos hlast]
  · rw [if_neg hlast, if_neg hlast, if_pos (by simpa [or_assoc] using hbar.resolve_left hlast)]

theorem capture_extending (h : (d.chan n).since ≤ x - s.capPre n) (hmet : (d.chan n).capMet x = some k) (hext : k.extend = true)
    (hin : x ≤ k.last) (hlimit : k.last ≠ k.start + 8191) (hstage : k.stage ≠ 2) :
    d.capture s n x srcB a b t = (false, d.extendCap n k x a b) := by
  unfold Dev.capture
  dsimp only
  rw [if_neg (by omega), hmet]
  dsimp only
  rw [if_neg (by omega), if_neg (by simp [hext, hlimit, hstage])]

end

theorem mem_caps_of_capMet {c : Chan} {x : Int} {k : Cap} (h : c.capMet x = some k) : k ∈ c.caps :=
  List.mem_of_mem_filter (List.mem_of_getLast? h)

section
variable {n : Nat} {f : FStat} {g : Int} {d : Dev} {k : Cap}

theorem chan_noted : (d.noted f n g).chan n = (d.chan n).noteTrig f.fn g (d.trigTiming f n g) := chan_updChan_same _ _ _

/-- A decision's opening, extension or refusal begins with its note and ends with its mark. -/
theorem CapStep.of_noted {ks : List Nat} {o : Bool} {t : Dev} (hdo : d.captured f n g = (o, t)) (hcap : d.capturesAt f n g)
    (h : CapStep n ks (d.noted f n g) t) : CapStep n (ks ++ markKeys) d (d.decideTrig f n g) := by
  rw [decideTrig_of_capturing hcap, hdo]
  exact (CapStep.updChan _).trans ((h.mono fun _ => List.mem_append_left _).trans
    ((mark_spec _ _ _ _ _ _ _).1.mono fun _ => List.mem_append_right _))

theorem RefusalStep.of_noted {ks : List Nat} {rec : Prop} {o : Bool} {t : Dev} (hdo : d.captured f n g = (o, t)) (hcap : d.capturesAt f n g)
    (h : RefusalStep n ks rec (d.noted f n g) t) : RefusalStep n (ks ++ markKeys) rec d (d.decideTrig f n g) := by
  rw [decideTrig_of_capturing hcap, hdo]
  exact (RefusalStep.of_capStep (.updChan _)).trans ((h.mono fun _ => List.mem_append_left _).trans
    ((RefusalStep.of_capStep (mark_spec _ _ _ _ _ _ _).1).mono fun _ => List.mem_append_right _))

/-- The mark leaves the channels and the trigger registers as the capture's part of the decision leaves them. -/
theorem decideTrig_reads {o : Bool} {t : Dev} (hdo : d.captured f n g = (o, t)) (hcap : d.capturesAt f n g) :
    (d.decideTrig f n g).chan n = t.chan n ∧ (n < 48 → ∀ h ∈ chTrgFields n, (d.decideTrig f n g).get h = t.get h) := by
  rw [decideTrig_of_capturing hcap, hdo]
  exact ⟨chan_mark _ _ _ _ _ _ _ _, fun hn h hh => get_mark hn hh _ _ _ _ _ _⟩

theorem decideTrig_opens (hn : n < 48) (hcap : d.capturesAt f n g) (hfill : (d.chan n).since ≤ g - f.capPre n)
    (hmet : (d.chan n).capMet g = none) :
    (∃ k : Cap, k.OpenedBy f n g (!((d.fires f n false g).isSome && (f.unit n false).cap)) (d.fires f n false g).isSome (d.fires f n true g).isSome
      ∧ ((d.decideTrig f n g).chan n).caps
        = (d.chan n).caps ++ [{ k with last := (d.chan n).endOf k.last, cut := ((d.chan n).cutCap k).cut }])
    ∧ (d.decideTrig f n g).get (Reg.CH_TRG_STATUS_CAPTURES n) = (d.get (Reg.CH_TRG_STATUS_CAPTURES n) + 1) % 65536
    ∧ (d.decideTrig f n g).get (Reg.CH_TRG_STATUS_CAPTURE_OPEN n) = 1
    ∧ CapStep n (openKeys n ++ markKeys) d (d.decideTrig f n g) := by
  have hdo : d.captured f n g = _ := capture_in_the_clear (by rw [chan_noted]; exact hfill) (by rw [chan_noted]; exact hmet)
  obtain ⟨hchan, hget⟩ := decideTrig_reads hdo hcap
  obtain ⟨⟨k, hk, hcaps⟩, hcount, hopen, hstep⟩ := openCap_spec (d.noted f n g) f hn g
    (!((d.fires f n false g).isSome && (f.unit n false).cap)) (d.fires f n false g).isSome (d.fires f n true g).isSome (d.trigTiming f n g)
  refine ⟨⟨k, hk, ?_⟩, ?_, ?_, .of_noted hdo hcap hstep⟩
  · rw [hchan, hcaps, chan_noted, ← cutCap_open hk.2.1.2.2.1]
    rfl
  · rw [hget hn _ (by simp [chTrgFields]), hcount]
    rfl
  · rw [hget hn _ (by simp [chTrgFields]), hopen]

theorem decideTrig_extends (hcap : d.capturesAt f n g) (hfill : (d.chan n).since ≤ g - f.capPre n) (hmet : (d.chan n).capMet g = some k)
    (hext : k.extend = true) (hin : g ≤ k.last) (hlimit : k.last ≠ k.start + 8191) (hstage : k.stage ≠ 2) :
    (∃ k' : Cap, k.ExtendedBy g (d.fires f n false g).isSome (d.fires f n true g).isSome k'
      ∧ ((d.decideTrig f n g).chan n).caps.find? (fun c => c.x == k.x)
        = some { k' with last := (d.chan n).endOf k'.last, cut := ((d.chan n).cutCap k').cut })
    ∧ ((d.decideTrig f n g).chan n).caps.length = (d.chan n).caps.length
    ∧ CapStep n ([(Reg.CH_TRG_STATUS_CAPTURE_OPEN n).key, (Reg.CH_TRG_STATUS_AT_LIMIT n).key] ++ markKeys) d (d.decideTrig f n g) := by
  have hdo : d.captured f n g = _ :=
    capture_extending (by rw [chan_noted]; exact hfill) (by rw [chan_noted]; exact hmet) hext hin hlimit hstage
  obtain ⟨hchan, -⟩ := decideTrig_reads hdo hcap
  obtain ⟨⟨k', hk', hfind⟩, hlen, hstep⟩ := extendCap_spec (d.noted f n g) (n := n) (k := k)
    (by rw [chan_noted]; exact mem_caps_of_capMet hmet) g (d.fires f n false g).isSome (d.fires f n true g).isSome
  refine ⟨⟨k', hk', ?_⟩, ?_, .of_noted hdo hcap hstep⟩
  · rw [hchan, hfind, chan_noted, ← cutCap_open hk'.1.2.2]
    rfl
  · rw [hchan, hlen, chan_noted]
    rfl

theorem decideTrig_before_fill (hn : n < 48) (hcap : d.capturesAt f n g) (hfill : g - f.capPre n < (d.chan n).since) :
    (d.decideTrig f n g).get (Reg.CH_TRG_REF_LO_FILL n) = (d.get (Reg.CH_TRG_REF_LO_FILL n) + 1) % 65536
    ∧ ((d.decideTrig f n g).chan n).caps = (d.chan n).caps
    ∧ RefusalStep n ((Reg.CH_TRG_REF_LO_FILL n).key :: markKeys) False d (d.decideTrig f n g) := by
  have hdo : d.captured f n g = _ := capture_before_fill (by rw [chan_noted]; exact hfill)
  obtain ⟨hchan, hget⟩ := decideTrig_reads hdo hcap
  obtain ⟨hcount, hchans, hstep⟩ := refuse_spec (d.noted f n g) n f.fn (g - f.base).toNat 0
  refine ⟨(hget hn _ (.head _)).trans hcount, ?_, .of_noted hdo hcap hstep⟩
  rw [hchan]
  exact (congrArg (fun l => (getT Chan.init n l).caps) hchans).trans ((congrArg Chan.caps chan_noted).trans rfl)

theorem decideTrig_barred (hn : n < 48) (hcap : d.capturesAt f n g) (hfill : (d.chan n).since ≤ g - f.capPre n)
    (hmet : (d.chan n).capMet g = some k) (hbar : k.last < g ∨ k.extend = false ∨ k.last = k.start + 8191 ∨ k.stage = 2) {case : Nat}
    (hcase : case = if k.last < g then 1 else 2) :
    (d.decideTrig f n g).get (refusalFld n case) = (d.get (refusalFld n case) + 1) % 65536
    ∧ (∀ h ∈ chTrgFields n, h.key ≠ (refusalFld n case).key → (d.decideTrig f n g).get h = d.get h)
    ∧ ((d.decideTrig f n g).chan n).caps.map (fun c => (c.start, c.last, c.x)) = (d.chan n).caps.map (fun c => (c.start, c.last, c.x))
    ∧ RefusalStep n ((refusalFld n case).key :: lossKeys ++ markKeys) (k.off = true) d (d.decideTrig f n g) := by
  have hdo : d.captured f n g = _ := capture_barred (by rw [chan_noted]; exact hfill) (by rw [chan_noted]; exact hmet) hbar
  rw [← hcase] at hdo
  obtain ⟨hchan, hget⟩ := decideTrig_reads hdo hcap
  obtain ⟨hcount, hnoted, hstep⟩ := refuseFor_spec (d.noted f n g) hn f.fn (g - f.base).toNat case k
  refine ⟨(hget hn _ (refusalFld_cases n case).1).trans hcount, fun h hh hne => ?_, ?_, .of_noted hdo hcap hstep⟩
  · exact (hget hn h hh).trans (hstep.regs h (List.not_mem_cons_of_ne_of_not_mem hne (chTrgFields_notLoss hn hh)))
  · rw [hchan, hnoted, chan_noted]
    exact map_updFirst (f := Cap.refuseIn f.fn) (fun _ _ => rfl) _

end

/-! ### The statement's forms -/

theorem CapStep.state {n : Nat} {ks : List Nat} {s : State} {t : Dev} (h : CapStep n ks s.dev t) :
    ({ s with dev := t } : State) = { s with dev := { s.dev with regs := t.regs, acq := { s.dev.acq with chans := t.acq.chans, slots := t.acq.slots } } } :=
  congrArg (fun d : Dev => { s with dev := d }) h.work

theorem triggerDecision_opens {n fi x : Nat} {f : FStat} {s : State} (hn : n < 48) (hready : TriggerReady s.dev n fi x f)
    (hcap : s.dev.capturesAt f n (f.base + x)) (hfill : (s.dev.chan n).since ≤ f.base + x - f.capPre n)
    (hmet : (s.dev.chan n).capMet (f.base + x) = none) :
    Answers (.triggerDecision n fi x) s fun t =>
      (t.dev.chan n).caps.length = (s.dev.chan n).caps.length + 1
      ∧ (t.dev.chan n).caps.take (s.dev.chan n).caps.length = (s.dev.chan n).caps
      ∧ (t.dev.chan n).caps.getLast?.map (fun k => (k.x, k.start, k.last)) = some (f.base + x, f.base + x - f.capPre n,
          (s.dev.chan n).endOf (f.base + x - f.capPre n + f.capLen n - 1))
      ∧ (t.dev.chan n).caps.getLast?.map (fun k => (k.fn, k.xi, k.stage, k.extend)) = some (f.fn, x, 0, f.capExtend n)
      ∧ (t.dev.chan n).caps.getLast?.map (fun k => (k.ua, k.ub)) =
          some ((s.dev.fires f n false (f.base + x)).isSome, (s.dev.fires f n true (f.base + x)).isSome)
      ∧ (t.dev.chan n).caps.getLast?.map (·.srcB) = some (!((s.dev.fires f n false (f.base + x)).isSome && (f.unit n false).cap))
      ∧ t.dev.get (Reg.CH_TRG_STATUS_CAPTURES n) = (s.dev.get (Reg.CH_TRG_STATUS_CAPTURES n) + 1) % 65536
      ∧ t.dev.get (Reg.CH_TRG_STATUS_CAPTURE_OPEN n) = 1
      ∧ (∀ m : Nat, m ≠ n → t.dev.chan m = s.dev.chan m)
      ∧ t = { s with dev := { s.dev with regs := t.dev.regs, acq := { s.dev.acq with chans := t.dev.acq.chans, slots := t.dev.acq.slots } } }
      ∧ RegsKeepAll (openKeys n ++ markKeys) s.dev t.dev := by
  obtain ⟨⟨k, hk, hcaps⟩, hcount, hopen, hstep⟩ := decideTrig_opens hn hcap hfill hmet
  obtain ⟨⟨hx, hstart, hlast⟩, ⟨hfn, hxi, hstage, hextend⟩, ⟨hua, hub⟩, hsrc⟩ := hk
  rw [add_sub_cancel_left, Int.toNat_natCast] at hxi
  refine ⟨_, exec_triggerDecision hn hready, ?_, ?_, ?_, ?_, ?_, ?_, hcount, hopen, hstep.others, hstep.state, hstep.regs⟩
  · rw [hcaps, List.length_append]
    rfl
  · rw [hcaps, List.take_left]
  · rw [hcaps, List.getLast?_concat, Option.map_some, hx, hstart, hlast]
  · rw [hcaps, List.getLast?_concat, Option.map_some, hfn, hxi, hstage, hextend]
  · rw [hcaps, List.getLast?_concat, Option.map_some, hua, hub]
  · rw [hcaps, List.getLast?_concat, Option.map_some, hsrc]

theorem barred_keys {n case : Nat} (h : case = 1 ∨ case = 2) :
    ∀ k ∈ (refusalFld n case).key :: lossKeys ++ markKeys,
      k ∈ [(Reg.CH_TRG_REF_LO_REARM n).key, (Reg.CH_TRG_REF_HI_BUSY n).key] ++ lossKeys ++ markKeys := by
  intro k hk
  rw [List.cons_append, List.mem_cons] at hk
  rw [List.append_assoc, List.mem_append]
  rcases hk with rfl | hk
  · rcases h with rfl | rfl
    · exact .inl (.head _)
    · exact .inl (.tail _ (.head _))
  · exact .inr hk

theorem triggerDecision_barred {n fi x : Nat} {f : FStat} {k : Cap} {s : State} (hn : n < 48) (hready : TriggerReady s.dev n fi x f)
    (hcap : s.dev.capturesAt f n (f.base + x)) (hfill : (s.dev.chan n).since ≤ f.base + x - f.capPre n)
    (hmet : (s.dev.chan n).capMet (f.base + x) = some k)
    (hbar : k.last < f.base + x ∨ k.extend = false ∨ k.last = k.start + 8191 ∨ k.stage = 2) :
    Answers (.triggerDecision n fi x) s fun t =>
      t.dev.get (Reg.CH_TRG_REF_LO_REARM n) = (if k.last < f.base + x then (s.dev.get (Reg.CH_TRG_REF_LO_REARM n) + 1) % 65536
          else s.dev.get (Reg.CH_TRG_REF_LO_REARM n))
      ∧ t.dev.get (Reg.CH_TRG_REF_HI_BUSY n) = (if k.last < f.base + x then s.dev.get (Reg.CH_TRG_REF_HI_BUSY n)
          else (s.dev.get (Reg.CH_TRG_REF_HI_BUSY n) + 1) % 65536)
      ∧ (t.dev.chan n).caps.map (fun c => (c.start, c.last, c.x)) = (s.dev.chan n).caps.map (fun c => (c.start, c.last, c.x))
      ∧ (∀ m : Nat, m ≠ n → t.dev.chan m = s.dev.chan m)
      ∧ t = { s with dev := { s.dev with regs := t.dev.regs, rcd := t.dev.rcd, acq :=
              { s.dev.acq with chans := t.dev.acq.chans, slots := t.dev.acq.slots, fstats := t.dev.acq.fstats } } }
      ∧ (k.off = false → t.dev.rcd = s.dev.rcd)
      ∧ RegsKeepAll ([(Reg.CH_TRG_REF_LO_REARM n).key, (Reg.CH_TRG_REF_HI_BUSY n).key] ++ lossKeys ++ markKeys) s.dev t.dev := by
  have hne : (Reg.CH_TRG_REF_LO_REARM n).key ≠ (Reg.CH_TRG_REF_HI_BUSY n).key := by
    simp only [Fld.key, Reg.CH_TRG_REF_LO_REARM, Reg.CH_TRG_REF_HI_BUSY]
    omega
  have hrearm : Reg.CH_TRG_REF_LO_REARM n ∈ chTrgFields n := by simp [chTrgFields]
  have hbusy : Reg.CH_TRG_REF_HI_BUSY n ∈ chTrgFields n := by simp [chTrgFields]
  obtain ⟨case, hcase⟩ : ∃ case, case = if k.last < f.base + x then 1 else 2 := ⟨_, rfl⟩
  obtain ⟨hcount, hkept, hcaps, hstep⟩ := decideTrig_barred hn hcap hfill hmet hbar hcase
  refine ⟨_, exec_triggerDecision hn hready, ?_, ?_, hcaps, hstep.others, congrArg (fun d : Dev => { s with dev := d }) hstep.work,
    fun hoff => hstep.records (by rw [hoff]; decide), regsKeepAll_mono hstep.regs (barred_keys ?_)⟩
  · by_cases hlast : k.last < f.base + x
    · rw [if_pos hlast] at hcase ⊢
      subst hcase
      exact hcount
    · rw [if_neg hlast] at hcase ⊢
      subst hcase
      exact hkept _ hrearm hne
  · by_cases hlast : k.last < f.base + x
    · rw [if_pos hlast] at hcase ⊢
      subst hcase
      exact hkept _ hbusy hne.symm
    · rw [if_neg hlast] at hcase ⊢
      subst hcase
      exact hcount
  · by_cases hlast : k.last < f.base + x
    · exact .inl (hcase.trans (if_pos hlast))
    · exact .inr (hcase.trans (if_neg hlast))

theorem triggerDecision_extends {n fi x : Nat} {f : FStat} {k : Cap} {s : State} (hn : n < 48) (hready : TriggerReady s.dev n fi x f)
    (hcap : s.dev.capturesAt f n (f.base + x)) (hfill : (s.dev.chan n).since ≤ f.base + x - f.capPre n)
    (hmet : (s.dev.chan n).capMet (f.base + x) = some k) (hext : k.extend = true) (hin : f.base + x ≤ k.last)
    (hlimit : k.last ≠ k.start + 8191) (hstage : k.stage ≠ 2) :
    Answers (.triggerDecision n fi x) s fun t =>
      (t.dev.chan n).caps.length = (s.dev.chan n).caps.length
      ∧ ((t.dev.chan n).caps.find? fun c => c.x == k.x).map (fun c => (c.start, c.stage)) = some (k.start, 0)
      ∧ ((t.dev.chan n).caps.find? fun c => c.x == k.x).map (·.last) = some ((s.dev.chan n).endOf (k.extendedTo (f.base + x)))
      ∧ ((t.dev.chan n).caps.find? fun c => c.x == k.x).map (·.exts) = some (if k.exts.length < 8 then
            k.exts ++ [((f.base + x - k.start).toNat, (s.dev.fires f n false (f.base + x)).isSome, (s.dev.fires f n true (f.base + x)).isSome)]
          else k.exts)
      ∧ (∀ m : Nat, m ≠ n → t.dev.chan m = s.dev.chan m)
      ∧ t = { s with dev := { s.dev with regs := t.dev.regs, acq := { s.dev.acq with chans := t.dev.acq.chans, slots := t.dev.acq.slots } } }
      ∧ RegsKeepAll ([(Reg.CH_TRG_STATUS_CAPTURE_OPEN n).key, (Reg.CH_TRG_STATUS_AT_LIMIT n).key] ++ markKeys) s.dev t.dev := by
  obtain ⟨⟨k', ⟨⟨-, hstart, hopen⟩, hlast, hexts⟩, hfind⟩, hlen, hstep⟩ := decideTrig_extends hcap hfill hmet hext hin hlimit hstage
  refine ⟨_, exec_triggerDecision hn hready, hlen, ?_, ?_, ?_, hstep.others, hstep.state, hstep.regs⟩
  · rw [hfind, Option.map_some, hstart, hopen]
  · rw [hfind, Option.map_some, hlast]
  · rw [hfind, Option.map_some, hexts]

/-- Settles O30: a decision is quiet, or opens, is barred, comes before the fill, or extends, by what its channel holds at the sample. -/
theorem triggerDecisions : Obligations.TriggerDecisions := by
  refine ⟨fun n fi x f s hn hready ha hb => ?_, fun n fi x f s => triggerDecision_opens, fun n fi x f k s => triggerDecision_barred,
    fun n fi x f s hn hready hcap hfill => ?_, fun n fi x f k s => triggerDecision_extends⟩
  · rw [exec_triggerDecision hn hready, decideTrig_of_quiet ha hb]
  · obtain ⟨hcount, hcaps, hstep⟩ := decideTrig_before_fill hn hcap hfill
    exact ⟨_, exec_triggerDecision hn hready, hcount, hcaps, hstep.others, hstep.records id, hstep.regs⟩

end Sys2Proof.Machine
end

section
/-! PROOF. A command executed on its own: denied, bad, or its effect. READ, the word of a WRITE, ECHO, and how a reply leaves. -/
namespace Sys2Proof.Machine
open Sys2Proof.Safety

/-! ### A command that is not taken (R323, R365, R532) -/

theorem cmdRow_of_denied {c : Cmd} {f : EccDev → EccDev} {ecc : List (Nat × Nat)} {d : Dev} {g : Nat} (hup : d.up = true)
    (hsrc : d.hasSource c = true) (hden : d.denial c = some g) : cmdRow c f ecc d = (ecc, (d.notPermitted c).deny c.src g) := by
  simp only [cmdRow, hup, hsrc, hden, Bool.and_self, Bool.not_true, Bool.false_eq_true, if_false]
  rfl

theorem cmdRow_of_bad {c : Cmd} {f : EccDev → EccDev} {ecc : List (Nat × Nat)} {d : Dev} (hup : d.up = true) (hsrc : d.hasSource c = true)
    (hden : d.denial c = none) (hbad : cmdBad c = true) : cmdRow c f ecc d = (ecc, d.reply c 11 []) := by
  simp only [cmdRow, hup, hsrc, hden, hbad, Bool.and_self, Bool.not_true, Bool.false_eq_true, if_false, if_true]

/-- The eight command rows with the opcode of each. -/
def IsRow (c : Cmd) (op : Nat) (i : Instr) : Prop :=
  i = .read c ∧ op = 1 ∨ i = .write c ∧ op = 2 ∨ i = .trigger c ∧ op = 3 ∨ i = .cancel c ∧ op = 4 ∨ i = .echo c ∧ op = 5
    ∨ i = .release c ∧ op = 16 ∨ i = .attest c ∧ op = 17 ∨ i = .assign c ∧ op = 18

/-- Every command row is the command with its opcode, gated, and an effect of its own. -/
theorem exec_of_isRow {c : Cmd} {op : Nat} {i : Instr} (h : IsRow c op i) (s : State) :
    ∃ f : EccDev → EccDev, exec i s = onEcc (cmdRow (cmdWithOp c op) f) s := by
  rcases h with ⟨rfl, rfl⟩ | ⟨rfl, rfl⟩ | ⟨rfl, rfl⟩ | ⟨rfl, rfl⟩ | ⟨rfl, rfl⟩ | ⟨rfl, rfl⟩ | ⟨rfl, rfl⟩ | ⟨rfl, rfl⟩
  all_goals exact ⟨_, rfl⟩

theorem exec_row_refused {c : Cmd} {op : Nat} {i : Instr} {s : State} (hup : s.dev.up = true) (hsrc : s.dev.hasSource c = true)
    (h : IsRow c op i) :
    (∀ g : Nat, s.dev.denial (cmdWithOp c op) = some g → exec i s = .next { s with dev := (s.dev.notPermitted (cmdWithOp c op)).deny c.src g })
    ∧ (s.dev.denial (cmdWithOp c op) = none → cmdBad (cmdWithOp c op) = true →
        exec i s = .next { s with dev := s.dev.reply (cmdWithOp c op) 11 [] }) := by
  obtain ⟨f, hdo⟩ := exec_of_isRow h s
  have hsrc' : s.dev.hasSource (cmdWithOp c op) = true := hsrc
  refine ⟨fun g hden => ?_, fun hden hbad => ?_⟩
  · rw [hdo, onEcc, cmdRow_of_denied hup hsrc' hden]
    rfl
  · rw [hdo, onEcc, cmdRow_of_bad hup hsrc' hden hbad]

/-! ### The words of a command under its row's opcode -/

/-- The row's opcode stands in word 0; the other words are the command's. -/
theorem cmdWd_cmdWithOp (c : Cmd) (op : Nat) {k : Nat} (hk : 0 < k) : cmdWd (cmdWithOp c op) k = cmdWd c k := by
  have hne : 0 ≠ k := by omega
  simp [cmdWd, cmdWithOp, natsOf, nth, List.getD_eq_getElem?_getD, List.map_set, List.getElem?_set_ne hne]

theorem cmdAddr_cmdWithOp (c : Cmd) (op k : Nat) : cmdAddr (cmdWithOp c op) k = cmdAddr c k := by
  rw [cmdAddr, cmdWd_cmdWithOp c op (by decide), cmdAddr]

theorem cmdCount_cmdWithOp (c : Cmd) (op : Nat) : cmdCount (cmdWithOp c op) = cmdCount c := by
  rw [cmdCount, cmdWd_cmdWithOp c op (by decide), cmdCount]

theorem wholeAddr_cmdAddr (c : Cmd) (k : Nat) : wholeAddr (cmdAddr c k) = cmdAddr c k := wholeAddr_wholeAddr _

/-! ### READ (R323) -/

/-- A read of an address that only answers changes nothing. -/
theorem readEffect_of_quiet {a : Nat} (h : a ∉ readActs) (ecc : List (Nat × Nat)) (d : Dev) : readEffect ecc d a = (ecc, d) := by
  unfold readEffect
  split
  case h_7 => rfl
  all_goals exact absurd (by decide) h

theorem softRead_of_quiet {a : Nat} (ha : wholeAddr a = a) (h : a ∉ readActs) (ecc : List (Nat × Nat)) (d : Dev) :
    softRead ecc d a = (d.seenWord a, ecc, d) := by
  show ((readEffect ecc d (wholeAddr a)).2.seenWord (wholeAddr a), readEffect ecc d (wholeAddr a)) = _
  rw [ha, readEffect_of_quiet h]

/-- Reads of such addresses gather their words, newest first. -/
theorem readWords_of_quiet (c : Cmd) (x : EccDev) : ∀ (n k : Nat) (l : List Nat), (∀ j < n, cmdAddr c (k + j) ∉ readActs) →
    readWords c k n (l, x) = (((List.range n).map fun j => x.2.seenWord (cmdAddr c (k + j))).reverse ++ l, x)
  | 0, _, _, _ => rfl
  | n + 1, k, l, h => by
    have hnow : softRead x.1 x.2 (cmdAddr c k) = (x.2.seenWord (cmdAddr c k), x) :=
      softRead_of_quiet (wholeAddr_cmdAddr c k) (h 0 (by omega)) x.1 x.2
    have hshift (j : Nat) : k + 1 + j = k + (j + 1) := by omega
    have hrest := readWords_of_quiet c x n (k + 1) (x.2.seenWord (cmdAddr c k) :: l) fun j hj => by
      rw [hshift]
      exact h (j + 1) (by omega)
    simp only [readWords, hnow, hrest, hshift]
    simp [List.range_succ_eq_map, Function.comp_def]

theorem cmdRead_of_quiet {c : Cmd} {x : EccDev} (h : ∀ k < cmdCount c, cmdAddr c k ∉ readActs) :
    cmdRead c 0 x = (x.1, x.2.reply c 0 ((List.range (cmdCount c)).map fun k => x.2.seenWord (cmdAddr c k))) := by
  have hwords := readWords_of_quiet c x (cmdCount c) 0 [] fun j hj => by rw [Nat.zero_add]; exact h j hj
  simp only [Nat.zero_add, List.append_nil] at hwords
  unfold cmdRead
  rw [hwords]
  dsimp only
  rw [List.reverse_reverse]
  rfl

theorem exec_read {c : Cmd} {s : State} (hup : s.dev.up = true) (hsrc : s.dev.hasSource c = true) (hden : s.dev.denial (cmdWithOp c 1) = none)
    (hbad : cmdBad (cmdWithOp c 1) = false) (h : ∀ k < cmdCount c, cmdAddr c k ∉ readActs) :
    exec (.read c) s =
      .next { s with dev := s.dev.reply (cmdWithOp c 1) 0 ((List.range (cmdCount c)).map fun k => s.dev.seenWord (cmdAddr c k)) } := by
  have hsrc' : s.dev.hasSource (cmdWithOp c 1) = true := hsrc
  have hquiet : ∀ k < cmdCount (cmdWithOp c 1), cmdAddr (cmdWithOp c 1) k ∉ readActs := by
    simpa only [cmdCount_cmdWithOp, cmdAddr_cmdWithOp] using h
  show onEcc (cmdRow (cmdWithOp c 1) (cmdRead (cmdWithOp c 1) 0)) s = _
  rw [onEcc, cmdRow_of_taken hup hsrc' hden hbad, cmdRead_of_quiet hquiet]
  simp only [cmdCount_cmdWithOp, cmdAddr_cmdWithOp]

/-! ### WRITE (R323) -/

/-- The bits of a field whose write is an act. -/
def Fld.actWord (f : Fld) : Nat :=
  match f.acc with
  | .w1c | .w1s | .wo => fieldAt f.lo f.width (2 ^ f.width - 1)
  | _ => 0

theorem actBits_eq (a : Nat) : actBits a = ((fieldsAt a).map Fld.actWord).sum := rfl

theorem actWords_fit : ∀ d ∈ regTable, ∀ i < d.count, ((d.flds i).map Fld.actWord).sum < 2 ^ 32 := by decide +kernel

/-- The bits that are acts lie within the word of their register. -/
theorem actBits_lt (a : Nat) : actBits a < 2 ^ 32 := by
  rw [actBits_eq]
  unfold fieldsAt
  split
  next d hd =>
    have hcovers := List.find?_some hd
    simp only [RegDesc.covers, Bool.and_eq_true, decide_eq_true_eq] at hcovers
    exact actWords_fit d (List.mem_of_find?_eq_some hd) _ hcovers.2
  next => decide

/-- A bit of the word that flips all 32 bits of `n`. -/
theorem testBit_flip {n b : Nat} (hn : n < 2 ^ 32) (hb : b < 32) : (2 ^ 32 - 1 - n).testBit b = !n.testBit b := by
  rw [Nat.sub_sub, Nat.add_comm 1 n, Nat.testBit_two_pow_sub_succ hn, decide_eq_true hb, Bool.true_and]

/-- Under the mask a bit is as given; outside it an act is not done and any other bit keeps its value. -/
theorem bitOf_maskedWord (a old val mask : Nat) {b : Nat} (hb : b < 32) :
    bitOf (maskedWord a old val mask) b = if bitOf mask b then bitOf val b else if bitOf (actBits a) b then false else bitOf old b := by
  have hmod (n : Nat) : (n % 2 ^ 32).testBit b = n.testBit b := by rw [Nat.testBit_mod_two_pow, decide_eq_true hb, Bool.true_and]
  simp only [maskedWord, bitOf_eq_testBit, Nat.testBit_or, Nat.testBit_and, testBit_flip (Nat.mod_lt mask (Nat.two_pow_pos 32)) hb,
    testBit_flip (actBits_lt a) hb, hmod]
  cases mask.testBit b with
  | true => simp
  | false => cases (actBits a).testBit b <;> simp

/-- The device after the register write of a WRITE. -/
def Dev.maskWritten (d : Dev) (f : Fuses) (c : Cmd) : Dev :=
  softWrite f d c.src (cmdAddr c 0) (maskedWord (cmdAddr c 0) (d.regWord (cmdAddr c 0)) (cmdWd c 5) (cmdWd c 6))

theorem exec_write {c : Cmd} {s : State} (hup : s.dev.up = true) (hsrc : s.dev.hasSource c = true) (hden : s.dev.denial (cmdWithOp c 2) = none)
    (hbad : cmdBad (cmdWithOp c 2) = false) :
    exec (.write c) s = .next { s with
      dev := (s.dev.maskWritten s.fuses c).reply (cmdWithOp c 2) 0 [(s.dev.maskWritten s.fuses c).seenWord (cmdAddr c 0)] } := by
  have hsrc' : s.dev.hasSource (cmdWithOp c 2) = true := hsrc
  show onEcc (cmdRow (cmdWithOp c 2) (cmdWrite s.fuses id (cmdWithOp c 2) 0)) s = _
  rw [onEcc, cmdRow_of_taken hup hsrc' hden hbad, cmdWrite, cmdAddr_cmdWithOp, cmdWd_cmdWithOp c 2 (by decide), cmdWd_cmdWithOp c 2 (by decide)]
  rfl

/-! ### ECHO (R323) -/

/-- A command that is not bad has the opcode of its row: with no words at all it would have opcode 0. -/
theorem cmdOp_of_notBad {c : Cmd} {op : Nat} (hop : op < 256) (h : cmdBad (cmdWithOp c op) = false) : cmdOp (cmdWithOp c op) = op := by
  obtain ⟨src, port, origin, ring, seq, w⟩ := c
  cases w with
  | nil => exact absurd h (by simp [cmdBad, cmdWithOp, cmdOp, cmdWd, natsOf, nth, bits])
  | cons w ws =>
    show (BitVec.ofNat 32 (w.toNat / 256 * 256 + op)).toNat / 2 ^ 0 % 2 ^ 8 = op
    rw [BitVec.toNat_ofNat]
    omega

theorem denial_of_echo {d : Dev} {c : Cmd} (h : cmdOp c = 5) : d.denial c = none := by
  simp only [Dev.denial, h]

theorem exec_echo {c : Cmd} {s : State} (hup : s.dev.up = true) (hsrc : s.dev.hasSource c = true) (hbad : cmdBad (cmdWithOp c 5) = false) :
    exec (.echo c) s = .next { s with dev := s.dev.reply (cmdWithOp c 5) 0 [cmdWd c 4, cmdWd c 5, cmdWd c 6, cmdWd c 7] } := by
  have hsrc' : s.dev.hasSource (cmdWithOp c 5) = true := hsrc
  have hden : s.dev.denial (cmdWithOp c 5) = none := denial_of_echo (cmdOp_of_notBad (by decide) hbad)
  show onEcc (cmdRow (cmdWithOp c 5) fun x => (x.1, x.2.done (cmdWithOp c 5) 0 [cmdWd c 4, cmdWd c 5, cmdWd c 6, cmdWd c 7])) s = _
  rw [onEcc, cmdRow_of_taken hup hsrc' hden hbad]
  rfl

/-! ### Where a reply leaves (R328, R330, R366, R367) -/

/-- The message that carries the reply to `c`. -/
def Dev.replyMsg (d : Dev) (c : Cmd) (status : Nat) (data : List Nat) : Msg :=
  ⟨2, c.origin, c.ring, c.seq, wordsOf (d.replyDesc c status data), 63, 0⟩

section
variable {d : Dev} {c : Cmd} {status : Nat} {data : List Nat}

theorem reply_of_spi (h : c.src = .spi) : d.reply c status data = d := by rw [Dev.reply, h]

theorem reply_of_pcie (h : c.src = .pcie) :
    d.reply c status data = d.toEventRing (d.ring c.ring).replyRing (d.replyDesc c status data) := by rw [Dev.reply, h]

theorem reply_of_upLane (h : c.src = .upLane) (hroom : d.mg.ownQ.length < d.upQueue) :
    d.reply c status data = { d with mg := { d.mg with ownQ := d.mg.ownQ ++ [d.replyMsg c status data] } } := by
  rw [Dev.reply, h]
  exact if_pos hroom

theorem reply_of_downLane (h : c.src = .downLane) (hroom : (d.lane c.port).ansQ.length < d.upQueue) :
    d.reply c status data = d.updLane c.port fun x => { x with ansQ := x.ansQ ++ [d.replyMsg c status data] } := by
  rw [Dev.reply, h]
  exact if_pos hroom

end

end Sys2Proof.Machine
end

section
/-! PROOF. TRIGGER: the fold over the channels it names touches each of them once, and its reply is that of the device before; O45 from it. -/
namespace Sys2Proof.Machine
open Sys2Proof.Safety

/-! ### What a TRIGGER may change -/

/-- The register fields a TRIGGER may count in: OFF of the channels, and marks that are one too many. -/
def fireKeys : List Nat := ((List.range 48).map fun n => (Reg.CH_TRG_REF_HI_OFF n).key) ++ markKeys

theorem mem_fireKeys_off {n : Nat} (hn : n < 48) : (Reg.CH_TRG_REF_HI_OFF n).key ∈ fireKeys :=
  List.mem_append_left _ (List.mem_map.2 ⟨n, List.mem_range.2 hn, rfl⟩)

theorem offKey_inj {m n : Nat} (h : (Reg.CH_TRG_REF_HI_OFF m).key = (Reg.CH_TRG_REF_HI_OFF n).key) : m = n := by
  simp only [Reg.CH_TRG_REF_HI_OFF, Fld.key] at h
  omega

/-- Nothing changes but channels, accounts of frames, stream slots and the register fields of `fireKeys`. -/
structure FireStep (d t : Dev) : Prop where
  work : t = { d with regs := t.regs, acq := { d.acq with chans := t.acq.chans, fstats := t.acq.fstats, slots := t.acq.slots } }
  regs : RegsKeepAll fireKeys d t

theorem FireStep.refl (d : Dev) : FireStep d d := ⟨rfl, fun _ _ => rfl⟩

theorem FireStep.trans {a b c : Dev} (h : FireStep a b) (k : FireStep b c) : FireStep a c :=
  ⟨by rw [k.work, h.work], regsKeepAll_trans h.regs k.regs⟩

theorem FireStep.updChan (d : Dev) (n : Nat) (g : Chan → Chan) : FireStep d (d.updChan n g) := ⟨rfl, fun _ _ => rfl⟩

theorem FireStep.of_mark (d : Dev) (n fn : Nat) (x : Int) (a b opened : Bool) : FireStep d (d.mark n fn x a b opened) :=
  have h := (mark_spec d n fn x a b opened).1
  ⟨by rw [h.work], regsKeepAll_mono h.regs fun _ => List.mem_append_right _⟩

theorem FireStep.of_refuse (d : Dev) {n : Nat} (hn : n < 48) (fn k : Nat) : FireStep d (d.refuse n fn k 3) :=
  ⟨rfl, regsKeepAll_set_of_mem (mem_fireKeys_off hn)⟩

/-! ### One channel (R168, R173, R182) -/

/-- Channel `n` with the headgate trigger at sample `x` for its unit, where that has TYPE 5 and the channel takes triggers. -/
def Chan.firedAt (f : FStat) (x : Nat) (b : Bool) (n : Nat) (c : Chan) : Chan :=
  if (f.unit n b).typ = 5 ∧ n ∈ f.accept then { c with hg := c.hg ++ [(f.fn, x, b)] } else c

/-- The TRIGGER at one channel that it names. -/
def Dev.fireAt (f : FStat) (x : Nat) (b : Bool) (d : Dev) (n : Nat) : Dev :=
  if (f.unit n b).typ ≠ 5 then d
  else if f.accept.contains n then d.updChan n fun c => { c with hg := c.hg ++ [(f.fn, x, b)] }
  else (if (f.unit n b).cap then d.refuse n f.fn x 3 else d).mark n f.fn (f.base + x) (!b) b false

theorem fireHeadgate_eq {d : Dev} {f : FStat} (hrole : d.role = .frontEnd) (hf : d.frameOf d.fn = some f) (mask : Nat) (b : Bool) (smp : Nat) :
    d.fireHeadgate mask b smp = (setBits mask 48).foldl (Dev.fireAt f (min smp (f.samples - 1)) b) d := by
  unfold Dev.fireHeadgate
  rw [hf]
  exact if_neg (by rw [hrole]; decide)

section
variable {f : FStat} {x : Nat} {b : Bool} {d : Dev} {n : Nat}

theorem fireAt_of_otherType (h : (f.unit n b).typ ≠ 5) : d.fireAt f x b n = d := if_pos h

theorem fireAt_of_accepting (h : (f.unit n b).typ = 5) (hacc : n ∈ f.accept) :
    d.fireAt f x b n = d.updChan n fun c => { c with hg := c.hg ++ [(f.fn, x, b)] } := by
  rw [Dev.fireAt, if_neg (not_not_intro h), if_pos (List.contains_iff_mem.2 hacc)]

theorem fireAt_of_off (h : (f.unit n b).typ = 5) (hacc : n ∉ f.accept) :
    d.fireAt f x b n = (if (f.unit n b).cap then d.refuse n f.fn x 3 else d).mark n f.fn (f.base + x) (!b) b false := by
  rw [Dev.fireAt, if_neg (not_not_intro h), if_neg (by rwa [List.contains_iff_mem])]

theorem fireAt_step (hn : n < 48) : FireStep d (d.fireAt f x b n) := by
  by_cases htyp : (f.unit n b).typ = 5
  · by_cases hacc : n ∈ f.accept
    · rw [fireAt_of_accepting htyp hacc]
      exact .updChan d n _
    · rw [fireAt_of_off htyp hacc]
      refine .trans ?_ (.of_mark _ n _ _ _ _ _)
      split
      · exact .of_refuse d hn _ _
      · exact .refl d
  · rw [fireAt_of_otherType htyp]
    exact .refl d

/-- A trigger that counts OFF changes no channel. -/
theorem chan_fireAt_of_off (h : (f.unit n b).typ = 5) (hacc : n ∉ f.accept) (m : Nat) : (d.fireAt f x b n).chan m = d.chan m := by
  rw [fireAt_of_off h hacc, chan_mark]
  split <;> rfl

theorem chan_fireAt_ne {m : Nat} (hm : m ≠ n) : (d.fireAt f x b n).chan m = d.chan m := by
  by_cases htyp : (f.unit n b).typ = 5
  · by_cases hacc : n ∈ f.accept
    · rw [fireAt_of_accepting htyp hacc, chan_updChan_ne d hm]
    · exact chan_fireAt_of_off htyp hacc m
  · rw [fireAt_of_otherType htyp]

theorem chan_fireAt_same : (d.fireAt f x b n).chan n = (d.chan n).firedAt f x b n := by
  unfold Chan.firedAt
  by_cases htyp : (f.unit n b).typ = 5
  · by_cases hacc : n ∈ f.accept
    · rw [fireAt_of_accepting htyp hacc, chan_updChan_same, if_pos ⟨htyp, hacc⟩]
    · rw [chan_fireAt_of_off htyp hacc, if_neg fun h => hacc h.2]
  · rw [fireAt_of_otherType htyp, if_neg fun h => htyp h.1]

theorem get_off_mark {m : Nat} (hm : m < 48) (d : Dev) (n fn : Nat) (x : Int) (a b opened : Bool) :
    (d.mark n fn x a b opened).get (Reg.CH_TRG_REF_HI_OFF m) = d.get (Reg.CH_TRG_REF_HI_OFF m) :=
  (mark_spec d n fn x a b opened).1.regs _
    (not_markKey_of_lt ((chTrgFields_apart m hm).2 (Reg.CH_TRG_REF_HI_OFF m) (by simp [chTrgFields])).2)

theorem get_off_fireAt_ne {m : Nat} (hm : m < 48) (hne : n ≠ m) :
    (d.fireAt f x b n).get (Reg.CH_TRG_REF_HI_OFF m) = d.get (Reg.CH_TRG_REF_HI_OFF m) := by
  by_cases htyp : (f.unit n b).typ = 5
  · by_cases hacc : n ∈ f.accept
    · rw [fireAt_of_accepting htyp hacc]
      rfl
    · rw [fireAt_of_off htyp hacc, get_off_mark hm]
      split
      · exact (refuse_spec d n f.fn x 3).2.2.regs _ (by simpa [refusalFld] using fun h => hne (offKey_inj h).symm)
      · rfl
  · rw [fireAt_of_otherType htyp]

theorem get_off_fireAt_same (hn : n < 48) (htyp : (f.unit n b).typ = 5) (hacc : n ∉ f.accept) (hcap : (f.unit n b).cap = true) :
    (d.fireAt f x b n).get (Reg.CH_TRG_REF_HI_OFF n) = (d.get (Reg.CH_TRG_REF_HI_OFF n) + 1) % 65536 := by
  rw [fireAt_of_off htyp hacc, get_off_mark hn, if_pos hcap]
  exact (refuse_spec d n f.fn x 3).1

end

/-! ### The channels it names, each once -/

/-- Where only step `m` touches what is observed, a fold over distinct numbers touches it once, if `m` is among them. -/
theorem foldl_observed {α : Type} {step : Dev → Nat → Dev} {obs : Dev → α} {g : α → α} {m : Nat} (hsame : ∀ d, obs (step d m) = g (obs d))
    (hother : ∀ d n, n ≠ m → obs (step d n) = obs d) :
    ∀ (l : List Nat), l.Nodup → ∀ d : Dev, obs (l.foldl step d) = if m ∈ l then g (obs d) else obs d
  | [], _, _ => by simp
  | n :: l, hl, d => by
    obtain ⟨hnot, hrest⟩ := List.nodup_cons.1 hl
    rw [List.foldl_cons, foldl_observed hsame hother l hrest]
    by_cases hn : n = m
    · subst hn
      rw [if_neg hnot, if_pos List.mem_cons_self, hsame]
    · simp only [hother d n hn, List.mem_cons, Ne.symm hn, false_or]

theorem nodup_setBits (n w : Nat) : (setBits n w).Nodup := List.nodup_range.filter _

section
variable {d : Dev} {f : FStat} (hrole : d.role = .frontEnd) (hf : d.frameOf d.fn = some f) (mask : Nat) (b : Bool) (smp : Nat)
include hrole hf

theorem fireHeadgate_step : FireStep d (d.fireHeadgate mask b smp) := by
  rw [fireHeadgate_eq hrole hf]
  exact List.foldlRecOn (motive := FireStep d) _ _ (.refl d) fun e he n hn => he.trans (fireAt_step (mem_setBits.1 hn).1)

theorem chan_fireHeadgate {n : Nat} (hn : n < 48) :
    (d.fireHeadgate mask b smp).chan n =
      if bitOf mask n = true ∧ (f.unit n b).typ = 5 ∧ n ∈ f.accept then
        { d.chan n with hg := (d.chan n).hg ++ [(f.fn, min smp (f.samples - 1), b)] }
      else d.chan n := by
  rw [fireHeadgate_eq hrole hf, foldl_observed (obs := fun e : Dev => e.chan n) (fun _ => chan_fireAt_same)
    (fun _ _ hne => chan_fireAt_ne hne.symm) _ (nodup_setBits mask 48)]
  simp only [mem_setBits, hn, true_and, Chan.firedAt, ite_and]

theorem off_fireHeadgate {n : Nat} (hn : n < 48) (hbit : bitOf mask n = true) (htyp : (f.unit n b).typ = 5) (hacc : n ∉ f.accept)
    (hcap : (f.unit n b).cap = true) :
    (d.fireHeadgate mask b smp).get (Reg.CH_TRG_REF_HI_OFF n) = (d.get (Reg.CH_TRG_REF_HI_OFF n) + 1) % 65536 := by
  rw [fireHeadgate_eq hrole hf, foldl_observed (obs := fun e : Dev => e.get (Reg.CH_TRG_REF_HI_OFF n)) (g := fun v => (v + 1) % 65536)
    (fun _ => get_off_fireAt_same hn htyp hacc hcap) (fun _ _ hne => get_off_fireAt_ne hn hne) _ (nodup_setBits mask 48)]
  exact if_pos (mem_setBits.2 ⟨hn, hbit⟩)

end

/-! ### The reply to a TRIGGER -/

/-- The reply's number, clock state and frame, and its room, are those before. -/
theorem FireStep.replies {d e : Dev} (h : FireStep d e) (c : Cmd) (status : Nat) (data : List Nat) :
    e.replyMsg c status data = d.replyMsg c status data ∧ e.upQueue = d.upQueue ∧ e.mg = d.mg := by
  have hget {r : Fld} (hr : r.key ∉ fireKeys) : e.get r = d.get r := h.regs r hr
  have hclk : e.clkState = d.clkState := hget (by decide)
  have hforce : e.force = d.force := by rw [h.work]
  have hnum : e.devnum = d.devnum := by
    unfold Dev.devnum Dev.eff
    rw [hget (by decide), hforce]
  have hfi : e.fi = d.fi := by rw [h.work]; rfl
  refine ⟨?_, ?_, by rw [h.work]⟩
  · simp only [Dev.replyMsg, Dev.replyDesc, hclk, hnum, hfi]
  · rw [Dev.upQueue, hget (by decide), Dev.upQueue]

theorem FireStep.then_reply {d e : Dev} (h : FireStep d e) (c : Cmd) (status : Nat) (data : List Nat) :
    e.reply c status data
      = { talked d (e.reply c status data) with
          acq := { d.acq with chans := (e.reply c status data).acq.chans, fstats := (e.reply c status data).acq.fstats,
                              slots := (e.reply c status data).acq.slots } }
    ∧ RegsKeep fireKeys d (e.reply c status data) := by
  obtain ⟨hwork, hregs⟩ := reply_talks e c status data
  refine ⟨?_, regsKeep_trans (regsKeep_of_regsKeepAll h.regs) (regsKeep_mono hregs (by simp))⟩
  rw [hwork, h.work]
  rfl

theorem exec_trigger {c : Cmd} {s : State} (hup : s.dev.up = true) (hsrc : s.dev.hasSource c = true) (hden : s.dev.denial (cmdWithOp c 3) = none)
    (hbad : cmdBad (cmdWithOp c 3) = false) :
    exec (.trigger c) s
      = .next { s with dev := (s.dev.fireHeadgate (cmdFire c).1 (cmdFire c).2.1 (cmdFire c).2.2).reply (cmdWithOp c 3) 0 [] } := by
  have hsrc' : s.dev.hasSource (cmdWithOp c 3) = true := hsrc
  show onEcc (cmdRow (cmdWithOp c 3) fun x =>
    (x.1, (x.2.fireHeadgate (cmdFire c).1 (cmdFire c).2.1 (cmdFire c).2.2).done (cmdWithOp c 3) 0 [])) s = _
  rw [onEcc, cmdRow_of_taken hup hsrc' hden hbad]
  rfl

theorem hasSource_of_upLane {d : Dev} {c : Cmd} (hsrc : c.src = .upLane) (hrole : d.role = .frontEnd) : d.hasSource c = true := by
  rw [Dev.hasSource, hsrc, hrole]
  rfl

theorem trigger_spec {c : Cmd} {f : FStat} {s : State} (hup : s.dev.up = true) (hrole : s.dev.role = .frontEnd) (hsrc : c.src = .upLane)
    (hbad : cmdBad (cmdWithOp c 3) = false) (hden : s.dev.denial (cmdWithOp c 3) = none) (hf : s.dev.frameOf s.dev.fn = some f) :
    Answers (.trigger c) s fun t =>
      (∀ n : Nat, n < 48 → t.dev.chan n =
        if bitOf (cmdFire c).1 n = true ∧ (f.unit n (cmdFire c).2.1).typ = 5 ∧ n ∈ f.accept then
          { s.dev.chan n with hg := (s.dev.chan n).hg ++ [(f.fn, min (cmdFire c).2.2 (f.samples - 1), (cmdFire c).2.1)] }
        else s.dev.chan n)
      ∧ (∀ n : Nat, n < 48 → bitOf (cmdFire c).1 n = true → (f.unit n (cmdFire c).2.1).typ = 5 → n ∉ f.accept →
          (f.unit n (cmdFire c).2.1).cap = true →
          t.dev.get (Reg.CH_TRG_REF_HI_OFF n) = (s.dev.get (Reg.CH_TRG_REF_HI_OFF n) + 1) % 65536)
      ∧ (s.dev.mg.ownQ.length < s.dev.upQueue → t.dev.mg.ownQ = s.dev.mg.ownQ ++ [s.dev.replyMsg (cmdWithOp c 3) 0 []])
      ∧ t = { s with dev := { talked s.dev t.dev with
          acq := { s.dev.acq with chans := t.dev.acq.chans, fstats := t.dev.acq.fstats, slots := t.dev.acq.slots } } }
      ∧ RegsKeep fireKeys s.dev t.dev := by
  have hstep := fireHeadgate_step hrole hf (cmdFire c).1 (cmdFire c).2.1 (cmdFire c).2.2
  obtain ⟨hmsg, hroom, hmg⟩ := hstep.replies (cmdWithOp c 3) 0 []
  obtain ⟨hwork, hregs⟩ := hstep.then_reply (cmdWithOp c 3) 0 []
  refine ⟨_, exec_trigger hup (hasSource_of_upLane hsrc hrole) hden hbad, fun n hn => ?_, fun n hn hbit htyp hacc hcap => ?_, fun hlen => ?_,
    congrArg (fun d : Dev => { s with dev := d }) hwork, hregs⟩
  · exact (Dev.reply_chan _ _ _ _ n).trans (chan_fireHeadgate hrole hf _ _ _ hn)
  · have hlow : (Reg.CH_TRG_REF_HI_OFF n).key < 0x3704 * 32 := ((chTrgFields_apart n hn).2 _ (by simp [chTrgFields])).2
    exact (Dev.reply_get _ _ _ _ (notTalk_below_compression (by omega))).trans (off_fireHeadgate hrole hf _ _ _ hn hbit htyp hacc hcap)
  · have hsrc' : (cmdWithOp c 3).src = .upLane := hsrc
    show (Dev.reply _ _ _ _).mg.ownQ = _
    rw [reply_of_upLane hsrc' (by rwa [hroom, hmg]), hmsg, hmg]

/-- Settles O45: the gate of every row, the effect of each of the four, and the reply by the source of its command. -/
theorem commandsReadWriteEchoAndTrigger : Obligations.CommandsReadWriteEchoAndTrigger :=
  ⟨fun _ _ _ _ hup hsrc hrow => exec_row_refused hup hsrc hrow, fun _ _ hup hsrc hden hbad hquiet => exec_read hup hsrc hden hbad hquiet,
    fun _ _ hup hsrc hden hbad => ⟨exec_write hup hsrc hden hbad, fun _ => bitOf_maskedWord _ _ _ _⟩, fun _ _ => exec_echo,
    fun _ _ _ _ => ⟨rfl, reply_of_spi, reply_of_pcie, reply_of_upLane, reply_of_downLane⟩,
    fun _ _ _ hup hrole hsrc hbad hden hf => trigger_spec hup hrole hsrc hbad hden hf⟩

end Sys2Proof.Machine
end

section
/-! PROOF. Two statements that a state refutes: O55 by a count of sixteen bits that wraps, O38 by a summary whose copy has begun on a lane that its
index entry does not name. -/
namespace Sys2Proof.Machine
open Sys2Proof.Safety

/-! ### The records sent again fill their counter (R231, R244) -/

/-- A hub whose ring 0 holds one entry of one record not confirmed, with RESENT, sixteen bits wide, at its highest value. -/
def resentAtItsEnd : State :=
  { State.reset with
    dev := ((((Dev.set { State.reset.dev with boot := .running } Reg.GLB_ROLE_STATUS_ACTIVE_ROLE 2).setBoth Reg.HR_CTRL_ENABLE 1).set
      Reg.HR_LINK_STATUS_LINK_UP 1).set Reg.EGR_STATS_RESENT 65535).setRing 0
        { Ring.init with
          st := 1, typ := 1, log2 := 4
          entries := [{ j := 0, buf := 64, recs := [[1#32, 3#32, 0#32]], openFn := 0, closeFn := 0, cont := false, more := false, isOpen := false,
                        closed := true, written := true }] } }

theorem resentAtItsEnd_runs : resentAtItsEnd.dev.ringsRun = true ∧ (resentAtItsEnd.dev.ring 0).st = 1 ∧ (resentAtItsEnd.dev.ring 0).typ = 1
    ∧ resentAtItsEnd.dev.hr.lines = [] := by decide +kernel

theorem resentAtItsEnd_inTime : ∀ e ∈ (resentAtItsEnd.dev.ring 0).entries, ∀ w ∈ e.recs,
    recLen (natsOf w) ≠ 0 ∧ resentAtItsEnd.dev.fn ≤ resentAtItsEnd.dev.fnOfFi (recFi (natsOf w)) + 128 := by decide +kernel

theorem resentAtItsEnd_claim : (resentAtItsEnd.dev.get Reg.EGR_STATS_RESENT
    + ((resentAtItsEnd.dev.ring 0).entries.map fun e => e.recs.length).sum) % 2 ^ 32 = 65536 := by decide +kernel

/-- One record more brings the counter round to 0. -/
theorem resentAtItsEnd_wraps : (resentAtItsEnd.dev.aerError 0).get Reg.EGR_STATS_RESENT = 0 := by decide +kernel

theorem exec_aerEgressError {r : Nat} (hr : r < 4096) (s : State) :
    exec (.aerEgressError r) s = onDev (fun d => d.aerError r) s := onUnit_of_lt hr _ s

/-- Refutes O55: an egress error is said to count the records sent again modulo 2^32, but EGR_STATS.RESENT has sixteen bits and wraps at
65,536. -/
theorem not_linkAndEndpoint : ¬ Obligations.LinkAndEndpoint := by
  rintro ⟨-, -, -, -, herror, -⟩
  obtain ⟨hruns, hon, htyp, hlines⟩ := resentAtItsEnd_runs
  obtain ⟨-, -, -, -, hresent, -⟩ := of_answers_onDev (exec_aerEgressError (by decide) _)
    (herror 0 resentAtItsEnd (by decide) hruns hon (.inl htyp) hlines)
  obtain ⟨-, hcount⟩ := hresent htyp resentAtItsEnd_inTime
  rw [resentAtItsEnd_claim] at hcount
  exact absurd (resentAtItsEnd_wraps.symm.trans hcount) (by decide)

/-! ### A flush withdraws a summary that a lane is sending (R225, R227) -/

/-- A front-end whose lane 0 sends the summary of frame 0 while the summary's index entry names no lane, with a hit record of the frame
behind it, no page for a loss record, and a flush that waits. The statement asks nothing of how index entries and lanes agree. -/
def summaryOfNoLane : State :=
  { State.reset with
    dev := { State.reset.dev with
      boot := .running
      regs := [(Reg.GLB_ROLE_STATUS_ACTIVE_ROLE.key, 0)]
      acq := { State.reset.dev.acq with fstats := [{ State.reset.dev.newFrame with summed := true }] }
      lanes := [(0, { Lane.init with tx := [{ id := 1, fn := 0, stream := false, started := true, words := [], addr := 0, cut := false }] })]
      rcd := { State.reset.dev.rcd with
        startFn := some 0
        flush := some 7
        nextId := 3
        fifo := [{ id := 1, words := [3#32], typ := 3, chan := 63, dev := 0, fn := 0, addr := 0, begun := [], left := [], spilled := false,
                   bad := false, loss := none, own := true },
                 { id := 2, words := [1#32], typ := 1, chan := 4, dev := 0, fn := 0, addr := 1, begun := [], left := [], spilled := false,
                   bad := false, loss := none, own := true }] } } }

theorem summaryOfNoLane_sends : ∃ q ∈ summaryOfNoLane.dev.rcd.fifo, q.id = 1 ∧ summaryOfNoLane.dev.isSending q.id = true := by decide +kernel

/-- The loss of the hit record finds no room, so the summary of its frame is withheld (R225): it counts as not begun. -/
theorem summaryOfNoLane_withheld : summaryOfNoLane.dev.flushExecute.rcd.fifo = [] := by decide +kernel

/-- Refutes O38: a flush is said to keep every record that a lane is sending, whatever the state, but a summary that no lane has begun
by its index entry goes when a loss of its frame finds no room, although a lane is sending it. -/
theorem not_recordFifoTakesKeepsAndFlushes : ¬ Obligations.RecordFifoTakesKeepsAndFlushes := by
  rintro ⟨-, -, -, hflush⟩
  obtain ⟨-, -, -, -, -, -, hsent, -⟩ := of_answers_onDev (f := Dev.flushExecute) rfl (hflush 7 summaryOfNoLane rfl rfl)
  obtain ⟨q, hq, -, hsending⟩ := summaryOfNoLane_sends
  have hkept := hsent q hq hsending
  rw [summaryOfNoLane_withheld] at hkept
  exact absurd hkept List.not_mem_nil

end Sys2Proof.Machine
end

section
/-! PROOF. The diagnostic registers: what a read of a queue's word latches; O40 from it. -/
namespace Sys2Proof.Machine
open Sys2Proof.Safety

/-! ### What a read latches (R232, R239, R240) -/

/-- The tag of a word read with no error in it. -/
def diagTag (notValid op sent : Bool) : List (Fld × Nat) :=
  [(Reg.REC_DIAG_TAG_NOT_VALID, b2n notValid), (Reg.REC_DIAG_TAG_OPEN, b2n op), (Reg.REC_DIAG_TAG_CORRECTED, 0),
    (Reg.REC_DIAG_TAG_UNCORRECTABLE, 0), (Reg.REC_DIAG_TAG_SENT, b2n sent)]

/-- The register fields of the word and its tag. -/
def diagKeys : List Nat :=
  [Reg.REC_DIAG_DATA_DATA.key, Reg.REC_DIAG_TAG_NOT_VALID.key, Reg.REC_DIAG_TAG_OPEN.key, Reg.REC_DIAG_TAG_CORRECTED.key,
    Reg.REC_DIAG_TAG_UNCORRECTABLE.key, Reg.REC_DIAG_TAG_SENT.key]

/-- Word `v` with its tag has been latched, and nothing else but `free` changed. -/
structure DiagLatched (v : Nat) (notValid op sent : Bool) (d t : Dev) : Prop where
  data : t.get Reg.REC_DIAG_DATA_DATA = v % 2 ^ 32
  tag : ∀ p ∈ diagTag notValid op sent, t.get p.1 = p.2
  work : t = { d with regs := t.regs, free := t.free }
  regs : RegsKeepAll diagKeys d t

theorem diagTag_apart : ∀ notValid op sent : Bool, ((diagTag notValid op sent).map Prod.fst).Pairwise (fun a b => a.key ≠ b.key) ∧
    ∀ p ∈ diagTag notValid op sent, p.2 % 2 ^ p.1.width = p.2 ∧ p.1.key ∈ diagKeys ∧ p.1.key ≠ Reg.REC_DIAG_DATA_DATA.key := by decide

/-- The fields of the tag, in whatever order they are set, and then the word. -/
theorem diagLatched_of_setAll {v : Nat} {notValid op sent : Bool} {l : List (Fld × Nat)} {d e : Dev} (hl : l.Perm (diagTag notValid op sent))
    (he : e = { d with free := e.free }) : DiagLatched v notValid op sent d ((e.setAll l).set Reg.REC_DIAG_DATA_DATA v) := by
  obtain ⟨hapart, htag⟩ := diagTag_apart notValid op sent
  have hd := ((hl.map Prod.fst).pairwise_iff fun h => h.symm).2 hapart
  have hget (f : Fld) : e.get f = d.get f := by rw [he]; rfl
  refine ⟨Dev.get_set_same _ _ _, fun p hp => ?_, ?_, fun f hf => ?_⟩
  · obtain ⟨hfits, -, hne⟩ := htag p hp
    rw [Dev.get_set_ne _ hne, get_setAll_of_mem rfl hd (hl.mem_iff.2 hp), hfits]
  · rw [setAll_regs, he]
    rfl
  · have hdata : f.key ≠ Reg.REC_DIAG_DATA_DATA.key := fun h => hf (h ▸ by decide)
    rw [Dev.get_set_ne _ hdata, get_setAll_ne fun p hp h => hf (h ▸ (htag p (hl.mem_iff.1 hp)).2.1), hget]

/-! ### A read where no stored word is in error -/

theorem memRead_nil (d : Dev) (idx count : Nat) : memRead [] d idx count = { kind := .clean, flips := 0, ecc := [], dev := d } := by
  have hclean : wordRead 0 = .clean := by decide
  simp only [memRead, getT, hclean, Nat.zero_mod]

theorem diagRead_word {d : Dev} {v : Nat} {a : Option Nat} {op : Bool} (hword : d.diagWords[d.get Reg.REC_DIAG_SEL_WORD]? = some (v, a, op)) :
    diagRead [] d = (v, [], d.setAll (diagTag false op false)) := by
  rw [diagRead, hword]
  cases a with
  | none => rfl
  | some a => simp only [memRead_nil, Nat.xor_zero]; rfl

theorem diagRead_none {ecc : List (Nat × Nat)} {d : Dev} (hword : d.diagWords[d.get Reg.REC_DIAG_SEL_WORD]? = none) :
    diagRead ecc d = (0, ecc, d.setAll (diagTag true false false)) := by
  rw [diagRead, hword]
  rfl

/-- The tag in the order in which a hub sets it. -/
def poolTag (notValid sent : Bool) : List (Fld × Nat) :=
  [(Reg.REC_DIAG_TAG_NOT_VALID, b2n notValid), (Reg.REC_DIAG_TAG_SENT, b2n sent), (Reg.REC_DIAG_TAG_CORRECTED, 0),
    (Reg.REC_DIAG_TAG_UNCORRECTABLE, 0), (Reg.REC_DIAG_TAG_OPEN, 0)]

theorem poolTag_perm : ∀ notValid sent : Bool, (poolTag notValid sent).Perm (diagTag notValid false sent) := by decide

theorem poolDiagRead_word {d : Dev} {v : Nat} {sent : Bool} {what : Victim}
    (hword : ((d.ring (d.get Reg.REC_DIAG_SEL_QUEUE)).diagWords (d.get Reg.REC_DIAG_SEL_QUEUE))[d.get Reg.REC_DIAG_SEL_WORD]? = some (v, sent, what)) :
    poolDiagRead [] d = (v, [], d.draw.2.setAll (poolTag false sent)) := by
  rw [poolDiagRead]
  dsimp only
  rw [hword]
  simp only [memRead_nil, Nat.xor_zero]
  rfl

theorem poolDiagRead_none {ecc : List (Nat × Nat)} {d : Dev}
    (hword : ((d.ring (d.get Reg.REC_DIAG_SEL_QUEUE)).diagWords (d.get Reg.REC_DIAG_SEL_QUEUE))[d.get Reg.REC_DIAG_SEL_WORD]? = none) :
    poolDiagRead ecc d = (0, ecc, d.setAll (poolTag true false)) := by
  rw [poolDiagRead]
  dsimp only
  rw [hword]
  rfl

/-! ### REC_DIAG_READ -/

/-- A read that answers `v` and sets the fields of a tag. -/
theorem recDiagRead_latches {s : State} {v : Nat} {notValid op sent : Bool} {l : List (Fld × Nat)} {e : Dev} (hup : s.dev.up = true)
    (hl : l.Perm (diagTag notValid op sent)) (he : e = { s.dev with free := e.free })
    (hread : (if s.dev.role == .hub then poolDiagRead s.ecc s.dev else diagRead s.ecc s.dev) = (v, s.ecc, e.setAll l)) :
    ∃ t, exec .recDiagRead s = .next { s with dev := t } ∧ DiagLatched v notValid op sent s.dev t ∧ t.free = e.free := by
  refine ⟨_, ?_, diagLatched_of_setAll hl he, by rw [Dev.set_free, setAll_regs]⟩
  show onEcc (fun ecc d => if d.up then (recDiagRead ecc d).2 else (ecc, d)) s = _
  rw [onEcc, if_pos hup, recDiagRead, hread]

theorem DiagLatched.onlyRegs {v : Nat} {notValid op sent : Bool} {d t : Dev} (h : DiagLatched v notValid op sent d t) (hfree : t.free = d.free) :
    t = { d with regs := t.regs } := by
  have hwork := h.work
  rwa [hfree] at hwork

theorem flag_of_get_b2n {d : Dev} {f : Fld} {b : Bool} (h : d.get f = b2n b) : d.flag f = b := by
  rw [Dev.flag, h]
  cases b <;> rfl

theorem diagnostic_record {v : Nat} {a : Option Nat} {op : Bool} {s : State} (hup : s.dev.up = true) (hrole : s.dev.role ≠ .hub) (hecc : s.ecc = [])
    (hword : s.dev.diagWords[s.dev.get Reg.REC_DIAG_SEL_WORD]? = some (v, a, op)) :
    Answers .recDiagRead s fun t =>
      t.dev.get Reg.REC_DIAG_DATA_DATA = v % 2 ^ 32 ∧ t.dev.get Reg.REC_DIAG_TAG_NOT_VALID = 0 ∧ t.dev.flag Reg.REC_DIAG_TAG_OPEN = op
      ∧ t.dev.get Reg.REC_DIAG_TAG_CORRECTED = 0 ∧ t.dev.get Reg.REC_DIAG_TAG_UNCORRECTABLE = 0 ∧ t.dev.get Reg.REC_DIAG_TAG_SENT = 0
      ∧ t = { s with dev := { s.dev with regs := t.dev.regs } } ∧ RegsKeepAll diagKeys s.dev t.dev := by
  obtain ⟨t, hexec, hlatch, hfree⟩ := recDiagRead_latches (e := s.dev) hup (List.Perm.refl (diagTag false op false)) rfl
    (by rw [if_neg (by simpa using hrole), hecc, diagRead_word hword])
  obtain ⟨hnv, hop, hco, hun, hsent⟩ : _ ∧ _ ∧ _ ∧ _ ∧ _ := by simpa [diagTag] using hlatch.tag
  exact ⟨_, hexec, hlatch.data, hnv, flag_of_get_b2n hop, hco, hun, hsent,
    congrArg (fun d : Dev => { s with dev := d }) (hlatch.onlyRegs hfree), hlatch.regs⟩

theorem diagnostic_pool {v : Nat} {sent : Bool} {what : Victim} {s : State} (hup : s.dev.up = true) (hrole : s.dev.role = .hub) (hecc : s.ecc = [])
    (hword : ((s.dev.ring (s.dev.get Reg.REC_DIAG_SEL_QUEUE)).diagWords (s.dev.get Reg.REC_DIAG_SEL_QUEUE))[s.dev.get Reg.REC_DIAG_SEL_WORD]?
      = some (v, sent, what)) :
    Answers .recDiagRead s fun t =>
      t.dev.get Reg.REC_DIAG_DATA_DATA = v % 2 ^ 32 ∧ t.dev.get Reg.REC_DIAG_TAG_NOT_VALID = 0 ∧ t.dev.flag Reg.REC_DIAG_TAG_SENT = sent
      ∧ t.dev.get Reg.REC_DIAG_TAG_CORRECTED = 0 ∧ t.dev.get Reg.REC_DIAG_TAG_UNCORRECTABLE = 0 ∧ t.dev.get Reg.REC_DIAG_TAG_OPEN = 0
      ∧ t = { s with dev := { s.dev with regs := t.dev.regs, free := t.dev.free } } ∧ RegsKeepAll diagKeys s.dev t.dev := by
  obtain ⟨t, hexec, hlatch, -⟩ := recDiagRead_latches (e := s.dev.draw.2) hup (poolTag_perm false sent) rfl
    (by rw [if_pos (by simpa using hrole), hecc, poolDiagRead_word hword])
  obtain ⟨hnv, hop, hco, hun, hsent⟩ : _ ∧ _ ∧ _ ∧ _ ∧ _ := by simpa [diagTag] using hlatch.tag
  exact ⟨_, hexec, hlatch.data, hnv, flag_of_get_b2n hsent, hco, hun, hop, congrArg (fun d : Dev => { s with dev := d }) hlatch.work, hlatch.regs⟩

theorem diagnostic_pastEnd {s : State} (hup : s.dev.up = true)
    (hrecord : s.dev.role ≠ .hub → s.dev.diagWords[s.dev.get Reg.REC_DIAG_SEL_WORD]? = none)
    (hpool : s.dev.role = .hub → ((s.dev.ring (s.dev.get Reg.REC_DIAG_SEL_QUEUE)).diagWords (s.dev.get Reg.REC_DIAG_SEL_QUEUE))[s.dev.get Reg.REC_DIAG_SEL_WORD]?
      = none) :
    Answers .recDiagRead s fun t =>
      t.dev.get Reg.REC_DIAG_DATA_DATA = 0 ∧ t.dev.get Reg.REC_DIAG_TAG_NOT_VALID = 1 ∧ t = { s with dev := { s.dev with regs := t.dev.regs } } := by
  obtain ⟨t, hexec, hlatch, hfree⟩ : ∃ t, exec .recDiagRead s = .next { s with dev := t } ∧ DiagLatched 0 true false false s.dev t ∧ t.free = s.dev.free := by
    by_cases hrole : s.dev.role = .hub
    · exact recDiagRead_latches (e := s.dev) hup (poolTag_perm true false) rfl (by rw [if_pos (by simpa using hrole), poolDiagRead_none (hpool hrole)])
    · exact recDiagRead_latches (e := s.dev) hup (List.Perm.refl _) rfl (by rw [if_neg (by simpa using hrole), diagRead_none (hrecord hrole)])
  exact ⟨_, hexec, hlatch.data, hlatch.tag (Reg.REC_DIAG_TAG_NOT_VALID, b2n true) (.head _),
    congrArg (fun d : Dev => { s with dev := d }) (hlatch.onlyRegs hfree)⟩

/-- Settles O40: the read latches the word that REC_DIAG_SEL names with its tag, or 0 with NOT_VALID, and takes nothing out. -/
theorem diagnosticReadsShowTheQueue : Obligations.DiagnosticReadsShowTheQueue :=
  ⟨fun _ _ _ _ => diagnostic_record, fun _ _ _ _ => diagnostic_pool, fun _ => diagnostic_pastEnd⟩

end Sys2Proof.Machine
end

section
/-! PROOF. What a loss leaves as it is: open records, SEQ counts but that of loss records, and the records of the FIFO of which a copy has begun. -/
namespace Sys2Proof.Machine
open Sys2Proof.Safety

/-- A loss step that keeps the open records, moves no SEQ count but that of loss records, adds to the FIFO only records of new names, and keeps
every record of which a copy has begun. -/
structure LossKept (d t : Dev) : Prop extends LossStep d t where
  asm : t.rcd.asm = d.rcd.asm
  ready : t.rcd.ready = d.rcd.ready
  seqs : ∀ m, m ≠ 201 → getT 0 m t.rcd.seqs = getT 0 m d.rcd.seqs
  nextId : d.rcd.nextId ≤ t.rcd.nextId
  came : ∀ r ∈ t.rcd.fifo, d.rcd.nextId ≤ r.id ∨ ∃ q ∈ d.rcd.fifo, q.id = r.id
  begun : ∀ q ∈ d.rcd.fifo, q.begun ≠ [] → ∃ r ∈ t.rcd.fifo, r.id = q.id ∧ r.begun = q.begun

theorem LossKept.trans {a b c : Dev} (h : LossKept a b) (k : LossKept b c) : LossKept a c where
  toLossStep := h.toLossStep.trans k.toLossStep
  asm := k.asm.trans h.asm
  ready := k.ready.trans h.ready
  seqs m hm := (k.seqs m hm).trans (h.seqs m hm)
  nextId := h.nextId.trans k.nextId
  came r hr := by
    rcases k.came r hr with hnew | ⟨q, hq, hid⟩
    · exact .inl (h.nextId.trans hnew)
    · exact hid ▸ h.came q hq
  begun q hq hne := by
    obtain ⟨r, hr, hid, hbegun⟩ := h.begun q hq hne
    obtain ⟨x, hx, hid', hbegun'⟩ := k.begun r hr (hbegun ▸ hne)
    exact ⟨x, hx, hid'.trans hid, hbegun'.trans hbegun⟩

/-- A loss step that leaves the records alone. -/
theorem LossKept.of_rcd {d t : Dev} (h : LossStep d t) (hasm : t.rcd.asm = d.rcd.asm) (hready : t.rcd.ready = d.rcd.ready)
    (hseqs : ∀ m, m ≠ 201 → getT 0 m t.rcd.seqs = getT 0 m d.rcd.seqs) (hnext : t.rcd.nextId = d.rcd.nextId) (hfifo : t.rcd.fifo = d.rcd.fifo) :
    LossKept d t :=
  ⟨h, hasm, hready, hseqs, hnext.ge, fun r hr => .inr ⟨r, hfifo ▸ hr, rfl⟩, fun q hq _ => ⟨q, hfifo ▸ hq, rfl, rfl⟩⟩

theorem LossKept.refl (d : Dev) : LossKept d d := .of_rcd (.refl d) rfl rfl (fun _ _ => rfl) rfl rfl

theorem LossKept.set {d : Dev} {f : Fld} {v : Nat} (hf : f.key ∈ lossKeys) : LossKept d (d.set f v) :=
  .of_rcd (.set hf) rfl rfl (fun _ _ => rfl) rfl rfl

theorem LossKept.updFrame (d : Dev) (fn : Nat) (g : FStat → FStat) : LossKept d (d.updFrame fn g) :=
  .of_rcd (.updFrame d fn g) rfl rfl (fun _ _ => rfl) rfl rfl

/-- Records of the FIFO changed in what neither names them nor says where they have begun. -/
theorem setFifo_map_kept (d : Dev) {g : FRec → FRec} (hg : ∀ q, (g q).id = q.id ∧ (g q).begun = q.begun) :
    LossKept d (d.setFifo (d.rcd.fifo.map g)) where
  toLossStep := setFifo_step d _
  asm := rfl
  ready := rfl
  seqs _ _ := rfl
  nextId := Nat.le_refl _
  came r hr := by
    obtain ⟨q, hq, rfl⟩ := List.mem_map.1 hr
    exact .inr ⟨q, hq, (hg q).1.symm⟩
  begun q hq _ := ⟨g q, List.mem_map_of_mem hq, hg q⟩

/-- Records taken out of the FIFO, none of them begun. -/
theorem setFifo_filter_kept (d : Dev) {p : FRec → Bool} (hp : ∀ q, q.begun ≠ [] → p q = true) : LossKept d (d.setFifo (d.rcd.fifo.filter p)) where
  toLossStep := setFifo_step d _
  asm := rfl
  ready := rfl
  seqs _ _ := rfl
  nextId := Nat.le_refl _
  came r hr := .inr ⟨r, (List.mem_filter.1 hr).1, rfl⟩
  begun q hq hne := ⟨q, List.mem_filter.2 ⟨hq, hp q hne⟩, rfl, rfl⟩

theorem fifoPush_kept (d : Dev) (ws : List Nat) (fn : Nat) (loss : Option Loss) (own : Bool) : LossKept d (d.fifoPush ws fn loss own) where
  toLossStep := fifoPush_step d _ _ _ _
  asm := rfl
  ready := rfl
  seqs _ _ := rfl
  nextId := Nat.le_succ _
  came r hr := by
    rcases List.mem_append.1 hr with hold | hnew
    · exact .inr ⟨r, hold, rfl⟩
    · exact .inl (by rw [List.mem_singleton.1 hnew])
  begun q hq _ := ⟨q, List.mem_append_left _ hq, rfl, rfl⟩

theorem dropSummary_kept (d : Dev) (fn : Nat) : LossKept d (d.dropSummary fn) :=
  .of_rcd (dropSummary_step d fn) rfl rfl (fun _ _ => rfl) rfl rfl

theorem withhold_kept (d : Dev) (fn : Nat) : LossKept d (d.withhold fn) := by
  unfold Dev.withhold
  split
  · exact .refl d
  · split
    · exact .refl d
    · split
      · exact dropSummary_kept d fn
      · split
        · refine (setFifo_filter_kept d fun q hq => ?_).trans (dropSummary_kept _ fn)
          simp [hq]
        · exact .refl d

/-- An unsent loss record rewritten keeps its name and where it has begun. -/
theorem rewriteLoss_keeps (r : FRec) (f : Loss → Loss) (q : FRec) :
    (if q.id = r.id then (match q.loss with | some x => q.withLoss (f x) | none => q) else q).id = q.id
    ∧ (if q.id = r.id then (match q.loss with | some x => q.withLoss (f x) | none => q) else q).begun = q.begun := by
  split
  · split <;> exact ⟨rfl, rfl⟩
  · exact ⟨rfl, rfl⟩

theorem lose_kept (d : Dev) (l : Loss) : LossKept d (d.lose l) := by
  unfold Dev.lose
  split
  · exact .refl d
  · split
    next r _ => exact setFifo_map_kept d (rewriteLoss_keeps r fun x => x.join l)
    next =>
      split
      · have hseq : LossKept d (d.nextSeq 201).2 := .of_rcd (.withRcd d _) rfl rfl (fun m hm => getT_putT_ne 0 hm _ _) rfl rfl
        exact ((hseq.trans (fifoPush_kept _ _ _ _ _)).trans (.set (by simp [lossKeys]))).trans (.updFrame _ _ _)
      · split
        next r _ => exact setFifo_map_kept d (rewriteLoss_keeps r _)
        next => exact withhold_kept d _

theorem loseOwn_kept (d : Dev) (chan fn reason seq : Nat) (stream : Bool) : LossKept d (d.loseOwn chan fn reason seq stream) := by
  unfold Dev.loseOwn
  dsimp only
  generalize (d.lostReason chan fn seq stream).getD reason = why
  have hlose := lose_kept d (d.ownLoss chan fn why seq 1 stream)
  exact iteInduction (motive := LossKept d) (fun _ => hlose.trans (.of_rcd (.withRcd _ _) rfl rfl (fun _ _ => rfl) rfl rfl)) fun _ => hlose

theorem loseFRec_kept (d : Dev) (r : FRec) (reason : Nat) : LossKept d (d.loseFRec r reason) := by
  unfold Dev.loseFRec
  split
  · exact loseOwn_kept d _ _ _ _ _
  · exact lose_kept d _

end Sys2Proof.Machine
end

section
/-! PROOF. A capture becomes a record: what a memory error or an earlier loss costs it, and how a sound one goes to the FIFO's door or to an engine;
O36 from it. -/
namespace Sys2Proof.Machine
open Sys2Proof.Safety

/-! ### What logging and losing leave (R220, R420) -/

/-- Only events, the fault log, loss records and the account of the frame take note: open records and SEQ counts but that of loss records stay. -/
structure LostStep (d t : Dev) : Prop where
  work : t = { talked d t with rcd := t.rcd, flt := t.flt, acq := { d.acq with fstats := t.acq.fstats } }
  regs : RegsKeep (lossKeys ++ logKeys) d t
  asm : t.rcd.asm = d.rcd.asm
  ready : t.rcd.ready = d.rcd.ready
  seqs : ∀ m, m ≠ 201 → getT 0 m t.rcd.seqs = getT 0 m d.rcd.seqs

theorem LostStep.trans {a b c : Dev} (h : LostStep a b) (k : LostStep b c) : LostStep a c :=
  ⟨by rw [k.work, h.work]; rfl, regsKeep_trans h.regs k.regs, k.asm.trans h.asm, k.ready.trans h.ready,
    fun m hm => (k.seqs m hm).trans (h.seqs m hm)⟩

theorem LostStep.of_loss {d t : Dev} (h : LossKept d t) : LostStep d t :=
  ⟨by rw [h.work]; rfl, regsKeep_mono (regsKeep_of_regsKeepAll h.regs) fun _ => List.mem_append_left _, h.asm, h.ready, h.seqs⟩

theorem LostStep.of_log {d t : Dev} (h : LogStep d t) : LostStep d t := by
  have hrcd : t.rcd = d.rcd := by rw [h.work]; rfl
  exact ⟨by rw [h.work]; rfl, regsKeep_mono h.regs fun _ => List.mem_append_right _, by rw [hrcd], by rw [hrcd], fun _ _ => by rw [hrcd]⟩

theorem LostStep.refl (d : Dev) : LostStep d d := .of_log (.refl d)

theorem LostStep.foldl {α : Type} {f : Dev → α → Dev} (h : ∀ d a, LostStep d (f d a)) (l : List α) (d : Dev) : LostStep d (l.foldl f d) := by
  induction l generalizing d with
  | nil => exact .refl d
  | cons a l ih => exact (h d a).trans (ih _)

/-- One more record of a unit under assay changes at most the entry of the log (R423). -/
theorem logCount_flt (d : Dev) (unit loc : Nat) : d.logCount unit loc = { d with flt := (d.logCount unit loc).flt } := by
  unfold Dev.logCount
  split
  · rfl
  · dsimp only
    split <;> rfl

/-! ### The record of one capture (R210, R409) -/

def Chan.capSamples (c : Chan) (k : Cap) : List Sample := c.slice k.start (k.last - k.start + 1).toNat

/-- Whether a sample of the capture, or one its trigger was timed by, is poisoned. -/
def Chan.capSpoilt (c : Chan) (k : Cap) : Bool := (c.capSamples k ++ c.slice (k.x - 2) 4).any (·.pois)

def Cap.taken (spoilt : Bool) (k : Cap) : Cap := { k with stage := 2, off := k.off || spoilt }

def Chan.takeCap (k : Cap) (c : Chan) : Chan := { c with caps := updFirst (fun y => y.x == k.x) (Cap.taken (c.capSpoilt k)) c.caps }

/-- The capture has been taken, and a poisoned one counted with the error behind it. -/
def Dev.capTaken (d : Dev) (n : Nat) (k : Cap) : Dev :=
  if (d.chan n).capSpoilt k && !k.off then (d.updChan n (Chan.takeCap k)).logCount 5 n else d.updChan n (Chan.takeCap k)

/-- The record a sound capture makes. -/
def Dev.hitRecord (d : Dev) (c : Chan) (n : Nat) (k : Cap) (seq : Nat) : Asm :=
  { typ := 1, chan := n, slot := 0, fn := k.fn, seq := seq, head := wordsOf (hitHead c k (c.capSamples k)), smp := (c.capSamples k).map (·.v),
    width := 16, first := k.start, asmFn := d.fn, cfgFn := d.closeFn k, engine := none, ref := d.findRef n k, enc := 0, out := [] }

/-- The capture of a recorded frame, its SEQ drawn: the triggers refused because of it and a mismatch of the copies take note, and the record is
written off, lost with an earlier one, or submitted. -/
def Dev.recordCap (d : Dev) (c : Chan) (n : Nat) (k : Cap) (differ : Bool) (seq : Nat) : Dev :=
  let d := if c.capSpoilt k && !k.off then k.refs.foldl (fun d f => d.lose (d.refusedLoss n f)) d else d
  let d := if differ then d.logError 6 8 2 false 0 0 0 1 else d
  if c.capSpoilt k || differ || k.off then d.loseOwn n k.fn 8 seq false
  else match d.lostReason n k.fn seq false with
    | some r => d.loseOwn n k.fn r seq false
    | none => d.submit (d.hitRecord c n k seq)

theorem capTaken_keeps (d : Dev) (n : Nat) (k : Cap) :
    (d.capTaken n k).chan n = (d.chan n).takeCap k ∧ (∀ m, m ≠ n → (d.capTaken n k).chan m = d.chan m)
    ∧ d.capTaken n k = { d with flt := (d.capTaken n k).flt, acq := { d.acq with chans := (d.capTaken n k).acq.chans } } := by
  unfold Dev.capTaken
  split
  · rw [logCount_flt]
    exact ⟨chan_updChan_same d n _, fun m hm => chan_updChan_ne d hm _, rfl⟩
  · exact ⟨chan_updChan_same d n _, fun m hm => chan_updChan_ne d hm _, rfl⟩

/-- RECORD_ASSEMBLED where the oldest capture not assembled is closed and no lower channel of its quad holds one of its window. -/
theorem assembleHit_eq {d : Dev} {n : Nat} {differ : Bool} {k : Cap} (hup : d.up = true) (hrole : d.role = .frontEnd)
    (hk : (d.chan n).caps.find? (fun c => c.stage != 2) = some k) (hstage : k.stage = 1)
    (hpeers : ∀ m ∈ d.lowerPeers n (d.closeFn k), ((d.chan m).twin k).all (fun y => y.stage == 2) = true) :
    d.assembleHit n differ = if d.recording k.fn then
        ((d.capTaken n k).nextSeq n).2.recordCap (d.chan n) n k differ (getT 0 n d.rcd.seqs % 65536)
      else d.capTaken n k := by
  obtain ⟨-, -, htaken⟩ := capTaken_keeps d n k
  have hrcd : (d.capTaken n k).rcd = d.rcd := by rw [htaken]
  have hrec : (d.capTaken n k).recording k.fn = d.recording k.fn := by unfold Dev.recording; rw [hrcd]
  rw [← hrec, ← hrcd, Dev.assembleHit]
  dsimp only
  rw [hk]
  dsimp only
  rw [if_neg (by simp [hup, hrole, hstage]), if_neg]
  · cases hwrite : (d.capTaken n k).recording k.fn with
    | false => exact if_pos (by rw [Bool.not_eq_true']; exact hwrite)
    | true => exact if_neg (by rw [Bool.not_eq_true']; exact ne_of_eq_of_ne hwrite Bool.noConfusion)
  · rw [List.any_eq_true]
    rintro ⟨m, hm, hother⟩
    have hpeer := hpeers m hm
    revert hpeer hother
    cases (d.chan m).twin k with
    | none => exact fun h => absurd h Bool.noConfusion
    | some x => simp +contextual

/-- A capture written off, or whose copies differ, loses its record; nothing is submitted (R409, R410). -/
theorem recordCap_writtenOff {c : Chan} {k : Cap} {differ : Bool} (h : (c.capSpoilt k || differ || k.off) = true) (d : Dev) (n seq : Nat) :
    LostStep d (d.recordCap c n k differ seq) := by
  unfold Dev.recordCap
  dsimp only
  rw [if_pos h]
  refine .trans ?_ (.of_loss (loseOwn_kept _ _ _ _ _ _))
  have hrefused : LostStep d (if c.capSpoilt k && !k.off then k.refs.foldl (fun d f => d.lose (d.refusedLoss n f)) d else d) :=
    iteInduction (motive := LostStep d) (fun _ => .foldl (fun e f => .of_loss (lose_kept e _)) _ _) fun _ => .refl d
  split
  · exact hrefused.trans (.of_log (logError_step _ _ _ _ _ _ _ _ _))
  · exact hrefused

theorem recordCap_sound {c : Chan} {k : Cap} {differ : Bool} (h : (c.capSpoilt k || differ || k.off) = false) (d : Dev) (n seq : Nat) :
    d.recordCap c n k differ seq = match d.lostReason n k.fn seq false with
      | some r => d.loseOwn n k.fn r seq false
      | none => d.submit (d.hitRecord c n k seq) := by
  obtain ⟨⟨hspoilt, hdiffer⟩, hoff⟩ : (c.capSpoilt k = false ∧ differ = false) ∧ k.off = false := by simpa using h
  unfold Dev.recordCap
  simp only [hspoilt, hdiffer, hoff]
  rfl

/-! ### A record goes on (R245, R262) -/

/-- What a record on its way to an engine or to the FIFO's door changes. -/
structure SubmitStep (d t : Dev) : Prop where
  work : t = { d with regs := t.regs, rcd := { d.rcd with asm := t.rcd.asm, ready := t.rcd.ready } }
  regs : RegsKeepAll (lossKeys ++ [Reg.CMP_WORDS_IN_WORDS_IN.key]) d t

theorem setOpen_step (d : Dev) (asm ready : List Asm) : SubmitStep d (d.setOpen asm ready) :=
  ⟨rfl, regsKeepAll_mono (fifoLevel_step _).regs fun _ => List.mem_append_left _⟩

theorem submit_raw {d : Dev} {a : Asm} (h : d.cmpOn a = false) : d.submit a = d.setOpen d.rcd.asm (d.rcd.ready ++ [a.raw]) := by
  simp [Dev.submit, h]

/-- A record that goes to compression, before a free engine takes one. -/
def Dev.queued (d : Dev) (a : Asm) : Dev :=
  { d.addWrap Reg.CMP_WORDS_IN_WORDS_IN (rawLen a.width a.smp.length) with rcd := { d.rcd with asm := d.rcd.asm ++ [a] } }

theorem submit_compressed {d : Dev} {a : Asm} (h : d.cmpOn a = true) (hsmp : a.smp ≠ []) : d.submit a = (d.queued a).enterEngines := by
  simp [Dev.submit, h, hsmp, Dev.queued]

theorem submit_step (d : Dev) (a : Asm) : SubmitStep d (d.submit a) := by
  by_cases h : d.cmpOn a = true ∧ a.smp ≠ []
  · rw [submit_compressed h.1 h.2]
    exact ⟨rfl, regsKeepAll_trans (b := d.queued a) (regsKeepAll_set_of_mem (f := Reg.CMP_WORDS_IN_WORDS_IN) (by simp)) (setOpen_step _ _ _).regs⟩
  · have hraw : d.submit a = d.setOpen d.rcd.asm (d.rcd.ready ++ [a.raw]) := by
      unfold Dev.submit
      exact if_neg (by simpa using h)
    rw [hraw]
    exact setOpen_step d _ _

/-- A change of one element that `g` does not see. -/
theorem map_modify_of_keeps {α β : Type} {f : α → α} {g : α → β} (h : ∀ a, g (f a) = g a) (l : List α) (i : Nat) : (l.modify i f).map g = l.map g := by
  refine List.ext_getElem? fun j => ?_
  rw [List.getElem?_map, List.getElem?_map, List.getElem?_modify, Option.map_eq_map, Option.map_map]
  refine congrArg (fun f => Option.map f l[j]?) (funext fun a => ?_)
  by_cases hij : i = j <;> simp [hij, h]

/-- Records that enter engines change in nothing else. -/
theorem map_enterList {β : Type} {g : Asm → β} (hg : ∀ a e, g { a with engine := e } = g a) (fn : Nat) (es : List Nat) (l : List Asm) :
    (enterList fn l es).map g = l.map g := by
  induction es generalizing l with
  | nil => rfl
  | cons e es ih =>
    rw [enterList]
    split
    next => rw [ih, map_modify_of_keeps fun a => hg a _]
    next => rfl

theorem map_asm_enterEngines {β : Type} {g : Asm → β} (hg : ∀ a e, g { a with engine := e } = g a) (d : Dev) :
    d.enterEngines.rcd.asm.map g = d.rcd.asm.map g := map_enterList hg _ _ _

/-- With its last element changed only in what `g` does not see, a list that has grown by `a` shows `g a` last. -/
theorem getLast?_map_of_map_eq {α β : Type} {g : α → β} {l m : List α} {a : α} (h : l.map g = (m ++ [a]).map g) : l.getLast?.map g = some (g a) := by
  rw [← List.getLast?_map, h, List.getLast?_map, List.getLast?_concat, Option.map_some]

theorem get_wordsIn_submit {d : Dev} {a : Asm} (h : d.cmpOn a = true) (hsmp : a.smp ≠ []) :
    (d.submit a).get Reg.CMP_WORDS_IN_WORDS_IN = (d.get Reg.CMP_WORDS_IN_WORDS_IN + rawLen a.width a.smp.length) % 2 ^ 32 := by
  rw [submit_compressed h hsmp]
  exact ((fifoLevel_step _).regs _ (by decide)).trans (Dev.get_set_same _ _ _)

/-! ### RECORD_ASSEMBLED as a whole -/

/-- What the record of a capture may change, whether written off, lost or submitted. -/
structure RecordedStep (d t : Dev) : Prop where
  work : t = { talked d t with rcd := t.rcd, flt := t.flt, acq := { d.acq with fstats := t.acq.fstats } }
  regs : RegsKeep (lossKeys ++ logKeys ++ [Reg.CMP_WORDS_IN_WORDS_IN.key]) d t
  seqs : ∀ m, m ≠ 201 → getT 0 m t.rcd.seqs = getT 0 m d.rcd.seqs

theorem LostStep.recorded {d t : Dev} (h : LostStep d t) : RecordedStep d t :=
  ⟨h.work, regsKeep_mono h.regs fun _ => List.mem_append_left _, h.seqs⟩

theorem SubmitStep.recorded {d t : Dev} (h : SubmitStep d t) : RecordedStep d t :=
  ⟨by rw [h.work]; rfl,
    regsKeep_mono (regsKeep_of_regsKeepAll h.regs) fun k hk => by
      simp only [List.mem_append] at hk ⊢
      exact hk.imp_left .inl,
    fun _ _ => by rw [h.work]⟩

theorem recordCap_step (d : Dev) (c : Chan) (n : Nat) (k : Cap) (differ : Bool) (seq : Nat) : RecordedStep d (d.recordCap c n k differ seq) := by
  cases hbad : c.capSpoilt k || differ || k.off with
  | true => exact (recordCap_writtenOff hbad d n seq).recorded
  | false =>
    rw [recordCap_sound hbad]
    split
    · exact (LostStep.of_loss (loseOwn_kept d _ _ _ _ _)).recorded
    · exact (submit_step d _).recorded

/-- A sound capture of a channel of which nothing is lost in the frame is submitted. -/
theorem recordCap_submits {c : Chan} {k : Cap} {differ : Bool} {d : Dev} {n seq : Nat} (hbad : (c.capSpoilt k || differ || k.off) = false)
    (hlost : d.lostReason n k.fn seq false = none) : d.recordCap c n k differ seq = d.submit (d.hitRecord c n k seq) := by
  rw [recordCap_sound hbad, hlost]

/-- The capture has been taken and its SEQ drawn. -/
def Dev.capDrawn (d : Dev) (n : Nat) (k : Cap) : Dev := ((d.capTaken n k).nextSeq n).2

theorem capDrawn_work (d : Dev) (n : Nat) (k : Cap) :
    d.capDrawn n k = { d with
      flt := (d.capTaken n k).flt, acq := { d.acq with chans := (d.capTaken n k).acq.chans },
      rcd := { d.rcd with seqs := putT n ((getT 0 n d.rcd.seqs + 1) % 2 ^ 32) d.rcd.seqs } } := by
  obtain ⟨-, -, htaken⟩ := capTaken_keeps d n k
  unfold Dev.capDrawn
  rw [htaken]
  rfl

/-- The settings and losses that a record looks up are those of the state before. -/
theorem capDrawn_looksUp (d : Dev) (n : Nat) (k : Cap) :
    (∀ chan fn seq stream, (d.capDrawn n k).lostReason chan fn seq stream = d.lostReason chan fn seq stream)
    ∧ (d.capDrawn n k).closeFn k = d.closeFn k ∧ (∀ fn f, (d.capDrawn n k).cmpVal fn f = d.cmpVal fn f)
    ∧ (∀ f, (d.capDrawn n k).get f = d.get f) ∧ (d.capDrawn n k).fn = d.fn := by
  rw [capDrawn_work]
  exact ⟨fun _ _ _ _ => rfl, rfl, fun _ _ => rfl, fun _ => rfl, rfl⟩

/-- The captures of a channel once its oldest is taken. -/
theorem find?_takeCap {c : Chan} {k : Cap} (hk : c.caps.find? (fun y => y.stage != 2) = some k) :
    (((c.takeCap k).caps.find? fun y => y.x == k.x).map (·.stage)) = some 2 := by
  obtain ⟨y, hy⟩ := find?_updFirst_capX (f := Cap.taken (c.capSpoilt k)) (List.mem_of_find?_eq_some hk) fun _ => .inl rfl
  exact (congrArg (Option.map (·.stage)) hy).trans rfl

/-- What RECORD_ASSEMBLED changes besides the record: the oldest capture of the channel has been taken. -/
structure AssembledStep (n : Nat) (k : Cap) (d t : Dev) : Prop where
  caps : (t.chan n).caps = ((d.chan n).takeCap k).caps
  chan : t.chan n = { d.chan n with caps := (t.chan n).caps }
  others : ∀ m, m ≠ n → t.chan m = d.chan m
  seqs : ∀ m, m ≠ n → m ≠ 201 → getT 0 m t.rcd.seqs = getT 0 m d.rcd.seqs
  work : t = { talked d t with rcd := t.rcd, flt := t.flt, acq := { d.acq with chans := t.acq.chans, fstats := t.acq.fstats } }
  regs : RegsKeep (lossKeys ++ logKeys ++ [Reg.CMP_WORDS_IN_WORDS_IN.key]) d t

theorem capTaken_assembled (d : Dev) (n : Nat) (k : Cap) : AssembledStep n k d (d.capTaken n k) := by
  obtain ⟨hchan, hothers, hwork⟩ := capTaken_keeps d n k
  refine ⟨by rw [hchan], by rw [hchan]; rfl, hothers, fun _ _ _ => by rw [hwork], by rw [hwork]; rfl, fun _ _ _ => by rw [hwork]; rfl⟩

theorem RecordedStep.assembled {d t : Dev} {n : Nat} {k : Cap} (h : RecordedStep (d.capDrawn n k) t) : AssembledStep n k d t := by
  obtain ⟨hcaps, hchan, hothers, -, -, -⟩ := capTaken_assembled d n k
  obtain ⟨-, -, -, hget, -⟩ := capDrawn_looksUp d n k
  have hchans : t.acq.chans = (d.capTaken n k).acq.chans := by
    rw [h.work]; rfl
  have hsame (m : Nat) : t.chan m = (d.capTaken n k).chan m := congrArg (getT Chan.init m) hchans
  refine ⟨by rw [hsame, hcaps], by rw [hsame]; exact hchan, fun m hm => (hsame m).trans (hothers m hm), fun m hm hm' => ?_, ?_, fun f hf hf' => ?_⟩
  · rw [h.seqs m hm', capDrawn_work]
    exact getT_putT_ne 0 hm _ _
  · rw [hchans]
    conv_lhs => rw [h.work, capDrawn_work]
    rfl
  · exact (h.regs f hf hf').trans (hget f)

/-- A recorded capture draws the next SEQ of its channel; nothing of it goes on where it is written off or its copies differ. -/
theorem recordCap_draws (d : Dev) {n : Nat} (hn : n < 48) (c : Chan) (k : Cap) (differ : Bool) (seq : Nat) :
    getT 0 n ((d.capDrawn n k).recordCap c n k differ seq).rcd.seqs = (getT 0 n d.rcd.seqs + 1) % 2 ^ 32
    ∧ ((c.capSpoilt k || differ || k.off) = true → ((d.capDrawn n k).recordCap c n k differ seq).rcd.asm = d.rcd.asm
      ∧ ((d.capDrawn n k).recordCap c n k differ seq).rcd.ready = d.rcd.ready) := by
  refine ⟨?_, fun hbad => ?_⟩
  · rw [(recordCap_step _ c n k differ seq).seqs n (by omega), capDrawn_work]
    exact getT_putT_same 0 n _ _
  · have hlost := recordCap_writtenOff hbad (d.capDrawn n k) n seq
    rw [hlost.asm, hlost.ready, capDrawn_work]
    exact ⟨rfl, rfl⟩

/-- The record of a sound capture, compression being off for hit records: raw at the end of the ready list. -/
theorem hitRecord_raw {d : Dev} {c : Chan} {n seq : Nat} {k : Cap} {differ : Bool} (hbad : (c.capSpoilt k || differ || k.off) = false)
    (hlost : d.lostReason n k.fn seq false = none) (hoff : d.cmpVal (d.closeFn k) Reg.CMP_CTRL_HIT_EN = 0) :
    ((d.capDrawn n k).recordCap c n k differ seq).rcd.asm = d.rcd.asm ∧ ((d.capDrawn n k).recordCap c n k differ seq).rcd.fifo = d.rcd.fifo
    ∧ ((d.capDrawn n k).recordCap c n k differ seq).rcd.ready = d.rcd.ready ++ [((d.capDrawn n k).hitRecord c n k seq).raw] := by
  obtain ⟨hreason, hclose, hval, -, -⟩ := capDrawn_looksUp d n k
  have hraw : (d.capDrawn n k).cmpOn ((d.capDrawn n k).hitRecord c n k seq) = false := by
    show ((d.capDrawn n k).cmpVal ((d.capDrawn n k).closeFn k) Reg.CMP_CTRL_HIT_EN != 0) = false
    rw [hclose, hval, hoff]
    rfl
  rw [recordCap_submits hbad (by rw [hreason]; exact hlost), submit_raw hraw, capDrawn_work]
  exact ⟨rfl, rfl, rfl⟩

/-- The record of a sound capture, compression being on for hit records: the last of those on their way to an engine, its words counted. -/
theorem hitRecord_compressed {d : Dev} {c : Chan} {n seq : Nat} {k : Cap} {differ : Bool} (hbad : (c.capSpoilt k || differ || k.off) = false)
    (hlost : d.lostReason n k.fn seq false = none) (hon : d.cmpVal (d.closeFn k) Reg.CMP_CTRL_HIT_EN ≠ 0) (hsmp : c.capSamples k ≠ []) :
    ((d.capDrawn n k).recordCap c n k differ seq).rcd.ready = d.rcd.ready ∧ ((d.capDrawn n k).recordCap c n k differ seq).rcd.fifo = d.rcd.fifo
    ∧ (∀ {β : Type} (g : Asm → β), (∀ a e, g { a with engine := e } = g a) →
        ((d.capDrawn n k).recordCap c n k differ seq).rcd.asm.map g = (d.rcd.asm ++ [(d.capDrawn n k).hitRecord c n k seq]).map g)
    ∧ ((d.capDrawn n k).recordCap c n k differ seq).get Reg.CMP_WORDS_IN_WORDS_IN =
        (d.get Reg.CMP_WORDS_IN_WORDS_IN + rawLen 16 (c.capSamples k).length) % 2 ^ 32 := by
  obtain ⟨hreason, hclose, hval, hget, -⟩ := capDrawn_looksUp d n k
  have hcmp : (d.capDrawn n k).cmpOn ((d.capDrawn n k).hitRecord c n k seq) = true := by
    show ((d.capDrawn n k).cmpVal ((d.capDrawn n k).closeFn k) Reg.CMP_CTRL_HIT_EN != 0) = true
    rw [hclose, hval]
    exact bne_iff_ne.2 hon
  have hne : ((d.capDrawn n k).hitRecord c n k seq).smp ≠ [] := by simpa [Dev.hitRecord] using hsmp
  rw [recordCap_submits hbad (by rw [hreason]; exact hlost)]
  refine ⟨?_, ?_, fun g hg => ?_, ?_⟩
  · rw [submit_compressed hcmp hne, capDrawn_work]
    rfl
  · rw [submit_compressed hcmp hne, capDrawn_work]
    rfl
  · rw [submit_compressed hcmp hne, map_asm_enterEngines hg, capDrawn_work]
    rfl
  · rw [get_wordsIn_submit hcmp hne, hget]
    simp [Dev.hitRecord]

/-- RECORD_ASSEMBLED, the record itself. -/
theorem assembleHit_assembled {d : Dev} {n : Nat} {differ : Bool} {k : Cap} (hup : d.up = true) (hrole : d.role = .frontEnd)
    (hk : (d.chan n).caps.find? (fun c => c.stage != 2) = some k) (hstage : k.stage = 1)
    (hpeers : ∀ m ∈ d.lowerPeers n (d.closeFn k), ((d.chan m).twin k).all (fun y => y.stage == 2) = true) :
    AssembledStep n k d (d.assembleHit n differ) := by
  rw [assembleHit_eq hup hrole hk hstage hpeers]
  split
  · exact (recordCap_step _ _ _ _ _ _).assembled
  · exact capTaken_assembled d n k

/-! ### PIPELINE_MISMATCH (R410) -/

/-- A channel that has seen a mismatch of its pipeline in cycle `cyc`. -/
def Chan.mismatched (cyc : Nat) (c : Chan) : Chan := { c with pois := if c.pois.contains cyc then c.pois else cyc :: c.pois }

theorem mem_pois_mismatched (c : Chan) (cyc j : Nat) : j ∈ (c.mismatched cyc).pois ↔ j = cyc ∨ j ∈ c.pois := by
  unfold Chan.mismatched
  dsimp only
  split
  next h => exact (or_iff_right_of_imp fun e => e ▸ List.contains_iff_mem.1 h).symm
  next => exact List.mem_cons

theorem pipelineMismatch_spec {d : Dev} {n cyc : Nat} (hup : d.up = true) (hacq : (d.chan n).acquiring = true) (hcyc : cyc < 2 * d.tm.clk.cyc) :
    LogStep (d.updChan n (Chan.mismatched cyc)) (d.pipelineMismatch n cyc) := by
  unfold Dev.pipelineMismatch
  rw [if_pos (by simp [hup, hacq, hcyc])]
  exact logError_step _ _ _ _ _ _ _ _ _

/-- Settles O36: the oldest closed capture makes its record, or is lost, and a mismatch of the pipeline poisons its cycle. -/
theorem recordsAreAssembled : Obligations.RecordsAreAssembled := by
  refine ⟨fun n differ k s hn hup hrole hk hstage hpeers => ⟨_, onUnit_of_lt hn _ s, ⟨fun hrec => ?_, fun hrec => ?_⟩, ?_⟩,
    fun n cyc s hn hup hacq hcyc => ⟨_, onUnit_of_lt hn _ s, ?_⟩⟩
  · have hnone : s.dev.assembleHit n differ = s.dev.capTaken n k := by
      rw [assembleHit_eq hup hrole hk hstage hpeers, if_neg (ne_of_eq_of_ne hrec Bool.noConfusion)]
    obtain ⟨-, -, hwork⟩ := capTaken_keeps s.dev n k
    show (s.dev.assembleHit n differ).rcd = s.dev.rcd ∧ (s.dev.assembleHit n differ).regs = s.dev.regs
    rw [hnone, hwork]
    exact ⟨rfl, rfl⟩
  · have hrecord : s.dev.assembleHit n differ = (s.dev.capDrawn n k).recordCap (s.dev.chan n) n k differ (getT 0 n s.dev.rcd.seqs % 65536) := by
      rw [assembleHit_eq hup hrole hk hstage hpeers, if_pos hrec]
      rfl
    dsimp only
    rw [hrecord]
    obtain ⟨hseq, hoff⟩ := recordCap_draws s.dev hn (s.dev.chan n) k differ (getT 0 n s.dev.rcd.seqs % 65536)
    refine ⟨hseq, hoff, fun hbad hlost hcmp => ?_, fun hbad hlost hcmp hsmp => ?_⟩
    · obtain ⟨hasm, hfifo, hready⟩ := hitRecord_raw hbad hlost hcmp
      rw [hready]
      exact ⟨hasm, hfifo, List.length_append, List.take_left, by rw [List.getLast?_concat]; rfl, by rw [List.getLast?_concat]; rfl⟩
    · obtain ⟨hready, hfifo, hasm, hwords⟩ := hitRecord_compressed hbad hlost hcmp hsmp
      refine ⟨hready, hfifo, ?_, getLast?_map_of_map_eq (hasm _ fun _ _ => rfl), ?_, hwords⟩
      · simpa using congrArg List.length (hasm (fun _ => ()) fun _ _ => rfl)
      · obtain ⟨-, -, -, -, hfn⟩ := capDrawn_looksUp s.dev n k
        rw [getLast?_map_of_map_eq (hasm _ fun _ _ => rfl)]
        exact congrArg (fun i => some (_, i)) hfn
  · obtain ⟨hcaps, hchan, hothers, hseqs, hwork, hregs⟩ := assembleHit_assembled (differ := differ) hup hrole hk hstage hpeers
    exact ⟨hcaps ▸ find?_takeCap hk, hchan, hothers, hseqs, congrArg (fun d : Dev => { s with dev := d }) hwork, hregs⟩
  · obtain ⟨hwork, hregs⟩ := pipelineMismatch_spec hup hacq hcyc
    have hchan (m : Nat) : (s.dev.pipelineMismatch n cyc).chan m = (s.dev.updChan n (Chan.mismatched cyc)).chan m := by
      rw [hwork]; rfl
    have hsame : (s.dev.pipelineMismatch n cyc).chan n = (s.dev.chan n).mismatched cyc := (hchan n).trans (chan_updChan_same _ n _)
    refine ⟨fun j => ?_, ?_, fun m hm => (hchan m).trans (chan_updChan_ne _ hm _), congrArg (fun d : Dev => { s with dev := d }) ?_, hregs⟩
    · show j ∈ ((s.dev.pipelineMismatch n cyc).chan n).pois ↔ _
      rw [hsame]
      exact mem_pois_mismatched _ _ _
    · show (s.dev.pipelineMismatch n cyc).chan n = { s.dev.chan n with pois := ((s.dev.pipelineMismatch n cyc).chan n).pois }
      rw [hsame]
      rfl
    · have hchans : (s.dev.pipelineMismatch n cyc).acq.chans = (s.dev.updChan n (Chan.mismatched cyc)).acq.chans := by
        rw [hwork]; rfl
      dsimp only
      rw [hchans]
      exact hwork

end Sys2Proof.Machine
end

section
/-! PROOF. Uplinks: a record begins with the records that depend on it, the deadline withdraws what has not begun, a lane out of service abandons its
copies; O39 from it. -/
namespace Sys2Proof.Machine
open Sys2Proof.Safety

/-! ### Records begin on a lane (R226, R257, R278) -/

/-- The words that go out when `r` begins now: of a summary of the device's own, with its counts. -/
def Dev.sentWords (d : Dev) (r : FRec) : List Word := if r.isSummary r.fn then wordsOf (d.fillSummary r) else r.words

/-- A change of the first element of `p` does not move the first element of `q`, nor take from it what the change keeps. -/
theorem find?_updFirst_imp {α : Type} {p q : α → Bool} {f : α → α} {P : α → Prop} (hq : ∀ x, q (f x) = q x) (hP : ∀ x, P x → P (f x)) {l : List α}
    (h : ∃ x, l.find? q = some x ∧ P x) : ∃ x, (updFirst p f l).find? q = some x ∧ P x := by
  induction l with
  | nil => exact absurd h (by simp)
  | cons y l ih =>
    obtain ⟨x, hx, hPx⟩ := h
    unfold updFirst
    by_cases hy : q y = true
    · obtain rfl : y = x := by simpa [List.find?_cons_of_pos hy] using hx
      split
      · exact ⟨f y, List.find?_cons_of_pos ((hq y).trans hy), hP y hPx⟩
      · exact ⟨y, List.find?_cons_of_pos hy, hPx⟩
    · rw [List.find?_cons_of_neg hy] at hx
      split
      · exact ⟨x, (List.find?_cons_of_neg ((hq y).symm ▸ hy)).trans hx, hPx⟩
      · rw [List.find?_cons_of_neg hy]
        exact ih ⟨x, hx, hPx⟩

/-- The first record of the FIFO named `id` has begun on lane `l`. -/
def Dev.hasBegun (d : Dev) (l id : Nat) : Prop := ∃ q, (d.rcd.fifo.find? fun q => q.id == id) = some q ∧ l ∈ q.begun

/-- The records `rs` have begun on lane `l`, in their order. -/
structure Begun (l : Nat) (rs : List FRec) (d t : Dev) : Prop where
  tx : (t.lane l).tx.map (fun x => (x.id, x.fn, x.started, x.words)) =
    (d.lane l).tx.map (fun x => (x.id, x.fn, x.started, x.words)) ++ rs.map fun q => (q.id, q.fn, false, d.sentWords q)
  ids : t.rcd.fifo.map (·.id) = d.rcd.fifo.map (·.id)
  begun : ∀ id, d.hasBegun l id → t.hasBegun l id
  lane : t.lane l = { d.lane l with tx := (t.lane l).tx }
  others : ∀ m, m ≠ l → t.lane m = d.lane m
  work : t = { d with regs := t.regs, lanes := t.lanes, rcd := { d.rcd with fifo := t.rcd.fifo } }
  regs : RegsKeepAll ((List.range 4).map fun k => (Reg.TRG_STREAM_STATUS_SPILL k).key) d t

theorem Begun.sentWords {l : Nat} {rs : List FRec} {d t : Dev} (h : Begun l rs d t) (q : FRec) : t.sentWords q = d.sentWords q := by
  rw [h.work]
  rfl

theorem Begun.nil (l : Nat) (d : Dev) : Begun l [] d d :=
  ⟨(List.append_nil _).symm, rfl, fun _ => id, rfl, fun _ _ => rfl, rfl, fun _ _ => rfl⟩

theorem Begun.append {l : Nat} {rs qs : List FRec} {a b c : Dev} (h : Begun l rs a b) (k : Begun l qs b c) : Begun l (rs ++ qs) a c where
  tx := by
    rw [k.tx, h.tx, List.map_append, List.append_assoc]
    simp only [h.sentWords]
  ids := k.ids.trans h.ids
  begun id hid := k.begun id (h.begun id hid)
  lane := by rw [k.lane, h.lane]
  others m hm := (k.others m hm).trans (h.others m hm)
  work := by rw [k.work, h.work]
  regs := regsKeepAll_trans h.regs k.regs

/-- A stream record larger than its slot's reservation counts once as spilled (R184). -/
def Dev.countSpill (d : Dev) (l : Nat) (r : FRec) : Dev :=
  if d.spills l r && !r.spilled then d.addWrap (Reg.TRG_STREAM_STATUS_SPILL (bits (nth (natsOf r.words) 3) 0 2)) 1 else d

/-- A record marked as begun on lane `l`, and as spilled. -/
def FRec.mark (l : Nat) (sp : Bool) (q : FRec) : FRec := { q with begun := q.begun ++ [l], spilled := q.spilled || sp }

def Dev.markBegun (d : Dev) (l : Nat) (r : FRec) (sp : Bool) : Dev :=
  { d with rcd := { d.rcd with fifo := updFirst (fun q => q.id == r.id) (FRec.mark l sp) d.rcd.fifo } }

def Dev.addCopy (d : Dev) (l : Nat) (x : TxItem) : Dev := d.updLane l fun y => { y with tx := y.tx ++ [x] }

theorem beginOn_eq (d : Dev) (l : Nat) (r : FRec) (ws : List Word) :
    d.beginOn l r ws = ((d.countSpill l r).markBegun l r (d.spills l r)).addCopy l
      { id := r.id, fn := r.fn, stream := d.inStream l r, started := false, words := ws, addr := r.addr, cut := false } := rfl

theorem countSpill_begun (d : Dev) (l : Nat) (r : FRec) : Begun l [] d (d.countSpill l r) := by
  have hslot : bits (nth (natsOf r.words) 3) 0 2 < 4 := Nat.mod_lt _ (by decide)
  unfold Dev.countSpill
  split
  · exact ⟨(List.append_nil _).symm, rfl, fun _ => id, rfl, fun _ _ => rfl, rfl,
      regsKeepAll_set_of_mem (List.mem_map_of_mem (f := fun k => (Reg.TRG_STREAM_STATUS_SPILL k).key) (List.mem_range.2 hslot))⟩
  · exact .nil l d

theorem markBegun_begun (d : Dev) (l : Nat) (r : FRec) (sp : Bool) : Begun l [] d (d.markBegun l r sp) where
  tx := (List.append_nil _).symm
  ids := map_updFirst (f := FRec.mark l sp) (fun _ _ => rfl) _
  begun _ h := find?_updFirst_imp (f := FRec.mark l sp) (fun _ => rfl) (fun _ => List.mem_append_left _) h
  lane := rfl
  others _ _ := rfl
  work := rfl
  regs _ _ := rfl

theorem addCopy_begun (d : Dev) {l : Nat} {r : FRec} {x : TxItem} (hx : (x.id, x.fn, x.started, x.words) = (r.id, r.fn, false, d.sentWords r)) :
    Begun l [r] d (d.addCopy l x) where
  tx := by simp only [Dev.addCopy, Dev.updLane_eq, Dev.lane_setLane_same, List.map_append, List.map_cons, List.map_nil, hx]
  ids := rfl
  begun _ := id
  lane := by rw [Dev.addCopy, Dev.updLane_eq, Dev.lane_setLane_same]
  others m hm := by rw [Dev.addCopy, Dev.updLane_eq, Dev.lane_setLane, if_neg hm]
  work := rfl
  regs _ _ := rfl

theorem beginOn_begun (d : Dev) (l : Nat) (r : FRec) : Begun l [r] d (d.beginOn l r (d.sentWords r)) := by
  rw [beginOn_eq]
  have hmarked := (countSpill_begun d l r).append (markBegun_begun (d.countSpill l r) l r (d.spills l r))
  exact hmarked.append (addCopy_begun _ (by rw [hmarked.sentWords]))

/-- A record that begins has begun. -/
theorem hasBegun_beginOn {d : Dev} {l : Nat} {r : FRec} (hr : r ∈ d.rcd.fifo) (ws : List Word) : (d.beginOn l r ws).hasBegun l r.id := by
  obtain ⟨q, hq⟩ := Option.isSome_iff_exists.1
    (List.find?_isSome.2 ⟨r, hr, beq_self_eq_true r.id⟩ : (d.rcd.fifo.find? fun q => q.id == r.id).isSome = true)
  have hfifo : (d.beginOn l r ws).rcd.fifo = updFirst (fun q => q.id == r.id) (FRec.mark l (d.spills l r)) d.rcd.fifo := by
    rw [beginOn_eq, Dev.countSpill]
    split <;> rfl
  refine ⟨FRec.mark l (d.spills l r) q, ?_, by simp [FRec.mark]⟩
  rw [hfifo, find?_updFirst (f := FRec.mark l (d.spills l r)) fun _ => id, hq, Option.map_some]

/-- With no stored word in error every record of a run begins. -/
theorem foldl_sendOne (l : Nat) (rs : List FRec) (d : Dev) :
    ∃ t, rs.foldl (sendOne l) (true, [], d) = (true, [], t) ∧ Begun l rs d t ∧ ∀ r ∈ rs.head?, r ∈ d.rcd.fifo → t.hasBegun l r.id := by
  induction rs generalizing d with
  | nil => exact ⟨d, rfl, .nil l d, by simp⟩
  | cons r rs ih =>
    obtain ⟨t, hfold, hbegun, -⟩ := ih (d.beginOn l r (d.sentWords r))
    refine ⟨t, hfold, (beginOn_begun d l r).append hbegun, fun x hx hmem => ?_⟩
    obtain rfl : r = x := by simpa using hx
    exact hbegun.begun _ (hasBegun_beginOn hmem _)

theorem mem_fifo_of_pickSend {d : Dev} {g : List Nat} {l : Nat} {r : FRec} (h : d.pickSend g l = some r) : r ∈ d.rcd.fifo := by
  unfold Dev.pickSend at h
  dsimp only at h
  split at h
  next q hq =>
    obtain rfl : q = r := by simpa using h
    exact List.mem_of_mem_filter (List.mem_of_find?_eq_some hq)
  next => exact List.mem_of_mem_filter (List.mem_of_mem_head? h)

theorem uplinkSend_begun {d : Dev} {l : Nat} {g : List Nat} {r : FRec} (hup : d.up = true) (hflush : d.rcd.flush = none)
    (hgroup : d.upGroups.find? (fun g => (d.dataLanes g).contains l) = some g) (hpick : d.pickSend g l = some r) :
    ∃ t, uplinkSend l [] d = ([], t) ∧ Begun l (r :: d.depsOf r) d t ∧ t.hasBegun l r.id := by
  obtain ⟨t, hfold, hbegun, hhead⟩ := foldl_sendOne l (r :: d.depsOf r) d
  refine ⟨t, ?_, hbegun, hhead r rfl (mem_fifo_of_pickSend hpick)⟩
  unfold uplinkSend
  rw [if_pos (by simp [hup, hflush]), hgroup]
  dsimp only
  rw [hpick]
  dsimp only
  rw [hfold]

/-! ### Withdrawal at the deadline (R226) -/

/-- A record of which no copy is being sent and whose turn has come: that of a summary or loss record comes a frame later. -/
def Dev.recordEnds (d : Dev) (r : FRec) : Bool :=
  (r.begun.all fun m => r.left.contains m) && (if r.acct then decide (r.fn + d.deadline < d.fn) else decide (r.fn + d.deadline ≤ d.fn))

/-- The records that the boundary withdraws or releases. -/
def Dev.goesNow (d : Dev) (r : FRec) : Bool := d.recordEnds r && (d.depsOf r).all d.recordEnds

/-- A record whose withdrawal counts. -/
def FRec.countsWithdrawn (r : FRec) : Bool := r.left.isEmpty && !r.acct

def Dev.withoutRec (d : Dev) (r : FRec) : Dev := d.setFifo (d.rcd.fifo.filter fun q => q.id != r.id)

/-- One record withdrawn or released. -/
def Dev.withdrawRec (d : Dev) (r : FRec) : Dev :=
  if !r.left.isEmpty then d.release r
  else if r.acct then d.withoutRec r
  else (((d.withoutRec r).addWrap Reg.REC_FIFO_STATS_WITHDRAWN 1).updFrame r.fn fun s => { s with nDrop := s.nDrop + 1 }).loseFRec r 2

/-- What the boundary drops besides records of the FIFO: lost names out of date, the summaries not written of the frames that are `due`, the
accounts that wait for the `past` ones. -/
def Dev.dropLate (due past : Nat → Bool) (d : Dev) : Dev :=
  let d := { d with rcd := { d.rcd with lostKeys := d.rcd.lostKeys.filter fun k => decide (d.fn < k.2.1 + 144) } }
  let late := d.acq.fstats.filter fun s => due s.fn && !s.summed && !s.gone && d.recording s.fn
  let t := late.foldl (fun d s => d.dropSummary s.fn) d
  { t with rcd := { t.rcd with accWait := t.rcd.accWait.filter fun p => !past p.1 } }

theorem withdraw_eq {d : Dev} (hup : d.up = true) (hrole : d.role = .frontEnd ∨ d.role = .cell) :
    d.withdraw = ((d.rcd.fifo.filter d.goesNow).foldl Dev.withdrawRec d).dropLate (fun fn => decide (fn + d.deadline ≤ d.fn))
      (fun fn => decide (fn + d.deadline < d.fn)) := by
  unfold Dev.withdraw
  rw [if_neg (by rcases hrole with h | h <;> simp [hup, h])]
  rfl

/-- Records named in `ids` have left the FIFO; what else comes is new, and no other record of which a copy has begun goes. -/
structure Withdrawn (ids : List Nat) (d t : Dev) : Prop where
  work : t = { d with regs := t.regs, rcd := t.rcd, acq := { d.acq with fstats := t.acq.fstats } }
  regs : RegsKeepAll (lossKeys ++ [Reg.REC_FIFO_STATS_WITHDRAWN.key]) d t
  nextId : d.rcd.nextId ≤ t.rcd.nextId
  came : ∀ r ∈ t.rcd.fifo, d.rcd.nextId ≤ r.id ∨ r.id ∉ ids ∧ ∃ q ∈ d.rcd.fifo, q.id = r.id
  begun : ∀ q ∈ d.rcd.fifo, q.begun ≠ [] → q.id ∉ ids → ∃ r ∈ t.rcd.fifo, r.id = q.id ∧ r.begun = q.begun

theorem Withdrawn.append {is js : List Nat} {a b c : Dev} (h : Withdrawn is a b) (k : Withdrawn js b c) : Withdrawn (is ++ js) a c where
  work := by rw [k.work, h.work]
  regs := regsKeepAll_trans h.regs k.regs
  nextId := h.nextId.trans k.nextId
  came r hr := by
    rcases k.came r hr with hnew | ⟨hout, q, hq, hid⟩
    · exact .inl (h.nextId.trans hnew)
    · refine (h.came q hq).imp (fun hnew => hid ▸ hnew) fun ⟨hout', x, hx, hid'⟩ => ⟨?_, x, hx, hid'.trans hid⟩
      simp [hid ▸ hout', hout]
  begun q hq hne hout := by
    obtain ⟨r, hr, hid, hbegun⟩ := h.begun q hq hne fun hi => hout (List.mem_append_left _ hi)
    obtain ⟨x, hx, hid', hbegun'⟩ := k.begun r hr (hbegun ▸ hne) fun hj => hout (List.mem_append_right _ (hid ▸ hj))
    exact ⟨x, hx, hid'.trans hid, hbegun'.trans hbegun⟩

theorem LossKept.withdrawn {d t : Dev} (h : LossKept d t) : Withdrawn [] d t where
  work := h.work
  regs := regsKeepAll_mono h.regs fun _ => List.mem_append_left _
  nextId := h.nextId
  came r hr := (h.came r hr).imp_right fun hq => ⟨List.not_mem_nil, hq⟩
  begun q hq hne _ := h.begun q hq hne

/-- A step that leaves the records of the FIFO and their count alone. -/
theorem Withdrawn.of_fifo {d t : Dev} (work : t = { d with regs := t.regs, rcd := t.rcd, acq := { d.acq with fstats := t.acq.fstats } })
    (regs : RegsKeepAll (lossKeys ++ [Reg.REC_FIFO_STATS_WITHDRAWN.key]) d t) (hnext : t.rcd.nextId = d.rcd.nextId) (hfifo : t.rcd.fifo = d.rcd.fifo) :
    Withdrawn [] d t :=
  ⟨work, regs, hnext.ge, fun r hr => .inr ⟨List.not_mem_nil, r, hfifo ▸ hr, rfl⟩, fun q hq _ _ => ⟨q, hfifo ▸ hq, rfl, rfl⟩⟩

theorem withoutRec_withdrawn (d : Dev) (r : FRec) : Withdrawn [r.id] d (d.withoutRec r) where
  work := (setFifo_step d _).work
  regs := regsKeepAll_mono (setFifo_step d _).regs fun _ => List.mem_append_left _
  nextId := Nat.le_refl _
  came q hq := by
    obtain ⟨hmem, hne⟩ := List.mem_filter.1 hq
    exact .inr ⟨by simpa using hne, q, hmem, rfl⟩
  begun q hq _ hout := ⟨q, List.mem_filter.2 ⟨hq, by simpa using hout⟩, rfl, rfl⟩

theorem withdrawRec_withdrawn (d : Dev) (r : FRec) : Withdrawn [r.id] d (d.withdrawRec r) := by
  have hout := withoutRec_withdrawn d r
  unfold Dev.withdrawRec
  split
  · unfold Dev.release
    exact iteInduction (motive := Withdrawn [r.id] d) (fun _ => hout) fun _ => hout.append (LossKept.updFrame _ _ _).withdrawn
  · split
    · exact hout
    · have hcount : Withdrawn [] (d.withoutRec r) ((d.withoutRec r).addWrap Reg.REC_FIFO_STATS_WITHDRAWN 1) :=
        .of_fifo rfl (regsKeepAll_set_of_mem (by simp)) rfl rfl
      exact (hout.append hcount).append ((LossKept.updFrame _ _ _).trans (loseFRec_kept _ _ _)).withdrawn

theorem dropLate_withdrawn (due past : Nat → Bool) (d : Dev) : Withdrawn [] d (d.dropLate due past) := by
  have hdrop (l : List FStat) (d : Dev) : Withdrawn [] d (l.foldl (fun d s => d.dropSummary s.fn) d) := by
    induction l generalizing d with
    | nil => exact (LossKept.refl d).withdrawn
    | cons s l ih => exact (dropSummary_kept d s.fn).withdrawn.append (ih _)
  unfold Dev.dropLate
  have hkeys : Withdrawn [] d { d with rcd := { d.rcd with lostKeys := d.rcd.lostKeys.filter fun k => decide (d.fn < k.2.1 + 144) } } :=
    .of_fifo rfl (fun _ _ => rfl) rfl rfl
  exact (hkeys.append (hdrop _ _)).append (.of_fifo rfl (fun _ _ => rfl) rfl rfl)

theorem foldl_withdrawRec (gone : List FRec) (d : Dev) : Withdrawn (gone.map (·.id)) d (gone.foldl Dev.withdrawRec d) := by
  induction gone generalizing d with
  | nil => exact (LossKept.refl d).withdrawn
  | cons r gone ih => exact (withdrawRec_withdrawn d r).append (ih _)

/-! ### The count of the records withdrawn -/

/-- What takes records out, loses them or drops summaries does not count a withdrawal. -/
theorem get_withdrawn_of_regs {d t : Dev} (h : RegsKeepAll lossKeys d t) : t.get Reg.REC_FIFO_STATS_WITHDRAWN = d.get Reg.REC_FIFO_STATS_WITHDRAWN :=
  h _ (by decide)

theorem get_withdrawn_withdrawRec (d : Dev) (r : FRec) :
    (d.withdrawRec r).get Reg.REC_FIFO_STATS_WITHDRAWN % 65536 = (d.get Reg.REC_FIFO_STATS_WITHDRAWN + b2n r.countsWithdrawn) % 65536 := by
  have hout : (d.withoutRec r).get Reg.REC_FIFO_STATS_WITHDRAWN = d.get Reg.REC_FIFO_STATS_WITHDRAWN := get_withdrawn_of_regs (setFifo_step d _).regs
  unfold Dev.withdrawRec
  cases hleft : r.left.isEmpty with
  | false =>
    have hkeep : (d.release r).get Reg.REC_FIFO_STATS_WITHDRAWN = (d.withoutRec r).get Reg.REC_FIFO_STATS_WITHDRAWN := by
      unfold Dev.release
      dsimp only
      split <;> rfl
    simp [FRec.countsWithdrawn, hleft, b2n, hkeep, hout]
  | true =>
    cases hacct : r.acct with
    | true => simp [FRec.countsWithdrawn, hacct, b2n, hout]
    | false =>
      have hlose := get_withdrawn_of_regs ((LossKept.updFrame ((d.withoutRec r).addWrap Reg.REC_FIFO_STATS_WITHDRAWN 1) r.fn
        fun s => { s with nDrop := s.nDrop + 1 }).trans (loseFRec_kept _ r 2)).regs
      have hcount : ((d.withoutRec r).addWrap Reg.REC_FIFO_STATS_WITHDRAWN 1).get Reg.REC_FIFO_STATS_WITHDRAWN
          = (d.get Reg.REC_FIFO_STATS_WITHDRAWN + 1) % 65536 := by
        rw [Dev.addWrap, Dev.get_set_same, hout]
        rfl
      simp only [FRec.countsWithdrawn, hleft, hacct]
      rw [if_neg (by decide), if_neg Bool.noConfusion, hlose, hcount, Nat.mod_mod]
      rfl

theorem get_withdrawn_foldl (gone : List FRec) (d : Dev) :
    (gone.foldl Dev.withdrawRec d).get Reg.REC_FIFO_STATS_WITHDRAWN % 65536
      = (d.get Reg.REC_FIFO_STATS_WITHDRAWN + (gone.filter FRec.countsWithdrawn).length) % 65536 := by
  induction gone generalizing d with
  | nil => rfl
  | cons r gone ih =>
    have hrec := get_withdrawn_withdrawRec d r
    have hlength : ((r :: gone).filter FRec.countsWithdrawn).length = b2n r.countsWithdrawn + (gone.filter FRec.countsWithdrawn).length := by
      cases hr : r.countsWithdrawn <;> simp [hr, b2n, Nat.add_comm]
    rw [List.foldl_cons, ih, hlength]
    omega

theorem get_withdrawn_dropLate (due past : Nat → Bool) (d : Dev) :
    (d.dropLate due past).get Reg.REC_FIFO_STATS_WITHDRAWN = d.get Reg.REC_FIFO_STATS_WITHDRAWN := by
  have hdrop (l : List FStat) (e : Dev) : (l.foldl (fun d s => d.dropSummary s.fn) e).get Reg.REC_FIFO_STATS_WITHDRAWN = e.get Reg.REC_FIFO_STATS_WITHDRAWN := by
    induction l generalizing e with
    | nil => rfl
    | cons s l ih => exact (ih _).trans (get_withdrawn_of_regs (dropSummary_step e s.fn).regs)
  exact hdrop _ _

/-! ### Copies abandoned (R226) -/

/-- What is left of a copy on a lane that leaves service: one that has begun ends there with no further word. -/
def TxItem.abandon (x : TxItem) : Option TxItem := if x.cut then some x else if x.started then some { x with words := [], cut := true } else none

/-- A copy already cut is left as it is. -/
theorem abandon_of_abandon {x y : TxItem} (h : x.abandon = some y) : y.abandon = some y := by
  unfold TxItem.abandon at h
  split at h
  next hcut =>
    obtain rfl : x = y := Option.some.inj h
    exact if_pos hcut
  next =>
    split at h
    · obtain rfl := Option.some.inj h
      rfl
    · exact absurd h (by simp)

theorem cutItem_eq (x : Lane) (i : Nat) : x.cutItem i = { x with tx := x.tx.filterMap fun t => if t.id = i then t.abandon else some t } := by
  unfold Lane.cutItem TxItem.abandon
  congr 2
  funext t
  by_cases hid : t.id = i <;> simp [hid]

/-- The copies of a lane once those of the records in `ids` are cut. -/
theorem foldl_cutItem (ids : List Nat) (x : Lane) :
    ids.foldl Lane.cutItem x = { x with tx := x.tx.filterMap fun t => if t.id ∈ ids then t.abandon else some t } := by
  induction ids generalizing x with
  | nil => simp
  | cons i ids ih =>
    have hlater (t : TxItem) : (t.abandon.bind fun y => if y.id ∈ ids then y.abandon else some y) = t.abandon := by
      cases h : t.abandon with
      | none => rfl
      | some y => exact (ite_congr rfl (fun _ => abandon_of_abandon h) fun _ => rfl).trans (ite_self _)
    rw [List.foldl_cons, ih, cutItem_eq]
    dsimp only
    rw [List.filterMap_filterMap]
    congr 2
    funext t
    by_cases hid : t.id = i <;> simp [hid, hlater]

/-- A record once lane `l` has given up its copy. -/
def FRec.takeBack (l : Nat) (r : FRec) : FRec := { r with begun := r.begun.filter (· != l), left := r.left.filter (· != l) }

/-- Whether lane `l`, which gives up its copies of the records in `ids`, gives up that of `q`: as one of them, or with its run. -/
def Dev.givesUp (d : Dev) (l : Nat) (ids : List Nat) (q : FRec) : Bool :=
  let mates := d.rcd.fifo.filter fun q => ids.contains q.id
  ids.contains q.id
    || (mates.any fun r => dependsOn (natsOf q.words) (natsOf r.words) || dependsOn (natsOf r.words) (natsOf q.words)) && q.begun.contains l

def Dev.takeBackAll (d : Dev) (l : Nat) (ids : List Nat) : Dev :=
  { d with rcd := { d.rcd with fifo := d.rcd.fifo.map fun q => if d.givesUp l ids q then q.takeBack l else q } }

theorem copyAbandon_eq {d : Dev} {l : Nat} (hup : d.up = true) (htx : (d.lane l).tx ≠ []) (hout : d.inData l = false ∨ l ∉ d.maskedUplinks) :
    d.copyAbandon l = (d.takeBackAll l ((d.lane l).tx.map (·.id))).setLane l { d.lane l with tx := (d.lane l).tx.filterMap TxItem.abandon } := by
  have hgo : ¬ (!d.up || (d.lane l).tx.isEmpty || (d.inData l && d.maskedUplinks.contains l)) = true := by
    rcases hout with h | h <;> simp [hup, htx, h]
  have hall : (d.lane l).tx.filterMap (fun t => if t.id ∈ (d.lane l).tx.map (·.id) then t.abandon else some t)
      = (d.lane l).tx.filterMap TxItem.abandon :=
    List.filterMap_congr fun t ht => if_pos (List.mem_map_of_mem ht)
  rw [← hall, ← foldl_cutItem]
  exact if_neg hgo

theorem takeBack_ids (d : Dev) (l : Nat) (ids : List Nat) :
    (d.takeBackAll l ids).rcd.fifo.map (fun r => (r.id, r.words)) = d.rcd.fifo.map (fun r => (r.id, r.words)) := by
  rw [Dev.takeBackAll, List.map_map]
  refine List.map_congr_left fun q _ => ?_
  show ((if d.givesUp l ids q then q.takeBack l else q).id, (if d.givesUp l ids q then q.takeBack l else q).words) = _
  split <;> rfl

/-- A record whose copy lane `l` gives up has neither begun nor left there. -/
theorem takenBack_of_mem {d : Dev} {l : Nat} {ids : List Nat} {r : FRec} (hr : r ∈ (d.takeBackAll l ids).rcd.fifo) (hid : r.id ∈ ids) :
    l ∉ r.begun ∧ l ∉ r.left := by
  obtain ⟨q, -, rfl⟩ := List.mem_map.1 hr
  have hgives : d.givesUp l ids q = true := by
    have hsame : (if d.givesUp l ids q then q.takeBack l else q).id = q.id := by split <;> rfl
    rw [hsame] at hid
    simp [Dev.givesUp, hid]
  rw [if_pos hgives]
  simp [FRec.takeBack]

/-! ### The three parts of O39 -/

theorem fifo_withdrawn {d : Dev} (hup : d.up = true) (hrole : d.role = .frontEnd ∨ d.role = .cell) :
    Withdrawn ((d.rcd.fifo.filter d.goesNow).map (·.id)) d d.withdraw
    ∧ d.withdraw.get Reg.REC_FIFO_STATS_WITHDRAWN % 65536
      = (d.get Reg.REC_FIFO_STATS_WITHDRAWN + (d.rcd.fifo.filter fun q => d.goesNow q && q.left.isEmpty && !q.acct).length) % 65536 := by
  rw [withdraw_eq hup hrole]
  refine ⟨?_, ?_⟩
  · simpa using (foldl_withdrawRec (d.rcd.fifo.filter d.goesNow) d).append (dropLate_withdrawn _ _ _)
  · rw [get_withdrawn_dropLate, get_withdrawn_foldl, List.filter_filter]
    simp only [FRec.countsWithdrawn, Bool.and_assoc, Bool.and_comm, Bool.and_left_comm]

theorem uplink_sends {l : Nat} {g : List Nat} {r : FRec} {s : State} (hl : l < 48) (hup : s.dev.up = true) (hflush : s.dev.rcd.flush = none) (hecc : s.ecc = [])
    (hgroup : s.dev.upGroups.find? (fun g => (s.dev.dataLanes g).contains l) = some g) (hpick : s.dev.pickSend g l = some r) :
    ∃ t, exec (.uplinkSend l) s = .next { s with dev := t } ∧ Begun l (r :: s.dev.depsOf r) s.dev t ∧ t.hasBegun l r.id := by
  obtain ⟨t, hsend, hbegun, hhas⟩ := uplinkSend_begun hup hflush hgroup hpick
  refine ⟨t, ?_, hbegun, hhas⟩
  show (if l < 48 then onEcc (uplinkSend l) s else _) = _
  rw [if_pos hl, onEcc, hecc, hsend]

theorem recordWithdraw_spec {s : State} (hup : s.dev.up = true) (hrole : s.dev.role = .frontEnd ∨ s.dev.role = .cell) :
    Answers .recordWithdraw s fun t =>
      (∀ r ∈ t.dev.rcd.fifo, s.dev.rcd.nextId ≤ r.id ∨ ∃ q ∈ s.dev.rcd.fifo, q.id = r.id ∧ s.dev.goesNow q = false)
      ∧ (∀ q ∈ s.dev.rcd.fifo, q.begun ≠ [] → (∀ x ∈ s.dev.rcd.fifo, x.id = q.id → s.dev.goesNow x = false) → q.id ∈ t.dev.rcd.fifo.map (·.id))
      ∧ t.dev.get Reg.REC_FIFO_STATS_WITHDRAWN % 65536 = (s.dev.get Reg.REC_FIFO_STATS_WITHDRAWN
          + (s.dev.rcd.fifo.filter fun q => s.dev.goesNow q && q.left.isEmpty && !q.acct).length) % 65536
      ∧ t = { s with dev := { s.dev with regs := t.dev.regs, rcd := t.dev.rcd, acq := { s.dev.acq with fstats := t.dev.acq.fstats } } }
      ∧ RegsKeepAll (lossKeys ++ [Reg.REC_FIFO_STATS_WITHDRAWN.key]) s.dev t.dev := by
  obtain ⟨hwithdrawn, hcount⟩ := fifo_withdrawn hup hrole
  refine ⟨_, rfl, fun r hr => ?_, fun q hq hne hnot => ?_, hcount, congrArg (fun d : Dev => { s with dev := d }) hwithdrawn.work, hwithdrawn.regs⟩
  · refine (hwithdrawn.came r hr).imp_right fun ⟨hout, q, hq, hid⟩ => ⟨q, hq, hid, Bool.eq_false_iff.2 fun hgoes => hout ?_⟩
    exact hid ▸ List.mem_map_of_mem (List.mem_filter.2 ⟨hq, hgoes⟩)
  · have hout : q.id ∉ (s.dev.rcd.fifo.filter s.dev.goesNow).map (·.id) := by
      intro hmem
      obtain ⟨x, hx, hid⟩ := List.mem_map.1 hmem
      obtain ⟨hxmem, hgoes⟩ := List.mem_filter.1 hx
      exact absurd hgoes (by simp [hnot x hxmem hid])
    obtain ⟨r, hr, hid, -⟩ := hwithdrawn.begun q hq hne hout
    exact hid ▸ List.mem_map_of_mem hr

theorem goesNow_eq (d : Dev) :
    d.goesNow = fun q => (q.begun.all (fun m => q.left.contains m)
        && (if q.acct then decide (q.fn + (if d.role = .cell then 48 else 16) < d.fn) else decide (q.fn + (if d.role = .cell then 48 else 16) ≤ d.fn)))
      && (d.depsOf q).all fun q => q.begun.all (fun m => q.left.contains m)
        && (if q.acct then decide (q.fn + (if d.role = .cell then 48 else 16) < d.fn) else decide (q.fn + (if d.role = .cell then 48 else 16) ≤ d.fn)) := by
  have hdeadline : d.deadline = if d.role = .cell then 48 else 16 := by simp [Dev.deadline]
  funext q
  unfold Dev.goesNow Dev.recordEnds
  rw [hdeadline]

/-- Settles O39: the fold over a run begins its records in order, the boundary's withdrawal is followed record by record, and a lane's copies are
cut one by one. -/
theorem uplinksSendWithdrawAndAbandon : Obligations.UplinksSendWithdrawAndAbandon := by
  refine ⟨fun l g r s hl hup hflush hecc hgroup hpick => ?_, fun s hup hrole => ?_, fun l s hl hup htx hout => ?_⟩
  · obtain ⟨t, hexec, hbegun, q, hfind, hmem⟩ := uplink_sends hl hup hflush hecc hgroup hpick
    exact ⟨_, hexec, hbegun.tx, hbegun.ids, by rw [hfind]; simpa using hmem, hbegun.lane, hbegun.others,
      congrArg (fun d : Dev => { s with dev := d }) hbegun.work, hbegun.regs⟩
  · have hspec := recordWithdraw_spec hup hrole
    rw [goesNow_eq] at hspec
    exact hspec
  · refine ⟨_, onUnit_of_lt hl _ s, ?_⟩
    dsimp only
    rw [copyAbandon_eq hup htx hout]
    exact ⟨Dev.lane_setLane_same _ _ _, fun m hm => (Dev.lane_setLane _ _ _ _).trans (if_neg hm), takeBack_ids _ _ _, fun r => takenBack_of_mem, rfl⟩

end Sys2Proof.Machine
end

section
/-! PROOF. Records on their way to the host rings: what taking, losing and writing them changes, and that a queue only gains loss records. -/
namespace Sys2Proof.Machine
open Sys2Proof.Safety

/-! ### What changes at all -/

/-- Records move through the egress pool: rings, what leaves the device, SEQ counts, the counts of the pool and of ring errors, and what an event
changes. -/
structure RingTalk (d t : Dev) : Prop where
  work : t = { talked d t with out := t.out, rcd := { d.rcd with seqs := t.rcd.seqs } }
  regs : RegsKeep (ringKeys ++ [Reg.GLB_LADDER_LOSS_LOSS_RECORDS.key]) d t
  out : d.out <:+ t.out

theorem RingTalk.refl (d : Dev) : RingTalk d d := ⟨rfl, regsKeep_refl _ d, List.suffix_rfl⟩

theorem RingTalk.trans {a b c : Dev} (h : RingTalk a b) (k : RingTalk b c) : RingTalk a c :=
  ⟨by rw [k.work, h.work]; rfl, regsKeep_trans h.regs k.regs, h.out.trans k.out⟩

theorem RingTalk.of_talks {d t : Dev} (h : Talks d t) : RingTalk d t := by
  have hout : t.out = d.out := by rw [h.1]; rfl
  exact ⟨by rw [h.1]; rfl, h.keep _, hout ▸ List.suffix_rfl⟩

theorem RingTalk.set {d : Dev} {f : Fld} {v : Nat} (hf : f.key ∈ ringKeys ++ [Reg.GLB_LADDER_LOSS_LOSS_RECORDS.key]) : RingTalk d (d.set f v) :=
  ⟨rfl, regsKeep_set_of_mem hf, List.suffix_rfl⟩

theorem RingTalk.emit (d : Dev) (o : Out) : RingTalk d (d.emit o) := ⟨rfl, fun _ _ _ => rfl, List.suffix_cons _ _⟩

theorem nextSeq_talk (d : Dev) (k : Nat) : RingTalk d (d.nextSeq k).2 := ⟨rfl, fun _ _ _ => rfl, List.suffix_rfl⟩

theorem RingTalk.foldl {α : Type} {f : Dev → α → Dev} (h : ∀ d a, RingTalk d (f d a)) (l : List α) (d : Dev) : RingTalk d (l.foldl f d) := by
  induction l generalizing d with
  | nil => exact .refl d
  | cons a l ih => exact (h d a).trans (ih _)

/-! ### What becomes of each ring -/

/-- A ring goes on: in its state, of its type, and a receive ring's queue has gained only loss records. -/
structure Ring.GoesOn (g h : Ring) : Prop where
  st : h.st = g.st
  typ : h.typ = g.typ
  came : g.typ = 1 → ∀ w ∈ h.wait ++ h.hold, recTyp (natsOf w) = 4 ∨ w ∈ g.wait ++ g.hold

theorem Ring.GoesOn.refl (g : Ring) : g.GoesOn g := ⟨rfl, rfl, fun _ _ => .inr⟩

theorem Ring.GoesOn.trans {a b c : Ring} (h : a.GoesOn b) (k : b.GoesOn c) : a.GoesOn c :=
  ⟨k.st.trans h.st, k.typ.trans h.typ, fun ht w hw => (k.came (h.typ.trans ht) w hw).elim .inl (h.came ht w)⟩

/-- A step that moves records: what it changes, and that every ring goes on. -/
structure RecStep (d t : Dev) : Prop extends RingTalk d t where
  rings : ∀ r, (d.ring r).GoesOn (t.ring r)

theorem RecStep.of_rings {d t : Dev} (h : RingTalk d t) (hrings : ∀ r, t.ring r = d.ring r) : RecStep d t :=
  ⟨h, fun r => hrings r ▸ .refl _⟩

theorem RecStep.refl (d : Dev) : RecStep d d := .of_rings (.refl d) fun _ => rfl

theorem RecStep.trans {a b c : Dev} (h : RecStep a b) (k : RecStep b c) : RecStep a c :=
  ⟨h.toRingTalk.trans k.toRingTalk, fun r => (h.rings r).trans (k.rings r)⟩

theorem RecStep.foldl {α : Type} {f : Dev → α → Dev} (h : ∀ d a, RecStep d (f d a)) (l : List α) (d : Dev) : RecStep d (l.foldl f d) := by
  induction l generalizing d with
  | nil => exact .refl d
  | cons a l ih => exact (h d a).trans (ih _)

theorem RecStep.set {d : Dev} {f : Fld} {v : Nat} (hf : f.key ∈ ringKeys ++ [Reg.GLB_LADDER_LOSS_LOSS_RECORDS.key]) : RecStep d (d.set f v) :=
  .of_rings (.set hf) fun _ => rfl

@[simp] theorem ring_putRing (d : Dev) (n : Nat) (g : Ring) (r : Nat) : (d.putRing n g).ring r = if r = n then g else d.ring r := Dev.ring_setRing d n r g

theorem goesOn_setRing {d : Dev} {n : Nat} {g : Ring} (h : (d.ring n).GoesOn g) (r : Nat) : (d.ring r).GoesOn (if r = n then g else d.ring r) := by
  by_cases hr : r = n
  · rw [if_pos hr, hr]; exact h
  · rw [if_neg hr]; exact .refl _

theorem setRing_step {d : Dev} {n : Nat} {g : Ring} (h : (d.ring n).GoesOn g) : RecStep d (d.setRing n g) :=
  ⟨.of_talks (talks_setRing d n g), fun r => Dev.ring_setRing d n r g ▸ goesOn_setRing h r⟩

theorem putRing_step {d : Dev} {n : Nat} {g : Ring} (h : (d.ring n).GoesOn g) : RecStep d (d.putRing n g) :=
  ⟨.of_talks (talks_putRing d n g), fun r => ring_putRing d n g r ▸ goesOn_setRing h r⟩

/-- A queue some of whose records have gone. -/
theorem goesOn_of_subset {g h : Ring} (hst : h.st = g.st) (htyp : h.typ = g.typ) (hsub : ∀ w ∈ h.wait ++ h.hold, w ∈ g.wait ++ g.hold) : g.GoesOn h :=
  ⟨hst, htyp, fun _ w hw => .inr (hsub w hw)⟩

/-- The records that wait changed: only loss records are new. -/
theorem goesOn_wait {g : Ring} {q : List (List Word)} (h : ∀ w ∈ q, recTyp (natsOf w) = 4 ∨ w ∈ g.wait) : g.GoesOn { g with wait := q } :=
  ⟨rfl, rfl, fun _ w hw => (List.mem_append.1 hw).elim (fun hw => (h w hw).imp_right (List.mem_append_left _)) fun hw => .inr (List.mem_append_right _ hw)⟩

/-- The records that wait for a page changed: only loss records are new. -/
theorem goesOn_hold {g : Ring} {q : List (List Word)} (h : ∀ w ∈ q, recTyp (natsOf w) = 4 ∨ w ∈ g.hold) : g.GoesOn { g with hold := q } :=
  ⟨rfl, rfl, fun _ w hw => (List.mem_append.1 hw).elim (fun hw => .inr (List.mem_append_left _ hw)) fun hw => (h w hw).imp_right (List.mem_append_right _)⟩

/-- The queue cut down to records of its own. -/
theorem goesOn_withQueue {g : Ring} {wait hold : List (List Word)} (hwait : ∀ w ∈ wait, w ∈ g.wait) (hhold : ∀ w ∈ hold, w ∈ g.hold) :
    g.GoesOn (g.withQueue wait hold) :=
  goesOn_of_subset rfl rfl fun w hw =>
    (List.mem_append.1 hw).elim (fun hw => List.mem_append_left _ (hwait w hw)) fun hw => List.mem_append_right _ (hhold w hw)

/-! ### Loss records (R220) -/

theorem natsOf_wordsOf_nth (ns : List Nat) (k : Nat) : nth (natsOf (wordsOf ns)) k = nth ns k % 2 ^ 32 := by
  simp only [nth, natsOf, wordsOf, List.map_map, List.getD_eq_getElem?_getD, List.getElem?_map]
  cases ns[k]? <;> simp [w32]

theorem recW0_typ (typ enc chan dev : Nat) : bits (recW0 typ enc chan dev) 0 4 = typ % 16 := by
  have hsum : recW0 typ enc chan dev = typ % 16 + 16 * (enc % 4 + 16 * (chan % 64 + 256 * (dev % 65536))) := by
    simp only [recW0, pack, fieldAt, List.map_cons, List.map_nil, List.sum_cons, List.sum_nil]
    omega
  rw [hsum, bits, Nat.pow_zero, Nat.div_one]
  omega

theorem recTyp_lossWords (l : Loss) : recTyp (lossWords l) = 4 := recW0_typ 4 0 l.chan l.dev

/-- A record's type stands in the lowest bits of its first word. -/
theorem recTyp_wordsOf (ns : List Nat) : recTyp (natsOf (wordsOf ns)) = recTyp ns := by
  rw [recTyp, recTyp, natsOf_wordsOf_nth, bits, bits]
  omega

theorem recTyp_of_sameLoss {w : List Nat} {l : Loss} (h : sameLoss w (lossWords l) = true) : recTyp w = 4 := by
  have hword : nth w 0 = nth (lossWords l) 0 := by
    simp only [sameLoss, Bool.and_eq_true, beq_iff_eq] at h
    obtain ⟨⟨hword, -⟩, -⟩ := h
    exact hword
  rw [recTyp, hword]
  exact recTyp_lossWords l

theorem recTyp_moreLost (w : List Word) (k : Nat) : recTyp (natsOf (moreLost w k)) = recTyp (natsOf w) := by
  rw [moreLost, recTyp_wordsOf]
  simp [recTyp, nth, List.getD_eq_getElem?_getD]

/-- A loss added to the unsent record of its key. -/
theorem mem_addLoss {l : Loss} {k : Nat} {q : List (List Word)} {w : List Word}
    (h : w ∈ updFirst (fun w => sameLoss (natsOf w) (lossWords l)) (fun w => moreLost w k) q) : recTyp (natsOf w) = 4 ∨ w ∈ q := by
  induction q with
  | nil => exact .inr h
  | cons x q ih =>
    unfold updFirst at h
    split at h
    next hx =>
      rcases List.mem_cons.1 h with rfl | hw
      · exact .inl ((recTyp_moreLost _ _).trans (recTyp_of_sameLoss hx))
      · exact .inr (List.mem_cons_of_mem _ hw)
    next =>
      rcases List.mem_cons.1 h with rfl | hw
      · exact .inr List.mem_cons_self
      · exact (ih hw).imp_right (List.mem_cons_of_mem _)

theorem mem_pushed {ws w : List Word} {q : List (List Word)} (h : recTyp (natsOf ws) = 4) (hw : w ∈ q ++ [ws]) : recTyp (natsOf w) = 4 ∨ w ∈ q :=
  (List.mem_append.1 hw).elim .inr fun hw => .inl (List.mem_singleton.1 hw ▸ h)

theorem pushRec_step {d : Dev} {ws : List Word} (h : recTyp (natsOf ws) = 4) (r : Nat) : RecStep d (d.pushRec r ws) := by
  unfold Dev.pushRec
  dsimp only
  split
  · exact putRing_step (goesOn_wait fun _ => mem_pushed h)
  · exact setRing_step (goesOn_hold fun _ => mem_pushed h)

theorem loseTo_step (d : Dev) (r : Nat) (l : Loss) : RecStep d (d.loseTo r l) := by
  unfold Dev.loseTo
  dsimp only
  split
  · exact .set (by decide)
  · split
    · exact setRing_step (goesOn_wait fun _ => mem_addLoss)
    · split
      · exact setRing_step (goesOn_hold fun _ => mem_addLoss)
      · have hseq : RecStep d ((d.nextSeq 201).2.addWrap Reg.GLB_LADDER_LOSS_LOSS_RECORDS 1) :=
          (RecStep.of_rings (nextSeq_talk d 201) fun _ => rfl).trans (.set (by decide))
        exact hseq.trans (pushRec_step ((recTyp_wordsOf _).trans (recTyp_lossWords _)) r)

theorem noRing_step (d : Dev) (ws : List Word) : RecStep d (d.noRing ws) := by
  unfold Dev.noRing
  dsimp only
  split
  · exact .set (by decide)
  · split
    · exact .refl d
    · exact loseTo_step d _ _

theorem ring_pushRec_ne (d : Dev) {r q : Nat} (h : r ≠ q) (ws : List Word) : (d.pushRec q ws).ring r = d.ring r := by
  unfold Dev.pushRec
  dsimp only
  split
  · rw [ring_putRing, if_neg h]
  · rw [Dev.ring_setRing, if_neg h]

theorem ring_loseTo_ne (d : Dev) {r q : Nat} (h : r ≠ q) (l : Loss) : (d.loseTo q l).ring r = d.ring r := by
  unfold Dev.loseTo
  dsimp only
  split
  · rfl
  · split
    · rw [Dev.ring_setRing, if_neg h]
    · split
      · rw [Dev.ring_setRing, if_neg h]
      · exact ring_pushRec_ne _ h _

/-- A loss goes to no ring that takes no records. -/
theorem ring_loseTo_of_stopped {d : Dev} {r : Nat} (h : (d.ring r).takesRecs = false) (q : Nat) (l : Loss) : (d.loseTo q l).ring r = d.ring r := by
  by_cases hq : r = q
  · unfold Dev.loseTo
    dsimp only
    rw [if_pos (by rw [← hq, h]; rfl)]
    rfl
  · exact ring_loseTo_ne d hq l

theorem ring_noRing_of_stopped {d : Dev} {r : Nat} (h : (d.ring r).takesRecs = false) (ws : List Word) : (d.noRing ws).ring r = d.ring r := by
  unfold Dev.noRing
  dsimp only
  split
  · rfl
  · split
    · rfl
    · exact ring_loseTo_of_stopped h _ _

theorem ring_foldl_noRing {r : Nat} (l : List (List Word)) {d : Dev} (h : (d.ring r).takesRecs = false) : (l.foldl Dev.noRing d).ring r = d.ring r := by
  induction l generalizing d with
  | nil => rfl
  | cons w l ih =>
    have hw := ring_noRing_of_stopped h w
    exact (ih (hw.symm ▸ h)).trans hw

/-! ### Events (R327, R331) -/

theorem ring_toEventRing (d : Dev) (q : Nat) (ws : List Nat) (r : Nat) :
    (d.toEventRing q ws).ring r = d.ring r
    ∨ (d.ring r).st = 1 ∧ (d.ring r).typ = 3 ∧ ((d.toEventRing q ws).ring r).st = 1 ∧ ((d.toEventRing q ws).ring r).typ = 3 := by
  unfold Dev.toEventRing
  dsimp only
  split
  next h =>
    by_cases hr : r = q
    · refine .inr ⟨hr ▸ h.1, hr ▸ h.2, ?_⟩
      split
      · rw [ring_putRing, if_pos hr]
        exact h
      · rw [Dev.addWrap, Dev.ring_set, Dev.ring_setRing, if_pos hr]
        exact h
    · left
      split
      · rw [ring_putRing, if_neg hr]
      · rw [Dev.addWrap, Dev.ring_set, Dev.ring_setRing, if_neg hr]
  next => exact .inl rfl

/-- An event waits in an event ring that is on, and in no other. -/
theorem ring_raise (d : Dev) (cls code : Nat) (data : List Nat) (r : Nat) :
    (d.raise cls code data).ring r = d.ring r
    ∨ (d.ring r).st = 1 ∧ (d.ring r).typ = 3 ∧ ((d.raise cls code data).ring r).st = 1 ∧ ((d.raise cls code data).ring r).typ = 3 := by
  unfold Dev.raise
  split
  · exact ring_toEventRing d _ _ r
  · exact .inl rfl
  · left
    unfold Dev.postUp
    split
    · rfl
    · split <;> rfl

theorem raise_step (d : Dev) (cls code : Nat) (data : List Nat) : RecStep d (d.raise cls code data) := by
  refine ⟨.of_talks (raise_talks d cls code data), fun r => ?_⟩
  rcases ring_raise d cls code data r with h | ⟨hst, htyp, hst', htyp'⟩
  · exact h ▸ .refl _
  · exact ⟨hst'.trans hst.symm, htyp'.trans htyp.symm, fun h => absurd (htyp.symm.trans h) (by decide)⟩

theorem ringErr_step (d : Dev) (r cause : Nat) : RecStep d (d.ringErr r cause) :=
  (((RecStep.set (by decide)).trans (.set (by decide))).trans (.set (by decide))).trans (raise_step _ _ _ _)

/-- The error is on record: the ring and its cause. -/
theorem get_ringErr (d : Dev) {r cause : Nat} (hr : r < 4096) (hcause : cause < 16) :
    (d.ringErr r cause).get Reg.HR_RING_ERR_RING = r ∧ (d.ringErr r cause).get Reg.HR_RING_ERR_CAUSE = cause := by
  have hkeep (f : Fld) (hf : ¬ countsTalk f.key) : (d.ringErr r cause).get f
      = (((d.set Reg.HR_RING_ERR_RING r).set Reg.HR_RING_ERR_CAUSE cause).addWrap Reg.HR_RING_ERR_COUNT 1).get f :=
    (raise_talks _ _ _ _).2 f List.not_mem_nil hf
  constructor
  · rw [hkeep Reg.HR_RING_ERR_RING (notTalk (.inr (by decide)) (by decide)), Dev.addWrap, Dev.get_set_ne _ (by decide), Dev.get_set_ne _ (by decide), Dev.get_set_same]
    exact Nat.mod_eq_of_lt hr
  · rw [hkeep Reg.HR_RING_ERR_CAUSE (notTalk (.inr (by decide)) (by decide)), Dev.addWrap, Dev.get_set_ne _ (by decide), Dev.get_set_same]
    exact Nat.mod_eq_of_lt hcause

/-! ### Words to host memory (R301) -/

theorem putFrom_emits (k n addr : Nat) (ws : List Word) (d : Dev) :
    Dev.putFrom k n addr ws d = { d with out := (Dev.putFrom k n addr ws d).out } ∧ d.out <:+ (Dev.putFrom k n addr ws d).out := by
  induction n generalizing addr ws d with
  | zero => exact ⟨rfl, List.suffix_rfl⟩
  | succ n ih =>
    unfold Dev.putFrom
    split
    · exact ⟨rfl, List.suffix_rfl⟩
    · obtain ⟨hwork, hout⟩ := ih (addr + 4 * k) (ws.drop k) (d.emit (.hostWrite addr (ws.take k)))
      exact ⟨by rw [hwork]; rfl, (List.suffix_cons _ _).trans hout⟩

theorem hostPut_work (d : Dev) (addr : Nat) (ws : List Word) : d.hostPut addr ws = { d with out := (d.hostPut addr ws).out } :=
  (putFrom_emits _ _ addr ws d).1

theorem hostPut_talk (d : Dev) (addr : Nat) (ws : List Word) : RingTalk d (d.hostPut addr ws) :=
  ⟨by rw [hostPut_work]; rfl, fun _ _ _ => by rw [hostPut_work]; rfl, (putFrom_emits _ _ addr ws d).2⟩

@[simp] theorem ring_hostPut (d : Dev) (addr : Nat) (ws : List Word) (r : Nat) : (d.hostPut addr ws).ring r = d.ring r := by
  rw [hostPut_work]
  rfl

/-! ### The open entry filled (R314) -/

/-- Record `w`, longer than a buffer, written off with those behind it that depend on it. -/
def Dev.writeOffLong (d : Dev) (r : Nat) (w : List Word) (t : List (List Word)) : Dev :=
  let g := d.ring r
  let off := w :: withDeps w (t ++ g.hold)
  let keep (l : List (List Word)) : List (List Word) := l.filter fun q => !off.contains q
  (off.foldl Dev.noRing (d.putRing r (g.withQueue (keep t) (keep g.hold)))).ringErr r 4

theorem writeOffLong_step {d : Dev} {r : Nat} {w : List Word} {t : List (List Word)} (hwait : (d.ring r).wait = w :: t) :
    RecStep d (d.writeOffLong r w t) := by
  have hqueue (p : List Word → Bool) : RecStep d (d.putRing r ((d.ring r).withQueue (t.filter p) ((d.ring r).hold.filter p))) :=
    putRing_step (goesOn_withQueue (fun _ hx => hwait ▸ List.mem_cons_of_mem _ (List.mem_of_mem_filter hx)) fun _ => List.mem_of_mem_filter)
  exact ((hqueue _).trans (.foldl noRing_step _ _)).trans (ringErr_step _ _ _)

/-- Record `w` taken into the open entry `e`, its words written behind those before it. -/
def Dev.takeRec (d : Dev) (r : Nat) (e : Entry) (w : List Word) : Dev := (d.setRing r ((d.ring r).took w)).hostPut (e.buf + 4 * wordCount e.recs) w

theorem takeRec_step (d : Dev) (r : Nat) (e : Entry) (w : List Word) : RecStep d (d.takeRec r e w) := by
  have htook : (d.ring r).GoesOn ((d.ring r).took w) := goesOn_of_subset rfl rfl fun _ hx =>
    (List.mem_append.1 hx).elim (fun hx => List.mem_append_left _ (List.mem_of_mem_drop hx)) (List.mem_append_right _)
  exact (setRing_step htook).trans (.of_rings (hostPut_talk _ _ _) (ring_hostPut _ _ _))

theorem fillEntry_step (r n : Nat) (d : Dev) : RecStep d (Dev.fillEntry r n d) := by
  induction n generalizing d with
  | zero => exact .refl d
  | succ n ih =>
    unfold Dev.fillEntry
    dsimp only
    split
    next e w t _ hwait =>
      split
      · exact .refl d
      · split
        · exact (writeOffLong_step hwait).trans (ih _)
        · split
          · exact .refl d
          · exact (takeRec_step d r e w).trans (ih _)
    next => exact .refl d

theorem fill_step (d : Dev) (r : Nat) : RecStep d (d.fill r) := fillEntry_step r _ d

/-! ### What the open entry takes -/

theorem openEntry_concat {g : Ring} {es : List Entry} {e : Entry} (hold : ∀ x ∈ es, x.isOpen = false) (hopen : e.isOpen = true)
    (hentries : g.entries = es ++ [e]) : g.openEntry = some e := by
  have hnone : es.find? (·.isOpen) = none := List.find?_eq_none.2 fun x hx => by simp [hold x hx]
  rw [Ring.openEntry, hentries, List.find?_append, hnone, Option.none_or, List.find?_cons_of_pos hopen]

theorem updFirst_concat {α : Type} {p : α → Bool} (f : α → α) {l : List α} {a : α} (hl : ∀ x ∈ l, p x = false) (ha : p a = true) :
    updFirst p f (l ++ [a]) = l ++ [f a] := by
  induction l with
  | nil => exact if_pos ha
  | cons x l ih =>
    obtain ⟨hx, hl⟩ := List.forall_mem_cons.1 hl
    rw [List.cons_append, updFirst, if_neg (by simp [hx]), ih hl, List.cons_append]

theorem fillEntry_nil {r : Nat} {d : Dev} (n : Nat) (hwait : (d.ring r).wait = []) : Dev.fillEntry r n d = d := by
  cases n with
  | zero => rfl
  | succ n =>
    unfold Dev.fillEntry
    dsimp only
    split
    next h => rw [hwait] at h; exact absurd h (by simp)
    next => rfl

theorem fillEntry_cons {r n : Nat} {d : Dev} {e : Entry} {w : List Word} {t : List (List Word)} (hlink : d.linkUp = true)
    (hfind : (d.ring r).openEntry = some e) (hwait : (d.ring r).wait = w :: t) (hfit : w.length ≤ (d.ring r).bufKb * 256) :
    Dev.fillEntry r (n + 1) d = if (d.ring r).room e < w.length then d else Dev.fillEntry r n (d.takeRec r e w) := by
  rw [Dev.fillEntry]
  dsimp only
  rw [hfind, hwait]
  dsimp only
  rw [if_neg (by simp [hlink]), if_neg (by omega)]
  rfl

/-- The ring after `w` has been taken into its last entry, the open one. -/
theorem ring_takeRec {r : Nat} {d : Dev} {es : List Entry} {e : Entry} (hold : ∀ x ∈ es, x.isOpen = false) (hopen : e.isOpen = true)
    (hentries : (d.ring r).entries = es ++ [e]) (w : List Word) :
    ((d.takeRec r e w).ring r).entries = es ++ [{ e with recs := e.recs ++ [w] }] ∧ ((d.takeRec r e w).ring r).wait = (d.ring r).wait.drop 1
    ∧ ((d.takeRec r e w).ring r).bufKb = (d.ring r).bufKb ∧ ((d.takeRec r e w).ring r).head = (d.ring r).head
    ∧ (d.takeRec r e w).linkUp = d.linkUp := by
  have hring : (d.takeRec r e w).ring r = (d.ring r).took w := by rw [Dev.takeRec, ring_hostPut, Dev.ring_setRing_same]
  rw [hring]
  refine ⟨?_, rfl, rfl, rfl, ?_⟩
  · show updFirst (·.isOpen) (fun x : Entry => { x with recs := x.recs ++ [w] }) (d.ring r).entries = _
    rw [hentries, updFirst_concat _ hold hopen]
  · rw [Dev.takeRec, hostPut_work]
    rfl

theorem wordCount_append (l m : List (List Word)) : wordCount (l ++ m) = wordCount l + wordCount m := by
  rw [wordCount, wordCount, wordCount, List.map_append, List.sum_append]

/-- The open entry `e`, where no record is longer than its buffer: it takes records in order until the next does not fit. -/
theorem fillEntry_takes {r : Nat} {es : List Entry} (hold : ∀ x ∈ es, x.isOpen = false) (n : Nat) {d : Dev} {e : Entry} (hlink : d.linkUp = true)
    (hopen : e.isOpen = true) (hentries : (d.ring r).entries = es ++ [e]) (hlen : (d.ring r).wait.length ≤ n)
    (hfit : ∀ w ∈ (d.ring r).wait, w.length ≤ (d.ring r).bufKb * 256) (hcap : wordCount e.recs ≤ (d.ring r).bufKb * 256) :
    ∃ rs, ((Dev.fillEntry r n d).ring r).entries = es ++ [{ e with recs := e.recs ++ rs }] ∧ rs ++ ((Dev.fillEntry r n d).ring r).wait = (d.ring r).wait
      ∧ wordCount (e.recs ++ rs) ≤ (d.ring r).bufKb * 256 ∧ ((Dev.fillEntry r n d).ring r).head = (d.ring r).head
      ∧ ∀ w ∈ ((Dev.fillEntry r n d).ring r).wait.head?, (d.ring r).bufKb * 256 < wordCount (e.recs ++ rs) + w.length := by
  induction n generalizing d e with
  | zero =>
    have hnil : (d.ring r).wait = [] := List.length_eq_zero_iff.1 (Nat.le_zero.1 hlen)
    refine ⟨[], ?_⟩
    rw [fillEntry_nil 0 hnil, List.append_nil]
    exact ⟨hentries, rfl, hcap, rfl, by simp [hnil]⟩
  | succ n ih =>
    cases hwait : (d.ring r).wait with
    | nil =>
      refine ⟨[], ?_⟩
      rw [fillEntry_nil _ hwait, List.append_nil]
      exact ⟨hentries, hwait, hcap, rfl, by simp [hwait]⟩
    | cons w t =>
      rw [hwait] at hfit hlen
      obtain ⟨hw, ht⟩ := List.forall_mem_cons.1 hfit
      rw [fillEntry_cons hlink (openEntry_concat hold hopen hentries) hwait hw]
      split
      next hroom =>
        refine ⟨[], ?_⟩
        rw [List.append_nil]
        refine ⟨hentries, hwait, hcap, rfl, fun x hx => ?_⟩
        obtain rfl : w = x := by simpa [hwait] using hx
        unfold Ring.room at hroom
        omega
      next hroom =>
        obtain ⟨hentries', hwait', hbuf, hhead, hlink'⟩ := ring_takeRec hold hopen hentries w
        rw [hwait, List.drop_one, List.tail_cons] at hwait'
        have hcap' : wordCount (e.recs ++ [w]) ≤ (d.ring r).bufKb * 256 := by
          unfold Ring.room at hroom
          rw [wordCount_append]
          simp only [wordCount, List.map_cons, List.map_nil, List.sum_cons, List.sum_nil] at hroom hcap ⊢
          omega
        obtain ⟨rs, h⟩ := ih (d := d.takeRec r e w) (e := { e with recs := e.recs ++ [w] }) (hlink'.trans hlink) hopen hentries'
          (by rw [hwait']; simpa using hlen) (by rw [hwait', hbuf]; exact ht) (by rw [hbuf]; exact hcap')
        rw [hwait', hbuf, hhead] at h
        refine ⟨w :: rs, ?_⟩
        simpa [List.append_assoc] using h

end Sys2Proof.Machine
end

section
/-! PROOF. Entries of the host rings: how one opens, closes and is written back, and the head words, messages and events-lost descriptors. -/
namespace Sys2Proof.Machine
open Sys2Proof.Safety

/-! ### ENTRY_OPEN (R314) -/

/-- A device that may write host memory: its link is up. -/
theorem linkUp_of_ringsRun {d : Dev} (h : d.ringsRun = true) : d.linkUp = true := by
  simp only [Dev.ringsRun, Bool.and_eq_true] at h
  exact h.2

theorem stopRing_talk (d : Dev) (r : Nat) : RingTalk d (d.stopRing r) := by
  have hput (g : Ring) : RingTalk d (d.putRing r g) := .of_talks (talks_putRing d r g)
  unfold Dev.stopRing
  dsimp only
  split
  · exact (hput _).trans (.foldl (fun d w => (noRing_step d w).toRingTalk) _ _)
  · split
    · exact (hput _).trans (.of_talks (talks_evtDropped _ _))
    · exact hput _

theorem st_stopRing (d : Dev) (r : Nat) : ((d.stopRing r).ring r).st = 2 := by
  unfold Dev.stopRing
  dsimp only
  split
  · rw [ring_foldl_noRing, ring_putRing, if_pos rfl]
    rw [ring_putRing, if_pos rfl]
    rfl
  · split
    · rw [Dev.addWrap, Dev.ring_set, ring_putRing, if_pos rfl]
    · rw [ring_putRing, if_pos rfl]

/-- The entry that opens on ring `g` in buffer `buf`. -/
def Dev.newEntry (d : Dev) (g : Ring) (buf : Nat) : Entry :=
  { j := g.nextJ, buf := buf, recs := [], openFn := d.fn, closeFn := 0, cont := g.goesOn, more := false, isOpen := true, closed := false,
    written := false }

/-- A ring that can open an entry. -/
structure CanOpen (d : Dev) (r : Nat) : Prop where
  runs : d.ringsRun = true
  st : (d.ring r).st = 1
  typ : (d.ring r).typ = 1
  wait : (d.ring r).wait ≠ []
  noneOpen : (d.ring r).openEntry = none
  posted : cntDiff (d.ring r).post (d.ring r).nextJ ≠ 0
  fits : cntDiff (d.ring r).post (d.ring r).nextJ ≤ 2 ^ (d.ring r).log2

theorem entryOpen_eq {d : Dev} {r : Nat} (h : CanOpen d r) (buf : Nat) :
    d.entryOpen r buf = if buf % 8 ≠ 0 then ((d.emit (.hostRead ((d.ring r).slotAddr (d.ring r).nextJ) 8)).stopRing r).ringErr r 3
      else ((d.emit (.hostRead ((d.ring r).slotAddr (d.ring r).nextJ) 8)).setRing r
        { d.ring r with entries := (d.ring r).entries ++ [d.newEntry (d.ring r) buf] }).fill r := by
  obtain ⟨hrun, hst, htyp, hwait, hopen, hposted, hfits⟩ := h
  unfold Dev.entryOpen
  dsimp only
  rw [if_neg (by simp [hrun, Ring.takesRecs, hst, htyp, hwait, hopen, hposted, hfits])]
  rfl

theorem entryOpen_talk {d : Dev} {r : Nat} (h : CanOpen d r) (buf : Nat) :
    RingTalk (d.emit (.hostRead ((d.ring r).slotAddr (d.ring r).nextJ) 8)) (d.entryOpen r buf) := by
  rw [entryOpen_eq h]
  split
  · exact (stopRing_talk _ r).trans (ringErr_step _ r 3).toRingTalk
  · exact (RingTalk.of_talks (talks_setRing _ r _)).trans (fill_step _ r).toRingTalk

/-- A misaligned buffer stops the ring. -/
theorem entryOpen_misaligned {d : Dev} {r buf : Nat} (hr : r < 4096) (h : CanOpen d r) (hbuf : buf % 8 ≠ 0) :
    ((d.entryOpen r buf).ring r).st = 2 ∧ (d.entryOpen r buf).get Reg.HR_RING_ERR_RING = r ∧ (d.entryOpen r buf).get Reg.HR_RING_ERR_CAUSE = 3 := by
  rw [entryOpen_eq h, if_pos hbuf]
  refine ⟨?_, get_ringErr _ hr (by decide)⟩
  have hst := st_stopRing (d.emit (.hostRead ((d.ring r).slotAddr (d.ring r).nextJ) 8)) r
  exact ((ringErr_step _ r 3).rings r).st.trans hst

/-- The entry takes what fits of the queue, in order. -/
theorem entryOpen_takes {d : Dev} {r buf : Nat} (h : CanOpen d r) (hbuf : buf % 8 = 0) (hfit : ∀ w ∈ (d.ring r).wait, w.length ≤ (d.ring r).bufKb * 256) :
    ∃ rs, ((d.entryOpen r buf).ring r).entries = (d.ring r).entries ++ [{ d.newEntry (d.ring r) buf with recs := rs }]
      ∧ rs ++ ((d.entryOpen r buf).ring r).wait = (d.ring r).wait ∧ wordCount rs ≤ (d.ring r).bufKb * 256
      ∧ ((d.entryOpen r buf).ring r).head = (d.ring r).head
      ∧ ∀ w ∈ ((d.entryOpen r buf).ring r).wait.head?, (d.ring r).bufKb * 256 < wordCount rs + w.length := by
  have hclosed : ∀ x ∈ (d.ring r).entries, x.isOpen = false := fun x hx => by
    simpa using List.find?_eq_none.1 h.noneOpen x hx
  rw [entryOpen_eq h, if_neg (by simp [hbuf])]
  generalize hopened : (d.emit (.hostRead ((d.ring r).slotAddr (d.ring r).nextJ) 8)).setRing r
    { d.ring r with entries := (d.ring r).entries ++ [d.newEntry (d.ring r) buf] } = t
  have hring : t.ring r = { d.ring r with entries := (d.ring r).entries ++ [d.newEntry (d.ring r) buf] } := by
    rw [← hopened, Dev.ring_setRing_same]
  have htakes := fillEntry_takes hclosed (t.ring r).wait.length (d := t) (e := d.newEntry (d.ring r) buf) (by rw [← hopened]; exact linkUp_of_ringsRun h.runs) rfl
    (by rw [hring]) le_rfl (by rw [hring]; exact hfit) (Nat.zero_le _)
  rw [hring] at htakes
  simpa only [Dev.fill, hring, Dev.newEntry, List.nil_append] using htakes

/-! ### ENTRY_CLOSE (R314) -/

theorem mustClose_iff (d : Dev) (g : Ring) (e : Entry) : d.mustClose g e = true ↔
    g.st = 2 ∨ e.openFn + g.entFrames ≤ d.fn + 1 ∨ g.wait.head?.any (fun w => decide (g.bufKb * 256 - wordCount e.recs < w.length)) = true
      ∨ e.recs.any (fun w => decide (d.fnOfFi (recFi (natsOf w)) + 126 ≤ d.fn)) = true := by
  unfold Dev.mustClose Ring.room
  cases g.wait <;> simp [or_assoc]

/-- An entry closed in frame `fn`. -/
def Entry.shut (fn : Nat) (more : Bool) (x : Entry) : Entry := { x with isOpen := false, closed := true, closeFn := fn, more := more }

theorem entryClose_eq {d : Dev} {r : Nat} {e : Entry} (hup : d.up = true) (hopen : (d.ring r).openEntry = some e) :
    d.entryClose r = if d.mustClose (d.ring r) e then
        d.setRing r { d.ring r with entries := updFirst (·.isOpen) (Entry.shut d.fn (d.ring r).goesOn) (d.ring r).entries }
      else d := by
  unfold Dev.entryClose
  dsimp only
  rw [hopen]
  dsimp only
  rw [hup]
  cases d.mustClose (d.ring r) e <;> rfl

/-! ### Head words (R316, R317, R319) -/

theorem pack_cons (lo width v : Nat) (fs : List (Nat × Nat × Nat)) : pack ((lo, width, v) :: fs) = v % 2 ^ width * 2 ^ lo + pack fs := by
  rw [pack, List.map_cons, List.sum_cons, pack, fieldAt]

/-- The flags of a head word, STOPPED in bit 30 (R316). -/
theorem bitOf_headFlags (fi rewinds error : Nat) (stopped : Bool) :
    bitOf (w32 (pack [(0, 24, fi), (26, 3, rewinds), (29, 1, error), (30, 1, b2n stopped)])).toNat 30 = stopped := by
  have hnil : pack [] = 0 := rfl
  have hbit : b2n stopped < 2 := by cases stopped <;> decide
  have hword : pack [(0, 24, fi), (26, 3, rewinds), (29, 1, error), (30, 1, b2n stopped)] % 4294967296 / 1073741824 % 2 = b2n stopped := by
    rw [pack_cons, pack_cons, pack_cons, pack_cons, hnil]
    omega
  rw [w32, BitVec.toNat_ofNat, bitOf]
  cases stopped <;> simpa [b2n] using hword

/-- Head word `r` of a ring in state `g` written. -/
theorem headWord_written (d : Dev) (g : Ring) (addr : Nat) (out : List Out) :
    HeadWordWritten addr (g.head % 2 ^ 32) g.stopped out (.hostWrite addr (wordsOf (d.headWord g)) :: out) :=
  ⟨_, _, rfl, by simp [w32], bitOf_headFlags _ _ _ _⟩

theorem writeHead_eq {d : Dev} (hlink : d.linkUp = true) (r : Nat) :
    d.writeHead r = (d.emit (.hostWrite (d.base64 Reg.HR_HEAD_BASE_LO_ADDR_LO Reg.HR_HEAD_BASE_HI_ADDR_HI + 8 * r)
      (wordsOf (d.headWord (d.ring r))))).setRing r { d.ring r with lastHeadFn := d.fn } := by
  unfold Dev.writeHead
  rw [if_neg (by simp [hlink])]
  rfl

/-- The vectors pending once ring `g` has advanced HEAD (R321). -/
def Ring.pends (g : Ring) (pend : List Nat) : List Nat := if g.intEn = true ∧ g.vec ∉ pend then pend ++ [g.vec] else pend

theorem pendVec_eq (d : Dev) (r : Nat) : d.pendVec r = { d with hr := { d.hr with vecPend := (d.ring r).pends d.hr.vecPend } } := by
  have hcond : ((d.ring r).intEn && !d.hr.vecPend.contains (d.ring r).vec) = true ↔ (d.ring r).intEn = true ∧ (d.ring r).vec ∉ d.hr.vecPend := by simp
  unfold Dev.pendVec Ring.pends
  dsimp only
  by_cases h : (d.ring r).intEn = true ∧ (d.ring r).vec ∉ d.hr.vecPend
  · rw [if_pos (hcond.2 h), if_pos h]
  · rw [if_neg (mt hcond.1 h), if_neg h]

/-- HEAD advanced with the link up: its head word written and its vector pending. -/
theorem advanceHead_spec {d : Dev} (hlink : d.linkUp = true) (r h : Nat) :
    (d.advanceHead r h).ring r = { d.ring r with head := h % 2 ^ 32, lastHeadFn := d.fn }
    ∧ (∀ q, q ≠ r → (d.advanceHead r h).ring q = d.ring q)
    ∧ HeadWordWritten (d.base64 Reg.HR_HEAD_BASE_LO_ADDR_LO Reg.HR_HEAD_BASE_HI_ADDR_HI + 8 * r) (h % 2 ^ 32) (d.ring r).stopped d.out (d.advanceHead r h).out
    ∧ (d.advanceHead r h).hr.vecPend = (d.ring r).pends d.hr.vecPend
    ∧ d.advanceHead r h = { d with out := (d.advanceHead r h).out, hr := { d.hr with
        rings := (d.advanceHead r h).hr.rings, vecPend := (d.advanceHead r h).hr.vecPend } } := by
  have hring : (d.setRing r { d.ring r with head := h % 2 ^ 32 }).ring r = { d.ring r with head := h % 2 ^ 32 } := Dev.ring_setRing_same _ _ _
  have hheadOf : d.advanceHead r h = ((d.setRing r { d.ring r with head := h % 2 ^ 32 }).writeHead r).pendVec r := rfl
  rw [hheadOf, pendVec_eq, writeHead_eq (d := d.setRing r { d.ring r with head := h % 2 ^ 32 }) hlink]
  refine ⟨?_, fun q hq => ?_, ?_, ?_, rfl⟩
  · rw [hring]
    exact Dev.ring_setRing_same _ _ _
  · rw [hring]
    refine (Dev.ring_setRing _ _ _ _).trans ((if_neg hq).trans ?_)
    exact (Dev.ring_setRing _ _ _ _).trans (if_neg hq)
  · rw [hring]
    have hword := headWord_written (d.setRing r { d.ring r with head := h % 2 ^ 32 }) { d.ring r with head := h % 2 ^ 32 }
      (d.base64 Reg.HR_HEAD_BASE_LO_ADDR_LO Reg.HR_HEAD_BASE_HI_ADDR_HI + 8 * r) d.out
    rwa [Nat.mod_mod] at hword
  · rw [hring, Dev.ring_setRing_same]
    rfl

/-! ### ENTRY_WRITEBACK and HEAD_WORD_HEARTBEAT (R314, R317, R318) -/

/-- The oldest entry not yet written marked as written. -/
def Ring.writeOldest (g : Ring) : Ring := { g with entries := updFirst (fun x => !x.written) (fun x => { x with written := true }) g.entries }

theorem entryWriteback_eq {d : Dev} {r : Nat} {e : Entry} (hrun : d.ringsRun = true) (htyp : (d.ring r).typ ≠ 3)
    (hfind : (d.ring r).entries.find? (fun e => !e.written) = some e) (hclosed : e.closed = true) (hfn : e.closeFn < d.fn) :
    d.entryWriteback r = ((d.emit (.hostWrite ((d.ring r).slotAddr e.j) (wordsOf (descWords e)))).setRing r (d.ring r).writeOldest).advanceHead r
      ((d.ring r).head + 1) := by
  unfold Dev.entryWriteback
  dsimp only
  rw [if_neg (by simp [hrun]), if_neg htyp, hfind]
  dsimp only
  rw [if_pos (by simp [hclosed, hfn])]
  rfl

theorem heartbeat_eq {d : Dev} {r : Nat} (hrun : d.ringsRun = true) (hst : (d.ring r).st = 1) :
    d.heartbeat r = if (d.ring r).hb ≠ 0 ∧ (d.ring r).lastHeadFn + (d.ring r).hb ≤ d.fn then d.writeHead r else d := by
  unfold Dev.heartbeat
  dsimp only
  simp [hrun, hst, whenD]

/-! ### MSI-X (R321) -/

theorem vecQuiet_eq (d : Dev) (v : Nat) :
    d.vecQuiet v = (d.hr.vecLast.find? fun p => p.1 == v).all fun p => decide (p.2 + d.vecHold v < d.fn) := by
  unfold Dev.vecQuiet
  split
  next p h => rw [h, Option.all_some]
  next h => rw [h, Option.all_none]

@[simp] theorem msixWord_setMsix_same (d : Dev) (k v : Nat) : (d.setMsix k v).msixWord k = v % 2 ^ 32 := getT_putT_same _ _ _ _

theorem msixWord_setMsix_ne (d : Dev) {k j : Nat} (h : j ≠ k) (v : Nat) : (d.setMsix k v).msixWord j = d.msixWord j := getT_putT_ne _ h _ _

theorem msixSend_eq {d : Dev} {v : Nat} (hrun : d.ringsRun = true) (hon : d.hr.msixOn = true) (hpend : v ∈ d.hr.vecPend) :
    d.msixSend v = if d.vecMasked v then d.setMsix (256 + v / 32) (setBit (d.msixWord (256 + v / 32)) (v % 32))
      else if d.vecQuiet v && !d.hr.msixDue.contains v then { d with hr := { d.hr with msixDue := d.hr.msixDue ++ [v] } } else d := by
  unfold Dev.msixSend
  dsimp only
  rw [if_neg (by simp [hrun, hon, hpend])]

/-- A vector whose message is due already, and not masked, asks for none. -/
theorem msixSend_of_due {d : Dev} {v : Nat} (hmask : d.vecMasked v = false) (hdue : v ∈ d.hr.msixDue) : d.msixSend v = d := by
  unfold Dev.msixSend
  dsimp only
  split
  · rfl
  · rw [if_neg (by simp [hmask]), if_neg (by simp [hdue])]

theorem msixEnd_single {d : Dev} {v : Nat} (hpend : d.hr.vecPend = [v]) (hdue : d.hr.msixDue = [v]) (hmask : d.vecMasked v = false) :
    d.msixEnd = Dev.msixOut { d with hr := { d.hr with msixDue := [] } } v := by
  have hsend : d.hr.vecPend.foldl Dev.msixSend d = d := by
    rw [hpend]
    exact msixSend_of_due hmask (by simp [hdue])
  unfold Dev.msixEnd
  rw [hsend]
  dsimp only
  rw [hdue, List.filter_cons_of_pos (by simp [hmask])]
  rfl

/-! ### EVENTS_LOST_WRITE (R331) -/

theorem linkUp_putRing (d : Dev) (r : Nat) (g : Ring) : (d.putRing r g).linkUp = d.linkUp :=
  congrArg (· != 0) ((talks_putRing d r g).2 Reg.HR_LINK_STATUS_LINK_UP List.not_mem_nil (notTalk (.inr (by decide)) (by decide)))

theorem putRing_keeps (d : Dev) (r : Nat) (g : Ring) : RegsKeepAll ringKeys d (d.putRing r g) :=
  regsKeepAll_trans (regsKeepAll_trans (b := d.setRing r g) (fun _ _ => rfl) (regsKeepAll_set_of_mem (f := Reg.EGR_POOL_FREE_PAGES) (by decide)))
    (regsKeepAll_set_of_mem (f := Reg.EGR_POOL_LOW_WATER) (by decide))

theorem unwritten_nil {es : List Entry} (h : es.all (·.written) = true) : es.filter (fun e => !e.written) = [] :=
  List.filter_eq_nil_iff.2 fun e he => by simpa using List.all_eq_true.1 h e he

theorem rewriteEvents_of_written {d : Dev} {r : Nat} (h : (d.ring r).entries.all (·.written) = true) : d.rewriteEvents r = d.setRing r (d.ring r) := by
  have hsame : (d.ring r).entries.map (fun e => { e with written := true }) = (d.ring r).entries := by
    refine (List.map_congr_left fun e he => ?_).trans (List.map_id _)
    have hw := List.all_eq_true.1 h e he
    cases e
    simpa using hw.symm
  unfold Dev.rewriteEvents
  dsimp only
  rw [unwritten_nil h, hsame]
  rfl

theorem writeEvents_lost {d : Dev} {r : Nat} (hlost : 0 < (d.ring r).lost) (hwait : (d.ring r).wait = [])
    (hwritten : (d.ring r).entries.all (·.written) = true) (hfree : 0 < (d.ring r).freeEntries) :
    ∃ e : Entry, ∃ o : Out, d.writeEvents r = (((d.setRing r (d.ring r)).putRing r
      { d.ring r with wait := [], lost := 0, entries := (d.ring r).entries ++ [e] }).emit o).advanceHead r ((d.ring r).head % 2 ^ 32 + 1) := by
  unfold Dev.writeEvents
  dsimp only
  rw [rewriteEvents_of_written hwritten, Dev.ring_setRing_same, unwritten_nil hwritten, hwait, if_pos (show 0 < (d.ring r).lost ∧ 0 < (d.ring r).freeEntries from ⟨hlost, hfree⟩)]
  have hone (x : List Word) : [x].length ≤ (d.ring r).freeEntries := hfree
  simp only [List.take_of_length_le (hone _), List.drop_of_length_le (hone _),
    if_pos hfree, List.zipIdx_singleton, List.map_cons, List.map_nil, List.isEmpty_cons, List.foldl_cons, List.foldl_nil, List.length_cons, List.length_nil,
    Nat.add_zero, Bool.false_eq_true, and_false, if_false]
  exact ⟨_, _, rfl⟩

/-! ### The clauses of O54 on entries, head words and messages -/

theorem entryOpen_spec {r buf : Nat} {s : State} (hr : r < 4096) (h : CanOpen s.dev r) :
    Answers (.entryOpen r buf) s fun t =>
      (buf % 8 ≠ 0 → (t.dev.ring r).st = 2 ∧ t.dev.get Reg.HR_RING_ERR_RING = r ∧ t.dev.get Reg.HR_RING_ERR_CAUSE = 3)
      ∧ .hostRead ((s.dev.ring r).base + 32 * ((s.dev.ring r).nextJ % 2 ^ (s.dev.ring r).log2)) 8 ∈ t.dev.out
      ∧ (buf % 8 = 0 → (∀ w ∈ (s.dev.ring r).wait, w.length ≤ (s.dev.ring r).bufKb * 256) →
          (t.dev.ring r).entries.dropLast = (s.dev.ring r).entries
          ∧ ∃ e ∈ (t.dev.ring r).entries.getLast?, e.j = (s.dev.ring r).nextJ ∧ e.buf = buf ∧ e.openFn = s.dev.fn
            ∧ e.isOpen = true ∧ e.written = false ∧ e.recs ++ (t.dev.ring r).wait = (s.dev.ring r).wait
            ∧ wordCount e.recs ≤ (s.dev.ring r).bufKb * 256 ∧ (t.dev.ring r).head = (s.dev.ring r).head
            ∧ ∀ w ∈ (t.dev.ring r).wait.head?, (s.dev.ring r).bufKb * 256 < wordCount e.recs + w.length)
      ∧ t = { s with dev := { talked s.dev t.dev with out := t.dev.out, rcd := { s.dev.rcd with seqs := t.dev.rcd.seqs } } }
      ∧ RegsKeep (ringKeys ++ [Reg.GLB_LADDER_LOSS_LOSS_RECORDS.key]) s.dev t.dev := by
  have htalk := entryOpen_talk h buf
  have hall := (RingTalk.emit s.dev (.hostRead ((s.dev.ring r).slotAddr (s.dev.ring r).nextJ) 8)).trans htalk
  refine ⟨_, onUnit_of_lt hr _ s, entryOpen_misaligned hr h, htalk.out.subset List.mem_cons_self, fun hbuf hfit => ?_,
    congrArg (fun d : Dev => { s with dev := d }) hall.work, hall.regs⟩
  obtain ⟨rs, hentries, hqueue, hcount, hhead, hnext⟩ := entryOpen_takes h hbuf hfit
  dsimp only
  rw [hentries, List.dropLast_concat, List.getLast?_concat]
  exact ⟨rfl, _, rfl, rfl, rfl, rfl, rfl, rfl, hqueue, hcount, hhead, hnext⟩

theorem entryClose_spec {r : Nat} {e : Entry} {s : State} (hr : r < 4096) (hup : s.dev.up = true) (hopen : (s.dev.ring r).openEntry = some e) :
    (s.dev.mustClose (s.dev.ring r) e = true → Answers (.entryClose r) s fun t =>
      (∃ more : Bool, (t.dev.ring r).entries = updFirst (·.isOpen) (Entry.shut s.dev.fn more) (s.dev.ring r).entries)
      ∧ (∀ q : Nat, q ≠ r → t.dev.ring q = s.dev.ring q)
      ∧ t = { s with dev := { s.dev with hr := { s.dev.hr with rings := t.dev.hr.rings } } })
    ∧ (s.dev.mustClose (s.dev.ring r) e ≠ true → exec (.entryClose r) s = .next s) := by
  have hexec : exec (.entryClose r) s = .next { s with dev := s.dev.entryClose r } := onUnit_of_lt hr _ s
  rw [entryClose_eq hup hopen] at hexec
  refine ⟨fun hdue => ⟨_, hexec, ?_⟩, fun hnot => by rw [hexec, if_neg hnot]⟩
  rw [if_pos hdue]
  refine ⟨⟨_, congrArg Ring.entries (Dev.ring_setRing_same _ _ _)⟩, fun q hq => ?_, rfl⟩
  exact (Dev.ring_setRing _ _ _ _).trans (if_neg hq)

theorem entryWriteback_spec {r : Nat} {e : Entry} {s : State} (hr : r < 4096) (hrun : s.dev.ringsRun = true) (htyp : (s.dev.ring r).typ ≠ 3)
    (hfind : (s.dev.ring r).entries.find? (fun e => !e.written) = some e) (hclosed : e.closed = true) (hfn : e.closeFn < s.dev.fn) :
    Answers (.entryWriteback r) s fun t =>
      (t.dev.ring r).entries = updFirst (fun x => !x.written) (fun x => { x with written := true }) (s.dev.ring r).entries
      ∧ (t.dev.ring r).head = ((s.dev.ring r).head + 1) % 2 ^ 32
      ∧ HeadWordWritten (s.dev.get Reg.HR_HEAD_BASE_LO_ADDR_LO + s.dev.get Reg.HR_HEAD_BASE_HI_ADDR_HI * 2 ^ 32 + 8 * r)
          (((s.dev.ring r).head + 1) % 2 ^ 32) (s.dev.ring r).stopped
          (.hostWrite ((s.dev.ring r).base + 32 * (e.j % 2 ^ (s.dev.ring r).log2)) (wordsOf (descWords e)) :: s.dev.out) t.dev.out
      ∧ t.dev.hr.vecPend = (if (s.dev.ring r).intEn = true ∧ (s.dev.ring r).vec ∉ s.dev.hr.vecPend then s.dev.hr.vecPend ++ [(s.dev.ring r).vec]
          else s.dev.hr.vecPend)
      ∧ (∀ q : Nat, q ≠ r → t.dev.ring q = s.dev.ring q)
      ∧ t = { s with dev := { s.dev with out := t.dev.out, hr := { s.dev.hr with rings := t.dev.hr.rings, vecPend := t.dev.hr.vecPend } } } := by
  have hexec : exec (.entryWriteback r) s = .next { s with dev := s.dev.entryWriteback r } := onUnit_of_lt hr _ s
  refine ⟨_, hexec, ?_⟩
  dsimp only
  rw [entryWriteback_eq hrun htyp hfind hclosed hfn]
  have hadvance := advanceHead_spec
    (d := (s.dev.emit (.hostWrite ((s.dev.ring r).slotAddr e.j) (wordsOf (descWords e)))).setRing r (s.dev.ring r).writeOldest)
    (linkUp_of_ringsRun hrun) r ((s.dev.ring r).head + 1)
  rw [Dev.ring_setRing_same] at hadvance
  obtain ⟨hring, hothers, hword, hpend, hwork⟩ := hadvance
  refine ⟨congrArg Ring.entries hring, congrArg Ring.head hring, hword, hpend, fun q hq => ?_, congrArg (fun d : Dev => { s with dev := d }) hwork⟩
  exact (hothers q hq).trans ((Dev.ring_setRing _ _ _ _).trans (if_neg hq))

theorem heartbeat_spec {r : Nat} {s : State} (hr : r < 4096) (hrun : s.dev.ringsRun = true) (hst : (s.dev.ring r).st = 1) :
    ((s.dev.ring r).hb ≠ 0 → (s.dev.ring r).lastHeadFn + (s.dev.ring r).hb ≤ s.dev.fn → Answers (.headWordHeartbeat r) s fun t =>
      t.dev.ring r = { s.dev.ring r with lastHeadFn := s.dev.fn } ∧ (∀ q : Nat, q ≠ r → t.dev.ring q = s.dev.ring q)
      ∧ HeadWordWritten (s.dev.get Reg.HR_HEAD_BASE_LO_ADDR_LO + s.dev.get Reg.HR_HEAD_BASE_HI_ADDR_HI * 2 ^ 32 + 8 * r)
          ((s.dev.ring r).head % 2 ^ 32) (s.dev.ring r).stopped s.dev.out t.dev.out
      ∧ t = { s with dev := { s.dev with out := t.dev.out, hr := { s.dev.hr with rings := t.dev.hr.rings } } })
    ∧ ((s.dev.ring r).hb = 0 ∨ s.dev.fn < (s.dev.ring r).lastHeadFn + (s.dev.ring r).hb → exec (.headWordHeartbeat r) s = .next s) := by
  have hexec : exec (.headWordHeartbeat r) s = .next { s with dev := s.dev.heartbeat r } := onUnit_of_lt hr _ s
  rw [heartbeat_eq hrun hst] at hexec
  refine ⟨fun hhb hdue => ⟨_, hexec, ?_⟩, fun hnot => by rw [hexec, if_neg (by omega)]⟩
  rw [if_pos ⟨hhb, hdue⟩, writeHead_eq (linkUp_of_ringsRun hrun)]
  exact ⟨Dev.ring_setRing_same _ _ _, fun q hq => (Dev.ring_setRing _ _ _ _).trans (if_neg hq), headWord_written _ _ _ _, rfl⟩

theorem msixSend_spec {v : Nat} {s : State} (hv : v < 64) (hrun : s.dev.ringsRun = true) (hon : s.dev.hr.msixOn = true) (hpend : v ∈ s.dev.hr.vecPend) :
    Answers (.msixSend v) s fun t =>
      (s.dev.vecMasked v = true → t.dev.msixWord (256 + v / 32) = setBit (s.dev.msixWord (256 + v / 32)) (v % 32) % 2 ^ 32 ∧ t.dev.hr.msixDue = s.dev.hr.msixDue)
      ∧ (s.dev.vecMasked v = false → t.dev.hr.msix = s.dev.hr.msix)
      ∧ (s.dev.vecMasked v = false → s.dev.vecQuiet v = true → v ∉ s.dev.hr.msixDue → t.dev.hr.msixDue = s.dev.hr.msixDue ++ [v])
      ∧ (s.dev.vecMasked v = false → s.dev.vecQuiet v = false ∨ v ∈ s.dev.hr.msixDue → t = s)
      ∧ (∀ k : Nat, k ≠ 256 + v / 32 → t.dev.msixWord k = s.dev.msixWord k)
      ∧ t = { s with dev := { s.dev with hr := { s.dev.hr with msixDue := t.dev.hr.msixDue, msix := t.dev.hr.msix } } } := by
  have hexec : exec (.msixSend v) s = .next { s with dev := s.dev.msixSend v } := onUnit_of_lt hv _ s
  rw [msixSend_eq hrun hon hpend] at hexec
  refine ⟨_, hexec, ?_⟩
  cases hmask : s.dev.vecMasked v with
  | true =>
    exact ⟨fun _ => ⟨msixWord_setMsix_same _ _ _, rfl⟩, fun h => absurd h (by decide), fun h => absurd h (by decide), fun h => absurd h (by decide),
      fun k hk => msixWord_setMsix_ne _ hk _, rfl⟩
  | false =>
    by_cases hsend : s.dev.vecQuiet v = true ∧ v ∉ s.dev.hr.msixDue
    · have hcond : (s.dev.vecQuiet v && !s.dev.hr.msixDue.contains v) = true := by simpa using hsend
      rw [if_neg Bool.noConfusion, if_pos hcond]
      refine ⟨fun h => absurd h (by decide), fun _ => rfl, fun _ _ _ => rfl, fun _ hnot => ?_, fun _ _ => rfl, rfl⟩
      exact absurd hsend (by rcases hnot with h | h <;> simp [h])
    · have hcond : ¬ (s.dev.vecQuiet v && !s.dev.hr.msixDue.contains v) = true := by simpa using hsend
      rw [if_neg Bool.noConfusion, if_neg hcond]
      exact ⟨fun h => absurd h (by decide), fun _ => rfl, fun _ hq hn => absurd ⟨hq, hn⟩ hsend, fun _ _ => rfl, fun _ _ => rfl, rfl⟩

theorem msixEnd_spec {v : Nat} {d : Dev} (hpend : d.hr.vecPend = [v]) (hdue : d.hr.msixDue = [v]) (hmask : d.vecMasked v = false) :
    d.msixEnd.out = .msix v :: d.out ∧ d.msixEnd.hr.vecPend = [] ∧ d.msixEnd.hr.msixDue = [] ∧ d.msixEnd.hr.vecLast = putT v d.fn d.hr.vecLast
    ∧ d.msixEnd.msixWord (256 + v / 32) = clearBit (d.msixWord (256 + v / 32)) (v % 32) % 2 ^ 32 := by
  rw [msixEnd_single hpend hdue hmask]
  refine ⟨rfl, ?_, rfl, rfl, msixWord_setMsix_same _ _ _⟩
  show d.hr.vecPend.filter (· != v) = []
  rw [hpend]
  simp

theorem eventsLost_spec {r : Nat} {s : State} (hr : r < 4096) (hrun : s.dev.ringsRun = true) (hst : (s.dev.ring r).st = 1) (htyp : (s.dev.ring r).typ = 3)
    (hlost : 0 < (s.dev.ring r).lost) (hwait : (s.dev.ring r).wait = []) (hwritten : (s.dev.ring r).entries.all (·.written) = true)
    (hroom : cntDiff ((s.dev.ring r).head % 2 ^ 32) (s.dev.ring r).confirm < 2 ^ (s.dev.ring r).log2) :
    Answers (.eventsLostWrite r) s fun t =>
      (t.dev.ring r).lost = 0 ∧ (t.dev.ring r).head = ((s.dev.ring r).head + 1) % 2 ^ 32
      ∧ (t.dev.ring r).entries.length = (s.dev.ring r).entries.length + 1 ∧ (∀ q : Nat, q ≠ r → t.dev.ring q = s.dev.ring q)
      ∧ t = { s with dev := { s.dev with
          regs := t.dev.regs, out := t.dev.out, hr := { s.dev.hr with rings := t.dev.hr.rings, vecPend := t.dev.hr.vecPend } } }
      ∧ RegsKeepAll ringKeys s.dev t.dev := by
  have hfree : 0 < (s.dev.ring r).freeEntries := by
    rw [Ring.freeEntries, Ring.nextJ, unwritten_nil hwritten]
    exact Nat.sub_pos_of_lt hroom
  obtain ⟨e, o, hwrite⟩ := writeEvents_lost hlost hwait hwritten hfree
  have hexec : exec (.eventsLostWrite r) s = .next { s with dev := s.dev.eventsLost r } := onUnit_of_lt hr _ s
  have heq : s.dev.eventsLost r = s.dev.writeEvents r := by
    unfold Dev.eventsLost
    exact if_pos (by simp [hrun, hst, htyp, hlost, hfree])
  rw [heq, hwrite] at hexec
  refine ⟨_, hexec, ?_⟩
  generalize hput : ((s.dev.setRing r (s.dev.ring r)).putRing r { s.dev.ring r with wait := [], lost := 0, entries := (s.dev.ring r).entries ++ [e] }).emit o = d
  have hring : d.ring r = { s.dev.ring r with wait := [], lost := 0, entries := (s.dev.ring r).entries ++ [e] } := by
    rw [← hput]; exact (ring_putRing _ _ _ _).trans (if_pos rfl)
  have hlink : d.linkUp = true := by
    rw [← hput]
    exact (linkUp_putRing _ _ _).trans (linkUp_of_ringsRun hrun)
  obtain ⟨hring', hothers, -, -, hwork⟩ := advanceHead_spec hlink r ((s.dev.ring r).head % 2 ^ 32 + 1)
  rw [hring] at hring'
  refine ⟨congrArg Ring.lost hring', (congrArg Ring.head hring').trans (Nat.mod_add_mod _ _ _), ?_, fun q hq => ?_, ?_, ?_⟩
  · exact (congrArg (fun g : Ring => g.entries.length) hring').trans (by simp)
  · refine (hothers q hq).trans ?_
    rw [← hput]
    exact (ring_putRing _ _ _ _).trans ((if_neg hq).trans ((Dev.ring_setRing _ _ _ _).trans (if_neg hq)))
  · have hregs : (d.advanceHead r ((s.dev.ring r).head % 2 ^ 32 + 1)).regs = d.regs := by rw [hwork]
    refine congrArg (fun d : Dev => { s with dev := d }) ?_
    rw [hregs]
    conv_lhs => rw [hwork]
    rw [← hput]
    rfl
  · have hput' : RegsKeepAll ringKeys s.dev d := by
      rw [← hput]
      exact putRing_keeps (s.dev.setRing r (s.dev.ring r)) r _
    exact fun f hf => Eq.trans (by rw [hwork]; rfl) (hput' f hf)

end Sys2Proof.Machine
end

section
/-! PROOF. The egress deadline: every receive ring's queue keeps only loss records and records in time; O54 from it. -/
namespace Sys2Proof.Machine
open Sys2Proof.Safety

/-! ### What the deadline changes (R230, R333) -/

/-- Records move, and a loss record that finds no room is counted. -/
structure DeadlineStep (d t : Dev) : Prop where
  work : t = { talked d t with
    out := t.out, rcd := { d.rcd with seqs := t.rcd.seqs }, hr := { d.hr with rings := t.hr.rings, lossWait := t.hr.lossWait } }
  regs : RegsKeep (ringKeys ++ [Reg.GLB_LADDER_LOSS_LOSS_RECORDS.key, Reg.HR_LOSS_UNWRITTEN_COUNT.key]) d t
  rings : ∀ r, (d.ring r).GoesOn (t.ring r)

theorem DeadlineStep.trans {a b c : Dev} (h : DeadlineStep a b) (k : DeadlineStep b c) : DeadlineStep a c :=
  ⟨by rw [k.work, h.work]; rfl, regsKeep_trans h.regs k.regs, fun r => (h.rings r).trans (k.rings r)⟩

theorem RecStep.deadline {d t : Dev} (h : RecStep d t) : DeadlineStep d t :=
  ⟨by rw [h.work]; rfl, regsKeep_mono h.regs fun k hk => by simp only [List.mem_append, List.mem_cons] at hk ⊢; tauto, h.rings⟩

theorem DeadlineStep.refl (d : Dev) : DeadlineStep d d := (RecStep.refl d).deadline

theorem unwritten_step (d : Dev) (l : Loss) : DeadlineStep d (d.unwritten l) :=
  ⟨rfl, regsKeep_set_of_mem (f := Reg.HR_LOSS_UNWRITTEN_COUNT) (by simp), fun _ => .refl _⟩

/-! ### Losses in place of records -/

theorem loseIn_step (r : Nat) (acc : List (List Word) × Dev) (l : Loss) :
    DeadlineStep acc.2 (Dev.loseIn r acc l).2 ∧ ∀ w ∈ (Dev.loseIn r acc l).1, recTyp (natsOf w) = 4 ∨ w ∈ acc.1 := by
  unfold Dev.loseIn
  dsimp only
  split
  · exact ⟨(setRing_step (goesOn_wait fun _ => mem_addLoss)).deadline, fun _ => .inr⟩
  · split
    · exact ⟨(setRing_step (goesOn_hold fun _ => mem_addLoss)).deadline, fun _ => .inr⟩
    · split
      · exact ⟨unwritten_step _ l, fun _ => .inr⟩
      · refine ⟨((RecStep.of_rings (nextSeq_talk acc.2 201) fun _ => rfl).trans (.set (by decide))).deadline, fun w hw => ?_⟩
        refine (List.mem_append.1 hw).elim .inr fun hw => .inl ?_
        obtain rfl := List.mem_singleton.1 hw
        exact (recTyp_wordsOf _).trans (recTyp_lossWords _)

theorem foldl_loseIn (r : Nat) (ls : List Loss) (acc : List (List Word) × Dev) :
    DeadlineStep acc.2 (ls.foldl (Dev.loseIn r) acc).2 ∧ ∀ w ∈ (ls.foldl (Dev.loseIn r) acc).1, recTyp (natsOf w) = 4 ∨ w ∈ acc.1 := by
  induction ls generalizing acc with
  | nil => exact ⟨.refl _, fun _ => .inr⟩
  | cons l ls ih =>
    obtain ⟨hstep, hnew⟩ := loseIn_step r acc l
    obtain ⟨hsteps, hnews⟩ := ih (Dev.loseIn r acc l)
    exact ⟨hstep.trans hsteps, fun w hw => (hnews w hw).elim .inl (hnew w)⟩

/-! ### One ring at the deadline -/

/-- A record past its deadline: no loss record, and of a frame 128 frames back or more (R35). -/
def Dev.isLate (d : Dev) (w : List Word) : Bool := recTyp (natsOf w) != 4 && decide (d.fnOfFi (recFi (natsOf w)) + 128 ≤ d.fn)

/-- Of a receive ring's queue no record is late. -/
def Dev.InTime (d : Dev) (r : Nat) : Prop := (d.ring r).typ = 1 → ∀ w ∈ (d.ring r).wait ++ (d.ring r).hold, d.isLate w = false

theorem DeadlineStep.isLate {d t : Dev} (h : DeadlineStep d t) (w : List Word) : t.isLate w = d.isLate w := by
  rw [h.work]
  rfl

theorem isLate_of_loss {w : List Word} (h : recTyp (natsOf w) = 4) (d : Dev) : d.isLate w = false := by simp [Dev.isLate, h]

theorem DeadlineStep.inTime {d t : Dev} (h : DeadlineStep d t) {r : Nat} (hr : d.InTime r) : t.InTime r := by
  intro htyp w hw
  have htyp' := (h.rings r).typ.symm.trans htyp
  rw [h.isLate]
  exact ((h.rings r).came htyp' w hw).elim (fun hloss => isLate_of_loss hloss d) (hr htyp' w)

/-- The queue of ring `r` without its late records. -/
def Dev.dropLateRecs (d : Dev) (r : Nat) : Dev :=
  d.putRing r ((d.ring r).withQueue ((d.ring r).wait.filter fun w => !d.isLate w) ((d.ring r).hold.filter fun w => !d.isLate w))

theorem dropLateRecs_step (d : Dev) (r : Nat) : DeadlineStep d (d.dropLateRecs r) :=
  (putRing_step (goesOn_withQueue (fun _ => List.mem_of_mem_filter) fun _ => List.mem_of_mem_filter)).deadline

theorem dropLateRecs_inTime (d : Dev) (r : Nat) : (d.dropLateRecs r).InTime r := by
  intro _ w hw
  rw [(dropLateRecs_step d r).isLate]
  rw [Dev.dropLateRecs, ring_putRing, if_pos rfl] at hw
  simpa using (List.mem_append.1 hw).elim (fun hw => (List.mem_filter.1 hw).2) fun hw => (List.mem_filter.1 hw).2

/-- Losses put where the late records of ring `r` stood, and its entry filled. -/
def Dev.replaceLate (d : Dev) (r : Nat) (ls : List Loss) : Dev :=
  let out := ls.foldl (Dev.loseIn r) ([], d)
  (out.2.putRing r { out.2.ring r with wait := out.1 ++ (out.2.ring r).wait }).fill r

theorem replaceLate_step (d : Dev) (r : Nat) (ls : List Loss) : DeadlineStep d (d.replaceLate r ls) := by
  obtain ⟨hlose, hnew⟩ := foldl_loseIn r ls ([], d)
  have hnews : ∀ w ∈ (ls.foldl (Dev.loseIn r) ([], d)).1, recTyp (natsOf w) = 4 := fun w hw => (hnew w hw).resolve_right List.not_mem_nil
  refine hlose.trans (RecStep.trans (putRing_step (goesOn_wait fun w hw => ?_)) (fill_step _ r)).deadline
  exact (List.mem_append.1 hw).imp_left (hnews w)

theorem deadlineRing_eq (d : Dev) (r : Nat) :
    d.deadlineRing r = if (((d.ring r).wait ++ (d.ring r).hold).filter d.isLate).isEmpty then d
      else (d.dropLateRecs r).replaceLate r ((d.dropLateRecs r).lossesFor (if (d.dropLateRecs r).linkUp then 5 else 6) false
        (((d.ring r).wait ++ (d.ring r).hold).filter d.isLate)) := rfl

theorem deadlineRing_step (d : Dev) (r : Nat) : DeadlineStep d (d.deadlineRing r) := by
  rw [deadlineRing_eq]
  split
  · exact .refl d
  · exact (dropLateRecs_step d r).trans (replaceLate_step _ r _)

theorem deadlineRing_inTime (d : Dev) (r : Nat) : (d.deadlineRing r).InTime r := by
  rw [deadlineRing_eq]
  split
  next hnone =>
    intro _ w hw
    simpa using List.filter_eq_nil_iff.1 (List.isEmpty_iff.1 hnone) w hw
  next => exact (replaceLate_step _ r _).inTime (dropLateRecs_inTime d r)

/-! ### All receive rings -/

theorem foldl_deadlineRing (ps : List (Nat × Ring)) (d : Dev) :
    DeadlineStep d (ps.foldl (fun d p => d.deadlineRing p.1) d) ∧ ∀ p ∈ ps, (ps.foldl (fun d p => d.deadlineRing p.1) d).InTime p.1 := by
  induction ps generalizing d with
  | nil => exact ⟨.refl d, by simp⟩
  | cons p ps ih =>
    obtain ⟨hsteps, hrest⟩ := ih (d.deadlineRing p.1)
    exact ⟨(deadlineRing_step d p.1).trans hsteps, List.forall_mem_cons.2 ⟨hsteps.inTime (deadlineRing_inTime d p.1), hrest⟩⟩

/-- An entry that is not the default stands in the table. -/
theorem mem_of_getT_ne {α : Type} {x : α} {k : Nat} {t : List (Nat × α)} (h : getT x k t ≠ x) : (k, getT x k t) ∈ t := by
  induction t with
  | nil => exact absurd rfl h
  | cons p t ih =>
    obtain ⟨j, v⟩ := p
    unfold getT at h ⊢
    split
    next hj => exact hj ▸ List.mem_cons_self
    next hj => exact List.mem_cons_of_mem _ (ih (by rwa [if_neg hj] at h))

/-- A ring that takes records is one that the deadline visits. -/
theorem takesRecs_visited {d : Dev} {r : Nat} (h : (d.ring r).takesRecs = true) : (r, d.ring r) ∈ d.hr.rings.filter fun p => p.2.takesRecs := by
  refine List.mem_filter.2 ⟨mem_of_getT_ne fun hinit => ?_, h⟩
  have hst : (d.ring r).takesRecs = Ring.init.takesRecs := congrArg Ring.takesRecs hinit
  rw [hst] at h
  exact absurd h (by decide)

theorem egressDeadline_spec {d : Dev} (hup : d.up = true) (hrole : d.role = .hub) :
    DeadlineStep d d.egressDeadline ∧ ∀ r, (d.egressDeadline.ring r).st = 1 → (d.egressDeadline.ring r).typ = 1 → d.egressDeadline.InTime r := by
  obtain ⟨hstep, htime⟩ := foldl_deadlineRing (d.hr.rings.filter fun p => p.2.takesRecs) d
  have heq : d.egressDeadline = (d.hr.rings.filter fun p => p.2.takesRecs).foldl (fun d p => d.deadlineRing p.1) d := by
    unfold Dev.egressDeadline
    exact if_neg (by simp [hup, hrole])
  rw [heq]
  refine ⟨hstep, fun r hst htyp => htime _ (takesRecs_visited ?_)⟩
  obtain ⟨hst', htyp', -⟩ := hstep.rings r
  rw [Ring.takesRecs, ← hst', ← htyp', hst, htyp]
  rfl

/-- Settles O54: entries, head words and messages by their equations, the deadline by an invariant of every receive ring's queue. -/
theorem entriesAndHeadWords : Obligations.EntriesAndHeadWords := by
  refine ⟨fun r buf s hr hrun hst htyp hwait hopen hposted hfits => entryOpen_spec hr ⟨hrun, hst, htyp, hwait, hopen, hposted, hfits⟩,
    fun r e s hr hup hopen => ?_, fun r e s => entryWriteback_spec, fun r s => heartbeat_spec, fun v s hv hrun hon hpend => ?_,
    fun v d _ hpend hdue hmask hword => msixEnd_spec hpend hdue (by simp [Dev.vecMasked, hmask, hword]), fun r s => eventsLost_spec,
    fun s hup hrole => ?_⟩
  · obtain ⟨hcloses, hstays⟩ := entryClose_spec hr hup hopen
    exact ⟨fun hdue => hcloses ((mustClose_iff _ _ _).2 hdue), fun hnot => hstays (mt (mustClose_iff _ _ _).1 hnot)⟩
  · have hsend := msixSend_spec hv hrun hon hpend
    rw [vecQuiet_eq] at hsend
    exact hsend
  · obtain ⟨hstep, htime⟩ := egressDeadline_spec hup hrole
    refine ⟨_, rfl, fun r hst htyp w hw => ?_, congrArg (fun d : Dev => { s with dev := d }) hstep.work, hstep.regs⟩
    have hlate := htime r hst htyp htyp w hw
    rw [hstep.isLate] at hlate
    simpa [Dev.isLate, or_iff_not_imp_left] using hlate

end Sys2Proof.Machine
end

section
/-! PROOF. A record leaves the encoder-verify engines, verified, raw or past them; O37 from it. -/
namespace Sys2Proof.Machine
open Sys2Proof.Safety

/-! ### A record leaves the engines (R262, R270) -/

/-- The register fields of the FIFO's level (R235). -/
def levelKeys : List Nat := [Reg.REC_FIFO_LEVEL_PAGES_USED.key, Reg.REC_FIFO_LEVEL_HIGH_WATER.key]

/-- A change of the open records moves the FIFO's level and no other register. -/
theorem setOpen_level (d : Dev) (asm ready : List Asm) : RegsKeepAll levelKeys d (d.setOpen asm ready) := by
  have hused (e : Dev) (p : Nat) : RegsKeepAll levelKeys e (e.set Reg.REC_FIFO_LEVEL_PAGES_USED p) := regsKeepAll_set_of_mem (by simp [levelKeys])
  have hhigh (e : Dev) (p : Nat) : RegsKeepAll levelKeys e (e.set Reg.REC_FIFO_LEVEL_HIGH_WATER p) := regsKeepAll_set_of_mem (by simp [levelKeys])
  exact regsKeepAll_trans (hused { d with rcd := { d.rcd with asm := asm, ready := ready } } _) (hhigh _ _)

/-- The open record `old` has become ready as `new`; of the others, some may have entered an engine. -/
structure LeaveStep (old new : Asm) (d t : Dev) : Prop where
  ready : t.rcd.ready = d.rcd.ready ++ [new]
  asm : t.rcd.asm.map (fun x => (x.typ, x.chan, x.fn, x.seq, x.smp)) =
    (d.rcd.asm.filter (fun x => x != old)).map (fun x => (x.typ, x.chan, x.fn, x.seq, x.smp))
  words : t.get Reg.CMP_WORDS_OUT_WORDS_OUT = (d.get Reg.CMP_WORDS_OUT_WORDS_OUT + new.out.length) % 2 ^ 32
  work : t = { d with regs := t.regs, rcd := { d.rcd with asm := t.rcd.asm, ready := t.rcd.ready } }
  regs : RegsKeepAll (Reg.CMP_WORDS_OUT_WORDS_OUT.key :: levelKeys) d t

theorem finish_step (d : Dev) (old new : Asm) : LeaveStep old new d (d.finish old new) := by
  obtain ⟨e, he⟩ : ∃ e, e = d.setOpen (d.rcd.asm.filter fun x => x != old) (d.rcd.ready ++ [new]) := ⟨_, rfl⟩
  have hopen : RegsKeepAll levelKeys d e := he ▸ setOpen_level d _ _
  have henter : RegsKeepAll levelKeys (e.addWrap Reg.CMP_WORDS_OUT_WORDS_OUT new.out.length) (d.finish old new) := he ▸ setOpen_level _ _ _
  refine ⟨rfl, map_asm_enterEngines (fun _ _ => rfl) _, ?_, rfl, ?_⟩
  · calc (d.finish old new).get Reg.CMP_WORDS_OUT_WORDS_OUT
      _ = (e.addWrap Reg.CMP_WORDS_OUT_WORDS_OUT new.out.length).get Reg.CMP_WORDS_OUT_WORDS_OUT := henter _ (by decide)
      _ = (e.get Reg.CMP_WORDS_OUT_WORDS_OUT + new.out.length) % 2 ^ 32 := Dev.get_set_same _ _ _
      _ = (d.get Reg.CMP_WORDS_OUT_WORDS_OUT + new.out.length) % 2 ^ 32 := by rw [hopen _ (by decide)]
  · have hadd : RegsKeepAll [Reg.CMP_WORDS_OUT_WORDS_OUT.key] e (e.addWrap Reg.CMP_WORDS_OUT_WORDS_OUT new.out.length) := regsKeepAll_set e _ _
    exact regsKeepAll_trans (regsKeepAll_mono hopen fun _ => .tail _)
      (regsKeepAll_trans (regsKeepAll_mono hadd (by simp)) (regsKeepAll_mono henter fun _ => .tail _))

/-! ### The counts of COMPRESS_VERIFY_DONE (R266 to R268) -/

/-- The register fields that a verify engine counts in, with those of the fault log. -/
def verifyKeys : List Nat :=
  logKeys ++ [Reg.CMP_RAW_STATS_EXPANDED.key, Reg.CMP_REC_STATS_COMPRESSED.key, Reg.CMP_REC_STATS_DEPENDENT.key,
    Reg.CMP_VERIFY_STATS_VERIFY_FAIL.key, Reg.CMP_VERIFY_STATS_LAST_CAUSE.key]

/-- Nothing changes but those counts and what an entry of the fault log may. -/
structure VerifyStep (d t : Dev) : Prop where
  work : t = { talked d t with flt := t.flt }
  regs : RegsKeep verifyKeys d t

theorem VerifyStep.trans {a b c : Dev} (h : VerifyStep a b) (k : VerifyStep b c) : VerifyStep a c :=
  ⟨by rw [k.work, h.work]; rfl, regsKeep_trans h.regs k.regs⟩

theorem VerifyStep.of_log {d t : Dev} (h : LogStep d t) : VerifyStep d t := ⟨h.work, regsKeep_mono h.regs fun _ => List.mem_append_left _⟩

theorem VerifyStep.set {d : Dev} {f : Fld} {v : Nat} (hf : f.key ∈ verifyKeys) : VerifyStep d (d.set f v) := ⟨rfl, regsKeep_set_of_mem hf⟩

/-- The registers of the Compression block are none of the fault log's, and count no messages. -/
theorem get_compression_of_log {d t : Dev} (h : LogStep d t) {f : Fld} (hf : f.key < 0x5000 * 32) : t.get f = d.get f := by
  have hlog : ∀ j ∈ logKeys, 0x5000 * 32 ≤ j := by decide
  have hevt : 0x5000 * 32 ≤ Reg.HR_DROP_STATS_EVT_DROPPED.key := by decide
  have hfree : 0x5000 * 32 ≤ Reg.EGR_POOL_FREE_PAGES.key := by decide
  have hlow : 0x5000 * 32 ≤ Reg.EGR_POOL_LOW_WATER.key := by decide
  exact h.regs f (fun hk => absurd (hlog _ hk) (by omega)) (notTalk (.inl hf) (by omega))

/-- A count of one that the record's leaving does not touch. -/
theorem LeaveStep.get_addWrap {old new : Asm} {d e : Dev} (h : LeaveStep old new d e) {f : Fld}
    (hf : f.key ∉ Reg.CMP_WORDS_OUT_WORDS_OUT.key :: levelKeys) : (e.addWrap f 1).get f = (d.get f + 1) % 2 ^ f.width := by
  rw [Dev.addWrap_eq, Dev.get_set_same, h.regs f hf]

/-! ### COMPRESS_VERIFY_DONE (R259) -/

/-- What the encoder emits: R255's choice, or what an upset made of it. -/
def Dev.codeOf (d : Dev) (a : Asm) (emitted : Option (List Word)) : List Nat :=
  (emitted.map natsOf).getD (encodeRecord a.width (d.allowedPreds a.cfgFn (d.refSamples a).isSome)
    (if (d.refSamples a).isSome then a.ref else none) a.smp ((d.refSamples a).getD []))

/-- The record with the code `ws` for its payload. -/
def Asm.coded (a : Asm) (ws : List Nat) : Asm := { a with enc := 2, out := wordsOf ws, engine := none }

/-- The record as it leaves the engine: raw where its code is no shorter or does not verify. -/
def Dev.leavesAs (d : Dev) (a : Asm) (ws : List Nat) : Asm :=
  if rawLen a.width a.smp.length ≤ ws.length ∨ (verifyCause a (d.refSamples a) ws).isSome = true then a.raw else a.coded ws

/-- A coded record counts in COMPRESSED, one whose code names a reference in DEPENDENT too (R266). -/
def Dev.countCoded (d : Dev) (ws : List Nat) : Dev :=
  if (preambleRef ws).isSome then (d.addWrap Reg.CMP_REC_STATS_COMPRESSED 1).addWrap Reg.CMP_REC_STATS_DEPENDENT 1
  else d.addWrap Reg.CMP_REC_STATS_COMPRESSED 1

/-- The end of an engine's work on record `a` whose code is `ws`. -/
def Dev.verified (d : Dev) (e : Nat) (a : Asm) (ws : List Nat) : Dev :=
  if rawLen a.width a.smp.length ≤ ws.length then (d.finish a a.raw).addWrap Reg.CMP_RAW_STATS_EXPANDED 1
  else match verifyCause a (d.refSamples a) ws with
    | some c => ((d.finish a a.raw).verifyFail c).logError 7 6 3 false 0 e 0 0
    | none => (d.finish a (a.coded ws)).countCoded ws

theorem compressDone_eq {d : Dev} {e : Nat} {a : Asm} (hup : d.up = true) (hfind : d.rcd.asm.find? (fun x => x.engine == some e) = some a)
    (emitted : Option (List Word)) : d.compressDone e emitted = d.verified e a (d.codeOf a emitted) := by
  unfold Dev.compressDone
  cases emitted <;> simp only [hfind, hup] <;> rfl

section
variable {d : Dev} {e c : Nat} {a : Asm} {ws : List Nat}

theorem verified_expanded (hlen : rawLen a.width a.smp.length ≤ ws.length) :
    d.verified e a ws = (d.finish a a.raw).addWrap Reg.CMP_RAW_STATS_EXPANDED 1 := if_pos hlen

theorem verified_failed (hlen : ws.length < rawLen a.width a.smp.length) (hcause : verifyCause a (d.refSamples a) ws = some c) :
    d.verified e a ws = ((d.finish a a.raw).verifyFail c).logError 7 6 3 false 0 e 0 0 := by
  rw [Dev.verified, if_neg (Nat.not_le.2 hlen), hcause]

theorem verified_coded (hlen : ws.length < rawLen a.width a.smp.length) (hcause : verifyCause a (d.refSamples a) ws = none) :
    d.verified e a ws = (d.finish a (a.coded ws)).countCoded ws := by
  rw [Dev.verified, if_neg (Nat.not_le.2 hlen), hcause]

end

theorem verifyFail_step (d : Dev) (c : Nat) : VerifyStep d (d.verifyFail c) :=
  VerifyStep.trans (b := d.addWrap Reg.CMP_VERIFY_STATS_VERIFY_FAIL 1) (.set (by simp [verifyKeys])) (.set (by simp [verifyKeys]))

theorem countCoded_step (d : Dev) (ws : List Nat) : VerifyStep d (d.countCoded ws) := by
  have hcoded : VerifyStep d (d.addWrap Reg.CMP_REC_STATS_COMPRESSED 1) := .set (by simp [verifyKeys])
  unfold Dev.countCoded
  split
  · exact hcoded.trans (.set (by simp [verifyKeys]))
  · exact hcoded

/-- The record leaves as its length and the verify decoder have it; then one outcome is counted. -/
theorem verified_leaves (d : Dev) (e : Nat) (a : Asm) (ws : List Nat) :
    ∃ l, LeaveStep a (d.leavesAs a ws) d l ∧ VerifyStep l (d.verified e a ws) := by
  unfold Dev.leavesAs
  by_cases hlen : rawLen a.width a.smp.length ≤ ws.length
  · rw [if_pos (.inl hlen), verified_expanded hlen]
    exact ⟨_, finish_step d a a.raw, .set (by simp [verifyKeys])⟩
  · have hlt := Nat.not_le.1 hlen
    cases hcause : verifyCause a (d.refSamples a) ws with
    | some c =>
      rw [if_pos (.inr rfl), verified_failed hlt hcause]
      exact ⟨_, finish_step d a a.raw, (verifyFail_step _ c).trans (.of_log (logError_step _ _ _ _ _ _ _ _ _))⟩
    | none =>
      rw [if_neg (by simp [hlen]), verified_coded hlt hcause]
      exact ⟨_, finish_step d a _, countCoded_step _ ws⟩

/-- A failed verify counts with its cause, and not in EXPANDED (R267, R268). -/
theorem get_verified_failed {d : Dev} {a : Asm} {ws : List Nat} {c : Nat} (hlen : ws.length < rawLen a.width a.smp.length)
    (hcause : verifyCause a (d.refSamples a) ws = some c) (e : Nat) :
    (d.verified e a ws).get Reg.CMP_RAW_STATS_EXPANDED = d.get Reg.CMP_RAW_STATS_EXPANDED
    ∧ (d.verified e a ws).get Reg.CMP_VERIFY_STATS_VERIFY_FAIL = (d.get Reg.CMP_VERIFY_STATS_VERIFY_FAIL + 1) % 65536
    ∧ (d.verified e a ws).get Reg.CMP_VERIFY_STATS_LAST_CAUSE = c % 16 := by
  have hleave := finish_step d a a.raw
  have hlog (f : Fld) (hf : f.key < 0x5000 * 32) : (d.verified e a ws).get f = ((d.finish a a.raw).verifyFail c).get f := by
    rw [verified_failed hlen hcause, get_compression_of_log (logError_step _ _ _ _ _ _ _ _ _) hf]
  rw [hlog _ (by decide), hlog _ (by decide), hlog _ (by decide)]
  unfold Dev.verifyFail
  refine ⟨?_, ?_, Dev.get_set_same _ _ _⟩
  · rw [Dev.get_set_ne _ (by decide), Dev.addWrap_eq, Dev.get_set_ne _ (by decide), hleave.regs _ (by decide)]
  · rw [Dev.get_set_ne _ (by decide), hleave.get_addWrap (by decide)]
    rfl

/-- A verified record counts in COMPRESSED, and not in EXPANDED (R266, R267). -/
theorem get_verified_coded {d : Dev} {a : Asm} {ws : List Nat} (hlen : ws.length < rawLen a.width a.smp.length)
    (hcause : verifyCause a (d.refSamples a) ws = none) (e : Nat) :
    (d.verified e a ws).get Reg.CMP_RAW_STATS_EXPANDED = d.get Reg.CMP_RAW_STATS_EXPANDED
    ∧ (d.verified e a ws).get Reg.CMP_REC_STATS_COMPRESSED = (d.get Reg.CMP_REC_STATS_COMPRESSED + 1) % 65536 := by
  have hleave := finish_step d a (a.coded ws)
  have hdependent (f : Fld) (hf : f.key ≠ Reg.CMP_REC_STATS_DEPENDENT.key) :
      (d.verified e a ws).get f = ((d.finish a (a.coded ws)).addWrap Reg.CMP_REC_STATS_COMPRESSED 1).get f := by
    rw [verified_coded hlen hcause, Dev.countCoded]
    split
    · exact Dev.get_set_ne _ hf _
    · rfl
  rw [hdependent _ (by decide), hdependent _ (by decide)]
  refine ⟨?_, hleave.get_addWrap (by decide)⟩
  rw [Dev.addWrap_eq, Dev.get_set_ne _ (by decide), hleave.regs _ (by decide)]

theorem get_verified_expanded {d : Dev} {a : Asm} {ws : List Nat} (hlen : rawLen a.width a.smp.length ≤ ws.length) (e : Nat) :
    (d.verified e a ws).get Reg.CMP_RAW_STATS_EXPANDED = (d.get Reg.CMP_RAW_STATS_EXPANDED + 1) % 65536 := by
  rw [verified_expanded hlen]
  exact (finish_step d a a.raw).get_addWrap (by decide)

/-- A record that leaves the engines and is counted is where it left to, and its words stay counted. -/
theorem VerifyStep.keeps_leave {old new : Asm} {d l t : Dev} (h : LeaveStep old new d l) (k : VerifyStep l t) :
    t.rcd = l.rcd ∧ t.get Reg.CMP_WORDS_OUT_WORDS_OUT = l.get Reg.CMP_WORDS_OUT_WORDS_OUT
    ∧ t = { talked d t with flt := t.flt, rcd := { d.rcd with asm := t.rcd.asm, ready := t.rcd.ready } }
    ∧ RegsKeep (verifyKeys ++ Reg.CMP_WORDS_OUT_WORDS_OUT.key :: levelKeys) d t := by
  have hrcd : t.rcd = l.rcd := by
    rw [k.work]; rfl
  refine ⟨hrcd, k.regs _ (by decide) (notTalk (by decide) (by decide)), ?_, ?_⟩
  · rw [hrcd]
    conv_lhs => rw [k.work, h.work]
    rfl
  · exact regsKeep_trans (regsKeep_mono (regsKeep_of_regsKeepAll h.regs) fun _ => List.mem_append_right _)
      (regsKeep_mono k.regs fun _ => List.mem_append_left _)

theorem exec_compressVerifyDone {e : Nat} (he : e < 8) {s : State} {a : Asm} (hup : s.dev.up = true)
    (hfind : s.dev.rcd.asm.find? (fun x => x.engine == some e) = some a) (emitted : Option (List Word)) :
    exec (.compressVerifyDone e emitted) s = .next { s with dev := s.dev.verified e a (s.dev.codeOf a emitted) } := by
  rw [← compressDone_eq hup hfind]
  exact onUnit_of_lt he _ s

/-! ### RECORD_BYPASS (R262) -/

theorem bypass_eq {d : Dev} {a : Asm} (hup : d.up = true)
    (hfind : d.rcd.asm.find? (fun x => x.engine.isNone && decide (x.asmFn + 1 < d.fn)) = some a) :
    d.bypass = (d.finish a a.raw).addWrap Reg.CMP_RAW_STATS_BYPASS 1 := by
  simp [Dev.bypass, Dev.bypassIn, hfind, hup]

/-- Settles O37: a record leaves the engines by one operation, coded or raw; each outcome adds its counts. -/
theorem compressionReleasesRecords : Obligations.CompressionReleasesRecords := by
  refine ⟨fun e emitted a s he hup hfind => ?_, fun a s hup hfind => ?_⟩
  · have hexec := exec_compressVerifyDone he hup hfind emitted
    obtain ⟨l, hleave, hverify⟩ := verified_leaves s.dev e a (s.dev.codeOf a emitted)
    obtain ⟨hrcd, hwords, hwork, hregs⟩ := hverify.keeps_leave hleave
    refine ⟨_, hexec, ⟨(congrArg Rcd.ready hrcd).trans hleave.ready, ?_, hwords.trans hleave.words, fun hlen => get_verified_expanded hlen e,
        fun hlen => ?_, fun hlen hcause => ?_, fun c hlen hcause => ?_⟩,
      congrArg (fun d : Dev => { s with dev := d }) hwork, regsKeep_mono hregs ?_⟩
    · rw [← hleave.asm]
      exact congrArg (fun r : Rcd => r.asm.map _) hrcd
    · cases hcause : verifyCause a (s.dev.refSamples a) (s.dev.codeOf a emitted) with
      | none => exact (get_verified_coded hlen hcause e).1
      | some c => exact (get_verified_failed hlen hcause e).1
    · exact (get_verified_coded hlen hcause e).2
    · exact (get_verified_failed hlen hcause e).2
    · simp only [verifyKeys, levelKeys, List.mem_append, List.mem_cons, List.not_mem_nil]
      tauto
  · have hleave := finish_step s.dev a a.raw
    have hexec : exec .recordBypass s = .next { s with dev := s.dev.bypass } := rfl
    rw [bypass_eq hup hfind] at hexec
    refine ⟨_, hexec, hleave.ready, hleave.get_addWrap (by decide), hleave.asm, rfl, ?_⟩
    exact regsKeepAll_trans (regsKeepAll_mono hleave.regs fun _ => .tail _) (regsKeepAll_set_of_mem (by simp))

end Sys2Proof.Machine
end

section
/-! PROOF. A statement that a state refutes: O51 by the counts of a lane's last assay, which a failed hub check restarts. -/
namespace Sys2Proof.Machine
open Sys2Proof.Safety

/-- The count of a lane's rejected lane frames counts no messages. -/
theorem crcErr_notTalk (l : Nat) : ¬ countsTalk (Reg.LN_ASSAY_ERR_CRC_ERR l).key := by
  rintro ((h | h | h) | ⟨m, hm, h | h | h⟩) <;>
    simp only [Fld.key, Reg.LN_ASSAY_ERR_CRC_ERR, Reg.HR_DROP_STATS_EVT_DROPPED, Reg.EGR_POOL_FREE_PAGES, Reg.EGR_POOL_LOW_WATER,
      Reg.LN_MG_STATS_DROPPED, Reg.LN_MG_STATS_BUSY, Reg.LN_MG_STATS_REFUSED] at h <;> omega

/-- A hit record of no samples whose check word is not that of no samples (R213): the hub's decoder finds cause 0x5 (R261). -/
def miscoded : RxRec := { port := 3, fn := 0, words := [0x11#32, 0, 0, 0, 0, 0, 0, 0, 0, 1], arr := 0, checked := false, lost := false }

/-- A hub whose receive FIFO holds that record, from a port whose last assay found a rejected lane frame: LN_ASSAY_ERR.CRC_ERR is 1, and no
assay waits or runs. -/
def assayedHub : State :=
  { State.reset with
    dev := ({ State.reset.dev with boot := .running, mrg := { State.reset.dev.mrg with rxFifo := [miscoded] } }.set
      Reg.GLB_ROLE_STATUS_ACTIVE_ROLE 2).set (Reg.LN_ASSAY_ERR_CRC_ERR 3) 1 }

theorem assayedHub_checks_miscoded :
    assayedHub.dev.mrg.rxFifo.find? (fun r => r.port == 3 && !r.checked && hasSamples (natsOf r.words)) = some miscoded
    ∧ decodeRec (natsOf miscoded.words) (refOf assayedHub.dev.mrg.rxFifo miscoded) = .bad 5 := by decide +kernel

theorem assayedHub_crcErr : assayedHub.dev.get (Reg.LN_ASSAY_ERR_CRC_ERR 3) = 1 := by decide +kernel

/-- The check's assay restarts the count. -/
theorem assayedHub_crcErr_restarts : (assayedHub.dev.hubCheck 3).get (Reg.LN_ASSAY_ERR_CRC_ERR 3) = 0 := by decide +kernel

/-- Refutes O51: the clause on a record that fails the hub's check names as the fields that may change the fault log's and those of the check, but
the assay that R263 raises of the port (R369) also restarts LN_ASSAY_ERR, which counts the bit errors and rejected lane frames of the last assay. -/
theorem not_recordsReceivedAndChecked : ¬ Obligations.RecordsReceivedAndChecked := by
  rintro ⟨-, hcheck, -⟩
  obtain ⟨hfind, hbad⟩ := assayedHub_checks_miscoded
  obtain ⟨-, hfails⟩ := hcheck 3 miscoded assayedHub (by decide) (by decide +kernel) (by decide +kernel) hfind
  obtain ⟨-, -, -, -, -, -, -, hregs⟩ := of_answers_onDev (f := fun d => d.hubCheck 3) rfl (hfails 5 hbad)
  have hkept := hregs (Reg.LN_ASSAY_ERR_CRC_ERR 3) (by decide) (crcErr_notTalk 3)
  rw [assayedHub_crcErr] at hkept
  exact absurd (assayedHub_crcErr_restarts.symm.trans hkept) (by decide)

end Sys2Proof.Machine
end

section
/-! PROOF. A statement that a state refutes: O52 by two records of the receive FIFO with one arrival number, of which the check of the one that
is judged replaces the other. -/
namespace Sys2Proof.Machine
open Sys2Proof.Safety

/-- The record of frame 1 that took the arrival number of `miscoded`, a record of frame 0. -/
def sameArrival : RxRec := { miscoded with fn := 1, words := miscoded.words.set 2 1#32 }

/-- A hub in frame 56, the horizon of frame 0, whose receive FIFO holds a record of frame 1 and behind it an unchecked one of frame 0, both with
arrival number 0. Receptions number records apart (R275); the statement asks nothing of the numbers. -/
def oneArrivalTwice : State :=
  { State.reset with
    dev := Dev.set { State.reset.dev with
      boot := .running
      tm := { State.reset.dev.tm with clk := { State.reset.dev.tm.clk with fs := 56 } }
      acq := { State.reset.dev.acq with fstats := [State.reset.dev.newFrame] }
      mrg := { State.reset.dev.mrg with rxFifo := [sameArrival, miscoded] } } Reg.GLB_ROLE_STATUS_ACTIVE_ROLE 2 }

theorem oneArrivalTwice_atHorizon : oneArrivalTwice.dev.up = true ∧ oneArrivalTwice.dev.role = .hub
    ∧ oneArrivalTwice.dev.acq.fstats.find? (fun f => !f.judged) = some State.reset.dev.newFrame
    ∧ State.reset.dev.newFrame.fn + 56 ≤ oneArrivalTwice.dev.fn := by decide +kernel

/-- One record is of a frame later than the one judged. -/
theorem oneArrivalTwice_later : (oneArrivalTwice.dev.mrg.rxFifo.filter fun r => decide (State.reset.dev.newFrame.fn < r.fn)).map (·.arr) = [0] := by
  decide +kernel

/-- The check before the verdict (R263, R283) puts the checked record in the place of the first one with its arrival number, that of frame 1, so
both leave with frame 0. -/
theorem oneArrivalTwice_empties : oneArrivalTwice.dev.horizonVerdict.mrg.rxFifo.map (·.arr) = [] := by decide +kernel

/-- Refutes O52: the verdict is said to leave every record of a later frame in the receive FIFO, whatever the state, but the hub's check knows a
record by its arrival number, and where a record of a later frame has the same number it is the one that is replaced, and leaves. -/
theorem not_horizonBuilderAndRoutes : ¬ Obligations.HorizonBuilderAndRoutes := by
  rintro ⟨hverdict, -⟩
  obtain ⟨hup, hhub, hfind, hdue⟩ := oneArrivalTwice_atHorizon
  obtain ⟨-, -, hfifo, -⟩ := of_answers_onDev (f := Dev.horizonVerdict) rfl
    (hverdict State.reset.dev.newFrame oneArrivalTwice hup (.inr hhub) hfind (by rwa [if_pos hhub]))
  rw [oneArrivalTwice_later] at hfifo
  exact absurd (oneArrivalTwice_empties.symm.trans hfifo) (by decide)

end Sys2Proof.Machine
end

section
/-! PROOF. A statement that a state refutes: O49 by a sweep said to have flagged, last, a byte past the end of the bitmap. -/
namespace Sys2Proof.Machine
open Sys2Proof.Safety

/-- A hub whose bitmap is being read and whose rotation stands at byte 512, which the bitmap of 512 bytes does not have. The statement asks
nothing of where the rotation stands. -/
def sweptPastEnd : State :=
  { State.reset with
    dev := ((Dev.set { State.reset.dev with
        boot := .running
        hr := { State.reset.dev.hr with sweepOut := some [], lastByte := 512 } } Reg.GLB_ROLE_STATUS_ACTIVE_ROLE 2).setBoth
      Reg.HR_CTRL_ENABLE 1).set Reg.HR_LINK_STATUS_LINK_UP 1 }

/-- A bitmap of which byte 0 is flagged, followed by a byte past its end, flagged too. -/
def longBitmap : List Nat := 1 :: (List.replicate 511 0 ++ [1])

theorem sweptPastEnd_runs : sweptPastEnd.dev.ringsRun = true ∧ sweptPastEnd.dev.hr.sweepOut = some [] := by decide +kernel

theorem longBitmap_flags : ∀ k < 512, longBitmap.getD k 0 ≠ 0 ↔ k = 0 := by decide +kernel

/-- The rotation takes byte 512 as well. -/
theorem sweptPastEnd_flagsTwo : (sweptPastEnd.dev.bitmapRead longBitmap).hr.lastByte = 512 := by decide +kernel

theorem exec_readCompletion_bitmap {s : State} (hrun : s.dev.ringsRun = true) (bytes : List Nat) :
    exec (.readCompletion (.bitmap bytes)) s = onDev (fun d => d.bitmapRead bytes) s := by
  show onEcc (readCompletion s.fuses (.bitmap bytes)) s = _
  simp only [onEcc, readCompletion, hrun, Bool.not_true, Bool.false_eq_true, if_false, onDev]

/-- Refutes O49: a bitmap whose one flagged byte below 512 is byte 0 is said to leave the rotation there, whatever the state, but from
byte 512 on the rotation looks at byte 512 too and goes on to it. -/
theorem not_repliesAndReadCompletions : ¬ Obligations.RepliesAndReadCompletions := by
  rintro ⟨-, -, -, honeByte, -⟩
  obtain ⟨hruns, hsweep⟩ := sweptPastEnd_runs
  have hclaim := of_answers_onDev (exec_readCompletion_bitmap hruns longBitmap)
    (honeByte longBitmap 0 sweptPastEnd hruns hsweep (by decide) longBitmap_flags)
  have hlast := congrArg (fun s : State => s.dev.hr.lastByte) hclaim
  exact absurd (sweptPastEnd_flagsTwo.symm.trans hlast) (by decide)

end Sys2Proof.Machine
end

section
/-! PROOF. Host rings come and go: HR_CTRL, the ring operations, the checks of an enable, the last head word of a stop, and index words; O53 from
them. -/
namespace Sys2Proof.Machine
open Sys2Proof.Safety

/-! ### HR_CTRL (R336) -/

theorem fieldsAt_hrCtrl : fieldsAt 0x9000 = [Reg.HR_CTRL_ENABLE, Reg.HR_CTRL_CTRL_REFUSED] := by decide +kernel

/-- A 0 into ENABLE while a ring is not OFF. -/
def Dev.keepsEngine (d : Dev) (w : Nat) : Bool := !bitOf w 0 && d.hr.rings.any fun p => p.2.st != 0

theorem writeHrCtrl_refused {d : Dev} {w : Nat} (hhub : d.role = .hub) (h : d.keepsEngine w = true) (src : Source) :
    d.writeHrCtrl src w = d.set Reg.HR_CTRL_CTRL_REFUSED 1 := by
  have hstay : (!bitOf w 0 && d.hr.rings.any fun p => p.2.st != 0) = true := h
  unfold Dev.writeHrCtrl
  rw [if_neg (by simp [hhub]), if_pos hstay]
  rfl

theorem writeHrCtrl_taken {d : Dev} {w : Nat} (hhub : d.role = .hub) (h : d.keepsEngine w = false) (src : Source) :
    d.writeHrCtrl src w
      = (d.writeFields [Reg.HR_CTRL_ENABLE, Reg.HR_CTRL_CTRL_REFUSED] w).enqueue (.reg src 0x9000 (w32 w)) := by
  have hgo : ¬ (!bitOf w 0 && d.hr.rings.any fun p => p.2.st != 0) = true := by simpa [Dev.keepsEngine] using h
  unfold Dev.writeHrCtrl
  rw [if_neg (by simp [hhub]), if_neg hgo, plainWrite_of_sync (by decide +kernel), fieldsAt_hrCtrl]

/-- The engine runs by what is in force, which a write of registers leaves. -/
theorem engineOn_of_keeps {ks : List Nat} {d t : Dev} (h : RegsKeepAll ks d t) (hk : Reg.GLB_ROLE_STATUS_ACTIVE_ROLE.key ∉ ks)
    (hforce : t.force = d.force) : t.engineOn = d.engineOn := by
  have hrole : t.role = d.role := congrArg roleOfNat (h Reg.GLB_ROLE_STATUS_ACTIVE_ROLE hk)
  have hon (e : Dev) : e.effB Reg.HR_CTRL_ENABLE = (getT Reg.HR_CTRL_ENABLE.reset Reg.HR_CTRL_ENABLE.key e.force != 0) := rfl
  rw [Dev.engineOn, Dev.engineOn, hrole, hon, hon, hforce]

theorem refusedBit_written (old w : Nat) :
    Reg.HR_CTRL_CTRL_REFUSED.written false old (bits w 1 1) % 2 = if bitOf w 1 then 0 else old % 2 := by
  simp only [Fld.written, Reg.HR_CTRL_CTRL_REFUSED, bits, bitOf, pow_one]
  rcases Nat.mod_two_eq_zero_or_one (w / 2) with h | h <;> simp [h]

theorem hrCtrlWrite_spec {src : Source} {v : Word} {s : State} (hp : Passes s.dev src 0x9000) (hhub : s.dev.role = .hub) :
    Answers (.hrCtrlWrite src v) s fun t =>
      (s.dev.keepsEngine v.toNat = true → t.dev.get Reg.HR_CTRL_CTRL_REFUSED = 1 ∧ t.dev.get Reg.HR_CTRL_ENABLE = s.dev.get Reg.HR_CTRL_ENABLE
        ∧ t.dev.queue = s.dev.queue)
      ∧ (s.dev.keepsEngine v.toNat = false → t.dev.get Reg.HR_CTRL_ENABLE = v.toNat % 2 ∧ t.dev.queue = s.dev.queue ++ [.reg src 0x9000 v]
          ∧ t.dev.get Reg.HR_CTRL_CTRL_REFUSED % 2 = if bitOf v.toNat 1 then 0 else s.dev.get Reg.HR_CTRL_CTRL_REFUSED % 2)
      ∧ t.dev.engineOn = s.dev.engineOn
      ∧ t = { s with dev := { s.dev with regs := t.dev.regs, queue := t.dev.queue } }
      ∧ RegsKeepAll [Reg.HR_CTRL_ENABLE.key, Reg.HR_CTRL_CTRL_REFUSED.key] s.dev t.dev := by
  have hexec : exec (.hrCtrlWrite src v) s = .next { s with dev := s.dev.writeHrCtrl src v.toNat } := by
    show onDev (fun d => d.gated src 0x9000 fun d => d.writeHrCtrl src v.toNat) s = _
    rw [onDev, gated_of_passes hp]
  refine ⟨_, hexec, ?_⟩
  cases hrefuse : s.dev.keepsEngine v.toNat with
  | true =>
    rw [writeHrCtrl_refused hhub hrefuse]
    have hkeep : RegsKeepAll [Reg.HR_CTRL_ENABLE.key, Reg.HR_CTRL_CTRL_REFUSED.key] s.dev (s.dev.set Reg.HR_CTRL_CTRL_REFUSED 1) :=
      regsKeepAll_set_of_mem (by decide)
    exact ⟨fun _ => ⟨Dev.get_set_same _ _ _, Dev.get_set_ne _ (by decide) _, rfl⟩, fun h => absurd h (by decide),
      engineOn_of_keeps hkeep (by decide) rfl, rfl, hkeep⟩
  | false =>
    rw [writeHrCtrl_taken hhub hrefuse, w32_toNat]
    have hkeep : RegsKeepAll [Reg.HR_CTRL_ENABLE.key, Reg.HR_CTRL_CTRL_REFUSED.key] s.dev
        (s.dev.writeFields [Reg.HR_CTRL_ENABLE, Reg.HR_CTRL_CTRL_REFUSED] v.toNat) := regsKeepAll_writeFields rfl
    have hwork := writeFields_regs s.dev [Reg.HR_CTRL_ENABLE, Reg.HR_CTRL_CTRL_REFUSED] v.toNat
    refine ⟨fun h => absurd h (by decide), fun _ => ⟨?_, ?_, ?_⟩, engineOn_of_keeps (t := Dev.enqueue _ _) hkeep (by decide) ?_, ?_, hkeep⟩
    · refine (get_writeFields_rw v.toNat (by decide) (by decide) (by decide) rfl).trans ?_
      simp [bits, Reg.HR_CTRL_ENABLE]
    · rw [hwork]; rfl
    · refine (congrArg (· % 2) (get_writeFields_of_mem v.toNat (by decide) (by decide) (by decide))).trans ?_
      exact refusedBit_written _ _
    · rw [hwork]; rfl
    · conv_lhs => rw [hwork]
      rfl

/-! ### HR_RING_OP (R338) -/

theorem writeRingOp_disable {d : Dev} (hhub : d.role = .hub) {r : Nat} (hr : r < 4096) :
    d.writeRingOp (r + 2 * 2 ^ 12) = if d.get Reg.HR_RING_OP_BUSY = 0
      then ({ d.set Reg.HR_RING_OP_RING r with hr := { d.hr with ringOp := some (r, 2) } }).set Reg.HR_RING_OP_BUSY 1
      else d.set Reg.HR_RING_OP_RING r := by
  have hring : bits (r + 2 * 2 ^ 12) 0 12 = r := by simp only [bits]; omega
  have hop : bits (r + 2 * 2 ^ 12) 12 2 = 2 := by simp only [bits]; omega
  have hbusy : (d.set Reg.HR_RING_OP_RING r).get Reg.HR_RING_OP_BUSY = d.get Reg.HR_RING_OP_BUSY := Dev.get_set_ne _ (by decide) _
  unfold Dev.writeRingOp
  rw [if_neg (by simp [hhub])]
  dsimp only
  rw [hring, hop, Dev.flag, hbusy]
  by_cases h : d.get Reg.HR_RING_OP_BUSY = 0
  · rw [if_pos h, if_pos (by simp [h])]
    rfl
  · rw [if_neg h, if_neg (by simp [h])]

theorem ringDisable_spec {src : Source} {r : Nat} {s : State} (hp : Passes s.dev src 0x9024) (hhub : s.dev.role = .hub) (hr : r < 4096) :
    Answers (.ringDisable src r) s fun t =>
      t.dev.get Reg.HR_RING_OP_RING = r
      ∧ (s.dev.get Reg.HR_RING_OP_BUSY = 0 → t.dev.hr = { s.dev.hr with ringOp := some (r, 2) } ∧ t.dev.get Reg.HR_RING_OP_BUSY = 1)
      ∧ (s.dev.get Reg.HR_RING_OP_BUSY = 1 → t.dev.hr = s.dev.hr ∧ t.dev.get Reg.HR_RING_OP_BUSY = 1)
      ∧ t = { s with dev := { s.dev with regs := t.dev.regs, hr := { s.dev.hr with ringOp := t.dev.hr.ringOp } } }
      ∧ RegsKeepAll [Reg.HR_RING_OP_RING.key, Reg.HR_RING_OP_BUSY.key] s.dev t.dev := by
  have hexec : exec (.ringDisable src r) s = .next { s with dev := s.dev.writeRingOp (r + 2 * 2 ^ 12) } := by
    refine (onUnit_of_lt hr _ s).trans ?_
    rw [onDev, gated_of_passes hp]
  rw [writeRingOp_disable hhub hr] at hexec
  refine ⟨_, hexec, ?_⟩
  have hring : (s.dev.set Reg.HR_RING_OP_RING r).get Reg.HR_RING_OP_RING = r := (Dev.get_set_same _ _ _).trans (Nat.mod_eq_of_lt hr)
  have hkeep : RegsKeepAll [Reg.HR_RING_OP_RING.key, Reg.HR_RING_OP_BUSY.key] s.dev (s.dev.set Reg.HR_RING_OP_RING r) :=
    regsKeepAll_set_of_mem (by decide)
  by_cases h : s.dev.get Reg.HR_RING_OP_BUSY = 0
  · rw [if_pos h]
    exact ⟨(Dev.get_set_ne _ (by decide) _).trans hring, fun _ => ⟨rfl, Dev.get_set_same _ _ _⟩, fun h1 => absurd (h.symm.trans h1) (by decide),
      rfl, regsKeepAll_trans hkeep (regsKeepAll_set_of_mem (by decide))⟩
  · rw [if_neg h]
    exact ⟨hring, fun h0 => absurd h0 h, fun h1 => ⟨rfl, (Dev.get_set_ne _ (by decide) _).trans h1⟩, rfl, hkeep⟩

/-! ### What an error and a head word leave of the rings -/

/-- A ring but for what waits in it, the events it has lost, and when its head word was last written. -/
def Ring.lasting (g : Ring) : Ring := { g with wait := [], lost := 0, lastHeadFn := 0 }

theorem lasting_toEventRing (d : Dev) (q : Nat) (ws : List Nat) (r : Nat) : ((d.toEventRing q ws).ring r).lasting = (d.ring r).lasting := by
  have hput (g : Ring) (h : g.lasting = (d.ring q).lasting) : (if r = q then g else d.ring r).lasting = (d.ring r).lasting := by
    split
    next hr => rw [h, hr]
    next => rfl
  unfold Dev.toEventRing
  dsimp only
  split
  · split
    · rw [ring_putRing]
      exact hput _ rfl
    · rw [Dev.addWrap, Dev.ring_set, Dev.ring_setRing]
      exact hput _ rfl
  · rfl

theorem ring_postUp (d : Dev) (m : Msg) (r : Nat) : (d.postUp m).ring r = d.ring r := by
  unfold Dev.postUp
  split
  · rfl
  · split <;> rfl

theorem lasting_raise (d : Dev) (cls code : Nat) (data : List Nat) (r : Nat) : ((d.raise cls code data).ring r).lasting = (d.ring r).lasting := by
  unfold Dev.raise
  split
  · exact lasting_toEventRing d _ _ r
  · rfl
  · exact congrArg Ring.lasting (ring_postUp _ _ r)

theorem lasting_ringErr (d : Dev) (q cause r : Nat) : ((d.ringErr q cause).ring r).lasting = (d.ring r).lasting := lasting_raise _ _ _ _ r

/-- A head word written, or not where the link is down. -/
theorem writeHead_cases (d : Dev) (r : Nat) :
    d.writeHead r = d ∨ ∃ o, d.writeHead r = (d.emit o).setRing r { d.ring r with lastHeadFn := d.fn } := by
  cases h : d.linkUp with
  | true => exact .inr ⟨_, writeHead_eq h r⟩
  | false =>
    unfold Dev.writeHead
    rw [if_pos (by simp [h])]
    exact .inl rfl

theorem lasting_writeHead (d : Dev) (q r : Nat) : ((d.writeHead q).ring r).lasting = (d.ring r).lasting := by
  rcases writeHead_cases d q with h | ⟨o, h⟩
  · rw [h]
  · rw [h, Dev.ring_setRing]
    split
    next hr => rw [hr]; rfl
    next => rfl

theorem ring_writeHead_ne (d : Dev) {q r : Nat} (h : r ≠ q) : (d.writeHead q).ring r = d.ring r := by
  rcases writeHead_cases d q with e | ⟨o, e⟩
  · rw [e]
  · rw [e, Dev.ring_setRing, if_neg h]
    rfl

@[simp] theorem get_writeHead (d : Dev) (r : Nat) (f : Fld) : (d.writeHead r).get f = d.get f := by
  rcases writeHead_cases d r with h | ⟨o, h⟩ <;> rw [h]
  rfl

/-- The error is on record: the ring, its cause, and one more of them (R343). -/
theorem ringErr_recorded (d : Dev) (r cause : Nat) :
    (d.ringErr r cause).get Reg.HR_RING_ERR_RING = r % 4096 ∧ (d.ringErr r cause).get Reg.HR_RING_ERR_CAUSE = cause % 16
    ∧ (d.ringErr r cause).get Reg.HR_RING_ERR_COUNT = (d.get Reg.HR_RING_ERR_COUNT + 1) % 65536 := by
  have hkeep (f : Fld) (hf : ¬ countsTalk f.key) : (d.ringErr r cause).get f
      = (((d.set Reg.HR_RING_ERR_RING r).set Reg.HR_RING_ERR_CAUSE cause).addWrap Reg.HR_RING_ERR_COUNT 1).get f :=
    (raise_talks _ _ _ _).2 f List.not_mem_nil hf
  refine ⟨?_, ?_, ?_⟩
  · rw [hkeep _ (notTalk (.inr (by decide)) (by decide)), Dev.addWrap, Dev.get_set_ne _ (by decide), Dev.get_set_ne _ (by decide), Dev.get_set_same]
    rfl
  · rw [hkeep _ (notTalk (.inr (by decide)) (by decide)), Dev.addWrap, Dev.get_set_ne _ (by decide), Dev.get_set_same]
    rfl
  · rw [hkeep _ (notTalk (.inr (by decide)) (by decide)), Dev.addWrap, Dev.get_set_same, Dev.get_set_ne _ (by decide), Dev.get_set_ne _ (by decide)]
    rfl

/-! ### What index words change -/

/-- An index word changes rings, what leaves the device, the counts of the pool and of ring errors, and what an event changes. -/
structure IndexStep (d t : Dev) : Prop where
  work : t = { talked d t with out := t.out }
  regs : RegsKeep ringKeys d t

theorem IndexStep.trans {a b c : Dev} (h : IndexStep a b) (k : IndexStep b c) : IndexStep a c :=
  ⟨by rw [k.work, h.work]; rfl, regsKeep_trans h.regs k.regs⟩

theorem IndexStep.of_talks {d t : Dev} (h : Talks d t) : IndexStep d t := ⟨by rw [h.1]; rfl, h.keep _⟩

theorem IndexStep.set {d : Dev} {f : Fld} {v : Nat} (hf : f.key ∈ ringKeys) : IndexStep d (d.set f v) := ⟨rfl, regsKeep_set_of_mem hf⟩

theorem ringErr_index (d : Dev) (r cause : Nat) : IndexStep d (d.ringErr r cause) :=
  (((IndexStep.set (by decide)).trans (.set (by decide))).trans (.set (by decide))).trans (.of_talks (raise_talks _ _ _ _))

theorem writeHead_index (d : Dev) (r : Nat) : IndexStep d (d.writeHead r) := by
  rcases writeHead_cases d r with h | ⟨o, h⟩ <;> rw [h]
  · exact .of_talks (.refl d)
  · exact ⟨rfl, fun _ _ _ => rfl⟩

/-- A ring as an index word that is sound leaves it (R311). -/
def Ring.indexed (g : Ring) (post confirm : Nat) : Ring :=
  if g.typ = 2 then { g with post := post, error := false }
  else { (g.confirmTo confirm) with post := (if g.typ = 1 then post else g.post), error := false }

theorem applyIndex_taken {d : Dev} {r post confirm : Nat} (hst : (d.ring r).st = 1) (h : (d.ring r).indexCause post confirm = 0) :
    d.applyIndex r post confirm = if (d.ring r).error then (d.putRing r ((d.ring r).indexed post confirm)).writeHead r
      else d.putRing r ((d.ring r).indexed post confirm) := by
  unfold Dev.applyIndex
  dsimp only
  rw [if_neg (by simp [hst]), if_neg (by simp [h])]
  rfl

theorem applyIndex_refused {d : Dev} {r post confirm : Nat} (hst : (d.ring r).st = 1) (h : (d.ring r).indexCause post confirm ≠ 0) :
    d.applyIndex r post confirm = if (d.ring r).error then (d.setRing r { d.ring r with error := true }).ringErr r ((d.ring r).indexCause post confirm)
      else ((d.setRing r { d.ring r with error := true }).ringErr r ((d.ring r).indexCause post confirm)).writeHead r := by
  unfold Dev.applyIndex
  dsimp only
  rw [if_neg (by simp [hst]), if_pos h]

theorem applyIndex_index {d : Dev} {r post confirm : Nat} (hst : (d.ring r).st = 1) : IndexStep d (d.applyIndex r post confirm) := by
  have hput (g : Ring) : IndexStep d (d.putRing r g) := .of_talks (talks_putRing d r g)
  have herr (g : Ring) (c : Nat) : IndexStep d ((d.setRing r g).ringErr r c) := (IndexStep.of_talks (talks_setRing d r g)).trans (ringErr_index _ r c)
  by_cases h : (d.ring r).indexCause post confirm = 0
  · rw [applyIndex_taken hst h]
    split
    · exact (hput _).trans (writeHead_index _ r)
    · exact hput _
  · rw [applyIndex_refused hst h]
    split
    · exact herr _ _
    · exact (herr _ _).trans (writeHead_index _ r)

/-- A sound index word changes its own ring alone. -/
theorem ring_applyIndex_taken {d : Dev} {r post confirm : Nat} (hst : (d.ring r).st = 1) (h : (d.ring r).indexCause post confirm = 0) :
    ((d.applyIndex r post confirm).ring r).lasting = ((d.ring r).indexed post confirm).lasting
    ∧ ∀ q, q ≠ r → (d.applyIndex r post confirm).ring q = d.ring q := by
  rw [applyIndex_taken hst h]
  split
  · refine ⟨(lasting_writeHead _ r r).trans ?_, fun q hq => (ring_writeHead_ne _ hq).trans ?_⟩
    · rw [ring_putRing, if_pos rfl]
    · rw [ring_putRing, if_neg hq]
  · refine ⟨?_, fun q hq => ?_⟩
    · rw [ring_putRing, if_pos rfl]
    · rw [ring_putRing, if_neg hq]

/-- One that breaks the invariants marks its ring in error and is recorded (R312). -/
theorem ring_applyIndex_refused {d : Dev} {r post confirm : Nat} (hst : (d.ring r).st = 1) (h : (d.ring r).indexCause post confirm ≠ 0) :
    ((d.applyIndex r post confirm).ring r).lasting = { (d.ring r).lasting with error := true }
    ∧ (d.applyIndex r post confirm).get Reg.HR_RING_ERR_RING = r % 4096
    ∧ (d.applyIndex r post confirm).get Reg.HR_RING_ERR_CAUSE = (d.ring r).indexCause post confirm % 16
    ∧ (d.applyIndex r post confirm).get Reg.HR_RING_ERR_COUNT = (d.get Reg.HR_RING_ERR_COUNT + 1) % 65536 := by
  have hrec := ringErr_recorded (d.setRing r { d.ring r with error := true }) r ((d.ring r).indexCause post confirm)
  have hring : (((d.setRing r { d.ring r with error := true }).ringErr r ((d.ring r).indexCause post confirm)).ring r).lasting
      = { (d.ring r).lasting with error := true } := by
    rw [lasting_ringErr, Dev.ring_setRing_same]
    rfl
  rw [applyIndex_refused hst h]
  split
  · exact ⟨hring, hrec⟩
  · rw [get_writeHead, get_writeHead, get_writeHead]
    exact ⟨(lasting_writeHead _ r r).trans hring, hrec⟩

theorem indexCause_eq (g : Ring) (p c : Nat) : g.indexCause p c
    = if g.typ = 1 then
        (if 2 ^ g.log2 < cntDiff g.head c then 2 else if 2 ^ g.log2 < cntDiff p c ∨ cntDiff p c < cntDiff g.head c then 1 else 0)
      else if g.typ = 2 then (if 2 ^ g.log2 < cntDiff p g.head then 1 else 0) else if 2 ^ g.log2 < cntDiff g.head c then 2 else 0 := by
  unfold Ring.indexCause
  split
  next h => simp [h]
  next h => simp [h]
  next h1 h2 => rw [if_neg h1, if_neg h2]

theorem indexCause_lt (g : Ring) (p c : Nat) : g.indexCause p c < 16 := by
  rw [indexCause_eq]
  split_ifs <;> decide

/-! ### RING_ENABLE (R306, R307) -/

/-- A table entry that is malformed. -/
def badEntry (w : List Nat) : Prop :=
  nth w 2 % 4 = 0 ∨ nth w 2 / 256 % 32 < 4 ∨ 16 < nth w 2 / 256 % 32 ∨ nth w 0 % 64 ≠ 0
    ∨ nth w 2 % 4 = 1 ∧ (nth w 3 % 2048 < 1 ∨ 1024 < nth w 3 % 2048 ∨ nth w 3 / 65536 % 128 < 1 ∨ 64 < nth w 3 / 65536 % 128)

/-- The entry of a command ring without an enabled reply ring. -/
def Dev.deafEntry (d : Dev) (w : List Nat) : Prop :=
  nth w 2 % 4 = 2 ∧ ¬ ((d.ring (nth w 4 % 4096)).st = 1 ∧ (d.ring (nth w 4 % 4096)).typ = 3)

theorem bits_zero (n width : Nat) : bits n 0 width = n % 2 ^ width := by rw [bits, Nat.pow_zero, Nat.div_one]

theorem entryResult_eq (d : Dev) (w : List Nat) : d.entryResult w
    = if nth w 2 % 4 = 0 ∨ nth w 2 / 256 % 32 < 4 ∨ 16 < nth w 2 / 256 % 32 ∨ nth w 0 % 64 ≠ 0 then 1
      else if nth w 2 % 4 = 1 ∧ (nth w 3 % 2048 < 1 ∨ 1024 < nth w 3 % 2048 ∨ nth w 3 / 65536 % 128 < 1 ∨ 64 < nth w 3 / 65536 % 128) then 1
      else if nth w 2 % 4 = 2 ∧ ¬ ((d.ring (nth w 4 % 4096)).st = 1 ∧ (d.ring (nth w 4 % 4096)).typ = 3) then 4 else 0 := by
  have htyp : bits (nth w 2) 0 2 = nth w 2 % 4 := bits_zero _ _
  have hlog2 : bits (nth w 2) 8 5 = nth w 2 / 256 % 32 := rfl
  have hkb : bits (nth w 3) 0 11 = nth w 3 % 2048 := bits_zero _ _
  have hfr : bits (nth w 3) 16 7 = nth w 3 / 65536 % 128 := rfl
  have hreply : bits (nth w 4) 0 12 = nth w 4 % 4096 := bits_zero _ _
  simp only [Dev.entryResult, htyp, hlog2, hkb, hfr, hreply]

theorem entryResult_of_bad {d : Dev} {w : List Nat} (h : badEntry w) : d.entryResult w = 1 := by
  unfold badEntry at h
  rw [entryResult_eq]
  split
  · rfl
  · rw [if_pos (by tauto)]

theorem entryResult_of_good {d : Dev} {w : List Nat} (h : ¬ badEntry w) : (d.deafEntry w → d.entryResult w = 4) ∧ (¬ d.deafEntry w → d.entryResult w = 0) := by
  unfold badEntry at h
  rw [entryResult_eq, if_neg (by tauto), if_neg (by tauto)]
  exact ⟨fun hdeaf => if_pos hdeaf, fun hnot => if_neg hnot⟩

theorem ringEnable_eq {d : Dev} {r : Nat} (hrun : d.ringsRun = true) (hop : d.hr.ringOp = some (r, 3)) (w : List Nat) (post confirm : Nat) :
    d.ringEnable r w post confirm = if d.entryResult w ≠ 0 then d.endRingOp (d.entryResult w)
      else ((d.putRing r (ringOf w d.fn)).applyIndex r post confirm).endRingOp 0 := by
  unfold Dev.ringEnable
  rw [if_neg (by simp [hrun, hop])]

/-- The operation is over: BUSY is 0 and RESULT tells how it went. -/
theorem endRingOp_spec {d t : Dev} (h : IndexStep d t) {n : Nat} (hn : n < 8) :
    (t.endRingOp n).get Reg.HR_RING_OP_BUSY = 0 ∧ (t.endRingOp n).get Reg.HR_RING_OP_RESULT = n ∧ (t.endRingOp n).hr = { t.hr with ringOp := none }
    ∧ t.endRingOp n = { talked d (t.endRingOp n) with
        out := (t.endRingOp n).out, hr := { d.hr with rings := (t.endRingOp n).hr.rings, ringOp := none } }
    ∧ RegsKeep (ringKeys ++ [Reg.HR_RING_OP_BUSY.key, Reg.HR_RING_OP_RESULT.key]) d (t.endRingOp n) := by
  refine ⟨(Dev.get_set_ne _ (by decide) _).trans (Dev.get_set_same _ _ _), (Dev.get_set_same _ _ _).trans (Nat.mod_eq_of_lt hn), rfl, ?_, ?_⟩
  · conv_lhs => rw [h.work]
    rfl
  · refine regsKeep_trans (regsKeep_mono h.regs fun _ => List.mem_append_left _) ?_
    have hbusy : RegsKeep (ringKeys ++ [Reg.HR_RING_OP_BUSY.key, Reg.HR_RING_OP_RESULT.key]) t
        (({ t with hr := { t.hr with ringOp := none } }).set Reg.HR_RING_OP_BUSY 0) := regsKeep_set_of_mem (d := { t with hr := _ }) (by decide)
    exact regsKeep_trans hbusy (regsKeep_set_of_mem (by decide))

/-- The ring that the entry `w` tells of, before its index word. -/
structure Ring.OfEntry (g : Ring) (w : List Nat) : Prop where
  st : g.st = 1
  typ : g.typ = nth w 2 % 4
  log2 : g.log2 = nth w 2 / 256 % 32
  base : g.base = nth w 0 + nth w 1 * 2 ^ 32
  vec : g.vec = nth w 2 / 65536 % 64
  intEn : g.intEn = bitOf (nth w 2) 22
  bufKb : g.bufKb = nth w 3 % 2048
  entFrames : g.entFrames = nth w 3 / 65536 % 128
  hb : g.hb = nth w 3 / 2 ^ 24
  replyRing : g.replyRing = nth w 4 % 4096
  head : g.head = 0
  entries : g.entries = []

theorem natsOf_nth_lt (w : List Word) (k : Nat) : nth (natsOf w) k < 2 ^ 32 := by
  simp only [nth, natsOf, List.getD_eq_getElem?_getD, List.getElem?_map]
  cases w[k]? with
  | none => decide
  | some v => exact v.isLt

theorem ringOf_ofEntry (w : List Word) (fn : Nat) : (ringOf (natsOf w) fn).OfEntry (natsOf w) := by
  have hw := natsOf_nth_lt w 3
  refine ⟨rfl, bits_zero _ _, rfl, rfl, rfl, rfl, bits_zero _ _, rfl, ?_, bits_zero _ _, rfl, rfl⟩
  show nth (natsOf w) 3 / 2 ^ 24 % 2 ^ 8 = _
  omega

theorem Ring.OfEntry.congr {g h : Ring} {w : List Nat} (hg : g.OfEntry w) (e : h.lasting = g.lasting) : h.OfEntry w :=
  ⟨(congrArg Ring.st e).trans hg.st, (congrArg Ring.typ e).trans hg.typ, (congrArg Ring.log2 e).trans hg.log2, (congrArg Ring.base e).trans hg.base,
    (congrArg Ring.vec e).trans hg.vec, (congrArg Ring.intEn e).trans hg.intEn, (congrArg Ring.bufKb e).trans hg.bufKb,
    (congrArg Ring.entFrames e).trans hg.entFrames, (congrArg Ring.hb e).trans hg.hb, (congrArg Ring.replyRing e).trans hg.replyRing,
    (congrArg Ring.head e).trans hg.head, (congrArg Ring.entries e).trans hg.entries⟩

theorem Ring.OfEntry.indexed {g : Ring} {w : List Nat} (hg : g.OfEntry w) (post confirm : Nat) : (g.indexed post confirm).OfEntry w := by
  obtain ⟨hst, htyp, hlog2, hbase, hvec, hint, hbuf, hfr, hhb, hreply, hhead, hentries⟩ := hg
  unfold Ring.indexed
  split
  · exact ⟨hst, htyp, hlog2, hbase, hvec, hint, hbuf, hfr, hhb, hreply, hhead, hentries⟩
  · refine ⟨hst, htyp, hlog2, hbase, hvec, hint, hbuf, hfr, hhb, hreply, hhead, ?_⟩
    show g.entries.filter _ = []
    rw [hentries]
    rfl

theorem ringOf_indexCause_zero (w : List Nat) (fn : Nat) : (ringOf w fn).indexCause 0 0 = 0 := by
  have hzero : cntDiff 0 0 = 0 := rfl
  have hhead : (ringOf w fn).head = 0 := rfl
  rw [indexCause_eq, hhead, hzero]
  simp

theorem ringOf_indexed_zero (w : List Nat) (fn : Nat) :
    ((ringOf w fn).indexed 0 0).post = 0 ∧ ((ringOf w fn).indexed 0 0).confirm = 0 ∧ ((ringOf w fn).indexed 0 0).error = false := by
  unfold Ring.indexed
  split
  · exact ⟨rfl, rfl, rfl⟩
  · exact ⟨ite_self (c := _) 0, rfl, rfl⟩

theorem ringEnabled_ring {d : Dev} {r : Nat} (w : List Word) (post confirm : Nat) :
    (((d.putRing r (ringOf (natsOf w) d.fn)).applyIndex r post confirm).ring r).OfEntry (natsOf w) := by
  have hring : (d.putRing r (ringOf (natsOf w) d.fn)).ring r = ringOf (natsOf w) d.fn := by rw [ring_putRing, if_pos rfl]
  have hst : ((d.putRing r (ringOf (natsOf w) d.fn)).ring r).st = 1 := congrArg Ring.st hring
  by_cases h : ((d.putRing r (ringOf (natsOf w) d.fn)).ring r).indexCause post confirm = 0
  · have hlast := (ring_applyIndex_taken hst h).1
    rw [hring] at hlast
    exact ((ringOf_ofEntry w d.fn).indexed post confirm).congr hlast
  · have hlast := (ring_applyIndex_refused hst h).1
    rw [hring] at hlast
    have herr : ({ ringOf (natsOf w) d.fn with error := true } : Ring).OfEntry (natsOf w) := by
      obtain ⟨hst, htyp, hlog2, hbase, hvec, hint, hbuf, hfr, hhb, hreply, hhead, hentries⟩ := ringOf_ofEntry w d.fn
      exact ⟨hst, htyp, hlog2, hbase, hvec, hint, hbuf, hfr, hhb, hreply, hhead, hentries⟩
    exact herr.congr hlast

/-- With an index word of zeros the ring starts empty and no other ring changes. -/
theorem ringEnabled_zero {d : Dev} {r : Nat} (w : List Word) :
    (((d.putRing r (ringOf (natsOf w) d.fn)).applyIndex r 0 0).ring r).post = 0
    ∧ (((d.putRing r (ringOf (natsOf w) d.fn)).applyIndex r 0 0).ring r).confirm = 0
    ∧ (((d.putRing r (ringOf (natsOf w) d.fn)).applyIndex r 0 0).ring r).error = false
    ∧ ∀ q, q ≠ r → ((d.putRing r (ringOf (natsOf w) d.fn)).applyIndex r 0 0).ring q = d.ring q := by
  have hring : (d.putRing r (ringOf (natsOf w) d.fn)).ring r = ringOf (natsOf w) d.fn := by rw [ring_putRing, if_pos rfl]
  obtain ⟨hlast, hothers⟩ := ring_applyIndex_taken (d := d.putRing r (ringOf (natsOf w) d.fn)) (r := r) (post := 0) (confirm := 0)
    (congrArg Ring.st hring) (hring.symm ▸ ringOf_indexCause_zero _ _)
  rw [hring] at hlast
  obtain ⟨hpost, hconfirm, herror⟩ := ringOf_indexed_zero (natsOf w) d.fn
  refine ⟨(congrArg Ring.post hlast).trans hpost, (congrArg Ring.confirm hlast).trans hconfirm, (congrArg Ring.error hlast).trans herror, fun q hq => ?_⟩
  rw [hothers q hq, ring_putRing, if_neg hq]

theorem ringEnable_spec {r : Nat} {w : List Word} {post confirm : Nat} {s : State} (hrun : s.dev.ringsRun = true) (hr : r < 4096)
    (hop : s.dev.hr.ringOp = some (r, 3)) :
    Answers (.ringEnable r w post confirm) s fun t =>
      t.dev.get Reg.HR_RING_OP_BUSY = 0 ∧ t.dev.hr.ringOp = none
      ∧ (badEntry (natsOf w) → t.dev.get Reg.HR_RING_OP_RESULT = 1 ∧ t.dev.hr.rings = s.dev.hr.rings)
      ∧ (¬ badEntry (natsOf w) → s.dev.deafEntry (natsOf w) → t.dev.get Reg.HR_RING_OP_RESULT = 4 ∧ t.dev.hr.rings = s.dev.hr.rings)
      ∧ (¬ badEntry (natsOf w) → ¬ s.dev.deafEntry (natsOf w) → t.dev.get Reg.HR_RING_OP_RESULT = 0 ∧ (t.dev.ring r).OfEntry (natsOf w)
          ∧ (post = 0 → confirm = 0 → (t.dev.ring r).post = 0 ∧ (t.dev.ring r).confirm = 0 ∧ (t.dev.ring r).error = false
              ∧ ∀ q : Nat, q ≠ r → t.dev.ring q = s.dev.ring q))
      ∧ t = { s with dev := { talked s.dev t.dev with out := t.dev.out, hr := { s.dev.hr with rings := t.dev.hr.rings, ringOp := none } } }
      ∧ RegsKeep (ringKeys ++ [Reg.HR_RING_OP_BUSY.key, Reg.HR_RING_OP_RESULT.key]) s.dev t.dev := by
  have hexec : exec (.ringEnable r w post confirm) s = .next { s with dev := s.dev.ringEnable r (natsOf w) post confirm } := onUnit_of_lt hr _ s
  rw [ringEnable_eq hrun hop] at hexec
  refine ⟨_, hexec, ?_⟩
  have hstay : IndexStep s.dev s.dev := .of_talks (.refl _)
  by_cases hbad : badEntry (natsOf w)
  · have hres : s.dev.entryResult (natsOf w) = 1 := entryResult_of_bad hbad
    rw [hres, if_pos (by decide)]
    obtain ⟨hbusy, hresult, hhr, hwork, hregs⟩ := endRingOp_spec hstay (n := 1) (by decide)
    exact ⟨hbusy, rfl, fun _ => ⟨hresult, rfl⟩, fun h => absurd hbad h, fun h => absurd hbad h, congrArg (fun d : Dev => { s with dev := d }) hwork, hregs⟩
  · obtain ⟨hdeafRes, hgoodRes⟩ := entryResult_of_good (d := s.dev) hbad
    by_cases hdeaf : s.dev.deafEntry (natsOf w)
    · rw [hdeafRes hdeaf, if_pos (by decide)]
      obtain ⟨hbusy, hresult, hhr, hwork, hregs⟩ := endRingOp_spec hstay (n := 4) (by decide)
      exact ⟨hbusy, rfl, fun h => absurd h hbad, fun _ _ => ⟨hresult, rfl⟩, fun _ h => absurd hdeaf h, congrArg (fun d : Dev => { s with dev := d }) hwork, hregs⟩
    · rw [hgoodRes hdeaf, if_neg (by decide)]
      have hst : ((s.dev.putRing r (ringOf (natsOf w) s.dev.fn)).ring r).st = 1 := by rw [ring_putRing, if_pos rfl]; rfl
      have hstep : IndexStep s.dev ((s.dev.putRing r (ringOf (natsOf w) s.dev.fn)).applyIndex r post confirm) :=
        (IndexStep.of_talks (talks_putRing _ _ _)).trans (applyIndex_index hst)
      obtain ⟨hbusy, hresult, hhr, hwork, hregs⟩ := endRingOp_spec hstep (n := 0) (by decide)
      refine ⟨hbusy, rfl, fun h => absurd h hbad, fun _ h => absurd h hdeaf, fun _ _ => ⟨hresult, ringEnabled_ring w post confirm, ?_⟩,
        congrArg (fun d : Dev => { s with dev := d }) hwork, hregs⟩
      rintro rfl rfl
      exact ringEnabled_zero w

/-! ### RING_STOPPED (R332) -/

theorem hub_of_ringsRun {d : Dev} (h : d.ringsRun = true) : d.role = .hub := by
  simp only [Dev.ringsRun, Dev.engineOn, Bool.and_eq_true, beq_iff_eq] at h
  exact h.1.2.1

/-- A ring that may get its final head word. -/
structure StopDone (d : Dev) (r : Nat) : Prop where
  runs : d.ringsRun = true
  st : (d.ring r).st = 2
  first : (d.ring r).finalHead = false
  written : (d.ring r).entries.all (·.written) = true
  came : (d.ring r).typ = 2 → (d.ring r).head = (d.ring r).fetched

/-- A ring with its final head word. -/
def Ring.ended (g : Ring) : Ring := { g with stopped := true, finalHead := true }

theorem ringStopped_eq {d : Dev} {r : Nat} (h : StopDone d r) :
    d.ringStopped r = if d.get Reg.HR_EVT_CFG_EVENT_RING = r then (d.setRing r (d.ring r).ended).writeHead r
      else ((d.setRing r (d.ring r).ended).writeHead r).ringEvent 1 [r, (d.ring r).head] := by
  obtain ⟨hrun, hst, hfirst, hwritten, hcame⟩ := h
  have hcmd : ((d.ring r).typ != 2 || (d.ring r).head == (d.ring r).fetched) = true := by
    by_cases htyp : (d.ring r).typ = 2
    · simp [hcame htyp]
    · simp [htyp]
  have hgo : (d.ringsRun && (d.ring r).st == 2 && !(d.ring r).finalHead && (d.ring r).entries.all (·.written)
      && ((d.ring r).typ != 2 || (d.ring r).head == (d.ring r).fetched)) = true := by
    rw [hrun, hst, hfirst, hwritten, hcmd]; rfl
  unfold Dev.ringStopped
  dsimp only
  rw [hgo, whenD_true, get_writeHead]
  rfl

theorem ringStopped_spec {r : Nat} {s : State} (hr : r < 4096) (h : StopDone s.dev r) :
    Answers (.ringStopped r) s fun t =>
      (t.dev.ring r).finalHead = true ∧ (t.dev.ring r).stopped = true ∧ (t.dev.ring r).head = (s.dev.ring r).head
      ∧ HeadWordWritten (s.dev.get Reg.HR_HEAD_BASE_LO_ADDR_LO + s.dev.get Reg.HR_HEAD_BASE_HI_ADDR_HI * 2 ^ 32 + 8 * r)
          ((s.dev.ring r).head % 2 ^ 32) true s.dev.out t.dev.out
      ∧ t = { s with dev := { talked s.dev t.dev with out := t.dev.out } } ∧ RegsKeep ringKeys s.dev t.dev := by
  have hexec : exec (.ringStopped r) s = .next { s with dev := s.dev.ringStopped r } := onUnit_of_lt hr _ s
  rw [ringStopped_eq h] at hexec
  refine ⟨_, hexec, ?_⟩
  generalize hwrite : (s.dev.setRing r (s.dev.ring r).ended).writeHead r = d
  have hlast : (d.ring r).lasting = (s.dev.ring r).ended.lasting := by
    rw [← hwrite, lasting_writeHead, Dev.ring_setRing_same]
  have hword : HeadWordWritten (s.dev.get Reg.HR_HEAD_BASE_LO_ADDR_LO + s.dev.get Reg.HR_HEAD_BASE_HI_ADDR_HI * 2 ^ 32 + 8 * r)
      ((s.dev.ring r).head % 2 ^ 32) true s.dev.out d.out := by
    rw [← hwrite, writeHead_eq (d := s.dev.setRing r (s.dev.ring r).ended) (linkUp_of_ringsRun h.runs), Dev.ring_setRing_same]
    exact headWord_written _ (s.dev.ring r).ended _ _
  have hstep : IndexStep s.dev d := hwrite ▸ (IndexStep.of_talks (talks_setRing _ r _)).trans (writeHead_index _ r)
  split
  · exact ⟨congrArg Ring.finalHead hlast, congrArg Ring.stopped hlast, (congrArg Ring.head hlast).trans rfl, hword,
      congrArg (fun d : Dev => { s with dev := d }) hstep.work, hstep.regs⟩
  · have hlast' : ((d.ringEvent 1 [r, (s.dev.ring r).head]).ring r).lasting = (s.dev.ring r).ended.lasting := (lasting_raise d _ _ _ r).trans hlast
    have htalk : Talks d (d.ringEvent 1 [r, (s.dev.ring r).head]) := raise_talks d _ _ _
    have hstep' := hstep.trans (.of_talks htalk)
    refine ⟨congrArg Ring.finalHead hlast', congrArg Ring.stopped hlast', (congrArg Ring.head hlast').trans rfl, ?_,
      congrArg (fun d : Dev => { s with dev := d }) hstep'.work, hstep'.regs⟩
    have hout : (d.ringEvent 1 [r, (s.dev.ring r).head]).out = d.out := Dev.raise_out _ _ _ _
    exact hout.symm ▸ hword

/-! ### INDEX_WORD_APPLY (R311) -/

theorem exec_indexWordApply {s : State} (hup : s.dev.up = true) (hon : s.dev.engineOn = true) :
    exec .indexWordApply s = .next { s with dev := s.dev.applyLines } := by
  show onDev (fun d => whenD (d.up && d.engineOn) Dev.applyLines d) s = _
  rw [onDev, hup, hon]
  rfl

/-- The device without the index words of earlier frames. -/
def Dev.keepLines (d : Dev) : Dev := { d with hr := { d.hr with lines := d.hr.lines.filter fun x => !decide (x.2.2.2 < d.fn) } }

theorem applyLines_one {d : Dev} {r p c f : Nat} (h : d.hr.lines.filter (fun x => decide (x.2.2.2 < d.fn)) = [(r, p, c, f)]) :
    d.applyLines = d.keepLines.applyIndex r p c := by
  unfold Dev.applyLines Dev.applyWhere
  dsimp only
  rw [h]
  rfl

theorem applyLines_none {d : Dev} (h : d.hr.lines.all (fun x => decide (d.fn ≤ x.2.2.2)) = true) : d.applyLines = d := by
  have hnone : d.hr.lines.filter (fun x => decide (x.2.2.2 < d.fn)) = [] := List.filter_eq_nil_iff.2 fun x hx => by
    simpa using List.all_eq_true.1 h x hx
  have hall : d.hr.lines.filter (fun x => !decide (x.2.2.2 < d.fn)) = d.hr.lines := List.filter_eq_self.2 fun x hx => by
    simpa using List.all_eq_true.1 h x hx
  unfold Dev.applyLines Dev.applyWhere
  dsimp only
  rw [hnone, hall]
  rfl

theorem indexed_parts (g : Ring) (p c : Nat) :
    (g.indexed p c).error = false ∧ (g.indexed p c).post = (if g.typ = 1 ∨ g.typ = 2 then p else g.post)
    ∧ (g.typ ≠ 2 → (g.indexed p c).confirm = c) ∧ (g.indexed p c).head = g.head := by
  unfold Ring.indexed
  split
  next h => exact ⟨rfl, (if_pos (.inr h)).symm, fun hn => absurd h hn, rfl⟩
  next h => exact ⟨rfl, by simp [h], fun _ => rfl, rfl⟩

theorem indexWordApply_spec {r p c f : Nat} {s : State} (hup : s.dev.up = true) (hon : s.dev.engineOn = true)
    (hline : s.dev.hr.lines.filter (fun x => decide (x.2.2.2 < s.dev.fn)) = [(r, p, c, f)]) (hst : (s.dev.ring r).st = 1) :
    Answers .indexWordApply s fun t =>
      t.dev.hr.lines = s.dev.hr.lines.filter (fun x => decide (s.dev.fn ≤ x.2.2.2))
      ∧ ((s.dev.ring r).indexCause p c = 0 → (t.dev.ring r).error = false
          ∧ (t.dev.ring r).post = (if (s.dev.ring r).typ = 1 ∨ (s.dev.ring r).typ = 2 then p else (s.dev.ring r).post)
          ∧ ((s.dev.ring r).typ ≠ 2 → (t.dev.ring r).confirm = c) ∧ (t.dev.ring r).head = (s.dev.ring r).head
          ∧ ∀ q : Nat, q ≠ r → t.dev.ring q = s.dev.ring q)
      ∧ ((s.dev.ring r).indexCause p c ≠ 0 → (t.dev.ring r).error = true ∧ (t.dev.ring r).post = (s.dev.ring r).post
          ∧ (t.dev.ring r).confirm = (s.dev.ring r).confirm ∧ t.dev.get Reg.HR_RING_ERR_RING = r % 4096
          ∧ t.dev.get Reg.HR_RING_ERR_CAUSE = (s.dev.ring r).indexCause p c
          ∧ t.dev.get Reg.HR_RING_ERR_COUNT = (s.dev.get Reg.HR_RING_ERR_COUNT + 1) % 65536)
      ∧ t = { s with dev := { talked s.dev t.dev with out := t.dev.out, hr := { s.dev.hr with rings := t.dev.hr.rings, lines := t.dev.hr.lines } } }
      ∧ RegsKeep ringKeys s.dev t.dev := by
  have hexec := exec_indexWordApply hup hon
  rw [applyLines_one hline] at hexec
  have hst' : (s.dev.keepLines.ring r).st = 1 := hst
  have hstep : IndexStep s.dev.keepLines (s.dev.keepLines.applyIndex r p c) := applyIndex_index hst'
  have hlines : (s.dev.keepLines.applyIndex r p c).hr.lines = s.dev.keepLines.hr.lines := by rw [hstep.work]; rfl
  refine ⟨_, hexec, ?_, fun h => ?_, fun h => ?_, ?_, hstep.regs⟩
  · refine hlines.trans (List.filter_congr fun x _ => ?_)
    rw [← decide_not]
    exact decide_eq_decide.2 Nat.not_lt
  · obtain ⟨hlast, hothers⟩ := ring_applyIndex_taken hst' h
    obtain ⟨herror, hpost, hconfirm, hhead⟩ := indexed_parts (s.dev.ring r) p c
    exact ⟨(congrArg Ring.error hlast).trans herror, (congrArg Ring.post hlast).trans hpost,
      fun hn => (congrArg Ring.confirm hlast).trans (hconfirm hn), (congrArg Ring.head hlast).trans hhead, hothers⟩
  · obtain ⟨hlast, hring, hcause, hcount⟩ := ring_applyIndex_refused hst' h
    exact ⟨congrArg Ring.error hlast, (congrArg Ring.post hlast).trans rfl, (congrArg Ring.confirm hlast).trans rfl, hring,
      hcause.trans (Nat.mod_eq_of_lt (indexCause_lt _ _ _)), hcount⟩
  · refine congrArg (fun d : Dev => { s with dev := d }) ?_
    dsimp only
    rw [hlines]
    conv_lhs => rw [hstep.work]
    rfl

/-! ### O53 -/

/-- Settles O53, clause by clause: an enable by what the entry says of its ring, an index word by whether it breaks the invariants of R305. -/
theorem ringsEnableAndDisable : Obligations.RingsEnableAndDisable := by
  refine ⟨fun src v s hp hhub => hrCtrlWrite_spec hp hhub, fun src r s hp hhub hr => ringDisable_spec hp hhub hr,
    fun r w post confirm s hrun hr hop => ?_,
    fun r s hr hrun hst hfirst hwritten hcame => ringStopped_spec hr ⟨hrun, hst, hfirst, hwritten, hcame⟩,
    fun r p c f s hup hon hline hst => ?_, fun s hup hon hall => ?_⟩
  · obtain ⟨t, hexec, hbusy, hop', hbad, hdeaf, hgood, hwork, hregs⟩ := ringEnable_spec (w := w) (post := post) (confirm := confirm) hrun hr hop
    refine ⟨t, hexec, hbusy, hop', hbad, hdeaf, fun hb hd => ?_, hwork, hregs⟩
    obtain ⟨hresult, ⟨hst, htyp, hlog2, hbase, hvec, hint, hbuf, hfr, hhb, hreply, hhead, hentries⟩, hzero⟩ := hgood hb hd
    exact ⟨hresult, hst, htyp, hlog2, hbase, hvec, hint, hbuf, hfr, hhb, hreply, hhead, hentries, hzero⟩
  · have h := indexWordApply_spec hup hon hline hst
    simp only [indexCause_eq] at h
    exact h
  · rw [exec_indexWordApply hup hon, applyLines_none hall]

end Sys2Proof.Machine
end

section
/-! PROOF. No command changes the device's role: neither a write nor a read of any register, nor what the other commands do, reaches ACTIVE_ROLE (R39). -/
namespace Sys2Proof.Machine
open Sys2Proof.Safety

-- Many short lemmas elaborated side by side hold a thread each, past the memory of the check.
set_option Elab.async false

/-! ### Devices of one role -/

/-- ACTIVE_ROLE as a register store holds it. -/
def roleIn (regs : List (Nat × Nat)) : Nat := getT Reg.GLB_ROLE_STATUS_ACTIVE_ROLE.reset Reg.GLB_ROLE_STATUS_ACTIVE_ROLE.key regs

/-- ACTIVE_ROLE reads in `t` as in `d`. -/
def SameRole (d t : Dev) : Prop := roleIn t.regs = roleIn d.regs

theorem SameRole.role {d t : Dev} (h : SameRole d t) : t.role = d.role := congrArg roleOfNat h

theorem SameRole.refl (d : Dev) : SameRole d d := rfl

theorem SameRole.trans {a b c : Dev} (h : SameRole a b) (k : SameRole b c) : SameRole a c := Eq.trans k h

theorem SameRole.of_regs {d t : Dev} (h : t.regs = d.regs) : SameRole d t := congrArg roleIn h

/-- The fields of every register above GLB_ROLE_STATUS are others. -/
theorem SameRole.set {d t : Dev} {f : Fld} {v : Nat} (h : SameRole d t) (hf : 0x100 < f.addr := by decide) : SameRole d (t.set f v) := by
  refine Eq.trans (getT_putT_ne _ ?_ _ _) h
  show (0x100 * 32 + 7 : Nat) ≠ f.addr * 32 + f.lo
  omega

theorem SameRole.setBoth {d t : Dev} {f : Fld} {v : Nat} (h : SameRole d t) (hf : 0x100 < f.addr := by decide) : SameRole d (t.setBoth f v) := h.set hf

theorem SameRole.of_regsKeep {ks : List Nat} {d t : Dev} (h : RegsKeep ks d t) (hk : Reg.GLB_ROLE_STATUS_ACTIVE_ROLE.key ∉ ks) : SameRole d t :=
  h Reg.GLB_ROLE_STATUS_ACTIVE_ROLE hk (notTalk (.inl (by decide)) (by decide))

theorem SameRole.of_talks {d t : Dev} (h : Talks d t) : SameRole d t := .of_regsKeep h.2 List.not_mem_nil

theorem SameRole.of_loss {d t : Dev} (h : LossStep d t) : SameRole d t := h.regs Reg.GLB_ROLE_STATUS_ACTIVE_ROLE (by decide)

theorem SameRole.of_records {d t : Dev} (h : RecStep d t) : SameRole d t := .of_regsKeep h.regs (by decide)

theorem SameRole.foldl {α : Type} {f : Dev → α → Dev} (h : ∀ d a, SameRole d (f d a)) (l : List α) (d : Dev) : SameRole d (l.foldl f d) := by
  induction l generalizing d with
  | nil => exact .refl d
  | cons a l ih => exact (h d a).trans (ih _)

theorem SameRole.ite {d t u : Dev} {p : Prop} [Decidable p] (h : SameRole d t) (k : SameRole d u) : SameRole d (if p then t else u) :=
  iteInduction (motive := SameRole d) (fun _ => h) fun _ => k

theorem SameRole.raise {d t : Dev} {cls code : Nat} {data : List Nat} (h : SameRole d t) : SameRole d (t.raise cls code data) :=
  h.trans (.of_talks (raise_talks _ _ _ _))

theorem SameRole.reply {d t : Dev} {c : Cmd} {status : Nat} {data : List Nat} (h : SameRole d t) : SameRole d (t.reply c status data) :=
  h.trans (.of_talks (reply_talks _ _ _ _))

/-! ### Registers written as a word (R14) -/

theorem activeRole_readOnly : ∀ d ∈ regTable, ∀ i < d.count, ∀ f ∈ d.flds i, f.acc ≠ .ro → Reg.GLB_ROLE_STATUS_ACTIVE_ROLE.key ≠ f.key := by decide +kernel

/-- ACTIVE_ROLE is read-only, and no register but its own holds it. -/
theorem activeRole_not_written (a : Nat) : ∀ f ∈ fieldsAt a, f.acc ≠ .ro → Reg.GLB_ROLE_STATUS_ACTIVE_ROLE.key ≠ f.key := by
  unfold fieldsAt
  split
  next d hd =>
    have hcovers := List.find?_some hd
    simp only [RegDesc.covers, Bool.and_eq_true, decide_eq_true_eq] at hcovers
    exact activeRole_readOnly d (List.mem_of_find?_eq_some hd) _ hcovers.2
  next => exact fun f hf => absurd hf List.not_mem_nil

theorem SameRole.writeFields {d t : Dev} (h : SameRole d t) (a w : Nat) : SameRole d (t.writeFields (fieldsAt a) w) :=
  h.trans (get_writeFields_ne w (activeRole_not_written a))

theorem SameRole.plainWrite {d t : Dev} (h : SameRole d t) (src : Source) (a w : Nat) : SameRole d (t.plainWrite src a w) := by
  unfold Dev.plainWrite
  exact .ite (h.writeFields a w) (h.writeFields a w)

/-! ### Time (R61, R64, R68, R74) -/

theorem domStateFld_addr (k : Nat) : 0x100 < (domStateFld k).addr := by
  unfold domStateFld
  split <;> decide

theorem setDomState_role (d : Dev) (k st : Nat) : SameRole d (d.setDomState k st) := by
  unfold Dev.setDomState
  refine .ite (.refl d) (.raise ?_)
  have hset : SameRole d (d.set (domStateFld k) st) := (SameRole.refl d).set (domStateFld_addr k)
  exact .ite hset hset

theorem restartDom_role (d : Dev) (k st : Nat) : SameRole d (d.restartDom k st) := by
  have hwatch : SameRole d (match d.tm.watch with
      | some w => if w.x = k then d.setWatch none else d
      | none => d) := by
    split
    · exact .ite (SameRole.refl d).set (.refl d)
    · exact .refl d
  unfold Dev.restartDom
  refine SameRole.trans (.set ?_ (Nat.lt_add_right _ (by decide))) (setDomState_role _ k st)
  exact .ite (SameRole.set hwatch (Nat.lt_add_right _ (by decide))) hwatch

theorem requestSwitch_role (d : Dev) (p : Nat) (force : Bool) : SameRole d (d.requestSwitch p force) := by
  have hd := SameRole.refl d
  unfold Dev.requestSwitch
  exact .ite hd.set (.ite hd.set hd.set)

theorem writeTimCtrl_role (d : Dev) (w : Nat) : SameRole d (d.writeTimCtrl w) :=
  ((SameRole.refl d).writeFields 0x1000 w).set.trans (requestSwitch_role _ _ _)

theorem writeDomCfg_role (d : Dev) (k w : Nat) : SameRole d (d.writeDomCfg k w) := by
  have hwrite : SameRole d (d.writeFields (fieldsAt (0x1030 + 4 * k)) w) := (SameRole.refl d).writeFields _ w
  unfold Dev.writeDomCfg
  dsimp only
  generalize hput : (if d.portOk k (bits w 0 6) then _ else _) = t
  have ht : SameRole d t := by
    rw [← hput]
    exact .ite hwrite ((hwrite.set (Nat.lt_add_right _ (by decide))).set (Nat.lt_add_right _ (by decide)))
  exact .ite (ht.trans (restartDom_role _ _ _)) (.ite (ht.trans (restartDom_role _ _ _)) ht)

theorem clearSuspect_role (d : Dev) (a b : Bool) : SameRole d (d.clearSuspect a b) := by
  unfold Dev.clearSuspect
  extract_lets one
  have hone (d : Dev) (k : Nat) (c : Bool) : SameRole d (one d k c) := .ite (setDomState_role d k 2) (.refl d)
  exact (hone d 0 a).trans (hone (one d 0 a) 1 b)

theorem txqPop_role (d : Dev) : SameRole d d.txqPop := by
  have hset (q : List TxqE) : SameRole d (d.setTxq q) := SameRole.set (.of_regs rfl)
  unfold Dev.txqPop
  split
  · exact (SameRole.refl d).set
  · exact (hset _).set.set.set.set.set

theorem writeTxq_role (d : Dev) (w : Nat) : SameRole d (d.writeTxq w) := by
  have hwrite := (SameRole.refl d).writeFields 0x1090 w
  exact .ite (hwrite.trans (txqPop_role _)) hwrite

theorem captureNow_role (d : Dev) (cyc : Nat) : SameRole d (d.captureNow cyc) := (SameRole.refl d).set.set.set.set.set

/-! ### Channels, triggers and streams (R40, R107, R143, R183, R196, R199, R201) -/

theorem writeRoleCfg_role (d : Dev) (src : Source) (w : Nat) : SameRole d (d.writeRoleCfg src w) := by
  unfold Dev.writeRoleCfg
  extract_lets bad e
  have he : SameRole d e := .ite (d.get_set_ne (f := Reg.GLB_ROLE_STATUS_CFG_REFUSED) (by decide) _) ((SameRole.refl d).plainWrite src _ w)
  exact .ite he.raise he

theorem recalStart_role (d : Dev) (quads : Nat) (force : Bool) : SameRole d (d.recalStart quads force) := .ite (SameRole.refl d).set rfl

theorem writeCalCtrl_role (d : Dev) (w : Nat) : SameRole d (d.writeCalCtrl w) := by
  unfold Dev.writeCalCtrl
  extract_lets wait e0 e1 e2
  have h0 : SameRole d e0 := (SameRole.refl d).writeFields 0x2C00 w
  have h1 : SameRole d e1 := .ite h0.set h0
  have h2 : SameRole d e2 := .ite (h1.trans (recalStart_role _ _ _)) h1
  exact .ite h2 h2

theorem linRequest_role (d : Dev) (quads : Nat) : SameRole d (d.linRequest quads) := .ite (SameRole.refl d).set rfl

theorem writeTdcCal_role (d : Dev) (w : Nat) : SameRole d (d.writeTdcCal w) := by
  have hwrite := (SameRole.refl d).writeFields 0x2C10 w
  unfold Dev.writeTdcCal
  exact .ite (hwrite.trans (linRequest_role _ _)) hwrite

theorem statStart_role (d : Dev) : SameRole d d.statStart :=
  SameRole.set (SameRole.set (SameRole.set (SameRole.set (SameRole.set (.of_regs rfl)))))

theorem writeStatCtrl_role (d : Dev) (w : Nat) : SameRole d (d.writeStatCtrl w) := by
  unfold Dev.writeStatCtrl
  extract_lets e0 e1
  have h0 : SameRole d e0 := (SameRole.refl d).writeFields 0x2C30 w
  have h1 : SameRole d e1 := .ite (h0.trans (statStart_role _)) h0
  exact .ite h1.set h1

theorem maskData_role (d : Dev) (v : Nat) : SameRole d (d.maskData v) := .ite (.refl d) (SameRole.refl d).set

theorem writeChCtrl_role (d : Dev) (src : Source) (a w : Nat) : SameRole d (d.writeChCtrl src a w) := (SameRole.refl d).plainWrite src a _

theorem maskRearm_role (d : Dev) (q : Nat) : SameRole d (d.maskRearm q) := .of_regs rfl

theorem writeMaskCfg_role (d : Dev) (src : Source) (a w : Nat) : SameRole d (d.writeMaskCfg src a w) := by
  have hwrite := (SameRole.refl d).plainWrite src a w
  unfold Dev.writeMaskCfg
  exact .ite (hwrite.trans (maskRearm_role _ _)) hwrite

theorem writeStreamCfg_role (d : Dev) (src : Source) (k w : Nat) : SameRole d (d.writeStreamCfg src k w).2 := by
  have hd := SameRole.refl d
  unfold Dev.writeStreamCfg
  extract_lets c r floor e
  split
  · exact hd
  · split
    · exact (hd.plainWrite src _ w).raise
    · exact hd.set.set.set.set.raise

theorem deadCapture_role (d : Dev) : SameRole d d.deadCapture := (SameRole.refl d).set.set

/-- A write to the Time, Channels, or Trigger and capture block. -/
theorem writeLow_role (d : Dev) (src : Source) (a w : Nat) : SameRole d (d.writeLow src a w) := by
  have hd := SameRole.refl d
  have hplain := hd.plainWrite src a w
  unfold Dev.writeLow
  split
  case h_1 => exact writeRoleCfg_role d src w
  case h_2 => exact hd.writeFields 0x0108 w
  case h_3 => exact writeTimCtrl_role d w
  case h_4 => exact hd.set.set
  case h_5 => exact writeDomCfg_role d 0 w
  case h_6 => exact writeDomCfg_role d 1 w
  case h_7 => exact (hd.writeFields 0x1050 w).trans (clearSuspect_role _ _ _)
  case h_8 => exact writeTxq_role d w
  case h_9 => exact .ite (writeCalCtrl_role d w) (hd.writeFields _ w)
  case h_10 => exact writeTdcCal_role d w
  case h_11 => exact .ite (hd.plainWrite src _ w) hd
  case h_12 => exact .ite (writeStatCtrl_role d w) (hd.writeFields _ w)
  case h_13 => exact maskData_role d w
  case h_14 => exact hd
  case h_15 =>
    exact .ite (writeChCtrl_role d src a w) (.ite (writeMaskCfg_role d src a w) (.ite (writeStreamCfg_role d src _ w) hplain))

/-! ### Records lost (R223, R225, R432) -/

theorem loseOwn_role (d : Dev) (chan fn reason seq : Nat) (stream : Bool) : SameRole d (d.loseOwn chan fn reason seq stream) :=
  .of_loss (loseOwn_kept d chan fn reason seq stream).toLossStep

theorem replaceFRec_role (d : Dev) (r : FRec) (reason : Nat) : SameRole d (d.replaceFRec r reason) := by
  unfold Dev.replaceFRec
  split
  · exact .of_loss (loseFRec_kept d r reason).toLossStep
  · split
    · split
      · exact .of_loss (fifoPush_step d _ _ _ _)
      · exact .refl d
    · exact .ite (.of_loss (fifoPush_step d _ _ _ _)) (.of_loss (withhold_step d _))

theorem setFifo_role (d : Dev) (l : List FRec) : SameRole d (d.setFifo l) := .of_loss (setFifo_step d l)

theorem dropRec_role (d : Dev) (r : FRec) (reason : Nat) : SameRole d (d.dropRec r reason) := by
  have hgone := setFifo_role d (d.rcd.fifo.filter fun q => q.id != r.id)
  exact .ite (hgone.trans (replaceFRec_role (Dev.mapLanes _ _) r reason)) hgone

theorem writeOff_role (d : Dev) (r : FRec) (a : Nat) : SameRole d (d.writeOff r a) := by
  unfold Dev.writeOff
  extract_lets e mark
  have he : SameRole d e := (SameRole.refl d).set
  exact .ite (.refl d) (.ite (he.trans (setFifo_role _ _)) (he.trans (.foldl (fun d q => dropRec_role d q 8) _ _)))

theorem loseTo_role (d : Dev) (r : Nat) (l : Loss) : SameRole d (d.loseTo r l) := .of_records (loseTo_step d r l)

theorem spoilFrame_role (d : Dev) (fn : Nat) : SameRole d (d.spoilFrame fn) :=
  SameRole.foldl (fun d _ => loseTo_role d _ _) _ { d with mrg := _ }

theorem spoilQueued_role (d : Dev) (r : Nat) (p : List Word → Bool) : SameRole d (d.spoilQueued r p) :=
  (SameRole.of_talks (talks_putRing d r _)).trans (.foldl (fun d _ => loseTo_role d _ _) _ _)

theorem spoilStaged_role (d : Dev) (a : Asm) : SameRole d (d.spoilStaged a) :=
  SameRole.trans (.of_loss ((LossStep.withRcd d _).trans (fifoLevel_step _))) (.foldl (fun d _ => loseOwn_role d _ _ _ _ _) _ _)

/-- What an uncorrectable word costs is records, samples, messages or routes. -/
theorem strike_role (d : Dev) (v : Victim) : SameRole d (d.strike v) := by
  have hd := SameRole.refl d
  cases v with
  | staged a => exact spoilStaged_role d a
  | fifo r a => exact writeOff_role d r a
  | building fn => exact spoilFrame_role d fn
  | route i => exact SameRole.raise (t := { d with mrg := _ }) hd
  | queued r w => exact spoilQueued_role d r _
  | entry r j w => exact spoilQueued_role (d.updRing r _) r _
  | desc r w => exact hd.set
  | active q => exact SameRole.raise (hd.set (f := Reg.TRG_MASK_CFG_STOPPED q) (Nat.lt_add_right _ (by decide)))
  | shadow k => exact SameRole.raise (t := { d with acq := _ }) hd
  | nothing | samples _ _ _ | lists _ _ | slot _ | received _ | merging _ | outgoing _ _ | answer _ _ | upward _ _ | own _ | table _ _ => exact hd

/-! ### Stored words read (R414, R416, R419, R432) -/

theorem logError_role (d : Dev) (unit kind action : Nat) (beyond : Bool) (detail loc byte count : Nat) :
    SameRole d (d.logError unit kind action beyond detail loc byte count) :=
  .of_regsKeep (logError_step d unit kind action beyond detail loc byte count).regs (by decide)

theorem breach_role (d : Dev) {f : Fld} (hf : 0x100 < f.addr) : SameRole d (d.breach f) :=
  .ite (.refl d) ((SameRole.refl d).set hf).set.raise

theorem memRead_role (ecc : List (Nat × Nat)) (d : Dev) (idx count : Nat) : SameRole d (memRead ecc d idx count).dev := by
  have hd := SameRole.refl d
  unfold memRead
  extract_lets e small unit
  split
  · exact hd
  · exact hd.set.trans (logError_role _ _ _ _ _ _ _ _ _)
  · exact (hd.set.trans (logError_role _ _ _ _ _ _ _ _ _)).trans (breach_role _ (by decide))

theorem pickVictim_role (d : Dev) (l : List Victim) : SameRole d (pickVictim d l).2 := by
  unfold pickVictim
  split <;> exact rfl

theorem bankVictim_role (d : Dev) (idx : Nat) : SameRole d (d.bankVictim idx).2 := by
  have hpick (l : List Victim) := pickVictim_role d l
  unfold Dev.bankVictim
  extract_lets p a fifo
  split
  case h_1 =>
    split_ifs
    · exact .refl d
    · exact .refl d
    · exact hpick _
    · exact hpick _
    · exact .refl d
    · exact .refl d
  case h_2 =>
    split_ifs
    · exact hpick _
    · exact .refl d
    · exact hpick _
    · exact .refl d
    · exact .refl d
  case h_3 =>
    split_ifs
    · exact hpick _
    · exact hpick _
    · exact hpick _
  case h_4 => exact .refl d

theorem victim_role (d : Dev) (idx : Nat) : SameRole d (d.victim idx).2 := by
  unfold Dev.victim
  split
  · exact .refl d
  · exact bankVictim_role d idx

theorem scrubWord_role (ecc : List (Nat × Nat)) (d : Dev) (idx : Nat) : SameRole d (scrubWord ecc d idx).dev := by
  unfold scrubWord
  split
  · exact ((victim_role d idx).trans (memRead_role _ _ _ _)).trans (strike_role _ _)
  · exact memRead_role _ _ _ _

/-! ### Registers read (R74, R195, R239, R440, R472, R517) -/

theorem draw_role (d : Dev) : SameRole d d.draw.2 := .refl d

theorem diagRead_role (ecc : List (Nat × Nat)) (d : Dev) : SameRole d (diagRead ecc d).2.2 := by
  have hd := SameRole.refl d
  unfold diagRead
  extract_lets tag
  have htag (t : Dev) (a b c e : Bool) (h : SameRole d t) : SameRole d (tag t a b c e) := h.set.set.set.set.set
  split
  · exact htag _ _ _ _ _ hd
  · exact htag _ _ _ _ _ hd
  · extract_lets cost m e
    have he : SameRole d e := htag _ _ _ _ _ (memRead_role _ _ _ _)
    split
    · split
      · exact he.trans (writeOff_role _ _ _)
      · exact he
    · exact he

theorem poolDiagRead_role (ecc : List (Nat × Nat)) (d : Dev) : SameRole d (poolDiagRead ecc d).2.2 := by
  unfold poolDiagRead
  extract_lets tag r
  have htag (t : Dev) (a b c e : Bool) (h : SameRole d t) : SameRole d (tag t a b c e) := h.set.set.set.set.set
  split
  · exact htag _ _ _ _ _ (.refl d)
  · extract_lets m bad
    have hm : SameRole d m.dev := (draw_role d).trans (memRead_role _ _ _ _)
    exact htag _ _ _ _ _ (.ite (hm.trans (strike_role _ _)) hm)

theorem recDiagRead_role (ecc : List (Nat × Nat)) (d : Dev) : SameRole d (recDiagRead ecc d).2.2 := by
  unfold recDiagRead
  extract_lets r
  have hr : SameRole d r.2.2 :=
    iteInduction (motive := fun x : Nat × List (Nat × Nat) × Dev => SameRole d x.2.2) (fun _ => poolDiagRead_role ecc d) fun _ => diagRead_role ecc d
  exact hr.set

theorem logCapture_role (ecc : List (Nat × Nat)) (d : Dev) : SameRole d (logCapture ecc d).2 := by
  unfold logCapture
  split
  · exact .refl d
  · extract_lets s r ws
    have hr : SameRole d r.2.2.2 := List.foldlRecOn (motive := fun x : Bool × List Nat × List (Nat × Nat) × Dev => SameRole d x.2.2.2) _ _ (SameRole.refl d) fun x hx k _ =>
      hx.trans (scrubWord_role _ _ _)
    exact hr.set.set.set.set

theorem ldgRead_role (d : Dev) : SameRole d d.ldgRead.2 := (SameRole.refl d).set.set

theorem hkLive_fields : (∀ f ∈ fieldsAt 0xB01C, 0x100 < f.addr) ∧ ∀ f ∈ fieldsAt 0xB020, 0x100 < f.addr := by decide +kernel

theorem SameRole.setAll {d t : Dev} (h : SameRole d t) {l : List Fld} (hl : ∀ f ∈ l, 0x100 < f.addr) (v : Dev → Fld → Nat) :
    SameRole d (l.foldl (fun d f => d.set f (v d f)) t) :=
  List.foldlRecOn _ _ h fun _ hx f hf => hx.set (hl f hf)

theorem hkCapture_role (d : Dev) : SameRole d d.hkCapture :=
  ((SameRole.refl d).setAll hkLive_fields.1 fun d f => bits d.hk.live.1 f.lo f.width).setAll hkLive_fields.2
    fun d f => bits d.hk.live.2 f.lo f.width

theorem readEffect_role (ecc : List (Nat × Nat)) (d : Dev) (a : Nat) : SameRole d (readEffect ecc d a).2 := by
  unfold readEffect
  split
  case h_1 => exact (draw_role d).trans (captureNow_role _ _)
  case h_2 => exact .ite (deadCapture_role d) (.refl d)
  case h_3 => exact recDiagRead_role ecc d
  case h_4 => exact ldgRead_role d
  case h_5 => exact hkCapture_role d
  case h_6 => exact logCapture_role ecc d
  case h_7 => exact .refl d

theorem readWords_role (c : Cmd) (n k : Nat) (x : List Nat × EccDev) : SameRole x.2.2 (readWords c k n x).2.2 := by
  induction n generalizing k x with
  | zero => exact .refl _
  | succ n ih => exact (readEffect_role _ _ _).trans (ih _ _)

/-! ### Flushes, and pages retired (R227, R445) -/

theorem writeFlush_role (d : Dev) : SameRole d d.writeFlush := by
  have hreq : SameRole d (d.requestFlush 7) := by
    unfold Dev.requestFlush
    extract_lets r
    exact SameRole.set (.of_regs rfl)
  exact .ite hreq (.refl d)

theorem markRetired_role (d : Dev) (p : Nat) : SameRole d (d.markRetired p) := by
  unfold Dev.markRetired
  extract_lets f e b
  have he : SameRole d e := (SameRole.refl d).set (Nat.lt_add_right _ (by decide))
  exact .ite he.set he

theorem shrinkPool_role (d : Dev) : SameRole d d.shrinkPool := by
  unfold Dev.shrinkPool
  extract_lets r e f
  have he : SameRole d e := .of_regs rfl
  exact .ite he.set.set he

theorem powerReq_role (d : Dev) (code : Nat) (adm : Bool) : SameRole d (d.powerReq code adm) := .ite (.refl d) (.of_regs rfl)

theorem takeSpare_role {d : Dev} {n : Nat × Dev} (h : d.takeSpare = some n) : SameRole d n.2 := by
  unfold Dev.takeSpare at h
  split at h
  · cases h
  · split_ifs at h
    · cases h
      exact shrinkPool_role d
    · cases h
      exact (SameRole.refl d).setBoth.trans (powerReq_role _ _ _)
    · cases h
      exact .refl d

theorem replacePage_role (d : Dev) (p l n : Nat) : SameRole d (d.replacePage p l n) := SameRole.trans (.of_regs rfl) (markRetired_role _ p)

theorem dropPoolPage_role (d : Dev) (p : Nat) : SameRole d (d.dropPoolPage p) := by
  have hshrink := (shrinkPool_role d).trans (markRetired_role _ p)
  unfold Dev.dropPoolPage
  split
  · exact hshrink
  · split
    next n hn => exact (takeSpare_role hn).trans (replacePage_role _ _ _ _)
    next => exact hshrink

theorem poolHolds_role (d : Dev) (l : Nat) : SameRole d (d.poolHolds l).2 := by
  unfold Dev.poolHolds
  split_ifs
  · exact .refl d
  · exact .refl d
  · exact draw_role d
  · exact .refl d

theorem retirePage_role (d : Dev) (p : Nat) : SameRole d (d.retirePage p) := by
  unfold Dev.retirePage
  refine .ite (.refl d) ?_
  split
  · exact .ite (.of_regs rfl) (markRetired_role d p)
  · split
    next n hn => exact (takeSpare_role hn).trans (.of_regs rfl)
    next => exact .refl d
  · have hholds := poolHolds_role d (d.logical p)
    exact .ite (hholds.trans (.of_regs rfl)) (hholds.trans (dropPoolPage_role _ p))

theorem retireEnd_role (d : Dev) : SameRole d d.retireEnd := .ite (SameRole.refl d).set.set.raise (.refl d)

theorem writeRetire_role (d : Dev) (w : Nat) : SameRole d (d.writeRetire w) := by
  unfold Dev.writeRetire
  extract_lets e p b bank gone ok t
  have he : SameRole d e := (SameRole.refl d).writeFields 0x710C w
  have ht : SameRole d t := he.set.set
  exact .ite he (.ite he.set (.ite he.set ((ht.trans (.foldl retirePage_role _ _)).trans (retireEnd_role _))))

/-! ### Routes and rings (R296, R336, R338) -/

theorem writeRoute_role (d : Dev) (w : Nat) : SameRole d (d.writeRoute w) := .ite (.of_regs rfl) (.refl d)

theorem writeHrCtrl_role (d : Dev) (src : Source) (w : Nat) : SameRole d (d.writeHrCtrl src w) := by
  have hd := SameRole.refl d
  unfold Dev.writeHrCtrl
  exact .ite hd (.ite hd.set (hd.plainWrite src _ w))

theorem writeRingOp_role (d : Dev) (w : Nat) : SameRole d (d.writeRingOp w) := by
  unfold Dev.writeRingOp
  extract_lets r op e
  have he : SameRole d e := (SameRole.refl d).set
  exact .ite (.refl d) (.ite (SameRole.set (he.trans (.of_regs rfl))) he)

theorem writeHrBase_role (d : Dev) (src : Source) (a w : Nat) : SameRole d (d.writeHrBase src a w) :=
  .ite (.refl d) ((SameRole.refl d).plainWrite src a _)

/-! ### Ledger entries and trips (R497, R500) -/

theorem ldgSetHeader_role (d : Dev) (seq boot overwrites slot : Nat) : SameRole d (d.ldgSetHeader seq boot overwrites slot) := SameRole.set (.of_regs rfl)

theorem ldgWriteSlot_role (d : Dev) (slot : Nat) (ws : List Nat) : SameRole d (d.ldgWriteSlot slot ws).2 := by
  unfold Dev.ldgWriteSlot
  dsimp only
  split
  · exact SameRole.set (.of_regs rfl)
  · exact .of_regs rfl

theorem ldgEntry_role (d : Dev) (typ : Nat) (payload : List Nat) : SameRole d (d.ldgEntry typ payload).2 := by
  unfold Dev.ldgEntry
  extract_lets h seq slot used w0 w7 ws first slot2 second
  have hfirst : SameRole d first.2 := ldgWriteSlot_role _ _ _
  split
  · exact hfirst.trans (ldgSetHeader_role _ _ _ _ _)
  · exact (hfirst.trans (ldgWriteSlot_role _ _ _)).trans (ldgSetHeader_role _ _ _ _ _)

theorem releaseOk_role (d : Dev) (src : Source) (t : Trip) : SameRole d (d.releaseOk src t).2 :=
  SameRole.raise ((ldgEntry_role d _ _).trans (.of_regs rfl))

theorem writeRelease_role (d : Dev) (src : Source) (key : Nat) : SameRole d (d.writeRelease src key) := by
  have hset := (SameRole.refl d).set (f := Reg.PWR_HOLD_RELEASE_RESULT) (v := d.releaseCheck key)
  unfold Dev.writeRelease
  dsimp only
  split
  · exact hset.trans (releaseOk_role _ _ _)
  · exact hset

theorem stopChan_role (d : Dev) (n : Nat) : SameRole d (d.stopChan n) := by
  unfold Dev.stopChan
  extract_lets c r
  exact .ite (.refl d) (SameRole.trans (.set (.set (.of_regs rfl) (Nat.lt_add_right _ (by decide))) (Nat.lt_add_right _ (by decide))) (.of_regs rfl))

theorem linAbandon_role (d : Dev) (n : Nat) : SameRole d (d.linAbandon n) := by
  have hboot (d : Dev) (l : List Nat) : SameRole d (d.setLinBoot l) := .ite (SameRole.set (.of_regs rfl)) (.of_regs rfl)
  have hoff : SameRole d (d.setB (Reg.CH_TDC_STATUS_LIN_ACTIVE n) false) := (SameRole.refl d).set (Nat.lt_add_right _ (by decide))
  unfold Dev.linAbandon
  exact .ite ((SameRole.set (hoff.trans (.of_regs rfl))).trans (hboot _ _)) (.refl d)

theorem tripChan_role (d : Dev) (n : Nat) : SameRole d (d.tripChan n) := by
  have hlocks : SameRole d (((d.stopChan n).setB (Reg.CH_TDC_STATUS_SLOW_LOCK n) false).setB (Reg.CH_TDC_STATUS_FAST_LOCK n) false) :=
    ((stopChan_role d n).set (Nat.lt_add_right _ (by decide))).set (Nat.lt_add_right _ (by decide))
  unfold Dev.tripChan
  exact .ite (.refl d) (SameRole.set ((hlocks.trans (linAbandon_role _ n)).trans (.of_regs rfl)) (Nat.lt_add_right _ (by decide)))

theorem calClear_role (d : Dev) (n : Nat) : SameRole d (d.calClear n) :=
  ((SameRole.refl d).set (f := Reg.CH_STATUS_CAL_ACTIVE n) (Nat.lt_add_right _ (by decide))).trans (.of_regs rfl)

theorem fgDone_role (d : Dev) : SameRole d d.fgDone := .ite (SameRole.set (.of_regs rfl)) (.refl d)

theorem setAssays_role (d : Dev) (l : List Assay) : SameRole d (d.setAssays l) := SameRole.set (SameRole.set (.of_regs rfl))

theorem tripAbandon_role (d : Dev) : SameRole d d.tripAbandon := by
  unfold Dev.tripAbandon
  extract_lets e1 acq0 acq flt pw e2 e3 e4
  have h1 : SameRole d e1 := .foldl (fun d n => (SameRole.ite (calClear_role d n) (.refl d)).trans (linAbandon_role _ n)) _ _
  clear_value e1
  have h2 : SameRole d e2 := h1.trans (.of_regs rfl)
  have h3 : SameRole d e3 := SameRole.set (SameRole.set (SameRole.set (h2.trans (fgDone_role e2))))
  have h4 : SameRole d e4 := h3.trans (.foldl (fun d l => .ite ((SameRole.refl d).set (Nat.lt_add_right _ (by decide))) (.refl d)) _ _)
  exact h4.trans (setAssays_role _ _)

theorem updChan_role (d : Dev) (n : Nat) (g : Chan → Chan) : SameRole d (d.updChan n g) := .of_regs rfl

theorem loseNext_role (d : Dev) (k chan fn : Nat) (stream : Bool) :
    SameRole d ((d.nextSeq k).2.loseOwn chan fn 7 ((d.nextSeq k).1 % 65536) stream) :=
  SameRole.trans (b := (d.nextSeq k).2) (.of_regs rfl) (loseOwn_role _ _ _ _ _ _)

theorem dropOpen_role (d : Dev) : SameRole d { d with rcd := { d.rcd with asm := [], ready := [] } } := .of_regs rfl

theorem loseEach_role (d : Dev) (l : List Asm) : SameRole d (l.foldl (fun d a => d.loseOwn a.chan a.fn 7 a.seq (a.typ == 2)) d) :=
  .foldl (fun d _ => loseOwn_role d _ _ _ _ _) l d

theorem tripRecords_role (d : Dev) : SameRole d d.tripRecords := by
  unfold Dev.tripRecords
  extract_lets e1 waiting rcd e2
  have h1 : SameRole d e1 := by
    refine .foldl (fun d n => .foldl (fun d k => ?_) _ _) _ _
    have hout := updChan_role d n fun c => { c with caps := c.caps.map fun y => if y.x = k.x then { y with stage := 2, off := true } else y }
    exact .ite hout (hout.trans (loseNext_role _ _ _ _ _))
  have h2 : SameRole d e2 := (h1.trans (dropOpen_role _)).trans (loseEach_role _ _)
  clear_value e2
  refine h2.trans (.foldl (fun d k => ?_) _ _)
  have hslot : SameRole d ((if (d.slot k).jobs.isEmpty then d else d.setSlot k Slot.init).setBoth (Reg.TRG_STREAM_CFG_ENABLE k) 0) :=
    SameRole.setBoth (.ite (.refl d) (.of_regs rfl)) (Nat.lt_add_right _ (by decide))
  exact hslot.trans (.foldl (fun d j => .ite (.refl d) (loseNext_role _ _ _ _ _)) _ _)

theorem updFrame_role (d : Dev) (fn : Nat) (g : FStat → FStat) : SameRole d (d.updFrame fn g) := .of_regs rfl

theorem tripBegin_role (d : Dev) (cause : Nat) : SameRole d (d.tripBegin cause) := by
  unfold Dev.tripBegin
  extract_lets entry e1 trip pins pw e2 e3 e4
  have h1 : SameRole d e1 := ldgEntry_role d _ _
  clear_value e1
  have h2 : SameRole d e2 := h1.trans (.of_regs rfl)
  have h3 : SameRole d e3 := h2.set.set
  have h4 : SameRole d e4 := h3.trans (updFrame_role e3 _ _)
  exact ((h4.trans (tripRecords_role _)).trans (tripAbandon_role _)).trans (tripChan_role _ 47)

theorem tripCause_role (d : Dev) (cause : Nat) : SameRole d (d.tripCause cause) := by
  unfold Dev.tripCause
  split
  · exact tripBegin_role d cause
  · exact .ite (SameRole.refl d).raise (.refl d)

theorem writeHoldReq_role (d : Dev) : SameRole d d.writeHoldReq := by
  unfold Dev.writeHoldReq
  extract_lets e
  have he : SameRole d e := (SameRole.refl d).set
  exact .ite (he.trans (tripCause_role _ _)) he

/-! ### Housekeeping, faults, antifuses and lanes (R435, R466, R495, R541) -/

theorem hkSelfcal_role (d : Dev) : SameRole d d.hkSelfcal := .ite (SameRole.refl d).set (.of_regs rfl)

theorem writeHkCtrl_role (d : Dev) (src : Source) (w : Nat) : SameRole d (d.writeHkCtrl src w) := by
  have hwrite := (SameRole.refl d).plainWrite src 0xB000 w
  unfold Dev.writeHkCtrl
  exact .ite (hwrite.trans (hkSelfcal_role _)) hwrite

theorem writeHkMon_role (d : Dev) (w : Nat) : SameRole d (d.writeHkMon w) := ((SameRole.refl d).writeFields 0xB028 w).trans (.of_regs rfl)

theorem writeHk_role (d : Dev) (a w : Nat) : SameRole d (d.writeHk a w) := by
  have hwrite := (SameRole.refl d).writeFields a w
  unfold Dev.writeHk
  exact .ite (hwrite.trans (.of_regs rfl)) (hwrite.trans (.of_regs rfl))

theorem writeStage_role (d : Dev) (v : Nat) : SameRole d (d.writeStage v) := by
  unfold Dev.writeStage
  exact .ite (.refl d) (SameRole.set (.of_regs rfl))

theorem program_role (d : Dev) (src : Source) (f : Fuses) : SameRole d (d.program src f) := by
  unfold Dev.program
  exact .ite (.refl d) (.ite (SameRole.set (.of_regs rfl)) (SameRole.refl d).set)

theorem writeEye_role (d : Dev) (src : Source) (l w : Nat) : SameRole d (d.writeEye src l w) := by
  unfold Dev.writeEye
  extract_lets e fn
  have he : SameRole d e := (SameRole.refl d).plainWrite src _ w
  have hset := ((he.set (f := Reg.LN_EYE_CTRL_BUSY l) (v := 1) (Nat.lt_add_right _ (by decide))).set (f := Reg.LN_EYE_CTRL_DONE l) (v := 0)
    (Nat.lt_add_right _ (by decide))).set (f := Reg.LN_EYE_ERR_ERRORS l) (v := 0) (Nat.lt_add_right _ (by decide))
  exact .ite (.refl d) (.ite (hset.trans (.of_regs rfl)) he)

/-- A write to any block from Power on. -/
theorem writeHigh_role (f : Fuses) (d : Dev) (src : Source) (a w : Nat) : SameRole d (d.writeHigh f src a w) := by
  have hd := SameRole.refl d
  have hplain := hd.plainWrite src a w
  unfold Dev.writeHigh
  split
  case h_1 => exact hd.plainWrite src _ _
  case h_2 => exact .ite ((hd.plainWrite src _ w).trans (writeFlush_role _)) (hd.plainWrite src _ w)
  case h_3 => exact writeRetire_role d w
  case h_4 => exact writeRoute_role d w
  case h_5 => exact writeHrCtrl_role d src w
  case h_6 => exact writeRingOp_role d w
  case h_7 => exact writeRelease_role d src w
  case h_8 => exact .ite (writeHoldReq_role d) hd
  case h_9 => exact writeHkCtrl_role d src w
  case h_10 => exact writeHkMon_role d w
  case h_11 => exact (hd.plainWrite src _ w).set
  case h_12 => exact writeStage_role d w
  case h_13 => exact .ite (program_role d src f) hd
  case h_14 =>
    exact .ite (.ite (writeEye_role d src _ w) (.ite hplain hd)) (.ite (writeHrBase_role d src a w) (.ite (writeHk_role d a w) hplain))

theorem softWrite_role (f : Fuses) (d : Dev) (src : Source) (a w : Nat) : SameRole d (softWrite f d src a w) :=
  .ite (.refl d) (.ite (writeLow_role d src a w) (writeHigh_role f d src a w))

/-! ### Commands (R324, R326) -/

theorem done_role (d : Dev) (c : Cmd) (late : Nat) (data : List Nat) : SameRole d (d.done c late data) :=
  .ite (SameRole.refl d).reply (SameRole.refl d).reply

theorem tooBusy_role (d : Dev) (c : Cmd) (retry : Nat) : SameRole d (d.tooBusy c retry) := by
  have hreply (status : Nat) (data : List Nat) : SameRole d ((d.reply c status data).forgetId c) :=
    (SameRole.refl d).reply.trans (.of_regs rfl)
  have hcount (d : Dev) (l : Nat) : SameRole d (d.countLane Reg.LN_MG_STATS_BUSY l) :=
    .ite ((SameRole.refl d).set (Nat.lt_add_right _ (by decide))) (.refl d)
  unfold Dev.tooBusy
  split
  · exact (hreply _ _).trans (hcount _ _)
  · exact (hreply _ _).trans (hcount _ _)
  · exact hreply _ _

theorem cmdRelease_role (d : Dev) (c : Cmd) (late : Nat) : SameRole d (d.cmdRelease c late) := by
  unfold Dev.cmdRelease
  split
  · exact (releaseOk_role _ _ _).trans (done_role _ _ _ _)
  · exact tooBusy_role d c 1000
  · exact (SameRole.refl d).reply

theorem cmdAttest_role (d : Dev) (c : Cmd) : SameRole d (d.cmdAttest c) := by
  unfold Dev.cmdAttest
  split
  · exact (tooBusy_role d c 64).set
  · exact .of_regs rfl

theorem cmdAssign_role (d : Dev) (c : Cmd) (late : Nat) : SameRole d (d.cmdAssign c late) :=
  .ite ((writeLow_role d c.src 0x0108 _).trans (done_role _ _ _ _)) (SameRole.refl d).reply

theorem headgateArrive_role (d : Dev) (c : Cmd) : SameRole d (d.headgateArrive c) := by
  have hrefuse (status : Nat) : SameRole d (d.refuseAction c status) := (SameRole.refl d).reply.set
  unfold Dev.headgateArrive
  exact .ite (hrefuse 4) (.ite (hrefuse 2) (.ite (hrefuse 3) (SameRole.set (.of_regs rfl))))

theorem runCmd_role (f : Fuses) (c : Cmd) (late : Nat) (x : EccDev) : SameRole x.2 (runCmd f id c late x).2 := by
  unfold runCmd
  split
  case h_1 => exact (readWords_role c _ 0 ([], x)).trans (done_role _ _ _ _)
  case h_2 => exact (softWrite_role f x.2 c.src _ _).trans (done_role _ _ _ _)
  case h_3 => exact done_role _ _ _ _
  case h_4 => exact .of_regs rfl
  case h_5 => exact done_role _ _ _ _
  case h_6 => exact cmdRelease_role _ _ _
  case h_7 => exact cmdAttest_role _ _
  case h_8 => exact cmdAssign_role _ _ _
  case h_9 => exact (SameRole.refl _).reply

/-- A command that arrives on a lane leaves the role as it is. -/
theorem takeLocal_role (f : Fuses) (c : Cmd) (x : EccDev) : (takeLocal f c x).2.role = x.2.role := by
  suffices h : SameRole x.2 (takeLocal f c x).2 from h.role
  unfold takeLocal
  split_ifs
  · exact (SameRole.refl _).reply
  · exact headgateArrive_role _ _
  · exact .of_regs rfl
  · exact runCmd_role f c 0 x

end Sys2Proof.Machine
end

section
/-! PROOF. A command that arrives on a lane goes one of a few ways, by what it meets on arrival and whom it names (R36, R37, R38, R365, R366). -/
namespace Sys2Proof.Machine
open Sys2Proof.Safety

-- Many short lemmas elaborated side by side hold a thread each, past the memory of the check.
set_option Elab.async false

/-! ### What a command meets on arrival -/

/-- The command of a message on lane `l`. -/
def Dev.laneCmd (d : Dev) (l : Nat) (m : Msg) : Cmd := { m.cmd (if decide (l < d.role.downLanes) then .downLane else .upLane) with port := l }

/-- Whether a command from lane `l` is for this device to look at: an unnumbered device takes only path-addressed ones from above. -/
def Dev.hears (d : Dev) (l : Nat) (c : Cmd) : Prop := decide (l < d.role.downLanes) = true ∨ d.numbered = true ∨ cmdScope c = 3

/-- Whether a command is taken up: heard, within REQ_LIMIT, new and permitted. -/
def Dev.takes (d : Dev) (l : Nat) (m : Msg) : Prop :=
  d.hears l (d.laneCmd l m) ∧ m.idx < d.reqLimit ∧ (m.origin, m.seq) ∉ d.mg.seen ∧ d.denial (d.laneCmd l m) = none

/-- The device of a state after it took the oldest command message of lane `l`. -/
def Dev.taken (d : Dev) (l : Nat) : Dev := d.updLane l fun x => { x with msgIn := x.msgIn.eraseP fun m => m.kind == 1 }

theorem exec_commandReceived {l : Nat} {m : Msg} {s : State} (hl : l < 48) (hup : s.dev.up = true)
    (hfind : (s.dev.lane l).msgIn.find? (fun m => m.kind == 1) = some m) {x : EccDev}
    (h : commandIn s.fuses l m (s.ecc, s.dev.taken l) = x) : exec (.commandReceived l) s = .next { s with ecc := x.1, dev := x.2 } := by
  have htake : s.dev.takeIn l (fun m => m.kind == 1) = some (m, s.dev.taken l) := by rw [Dev.takeIn, hfind]; rfl
  have hreceived : commandReceived s.fuses l s.ecc s.dev = x := by
    rw [commandReceived, htake]
    exact (if_pos hup).trans h
  subst hreceived
  exact if_pos hl

section Arrival
variable {f : Fuses} {l : Nat} {m : Msg} {ecc : List (Nat × Nat)} {d : Dev}

theorem not_hears_iff {c : Cmd} : (!decide (l < d.role.downLanes) && !d.numbered && cmdScope c != 3) = true ↔ ¬ d.hears l c := by
  simp only [Dev.hears, Bool.and_eq_true, Bool.not_eq_true', bne_iff_ne, decide_eq_false_iff_not, decide_eq_true_eq, not_or,
    Bool.not_eq_true, and_assoc, ne_eq]

theorem commandIn_unheard (h : ¬ d.hears l (d.laneCmd l m)) :
    commandIn f l m (ecc, d) = (ecc, d.addSat (Reg.LN_MG_STATS_DISCARDED l) 1) :=
  if_pos (not_hears_iff.2 h)

theorem commandIn_beyondLimit (h : d.hears l (d.laneCmd l m)) (hidx : d.reqLimit ≤ m.idx) :
    commandIn f l m (ecc, d) = (ecc, d.busyLane (d.laneCmd l m) 63) :=
  (if_neg fun hn => not_hears_iff.1 hn h).trans (if_pos hidx)

theorem commandIn_seen (h : d.hears l (d.laneCmd l m)) (hidx : m.idx < d.reqLimit) (hseen : (m.origin, m.seq) ∈ d.mg.seen) :
    commandIn f l m (ecc, d) = (ecc, d) :=
  (if_neg fun hn => not_hears_iff.1 hn h).trans ((if_neg (Nat.not_le.2 hidx)).trans (if_pos (List.contains_iff_mem.2 hseen)))

theorem commandIn_denied {g : Nat} (h : d.hears l (d.laneCmd l m)) (hidx : m.idx < d.reqLimit) (hnew : (m.origin, m.seq) ∉ d.mg.seen)
    (hden : d.denial (d.laneCmd l m) = some g) :
    commandIn f l m (ecc, d) = (ecc, (d.refuseDenied (d.laneCmd l m) g).keepId (d.laneCmd l m)) := by
  refine (if_neg fun hn => not_hears_iff.1 hn h).trans ((if_neg (Nat.not_le.2 hidx)).trans
    ((if_neg fun hc => hnew (List.contains_iff_mem.1 hc)).trans ?_))
  split
  next g' hg =>
    cases hden.symm.trans hg
    rfl
  next hg => cases hden.symm.trans hg

theorem commandIn_taken (h : d.takes l m) : commandIn f l m (ecc, d) =
    if decide (l < d.role.downLanes) = true then execAlone f (d.laneCmd l m) (ecc, d) else addressed f (d.laneCmd l m) m (ecc, d) := by
  obtain ⟨hhears, hidx, hnew, hden⟩ := h
  refine (if_neg fun hn => not_hears_iff.1 hn hhears).trans ((if_neg (Nat.not_le.2 hidx)).trans
    ((if_neg fun hc => hnew (List.contains_iff_mem.1 hc)).trans ?_))
  split
  next g' hg => cases hden.symm.trans hg
  next => rfl

end Arrival

/-! ### Whom a command names (R37, R38, R289, R524) -/

/-- Whether a command names this device. -/
def Dev.named (d : Dev) (c : Cmd) : Bool := d.numbered && d.devnum == cmdDest c

/-- A command from above that this device executes and no other below it. -/
def Dev.endsHere (d : Dev) (c : Cmd) : Prop :=
  cmdScope c = 0 ∧ d.named c = true
  ∨ d.role = .frontEnd ∧ (cmdScope c = 2 ∨ cmdScope c = 1 ∧ (d.named c || d.below c) = true ∨ cmdScope c = 3 ∧ cmdPathLen c = 2)
  ∨ d.role = .cell ∧ cmdScope c = 3 ∧ cmdPathLen c = 1

/-- A command from above that a cell device executes and sends on to all below it. -/
def Dev.spreads (d : Dev) (c : Cmd) : Prop := d.role = .cell ∧ (cmdScope c = 2 ∨ cmdScope c = 1 ∧ (d.named c || d.below c) = true)

/-- A command from above for one device below a cell device. -/
def Dev.passes (d : Dev) (c : Cmd) : Prop :=
  d.role = .cell ∧ (cmdScope c = 0 ∧ d.named c = false ∨ cmdScope c = 1 ∧ (d.named c || d.below c) = false ∨ cmdScope c = 3 ∧ cmdPathLen c = 2)

/-- The ports that lead to the device a command names. -/
def Dev.portsTo (d : Dev) (c : Cmd) : List Nat :=
  if cmdScope c = 3 then (if d.pathPort (cmdPath c 1) then [cmdPath c 1] else []) else (d.route (cmdDest c)).toList

section Addressed
variable {f : Fuses} {c : Cmd} {m : Msg} {x : EccDev}

theorem addressed_path (h : cmdScope c = 3) : addressed f c m x = pathCmd f c m x := by simp only [addressed, h]

theorem addressed_all (h : cmdScope c = 2) : addressed f c m x = execAndSpread f c m x := by simp only [addressed, h]

theorem addressed_below (h : cmdScope c = 1) (hbelow : (x.2.named c || x.2.below c) = true) : addressed f c m x = execAndSpread f c m x := by
  rw [addressed, h]
  exact if_pos hbelow

theorem addressed_named (h : cmdScope c = 0) (hnamed : x.2.named c = true) : addressed f c m x = execAlone f c x := by
  rw [addressed, h]
  exact if_pos hnamed

/-- A command of scope 0 or 1 that is not for this device. -/
theorem addressed_other (h : cmdScope c = 0 ∧ x.2.named c = false ∨ cmdScope c = 1 ∧ (x.2.named c || x.2.below c) = false) :
    addressed f c m x = if x.2.role == .frontEnd then (x.1, (x.2.reply c 7 []).keepId c)
      else (x.1, x.2.passOn c m (x.2.route (cmdDest c)).toList) := by
  obtain ⟨h, hother⟩ | ⟨h, hother⟩ := h <;> rw [addressed, h] <;> exact if_neg (Bool.not_eq_true _ ▸ hother)

theorem addressed_misrouted (hrole : x.2.role = .frontEnd)
    (h : cmdScope c = 0 ∧ x.2.named c = false ∨ cmdScope c = 1 ∧ (x.2.named c || x.2.below c) = false ∨ cmdScope c = 3 ∧ cmdPathLen c < 2) :
    addressed f c m x = (x.1, (x.2.reply c 7 []).keepId c) := by
  rw [← or_assoc] at h
  obtain h | ⟨hscope, hlen⟩ := h
  · rw [addressed_other h, hrole]
    rfl
  · rw [addressed_path hscope, pathCmd, hrole]
    interval_cases cmdPathLen c <;> rfl

theorem addressed_malformed (hscope : cmdScope c = 3) (hlen : cmdPathLen c = 3) :
    addressed f c m x = (x.1, (x.2.reply c 11 []).keepId c) := by
  rw [addressed_path hscope, pathCmd, hlen]
  cases x.2.role <;> rfl

theorem addressed_passes (h : x.2.passes c) : addressed f c m x = (x.1, x.2.passOn c m (x.2.portsTo c)) := by
  obtain ⟨hrole, h⟩ := h
  rw [← or_assoc] at h
  obtain h | ⟨hscope, hlen⟩ := h
  · have hscope : cmdScope c ≠ 3 := by omega
    rw [addressed_other h, hrole, Dev.portsTo, if_neg hscope]
    rfl
  · rw [addressed_path hscope, Dev.portsTo, if_pos hscope]
    simp only [pathCmd, hrole, hlen]

theorem addressed_spreads (h : x.2.spreads c) : addressed f c m x = execAndSpread f c m x := by
  obtain ⟨-, hscope | ⟨hscope, hbelow⟩⟩ := h
  · exact addressed_all hscope
  · exact addressed_below hscope hbelow

/-! ### Executed here (R366) -/

theorem execHere_busy (h : x.2.execLimit ≤ x.2.mg.execN + x.2.portsAhead c.port) : execHere f c x = (false, x.1, x.2.busyLane c 63) := if_pos h

/-- The device that executes a command from a lane: one more executed, the rotation moved on, the identity kept. -/
def Dev.startsOn (d : Dev) (c : Cmd) : Dev := ({ d with mg := { d.mg with execN := d.mg.execN + 1, rotPort := c.port } } : Dev).keepId c

theorem execHere_runs (h : x.2.mg.execN + x.2.portsAhead c.port < x.2.execLimit) :
    execHere f c x = (true, takeLocal f c (x.1, x.2.startsOn c)) := if_neg (Nat.not_le.2 h)

theorem keepId_keeps (d : Dev) (c : Cmd) : d.keepId c = { d with mg := { d.mg with seen := (d.keepId c).mg.seen } } := by
  unfold Dev.keepId
  split <;> rfl

theorem startsOn_role (d : Dev) (c : Cmd) : (d.startsOn c).role = d.role := by
  rw [Dev.startsOn, keepId_keeps]
  rfl

theorem forward_none (d : Dev) (c : Cmd) (m : Msg) (busy : Dev → Nat → Dev) : d.forward c m [] busy = (true, d) := by
  rfl

/-- A front-end has no port to send anything on by. -/
theorem dataPorts_frontEnd {d : Dev} (h : d.role = .frontEnd) : d.dataPorts = [] := by
  rw [Dev.dataPorts, h]
  rfl

theorem execAndSpread_busy (h : x.2.execLimit ≤ x.2.mg.execN + x.2.portsAhead c.port) : execAndSpread f c m x = (x.1, x.2.busyLane c 63) := by
  rw [execAndSpread, execHere_busy h]
  rfl

theorem execAndSpread_frontEnd (hrole : x.2.role = .frontEnd) (h : x.2.mg.execN + x.2.portsAhead c.port < x.2.execLimit) :
    execAndSpread f c m x = takeLocal f c (x.1, x.2.startsOn c) := by
  have hports : (takeLocal f c (x.1, x.2.startsOn c)).2.dataPorts = [] :=
    dataPorts_frontEnd ((takeLocal_role _ _ _).trans ((startsOn_role _ _).trans hrole))
  rw [execAndSpread, execHere_runs h]
  simp only [hports, ite_self, forward_none]
  rfl

theorem execAlone_busy (h : x.2.execLimit ≤ x.2.mg.execN + x.2.portsAhead c.port) : execAlone f c x = (x.1, x.2.busyLane c 63) := by
  rw [execAlone, execHere_busy h]

theorem execAlone_runs (h : x.2.mg.execN + x.2.portsAhead c.port < x.2.execLimit) :
    execAlone f c x = takeLocal f c (x.1, x.2.startsOn c) := by
  rw [execAlone, execHere_runs h]

/-- A command that ends here is executed alone, or by a front-end that has no ports to spread it on. -/
theorem addressed_endsHere (h : x.2.endsHere c) :
    addressed f c m x = execAlone f c x ∨ x.2.role = .frontEnd ∧ addressed f c m x = execAndSpread f c m x := by
  obtain ⟨hscope, hnamed⟩ | ⟨hrole, hscope | ⟨hscope, hbelow⟩ | ⟨hscope, hlen⟩⟩ | ⟨hrole, hscope, hlen⟩ := h
  · exact .inl (addressed_named hscope hnamed)
  · exact .inr ⟨hrole, addressed_all hscope⟩
  · exact .inr ⟨hrole, addressed_below hscope hbelow⟩
  · left
    rw [addressed_path hscope]
    simp only [pathCmd, hrole, hlen]
  · left
    rw [addressed_path hscope]
    simp only [pathCmd, hrole, hlen]

theorem addressed_runs (h : x.2.endsHere c) (hroom : x.2.mg.execN + x.2.portsAhead c.port < x.2.execLimit) :
    addressed f c m x = takeLocal f c (x.1, x.2.startsOn c) := by
  obtain halone | ⟨hrole, hspread⟩ := addressed_endsHere (f := f) (m := m) h
  · rw [halone, execAlone_runs hroom]
  · rw [hspread, execAndSpread_frontEnd hrole hroom]

theorem addressed_busy (h : x.2.endsHere c ∨ x.2.spreads c) (hfull : x.2.execLimit ≤ x.2.mg.execN + x.2.portsAhead c.port) :
    addressed f c m x = (x.1, x.2.busyLane c 63) := by
  obtain hhere | hspread := h
  · obtain halone | ⟨-, hspread⟩ := addressed_endsHere (f := f) (m := m) hhere
    · rw [halone, execAlone_busy hfull]
    · rw [hspread, execAndSpread_busy hfull]
  · rw [addressed_spreads hspread, execAndSpread_busy hfull]

end Addressed

/-! ### Sent on by a port (R289, R366) -/

/-- A message queued on every port of `ps`. -/
def Dev.queueOn (d : Dev) (m : Msg) (ps : List Nat) : Dev := ps.foldl (fun d p => d.updLane p fun x => { x with fwdQ := x.fwdQ ++ [m] }) d

theorem fwdQ_updLane (d : Dev) (m : Msg) (p q : Nat) :
    ((d.updLane p fun x => { x with fwdQ := x.fwdQ ++ [m] }).lane q).fwdQ = (d.lane q).fwdQ ++ if q = p then [m] else [] := by
  rw [Dev.updLane, Dev.lane_setLane]
  split
  next h => rw [h]
  next => exact (List.append_nil _).symm

/-- Ports that all have room take the message, none is full. -/
theorem fwdOn_room {d : Dev} {m : Msg} {ps : List Nat} (hdup : ps.Nodup) (hroom : ∀ p ∈ ps, (d.lane p).fwdQ.length < 32) :
    d.fwdOn m ps = ([], d.queueOn m ps) := by
  unfold Dev.fwdOn Dev.queueOn
  induction ps generalizing d with
  | nil => rfl
  | cons p ps ih =>
    obtain ⟨hp, hdup⟩ := List.nodup_cons.1 hdup
    rw [List.foldl_cons, List.foldl_cons, if_pos (hroom p (.head _))]
    refine ih hdup fun q hq => ?_
    have hne : q ≠ p := fun e => hp (e ▸ hq)
    rw [fwdQ_updLane, if_neg hne, List.append_nil]
    exact hroom q (.tail _ hq)

theorem queueOn_keeps (d : Dev) (m : Msg) (ps : List Nat) : d.queueOn m ps = { d with lanes := (d.queueOn m ps).lanes } :=
  List.foldlRecOn (motive := fun t : Dev => t = { d with lanes := t.lanes }) _ _ rfl fun t ht p _ => by rw [ht]; rfl

theorem fwdQ_queueOn {d : Dev} {m : Msg} {ps : List Nat} (hdup : ps.Nodup) (q : Nat) :
    ((d.queueOn m ps).lane q).fwdQ = (d.lane q).fwdQ ++ if q ∈ ps then [m] else [] := by
  unfold Dev.queueOn
  induction ps generalizing d with
  | nil => simp
  | cons p ps ih =>
    obtain ⟨hp, hdup⟩ := List.nodup_cons.1 hdup
    rw [List.foldl_cons, ih hdup, fwdQ_updLane]
    by_cases hq : q = p
    · subst hq
      simp [hp]
    · simp [hq]

/-- A message queued on every port of `ps`, which counts once unless it follows its path. -/
def Dev.sentOn (d : Dev) (c : Cmd) (m : Msg) (ps : List Nat) : Dev :=
  if cmdScope c = 3 then d.queueOn m ps else (d.queueOn m ps).addWrap Reg.MRG_MGMT_STATS_FORWARDED 1

theorem sentOn_path {d : Dev} {c : Cmd} {m : Msg} {ps : List Nat} (h : cmdScope c = 3) : d.sentOn c m ps = d.queueOn m ps := if_pos h

theorem sentOn_counted {d : Dev} {c : Cmd} {m : Msg} {ps : List Nat} (h : cmdScope c ≠ 3) :
    d.sentOn c m ps = (d.queueOn m ps).addWrap Reg.MRG_MGMT_STATS_FORWARDED 1 := if_neg h

theorem forward_room {d : Dev} {c : Cmd} {m : Msg} {ps : List Nat} (hdup : ps.Nodup) (hsome : ps ≠ [])
    (hroom : ∀ p ∈ ps, (d.lane p).fwdQ.length < 32) (busy : Dev → Nat → Dev) :
    d.forward c m ps busy = (true, d.sentOn c m ps) := by
  have hany : (0 < ps.length) = True := eq_true (List.length_pos_iff.2 hsome)
  rw [Dev.forward, fwdOn_room hdup hroom]
  by_cases hscope : cmdScope c = 3 <;> simp [hany, hscope, Dev.sentOn]

theorem passOn_nowhere {d : Dev} {c : Cmd} {m : Msg} {ps : List Nat} (h : ps = [] ∨ d.alone = true) :
    d.passOn c m ps = (d.unreachable m).keepId c :=
  if_pos (by simpa [or_comm] using h)

theorem passOn_one {d : Dev} {c : Cmd} {m : Msg} {p : Nat} (halone : d.alone = false) (hroom : (d.lane p).fwdQ.length < 32) :
    d.passOn c m [p] = (d.sentOn c m [p]).keepId c := by
  rw [Dev.passOn, if_neg (by simp [halone]), forward_room (List.nodup_singleton p) (List.cons_ne_nil _ _) (by simpa using hroom)]
  rfl

theorem passOn_full {d : Dev} {c : Cmd} {m : Msg} {p : Nat} (halone : d.alone = false) (hfull : 32 ≤ (d.lane p).fwdQ.length) :
    d.passOn c m [p] = d.busyLane c p := by
  have hfwd : d.fwdOn m [p] = ([p], d) := if_neg (Nat.not_lt.2 hfull)
  rw [Dev.passOn, if_neg (by simp [halone]), Dev.forward, hfwd]
  rfl

theorem dataPorts_nodup (d : Dev) : d.dataPorts.Nodup := List.nodup_range.filter _

/-- Executed here and sent on by every data port. -/
theorem execAndSpread_room {f : Fuses} {c : Cmd} {m : Msg} {x r : EccDev} (hrun : x.2.mg.execN + x.2.portsAhead c.port < x.2.execLimit)
    (hr : takeLocal f c (x.1, x.2.startsOn c) = r) (halone : r.2.alone = false) (hsome : r.2.dataPorts ≠ [])
    (hroom : ∀ p ∈ r.2.dataPorts, (r.2.lane p).fwdQ.length < 32) :
    execAndSpread f c m x = (r.1, (r.2.sentOn c m r.2.dataPorts).keepId c) := by
  have hempty : r.2.dataPorts.isEmpty = false := by simpa using hsome
  rw [execAndSpread, execHere_runs hrun, hr]
  simp only [halone, Bool.false_eq_true, if_false, Bool.not_true, forward_room (dataPorts_nodup r.2) hsome hroom, hempty,
    Bool.not_false, Bool.and_self, if_true]

/-! ### What a message sent on changes -/

theorem keepId_new {d : Dev} {c : Cmd} (h : (c.origin, c.seq) ∉ d.mg.seen) :
    (d.keepId c).mg.seen = ((c.origin, c.seq) :: d.mg.seen).take 64 := by
  rw [Dev.keepId, if_neg fun hc => h (List.contains_iff_mem.1 hc)]

theorem keepId_lane (d : Dev) (c : Cmd) (q : Nat) : (d.keepId c).lane q = d.lane q := by
  rw [keepId_keeps]
  rfl

theorem keepId_get (d : Dev) (c : Cmd) (g : Fld) : (d.keepId c).get g = d.get g := by
  rw [keepId_keeps]
  rfl

theorem queueOn_get (d : Dev) (m : Msg) (ps : List Nat) (g : Fld) : (d.queueOn m ps).get g = d.get g := by
  rw [queueOn_keeps]
  rfl

section SentOn
variable {d : Dev} {c : Cmd} {m : Msg} {ps : List Nat}

theorem sentOn_keeps : d.sentOn c m ps = { d with regs := (d.sentOn c m ps).regs, lanes := (d.sentOn c m ps).lanes } := by
  by_cases h : cmdScope c = 3
  · rw [sentOn_path h, queueOn_keeps]
  · rw [sentOn_counted h, queueOn_keeps]
    rfl

theorem fwdQ_sentOn (hdup : ps.Nodup) (q : Nat) : ((d.sentOn c m ps).lane q).fwdQ = (d.lane q).fwdQ ++ if q ∈ ps then [m] else [] := by
  rw [← fwdQ_queueOn hdup]
  by_cases h : cmdScope c = 3
  · rw [sentOn_path h]
  · rw [sentOn_counted h]
    rfl

theorem get_sentOn_path (h : cmdScope c = 3) (g : Fld) : (d.sentOn c m ps).get g = d.get g := by
  rw [sentOn_path h, queueOn_get]

theorem get_sentOn_counted (h : cmdScope c ≠ 3) :
    (d.sentOn c m ps).get Reg.MRG_MGMT_STATS_FORWARDED = (d.get Reg.MRG_MGMT_STATS_FORWARDED + 1) % 65536 := by
  rw [sentOn_counted h, Dev.addWrap_eq, Dev.get_set_same, queueOn_get]
  rfl

theorem get_sentOn_mod : (d.sentOn c m ps).get Reg.MRG_MGMT_STATS_FORWARDED % 65536 =
    (d.get Reg.MRG_MGMT_STATS_FORWARDED + if cmdScope c = 3 then 0 else 1) % 65536 := by
  split
  next h => rw [get_sentOn_path h, Nat.add_zero]
  next h => rw [get_sentOn_counted h, Nat.mod_mod]

theorem sentOn_seen (h : (c.origin, c.seq) ∉ d.mg.seen) :
    ((d.sentOn c m ps).keepId c).mg.seen = ((c.origin, c.seq) :: d.mg.seen).take 64 := by
  have hseen : (d.sentOn c m ps).mg.seen = d.mg.seen := by
    rw [sentOn_keeps]
  rw [keepId_new (hseen ▸ h), hseen]

theorem regsKeepAll_sentOn : RegsKeepAll [Reg.MRG_MGMT_STATS_FORWARDED.key] d ((d.sentOn c m ps).keepId c) := by
  intro g hg
  rw [keepId_get]
  by_cases h : cmdScope c = 3
  · exact get_sentOn_path h g
  · rw [sentOn_counted h, Dev.addWrap_eq, Dev.get_set_ne _ (by simpa using hg), queueOn_get]

theorem sentOn_keepId_keeps : (d.sentOn c m ps).keepId c =
    { d with regs := ((d.sentOn c m ps).keepId c).regs, lanes := ((d.sentOn c m ps).keepId c).lanes
             mg := { d.mg with seen := ((d.sentOn c m ps).keepId c).mg.seen } } := by
  have hsent := sentOn_keeps (d := d) (c := c) (m := m) (ps := ps)
  generalize d.sentOn c m ps = e at *
  generalize e.regs = regs at hsent
  generalize e.lanes = lanes at hsent
  subst hsent
  unfold Dev.keepId
  split <;> rfl

end SentOn

/-! ### The obligation -/

theorem taken_reqLimit (d : Dev) (l : Nat) : (d.taken l).reqLimit = d.reqLimit := rfl

theorem taken_laneCmd (d : Dev) (l : Nat) (m : Msg) : (d.taken l).laneCmd l m = d.laneCmd l m := rfl

theorem taken_mg (d : Dev) (l : Nat) : (d.taken l).mg = d.mg := rfl

theorem taken_fwdQ (d : Dev) (l q : Nat) : ((d.taken l).lane q).fwdQ = (d.lane q).fwdQ := by
  rw [Dev.taken, Dev.updLane, Dev.lane_setLane]
  split
  next h => rw [h]
  next => rfl

theorem takes_taken {d : Dev} {l : Nat} {m : Msg} : (d.taken l).takes l m ↔
    d.hears l (d.laneCmd l m) ∧ m.idx < d.reqLimit ∧ (m.origin, m.seq) ∉ d.mg.seen ∧ (d.taken l).denial (d.laneCmd l m) = none := by
  rw [Dev.takes, taken_laneCmd, taken_reqLimit, taken_mg]
  rfl

section Taken
variable {f : Fuses} {l : Nat} {m : Msg} {ecc : List (Nat × Nat)} {d : Dev}

theorem commandIn_fromBelow (h : d.takes l m) (hdown : decide (l < d.role.downLanes) = true) :
    commandIn f l m (ecc, d) = execAlone f (d.laneCmd l m) (ecc, d) :=
  (commandIn_taken h).trans (if_pos hdown)

theorem commandIn_fromAbove (h : d.takes l m) (hdown : decide (l < d.role.downLanes) = false) :
    commandIn f l m (ecc, d) = addressed f (d.laneCmd l m) m (ecc, d) :=
  (commandIn_taken h).trans (if_neg (ne_true_of_eq_false hdown))

theorem commandIn_runs (h : d.takes l m) (hhere : decide (l < d.role.downLanes) = true ∨ d.endsHere (d.laneCmd l m))
    (hroom : d.mg.execN + d.portsAhead l < d.execLimit) :
    commandIn f l m (ecc, d) = takeLocal f (d.laneCmd l m) (ecc, d.startsOn (d.laneCmd l m)) := by
  cases hdown : decide (l < d.role.downLanes) with
  | true => exact (commandIn_fromBelow h hdown).trans (execAlone_runs hroom)
  | false =>
    have hends : d.endsHere (d.laneCmd l m) := hhere.resolve_left (ne_true_of_eq_false hdown)
    exact (commandIn_fromAbove h hdown).trans (addressed_runs hends hroom)

theorem commandIn_busy (h : d.takes l m)
    (hwhere : decide (l < d.role.downLanes) = true ∨ d.endsHere (d.laneCmd l m) ∨ d.spreads (d.laneCmd l m))
    (hfull : d.execLimit ≤ d.mg.execN + d.portsAhead l) : commandIn f l m (ecc, d) = (ecc, d.busyLane (d.laneCmd l m) 63) := by
  cases hdown : decide (l < d.role.downLanes) with
  | true => exact (commandIn_fromBelow h hdown).trans (execAlone_busy hfull)
  | false => exact (commandIn_fromAbove h hdown).trans (addressed_busy (hwhere.resolve_left (ne_true_of_eq_false hdown)) hfull)

theorem commandIn_passes (h : d.takes l m) (hdown : decide (l < d.role.downLanes) = false) (hpasses : d.passes (d.laneCmd l m)) :
    commandIn f l m (ecc, d) = (ecc, d.passOn (d.laneCmd l m) m (d.portsTo (d.laneCmd l m))) :=
  (commandIn_fromAbove h hdown).trans (addressed_passes hpasses)

end Taken

/-- Settles O48: what a command meets on arrival, then whom it names, decides which of the ways it goes. -/
theorem commandsArriveOnLanes : Obligations.CommandsArriveOnLanes := by
  unfold Obligations.CommandsArriveOnLanes
  intro l m s hl hup hfind down c d' heard taken own here spread ports away r
  have htakes : taken → (s.dev.taken l).takes l m := takes_taken.2
  have hexec {x : EccDev} (h : commandIn s.fuses l m (s.ecc, s.dev.taken l) = x) := exec_commandReceived hl hup hfind h
  have hspreads : spread → (s.dev.taken l).spreads c := fun ⟨hrole, _, hscope⟩ => ⟨hrole, hscope⟩
  have hpasses (htaken : taken) (haway : away) {qs : List Nat} (hports : ports = qs) {e : Dev} (h : (s.dev.taken l).passOn c m qs = e) :
      commandIn s.fuses l m (s.ecc, s.dev.taken l) = (s.ecc, e) := by
    obtain ⟨hrole, hdown, hscope⟩ := haway
    subst hports h
    exact commandIn_passes (htakes htaken) hdown ⟨hrole, hscope⟩
  refine ⟨fun h => ?_, fun h hidx => ?_, fun h hidx hseen => ?_, fun g h hidx hnew hden => ?_, fun htaken hhere hroom => ?_,
    fun htaken hwhere hfull => ?_, fun htaken hspread hroom halone hsome hports => ?_, fun p htaken haway hp halone hroom => ?_,
    fun p htaken haway hp halone hfull => ?_, fun htaken haway hp => ?_, fun htaken hdown hrole hother => ?_, fun htaken hdown hscope hlen => ?_⟩
  · refine ⟨_, hexec (commandIn_unheard h), (Dev.get_set_same _ _ _).trans ?_, rfl, regsKeepAll_set _ _ _⟩
    exact Nat.mod_eq_of_lt (Nat.lt_succ_of_le (Nat.min_le_right _ 255))
  · exact hexec (commandIn_beyondLimit h hidx)
  · exact hexec (commandIn_seen h hidx hseen)
  · exact hexec (commandIn_denied h hidx hnew hden)
  · exact hexec (commandIn_runs (htakes htaken) hhere hroom)
  · exact hexec (commandIn_busy (htakes htaken) (hwhere.elim (fun h => h.imp_right .inl) fun h => .inr (.inr (hspreads h))) hfull)
  · obtain ⟨-, hdown, hscope⟩ := id hspread
    have hcounted : cmdScope c ≠ 3 := by omega
    have hrun := (commandIn_fromAbove (f := s.fuses) (ecc := s.ecc) (htakes htaken) hdown).trans
      ((addressed_spreads (hspreads hspread)).trans (execAndSpread_room hroom (r := r) rfl halone hsome hports))
    refine ⟨_, hexec hrun, fun p _ => ?_, ?_, ?_, regsKeepAll_sentOn⟩
    · exact (congrArg Lane.fwdQ (keepId_lane _ _ p)).trans (fwdQ_sentOn (dataPorts_nodup _) p)
    · exact (keepId_get _ _ _).trans (get_sentOn_counted hcounted)
    · exact congrArg (fun e : Dev => { s with ecc := r.1, dev := e }) sentOn_keepId_keeps
  · obtain ⟨-, -, hnew, -⟩ := id htaken
    refine ⟨_, hexec (hpasses htaken haway hp (passOn_one halone hroom)), ?_, (congrArg (· % 65536) (keepId_get _ _ _)).trans get_sentOn_mod,
      sentOn_seen hnew, ?_, regsKeepAll_sentOn⟩
    · refine (congrArg Lane.fwdQ (keepId_lane _ _ p)).trans ((fwdQ_sentOn (List.nodup_singleton p) p).trans ?_)
      rw [if_pos (List.mem_singleton_self p)]
      exact congrArg (· ++ [m]) (taken_fwdQ _ _ _)
    · exact congrArg (fun e : Dev => { s with dev := e }) sentOn_keepId_keeps
  · exact hexec (hpasses htaken haway hp (passOn_full halone hfull))
  · exact hexec (hpasses htaken haway rfl (passOn_nowhere hp))
  · exact hexec ((commandIn_fromAbove (htakes htaken) hdown).trans (addressed_misrouted hrole hother))
  · exact hexec ((commandIn_fromAbove (htakes htaken) hdown).trans (addressed_malformed hscope hlen))

end Sys2Proof.Machine
end

section
/-! PROOF. Two statements that a state refutes: O41 and O43 by the count of all flushes, which has twenty-four bits where they wrap it at sixteen. -/
namespace Sys2Proof.Machine
open Sys2Proof.Safety

/-- A front-end whose lane 0 is FRAMED after eight lane frames not accepted, with 65,535 in XC_TOTAL.FLUSHES, a field of twenty-four bits (R400). -/
def flushedOften : State :=
  { State.reset with
    dev := (((Dev.set { State.reset.dev with boot := .running } Reg.GLB_ROLE_STATUS_ACTIVE_ROLE 0).set (Reg.LN_STATUS_LSTATE 0) 2).set
      Reg.XC_TOTAL_FLUSHES 65535).setLane 0 { Lane.init with badRun := 8 } }

theorem flushedOften_unframed : flushedOften.dev.up = true ∧ flushedOften.dev.role.usesLane 0 = true ∧ flushedOften.dev.lstate 0 = 2
    ∧ 8 ≤ (flushedOften.dev.lane 0).badRun := by decide +kernel

/-- What both statements say of the count after one flush more. -/
theorem flushedOften_claim : (flushedOften.dev.get Reg.XC_TOTAL_FLUSHES + 1) % 65536 = 0 := by decide +kernel

theorem flushedOften_framingLost : (flushedOften.dev.framingLost 0).get Reg.XC_TOTAL_FLUSHES = 65536 := by decide +kernel

theorem flushedOften_crossingFlush : (flushedOften.dev.crossingFlush 0 true).get Reg.XC_TOTAL_FLUSHES = 65536 := by decide +kernel

theorem exec_framingLost {l : Nat} (hl : l < 48) (s : State) : exec (.framingLost l) s = onDev (fun d => d.framingLost l) s :=
  onUnit_of_lt hl _ s

theorem exec_crossingFlush {g : Nat} (hg : g < 51) (held : Bool) (s : State) :
    exec (.crossingFlush g held) s = onDev (fun d => d.crossingFlush g held) s := onUnit_of_lt hg _ s

/-- Refutes O41: the flush of a lane that loses framing is said to count modulo 2^16 in XC_TOTAL.FLUSHES, but the count has twenty-four bits (R400)
and goes on to 65,536. -/
theorem not_laneStateTransitions : ¬ Obligations.LaneStateTransitions := by
  rintro ⟨-, -, -, hfall⟩
  obtain ⟨hup, huses, hframed, hbad⟩ := flushedOften_unframed
  obtain ⟨-, -, -, -, -, -, -, -, -, -, -, -, -, -, -, -, -, hflush, -⟩ := of_answers_onDev
    (exec_framingLost (by decide) _) (hfall (.framingLost 0) 0 flushedOften (by decide) hup (.inr ⟨rfl, .inl hframed, hbad⟩))
  obtain ⟨-, -, -, hcount⟩ := hflush huses
  rw [flushedOften_claim] at hcount
  exact absurd (flushedOften_framingLost.symm.trans hcount) (by decide)

/-- Refutes O43: CROSSING_FLUSH is said to count modulo 2^16 in XC_TOTAL.FLUSHES, but the count has twenty-four bits (R400) and goes on to 65,536. -/
theorem not_laneFramesAreAcceptedOrRejected : ¬ Obligations.LaneFramesAreAcceptedOrRejected := by
  rintro ⟨-, -, -, -, -, hflush⟩
  obtain ⟨hup, huses, -⟩ := flushedOften_unframed
  obtain ⟨-, -, hcount, -⟩ := of_answers_onDev (exec_crossingFlush (by decide) true _)
    (hflush (.crossingFlush 0 true) 0 true flushedOften (by decide) hup huses (.inl rfl))
  rw [flushedOften_claim] at hcount
  exact absurd (flushedOften_crossingFlush.symm.trans hcount) (by decide)

end Sys2Proof.Machine
end

section
/-! PROOF. A lane's control bits, each written with the rest of its word as it reads, and the eye scan; O42 from them. -/
namespace Sys2Proof.Machine
open Sys2Proof.Safety

/-! ### One bit of a word changed -/

/-- `v` with bit `b` set or cleared. -/
def withBit (v b : Nat) (on : Bool) : Nat := if on then setBit v b else clearBit v b

theorem bitOf_clearBit (n i j : Nat) : bitOf (clearBit n j) i = (bitOf n i && decide (i ≠ j)) := by
  unfold clearBit
  split
  next hset =>
    have hle : 2 ^ j ≤ n := Nat.ge_two_pow_of_testBit (bitOf_eq_testBit n j ▸ hset)
    have hclear : bitOf (n - 2 ^ j) j = false := by
      have hsum : bitOf (n - 2 ^ j + 2 ^ j) j = true := by rwa [Nat.sub_add_cancel hle]
      simp only [bitOf, Nat.add_div_right _ (Nat.two_pow_pos j), beq_iff_eq, beq_eq_false_iff_ne] at hsum ⊢
      omega
    have hback : setBit (n - 2 ^ j) j = n := by rw [setBit, hclear, if_neg Bool.false_ne_true, Nat.sub_add_cancel hle]
    by_cases h : i = j
    · rw [h, hclear, decide_eq_false (by simp), Bool.and_false]
    · have hsame := bitOf_setBit (n - 2 ^ j) i j
      rw [hback, decide_eq_false h, Bool.or_false] at hsame
      rw [hsame, decide_eq_true h, Bool.and_true]
  next hclear =>
    by_cases h : i = j
    · rw [h, Bool.eq_false_iff.2 hclear, Bool.false_and]
    · rw [decide_eq_true h, Bool.and_true]

theorem bitOf_withBit (v b : Nat) (on : Bool) (i : Nat) : bitOf (withBit v b on) i = if i = b then on else bitOf v i := by
  unfold withBit
  cases on
  · rw [if_neg Bool.false_ne_true, bitOf_clearBit]
    by_cases h : i = b <;> simp [h]
  · rw [if_pos rfl, bitOf_setBit]
    by_cases h : i = b <;> simp [h]

theorem testBit_bits (n lo width i : Nat) : (bits n lo width).testBit i = (decide (i < width) && bitOf n (lo + i)) := by
  rw [bits, Nat.testBit_mod_two_pow, Nat.testBit_div_two_pow, bitOf_eq_testBit, Nat.add_comm]

/-- A field that the bit does not lie in keeps its value. -/
theorem bits_withBit_of_apart {v b lo width : Nat} {on : Bool} (h : b < lo ∨ lo + width ≤ b) :
    bits (withBit v b on) lo width = bits v lo width := by
  refine Nat.eq_of_testBit_eq fun i => ?_
  rw [testBit_bits, testBit_bits, bitOf_withBit]
  by_cases hi : i < width
  · rw [if_neg (by omega)]
  · rw [decide_eq_false hi, Bool.false_and, Bool.false_and]

/-- A field of that bit alone takes it. -/
theorem bits_withBit_one (v b : Nat) (on : Bool) : bits (withBit v b on) b 1 = b2n on := by
  have hbit := bitOf_withBit v b on b
  rw [if_pos rfl, bitOf] at hbit
  rw [bits, ← hbit, b2n]
  split <;> simp_all

/-! ### The word of a register, read field by field -/

theorem readFields_cons (d : Dev) (f : Fld) (fs : List Fld) :
    d.readFields (f :: fs) = d.readField f % 2 ^ f.width * 2 ^ f.lo + d.readFields fs := by
  rw [Dev.readFields, List.map_cons, List.sum_cons, fieldAt, Dev.readFields]

/-- Fields from bit `k` on leave the bits below it 0. -/
theorem two_pow_dvd_readFields (d : Dev) {k : Nat} {fs : List Fld} (h : ∀ f ∈ fs, k ≤ f.lo) : 2 ^ k ∣ d.readFields fs := by
  induction fs with
  | nil => exact dvd_zero _
  | cons f fs ih =>
    rw [readFields_cons]
    exact dvd_add (Dvd.dvd.mul_left (pow_dvd_pow 2 (h f (.head _))) _) (ih fun g hg => h g (.tail _ hg))

/-- Bits from `lo` on see nothing of what stands below them. -/
theorem bits_add_of_lt {a s k lo width : Nat} (ha : a < 2 ^ k) (hs : 2 ^ k ∣ s) (hk : k ≤ lo) : bits (a + s) lo width = bits s lo width := by
  obtain ⟨q, rfl⟩ := hs
  have hsplit : 2 ^ lo = 2 ^ k * 2 ^ (lo - k) := by rw [← pow_add, Nat.add_sub_cancel' hk]
  have hpos := Nat.two_pow_pos k
  rw [bits, bits, hsplit, ← Nat.div_div_eq_div_mul, ← Nat.div_div_eq_div_mul, Nat.add_mul_div_left a q hpos, Nat.div_eq_of_lt ha,
    Nat.zero_add, Nat.mul_div_cancel_left q hpos]

/-- A word of fields in rising order holds each at its place. -/
theorem bits_readFields (d : Dev) {fs : List Fld} (hrise : fs.Pairwise fun a b => a.lo + a.width ≤ b.lo) {g : Fld} (hg : g ∈ fs) :
    bits (d.readFields fs) g.lo g.width = d.readField g % 2 ^ g.width := by
  induction fs with
  | nil => cases hg
  | cons f fs ih =>
    obtain ⟨habove, hrise⟩ := List.pairwise_cons.1 hrise
    have hrest := two_pow_dvd_readFields d habove
    have hlt := Nat.mod_lt (d.readField f) (Nat.two_pow_pos f.width)
    rw [readFields_cons]
    rcases List.mem_cons.1 hg with rfl | hg
    · obtain ⟨q, hq⟩ := hrest
      rw [hq, pow_add, bits, mul_assoc, mul_comm (2 ^ g.lo), ← add_mul, Nat.mul_div_cancel _ (Nat.two_pow_pos _), Nat.add_mul_mod_self_left,
        Nat.mod_mod]
    · rw [bits_add_of_lt (k := f.lo + f.width) ?_ hrest (habove g hg), ih hrise hg]
      rw [pow_add, mul_comm]
      exact Nat.mul_lt_mul_of_pos_left hlt (Nat.two_pow_pos _)

/-! ### LN_CTRL (R375) -/

/-- The fields of LN_CTRL. -/
def lnCtrlFields (l : Nat) : List Fld :=
  [Reg.LN_CTRL_ENABLE l, Reg.LN_CTRL_IDLE l, Reg.LN_CTRL_FULL_EN l, Reg.LN_CTRL_DATA_EN l, Reg.LN_CTRL_ATTESTED l, Reg.LN_CTRL_ALIGN_MODE l,
    Reg.LN_CTRL_SLIP l, Reg.LN_CTRL_ASSAY_START l, Reg.LN_CTRL_TX_INVERT l, Reg.LN_CTRL_RX_INVERT l, Reg.LN_CTRL_SWING l, Reg.LN_CTRL_DEEMPH l,
    Reg.LN_CTRL_CTLE l]

theorem fieldsAt_lnCtrl : ∀ l < 48, fieldsAt (0x5000 + 0x80 * l) = lnCtrlFields l ∧ syncAt (0x5000 + 0x80 * l) = true := by decide +kernel

/-- They rise in the word, so no two are the same; each is plain or the act of a write. -/
theorem lnCtrlFields_apart : ∀ l < 48, ((lnCtrlFields l).Pairwise fun a b => a.lo + a.width ≤ b.lo)
    ∧ ((lnCtrlFields l).Pairwise fun a b => a.key ≠ b.key)
    ∧ (∀ f ∈ lnCtrlFields l, Reg.HM_STATUS_RWL_LOCKED.key ≠ f.key ∧ (f.acc = .rw ∨ f.acc = .wo))
    ∧ ∀ f ∈ lnCtrlFields l, ∀ g ∈ lnCtrlFields l, g ≠ f → f.lo < g.lo ∨ g.lo + g.width ≤ f.lo := by decide +kernel

/-- The commands that change bit `b` of LN_CTRL, the place of field `f`, to `on` (R357, R359, R363). -/
def IsLnBit (c : Instr) (src : Source) (l b : Nat) (on : Bool) (f : Fld) : Prop :=
  c = .laneEnable src l ∧ b = 0 ∧ on = true ∧ f = Reg.LN_CTRL_ENABLE l ∨ c = .laneDisable src l ∧ b = 0 ∧ on = false ∧ f = Reg.LN_CTRL_ENABLE l
    ∨ c = .laneIdleEnter src l ∧ b = 1 ∧ on = true ∧ f = Reg.LN_CTRL_IDLE l ∨ c = .laneIdleExit src l ∧ b = 1 ∧ on = false ∧ f = Reg.LN_CTRL_IDLE l
    ∨ c = .laneAttestSet src l on ∧ b = 4 ∧ f = Reg.LN_CTRL_ATTESTED l

theorem isLnBit_field {c : Instr} {src : Source} {l b : Nat} {on : Bool} {f : Fld} (h : IsLnBit c src l b on f) :
    f ∈ lnCtrlFields l ∧ f.acc = .rw ∧ f.lo = b ∧ f.width = 1 := by
  rcases h with ⟨-, rfl, -, rfl⟩ | ⟨-, rfl, -, rfl⟩ | ⟨-, rfl, -, rfl⟩ | ⟨-, rfl, -, rfl⟩ | ⟨-, rfl, rfl⟩ <;>
    exact ⟨by simp [lnCtrlFields], rfl, rfl, rfl⟩

theorem exec_of_isLnBit {c : Instr} {src : Source} {l b : Nat} {on : Bool} {f : Fld} {s : State} (h : IsLnBit c src l b on f) (hl : l < 48)
    (hp : Passes s.dev src (0x5000 + 0x80 * l)) : exec c s = .next { s with dev := s.dev.lnBit src l b on } := by
  rw [← gated_of_passes hp fun d => d.lnBit src l b on]
  rcases h with ⟨rfl, rfl, rfl, -⟩ | ⟨rfl, rfl, rfl, -⟩ | ⟨rfl, rfl, rfl, -⟩ | ⟨rfl, rfl, rfl, -⟩ | ⟨rfl, rfl, -⟩ <;>
    exact onUnit_of_lt hl _ s

theorem exec_assayStart {src : Source} {l : Nat} {s : State} (hl : l < 48) (hp : Passes s.dev src (0x5000 + 0x80 * l)) :
    exec (.assayStart src l) s = .next { s with dev := s.dev.lnBit src l 10 true } := by
  rw [← gated_of_passes hp fun d => d.lnBit src l 10 true]
  exact onUnit_of_lt hl _ s

/-- A lane the role does not use keeps its word (R374). -/
theorem lnBit_unused {d : Dev} {l : Nat} (hu : d.role.usesLane l = false) (src : Source) (b : Nat) (on : Bool) : d.lnBit src l b on = d :=
  if_neg (by rw [hu]; exact Bool.false_ne_true)

/-- The word of LN_CTRL as it reads, with one bit changed. -/
def Dev.lnWord (d : Dev) (l b : Nat) (on : Bool) : Nat := withBit (d.readFields (fieldsAt (0x5000 + 0x80 * l))) b on

theorem lnBit_used {d : Dev} {l : Nat} (hl : l < 48) (hu : d.role.usesLane l = true) (src : Source) (b : Nat) (on : Bool) :
    d.lnBit src l b on
      = (d.writeFields (lnCtrlFields l) (d.lnWord l b on)).enqueue (.reg src (0x5000 + 0x80 * l) (w32 (d.lnWord l b on))) := by
  obtain ⟨hfields, hsync⟩ := fieldsAt_lnCtrl l hl
  rw [← hfields, ← plainWrite_of_sync hsync]
  exact if_pos hu

/-- What a field of LN_CTRL then holds: a plain one its own bits of the word, the act of a write what it held. -/
theorem get_lnBit {d : Dev} {l : Nat} (hl : l < 48) (hu : d.role.usesLane l = true) (src : Source) (b : Nat) (on : Bool) {g : Fld}
    (hg : g ∈ lnCtrlFields l) :
    (d.lnBit src l b on).get g = if g.acc = .rw then bits (d.lnWord l b on) g.lo g.width else d.get g := by
  obtain ⟨-, hapart, hacc, -⟩ := lnCtrlFields_apart l hl
  rw [lnBit_used hl hu, Dev.get_enqueue, get_writeFields_of_mem _ hg hapart fun f hf => (hacc f hf).1]
  rcases (hacc g hg).2 with h | h <;> simp [Fld.written, h, bits]

/-- Every field of LN_CTRL but the one whose bit changes keeps its value, cut to its width. -/
theorem get_lnBit_ne {d : Dev} {l : Nat} (hl : l < 48) (hu : d.role.usesLane l = true) (src : Source) (on : Bool) {f g : Fld}
    (hf : f ∈ lnCtrlFields l) (hg : g ∈ lnCtrlFields l) (hne : g.acc = .rw → g ≠ f) :
    (d.lnBit src l f.lo on).get g = if g.acc = .rw then d.get g % 2 ^ g.width else d.get g := by
  obtain ⟨hrise, -, -, hapart⟩ := lnCtrlFields_apart l hl
  rw [get_lnBit hl hu src f.lo on hg]
  by_cases h : g.acc = .rw
  · rw [if_pos h, if_pos h, Dev.lnWord, bits_withBit_of_apart (hapart f hf g hg (hne h)), (fieldsAt_lnCtrl l hl).1, bits_readFields d hrise hg,
      Dev.readField, h]
  · rw [if_neg h, if_neg h]

/-- A write that waits changes the register store and the queue. -/
theorem writeFields_enqueue (d : Dev) (fs : List Fld) (w : Nat) (q : Queued) :
    (d.writeFields fs w).enqueue q = { d with regs := (d.writeFields fs w).regs, queue := d.queue ++ [q] } := by
  have hdev := writeFields_regs d fs w
  generalize d.writeFields fs w = e at hdev ⊢
  rw [hdev]
  rfl

/-- The change of one bit is the register's fields and a write that waits. -/
theorem lnBit_keeps {d : Dev} {l : Nat} (hl : l < 48) (hu : d.role.usesLane l = true) (src : Source) (b : Nat) (on : Bool) :
    (d.lnBit src l b on).queue = d.queue ++ [.reg src (0x5000 + 0x80 * l) (w32 (d.lnWord l b on))]
    ∧ d.lnBit src l b on = { d with regs := (d.lnBit src l b on).regs, queue := (d.lnBit src l b on).queue }
    ∧ RegsKeepAll ((fieldsAt (0x5000 + 0x80 * l)).map Fld.key) d (d.lnBit src l b on) := by
  rw [lnBit_used hl hu, (fieldsAt_lnCtrl l hl).1]
  refine ⟨?_, ?_, fun g hg => ?_⟩
  · rw [writeFields_enqueue]
  · rw [writeFields_enqueue]
  · rw [Dev.get_enqueue, get_writeFields_ne _ fun f hf _ e => hg (List.mem_map.2 ⟨f, hf, e.symm⟩)]

theorem lnBit_spec {c : Instr} {src : Source} {l b : Nat} {on : Bool} {f : Fld} {s : State} (hl : l < 48)
    (hp : Passes s.dev src (0x5000 + 0x80 * l)) (hu : s.dev.role.usesLane l = true) (h : IsLnBit c src l b on f) :
    Answers c s fun t =>
      t.dev.flag f = on
      ∧ (∀ g ∈ fieldsAt (0x5000 + 0x80 * l), g ≠ f → t.dev.get g = if g.acc = .rw then s.dev.get g % 2 ^ g.width else s.dev.get g)
      ∧ t.dev.queue = s.dev.queue ++ [.reg src (0x5000 + 0x80 * l)
          (let v := s.dev.readFields (fieldsAt (0x5000 + 0x80 * l)); w32 (if on then setBit v b else clearBit v b))]
      ∧ t = { s with dev := { s.dev with regs := t.dev.regs, queue := t.dev.queue } }
      ∧ RegsKeepAll ((fieldsAt (0x5000 + 0x80 * l)).map Fld.key) s.dev t.dev := by
  obtain ⟨hf, hacc, rfl, hwidth⟩ := isLnBit_field h
  obtain ⟨hqueue, hdev, hregs⟩ := lnBit_keeps hl hu src f.lo on
  refine ⟨_, exec_of_isLnBit h hl hp, flag_of_get_b2n ?_, fun g hg hne => ?_, hqueue, congrArg (fun d : Dev => { s with dev := d }) hdev, hregs⟩
  · rw [get_lnBit hl hu src f.lo on hf, if_pos hacc, hwidth]
    exact bits_withBit_one _ _ on
  · rw [(fieldsAt_lnCtrl l hl).1] at hg
    exact get_lnBit_ne hl hu src on hf hg fun _ => hne

/-- An assay is asked for by the act bit of LN_CTRL, which holds nothing (R369). -/
theorem assayStart_spec {src : Source} {l : Nat} {s : State} (hl : l < 48) (hp : Passes s.dev src (0x5000 + 0x80 * l))
    (hu : s.dev.role.usesLane l = true) :
    Answers (.assayStart src l) s fun t =>
      t.dev.queue = s.dev.queue ++ [.reg src (0x5000 + 0x80 * l) (w32 (setBit (s.dev.readFields (fieldsAt (0x5000 + 0x80 * l))) 10))]
      ∧ (∀ g ∈ fieldsAt (0x5000 + 0x80 * l), t.dev.get g = if g.acc = .rw then s.dev.get g % 2 ^ g.width else s.dev.get g)
      ∧ t = { s with dev := { s.dev with regs := t.dev.regs, queue := t.dev.queue } }
      ∧ RegsKeepAll ((fieldsAt (0x5000 + 0x80 * l)).map Fld.key) s.dev t.dev := by
  obtain ⟨hqueue, hdev, hregs⟩ := lnBit_keeps hl hu src 10 true
  refine ⟨_, exec_assayStart hl hp, hqueue, fun g hg => ?_, congrArg (fun d : Dev => { s with dev := d }) hdev, hregs⟩
  rw [(fieldsAt_lnCtrl l hl).1] at hg
  refine get_lnBit_ne (f := Reg.LN_CTRL_ASSAY_START l) hl hu src true (by simp [lnCtrlFields]) hg ?_
  rintro hacc rfl
  exact absurd hacc (by simp [Reg.LN_CTRL_ASSAY_START])

/-- A command on a lane the role does not use changes nothing. -/
theorem exec_lnCommand_unused {c : Instr} {src : Source} {l a : Nat} {s : State} (hl : l < 48) (hp : Passes s.dev src a)
    (hu : s.dev.role.usesLane l = false)
    (hc : c = .laneEnable src l ∧ a = 0x5000 + 0x80 * l ∨ c = .laneDisable src l ∧ a = 0x5000 + 0x80 * l
      ∨ c = .laneIdleEnter src l ∧ a = 0x5000 + 0x80 * l ∨ c = .laneIdleExit src l ∧ a = 0x5000 + 0x80 * l
      ∨ c = .assayStart src l ∧ a = 0x5000 + 0x80 * l) : exec c s = .next s := by
  have hbit (b : Nat) (on : Bool) : (Host.Outcome.next { s with dev := s.dev.lnBit src l b on } : Res) = .next s := by rw [lnBit_unused hu]
  rcases hc with ⟨rfl, rfl⟩ | ⟨rfl, rfl⟩ | ⟨rfl, rfl⟩ | ⟨rfl, rfl⟩ | ⟨rfl, rfl⟩
  · exact (exec_of_isLnBit (.inl ⟨rfl, rfl, rfl, rfl⟩) hl hp).trans (hbit _ _)
  · exact (exec_of_isLnBit (.inr (.inl ⟨rfl, rfl, rfl, rfl⟩)) hl hp).trans (hbit _ _)
  · exact (exec_of_isLnBit (.inr (.inr (.inl ⟨rfl, rfl, rfl, rfl⟩))) hl hp).trans (hbit _ _)
  · exact (exec_of_isLnBit (.inr (.inr (.inr (.inl ⟨rfl, rfl, rfl, rfl⟩)))) hl hp).trans (hbit _ _)
  · exact (exec_assayStart hl hp).trans (hbit _ _)

/-! ### The eye scan (R371, R379, R380) -/

/-- The fields of LN_EYE_CTRL. -/
def eyeFields (l : Nat) : List Fld :=
  [Reg.LN_EYE_CTRL_H l, Reg.LN_EYE_CTRL_V l, Reg.LN_EYE_CTRL_DWELL_LOG2 l, Reg.LN_EYE_CTRL_START l, Reg.LN_EYE_CTRL_BUSY l, Reg.LN_EYE_CTRL_DONE l]

theorem fieldsAt_eyeCtrl : ∀ l < 48, fieldsAt (0x5024 + 0x80 * l) = eyeFields l ∧ syncAt (0x5024 + 0x80 * l) = false := by decide +kernel

/-- The settings among them; the others are the device's own, and the act. -/
def eyeSettings (l : Nat) : List Fld := [Reg.LN_EYE_CTRL_H l, Reg.LN_EYE_CTRL_V l, Reg.LN_EYE_CTRL_DWELL_LOG2 l]

theorem eyeSettings_apart : ∀ l < 48, ((eyeSettings l).Pairwise fun a b => a.key ≠ b.key)
    ∧ (∀ f ∈ eyeSettings l, Reg.HM_STATUS_RWL_LOCKED.key ≠ f.key ∧ f.acc = .rw)
    ∧ ∀ f ∈ eyeSettings l, f.key ∉ [(Reg.LN_EYE_CTRL_BUSY l).key, (Reg.LN_EYE_CTRL_DONE l).key, (Reg.LN_EYE_ERR_ERRORS l).key] := by
  decide +kernel

theorem writeFields_eye (d : Dev) (l w : Nat) : d.writeFields (eyeFields l) w = d.writeFields (eyeSettings l) w := rfl

theorem get_eyeSetting {d : Dev} {l : Nat} (hl : l < 48) (w : Nat) {f : Fld} (hf : f ∈ eyeSettings l) :
    (d.writeFields (eyeSettings l) w).get f = bits w f.lo f.width := by
  obtain ⟨hapart, hacc, -⟩ := eyeSettings_apart l hl
  exact get_writeFields_rw w hf hapart (fun g hg => (hacc g hg).1) (hacc f hf).2

/-- What the register shows of a scan: whether it runs, whether it is done, and the disagreements found. -/
def eyeShown (l busy done errors : Nat) : List (Fld × Nat) :=
  [(Reg.LN_EYE_CTRL_BUSY l, busy), (Reg.LN_EYE_CTRL_DONE l, done), (Reg.LN_EYE_ERR_ERRORS l, errors)]

def eyeShownKeys (l : Nat) : List Nat := [(Reg.LN_EYE_CTRL_BUSY l).key, (Reg.LN_EYE_CTRL_DONE l).key, (Reg.LN_EYE_ERR_ERRORS l).key]

/-- In whatever order they are set, these fields show it and no other changes. -/
theorem eyeShown_spec {d : Dev} {l busy done errors : Nat} {ps : List (Fld × Nat)} (hps : ps.Perm (eyeShown l busy done errors)) :
    (d.setAll ps).get (Reg.LN_EYE_CTRL_BUSY l) = busy % 2 ∧ (d.setAll ps).get (Reg.LN_EYE_CTRL_DONE l) = done % 2
    ∧ (d.setAll ps).get (Reg.LN_EYE_ERR_ERRORS l) = errors % 2 ^ 32 ∧ RegsKeepAll (eyeShownKeys l) d (d.setAll ps) := by
  have hapart : ((eyeShown l busy done errors).map Prod.fst).Pairwise fun a b => a.key ≠ b.key := by
    simp [eyeShown, Fld.key, Reg.LN_EYE_CTRL_BUSY, Reg.LN_EYE_CTRL_DONE, Reg.LN_EYE_ERR_ERRORS]
    omega
  have hget {f : Fld} {v : Nat} (hf : (f, v) ∈ eyeShown l busy done errors) : (d.setAll ps).get f = v % 2 ^ f.width :=
    get_setAll_of_mem rfl (((hps.map Prod.fst).pairwise_iff fun h => h.symm).2 hapart) (hps.mem_iff.2 hf)
  refine ⟨hget (by simp [eyeShown]), hget (by simp [eyeShown]), hget (by simp [eyeShown]), fun g hg => get_setAll_ne fun p hp e => hg ?_⟩
  exact e ▸ (hps.map fun p => p.1.key).mem_iff.1 (List.mem_map_of_mem hp)

theorem exec_eyeScanStart {src : Source} {l : Nat} {v : Word} {s : State} (hl : l < 48) (hp : Passes s.dev src (0x5024 + 0x80 * l)) :
    exec (.eyeScanStart src l v) s = .next { s with dev := s.dev.writeEye src l v.toNat } := by
  rw [← gated_of_passes hp fun d => d.writeEye src l v.toNat]
  exact onUnit_of_lt hl _ s

/-- A scan of the lane begins in frame `fn`. -/
def Lane.scansFrom (fn : Nat) (x : Lane) : Lane := { x with eyeFn := fn }

/-- A write takes the settings; with START, and no throttle actions in force, it begins a scan (R371, R495). -/
theorem writeEye_eq {d : Dev} {l : Nat} (hl : l < 48) (hu : d.role.usesLane l = true) (src : Source) (w : Nat) :
    d.writeEye src l w = if bitOf w 17 = true ∧ d.pw.throttle = false then
        ((d.writeFields (eyeSettings l) w).setAll (eyeShown l 1 0 0)).updLane l (Lane.scansFrom d.fn)
      else d.writeFields (eyeSettings l) w := by
  obtain ⟨hfields, hsync⟩ := fieldsAt_eyeCtrl l hl
  have hwrite := plainWrite_of_not_sync (d := d) (src := src) (w := w) hsync
  rw [hfields, writeFields_eye] at hwrite
  have hdev := writeFields_regs d (eyeSettings l) w
  unfold Dev.writeEye
  rw [hu, hwrite]
  generalize d.writeFields (eyeSettings l) w = e at hdev ⊢
  rw [hdev]
  simp only [Bool.not_true, Bool.false_eq_true, if_false, Bool.and_eq_true, Bool.not_eq_true']
  rfl

/-- The settings and what the register shows of a scan. -/
theorem get_eyeShown_settings {d : Dev} {l busy done errors : Nat} (hl : l < 48) (w : Nat) {f : Fld} (hf : f ∈ eyeSettings l) :
    ((d.writeFields (eyeSettings l) w).setAll (eyeShown l busy done errors)).get f = bits w f.lo f.width :=
  ((eyeShown_spec (.refl _)).2.2.2 f ((eyeSettings_apart l hl).2.2 f hf)).trans (get_eyeSetting hl w hf)

theorem exec_eyeScanDone {l : Nat} (hl : l < 48) (e : Nat) (s : State) : exec (.eyeScanDone l e) s = .next { s with dev := s.dev.eyeDone l e } :=
  onUnit_of_lt hl _ s

/-- The disagreements that the end of a scan shows, none at the centre (R371). -/
def Dev.eyeErrors (d : Dev) (l e : Nat) : Nat :=
  if d.get (Reg.LN_EYE_CTRL_H l) = 0 ∧ d.get (Reg.LN_EYE_CTRL_V l) = 0 then 0 else min e (2 ^ 32 - 1)

theorem eyeErrors_lt (d : Dev) (l e : Nat) : d.eyeErrors l e < 2 ^ 32 := by
  unfold Dev.eyeErrors
  split <;> omega

/-- The end of a scan, in the order its fields are set. -/
def eyeEnd (l errors : Nat) : List (Fld × Nat) := [(Reg.LN_EYE_ERR_ERRORS l, errors), (Reg.LN_EYE_CTRL_BUSY l, 0), (Reg.LN_EYE_CTRL_DONE l, 1)]

theorem eyeEnd_perm (l errors : Nat) : (eyeEnd l errors).Perm (eyeShown l 0 1 errors) :=
  List.perm_append_comm (l₁ := [(Reg.LN_EYE_ERR_ERRORS l, errors)]) (l₂ := [(Reg.LN_EYE_CTRL_BUSY l, 0), (Reg.LN_EYE_CTRL_DONE l, 1)])

theorem eyeDone_eq {d : Dev} {l : Nat} (hup : d.up = true) (hbusy : d.get (Reg.LN_EYE_CTRL_BUSY l) = 1)
    (hdue : (d.lane l).eyeFn + 2 ^ (20 + min 12 (d.get (Reg.LN_EYE_CTRL_DWELL_LOG2 l))) / (if (d.lane l).txFull then 20000 else 5000) ≤ d.fn)
    (e : Nat) : d.eyeDone l e = d.setAll (eyeEnd l (d.eyeErrors l e)) := by
  have hflag : d.flag (Reg.LN_EYE_CTRL_BUSY l) = true := by rw [Dev.flag, hbusy]; rfl
  unfold Dev.eyeDone
  simp only [hup, hflag, hdue, decide_true, Bool.and_self, whenD_true, Bool.and_eq_true, beq_iff_eq]
  rfl

/-- A device of which only the register store changed, and then one lane. -/
theorem onlyRegs_updLane {d e : Dev} (h : e = { d with regs := e.regs }) (l : Nat) (g : Lane → Lane) :
    (e.updLane l g).lane l = g (d.lane l) ∧ (∀ m, m ≠ l → (e.updLane l g).lane m = d.lane m)
    ∧ e.updLane l g = { d with regs := (e.updLane l g).regs, lanes := (e.updLane l g).lanes } := by
  rw [h]
  exact ⟨Dev.lane_setLane_same _ l _, fun m hm => getT_putT_ne _ hm _ _, rfl⟩

theorem onlyRegs_setAll {d e : Dev} (h : e = { d with regs := e.regs }) (ps : List (Fld × Nat)) :
    e.setAll ps = { d with regs := (e.setAll ps).regs } := by
  have hset := setAll_regs e ps
  generalize e.setAll ps = x at hset ⊢
  generalize x.regs = r at hset ⊢
  rw [hset, h]

def eyeKeys (l : Nat) : List Nat := (eyeSettings l).map Fld.key ++ eyeShownKeys l

theorem regsKeepAll_eyeSettings (d : Dev) (l w : Nat) : RegsKeepAll (eyeKeys l) d (d.writeFields (eyeSettings l) w) :=
  regsKeepAll_mono (regsKeepAll_writeFields rfl) fun _ => List.mem_append_left _

/-- A write of the settings leaves what the register shows of a scan. -/
theorem get_writeFields_eyeShown (d : Dev) {l : Nat} (hl : l < 48) (w : Nat) :
    (d.writeFields (eyeSettings l) w).get (Reg.LN_EYE_CTRL_BUSY l) = d.get (Reg.LN_EYE_CTRL_BUSY l)
    ∧ (d.writeFields (eyeSettings l) w).get (Reg.LN_EYE_CTRL_DONE l) = d.get (Reg.LN_EYE_CTRL_DONE l)
    ∧ (d.writeFields (eyeSettings l) w).get (Reg.LN_EYE_ERR_ERRORS l) = d.get (Reg.LN_EYE_ERR_ERRORS l) := by
  have hapart := (eyeSettings_apart l hl).2.2
  have hkeep {g : Fld} (hg : g.key ∈ eyeShownKeys l) : (d.writeFields (eyeSettings l) w).get g = d.get g :=
    regsKeepAll_writeFields rfl g fun hmem => by
      obtain ⟨f, hf, hkey⟩ := List.mem_map.1 hmem
      exact hapart f hf (hkey ▸ hg)
  exact ⟨hkeep (by simp [eyeShownKeys]), hkeep (by simp [eyeShownKeys]), hkeep (by simp [eyeShownKeys])⟩

theorem eyeScanStart_spec {src : Source} {l : Nat} {v : Word} {s : State} (hl : l < 48) (hp : Passes s.dev src (0x5024 + 0x80 * l))
    (hu : s.dev.role.usesLane l = true) :
    Answers (.eyeScanStart src l v) s fun t =>
      t.dev.get (Reg.LN_EYE_CTRL_H l) = v.toNat % 64 ∧ t.dev.get (Reg.LN_EYE_CTRL_V l) = v.toNat / 64 % 128
      ∧ t.dev.get (Reg.LN_EYE_CTRL_DWELL_LOG2 l) = v.toNat / 8192 % 16
      ∧ ((bitOf v.toNat 17 = true ∧ s.dev.pw.throttle = false) →
          t.dev.get (Reg.LN_EYE_CTRL_BUSY l) = 1 ∧ t.dev.get (Reg.LN_EYE_CTRL_DONE l) = 0 ∧ t.dev.get (Reg.LN_EYE_ERR_ERRORS l) = 0
          ∧ t.dev.lane l = { s.dev.lane l with eyeFn := s.dev.fn })
      ∧ (¬ (bitOf v.toNat 17 = true ∧ s.dev.pw.throttle = false) →
          t.dev.lane l = s.dev.lane l ∧ t.dev.get (Reg.LN_EYE_CTRL_BUSY l) = s.dev.get (Reg.LN_EYE_CTRL_BUSY l)
          ∧ t.dev.get (Reg.LN_EYE_CTRL_DONE l) = s.dev.get (Reg.LN_EYE_CTRL_DONE l)
          ∧ t.dev.get (Reg.LN_EYE_ERR_ERRORS l) = s.dev.get (Reg.LN_EYE_ERR_ERRORS l))
      ∧ (∀ m : Nat, m ≠ l → t.dev.lane m = s.dev.lane m)
      ∧ t = { s with dev := { s.dev with regs := t.dev.regs, lanes := t.dev.lanes } }
      ∧ RegsKeepAll [(Reg.LN_EYE_CTRL_H l).key, (Reg.LN_EYE_CTRL_V l).key, (Reg.LN_EYE_CTRL_DWELL_LOG2 l).key, (Reg.LN_EYE_CTRL_BUSY l).key,
          (Reg.LN_EYE_CTRL_DONE l).key, (Reg.LN_EYE_ERR_ERRORS l).key] s.dev t.dev := by
  have hset {d : Dev} (h : ∀ f ∈ eyeSettings l, d.get f = bits v.toNat f.lo f.width) :
      d.get (Reg.LN_EYE_CTRL_H l) = v.toNat % 64 ∧ d.get (Reg.LN_EYE_CTRL_V l) = v.toNat / 64 % 128
      ∧ d.get (Reg.LN_EYE_CTRL_DWELL_LOG2 l) = v.toNat / 8192 % 16 := by
    simp only [eyeSettings, List.forall_mem_cons] at h
    obtain ⟨hH, hV, hdwell, -⟩ := h
    exact ⟨hH.trans (bits_zero _ _), hV, hdwell⟩
  have hwritten := writeFields_regs s.dev (eyeSettings l) v.toNat
  refine ⟨_, exec_eyeScanStart hl hp, ?_⟩
  rw [writeEye_eq hl hu]
  split
  next hgo =>
    obtain ⟨hbusy, hdone, herrors, hregs⟩ := eyeShown_spec (d := s.dev.writeFields (eyeSettings l) v.toNat) (.refl (eyeShown l 1 0 0))
    obtain ⟨hH, hV, hdwell⟩ := hset fun f => get_eyeShown_settings (d := s.dev) (busy := 1) (done := 0) (errors := 0) hl v.toNat
    obtain ⟨hlane, hothers, hdev⟩ := onlyRegs_updLane (onlyRegs_setAll hwritten (eyeShown l 1 0 0)) l (Lane.scansFrom s.dev.fn)
    have hkeep : RegsKeepAll (eyeKeys l) s.dev ((s.dev.writeFields (eyeSettings l) v.toNat).setAll (eyeShown l 1 0 0)) :=
      regsKeepAll_trans (regsKeepAll_eyeSettings s.dev l v.toNat) (regsKeepAll_mono hregs fun _ => List.mem_append_right _)
    exact ⟨hH, hV, hdwell, fun _ => ⟨hbusy, hdone, herrors, hlane⟩, fun h => absurd hgo h, hothers,
      congrArg (fun d : Dev => { s with dev := d }) hdev, hkeep⟩
  next hno =>
    obtain ⟨hH, hV, hdwell⟩ := hset fun f => get_eyeSetting (d := s.dev) hl v.toNat
    obtain ⟨hbusy, hdone, herrors⟩ := get_writeFields_eyeShown s.dev hl v.toNat
    have hkeep := regsKeepAll_eyeSettings s.dev l v.toNat
    generalize s.dev.writeFields (eyeSettings l) v.toNat = d at hH hV hdwell hbusy hdone herrors hkeep hwritten ⊢
    have hlane (m : Nat) : d.lane m = s.dev.lane m := by rw [hwritten]; rfl
    refine ⟨hH, hV, hdwell, fun h => absurd h hno, fun _ => ⟨hlane l, hbusy, hdone, herrors⟩, fun m _ => hlane m, ?_, hkeep⟩
    rw [hwritten]

theorem eyeScanDone_spec {l e : Nat} {s : State} (hl : l < 48) (hup : s.dev.up = true) (hbusy : s.dev.get (Reg.LN_EYE_CTRL_BUSY l) = 1)
    (hdue : (s.dev.lane l).eyeFn + 2 ^ (20 + min 12 (s.dev.get (Reg.LN_EYE_CTRL_DWELL_LOG2 l))) / (if (s.dev.lane l).txFull then 20000 else 5000)
      ≤ s.dev.fn) :
    Answers (.eyeScanDone l e) s fun t =>
      t.dev.get (Reg.LN_EYE_CTRL_BUSY l) = 0 ∧ t.dev.get (Reg.LN_EYE_CTRL_DONE l) = 1
      ∧ t.dev.get (Reg.LN_EYE_ERR_ERRORS l) =
          (if s.dev.get (Reg.LN_EYE_CTRL_H l) = 0 ∧ s.dev.get (Reg.LN_EYE_CTRL_V l) = 0 then 0 else min e (2 ^ 32 - 1))
      ∧ t = { s with dev := { s.dev with regs := t.dev.regs } }
      ∧ RegsKeepAll [(Reg.LN_EYE_CTRL_BUSY l).key, (Reg.LN_EYE_CTRL_DONE l).key, (Reg.LN_EYE_ERR_ERRORS l).key] s.dev t.dev := by
  refine ⟨_, exec_eyeScanDone hl e s, ?_⟩
  rw [eyeDone_eq hup hbusy hdue]
  obtain ⟨hbusy, hdone, herrors, hregs⟩ := eyeShown_spec (d := s.dev) (eyeEnd_perm l (s.dev.eyeErrors l e))
  refine ⟨hbusy, hdone, herrors.trans (Nat.mod_eq_of_lt (eyeErrors_lt _ l e)),
    congrArg (fun d : Dev => { s with dev := d }) (setAll_regs _ _), hregs⟩

/-- Settles O42: each control command is one bit written into the word that the boundary takes over; the eye scan's start writes its settings
and its end shows the disagreements. -/
theorem laneControlsAndEyeScan : Obligations.LaneControlsAndEyeScan :=
  ⟨@lnBit_spec, @assayStart_spec, @exec_lnCommand_unused, @eyeScanStart_spec, @eyeScanDone_spec⟩

end Sys2Proof.Machine
end

section
/-! PROOF. A ledger entry and an assay's verdict, by what they can change; the verdict of a lane's assay and the steps of a crossing; O44 from them. -/
namespace Sys2Proof.Machine
open Sys2Proof.Safety

/-! ### What a ledger entry can change (R502, R505) -/

def ledgerKeys : List Nat := [Reg.LDG_STATUS_NEXT_SLOT.key, Reg.LDG_STATUS_WRITE_ERR.key]

/-- Nothing changes but the ledger and its register. -/
structure LedgerStep (d t : Dev) : Prop where
  work : t = { d with regs := t.regs, ledger := t.ledger }
  regs : RegsKeepAll ledgerKeys d t

theorem LedgerStep.trans {a b c : Dev} (h : LedgerStep a b) (k : LedgerStep b c) : LedgerStep a c :=
  ⟨by rw [k.work, h.work], regsKeepAll_trans h.regs k.regs⟩

theorem LedgerStep.withLedger (d : Dev) (m : List (Nat × Nat)) : LedgerStep d { d with ledger := m } := ⟨rfl, fun _ _ => rfl⟩

theorem LedgerStep.set {d : Dev} {f : Fld} {v : Nat} (hf : f.key ∈ ledgerKeys) : LedgerStep d (d.set f v) := ⟨rfl, regsKeepAll_set_of_mem hf⟩

theorem ldgSetHeader_step (d : Dev) (seq boot overwrites slot : Nat) : LedgerStep d (d.ldgSetHeader seq boot overwrites slot) :=
  (LedgerStep.withLedger d _).trans (.set (by simp [ledgerKeys]))

theorem ldgWriteSlot_step (d : Dev) (slot : Nat) (ws : List Nat) : LedgerStep d (d.ldgWriteSlot slot ws).2 := by
  unfold Dev.ldgWriteSlot
  dsimp only
  split
  · exact (LedgerStep.withLedger d _).trans (.set (by simp [ledgerKeys]))
  · exact .withLedger d _

theorem ldgEntry_step (d : Dev) (typ : Nat) (payload : List Nat) : LedgerStep d (d.ldgEntry typ payload).2 := by
  unfold Dev.ldgEntry
  extract_lets h seq slot used w0 w7 ws first slot2 second
  have hfirst : LedgerStep d first.2 := ldgWriteSlot_step _ _ _
  split
  · exact hfirst.trans (ldgSetHeader_step _ _ _ _ _)
  · exact (hfirst.trans (ldgWriteSlot_step _ _ _)).trans (ldgSetHeader_step _ _ _ _ _)

/-! ### The verdict of an assay (R419, R421, R422, R441) -/

/-- The words of the entry that raised assay `a`, with verdict `v`. -/
def Dev.verdictWords (d : Dev) (a : Assay) (v : Nat) : List Nat :=
  let ws := d.logSlot (a.slot % 256)
  [nth ws 0 + v * 256, nth ws 1, nth ws 2, nth ws 3]

/-- The unit's assays end; the entry, where it still stands, takes the verdict and is reported. -/
def Dev.closeAssay (d : Dev) (a : Assay) (u : UnitId) (v : Nat) : Dev :=
  let ws := d.verdictWords a v
  let e := d.setAssays (d.flt.assays.filter fun x => x.u != u)
  if nth (d.logSlot (a.slot % 256)) 3 % 65536 == a.slot % 65536 then
    (e.setLogSlot (a.slot % 256) ws).raise 9 2 [nth ws 0, nth ws 2, nth ws 3]
  else e

theorem closeAssay_step (d : Dev) (a : Assay) (u : UnitId) (v : Nat) : LogStep d (d.closeAssay a u v) := by
  have hend := setAssays_step d (d.flt.assays.filter fun x => x.u != u)
  unfold Dev.closeAssay
  dsimp only
  split
  · exact (hend.trans (.withFlt _ _)).trans (.of_talks (raise_talks _ _ _ _))
  · exact hend

theorem closeAssay_assays (d : Dev) (a : Assay) (u : UnitId) (v : Nat) :
    (d.closeAssay a u v).flt.assays = d.flt.assays.filter fun x => x.u != u := by
  unfold Dev.closeAssay
  dsimp only
  split
  · rw [Dev.raise_flt]
    rfl
  · rfl

/-- A verdict not lasting closes the assay and counts. -/
theorem verdict_of_not_lasting {d : Dev} {a : Assay} {u : UnitId} {v : Nat} (hfind : d.flt.assays.find? (fun a => a.u == u) = some a) (hv : v ≠ 2) :
    ∃ f n, d.verdict u v = (d.closeAssay a u v).set f n := by
  unfold Dev.verdict
  rw [hfind]
  dsimp only
  rw [if_neg hv]
  split
  · exact ⟨_, _, rfl⟩
  · exact absurd rfl hv
  · exact ⟨_, _, rfl⟩

/-- A lasting one besides goes to the ledger. -/
theorem verdict_of_lasting {d : Dev} {a : Assay} {u : UnitId} (hfind : d.flt.assays.find? (fun a => a.u == u) = some a) :
    d.verdict u 2 = (((d.closeAssay a u 2).addSat Reg.FLT_COUNT_ASSAY_LASTING 1).ldgEntry 2 (d.verdictWords a 2)).2 := by
  unfold Dev.verdict
  rw [hfind]
  rfl

theorem lastingCount_kept : Reg.FLT_COUNT_ASSAY_LASTING.key ∉ logKeys ∧ Reg.FLT_COUNT_ASSAY_LASTING.key ∉ ledgerKeys
    ∧ ¬ countsTalk Reg.FLT_COUNT_ASSAY_LASTING.key :=
  ⟨by decide, by decide, notTalk (.inr (by decide)) (by decide)⟩

/-- The end of the assays of unit `u` by verdict `v`. -/
structure VerdictStep (u : UnitId) (v : Nat) (d t : Dev) : Prop where
  work : t = { talked d t with flt := t.flt, ledger := t.ledger }
  assays : t.flt.assays = d.flt.assays.filter fun x => x.u != u
  lasting : v = 2 → t.get Reg.FLT_COUNT_ASSAY_LASTING = min (d.get Reg.FLT_COUNT_ASSAY_LASTING + 1) 255
  ledger : v ≠ 2 → t.ledger = d.ledger

theorem verdict_step {d : Dev} {a : Assay} {u : UnitId} (hfind : d.flt.assays.find? (fun a => a.u == u) = some a) (v : Nat) :
    VerdictStep u v d (d.verdict u v) := by
  have hclose := closeAssay_step d a u v
  have hassays := closeAssay_assays d a u v
  by_cases hv : v = 2
  · subst hv
    obtain ⟨hlog, hledger, htalk⟩ := lastingCount_kept
    have hentry := ldgEntry_step ((d.closeAssay a u 2).addSat Reg.FLT_COUNT_ASSAY_LASTING 1) 2 (d.verdictWords a 2)
    have hcount := hclose.regs _ hlog htalk
    rw [verdict_of_lasting hfind]
    refine ⟨?_, ?_, fun _ => ?_, fun h => absurd rfl h⟩
    · rw [hentry.work, Dev.addSat_eq, hclose.work]
      rfl
    · rw [hentry.work]
      exact hassays
    · rw [hentry.regs _ hledger, Dev.addSat_eq, Dev.get_set_same, hcount]
      exact Nat.mod_eq_of_lt (Nat.lt_succ_of_le (min_le_right _ _))
  · obtain ⟨f, n, heq⟩ := verdict_of_not_lasting hfind hv
    rw [heq]
    refine ⟨?_, hassays, fun h => absurd h hv, fun _ => ?_⟩
    · rw [hclose.work]
      rfl
    · rw [hclose.work]
      rfl

/-! ### The verdict of a lane's assay (R370) -/

/-- The error lasts: a PRBS error, or CRC errors up to the limit. -/
abbrev Dev.laneLasting (d : Dev) (l : Nat) : Prop :=
  0 < d.get (Reg.LN_ASSAY_ERR_PRBS_ERR l) ∨ max 1 (d.get Reg.LN_ASSAY_CFG_CRC_LIMIT) ≤ d.get (Reg.LN_ASSAY_ERR_CRC_ERR l)

def Dev.assayFrames (d : Dev) : Nat := max 1 (d.get Reg.LN_ASSAY_CFG_ASSAY_FRAMES)

/-- Enough frames and words have passed. -/
abbrev Dev.laneClean (d : Dev) (l : Nat) (a : Assay) : Prop :=
  a.fn + d.assayFrames ≤ d.fn ∧ 1024 * max 1 (d.get Reg.LN_ASSAY_CFG_MIN_KWORDS) ≤ d.get (Reg.LN_ASSAY_WORDS_WORDS l)

/-- The verdict of lane `l`'s assay `a`, where one is due: lasting, transient or inconclusive. -/
def Dev.laneFinding (d : Dev) (l : Nat) (a : Assay) : Nat := if d.laneLasting l then 2 else if d.laneClean l a then 1 else 3

theorem laneFinding_lt (d : Dev) (l : Nat) (a : Assay) : d.laneFinding l a < 4 := by
  unfold Dev.laneFinding
  split
  · decide
  · split <;> decide

theorem laneFinding_ne_zero (d : Dev) (l : Nat) (a : Assay) : d.laneFinding l a ≠ 0 := by
  unfold Dev.laneFinding
  split
  · decide
  · split <;> decide

theorem laneFinding_eq_two {d : Dev} {l : Nat} {a : Assay} : d.laneFinding l a = 2 ↔ d.laneLasting l := by
  unfold Dev.laneFinding
  split
  next h => simp [h]
  next h => split <;> simp [h]

/-- A lane's verdict shown in LN_STATUS and reported. -/
def Dev.showVerdict (d : Dev) (l v : Nat) (data : List Nat) : Dev :=
  ((d.set (Reg.LN_STATUS_ASSAY_VERDICT l) v).setB (Reg.LN_STATUS_ASSAY_ACTIVE l) false).raise 8 3 data

/-- The verdict as LANE_ASSAY_VERDICT looks for it, 0 where none is due. -/
def Dev.laneFindingDue (d : Dev) (l : Nat) (a : Assay) : Nat :=
  if 0 < d.get (Reg.LN_ASSAY_ERR_PRBS_ERR l) || decide (max 1 (d.get Reg.LN_ASSAY_CFG_CRC_LIMIT) ≤ d.get (Reg.LN_ASSAY_ERR_CRC_ERR l)) then 2
  else if decide (a.fn + d.assayFrames ≤ d.fn)
    && decide (1024 * max 1 (d.get Reg.LN_ASSAY_CFG_MIN_KWORDS) ≤ d.get (Reg.LN_ASSAY_WORDS_WORDS l)) then 1
  else if a.fn + 10 * d.assayFrames ≤ d.fn then 3 else 0

theorem laneFindingDue_eq {d : Dev} {l : Nat} {a : Assay} (hdue : d.laneLasting l ∨ d.laneClean l a ∨ a.fn + 10 * d.assayFrames ≤ d.fn) :
    d.laneFindingDue l a = d.laneFinding l a := by
  unfold Dev.laneFindingDue Dev.laneFinding
  simp only [Bool.or_eq_true, Bool.and_eq_true, decide_eq_true_eq]
  split
  · rfl
  next hlasting =>
    split
    · rfl
    next hclean => exact if_pos ((hdue.resolve_left hlasting).resolve_left hclean)

theorem laneVerdict_eq {d : Dev} {l : Nat} {a : Assay} (hup : d.up = true)
    (hfind : d.flt.assays.find? (fun a => a.u == { unit := 4, loc := l } && a.running) = some a)
    (hdue : d.laneLasting l ∨ d.laneClean l a ∨ a.fn + 10 * d.assayFrames ≤ d.fn) :
    d.laneVerdict l = (d.verdict { unit := 4, loc := l } (d.laneFinding l a)).showVerdict l (d.laneFinding l a)
      [l, d.laneFinding l a, d.get (Reg.LN_ASSAY_ERR_PRBS_ERR l), d.get (Reg.LN_ASSAY_ERR_CRC_ERR l)] := by
  have hsome := List.find?_some hfind
  obtain ⟨hu, -⟩ := Bool.and_eq_true_iff.1 hsome
  have hverdict : d.laneVerdict l = if !d.up || d.laneFindingDue l a = 0 then d else
      (d.verdict a.u (d.laneFindingDue l a)).showVerdict l (d.laneFindingDue l a)
        [l, d.laneFindingDue l a, d.get (Reg.LN_ASSAY_ERR_PRBS_ERR l), d.get (Reg.LN_ASSAY_ERR_CRC_ERR l)] := by
    unfold Dev.laneVerdict
    rw [hfind]
    rfl
  rw [hverdict, laneFindingDue_eq hdue, hup, eq_of_beq hu, if_neg (by simp [laneFinding_ne_zero])]

/-- The two fields of a lane's assay in LN_STATUS count no messages. -/
theorem laneStatus_notTalk {l : Nat} {f : Fld} (hf : f = Reg.LN_STATUS_ASSAY_VERDICT l ∨ f = Reg.LN_STATUS_ASSAY_ACTIVE l) : ¬ countsTalk f.key := by
  rcases hf with rfl | rfl <;>
  · rintro ((h | h | h) | ⟨m, hm, h | h | h⟩) <;>
      simp only [Fld.key, Reg.LN_STATUS_ASSAY_VERDICT, Reg.LN_STATUS_ASSAY_ACTIVE, Reg.HR_DROP_STATS_EVT_DROPPED, Reg.EGR_POOL_FREE_PAGES,
        Reg.EGR_POOL_LOW_WATER, Reg.LN_MG_STATS_DROPPED, Reg.LN_MG_STATS_BUSY, Reg.LN_MG_STATS_REFUSED] at h <;> omega

theorem laneStatus_apart (l : Nat) : (Reg.LN_STATUS_ASSAY_VERDICT l).key ≠ (Reg.LN_STATUS_ASSAY_ACTIVE l).key := by
  simp only [Fld.key, Reg.LN_STATUS_ASSAY_VERDICT, Reg.LN_STATUS_ASSAY_ACTIVE]
  omega

theorem lastingCount_apart {l : Nat} (hl : l < 48) : Reg.FLT_COUNT_ASSAY_LASTING.key ≠ (Reg.LN_STATUS_ASSAY_VERDICT l).key
    ∧ Reg.FLT_COUNT_ASSAY_LASTING.key ≠ (Reg.LN_STATUS_ASSAY_ACTIVE l).key := by
  simp only [Fld.key, Reg.LN_STATUS_ASSAY_VERDICT, Reg.LN_STATUS_ASSAY_ACTIVE, Reg.FLT_COUNT_ASSAY_LASTING]
  omega

theorem showVerdict_spec (d : Dev) {l v : Nat} (hl : l < 48) (hv : v < 4) (data : List Nat) :
    (d.showVerdict l v data).get (Reg.LN_STATUS_ASSAY_VERDICT l) = v ∧ (d.showVerdict l v data).get (Reg.LN_STATUS_ASSAY_ACTIVE l) = 0
    ∧ (d.showVerdict l v data).get Reg.FLT_COUNT_ASSAY_LASTING = d.get Reg.FLT_COUNT_ASSAY_LASTING
    ∧ d.showVerdict l v data = talked d (d.showVerdict l v data) := by
  obtain ⟨hverdict, hactive⟩ := lastingCount_apart hl
  unfold Dev.showVerdict
  refine ⟨?_, ?_, ?_, ?_⟩
  · rw [Dev.raise_get _ _ _ _ (laneStatus_notTalk (.inl rfl)), Dev.setB_eq, Dev.get_set_ne _ (laneStatus_apart l), Dev.get_set_same]
    exact Nat.mod_eq_of_lt hv
  · rw [Dev.raise_get _ _ _ _ (laneStatus_notTalk (.inr rfl)), Dev.setB_eq, Dev.get_set_same]
    rfl
  · rw [Dev.raise_get _ _ _ _ lastingCount_kept.2.2, Dev.setB_eq, Dev.get_set_ne _ hactive, Dev.get_set_ne _ hverdict]
  · exact (raise_talks _ _ _ _).1

theorem exec_laneAssayVerdict {l : Nat} (hl : l < 48) (s : State) : exec (.laneAssayVerdict l) s = .next { s with dev := s.dev.laneVerdict l } :=
  onUnit_of_lt hl _ s

theorem laneAssayVerdict_spec {l : Nat} {a : Assay} {s : State} (hl : l < 48) (hup : s.dev.up = true)
    (hfind : s.dev.flt.assays.find? (fun a => a.u == { unit := 4, loc := l } && a.running) = some a)
    (hdue : s.dev.laneLasting l ∨ s.dev.laneClean l a ∨ a.fn + 10 * s.dev.assayFrames ≤ s.dev.fn) :
    Answers (.laneAssayVerdict l) s fun t =>
      t.dev.get (Reg.LN_STATUS_ASSAY_VERDICT l) = (if s.dev.laneLasting l then 2 else if s.dev.laneClean l a then 1 else 3)
      ∧ t.dev.get (Reg.LN_STATUS_ASSAY_ACTIVE l) = 0
      ∧ t.dev.flt.assays = s.dev.flt.assays.filter (fun x => x.u != { unit := 4, loc := l })
      ∧ (s.dev.laneLasting l → t.dev.get Reg.FLT_COUNT_ASSAY_LASTING = min (s.dev.get Reg.FLT_COUNT_ASSAY_LASTING + 1) 255)
      ∧ (¬ s.dev.laneLasting l → t.dev.ledger = s.dev.ledger)
      ∧ t = { s with dev := { talked s.dev t.dev with flt := t.dev.flt, ledger := t.dev.ledger } } := by
  have hsome : ∃ b, s.dev.flt.assays.find? (fun a => a.u == { unit := 4, loc := l }) = some b := by
    have hrunning := List.find?_some hfind
    exact Option.isSome_iff_exists.1 (List.find?_isSome.2 ⟨a, List.mem_of_find?_eq_some hfind, (Bool.and_eq_true_iff.1 hrunning).1⟩)
  obtain ⟨b, hb⟩ := hsome
  have hstep := verdict_step hb (s.dev.laneFinding l a)
  refine ⟨_, exec_laneAssayVerdict hl s, ?_⟩
  rw [laneVerdict_eq hup hfind hdue]
  generalize s.dev.verdict { unit := 4, loc := l } (s.dev.laneFinding l a) = d at hstep ⊢
  generalize [l, s.dev.laneFinding l a, s.dev.get (Reg.LN_ASSAY_ERR_PRBS_ERR l), s.dev.get (Reg.LN_ASSAY_ERR_CRC_ERR l)] = data
  obtain ⟨hverdict, hactive, hcount, hshown⟩ := showVerdict_spec d hl (laneFinding_lt s.dev l a) data
  obtain ⟨hwork, hassays, hlasting, hledger⟩ := hstep
  generalize d.showVerdict l (s.dev.laneFinding l a) data = e at *
  refine ⟨hverdict, hactive, ?_, fun h => hcount.trans (hlasting (laneFinding_eq_two.2 h)),
    fun h => ?_, ?_⟩
  · rw [hshown]
    exact hassays
  · rw [hshown]
    exact hledger (mt laneFinding_eq_two.1 h)
  · rw [hshown, hwork]
    rfl

/-! ### The steps of a crossing (R387 to R389) -/

theorem exec_crossingTransfer {g : Nat} (hg : g < 51) (x : CrossStep) (s : State) :
    exec (.crossingTransfer g x) s = .next { s with dev := s.dev.crossingTransfer g x } := onUnit_of_lt hg _ s

/-- What a step makes of the crossing group, but for a load that finds an error. -/
def Cross.stepped (c : Cross) : CrossStep → Cross
  | .send v => { c with val := c.val.send v }
  | .happen => c.happen
  | .ack count => c.setWay count (c.way count).ack
  | .load count _ => if (c.way count).flagged then c.load count else c

/-- Such a step changes nothing but the group. -/
theorem crossingTransfer_eq {d : Dev} {g : Nat} {x : CrossStep} (hup : d.up = true) (huses : d.usesGroup g = true) (hgood : ∀ count, x ≠ .load count true)
    (hflag : ∀ count bad, x = .load count bad → ((d.xing g).way count).flagged = true) :
    d.crossingTransfer g x = d.setXing g ((d.xing g).stepped x) := by
  unfold Dev.crossingTransfer
  rw [hup, huses]
  cases x with
  | send v => rfl
  | happen => rfl
  | ack count => rfl
  | load count bad =>
    cases bad with
    | true => exact absurd rfl (hgood count)
    | false => simp [Cross.stepped, hflag count false rfl]

theorem Hold.send_eq (h : Hold) (v : Word) :
    h.send v = if h.reg = none then { h with reg := some v, loaded := false } else { h with shadow := some v } := by
  obtain ⟨reg, loaded, shadow, got⟩ := h
  cases reg <;> rfl

theorem Hold.ack_of_loaded {h : Hold} (hl : h.loaded = true) : h.ack = { h with reg := h.shadow, loaded := false, shadow := none } := if_pos hl

theorem Hold.load_of_reg {h : Hold} {v : Word} (hr : h.reg = some v) : h.load = { h with loaded := true, got := v } := by
  unfold Hold.load
  rw [hr]

theorem Hold.flagged_of_reg {h : Hold} {v : Word} (hr : h.reg = some v) (hl : h.loaded = false) : h.flagged = true := by
  unfold Hold.flagged
  rw [hr, hl]
  rfl

/-- Of the count the receiver takes the difference from the value before. -/
theorem Cross.load_count (c : Cross) :
    c.load true = { c with cnt := c.cnt.load, events := c.events + (c.cnt.load.got - c.cnt.got).toNat } := rfl

theorem Hold.refuse_eq (h : Hold) : h.refuse = { h with reg := if h.shadow = none then h.reg else h.shadow, shadow := none } := by
  obtain ⟨reg, loaded, shadow, got⟩ := h
  cases shadow <;> rfl

/-- The states that the statement names for the steps without a check error. -/
def CrossesTo (c : Cross) (x : CrossStep) (v : Word) (k : Cross) : Prop :=
  let put (h : Hold) (v : Word) : Hold := if h.reg = none then { h with reg := some v, loaded := false } else { h with shadow := some v }
  (x = .send v ∧ k = { c with val := put c.val v })
    ∨ (x = .happen ∧ k = { c with count := c.count + 1, cnt := put c.cnt (c.count + 1) })
    ∨ (x = .ack false ∧ c.val.loaded = true ∧ k = { c with val := { c.val with reg := c.val.shadow, loaded := false, shadow := none } })
    ∨ (x = .ack true ∧ c.cnt.loaded = true ∧ k = { c with cnt := { c.cnt with reg := c.cnt.shadow, loaded := false, shadow := none } })
    ∨ (x = .load false false ∧ c.val.loaded = false ∧ c.val.reg = some v
        ∧ k = { c with val := { c.val with loaded := true, got := v } })
    ∨ (x = .load true false ∧ c.cnt.loaded = false ∧ c.cnt.reg = some v
        ∧ k = { c with cnt := { c.cnt with loaded := true, got := v }, events := c.events + (v - c.cnt.got).toNat })

theorem crossingTransfer_of_crossesTo {d : Dev} {g : Nat} {x : CrossStep} {v : Word} {k : Cross} (hup : d.up = true) (huses : d.usesGroup g = true)
    (h : CrossesTo (d.xing g) x v k) : d.crossingTransfer g x = d.setXing g k := by
  rcases h with ⟨rfl, rfl⟩ | ⟨rfl, rfl⟩ | ⟨rfl, hl, rfl⟩ | ⟨rfl, hl, rfl⟩ | ⟨rfl, hl, hr, rfl⟩ | ⟨rfl, hl, hr, rfl⟩
  · rw [crossingTransfer_eq hup huses (by simp) (by simp), Cross.stepped, Hold.send_eq]
  · rw [crossingTransfer_eq hup huses (by simp) (by simp), Cross.stepped, Cross.happen, Hold.send_eq]
  · rw [crossingTransfer_eq hup huses (by simp) (by simp), ← Hold.ack_of_loaded hl]
    rfl
  · rw [crossingTransfer_eq hup huses (by simp) (by simp), ← Hold.ack_of_loaded hl]
    rfl
  · have hflag := Hold.flagged_of_reg hr hl
    rw [crossingTransfer_eq hup huses (by simp) (by rintro _ _ ⟨⟩; exact hflag), Cross.stepped, ← Hold.load_of_reg hr]
    exact congrArg (d.setXing g) (if_pos hflag)
  · have hflag := Hold.flagged_of_reg hr hl
    rw [crossingTransfer_eq hup huses (by simp) (by rintro _ _ ⟨⟩; exact hflag), Cross.stepped]
    refine congrArg (d.setXing g) ((if_pos hflag).trans ?_)
    rw [Cross.load_count, Hold.load_of_reg hr]

theorem crossingTransfer_spec {g : Nat} {x : CrossStep} {v : Word} {k : Cross} {s : State} (hg : g < 51) (hup : s.dev.up = true)
    (huses : s.dev.usesGroup g = true) (h : CrossesTo (s.dev.xing g) x v k) :
    Answers (.crossingTransfer g x) s fun t =>
      t.dev.xing g = k ∧ (∀ h : Nat, h ≠ g → t.dev.xing h = s.dev.xing h)
      ∧ t = { s with dev := { s.dev with cross := t.dev.cross } } := by
  refine ⟨_, exec_crossingTransfer hg x s, ?_⟩
  rw [crossingTransfer_of_crossesTo hup huses h]
  exact ⟨Dev.xing_setXing_same _ _ _, fun m hm => (Dev.xing_setXing _ _ _ _).trans (if_neg hm), rfl⟩

/-! ### A check error of a crossing (R389) -/

/-- The group after a value was refused: the newest is to be sent again. -/
def Cross.refused (c : Cross) (count : Bool) : Cross :=
  { c.setWay count (c.way count).refuse with checkErr := min 4095 (c.checkErr + 1) }

theorem Cross.refused_eq (c : Cross) (count : Bool) :
    c.refused count =
      (let h := if count then c.cnt else c.val
       { c with
          cnt := if count then { h with reg := if h.shadow = none then h.reg else h.shadow, shadow := none } else c.cnt,
          val := if count then c.val else { h with reg := if h.shadow = none then h.reg else h.shadow, shadow := none },
          checkErr := min 4095 (c.checkErr + 1) }) := by
  cases count <;>
  · simp only [Cross.refused, Cross.way, Cross.setWay, Hold.refuse_eq]
    rfl

theorem crossingTransfer_bad {d : Dev} {g : Nat} {count : Bool} (hup : d.up = true) (huses : d.usesGroup g = true)
    (hflag : ((d.xing g).way count).flagged = true) :
    d.crossingTransfer g (.load count true) =
      ((d.setXing g ((d.xing g).refused count)).addSat Reg.XC_TOTAL_CHECK_ERR 1).logError 8 10 4 false 0 g 0 0 := by
  unfold Dev.crossingTransfer
  simp only [hup, huses, hflag]
  rfl

theorem checkErr_kept : Reg.XC_TOTAL_CHECK_ERR.key ∉ logKeys ∧ ¬ countsTalk Reg.XC_TOTAL_CHECK_ERR.key :=
  ⟨by decide, notTalk (.inr (by decide)) (by decide)⟩

theorem crossingTransfer_bad_spec {g : Nat} {count : Bool} {s : State} (hg : g < 51) (hup : s.dev.up = true) (huses : s.dev.usesGroup g = true)
    (hflag : ((s.dev.xing g).way count).flagged = true) :
    Answers (.crossingTransfer g (.load count true)) s fun t =>
      t.dev.xing g = (s.dev.xing g).refused count
      ∧ t.dev.get Reg.XC_TOTAL_CHECK_ERR = min (s.dev.get Reg.XC_TOTAL_CHECK_ERR + 1) 255
      ∧ (∀ h : Nat, h ≠ g → t.dev.xing h = s.dev.xing h)
      ∧ t = { s with dev := { talked s.dev t.dev with flt := t.dev.flt, cross := t.dev.cross } }
      ∧ RegsKeep (logKeys ++ [Reg.XC_TOTAL_CHECK_ERR.key]) s.dev t.dev := by
  obtain ⟨hlog, htalk⟩ := checkErr_kept
  refine ⟨_, exec_crossingTransfer hg _ s, ?_⟩
  rw [crossingTransfer_bad hup huses hflag]
  have hstep := logError_step ((s.dev.setXing g ((s.dev.xing g).refused count)).addSat Reg.XC_TOTAL_CHECK_ERR 1) 8 10 4 false 0 g 0 0
  generalize Dev.logError _ 8 10 4 false 0 g 0 0 = t at hstep ⊢
  have hxing (m : Nat) : t.xing m = (s.dev.setXing g ((s.dev.xing g).refused count)).xing m := by
    rw [hstep.work]
    rfl
  refine ⟨(hxing g).trans (Dev.xing_setXing_same _ _ _), ?_, fun m hm => (hxing m).trans ((Dev.xing_setXing _ _ _ _).trans (if_neg hm)), ?_, ?_⟩
  · rw [hstep.regs _ hlog htalk, Dev.addSat_eq, Dev.get_set_same]
    exact Nat.mod_eq_of_lt (Nat.lt_succ_of_le (min_le_right _ _))
  · rw [hstep.work]
    rfl
  · exact regsKeep_trans (regsKeep_mono (regsKeep_set (s.dev.setXing g _) Reg.XC_TOTAL_CHECK_ERR _) fun _ => List.mem_append_right _)
      (regsKeep_mono hstep.regs fun _ => List.mem_append_left _)

/-- Settles O44: a lane's verdict by the order lasting, clean, expired, and each step of a crossing by what it makes of its group. -/
theorem laneAssaysAndCrossings : Obligations.LaneAssaysAndCrossings := by
  refine ⟨fun l a s hl hup hfind hdue => laneAssayVerdict_spec hl hup hfind hdue,
    fun g x v k s hg hup huses h => crossingTransfer_spec hg hup huses h, fun g count s hg hup huses hreg hloaded => ?_⟩
  obtain ⟨v, hv⟩ := Option.ne_none_iff_exists'.1 hreg
  have hbad := crossingTransfer_bad_spec hg hup huses (Hold.flagged_of_reg hv hloaded)
  simp only [Cross.refused_eq] at hbad
  exact hbad

end Sys2Proof.Machine
end

section
/-! PROOF. The stored-bit errors change only by a word's correction, its loss or an upset, and each keeps their table canonical; O3 from it. -/
namespace Sys2Proof.Machine
open Sys2Proof.Safety

/-! ### Words read, corrected and overwritten (R412, R414 to R417) -/

theorem readW1_canonical {ecc : List (Nat × Nat)} (d : Dev) (r : FRec) (lost : Nat) (h : wfZ ecc = true) : wfZ (readW1 ecc d r lost).2.1 = true := by
  simp only [readW1]
  split
  · exact h
  · exact memRead_canonical _ _ _ h

theorem sendOne_canonical (l : Nat) {acc : Bool × List (Nat × Nat) × Dev} (r : FRec) (h : wfZ acc.2.1 = true) : wfZ (sendOne l acc r).2.1 = true := by
  unfold sendOne
  split
  · exact h
  · extract_lets d m
    have hm : wfZ m.2.1 = true := readW1_canonical _ _ _ h
    split <;> exact hm

theorem uplinkSend_canonical (l : Nat) {ecc : List (Nat × Nat)} (d : Dev) (h : wfZ ecc = true) : wfZ (uplinkSend l ecc d).1 = true := by
  unfold uplinkSend
  split
  · exact h
  · split
    · exact h
    · exact List.foldlRecOn (motive := fun x : Bool × List (Nat × Nat) × Dev => wfZ x.2.1 = true) _ _ h fun _ hx r _ => sendOne_canonical l r hx

theorem readRegion_canonical (l : Nat) (stream : Bool) (n fuel i : Nat) {x : List (Nat × Nat) × Dev} (h : wfZ x.1 = true) :
    wfZ (readRegion l stream n fuel i x).1 = true := by
  induction fuel generalizing i x with
  | zero => exact h
  | succ fuel ih =>
    unfold readRegion
    split
    · exact h
    · split
      · exact h
      · extract_lets a idx r m
        have hm : wfZ m.ecc = true := memRead_canonical _ _ _ h
        split_ifs
        · exact ih _ h
        · exact ih _ hm
        · exact ih _ hm

theorem closeLf_canonical {ecc : List (Nat × Nat)} (d : Dev) (l : Nat) (h : wfZ ecc = true) : wfZ (closeLf ecc d l).1 = true := by
  unfold closeLf
  split
  · exact h
  · extract_lets p up data str k rec' fuel m
    show wfZ m.1 = true
    exact iteInduction (motive := fun x : List (Nat × Nat) × Dev => wfZ x.1 = true)
      (fun _ => readRegion_canonical _ _ _ _ _ (readRegion_canonical _ _ _ _ _ h)) fun _ => h

theorem diagRead_canonical {ecc : List (Nat × Nat)} (d : Dev) (h : wfZ ecc = true) : wfZ (diagRead ecc d).2.1 = true := by
  unfold diagRead
  extract_lets tag
  split
  · exact h
  · exact h
  · extract_lets cost m e
    have hm : wfZ m.ecc = true := memRead_canonical _ _ _ h
    split
    · split <;> exact hm
    · exact hm

theorem poolDiagRead_canonical {ecc : List (Nat × Nat)} (d : Dev) (h : wfZ ecc = true) : wfZ (poolDiagRead ecc d).2.1 = true := by
  unfold poolDiagRead
  extract_lets tag r
  split
  · exact h
  · exact memRead_canonical _ _ _ h

theorem recDiagRead_canonical {ecc : List (Nat × Nat)} (d : Dev) (h : wfZ ecc = true) : wfZ (recDiagRead ecc d).2.1 = true :=
  iteInduction (motive := fun x : Nat × List (Nat × Nat) × Dev => wfZ x.2.1 = true) (fun _ => poolDiagRead_canonical d h) fun _ => diagRead_canonical d h

theorem logCapture_canonical {ecc : List (Nat × Nat)} (d : Dev) (h : wfZ ecc = true) : wfZ (logCapture ecc d).1 = true := by
  unfold logCapture
  split
  · exact h
  · exact List.foldlRecOn (motive := fun x : Bool × List Nat × List (Nat × Nat) × Dev => wfZ x.2.2.1 = true) _ _ h
      fun _ hx _ _ => scrubWord_canonical _ _ hx

theorem memoryInit_canonical (m : Nat) {ecc : List (Nat × Nat)} (d : Dev) (h : wfZ ecc = true) : wfZ (memoryInit m ecc d).1 = true := by
  unfold memoryInit
  split
  · exact wfZ_filter _ h
  · exact h

theorem restoreWord_canonical (u : UnitId) {ecc : List (Nat × Nat)} (d : Dev) (h : wfZ ecc = true) : wfZ (restoreWord u ecc d).1 = true := by
  unfold restoreWord
  extract_lets idx
  split
  · exact wfZ_delT _ h
  · exact h

theorem assayComplete_canonical (u : UnitId) (test : Bool) {ecc : List (Nat × Nat)} (d : Dev) (h : wfZ ecc = true) :
    wfZ (assayComplete u test ecc d).1 = true := by
  unfold assayComplete
  split
  · exact h
  · extract_lets lasting
    split
    · exact h
    · exact restoreWord_canonical u d h

theorem copyPage_canonical (p : Nat) {ecc : List (Nat × Nat)} (d : Dev) (h : wfZ ecc = true) : wfZ (copyPage p ecc d).1 = true :=
  wfZ_filter _ (List.foldlRecOn (motive := fun x : List (Nat × Nat) × Dev => wfZ x.1 = true) _ _ h fun _ hx _ _ => scrubWord_canonical _ _ hx)

theorem retireDone_canonical {ecc : List (Nat × Nat)} (d : Dev) (h : wfZ ecc = true) : wfZ (retireDone ecc d).1 = true := by
  unfold retireDone
  split
  · exact h
  · split
    · exact h
    · extract_lets d'
      split
      · exact h
      · exact copyPage_canonical _ _ h

/-! ### Registers read (R547, R553, R555) -/

theorem softRead_canonical {ecc : List (Nat × Nat)} (d : Dev) (a : Nat) (h : wfZ ecc = true) : wfZ (softRead ecc d a).2.1 = true := by
  show wfZ (readEffect ecc d (a / 4 * 4 % 65536)).1 = true
  unfold readEffect
  split
  case h_3 => exact recDiagRead_canonical d h
  case h_6 => exact logCapture_canonical d h
  all_goals exact h

theorem spiReadN_canonical (a n : Nat) {x : List Nat × List (Nat × Nat) × Dev} (h : wfZ x.2.1 = true) : wfZ (spiReadN a n x).2.1 = true := by
  induction n generalizing a x with
  | zero => exact h
  | succ n ih =>
    refine ih (a + 4) (iteInduction (motive := fun r : Nat × List (Nat × Nat) × Dev => wfZ r.2.1 = true) (fun _ => ?_) fun _ => h)
    exact softRead_canonical _ _ h

theorem spiFrame_canonical (f : Fuses) (mosi : List Bool) (words : Nat) {ecc : List (Nat × Nat)} (d : Dev) (h : wfZ ecc = true) :
    wfZ (spiFrame f mosi words ecc d).1 = true := by
  unfold spiFrame
  split
  · exact h
  · extract_lets head cmd op addr x r
    show wfZ r.2.1 = true
    unfold r
    split_ifs
    · exact h
    · exact spiReadN_canonical _ _ h
    · exact h
    · exact h
    · exact h

theorem barReadN_canonical (a n : Nat) {x : List Nat × List (Nat × Nat) × Dev} (h : wfZ x.2.1 = true) : wfZ (barReadN a n x).2.1 = true := by
  induction n generalizing a x with
  | zero => exact h
  | succ n ih =>
    have hone : wfZ (barRead x.2.1 x.2.2 a).2.1 = true := by
      unfold barRead
      split
      · exact softRead_canonical _ _ h
      · split <;> exact h
    exact ih (a + 4) hone

theorem bar0Access_canonical (f : Fuses) (r : BarReq) {ecc : List (Nat × Nat)} (d : Dev) (h : wfZ ecc = true) : wfZ (bar0Access f r ecc d).1 = true := by
  unfold bar0Access
  split_ifs
  · exact h
  · exact h
  · split
    · exact h
    · exact barReadN_canonical _ _ h

/-! ### Commands executed (R323, R366) -/

theorem cmdRead_canonical (c : Cmd) (late : Nat) {x : EccDev} (h : wfZ x.1 = true) : wfZ (cmdRead c late x).1 = true := by
  have hwords (n : Nat) : ∀ (k : Nat) (y : List Nat × EccDev), wfZ y.2.1 = true → wfZ (readWords c k n y).2.1 = true := by
    induction n with
    | zero => exact fun _ _ hy => hy
    | succ n ih => exact fun k y hy => ih (k + 1) _ (softRead_canonical _ _ hy)
  exact hwords _ 0 _ h

/-- Of the commands only a READ reads stored words. -/
theorem runCmd_canonical (f : Fuses) (now : Dev → Dev) (c : Cmd) (late : Nat) {x : EccDev} (h : wfZ x.1 = true) :
    wfZ (runCmd f now c late x).1 = true := by
  unfold runCmd
  split
  case h_1 => exact cmdRead_canonical c late h
  all_goals exact h

theorem cmdRow_canonical (c : Cmd) {g : EccDev → EccDev} (hg : ∀ x : EccDev, wfZ x.1 = true → wfZ (g x).1 = true) {ecc : List (Nat × Nat)} (d : Dev)
    (h : wfZ ecc = true) : wfZ (cmdRow c g ecc d).1 = true := by
  unfold cmdRow
  split
  · exact h
  · split
    · exact h
    · split
      · exact h
      · exact hg _ h

theorem takeLocal_canonical (f : Fuses) (c : Cmd) {x : EccDev} (h : wfZ x.1 = true) : wfZ (takeLocal f c x).1 = true := by
  unfold takeLocal
  split_ifs
  · exact h
  · exact h
  · exact h
  · exact runCmd_canonical f id c 0 h

theorem execHere_canonical (f : Fuses) (c : Cmd) {x : EccDev} (h : wfZ x.1 = true) : wfZ (execHere f c x).2.1 = true := by
  unfold execHere
  extract_lets d
  split
  · exact h
  · exact takeLocal_canonical f c h

theorem execAndSpread_canonical (f : Fuses) (c : Cmd) (m : Msg) {x : EccDev} (h : wfZ x.1 = true) : wfZ (execAndSpread f c m x).1 = true := by
  unfold execAndSpread
  extract_lets r ps q
  have hr : wfZ r.2.1 = true := execHere_canonical f c h
  split <;> exact hr

theorem pathCmd_canonical (f : Fuses) (c : Cmd) (m : Msg) {x : EccDev} (h : wfZ x.1 = true) : wfZ (pathCmd f c m x).1 = true := by
  unfold pathCmd
  extract_lets d
  split
  case h_1 | h_2 => exact execHere_canonical f c h
  all_goals exact h

theorem addressed_canonical (f : Fuses) (c : Cmd) (m : Msg) {x : EccDev} (h : wfZ x.1 = true) : wfZ (addressed f c m x).1 = true := by
  unfold addressed
  extract_lets d own
  split
  · exact pathCmd_canonical f c m h
  · exact execAndSpread_canonical f c m h
  · split_ifs
    · exact execAndSpread_canonical f c m h
    · exact h
    · exact h
  · split_ifs
    · exact execHere_canonical f c h
    · exact h
    · exact h

theorem commandIn_canonical (f : Fuses) (l : Nat) (m : Msg) {x : EccDev} (h : wfZ x.1 = true) : wfZ (commandIn f l m x).1 = true := by
  unfold commandIn
  extract_lets d down c
  refine iteInduction (motive := fun y : EccDev => wfZ y.1 = true) (fun _ => h) fun _ => iteInduction (motive := fun y : EccDev => wfZ y.1 = true)
    (fun _ => h) fun _ => iteInduction (motive := fun y : EccDev => wfZ y.1 = true) (fun _ => h) fun _ => ?_
  split
  · exact h
  · split
    · exact execHere_canonical f _ h
    · exact addressed_canonical f _ m h

theorem commandReceived_canonical (f : Fuses) (l : Nat) {ecc : List (Nat × Nat)} (d : Dev) (h : wfZ ecc = true) :
    wfZ (commandReceived f l ecc d).1 = true := by
  unfold commandReceived
  split
  · split
    · exact commandIn_canonical f l _ h
    · exact h
  · exact h

theorem hubOwn_canonical (f : Fuses) (c : Cmd) {x : EccDev} (h : wfZ x.1 = true) : wfZ (hubOwn f c x).1 = true := by
  unfold hubOwn
  split
  · exact h
  · exact takeLocal_canonical f c h

theorem hubCommand_canonical (f : Fuses) (r : Nat) (w : List Word) {x : EccDev} (h : wfZ x.1 = true) : wfZ (hubCommand f r w x).1 = true := by
  unfold hubCommand
  extract_lets d c own y
  have hown : wfZ (hubOwn f c x).1 = true := hubOwn_canonical f c h
  split
  · split_ifs <;> assumption
  · split <;> exact h
  · split_ifs <;> assumption
  · split_ifs <;> assumption

theorem readCompletion_canonical (f : Fuses) (q : Completion) {ecc : List (Nat × Nat)} (d : Dev) (h : wfZ ecc = true) :
    wfZ (readCompletion f q ecc d).1 = true := by
  unfold readCompletion
  split
  · exact h
  · split
    · exact h
    · exact h
    · split
      · unfold fetched
        extract_lets g
        split
        · exact hubCommand_canonical f _ _ h
        · exact h
      · exact h

/-! ### The frame boundary (R25) -/

theorem stepFive_canonical (f : Fuses) {x : EccDev} (h : wfZ x.1 = true) : wfZ (stepFive f x).1 = true := by
  refine List.foldlRecOn (motive := fun y : EccDev => wfZ y.1 = true) _ _ h fun y hy q _ => ?_
  unfold applyOne
  split
  · split
    · exact hy
    · exact runCmd_canonical f _ _ _ hy
  · exact hy

theorem stepFour_canonical (f : Fuses) {x : EccDev} (h : wfZ x.1 = true) : wfZ (stepFour f x).1 = true := by
  unfold stepFour
  split
  · exact h
  · refine List.foldlRecOn (motive := fun y : EccDev => wfZ y.1 = true) _ _ h fun y hy c _ => ?_
    rw [runAction_of_due rfl]
    match y.2.actionDue y.2.fi c with
    | none => exact hy
    | some none => exact hy
    | some (some late) => exact runCmd_canonical f Dev.settle c late hy

theorem messagesDue_canonical (f : Fuses) (n : Nat) {x : EccDev} (h : wfZ x.1 = true) : wfZ (messagesDue f n x).1 = true := by
  induction n generalizing x with
  | zero => exact h
  | succ n ih =>
    unfold messagesDue
    split
    · exact ih (commandReceived_canonical f _ _ h)
    · split
      · exact ih h
      · exact h

theorem arrivalsDue_canonical (f : Fuses) {x : EccDev} (h : wfZ x.1 = true) : wfZ (arrivalsDue f x).1 = true := by
  unfold arrivalsDue
  exact messagesDue_canonical f _ (x := (x.1, x.2.recordsDue)) h

theorem closeLanes_canonical {x : EccDev} (h : wfZ x.1 = true) : wfZ (closeLanes x).1 = true :=
  List.foldlRecOn (motive := fun y : EccDev => wfZ y.1 = true) _ _ h fun _ hy l _ => closeLf_canonical _ l hy

theorem overwritten_canonical {x : EccDev} (h : wfZ x.1 = true) : wfZ (overwritten x).1 = true := wfZ_filter _ h

theorem closeFrame_ecc (f : Fuses) (inp : FrameInput) (x : EccDev) : (closeFrame f inp x).2.1 = (overwritten (arrivalsDue f (closeLanes x))).1 := by
  rw [closeFrame]

theorem closeFrame_canonical (f : Fuses) (inp : FrameInput) {x : EccDev} (h : wfZ x.1 = true) : wfZ (closeFrame f inp x).2.1 = true := by
  rw [closeFrame_ecc]
  exact overwritten_canonical (arrivalsDue_canonical f (closeLanes_canonical h))

theorem frameBoundary_canonical (f : Fuses) (inp : FrameInput) {ecc : List (Nat × Nat)} (d : Dev) (h : wfZ ecc = true) :
    wfZ (frameBoundary f inp ecc d).1 = true := by
  unfold frameBoundary
  split
  · exact h
  · extract_lets r e d' ws fires d'' pw x
    have hr : wfZ e = true := closeFrame_canonical f inp (x := (ecc, d)) h
    clear_value e
    have hx : wfZ x.1 = true := stepFive_canonical f (stepFour_canonical f hr)
    exact hx

/-! ### Every command -/

/-- Where a meaning answers a state, its antifuses are those of `s`, and its stored-bit errors are canonical if those of `s` are. -/
def Spares (s : State) (r : Res) : Prop := ∀ t, r = .next t → t.fuses = s.fuses ∧ (EccCanonical s → EccCanonical t)

theorem spares_next {s t : State} (hf : t.fuses = s.fuses) (he : wfZ s.ecc = true → wfZ t.ecc = true) : Spares s (.next t) := fun u hu => by
  obtain rfl : t = u := by simpa using hu
  exact ⟨hf, he⟩

theorem spares_fault (s : State) (e : Fault) : Spares s (.fault e) := fun t ht => by simp at ht

/-- A change of the device alone. -/
theorem spares_onDev (f : Dev → Dev) (s : State) : Spares s (onDev f s) := spares_next rfl id

theorem spares_onUnit (n i : Nat) (f : Dev → Dev) (s : State) : Spares s (onUnit n i f s) :=
  iteInduction (fun _ => spares_onDev f s) fun _ => spares_fault s _

theorem spares_onEcc {f : List (Nat × Nat) → Dev → List (Nat × Nat) × Dev} {s : State} (h : wfZ s.ecc = true → wfZ (f s.ecc s.dev).1 = true) :
    Spares s (onEcc f s) :=
  spares_next rfl h

/-- The same of a unit the device has. -/
theorem spares_onEccUnit {n i : Nat} {f : List (Nat × Nat) → Dev → List (Nat × Nat) × Dev} {s : State}
    (h : wfZ s.ecc = true → wfZ (f s.ecc s.dev).1 = true) : Spares s (if i < n then onEcc f s else .fault .noSuchUnit) :=
  iteInduction (fun _ => spares_onEcc h) fun _ => spares_fault s _

/-- A command executed on its own that reads no stored word. -/
theorem spares_cmdRow {c : Cmd} {g : EccDev → EccDev} (hg : ∀ x, (g x).1 = x.1) (s : State) : Spares s (onEcc (cmdRow c g) s) :=
  spares_onEcc (cmdRow_canonical c (fun x hx => (hg x).symm ▸ hx) s.dev)

/-- Every command but those that may blow antifuses leaves them, and keeps the errors canonical: of most nothing is changed but the device, and the
rows above change the errors too. -/
theorem exec_spares {c : Instr} (hc : blowsFuses c = false) (s : State) : Spares s (exec c s) := by
  cases c
  case converterStop | railLimitTrip | nresetAssert | sealDone => exact absurd hc (by simp [blowsFuses])
  case vinValid | nresetRelease => exact iteInduction (fun _ => spares_next rfl fun _ => rfl) fun _ => spares_next rfl id
  case frameBoundary inp => exact spares_onEcc (frameBoundary_canonical _ inp _)
  case uplinkSend l => exact spares_onEccUnit (uplinkSend_canonical l _)
  case memoryInitDone m => exact spares_onEccUnit (memoryInit_canonical m _)
  case scrubRead m flips => exact spares_onEccUnit (scrubRead_canonical _ m flips)
  case commandReceived l => exact spares_onEccUnit (commandReceived_canonical _ l _)
  case recDiagRead =>
    exact spares_next rfl fun h => iteInduction (motive := fun x : List (Nat × Nat) × Dev => wfZ x.1 = true) (fun _ => recDiagRead_canonical _ h) fun _ => h
  case assayComplete u lasting => exact spares_onEcc (assayComplete_canonical u lasting _)
  case fltLogCapture => exact spares_onEcc (logCapture_canonical _)
  case retireDone => exact spares_onEcc (retireDone_canonical _)
  case spiFrame mosi words => exact spares_onEcc (spiFrame_canonical _ mosi words _)
  case bar0Access r => exact spares_onEcc (bar0Access_canonical _ r _)
  case readCompletion q => exact spares_onEcc (readCompletion_canonical _ q _)
  case read => exact spares_onEcc (cmdRow_canonical _ (fun _ => cmdRead_canonical _ 0) _)
  case write | trigger | cancel | echo | release | attest | assign | headgateAction => exact spares_cmdRow (fun _ => by exact rfl) s
  case fgCalStart who => cases who with
    | none => exact spares_next rfl id
    | some n => exact spares_onUnit 48 n _ s
  case domainQualified | domainLost | domCfgWrite | lenderConversion | phaseAvgDone | oneCopyDiffers | streamCfgWrite | compressVerifyDone
      | maskRearm | bgCalSwap | discriminatorHit | tdcConversionDone | tdcConversionTimeout | slowLockAcquired | fastLockCheck
      | forcedLockCheck | tdcLockLost | linCalStart | linCalDone | triggerDecision | captureClose | recordAssembled | channelDisable
      | channelEnable | channelDrainEnd | uplinkCopyAbandon | laneFrameReceived | laneFramed | blindRetry | laneRaise | raiseTimeout
      | framingLost | laneEnable | laneDisable | laneIdleEnter | laneIdleExit | laneAttestSet | assayStart | laneAssayVerdict | eyeScanStart
      | eyeScanDone | laneFifoSlip | replyEventReceived | recordReceived | hubRecordCheck | pipelineMismatch | crossingTransfer
      | crossingFlush | domainInService | msixSend | ringEnable | ringDisable | ringStopped | entryOpen | entryClose | entryWriteback
      | headWordHeartbeat | eventsLostWrite | aerEgressError => exact spares_onUnit _ _ _ s
  -- every other command names no unit and changes nothing but the device
  all_goals exact spares_next rfl id

/-! ### The rows that may blow antifuses (R477, R533, R550) -/

/-- What such a row answers: the state as it is, or no stored bit in error and what an interrupted session has blown, or the end of a session. -/
theorem exec_of_blowsFuses {c : Instr} (hc : blowsFuses c = true) (s : State) :
    ∃ t, exec c s = .next t ∧ (t = s ∨ (t.ecc = [] ∧ ∃ k, t.fuses = s.interrupted k)
      ∨ (t.ecc = s.ecc ∧ ∃ ok, t.fuses = (sealDone ok s.fuses s.dev).1)) := by
  by_cases hoff : s.dev.boot = .off
  · cases c
    case converterStop | railLimitTrip => exact ⟨_, congrArg Host.Outcome.next (if_pos hoff), .inl rfl⟩
    case nresetAssert => exact ⟨_, if_pos hoff, .inl rfl⟩
    case sealDone ok => exact ⟨_, rfl, .inr (.inr ⟨rfl, ok, rfl⟩)⟩
    all_goals exact absurd hc (by simp [blowsFuses])
  · cases c
    case converterStop k | railLimitTrip k => exact ⟨_, congrArg Host.Outcome.next (if_neg hoff), .inr (.inl ⟨rfl, k, rfl⟩)⟩
    case nresetAssert k => exact ⟨_, if_neg hoff, .inr (.inl ⟨rfl, k, rfl⟩)⟩
    case sealDone ok => exact ⟨_, rfl, .inr (.inr ⟨rfl, ok, rfl⟩)⟩
    all_goals exact absurd hc (by simp [blowsFuses])

theorem exec_canonical {c : Instr} {s t : State} (hs : EccCanonical s) (h : exec c s = .next t) : EccCanonical t := by
  cases hc : blowsFuses c with
  | false => exact (exec_spares hc s t h).2 hs
  | true =>
    obtain ⟨u, hu, hcase⟩ := exec_of_blowsFuses hc s
    obtain rfl : u = t := by simpa [hu] using h
    rcases hcase with rfl | ⟨he, -⟩ | ⟨he, -⟩
    · exact hs
    · simp [EccCanonical, he, wfZ]
    · simpa [EccCanonical, he] using hs

/-- A step answers the state itself, or what its front command makes of the state with the queue's rest. -/
theorem step_next_cases {s t : State} (h : step s = .next t) : t = s ∨ ∃ c rest, exec c { s with pending := rest } = .next t := by
  cases hp : s.pending with
  | nil =>
    rw [step_nil hp] at h
    exact .inl (by simpa using h.symm)
  | cons c rest => exact .inr ⟨c, rest, step_cons hp ▸ h⟩

/-- Settles O3: the errors of the state behind the queue's rest are those before, and each command keeps them canonical. -/
theorem eccStaysCanonical : Obligations.EccStaysCanonical := by
  intro s t hs h
  rcases step_next_cases h with rfl | ⟨c, rest, hc⟩
  · exact hs
  · exact exec_canonical (s := { s with pending := rest }) hs hc

end Sys2Proof.Machine
end

section
/-! PROOF. Antifuses are only blown, and only by a sealing session or what interrupts it; O5 from it. -/
namespace Sys2Proof.Machine
open Sys2Proof.Safety

/-- Every antifuse blown in `f` is blown in `g`. -/
def Fuses.le (f g : Fuses) : Prop :=
  ∀ w b : Nat, (bitOf (getT 0 w f.a) b = true → bitOf (getT 0 w g.a) b = true) ∧ (bitOf (getT 0 w f.b) b = true → bitOf (getT 0 w g.b) b = true)
    ∧ (bitOf (getT 0 w f.c) b = true → bitOf (getT 0 w g.c) b = true)

theorem fusesKept_of_le {s t : State} (h : s.fuses.le t.fuses) : FusesKept s t := h

theorem Fuses.le_refl (f : Fuses) : f.le f := fun _ _ => ⟨id, id, id⟩

theorem Fuses.le.trans {f g k : Fuses} (h : f.le g) (h' : g.le k) : f.le k := fun w b =>
  ⟨(h' w b).1 ∘ (h w b).1, (h' w b).2.1 ∘ (h w b).2.1, (h' w b).2.2 ∘ (h w b).2.2⟩

/-- Blowing bits of one word of one copy leaves the blown ones. -/
theorem bitOf_getT_putT_or (t : List (Nat × Nat)) (w m v b : Nat) (h : bitOf (getT 0 v t) b = true) :
    bitOf (getT 0 v (putT w (getT 0 w t ||| m) t)) b = true := by
  rw [getT_putT]
  split
  · next hv => rw [bitOf_or, ← hv, h, Bool.true_or]
  · exact h

theorem Fuses.le_blow (f : Fuses) (w m : Nat) : f.le (f.blow w m) := fun v b =>
  ⟨bitOf_getT_putT_or f.a w m v b, bitOf_getT_putT_or f.b w m v b, bitOf_getT_putT_or f.c w m v b⟩

theorem le_blowSome (d : Dev) (f : Fuses) (k : Nat) : f.le (d.blowSome f k) :=
  List.foldlRecOn (motive := fun g : Fuses => f.le g) _ _ f.le_refl fun g hg p _ => hg.trans (g.le_blow p.1 (2 ^ p.2))

theorem le_interrupted (s : State) (k : Nat) : s.fuses.le (s.interrupted k) :=
  iteInduction (fun _ => le_blowSome s.dev s.fuses k) fun _ => s.fuses.le_refl

theorem le_sealDone (ok : Bool) (f : Fuses) (d : Dev) : f.le (sealDone ok f d).1 := by
  unfold sealDone
  split
  · exact f.le_refl
  · split
    · exact (le_blowSome d f _).trans (Fuses.le_blow _ 140 1)
    · exact le_blowSome d f _

theorem exec_fuses_le {c : Instr} {s t : State} (h : exec c s = .next t) : s.fuses.le t.fuses := by
  cases hc : blowsFuses c with
  | false => exact (exec_spares hc s t h).1 ▸ s.fuses.le_refl
  | true =>
    obtain ⟨u, hu, hcase⟩ := exec_of_blowsFuses hc s
    obtain rfl : u = t := by simpa [hu] using h
    rcases hcase with rfl | ⟨-, k, hk⟩ | ⟨-, ok, hok⟩
    · exact u.fuses.le_refl
    · exact hk ▸ le_interrupted s k
    · exact hok ▸ le_sealDone ok s.fuses s.dev

/-- Without a session nothing blows an antifuse. -/
theorem exec_fuses_of_not_sealing {c : Instr} {s t : State} (hs : s.dev.hm.sealing = false) (h : exec c s = .next t) : t.fuses = s.fuses := by
  cases hc : blowsFuses c with
  | false => exact (exec_spares hc s t h).1
  | true =>
    obtain ⟨u, hu, hcase⟩ := exec_of_blowsFuses hc s
    obtain rfl : u = t := by simpa [hu] using h
    rcases hcase with rfl | ⟨-, k, hk⟩ | ⟨-, ok, hok⟩
    · rfl
    · simp [hk, State.interrupted, hs]
    · simp [hok, sealDone, hs]

/-- Settles O5: each row that may blow only adds blown bits, and without a session, as of any other row, the antifuses stay. -/
theorem antifusesOnlyBlowAndOnlyUnderSealing : Obligations.AntifusesOnlyBlowAndOnlyUnderSealing := by
  refine ⟨fun s t h => ?_, fun c s t h hwhy => ?_⟩
  · rcases step_next_cases h with rfl | ⟨c, rest, hc⟩
    · exact fusesKept_of_le t.fuses.le_refl
    · exact fusesKept_of_le (exec_fuses_le (s := { s with pending := rest }) hc)
  · rcases hwhy with hc | hs
    · exact (exec_spares hc s t h).1
    · exact exec_fuses_of_not_sealing hs h

end Sys2Proof.Machine
end

section
/-! PROOF. The queue and the state after reset; O1 and O4 from them. -/
namespace Sys2Proof.Machine

/-- Settles O1: what a step does on a queue with a front command, and on an empty one. -/
theorem stepRunsTheFrontCommand : Obligations.StepRunsTheFrontCommand := ⟨fun _ _ _ h => step_cons h, fun _ h => step_nil h⟩

/-- At reset no field holds a value of its own, written or in force. -/
theorem reset_field (f : Fld) : State.reset.dev.get f = f.reset ∧ State.reset.dev.eff f = f.reset := by
  refine ⟨rfl, ?_⟩
  unfold Dev.eff
  split <;> rfl

/-- Settles O4: the reset state lists no value of its own, so that each field reads its Reset column. -/
theorem resetState : Obligations.ResetState :=
  ⟨rfl, rfl, rfl, reset_field, rfl, rfl, rfl, rfl, rfl, rfl, rfl, rfl, rfl⟩

end Sys2Proof.Machine
end

section
/-! PROOF. The gate that every register write of a source passes, and what a denial leaves; O6 and O7 from it. -/
namespace Sys2Proof.Machine
open Sys2Proof.Safety

/-! ### The rows that write a register (R532, R554) -/

/-- A row that writes a register of units the device has is a write behind the gate of its source and address. -/
theorem exec_of_writeOf {c : Instr} {src : Source} {a : Nat} {s : State} (h : writeOf c = some (src, a)) (hc : c.wf = true) :
    ∃ f : Dev → Dev, exec c s = onDev (fun d => d.gated src a f) s := by
  cases c
  case domCfgWrite | streamCfgWrite | maskRearm | channelDisable | channelEnable | laneEnable | laneDisable | laneIdleEnter | laneIdleExit
      | laneAttestSet | assayStart | eyeScanStart | ringDisable =>
    obtain ⟨rfl, rfl⟩ : _ ∧ _ := by simpa [writeOf] using h
    exact ⟨_, onUnit_of_lt (by simpa [Instr.wf, chanOk, laneOk, ringOk] using hc) _ s⟩
  case glbRoleCfgWrite | glbDeviceNumberWrite | registerWrite | txqPop | preferSwitch | holdReq | freeDeclare | clearSuspect | recalStart
      | recalAbort | tdcCalStart | statStart | statAbort | trgMaskDataWrite | trgMaskCommit | flush | routeDataWrite | hrCtrlWrite | retireStart
      | hkEnable | hkSelfcal | hkMonCfgWrite | pwrMemCtrlWrite | holdReqWrite | pwrReleaseWrite | hmProgDataWrite | program =>
    obtain ⟨rfl, rfl⟩ : _ ∧ _ := by simpa [writeOf] using h
    exact ⟨_, rfl⟩
  all_goals cases h

theorem gated_of_closed {d : Dev} {src : Source} {a : Nat} (h : d.open? src a = false) (f : Dev → Dev) : d.gated src a f = d := by
  simp [Dev.gated, h]

theorem gated_of_denied {d : Dev} {src : Source} {a : Nat} (h : d.open? src a = true) (hm : d.mayWrite src a = false) (f : Dev → Dev) :
    d.gated src a f = d.deny src (groupOf a) := by
  simp [Dev.gated, h, hm]

/-- Only the first place of a source's list is open in a held device. -/
theorem open_of_held {d : Dev} (h : d.boot = .held) (src : Source) (a : Nat) : d.open? src a = true ↔ src = .spi ∧ groupOf a = 13 := by
  simp [Dev.open?, Dev.up, h]

/-- Settles O7: a closed gate takes nothing, and the other clauses are the gate's own cases. -/
theorem whoMayWrite : Obligations.WhoMayWrite := by
  refine ⟨fun c src a s h hc hclosed => ?_, fun d a => rfl, fun d a hr => ?_, fun d src a h => open_of_held h src a, fun d a h h' => ?_⟩
  · obtain ⟨f, hf⟩ := exec_of_writeOf (s := s) h hc
    rw [hf, onDev, gated_of_closed hclosed]
  · simp [Dev.mayWrite, Dev.mayWriteGroup, hr]
  · simp [Dev.mayWrite, h, h']

/-! ### A denial (R540) -/

/-- The registers of HM_DENIED. -/
def deniedKeys : List Nat := [Reg.HM_DENIED_COUNT.key, Reg.HM_DENIED_LAST_GROUP.key, Reg.HM_DENIED_LAST_SOURCE.key]

theorem groupOf_lt (a : Nat) : groupOf a < 16 := by
  unfold groupOf
  split_ifs <;> omega

theorem srcNum_lt (src : Source) : srcNum src < 4 := by
  cases src <;> decide

/-- A denial counts, and shows its group and source. -/
theorem deny_spec (d : Dev) (src : Source) {g : Nat} (hg : g < 16) :
    (d.deny src g).get Reg.HM_DENIED_COUNT = (d.get Reg.HM_DENIED_COUNT + 1) % 65536
    ∧ (d.deny src g).get Reg.HM_DENIED_LAST_GROUP = g ∧ (d.deny src g).get Reg.HM_DENIED_LAST_SOURCE = srcNum src
    ∧ RegsKeepAll deniedKeys d (d.deny src g) := by
  refine ⟨?_, ?_, ?_, fun f hf => ?_⟩
  · rw [Dev.deny, Dev.get_set_ne _ (by decide), Dev.get_set_ne _ (by decide), Dev.addWrap_eq, Dev.get_set_same]
    rfl
  · rw [Dev.deny, Dev.get_set_ne _ (by decide), Dev.get_set_same]
    exact Nat.mod_eq_of_lt hg
  · rw [Dev.deny, Dev.get_set_same]
    exact Nat.mod_eq_of_lt (srcNum_lt src)
  · simp only [deniedKeys, List.mem_cons, List.not_mem_nil, or_false, not_or] at hf
    obtain ⟨hcount, hgroup, hsource⟩ := hf
    rw [Dev.deny, Dev.get_set_ne _ hsource, Dev.get_set_ne _ hgroup, Dev.addWrap_eq, Dev.get_set_ne _ hcount]

/-- A denied command is answered, and its denial counted. -/
theorem refuseDenied_spec (d : Dev) (c : Cmd) {g : Nat} (hg : g < 16) :
    ((d.notPermitted c).deny c.src g).get Reg.HM_DENIED_COUNT = (d.get Reg.HM_DENIED_COUNT + 1) % 65536
    ∧ ((d.notPermitted c).deny c.src g).get Reg.HM_DENIED_LAST_GROUP = g
    ∧ ((d.notPermitted c).deny c.src g).get Reg.HM_DENIED_LAST_SOURCE = srcNum c.src
    ∧ (d.notPermitted c).deny c.src g = talked d ((d.notPermitted c).deny c.src g)
    ∧ RegsKeep deniedKeys d ((d.notPermitted c).deny c.src g) := by
  obtain ⟨hcount, hgroup, hsource, hkeep⟩ := deny_spec (d.notPermitted c) c.src hg
  obtain ⟨htalk, hregs⟩ := notPermitted_talks d c
  refine ⟨?_, hgroup, hsource, ?_, fun f hf ht => (hkeep f hf).trans (hregs f (by simp) ht)⟩
  · rw [hcount, Dev.notPermitted_get _ _ (notTalk (by decide) (by decide))]
  · have hregs' : (d.notPermitted c).deny c.src g = { d.notPermitted c with regs := ((d.notPermitted c).deny c.src g).regs } := rfl
    rw [hregs', htalk]
    rfl

/-- The rows that a profile may deny, with their opcodes. -/
theorem isRow_of_deniable {c : Cmd} {op : Nat} {i : Instr}
    (h : i = .read c ∧ op = 1 ∨ i = .write c ∧ op = 2 ∨ i = .trigger c ∧ op = 3 ∨ i = .cancel c ∧ op = 4 ∨ i = .release c ∧ op = 16
      ∨ i = .assign c ∧ op = 18) : IsRow c op i := by
  unfold IsRow
  tauto

theorem fieldsAt_denied : fieldsAt 0xD00C = [Reg.HM_DENIED_COUNT, Reg.HM_DENIED_LAST_GROUP, Reg.HM_DENIED_LAST_SOURCE] := by decide +kernel

theorem readFields_nil (d : Dev) : d.readFields [] = 0 := rfl

theorem readField_ro (d : Dev) {f : Fld} (h : f.acc = .ro) : d.readField f = d.get f := by
  simp only [Dev.readField, h]

/-- The word of HM_DENIED is its three fields, its other bits 0. -/
theorem regWord_denied (d : Dev) : d.regWord 0xD00C = d.get Reg.HM_DENIED_COUNT % 2 ^ 16 + d.get Reg.HM_DENIED_LAST_GROUP % 2 ^ 4 * 2 ^ 16
    + d.get Reg.HM_DENIED_LAST_SOURCE % 2 ^ 2 * 2 ^ 20 := by
  have hword : d.regWord 0xD00C = d.readFields (fieldsAt 0xD00C) := rfl
  obtain ⟨hcount, hgroup, hsource⟩ : (Reg.HM_DENIED_COUNT.width, Reg.HM_DENIED_COUNT.lo) = (16, 0)
      ∧ (Reg.HM_DENIED_LAST_GROUP.width, Reg.HM_DENIED_LAST_GROUP.lo) = (4, 16)
      ∧ (Reg.HM_DENIED_LAST_SOURCE.width, Reg.HM_DENIED_LAST_SOURCE.lo) = (2, 20) := ⟨rfl, rfl, rfl⟩
  simp only [Prod.mk.injEq] at hcount hgroup hsource
  rw [hword, fieldsAt_denied, readFields_cons, readFields_cons, readFields_cons, readFields_nil, readField_ro d rfl, readField_ro d rfl,
    readField_ro d rfl, hcount.1, hcount.2, hgroup.1, hgroup.2, hsource.1, hsource.2, Nat.pow_zero, Nat.mul_one, Nat.add_zero, Nat.add_assoc]

/-- Settles O6: a denied write is a denial and nothing else, a denied command its answer and a denial. -/
theorem deniedWriteIsOnlyCounted : Obligations.DeniedWriteIsOnlyCounted := by
  refine ⟨fun c src a s h hc hopen hmay => ?_, fun c op g i s hup hsrc hg hrow hden => ?_, rfl, rfl, rfl, rfl, regWord_denied, ?_⟩
  · obtain ⟨f, hf⟩ := exec_of_writeOf (s := s) h hc
    rw [onDev, gated_of_denied hopen hmay] at hf
    obtain ⟨hcount, hgroup, hsource, hkeep⟩ := deny_spec s.dev src (groupOf_lt a)
    exact ⟨_, hf, hcount, hgroup, hsource, rfl, hkeep⟩
  · obtain ⟨hcount, hgroup, hsource, hwork, hkeep⟩ := refuseDenied_spec s.dev (cmdWithOp c op) hg
    exact ⟨_, (exec_row_refused hup hsrc (isRow_of_deniable hrow)).1 g hden, hcount, hgroup, hsource,
      congrArg (fun d : Dev => { s with dev := d }) hwork, hkeep⟩
  · rw [regWord_denied]
    rfl

end Sys2Proof.Machine
end

section
/-! PROOF. A loss of power and a reset clear the device, and a bring-up reads the hallmark; O18 and O17 from them. -/
namespace Sys2Proof.Machine
open Sys2Proof.Safety

/-! ### Loss of power and reset (R477, R550, R579, R586) -/

/-- The state a loss of power (`b` off) or a reset (`b` held in reset, the rails kept) leaves. -/
def State.lost (s : State) (k : Nat) (b : Boot) (rails : Bool) : State :=
  { s with fuses := s.interrupted k, ecc := [], dev := s.dev.cleared b rails }

theorem exec_lost {c : Instr} {k : Nat} {s : State} (hon : s.dev.boot ≠ .off)
    (hc : c = .converterStop k ∨ c = .railLimitTrip k ∨ c = .nresetAssert k) :
    exec c s = .next (s.lost k (if c = .nresetAssert k then .resetHeld else .off) (decide (c = .nresetAssert k))) := by
  rcases hc with rfl | rfl | rfl
  · exact congrArg Host.Outcome.next (if_neg hon)
  · exact congrArg Host.Outcome.next (if_neg hon)
  · rw [if_pos rfl, decide_eq_true rfl]
    exact if_neg hon

/-- Settles O18: the cleared device is the one after reset but for what R550 keeps, and only an interrupted session has blown antifuses. -/
theorem lossOfPowerAndReset : Obligations.LossOfPowerAndReset := by
  intro c k s hon hc
  refine ⟨_, exec_lost hon hc, rfl, rfl, rfl, rfl, rfl, rfl, rfl, rfl, rfl, rfl, rfl, rfl, rfl, rfl, rfl, rfl, rfl, rfl, rfl, rfl, rfl, fun hs => ?_, rfl⟩
  simp only [State.lost, State.interrupted, hs, Bool.false_eq_true, if_false]

/-! ### The hallmark read at bring-up (R529) -/

/-- The word of the hallmark that the view holds is the majority of the three copies (R529). -/
theorem getT_read (f : Fuses) {w : Nat} (hw : w < 256) : getT 0 w f.read = f.word w := by
  have hall (l : List Nat) : w ∈ l → getT 0 w (l.filterMap fun v => if f.word v = 0 then none else some (v, f.word v)) = f.word w := by
    induction l with
    | nil => intro h; cases h
    | cons v l ih =>
      intro hmem
      have habsent : f.word w = 0 → ∀ l : List Nat, getT 0 w (l.filterMap fun v => if f.word v = 0 then none else some (v, f.word v)) = 0 := by
        intro h0 l
        induction l with
        | nil => rfl
        | cons v l ih =>
          by_cases hv : f.word v = 0
          · simpa [hv] using ih
          · have hne : v ≠ w := fun e => hv (e ▸ h0)
            simpa [hv, getT, hne] using ih
      by_cases hv : f.word v = 0
      · rcases List.mem_cons.1 hmem with rfl | hl
        · rw [habsent hv, hv]
        · simpa [hv] using ih hl
      · by_cases hvw : v = w
        · simp [hvw ▸ hv, hvw, getT]
        · rcases List.mem_cons.1 hmem with rfl | hl
          · exact absurd rfl hvw
          · simpa [hv, getT, hvw] using ih hl
  exact hall _ (List.mem_range.2 hw)

theorem get_of_regs {d t : Dev} (h : t.regs = d.regs) (g : Fld) : t.get g = d.get g := by
  rw [Dev.get, Dev.get, h]

/-- Registers aside, `t` holds what `d` does of power, queue, balls, ledger and hallmark. -/
structure SameWork (d t : Dev) : Prop where
  boot : t.boot = d.boot
  queue : t.queue = d.queue
  pins : t.pins = d.pins
  ledger : t.ledger = d.ledger
  view : t.hm.view = d.hm.view

theorem SameWork.refl (d : Dev) : SameWork d d := ⟨rfl, rfl, rfl, rfl, rfl⟩

theorem SameWork.trans {d e t : Dev} (h : SameWork d e) (h' : SameWork e t) : SameWork d t :=
  ⟨h'.boot.trans h.boot, h'.queue.trans h.queue, h'.pins.trans h.pins, h'.ledger.trans h.ledger, h'.view.trans h.view⟩

theorem SameWork.set {d t : Dev} {f : Fld} {v : Nat} (h : SameWork d t) : SameWork d (t.set f v) := ⟨h.boot, h.queue, h.pins, h.ledger, h.view⟩

theorem SameWork.setB {d t : Dev} {f : Fld} {b : Bool} (h : SameWork d t) : SameWork d (t.setB f b) := h.set

theorem SameWork.setBoth {d t : Dev} {f : Fld} {v : Nat} (h : SameWork d t) : SameWork d (t.setBoth f v) := ⟨h.boot, h.queue, h.pins, h.ledger, h.view⟩

theorem SameWork.hmWord {d t : Dev} (h : SameWork d t) (w : Nat) : t.hmWord w = d.hmWord w := by
  rw [Dev.hmWord, h.view, Dev.hmWord]

/-- The constants of the channels reach the channels' registers alone (R550). -/
theorem loadChannels_spec (d : Dev) (pkg delay : Dev → Nat → Nat) (l : List Nat) :
    (let r := l.foldl (fun d n => (d.set (Reg.CH_ALIGN_PKG n) (pkg d n)).setBoth (Reg.CH_TDC_DELAY_DELAY n) (delay d n)) d
     (∀ g : Fld, g.addr < 0x2000 ∨ 0x8000 ≤ g.addr → g.lo < 32 → (∀ n ∈ l, n < 48) → r.get g = d.get g) ∧ SameWork d r) := by
  induction l generalizing d with
  | nil => exact ⟨fun _ _ _ _ => rfl, .refl d⟩
  | cons n l ih =>
    obtain ⟨hget, hwork⟩ := ih ((d.set (Reg.CH_ALIGN_PKG n) (pkg d n)).setBoth (Reg.CH_TDC_DELAY_DELAY n) (delay d n))
    refine ⟨fun g hg hlo hl => ?_, (SameWork.refl d).set.setBoth.trans hwork⟩
    have hn := hl n (.head _)
    have hpkg : g.key ≠ (Reg.CH_ALIGN_PKG n).key := by simp only [Fld.key, Reg.CH_ALIGN_PKG]; omega
    have hdelay : g.key ≠ (Reg.CH_TDC_DELAY_DELAY n).key := by simp only [Fld.key, Reg.CH_TDC_DELAY_DELAY]; omega
    refine (hget g hg hlo fun m hm => hl m (.tail _ hm)).trans ?_
    rw [Dev.setBoth_eq, Dev.get_setForce, Dev.get_set_ne _ hdelay, Dev.get_set_ne _ hpkg]

theorem bit_stored (b : Bool) : (b2n b % 2 ^ 1 != 0) = b := by cases b <;> rfl

/-- What the hallmark's read shows (R529, R530, R550), and what it leaves. -/
theorem readHallmark_spec (d : Dev) (f : Fuses) :
    (let r := d.readHallmark f
     r.get Reg.ID_SERIAL_LO_SERIAL_LO = f.word 0 % 2 ^ 32 ∧ r.get Reg.ID_SERIAL_HI_SERIAL_HI = f.word 1 % 2 ^ 32
     ∧ r.get Reg.ID_LOT_LOT = f.word 2 % 2 ^ 24
     ∧ r.flag Reg.HM_STATUS_SEALED = bitOf (f.word 140) 0 ∧ r.flag Reg.HM_STATUS_RWL_LOCKED = bitOf (f.word 140) 0
     ∧ r.get Reg.GLB_ROLE_STATUS_PERMITTED = 7 - (if bitOf (f.word 140) 0 then f.word 128 else 0) % 8
     ∧ r.get Reg.GLB_ROLE_STATUS_ACTIVE_ROLE = d.get Reg.GLB_ROLE_STATUS_ACTIVE_ROLE
     ∧ r.get Reg.GLB_ROLE_STATUS_ROLE_FIXED = d.get Reg.GLB_ROLE_STATUS_ROLE_FIXED
     ∧ r.boot = d.boot ∧ r.queue = d.queue ∧ r.pins = d.pins ∧ r.ledger = d.ledger) := by
  unfold Dev.readHallmark
  extract_lets hm viewed sld bad crcOk checked hm' noted w2 w3 serial lot step loaded w weighed cust permitted classed r
  -- the view holds the majority, and a stage that is done is known by what it has set
  have hget : ∀ g, viewed.get g = d.get g := fun g => get_of_regs (by dsimp only [viewed]) g
  obtain ⟨hboot, hqueue, hpins, hledger⟩ : viewed.boot = d.boot ∧ viewed.queue = d.queue ∧ viewed.pins = d.pins ∧ viewed.ledger = d.ledger :=
    ⟨rfl, rfl, rfl, rfl⟩
  have hview : viewed.hm.view = f.read := rfl
  have hsld : sld = bitOf (f.word 140) 0 := congrArg (bitOf · 0) (getT_read f (by decide))
  clear_value viewed sld crcOk bad
  have hchecked : SameWork viewed checked := (SameWork.refl viewed).setB.setB.set.setB
  have hseal : checked.get Reg.HM_STATUS_SEALED = b2n sld % 2 ^ 1 ∧ checked.get Reg.HM_STATUS_RWL_LOCKED = b2n sld % 2 ^ 1 := by
    simp (disch := decide) only [checked, Dev.setB_eq, Dev.get_set_ne, Dev.get_set_same]
    exact ⟨rfl, rfl⟩
  have hother : checked.get Reg.GLB_ROLE_STATUS_ACTIVE_ROLE = d.get Reg.GLB_ROLE_STATUS_ACTIVE_ROLE
      ∧ checked.get Reg.GLB_ROLE_STATUS_ROLE_FIXED = d.get Reg.GLB_ROLE_STATUS_ROLE_FIXED := by
    simp (disch := decide) only [checked, hget, Dev.setB_eq, Dev.get_set_ne, and_self]
  clear_value checked
  have hnoted : SameWork viewed noted := ⟨hchecked.boot, hchecked.queue, hchecked.pins, hchecked.ledger, hchecked.view⟩
  have hsame : ∀ g, noted.get g = checked.get g := fun g => get_of_regs (by dsimp only [noted]) g
  have hword (v : Nat) (hv : v < 256) : noted.hmWord v = f.word v := by
    rw [hnoted.hmWord, Dev.hmWord, hview, getT_read f hv]
  clear_value noted
  have hstep : SameWork viewed step := hnoted.set.set.set.set.set.set.set.set.set
  have hserial : step.get Reg.ID_SERIAL_LO_SERIAL_LO = f.word 0 % 2 ^ 32 ∧ step.get Reg.ID_SERIAL_HI_SERIAL_HI = f.word 1 % 2 ^ 32
      ∧ step.get Reg.ID_LOT_LOT = f.word 2 % 2 ^ 24 := by
    simp (disch := decide) only [step, lot, serial, w2, hword, Dev.get_set_ne, Dev.get_set_same]
    exact ⟨rfl, rfl, rfl⟩
  have hkept : ∀ g ∈ [Reg.HM_STATUS_SEALED, Reg.HM_STATUS_RWL_LOCKED, Reg.GLB_ROLE_STATUS_ACTIVE_ROLE, Reg.GLB_ROLE_STATUS_ROLE_FIXED],
      step.get g = checked.get g := by
    simp (disch := decide) [step, lot, serial, hsame, Dev.get_set_ne]
  clear_value step
  obtain ⟨hgot, hloaded⟩ := loadChannels_spec step (fun d n => d.hmWord (4 + n / 2) / 2 ^ (16 * (n % 2))) (fun d n => d.hmWord (28 + n)) (List.range 48)
  have hload (g : Fld) (hg : g.addr < 0x2000 ∨ 0x8000 ≤ g.addr) (hlo : g.lo < 32) : loaded.get g = step.get g :=
    hgot g hg hlo fun n hn => List.mem_range.1 hn
  replace hloaded : SameWork step loaded := hloaded
  clear_value loaded
  have hweighed : SameWork viewed weighed := (hstep.trans hloaded).set.set.set
  have hshown (g : Fld) (hg : g.addr < 0x2000 ∨ 0xD000 ≤ g.addr) (hlo : g.lo < 32) : weighed.get g = step.get g := by
    have hne {f : Fld} (hf : f.addr = 0xA00C) (hf' : f.lo < 32) : g.key ≠ f.key := by simp only [Fld.key]; omega
    simp only [weighed]
    rw [Dev.get_set_ne _ (hne rfl (by decide)), Dev.get_set_ne _ (hne rfl (by decide)), Dev.get_set_ne _ (hne rfl (by decide)),
      hload g (by omega) hlo]
  have hcust : cust = if bitOf (f.word 140) 0 then f.word 128 else 0 := by
    have hsealed : weighed.sealed = bitOf (f.word 140) 0 := by
      rw [Dev.sealed, Dev.flag, hshown _ (by decide) (by decide), hkept _ (by decide), hseal.1, bit_stored, hsld]
    rw [show cust = weighed.custWord 128 from rfl, Dev.custWord, hsealed, hweighed.hmWord, Dev.hmWord, hview, getT_read f (by decide)]
  clear_value weighed cust
  have hr : SameWork viewed r := hweighed.set.setB.setB.set
  have hrest (g : Fld) (hg : g.addr < 0xA000 ∨ 0xD000 ≤ g.addr) (hlo : g.lo < 32) (hp : g.key ≠ Reg.GLB_ROLE_STATUS_PERMITTED.key) :
      r.get g = weighed.get g := by
    have hne {f : Fld} (hf : f.addr = 0xA008) (hf' : f.lo < 32) : g.key ≠ f.key := by simp only [Fld.key]; omega
    simp only [r, classed, permitted, Dev.setB_eq]
    rw [Dev.get_set_ne _ (hne rfl (by decide)), Dev.get_set_ne _ (hne rfl (by decide)), Dev.get_set_ne _ (hne rfl (by decide)), Dev.get_set_ne _ hp]
  have hpermitted : r.get Reg.GLB_ROLE_STATUS_PERMITTED = (7 - cust % 8) % 2 ^ 3 := by
    simp (disch := decide) only [r, classed, permitted, Dev.setB_eq, Dev.get_set_ne, Dev.get_set_same]
    rfl
  clear_value r
  have hall (g : Fld) (hg : g.addr < 0x2000 ∨ 0xD000 ≤ g.addr) (hlo : g.lo < 32) (hp : g.key ≠ Reg.GLB_ROLE_STATUS_PERMITTED.key) :
      r.get g = step.get g := (hrest g (by omega) hlo hp).trans (hshown g hg hlo)
  refine ⟨?_, ?_, ?_, ?_, ?_, ?_, ?_, ?_, hr.boot.trans hboot, hr.queue.trans hqueue, hr.pins.trans hpins, hr.ledger.trans hledger⟩
  · rw [hall _ (by decide) (by decide) (by decide), hserial.1]
  · rw [hall _ (by decide) (by decide) (by decide), hserial.2.1]
  · rw [hall _ (by decide) (by decide) (by decide), hserial.2.2]
  · rw [Dev.flag, hall _ (by decide) (by decide) (by decide), hkept _ (by decide), hseal.1, bit_stored, hsld]
  · rw [Dev.flag, hall _ (by decide) (by decide) (by decide), hkept _ (by decide), hseal.2, bit_stored, hsld]
  · rw [hpermitted, hcust]
    omega
  · rw [hall _ (by decide) (by decide) (by decide), hkept _ (by decide), hother.1]
  · rw [hall _ (by decide) (by decide) (by decide), hkept _ (by decide), hother.2]


/-- The fields that bring-up sets after the hallmark's read. -/
def bootShows : List Nat :=
  [Reg.GLB_BRINGUP_STATUS_RAILS_OK.key, Reg.GLB_BRINGUP_STATUS_HM_READ_DONE.key, Reg.GLB_BRINGUP_STATUS_REF_WAIT.key, Reg.PWR_STATUS_PGOOD.key,
    Reg.FLT_SELFTEST_BANK_FAIL.key, Reg.FLT_SELFTEST_LQ_FAIL.key, Reg.FLT_SELFTEST_SMALL_MEM_FAIL.key, Reg.FLT_SELFTEST_CORE_FAIL.key,
    Reg.FLT_SELFTEST_DONE.key, Reg.LDG_STATUS_NEXT_SLOT.key, Reg.GLB_ROLE_STATUS_STRAP_LIVE.key]

theorem boots_kept (d : Dev) (f : Fuses) (test : SelfTest) {g : Fld} (hk : g.key ∉ bootShows) :
    (d.boots f test).get g = ((d.cleared .waiting true).readHallmark f).get g := by
  unfold Dev.boots
  generalize (d.cleared .waiting true).readHallmark f = read
  extract_lets b rails tested flagged shown
  simp only [bootShows, List.mem_cons, List.not_mem_nil, or_false, not_or] at hk
  obtain ⟨h1, h2, h3, h4, h5, h6, h7, h8, h9, h10, h11⟩ := hk
  refine (get_of_regs (d := shown) (by dsimp only) g).trans ?_
  simp only [shown, flagged, tested, rails, Dev.setB_eq]
  rw [Dev.get_set_ne _ h11, Dev.get_set_ne _ h10, Dev.get_set_ne _ h9, Dev.get_set_ne _ h8, Dev.get_set_ne _ h7, Dev.get_set_ne _ h6,
    Dev.get_set_ne _ h5, Dev.get_set_ne _ h4, Dev.get_set_ne _ h3, Dev.get_set_ne _ h2, Dev.get_set_ne _ h1]

theorem boots_work (d : Dev) (f : Fuses) (test : SelfTest) :
    SameWork ((d.cleared .waiting true).readHallmark f) (d.boots f test) := by
  unfold Dev.boots
  generalize (d.cleared .waiting true).readHallmark f = read
  extract_lets b rails tested flagged shown
  have hrails : SameWork b rails := (SameWork.refl b).setB.setB.setB.setB
  have htested : SameWork rails tested := (SameWork.refl rails).set.set
  have hflagged : SameWork tested flagged := (SameWork.refl tested).setB.setB.setB
  have hshown : SameWork flagged shown := (SameWork.refl flagged).set.set
  have hall := (hrails.trans htested).trans (hflagged.trans hshown)
  clear_value shown
  exact hall.trans ⟨rfl, rfl, rfl, rfl, rfl⟩

theorem boots_shows (d : Dev) (f : Fuses) (test : SelfTest) :
    (let t := d.boots f test
     t.flag Reg.GLB_BRINGUP_STATUS_RAILS_OK = true ∧ t.flag Reg.GLB_BRINGUP_STATUS_HM_READ_DONE = true
      ∧ t.get Reg.GLB_BRINGUP_STATUS_REF_WAIT = b2n (!((d.cleared .waiting true).readHallmark f).pins.refPresent) % 2 ^ 1
      ∧ t.get Reg.FLT_SELFTEST_BANK_FAIL = test.banks % 2 ^ 16 ∧ t.get Reg.FLT_SELFTEST_LQ_FAIL = test.lqs % 2 ^ 12
      ∧ t.get Reg.FLT_SELFTEST_SMALL_MEM_FAIL = b2n test.smallMem % 2 ^ 1 ∧ t.get Reg.FLT_SELFTEST_CORE_FAIL = b2n test.core % 2 ^ 1
      ∧ t.flag Reg.FLT_SELFTEST_DONE = true
      ∧ t.get Reg.GLB_ROLE_STATUS_STRAP_LIVE = ((d.cleared .waiting true).readHallmark f).pins.strap % 2 ^ 2) := by
  unfold Dev.boots
  generalize (d.cleared .waiting true).readHallmark f = read
  extract_lets b rails tested flagged shown hm t
  have hget (g : Fld) : t.get g = shown.get g := get_of_regs (by dsimp only [t]) g
  clear_value t
  simp (disch := decide) only [Dev.flag, hget, shown, flagged, tested, rails, Dev.setB_eq, Dev.get_set_ne, Dev.get_set_same]
  exact ⟨rfl, rfl, rfl, rfl, rfl, rfl, rfl, rfl, rfl⟩

/-- What a bring-up shows (R430, R518, R529), whichever stage of power it begins from. -/
theorem boots_spec (d : Dev) (f : Fuses) (test : SelfTest) :
    (let t := d.boots f test
     t.boot = .waiting ∧ t.get Reg.ID_SERIAL_LO_SERIAL_LO = f.word 0 % 2 ^ 32
      ∧ t.get Reg.ID_SERIAL_HI_SERIAL_HI = f.word 1 % 2 ^ 32 ∧ t.get Reg.ID_LOT_LOT = f.word 2 % 2 ^ 24
      ∧ t.flag Reg.HM_STATUS_SEALED = bitOf (f.word 140) 0 ∧ t.flag Reg.HM_STATUS_RWL_LOCKED = bitOf (f.word 140) 0
      ∧ t.get Reg.GLB_ROLE_STATUS_PERMITTED = 7 - (if bitOf (f.word 140) 0 then f.word 128 else 0) % 8
      ∧ t.flag Reg.GLB_BRINGUP_STATUS_RAILS_OK = true ∧ t.flag Reg.GLB_BRINGUP_STATUS_HM_READ_DONE = true
      ∧ t.flag Reg.GLB_BRINGUP_STATUS_REF_WAIT = !d.pins.refPresent
      ∧ t.get Reg.FLT_SELFTEST_BANK_FAIL = test.banks % 2 ^ 16 ∧ t.get Reg.FLT_SELFTEST_LQ_FAIL = test.lqs % 2 ^ 12
      ∧ t.flag Reg.FLT_SELFTEST_SMALL_MEM_FAIL = test.smallMem ∧ t.flag Reg.FLT_SELFTEST_CORE_FAIL = test.core
      ∧ t.flag Reg.FLT_SELFTEST_DONE = true ∧ t.get Reg.GLB_ROLE_STATUS_STRAP_LIVE = d.pins.strap % 4
      ∧ t.get Reg.GLB_ROLE_STATUS_ACTIVE_ROLE = 3 ∧ t.flag Reg.GLB_ROLE_STATUS_ROLE_FIXED = false
      ∧ t.queue = [] ∧ t.ledger = d.ledger) := by
  have hspec := readHallmark_spec (d.cleared .waiting true) f
  have hclear (g : Fld) : (d.cleared .waiting true).get g = g.reset := rfl
  rw [hclear, hclear] at hspec
  obtain ⟨hlo, hhi, hlot, hseal, hlock, hpermitted, hrole, hfixed, hboot, hqueue, hpins, hledger⟩ := hspec
  obtain ⟨hok, hdone, hwait, hbanks, hlqs, hsmall, hcore, htest, hlive⟩ := boots_shows d f test
  have hwork := boots_work d f test
  have hkept {g : Fld} (hk : g.key ∉ bootShows) := boots_kept d f test hk
  generalize (d.cleared .waiting true).readHallmark f = read at *
  generalize d.boots f test = t at *
  have hflag {g : Fld} (hk : g.key ∉ bootShows) : t.flag g = read.flag g := by rw [Dev.flag, hkept hk, Dev.flag]
  have hpresent : read.pins.refPresent = d.pins.refPresent := (congrArg Pins.refPresent hpins).trans rfl
  have hstrap : read.pins.strap = d.pins.strap := (congrArg Pins.strap hpins).trans rfl
  refine ⟨hwork.boot.trans hboot, ?_, ?_, ?_, ?_, ?_, ?_, hok, hdone, ?_, hbanks, hlqs, ?_, ?_, htest, ?_, ?_, ?_, hwork.queue.trans hqueue,
    hwork.ledger.trans hledger⟩
  · rw [hkept (by decide), hlo]
  · rw [hkept (by decide), hhi]
  · rw [hkept (by decide), hlot]
  · rw [hflag (by decide), hseal]
  · rw [hflag (by decide), hlock]
  · rw [hkept (by decide), hpermitted]
  · rw [Dev.flag, hwait, bit_stored, hpresent]
  · rw [Dev.flag, hsmall, bit_stored]
  · rw [Dev.flag, hcore, bit_stored]
  · rw [hlive, hstrap, show 2 ^ 2 = 4 from rfl]
  · rw [hkept (by decide), hrole]
    rfl
  · rw [Dev.flag, hkept (by decide), hfixed]
    rfl

/-- Settles O17: either command boots the device, whatever it stood at before. -/
theorem powerUpReadsTheHallmark : Obligations.PowerUpReadsTheHallmark := by
  intro c test s hc
  have hexec : exec c s = .next { s with dev := s.dev.boots s.fuses test, ecc := [] } := by
    rcases hc with ⟨rfl, hoff⟩ | ⟨rfl, hheld⟩
    · exact if_pos hoff
    · exact if_pos hheld
  obtain ⟨h1, h2, h3, h4, h5, h6, h7, h8, h9, h10, h11, h12, h13, h14, h15, h16, h17, h18, h19, h20⟩ := boots_spec s.dev s.fuses test
  exact ⟨_, hexec, h1, h2, h3, h4, h5, h6, h7, h8, h9, h10, h11, h12, h13, h14, h15, h16, h17, h18, h19, h20, rfl, rfl, rfl⟩

end Sys2Proof.Machine
end

section
/-! PROOF. Staging, PROGRAM's checks and the end of a session; O21 from them. -/
namespace Sys2Proof.Machine
open Sys2Proof.Safety

/-! ### Staging words (R541) -/

theorem writeStage_spec {d : Dev} {v : Nat} (hv : v < 2 ^ 32) (hlock : d.flag Reg.HM_STATUS_RWL_LOCKED = false)
    (haddr : d.get Reg.HM_PROG_ADDR_WORD ≤ 10) :
    (let t := d.writeStage v
     t.stageWord (d.get Reg.HM_PROG_ADDR_WORD) = v ∧ t.get Reg.HM_PROG_ADDR_WORD = min 10 (d.get Reg.HM_PROG_ADDR_WORD + 1)
      ∧ (∀ k, k ≠ d.get Reg.HM_PROG_ADDR_WORD → t.stageWord k = d.stageWord k)
      ∧ t = { d with regs := t.regs, hm := { d.hm with stage := t.hm.stage } } ∧ RegsKeepAll [Reg.HM_PROG_ADDR_WORD.key] d t) := by
  have hwrite : d.writeStage v = ({ d with hm := { d.hm with stage := putT (d.get Reg.HM_PROG_ADDR_WORD) v d.hm.stage } }).set
      Reg.HM_PROG_ADDR_WORD (min 10 (d.get Reg.HM_PROG_ADDR_WORD + 1)) := by
    rw [Dev.writeStage, hlock, if_neg (by decide)]
    dsimp only
    rw [Nat.min_eq_right haddr, Nat.mod_eq_of_lt hv]
  rw [hwrite]
  refine ⟨getT_putT_same .., ?_, fun k hk => getT_putT_ne _ hk _ _, rfl, regsKeepAll_set _ _ _⟩
  rw [Dev.get_set_same, Nat.mod_eq_of_lt (by change _ < 16; omega)]

/-! ### PROGRAM's checks (R533, R542) -/

/-- A bit is blown that is not staged: what RESULT 5 asks of a word (R542). -/
theorem and_complement_ne_zero {m n : Nat} (hn : n < 2 ^ 32) :
    (m &&& (2 ^ 32 - 1 - n) != 0) = (List.range 32).any fun b => bitOf m b && !bitOf n b := by
  have hbit (b : Nat) : (m &&& (2 ^ 32 - 1 - n)).testBit b = (m.testBit b && (decide (b < 32) && !n.testBit b)) := by
    rw [Nat.testBit_and, Nat.sub_sub, Nat.add_comm 1, Nat.testBit_two_pow_sub_succ hn]
  rw [Bool.eq_iff_iff, bne_iff_ne, List.any_eq_true]
  constructor
  · intro h
    obtain ⟨b, hb⟩ := Nat.exists_testBit_of_ne_zero h
    rw [hbit] at hb
    simp only [Bool.and_eq_true, decide_eq_true_eq] at hb
    obtain ⟨hm, hlt, hnb⟩ := hb
    exact ⟨b, List.mem_range.2 hlt, by rw [bitOf_eq_testBit, bitOf_eq_testBit, hm, hnb, Bool.and_self]⟩
  · rintro ⟨b, hb, hmn⟩ h0
    rw [bitOf_eq_testBit, bitOf_eq_testBit] at hmn
    have hclear := hbit b
    rw [h0, Nat.zero_testBit, decide_eq_true (List.mem_range.1 hb), Bool.true_and, hmn] at hclear
    cases hclear

/-- The first condition that holds, or 0. -/
def firstOf : List (Nat × Bool) → Nat
  | [] => 0
  | c :: l => if c.2 then c.1 else firstOf l

theorem firstOf_of_none {l : List (Nat × Bool)} (h : ∀ e ∈ l, e.2 = false) : firstOf l = 0 := by
  induction l with
  | nil => rfl
  | cons e l ih =>
    rw [firstOf, h e (.head _), if_neg (by decide)]
    exact ih fun e he => h e (.tail _ he)

theorem firstOf_of_first {l : List (Nat × Bool)} (hl : l.Pairwise fun a b => a.1 < b.1) {c : Nat × Bool} (hc : c ∈ l) (htrue : c.2 = true)
    (hfirst : ∀ e ∈ l, e.1 < c.1 → e.2 = false) : firstOf l = c.1 := by
  induction l with
  | nil => cases hc
  | cons e l ih =>
    obtain ⟨hlt, hl⟩ := List.pairwise_cons.1 hl
    rcases List.mem_cons.1 hc with rfl | hmem
    · rw [firstOf, if_pos htrue]
    · rw [firstOf, hfirst e (.head _) (hlt c hmem), if_neg (by decide)]
      exact ih hl hmem fun e he => hfirst e (.tail _ he)

/-- The conditions under which PROGRAM is refused, in the order of RESULT (R542). -/
def Dev.refusals (d : Dev) (src : Source) (f : Fuses) : List (Nat × Bool) :=
  [(1, src != .spi && src != .pcie), (2, d.get Reg.HM_PROG_CONFIRM_SERIAL_LO != d.get Reg.ID_SERIAL_LO_SERIAL_LO),
   (3, decide (d.get Reg.PWR_INPUT_VIN_MV < 10000 ∨ d.tj < 0 ∨ 1360 < d.tj)), (4, bitOf (f.word 140) 0),
   (5, (List.range 11).any fun k => (List.range 32).any fun b => bitOf (f.word (128 + k)) b && !bitOf (d.stageWord k) b)]

theorem programCheck_eq {d : Dev} (src : Source) (f : Fuses) (hstage : ∀ k, d.stageWord k < 2 ^ 32) :
    d.programCheck src f = firstOf (d.refusals src f) := by
  simp only [Dev.programCheck, Dev.refusals, firstOf, and_complement_ne_zero (hstage _), bne_iff_ne, decide_eq_true_eq]

theorem exec_program {src : Source} {s : State} (hp : Passes s.dev src 0xD01C) :
    exec (.program src) s = .next { s with dev := s.dev.program src s.fuses } := by
  show onDev (fun d => d.gated src 0xD01C fun d => d.program src s.fuses) s = _
  rw [onDev, gated_of_passes hp]

theorem program_of_busy {d : Dev} (src : Source) (f : Fuses) (h : d.flag Reg.HM_PROG_CTRL_BUSY = true) : d.program src f = d := if_pos h

theorem program_of_refused {d : Dev} {src : Source} {f : Fuses} (hidle : d.flag Reg.HM_PROG_CTRL_BUSY = false) (hr : d.programCheck src f ≠ 0) :
    d.program src f = d.set Reg.HM_PROG_CTRL_RESULT (d.programCheck src f) := by
  rw [Dev.program, hidle, if_neg (by decide), if_neg hr]

theorem program_of_accepted {d : Dev} {src : Source} {f : Fuses} (hidle : d.flag Reg.HM_PROG_CTRL_BUSY = false) (hr : d.programCheck src f = 0) :
    d.program src f = ({ d with hm := { d.hm with sealing := true } }).set Reg.HM_PROG_CTRL_BUSY 1 := by
  rw [Dev.program, hidle, if_neg (by decide), if_pos hr, Dev.setB_eq]
  rfl

/-- PROGRAM touches RESULT or BUSY and the session alone. -/
theorem program_keeps (d : Dev) (src : Source) (f : Fuses) :
    d.program src f = { d with regs := (d.program src f).regs, hm := (d.program src f).hm }
      ∧ RegsKeepAll [Reg.HM_PROG_CTRL_RESULT.key, Reg.HM_PROG_CTRL_BUSY.key] d (d.program src f) := by
  cases hb : d.flag Reg.HM_PROG_CTRL_BUSY with
  | true =>
    rw [program_of_busy src f hb]
    exact ⟨rfl, fun _ _ => rfl⟩
  | false =>
    by_cases hr : d.programCheck src f = 0
    · rw [program_of_accepted hb hr]
      exact ⟨rfl, regsKeepAll_mono (regsKeepAll_set _ _ _) (by decide)⟩
    · rw [program_of_refused hb hr]
      exact ⟨rfl, regsKeepAll_mono (regsKeepAll_set _ _ _) (by decide)⟩

theorem program_spec {d : Dev} {src : Source} {f : Fuses} (hidle : d.flag Reg.HM_PROG_CTRL_BUSY = false) (hstage : ∀ k, d.stageWord k < 2 ^ 32) :
    (let t := d.program src f
     (∀ c ∈ d.refusals src f, c.2 = true → (∀ e ∈ d.refusals src f, e.1 < c.1 → e.2 = false) →
        t.get Reg.HM_PROG_CTRL_RESULT = c.1 ∧ t.hm = d.hm ∧ t.flag Reg.HM_PROG_CTRL_BUSY = false)
      ∧ ((∀ e ∈ d.refusals src f, e.2 = false) →
        t.flag Reg.HM_PROG_CTRL_BUSY = true ∧ t.hm = { d.hm with sealing := true })) := by
  have hcheck := programCheck_eq src f hstage
  refine ⟨fun c hc htrue hfirst => ?_, fun hnone => ?_⟩
  · have hsorted : (d.refusals src f).Pairwise fun a b => a.1 < b.1 := by simp [Dev.refusals]
    rw [firstOf_of_first hsorted hc htrue hfirst] at hcheck
    have hrange : 1 ≤ c.1 ∧ c.1 < 8 := by
      have hall : ∀ c ∈ d.refusals src f, 1 ≤ c.1 ∧ c.1 < 8 := by simp [Dev.refusals]
      exact hall c hc
    rw [program_of_refused hidle (by omega), hcheck]
    refine ⟨?_, rfl, ?_⟩
    · rw [Dev.get_set_same]
      exact Nat.mod_eq_of_lt hrange.2
    · rw [Dev.flag, Dev.get_set_ne _ (by decide), ← Dev.flag, hidle]
  · rw [firstOf_of_none hnone] at hcheck
    rw [program_of_accepted hidle hcheck]
    exact ⟨by rw [Dev.flag, Dev.get_set_same]; rfl, rfl⟩

/-! ### The end of a session (R533, R534) -/

theorem getT_blow (f : Fuses) (w m v : Nat) :
    getT 0 v (f.blow w m).a = (if v = w then getT 0 w f.a ||| m else getT 0 v f.a)
      ∧ getT 0 v (f.blow w m).b = (if v = w then getT 0 w f.b ||| m else getT 0 v f.b)
      ∧ getT 0 v (f.blow w m).c = (if v = w then getT 0 w f.c ||| m else getT 0 v f.c) := by
  have hput (t : List (Nat × Nat)) : getT 0 v (putT w (getT 0 w t ||| m) t) = if v = w then getT 0 w t ||| m else getT 0 v t := by
    split
    · next h => rw [h, getT_putT_same]
    · next h => exact getT_putT_ne _ h _ _
  exact ⟨hput f.a, hput f.b, hput f.c⟩

theorem word_blow_ne (f : Fuses) {w v : Nat} (h : v ≠ w) (m : Nat) : (f.blow w m).word v = f.word v := by
  obtain ⟨ha, hb, hc⟩ := getT_blow f w m v
  rw [Fuses.word, ha, hb, hc, if_neg h, if_neg h, if_neg h, Fuses.word]

/-- A session blows the customer area and its CRC, words 128 to 139. -/
theorem toBlow_lt {d : Dev} {f : Fuses} {p : Nat × Nat} (h : p ∈ d.toBlow f) : p.1 < 140 := by
  simp only [Dev.toBlow, List.mem_append, List.mem_flatMap, List.mem_filterMap, List.mem_map] at h
  rcases h with ⟨k, hk, b, -, hp⟩ | ⟨b, -, rfl⟩
  · have hk := List.mem_range.1 hk
    split at hp
    · cases hp
    · cases hp
      dsimp only
      omega
  · exact (by decide : 139 < 140)

theorem word_blowSome (d : Dev) (f : Fuses) (k : Nat) : (d.blowSome f k).word 140 = f.word 140 :=
  List.foldlRecOn (motive := fun g : Fuses => g.word 140 = f.word 140) _ _ rfl fun g hg p hp =>
    (word_blow_ne g (by have := toBlow_lt (List.mem_of_mem_take hp); omega) _).trans hg

theorem bitOf_or_one (n : Nat) : bitOf (n ||| 1) 0 = true := by
  rw [bitOf_or, Bool.or_eq_true]
  exact .inr rfl

theorem sealDone_of_idle {b : Bool} {f : Fuses} {d : Dev} (h : d.hm.sealing = false) : sealDone b f d = (f, d) := by
  rw [sealDone, h]
  rfl

/-- The keys that a session's end writes. -/
def sealKeys : List Nat := [Reg.HM_PROG_CTRL_RESULT.key, Reg.HM_PROG_CTRL_BUSY.key, Reg.HM_STATUS_RWL_LOCKED.key]

theorem sealDone_good {f : Fuses} {d : Dev} (h : d.hm.sealing = true) :
    (let r := sealDone true f d
     bitOf (getT 0 140 r.1.a) 0 = true ∧ bitOf (getT 0 140 r.1.b) 0 = true ∧ bitOf (getT 0 140 r.1.c) 0 = true
      ∧ r.2.get Reg.HM_PROG_CTRL_RESULT = 0 ∧ r.2.flag Reg.HM_PROG_CTRL_BUSY = false ∧ r.2.flag Reg.HM_STATUS_RWL_LOCKED = true
      ∧ r.2 = { d with regs := r.2.regs, hm := { d.hm with sealing := false } } ∧ RegsKeepAll sealKeys d r.2) := by
  have hend : sealDone true f d = ((d.blowSome f (d.toBlow f).length).blow 140 1,
      ((({ d with hm := { d.hm with sealing := false } }).set Reg.HM_PROG_CTRL_BUSY 0).set Reg.HM_PROG_CTRL_RESULT 0).set Reg.HM_STATUS_RWL_LOCKED 1) := by
    rw [sealDone, h]
    rfl
  rw [hend]
  generalize d.blowSome f (d.toBlow f).length = g
  obtain ⟨ha, hb, hc⟩ := getT_blow g 140 1 140
  rw [if_pos rfl] at ha hb hc
  refine ⟨ha ▸ bitOf_or_one _, hb ▸ bitOf_or_one _, hc ▸ bitOf_or_one _, ?_, ?_, ?_, rfl, ?_⟩
  · rw [Dev.get_set_ne _ (by decide), Dev.get_set_same]
    rfl
  · rw [Dev.flag, Dev.get_set_ne _ (by decide), Dev.get_set_ne _ (by decide), Dev.get_set_same]
    rfl
  · rw [Dev.flag, Dev.get_set_same]
    rfl
  · have hb : RegsKeepAll sealKeys d (({ d with hm := { d.hm with sealing := false } }).set Reg.HM_PROG_CTRL_BUSY 0) :=
      regsKeepAll_mono (regsKeepAll_set _ _ _) (by decide)
    exact regsKeepAll_trans (regsKeepAll_trans hb (regsKeepAll_set_of_mem (by decide))) (regsKeepAll_set_of_mem (by decide))

theorem sealDone_bad {f : Fuses} {d : Dev} (h : d.hm.sealing = true) :
    (let r := sealDone false f d
     r.1.word 140 = f.word 140 ∧ r.2.get Reg.HM_PROG_CTRL_RESULT = 6 ∧ r.2.flag Reg.HM_PROG_CTRL_BUSY = false
      ∧ r.2.flag Reg.HM_STATUS_RWL_LOCKED = d.flag Reg.HM_STATUS_RWL_LOCKED
      ∧ r.2 = { d with regs := r.2.regs, free := r.2.free, hm := { d.hm with sealing := false } }) := by
  have hend : ∃ k n, sealDone false f d = (d.blowSome f k,
      ((({ d with free := n, hm := { d.hm with sealing := false } }).set Reg.HM_PROG_CTRL_BUSY 0).set Reg.HM_PROG_CTRL_RESULT 6)) := by
    rw [sealDone, h]
    exact ⟨_, _, rfl⟩
  obtain ⟨k, n, hend⟩ := hend
  rw [hend]
  refine ⟨word_blowSome d f k, ?_, ?_, ?_, rfl⟩
  · rw [Dev.get_set_same]
    rfl
  · rw [Dev.flag, Dev.get_set_ne _ (by decide), Dev.get_set_same]
    rfl
  · rw [Dev.flag, Dev.get_set_ne _ (by decide), Dev.get_set_ne _ (by decide)]
    rfl

/-- Settles O21: the check of PROGRAM answers its first condition that holds, and a session blows no bit of SEALED's word before its end. -/
theorem stagingProgramAndSealing : Obligations.StagingProgramAndSealing := by
  refine ⟨⟨fun src v s hp hlock haddr => ?_, fun src s hp hidle => ?_, fun src s hp hbusy => ?_⟩, fun s hs => ?_, fun s hs => ?_, fun b s hs => ?_⟩
  · have hexec : exec (.hmProgDataWrite src v) s = .next { s with dev := s.dev.writeStage v.toNat } := by
      show onDev (fun d => d.gated src 0xD014 fun d => d.writeStage v.toNat) s = _
      rw [onDev, gated_of_passes hp]
    obtain ⟨hword, hnext, hrest, hframe, hkeep⟩ := writeStage_spec v.isLt hlock haddr
    exact ⟨_, hexec, hword, hnext, hrest, congrArg (fun d => { s with dev := d }) hframe, hkeep⟩
  · obtain ⟨hframe, hkeep⟩ := program_keeps s.dev src s.fuses
    refine ⟨_, exec_program hp, ⟨fun c hc htrue hfirst _ hstage => ?_, fun hnone _ hstage => ?_⟩, congrArg (fun d => { s with dev := d }) hframe, hkeep⟩
    · exact (program_spec hidle hstage).1 c hc htrue hfirst
    · exact (program_spec hidle hstage).2 hnone
  · rw [exec_program hp, program_of_busy src s.fuses hbusy]
  · obtain ⟨ha, hb, hc, hresult, hbusy, hlock, hframe, hkeep⟩ := sealDone_good (f := s.fuses) hs
    exact ⟨_, rfl, ha, hb, hc, hresult, hbusy, hlock, congrArg (fun d => { s with fuses := (sealDone true s.fuses s.dev).1, dev := d }) hframe, hkeep⟩
  · obtain ⟨hword, hresult, hbusy, hlock, hframe⟩ := sealDone_bad (f := s.fuses) hs
    exact ⟨_, rfl, hword, hresult, hbusy, hlock, congrArg (fun d => { s with fuses := (sealDone false s.fuses s.dev).1, dev := d }) hframe⟩
  · show Host.Outcome.next { s with fuses := (sealDone b s.fuses s.dev).1, dev := (sealDone b s.fuses s.dev).2 } = _
    rw [sealDone_of_idle hs]

end Sys2Proof.Machine
end

section
/-! PROOF. States that a statement's premises leave open: a draining channel that still acquires, an engine with two records; O34 and O57 refuted. -/
namespace Sys2Proof.Machine
open Sys2Proof.Safety

/-! ### A draining channel with a sample that waits to be merged -/

/-- A front-end whose channel 4 is draining and yet acquires, with one sample that waits for its merge behind an empty frame of the ring. The
statement asks only that the channel drains and has no records. -/
def drainsAndAcquires : State :=
  { State.reset with
    dev := { State.reset.dev with
      boot := .running
      regs := [(Reg.GLB_ROLE_STATUS_ACTIVE_ROLE.key, 0), ((Reg.PWR_CH_STATE 4).key, 4)]
      acq := { State.reset.dev.acq with
        chans := [(4, { Chan.init with
          acquiring := true
          tail := [{ lo := 0, hi := 0, loClip := false, hiClip := false, endg := false, prov := false, pois := false, mode := 0 }]
          ring := [{ fn := 0, first := 0, exc := 0, cyc := 250, u := 0, smp := [] }] })] } } }

theorem drainsAndAcquires_premises :
    drainsAndAcquires.dev.up = true ∧ drainsAndAcquires.dev.chState 4 = 4 ∧ drainsAndAcquires.dev.chanHasRecords 4 = false
      ∧ drainsAndAcquires.dev.lends 4 = false := by decide +kernel

theorem drainsAndAcquires_ring : (drainsAndAcquires.dev.chan 4).ring.map (·.smp.length) = [0] := by decide +kernel

/-- The channel stops as it goes dark, and its stop merges the sample into the ring. -/
theorem drainsAndAcquires_ring_after : ((drainsAndAcquires.dev.drainEnd 4).chan 4).ring.map (·.smp.length) = [1] := by decide +kernel

theorem exec_channelDrainEnd {n : Nat} (hn : n < 48) (s : State) : exec (.channelDrainEnd n) s = onDev (fun d => d.drainEnd n) s :=
  onUnit_of_lt hn _ s

/-- Refutes O34: a channel that drains is said to keep its ring as it goes dark, but where it still acquires the samples that wait are merged
into the ring. -/
theorem not_channelsEnableDisableAndDrain : ¬ Obligations.ChannelsEnableDisableAndDrain := by
  rintro ⟨-, -, hdark⟩
  obtain ⟨hup, hdrains, hnone, hlends⟩ := drainsAndAcquires_premises
  obtain ⟨-, -, -, -, hring, -⟩ := of_answers_onDev (exec_channelDrainEnd (by decide) _)
    (hdark 4 drainsAndAcquires (by decide) hup hdrains hnone hlends)
  have hlen := congrArg (List.map (·.smp.length)) hring
  rw [drainsAndAcquires_ring] at hlen
  exact absurd (drainsAndAcquires_ring_after.symm.trans hlen) (by decide)

/-! ### An engine with two records -/

/-- A record of channel 4 in engine 0. -/
def inEngineZero (seq : Nat) : Asm :=
  { typ := 1, chan := 4, slot := 0, fn := 0, seq := seq, head := [], smp := [5], width := 16, first := 0, asmFn := 0, cfgFn := 0, engine := some 0,
    ref := none, enc := 0, out := [] }

/-- A front-end with an assay of engine 0 that waits, while two records name the engine. The statement asks only that the first is found. -/
def engineHoldsTwo : State :=
  { State.reset with
    dev := { State.reset.dev with
      boot := .running
      regs := [(Reg.GLB_ROLE_STATUS_ACTIVE_ROLE.key, 0)]
      flt := { State.reset.dev.flt with assays := [{ u := ⟨7, 0⟩, slot := 0, running := false, fn := 0, copy := 0, again := false }] }
      rcd := { State.reset.dev.rcd with asm := [inEngineZero 1, inEngineZero 2] } } }

theorem engineHoldsTwo_waits : ∃ a ∈ engineHoldsTwo.dev.flt.assays, a.u = ⟨7, 0⟩ ∧ a.running = false := by decide +kernel

theorem engineHoldsTwo_first : engineHoldsTwo.dev.rcd.asm.find? (fun x => x.engine == some 0) = some (inEngineZero 1) := by decide +kernel

/-- The assay sends the first record out raw and leaves the other where it is. -/
theorem engineHoldsTwo_keeps_one :
    (engineHoldsTwo.dev.assayBegin ⟨7, 0⟩).rcd.asm.all (fun x => x.engine != some 0) = false := by decide +kernel

/-- Refutes O57: the begin of an engine's assay is said to leave no record in the engine, whatever the state, but it takes one record out and
the state may name the engine in two. -/
theorem not_faultsAndRecovery : ¬ Obligations.FaultsAndRecovery := by
  rintro ⟨-, -, -, -, hengine, -⟩
  obtain ⟨-, -, hempty, -⟩ := of_answers_onDev (f := fun d => d.assayBegin ⟨7, 0⟩) rfl
    (hengine 0 (inEngineZero 1) engineHoldsTwo (by decide) rfl engineHoldsTwo_waits engineHoldsTwo_first)
  exact absurd (engineHoldsTwo_keeps_one.symm.trans hempty) (by decide)

end Sys2Proof.Machine
end

section
/-! PROOF. Domains enter service: a channel, a lane quad, a memory domain, and the write of its enables; O35 from them. -/
namespace Sys2Proof.Machine
open Sys2Proof.Safety

/-! ### A channel enters service (R104, R479) -/

theorem PWR_CH_STATE_ne {n m : Nat} (h : m ≠ n) : (Reg.PWR_CH_STATE m).key ≠ (Reg.PWR_CH_STATE n).key := by
  simp only [Fld.key, Reg.PWR_CH_STATE]; omega

theorem chState_setCh (d : Dev) (n : Nat) {st : Nat} (h : st < 8) : (d.setCh n st).chState n = st :=
  (Dev.get_set_same d (Reg.PWR_CH_STATE n) st).trans (Nat.mod_eq_of_lt h)

/-- A start of channel `n` after its entry: the ramp, the calibration that is due and the other channels are as they were. -/
structure StartStep (n : Nat) (d t : Dev) : Prop where
  work : t = { d with regs := t.regs, acq := t.acq, pw := t.pw }
  regs : RegsKeepAll [(Reg.CH_TRG_STATUS_FILLED n).key] d t
  others : ∀ m, m ≠ n → t.chan m = d.chan m
  fgDue : t.acq.fgDue = d.acq.fgDue
  ramp : t.pw.ramp = d.pw.ramp

theorem StartStep.refl (n : Nat) (d : Dev) : StartStep n d d := ⟨rfl, fun _ _ => rfl, fun _ _ => rfl, rfl, rfl⟩

theorem StartStep.trans {n : Nat} {a b c : Dev} (h : StartStep n a b) (k : StartStep n b c) : StartStep n a c where
  work := by rw [k.work, h.work]
  regs := regsKeepAll_trans h.regs k.regs
  others m hm := (k.others m hm).trans (h.others m hm)
  fgDue := k.fgDue.trans h.fgDue
  ramp := k.ramp.trans h.ramp

theorem StartStep.updChan (n : Nat) (d : Dev) (g : Chan → Chan) : StartStep n d (d.updChan n g) :=
  ⟨rfl, fun _ _ => rfl, fun _ hm => chan_updChan_ne d hm g, rfl, rfl⟩

theorem StartStep.startChan (n : Nat) (d : Dev) : StartStep n d (d.startChan n) where
  work := rfl
  regs := regsKeepAll_set_of_mem (d := d) (f := Reg.CH_TRG_STATUS_FILLED n) (by simp)
  others := (startChan_spec d n).2.2.2.others
  fgDue := rfl
  ramp := rfl

theorem StartStep.resumeRecords (n : Nat) (d : Dev) : StartStep n d d.resumeRecords :=
  iteInduction (fun _ => ⟨rfl, fun _ _ => rfl, fun _ _ => rfl, rfl, rfl⟩) fun _ => .refl n d

/-- A channel that is enabled acquires when it has entered service; where its calibration waits, it is due. -/
theorem startsInService_spec (d : Dev) (n : Nat) {b : Bool} :
    (let e := (d.startChan n).resumeRecords
     let t := if b then e.updChan n fun c => { c with fgDue := some d.fn } else e
     StartStep n d t ∧ (t.chan n).acquiring = true) := by
  extract_lets e t
  have hstart : StartStep n d e := (StartStep.startChan n d).trans (.resumeRecords n _)
  have hchan : e.chan n = (d.startChan n).chan n :=
    iteInduction (motive := fun r : Dev => r.chan n = (d.startChan n).chan n) (fun _ => rfl) fun _ => rfl
  have hacq : (e.chan n).acquiring = true := hchan ▸ (startChan_spec d n).1
  clear_value e
  cases b with
  | false => exact ⟨hstart, hacq⟩
  | true => exact ⟨hstart.trans (StartStep.updChan n e fun c => { c with fgDue := some d.fn }), by simp only [t, if_true, Dev.updChan_eq, Dev.chan_setChan_same, hacq]⟩

/-- The ramp goes on without the channel; the last one ends it. -/
theorem leaveRamp_spec (d : Dev) (n : Nat) :
    (let t := d.leaveRamp n
     t = { d with regs := t.regs, acq := { d.acq with fgDue := t.acq.fgDue }, pw := { d.pw with ramp := t.pw.ramp } }
      ∧ RegsKeepAll [Reg.GLB_BRINGUP_STATUS_RAMP_DONE.key] d t
      ∧ (d.pw.ramp = [n] → t.get Reg.GLB_BRINGUP_STATUS_RAMP_DONE = 1 ∧ t.acq.fgDue = some d.fn ∧ t.pw.ramp = [])) := by
  by_cases hin : d.pw.ramp.contains n
  · by_cases hlast : (d.pw.ramp.filter (· != n)).isEmpty
    · have hleave : d.leaveRamp n = Dev.setB { d with
          pw := { d.pw with ramp := d.pw.ramp.filter (· != n) }, acq := { d.acq with fgDue := some d.fn } } Reg.GLB_BRINGUP_STATUS_RAMP_DONE true := by
        simp only [Dev.leaveRamp, hin, hlast, Bool.not_true, Bool.false_eq_true, if_false, if_true]
        rfl
      rw [hleave]
      exact ⟨rfl, regsKeepAll_set _ _ _, fun _ => ⟨Dev.get_set_same _ _ 1, rfl, List.isEmpty_iff.1 hlast⟩⟩
    · have hleave : d.leaveRamp n = { d with pw := { d.pw with ramp := d.pw.ramp.filter (· != n) } } := by
        simp only [Dev.leaveRamp, hin, hlast, Bool.not_true, Bool.false_eq_true, if_false]
      rw [hleave]
      exact ⟨rfl, fun _ _ => rfl, fun hramp => absurd (by simp [hramp]) hlast⟩
  · have hleave : d.leaveRamp n = d := if_pos (by simpa using hin)
    rw [hleave]
    exact ⟨rfl, fun _ _ => rfl, fun hramp => absurd (by simp [hramp]) hin⟩

/-- The register fields that a channel's entry into service may change. -/
def serviceKeys (n : Nat) : List Nat :=
  [Reg.GLB_BRINGUP_STATUS_RAMP_DONE.key, (Reg.PWR_CH_STATE n).key, (Reg.CH_TRG_STATUS_FILLED n).key]

/-- What follows a channel's leave of the ramp: its new state, then what a start may do. -/
theorem chanInService_of_start {d t : Dev} {n st : Nat} (hn : n < 48) (hst : st < 8) (h : StartStep n ((d.leaveRamp n).setCh n st) t) :
    t.chState n = st ∧ (∀ m, m ≠ n → t.chan m = d.chan m ∧ t.chState m = d.chState m)
      ∧ (d.pw.ramp = [n] → t.get Reg.GLB_BRINGUP_STATUS_RAMP_DONE = 1 ∧ t.acq.fgDue = some d.fn ∧ t.pw.ramp = [])
      ∧ t = { d with regs := t.regs, acq := t.acq, pw := t.pw } := by
  obtain ⟨hwork, hregs, hramp⟩ := leaveRamp_spec d n
  have hset : RegsKeepAll [(Reg.PWR_CH_STATE n).key] (d.leaveRamp n) ((d.leaveRamp n).setCh n st) := regsKeepAll_set _ _ _
  have hstate := chState_setCh (d.leaveRamp n) n hst
  have hchan (m : Nat) : ((d.leaveRamp n).setCh n st).chan m = d.chan m := by
    show (d.leaveRamp n).chan m = d.chan m
    rw [hwork]
    rfl
  have hfilled (m : Nat) : (Reg.PWR_CH_STATE m).key ∉ [(Reg.CH_TRG_STATUS_FILLED n).key]
      ∧ (Reg.PWR_CH_STATE m).key ∉ [Reg.GLB_BRINGUP_STATUS_RAMP_DONE.key] := by
    simp only [Fld.key, Reg.PWR_CH_STATE, Reg.CH_TRG_STATUS_FILLED, Reg.GLB_BRINGUP_STATUS_RAMP_DONE, List.mem_singleton]; omega
  have hdone : Reg.GLB_BRINGUP_STATUS_RAMP_DONE.key ∉ [(Reg.PWR_CH_STATE n).key]
      ∧ Reg.GLB_BRINGUP_STATUS_RAMP_DONE.key ∉ [(Reg.CH_TRG_STATUS_FILLED n).key] := by
    simp only [Fld.key, Reg.PWR_CH_STATE, Reg.CH_TRG_STATUS_FILLED, Reg.GLB_BRINGUP_STATUS_RAMP_DONE, List.mem_singleton]; omega
  refine ⟨(h.regs _ (hfilled n).1).trans hstate, fun m hm => ⟨(h.others m hm).trans (hchan m), ?_⟩, fun hlast => ?_, ?_⟩
  · exact (h.regs _ (hfilled m).1).trans ((hset _ (by simpa using PWR_CH_STATE_ne hm)).trans (hregs _ (hfilled m).2))
  · obtain ⟨hget, hdue, hnil⟩ := hramp hlast
    exact ⟨(h.regs _ hdone.2).trans ((hset _ hdone.1).trans hget), h.fgDue.trans hdue, h.ramp.trans hnil⟩
  · rw [h.work, Dev.setCh, Dev.set, hwork]

theorem chanInService_enabled {d : Dev} {n : Nat} (hrole : (d.leaveRamp n).role = .frontEnd) (hen : (d.leaveRamp n).chEn n = true) :
    ∃ b : Bool, d.chanInService n = if b then (((d.leaveRamp n).setCh n 2).startChan n).resumeRecords.updChan n fun c =>
      { c with fgDue := some ((d.leaveRamp n).setCh n 2).fn } else (((d.leaveRamp n).setCh n 2).startChan n).resumeRecords := by
  unfold Dev.chanInService
  dsimp only
  rw [hrole, hen, if_pos (by decide)]
  exact ⟨_, rfl⟩

theorem chanInService_other {d : Dev} {n : Nat} (h : ¬ ((d.leaveRamp n).role = .frontEnd ∧ (d.leaveRamp n).chEn n = true)) :
    d.chanInService n = (d.leaveRamp n).setCh n 5 := by
  refine if_neg ?_
  simpa using h

theorem exec_domainInService {c : Nat} (hc : c < 60) (s : State) : exec (.domainInService c) s = .next { s with dev := s.dev.inService c } :=
  onUnit_of_lt hc _ s

theorem inService_of_waiting {d : Dev} {c : Nat} (h : d.poweredFor c 20 = false) : d.inService c = d := by
  rw [Dev.inService, h, Bool.not_false, Bool.or_true, if_pos rfl]

theorem inService_channel {d : Dev} {n : Nat} (hn : n < 48) (hup : d.up = true) (hlong : d.poweredFor n 20 = true) (hst : d.chState n = 1) :
    d.inService n = d.chanInService n := by
  rw [Dev.inService, hup, hlong, if_neg (by decide), if_pos hn, if_pos hst]

theorem inService_quad {d : Dev} {q : Nat} (hup : d.up = true) (hlong : d.poweredFor (48 + q) 20 = true) (hst : d.get (Reg.PWR_DOM_LQ q) = 1) :
    d.inService (48 + q) = d.quadInService q := by
  have hq : 48 + q - 48 = q := by omega
  rw [Dev.inService, hup, hlong, if_neg (by decide), if_neg (by omega), hq, if_pos hst]

/-- A channel whose 20 frames are over is ON and acquires, or lends; nothing else of power, records or time changes. -/
theorem chanInService_spec {d : Dev} {n : Nat} (hn : n < 48) :
    (let t := d.chanInService n
     t.chState n = (if d.role = .frontEnd ∧ d.chEn n = true then 2 else 5)
      ∧ (d.role = .frontEnd → d.chEn n = true → (t.chan n).acquiring = true)
      ∧ (∀ m, m ≠ n → t.chan m = d.chan m ∧ t.chState m = d.chState m)
      ∧ (d.pw.ramp = [n] → t.get Reg.GLB_BRINGUP_STATUS_RAMP_DONE = 1 ∧ t.acq.fgDue = some d.fn ∧ t.pw.ramp = [])
      ∧ t = { d with regs := t.regs, acq := t.acq, pw := t.pw }) := by
  obtain ⟨hwork, hregs, -⟩ := leaveRamp_spec d n
  have hrole : (d.leaveRamp n).role = d.role := SameRole.role (.of_regsKeep (regsKeep_of_regsKeepAll hregs) (by decide))
  have hen : (d.leaveRamp n).chEn n = d.chEn n := by
    rw [Dev.chEn, Dev.effB, eff_eq_of_force (e := d.leaveRamp n) (d := d) rfl (by rw [hwork])]
    rfl
  by_cases h : d.role = .frontEnd ∧ d.chEn n = true
  · obtain ⟨b, ht⟩ := chanInService_enabled (hrole.trans h.1) (hen.trans h.2)
    obtain ⟨hstart, hacq⟩ := startsInService_spec ((d.leaveRamp n).setCh n 2) n (b := b)
    rw [ht, if_pos h]
    obtain ⟨hstate, hothers, hlast, hframe⟩ := chanInService_of_start hn (by decide) hstart
    exact ⟨hstate, fun _ _ => hacq, hothers, hlast, hframe⟩
  · rw [chanInService_other (by rwa [hrole, hen]), if_neg h]
    obtain ⟨hstate, hothers, hlast, hframe⟩ := chanInService_of_start hn (by decide) (.refl n ((d.leaveRamp n).setCh n 5))
    exact ⟨hstate, fun hr he => absurd ⟨hr, he⟩ h, hothers, hlast, hframe⟩

/-! ### A lane quad enters service (R357, R479) -/

theorem toEventRing_lanes (d : Dev) (r : Nat) (ws : List Nat) : (d.toEventRing r ws).lanes = d.lanes :=
  iteInduction (motive := fun t : Dev => t.lanes = d.lanes)
    (fun _ => iteInduction (motive := fun t : Dev => t.lanes = d.lanes) (fun _ => rfl) fun _ => rfl) fun _ => rfl

theorem postUp_lanes (d : Dev) (m : Msg) : (d.postUp m).lanes = d.lanes := by
  unfold Dev.postUp
  split
  · rfl
  · split <;> rfl

/-- An event goes into a ring or into this device's own queue, never into a lane's. -/
theorem raise_lanes (d : Dev) (cls code : Nat) (data : List Nat) : (d.raise cls code data).lanes = d.lanes := by
  unfold Dev.raise
  split
  · exact toEventRing_lanes d _ _
  · rfl
  · exact postUp_lanes _ _

/-- What the starts of the lanes `ls` of a powered quad change: the states of these lanes, and what an event may. -/
structure LaneStarts (ls : List Nat) (d t : Dev) : Prop where
  work : t = talked d t
  regs : RegsKeep (ls.map fun l => (Reg.LN_STATUS_LSTATE l).key) d t
  others : ∀ l, l ∉ ls → t.lane l = d.lane l
  awake : ∀ l, d.lstate l ≠ 0 → t.lstate l ≠ 0

theorem LaneStarts.refl (ls : List Nat) (d : Dev) : LaneStarts ls d d := ⟨rfl, fun _ _ _ => rfl, fun _ _ => rfl, fun _ h => h⟩

theorem LaneStarts.trans {ls : List Nat} {a b c : Dev} (h : LaneStarts ls a b) (k : LaneStarts ls b c) : LaneStarts ls a c where
  work := by
    rw [k.work, h.work]
    rfl
  regs := regsKeep_trans h.regs k.regs
  others l hl := (k.others l hl).trans (h.others l hl)
  awake l hl := k.awake l (h.awake l hl)

theorem LN_STATUS_LSTATE_ne {l m : Nat} (h : m ≠ l) : (Reg.LN_STATUS_LSTATE m).key ≠ (Reg.LN_STATUS_LSTATE l).key := by
  simp only [Fld.key, Reg.LN_STATUS_LSTATE]; omega

theorem lstate_notTalk (l : Nat) : ¬ countsTalk (Reg.LN_STATUS_LSTATE l).key := by
  rintro ((h | h | h) | ⟨m, -, h | h | h⟩) <;>
    simp only [Fld.key, Reg.LN_STATUS_LSTATE, Reg.HR_DROP_STATS_EVT_DROPPED, Reg.EGR_POOL_FREE_PAGES, Reg.EGR_POOL_LOW_WATER, Reg.LN_MG_STATS_DROPPED,
      Reg.LN_MG_STATS_BUSY, Reg.LN_MG_STATS_REFUSED] at h <;>
    omega

/-- An enabled dark lane of a quad in service. -/
def Dev.wakes (d : Dev) (l : Nat) : Bool := d.role.usesLane l && d.effB (Reg.LN_CTRL_ENABLE l) && d.lstate l == 0

/-- What the entry of its quad does to a lane. -/
def Dev.wake (d : Dev) (l : Nat) : Dev := if d.wakes l then d.laneStep l else d

/-- A lane enters BLIND (R357), and an event tells it. -/
def Dev.enterBlind (d : Dev) (l : Nat) : Dev :=
  (d.updLane l fun x => { x with sinceFn := d.fn, toDark := false, idleNext := false }).setLstate l 1

theorem laneStep_of_wakes {d : Dev} {l : Nat} (hw : d.wakes l = true) (hq : d.lqOn (l / 4) = true) : d.laneStep l = d.enterBlind l := by
  obtain ⟨⟨hu, hen⟩, hdark⟩ : (d.role.usesLane l = true ∧ d.effB (Reg.LN_CTRL_ENABLE l) = true) ∧ d.lstate l = 0 := by
    simpa [Dev.wakes] using hw
  unfold Dev.laneStep
  dsimp only
  rw [hu, hen, hdark, hq, if_neg (by decide), if_neg (by decide), if_neg (by decide), if_pos rfl]
  rfl

theorem enterBlind_eq {d : Dev} {l : Nat} (h : d.lstate l = 0) : ∃ e : Dev, d.enterBlind l = (e.set (Reg.LN_STATUS_LSTATE l) 1).raise 8 1 [l, 1]
    ∧ e = { d with lanes := e.lanes } ∧ ∀ m, m ≠ l → e.lane m = d.lane m := by
  refine ⟨d.updLane l fun x => { x with sinceFn := d.fn, toDark := false, idleNext := false }, ?_, rfl, fun m hm => getT_putT_ne _ hm _ _⟩
  have hold : (d.updLane l fun x => { x with sinceFn := d.fn, toDark := false, idleNext := false }).lstate l = 0 := h
  rw [Dev.enterBlind, Dev.setLstate]
  rw [hold, if_neg (by decide), if_neg (by decide), if_neg (by decide)]

theorem enterBlind_spec {ls : List Nat} {d : Dev} {l : Nat} (hl : l ∈ ls) (h : d.lstate l = 0) :
    LaneStarts ls d (d.enterBlind l) ∧ (d.enterBlind l).lstate l ≠ 0 := by
  obtain ⟨e, ht, hwork, hothers⟩ := enterBlind_eq h
  have hlanes := raise_lanes (e.set (Reg.LN_STATUS_LSTATE l) 1) 8 1 [l, 1]
  have htalk := raise_talks (e.set (Reg.LN_STATUS_LSTATE l) 1) 8 1 [l, 1]
  rw [← ht] at hlanes htalk
  have hset : RegsKeepAll [(Reg.LN_STATUS_LSTATE l).key] d (e.set (Reg.LN_STATUS_LSTATE l) 1) := fun f hf => by
    rw [regsKeepAll_set e _ 1 f hf, hwork]
    rfl
  have hone : (d.enterBlind l).lstate l = 1 :=
    (htalk.2 _ List.not_mem_nil (lstate_notTalk l)).trans (Dev.get_set_same e (Reg.LN_STATUS_LSTATE l) 1)
  refine ⟨⟨?_, ?_, fun m hm => ?_, fun m hm => ?_⟩, by rw [hone]; decide⟩
  · rw [htalk.1, Dev.set, hwork]
    rfl
  · exact regsKeep_trans (regsKeep_of_regsKeepAll (regsKeepAll_mono hset (by simpa using ⟨l, hl, rfl⟩))) (htalk.keep _)
  · rw [Dev.lane, hlanes]
    exact hothers m fun he => hm (he ▸ hl)
  · by_cases he : m = l
    · rw [he, hone]
      decide
    · rw [show (d.enterBlind l).lstate m = d.lstate m from
        (htalk.2 _ List.not_mem_nil (lstate_notTalk m)).trans (hset _ (by simpa using LN_STATUS_LSTATE_ne he))]
      exact hm

theorem wake_spec {ls : List Nat} {d : Dev} {l : Nat} (hl : l ∈ ls) (hq : d.lqOn (l / 4) = true) :
    LaneStarts ls d (d.wake l) ∧ (d.wakes l = true → (d.wake l).lstate l ≠ 0) := by
  unfold Dev.wake
  split
  next hw =>
    obtain ⟨-, hdark⟩ : _ ∧ d.lstate l = 0 := by simpa [Dev.wakes] using hw
    rw [laneStep_of_wakes hw hq]
    exact ⟨(enterBlind_spec hl hdark).1, fun _ => (enterBlind_spec hl hdark).2⟩
  next hw => exact ⟨.refl ls d, fun h => absurd h hw⟩

theorem LaneStarts.lq {ls : List Nat} {d t : Dev} (h : LaneStarts ls d t) {q : Nat} (hq : q < 12) :
    t.get (Reg.PWR_DOM_LQ q) = d.get (Reg.PWR_DOM_LQ q) := by
  have hkey : (Reg.PWR_DOM_LQ q).key ∉ ls.map fun l => (Reg.LN_STATUS_LSTATE l).key := by
    simp only [Fld.key, Reg.PWR_DOM_LQ, Reg.LN_STATUS_LSTATE, List.mem_map, not_exists, not_and]
    intro l _
    omega
  have htalk : ¬ countsTalk (Reg.PWR_DOM_LQ q).key := by
    refine notTalk (.inr ?_) ⟨?_, ?_, ?_⟩ <;>
      simp only [Fld.key, Reg.PWR_DOM_LQ, Reg.HR_DROP_STATS_EVT_DROPPED, Reg.EGR_POOL_FREE_PAGES, Reg.EGR_POOL_LOW_WATER] <;> omega
  exact h.regs _ hkey htalk

theorem LaneStarts.wakes {ls : List Nat} {d t : Dev} (h : LaneStarts ls d t) {l : Nat} (hdark : t.lstate l = 0) (hw : d.wakes l = true) :
    t.wakes l = true := by
  have hrole : t.role = d.role := by
    refine SameRole.role (.of_regsKeep h.regs ?_)
    simp only [Fld.key, Reg.GLB_ROLE_STATUS_ACTIVE_ROLE, Reg.LN_STATUS_LSTATE, List.mem_map, not_exists, not_and]
    intro l _
    omega
  have hen : t.effB (Reg.LN_CTRL_ENABLE l) = d.effB (Reg.LN_CTRL_ENABLE l) := by
    rw [Dev.effB, eff_eq_of_force (d := d) rfl (by rw [h.work]; rfl), Dev.effB]
  obtain ⟨⟨hu, he⟩, -⟩ : (d.role.usesLane l = true ∧ d.effB (Reg.LN_CTRL_ENABLE l) = true) ∧ d.lstate l = 0 := by
    simpa [Dev.wakes] using hw
  rw [Dev.wakes, hrole, hen, hu, he, hdark]
  rfl

/-- The lanes of the quad enter in turn: none that is to wake stays dark. -/
theorem wakes_spec {ls ms : List Nat} {q : Nat} (hq : q < 12) (hms : ∀ l ∈ ms, l ∈ ls ∧ l / 4 = q) (d : Dev) (hon : d.get (Reg.PWR_DOM_LQ q) = 2) :
    (let t := ms.foldl Dev.wake d
     LaneStarts ls d t ∧ ∀ l ∈ ms, d.wakes l = true → t.lstate l ≠ 0) := by
  induction ms generalizing d with
  | nil => exact ⟨.refl ls d, fun _ h => absurd h List.not_mem_nil⟩
  | cons k ms ih =>
    obtain ⟨hk, hkq⟩ := hms k (.head _)
    obtain ⟨hstep, hawake⟩ := wake_spec hk (show d.lqOn (k / 4) = true by rw [Dev.lqOn, hkq, hon]; rfl)
    obtain ⟨hrest, hall⟩ := ih (fun l hl => hms l (.tail _ hl)) (d.wake k) ((hstep.lq hq).trans hon)
    refine ⟨hstep.trans hrest, fun l hl hw => ?_⟩
    rcases List.mem_cons.1 hl with rfl | hl
    · exact hrest.awake _ (hawake hw)
    · by_cases hdark : (d.wake k).lstate l = 0
      · exact hall l hl (hstep.wakes hdark hw)
      · exact hrest.awake l hdark

theorem mem_quad (q l : Nat) : l ∈ rangeFrom (4 * q) (4 * q + 4) ↔ l / 4 = q := by
  simp only [rangeFrom, List.mem_map, List.mem_range]
  constructor
  · rintro ⟨k, hk, rfl⟩
    omega
  · intro h
    exact ⟨l - 4 * q, by omega, by omega⟩

theorem quadInService_eq (d : Dev) (q : Nat) :
    d.quadInService q = (rangeFrom (4 * q) (4 * q + 4)).foldl Dev.wake (d.set (Reg.PWR_DOM_LQ q) 2) := rfl

/-- A quad whose 20 frames are over is on, and its enabled dark lanes leave DARK. -/
theorem quadInService_spec {d : Dev} {q : Nat} (hq : q < 12) :
    (let t := d.quadInService q
     t.get (Reg.PWR_DOM_LQ q) = 2
      ∧ (∀ l, l / 4 = q → d.role.usesLane l = true → d.effB (Reg.LN_CTRL_ENABLE l) = true → d.lstate l = 0 → t.lstate l ≠ 0)
      ∧ (∀ l, l / 4 ≠ q → t.lane l = d.lane l ∧ t.lstate l = d.lstate l) ∧ t = talked d t) := by
  have hon : (d.set (Reg.PWR_DOM_LQ q) 2).get (Reg.PWR_DOM_LQ q) = 2 := Dev.get_set_same d (Reg.PWR_DOM_LQ q) 2
  obtain ⟨hsteps, hawake⟩ := wakes_spec (ls := rangeFrom (4 * q) (4 * q + 4)) hq (fun l hl => ⟨hl, (mem_quad q l).1 hl⟩) _ hon
  rw [← quadInService_eq] at hsteps hawake
  have hne (l : Nat) : (Reg.LN_STATUS_LSTATE l).key ≠ (Reg.PWR_DOM_LQ q).key := by
    simp only [Fld.key, Reg.PWR_DOM_LQ, Reg.LN_STATUS_LSTATE]; omega
  have hlstate (l : Nat) : (d.set (Reg.PWR_DOM_LQ q) 2).lstate l = d.lstate l := Dev.get_set_ne d (hne l) 2
  refine ⟨(hsteps.lq hq).trans hon, fun l hl hu hen hdark => hawake l ((mem_quad q l).2 hl) ?_, fun l hl => ⟨?_, ?_⟩, ?_⟩
  · have hrole : (d.set (Reg.PWR_DOM_LQ q) 2).role = d.role := role_set (by
      simp only [Fld.key, Reg.GLB_ROLE_STATUS_ACTIVE_ROLE, Reg.PWR_DOM_LQ]; omega)
    rw [Dev.wakes, hrole, hlstate, hu, hdark, show (d.set (Reg.PWR_DOM_LQ q) 2).effB (Reg.LN_CTRL_ENABLE l) = true from hen]
    rfl
  · exact hsteps.others l fun h => hl ((mem_quad q l).1 h)
  · refine (hsteps.regs _ ?_ (lstate_notTalk l)).trans (hlstate l)
    simp only [List.mem_map, not_exists, not_and]
    exact fun m hm h => LN_STATUS_LSTATE_ne (fun e : m = l => hl ((mem_quad q l).1 (e ▸ hm))) h
  · rw [hsteps.work]
    rfl

/-! ### A memory domain enters service (R480), and the write of MD_EN (R485) -/

theorem getT_foldl_putT (x : Nat) (v k : Nat) (bs : List Nat) (t : List (Nat × Nat)) :
    getT x k (bs.foldl (fun l b => putT b v l) t) = if k ∈ bs then v else getT x k t := by
  induction bs generalizing t with
  | nil => simp
  | cons b bs ih =>
    rw [List.foldl_cons, ih, getT_putT]
    by_cases hbs : k ∈ bs
    · simp [hbs]
    · simp [hbs]

theorem exec_memoryInitDone {m : Nat} (hm : m < 4) {s : State} (hup : s.dev.up = true) (hlong : s.dev.poweredFor (60 + m) 283 = true)
    (hst : s.dev.get (Reg.PWR_DOM_MD m) = 1 ∨ s.dev.get (Reg.PWR_DOM_MD m) = 2) :
    exec (.memoryInitDone m) s = .next { s with
      ecc := s.ecc.filter fun p => !(decide (m * 524288 ≤ p.1) && decide (p.1 < m * 524288 + 524288))
      dev := Dev.set { s.dev with flt := { s.dev.flt with
          scrub := s.dev.flt.scrub.filter fun p => p.1 / 4 != m
          laps := s.dev.flt.laps.filter fun p => p.1 / 4 != m
          lapFrom := (rangeFrom (4 * m) (4 * m + 4)).foldl (fun l b => putT b s.dev.pw.frames l) s.dev.flt.lapFrom } } (Reg.PWR_DOM_MD m) 3 } := by
  have hcond : (s.dev.up && s.dev.poweredFor (60 + m) 283 && (s.dev.get (Reg.PWR_DOM_MD m) == 1 || s.dev.get (Reg.PWR_DOM_MD m) == 2)) = true := by
    simpa [hup, hlong] using hst
  show (if m < 4 then onEcc (memoryInit m) s else .fault .noSuchUnit) = _
  rw [if_pos hm, onEcc, memoryInit, if_pos hcond]

theorem fieldsAt_memCtrl : fieldsAt 0xA010 = [Reg.PWR_MEM_CTRL_MD_EN, Reg.PWR_MEM_CTRL_RESULT] := by decide +kernel

theorem memCtrl_plainWrite (d : Dev) (src : Source) (w : Nat) :
    d.plainWrite src 0xA010 w = (d.set Reg.PWR_MEM_CTRL_MD_EN (bits w 0 4)).enqueue (.reg src 0xA010 (w32 w)) := by
  rw [plainWrite_of_sync (by decide +kernel), fieldsAt_memCtrl]
  rfl

/-- Settles O35: each entry into service by what it sets, and by what the starts behind it leave. -/
theorem domainsEnterService : Obligations.DomainsEnterService := by
  refine ⟨fun c s hc hwait => ?_, fun n s hn hup hlong hst => ?_, fun q s hq hup hlong hst => ?_, fun m s hm hup hlong hst => ?_, fun src v s hp => ?_⟩
  · rw [exec_domainInService hc, inService_of_waiting hwait]
  · obtain ⟨hstate, hacq, hothers, hlast, hframe⟩ := chanInService_spec (d := s.dev) hn
    rw [← inService_channel hn hup hlong hst] at hstate hacq hothers hlast hframe
    refine ⟨_, exec_domainInService (by omega) s, hstate, hacq, hothers, hlast, ?_⟩
    dsimp only
    rw [hframe]
    exact ⟨rfl, rfl, rfl, rfl, rfl, rfl, rfl⟩
  · obtain ⟨hon, hawake, hothers, hframe⟩ := quadInService_spec (d := s.dev) hq
    rw [← inService_quad hup hlong hst] at hon hawake hothers hframe
    refine ⟨_, exec_domainInService (by omega) s, hon, hawake, hothers, ?_⟩
    dsimp only
    rw [hframe]
    exact ⟨rfl, rfl, rfl, rfl, rfl, rfl⟩
  · refine ⟨_, exec_memoryInitDone hm hup hlong hst, ?_, ?_, rfl, rfl, fun b hb => ⟨?_, ?_⟩, fun b hb => ?_, regsKeepAll_set _ _ _⟩
    · rw [Dev.mdOn]
      rcases hst with h | h <;> rw [h] <;> rfl
    · exact congrArg (· == 3) (Dev.get_set_same _ (Reg.PWR_DOM_MD m) 3)
    · exact getT_filter_of_neg _ (fun _ => by simp [hb]) _
    · refine (getT_foldl_putT ..).trans (if_pos ((mem_quad m b).2 hb))
    · exact (getT_foldl_putT ..).trans (if_neg (mt (mem_quad m b).1 hb))
  · have hexec : exec (.pwrMemCtrlWrite src v) s = .next { s with dev := s.dev.plainWrite src 0xA010 v.toNat } := by
      show onDev (fun d => d.gated src 0xA010 fun d => d.plainWrite src 0xA010 v.toNat) s = _
      rw [onDev, gated_of_passes hp]
    refine ⟨_, hexec, ?_⟩
    rw [memCtrl_plainWrite, w32_toNat]
    refine ⟨(Dev.get_set_same s.dev _ _).trans ?_, rfl, rfl, rfl, regsKeepAll_set s.dev _ _⟩
    show v.toNat / 2 ^ 0 % 2 ^ 4 % 2 ^ 4 = _
    omega

end Sys2Proof.Machine
end

section
/-! PROOF. RELEASE as its row, and a clock state wider than its field; O46 refuted. -/
namespace Sys2Proof.Machine
open Sys2Proof.Safety

theorem of_answers_next {c : Instr} {s t : State} {P : State → Prop} (hc : exec c s = .next t) (h : Answers c s P) : P t := by
  obtain ⟨u, hu, hP⟩ := h
  obtain rfl : t = u := by simpa [hc] using hu
  exact hP

theorem exec_release {c : Cmd} {s : State} (hup : s.dev.up = true) (hsrc : s.dev.hasSource c = true) (hden : s.dev.denial (cmdWithOp c 16) = none)
    (hbad : cmdBad (cmdWithOp c 16) = false) : exec (.release c) s = .next { s with dev := s.dev.cmdRelease (cmdWithOp c 16) 0 } := by
  have hsrc' : s.dev.hasSource (cmdWithOp c 16) = true := hsrc
  show onEcc (cmdRow (cmdWithOp c 16) fun x => (x.1, x.2.cmdRelease (cmdWithOp c 16) 0)) s = _
  rw [onEcc, cmdRow_of_taken hup hsrc' hden hbad]

/-- A front-end in cold hold whose clock state reads 2^32, more than any register word holds. The statement bounds no register. -/
def heldWithWideClock : State :=
  { State.reset with
    dev := { State.reset.dev with
      boot := .running
      regs := [(Reg.GLB_ROLE_STATUS_ACTIVE_ROLE.key, 0), (Reg.TIM_STATUS_CLK_STATE.key, 2 ^ 32), (Reg.PWR_THERM_STATUS_STATE.key, 4)]
      pw := { State.reset.dev.pw with trip := some ⟨0, 2, 0, 0⟩ } } }

/-- A RELEASE among the headgate actions (W0[11]), from the upward lane, with key 0. -/
def headgateRelease : Cmd :=
  { src := .upLane, port := 0, origin := 1, ring := 0, seq := 0, w := [0x810#32, 0#32, 0#32, 0#32, 0#32, 0#32, 0#32, 0#32] }

theorem headgateRelease_taken : heldWithWideClock.dev.hasSource headgateRelease = true
    ∧ heldWithWideClock.dev.denial (cmdWithOp headgateRelease 16) = none ∧ cmdBad (cmdWithOp headgateRelease 16) = false := by decide +kernel

theorem heldWithWideClock_releases : heldWithWideClock.dev.thermState = 4 ∧ heldWithWideClock.dev.tj < 1440
    ∧ heldWithWideClock.dev.mg.ownQ.length + 1 < heldWithWideClock.dev.upQueue ∧ cmdWd headgateRelease 4 = 0 % 2 ^ 32 := by decide +kernel

theorem heldWithWideClock_claim : (if bitOf (cmdWd headgateRelease 0) 11 then heldWithWideClock.dev.clkState else 0) = 2 ^ 32 := by decide +kernel

/-- The last word of each message that the release sends: words have 32 bits. -/
theorem heldWithWideClock_words : (heldWithWideClock.dev.cmdRelease (cmdWithOp headgateRelease 16) 0).mg.ownQ.map
    (fun m => (natsOf m.body).drop 7) = [[0], [0]] := by decide +kernel

/-- Refutes O46: the reply to a RELEASE is said to end in the clock state as the register reads it, whatever the state, but a register that
reads more than a word is cut to 32 bits on its way into the reply. -/
theorem not_releaseAttestAndAssign : ¬ Obligations.ReleaseAttestAndAssign := by
  rintro ⟨hrelease, -⟩
  obtain ⟨hsrc, hden, hbad⟩ := headgateRelease_taken
  obtain ⟨hhold, hcool, hroom, hkey⟩ := heldWithWideClock_releases
  obtain ⟨-, -, -, -, hsent, -⟩ := of_answers_next (exec_release rfl hsrc hden hbad)
    (hrelease headgateRelease ⟨0, 2, 0, 0⟩ heldWithWideClock rfl hsrc hden hbad rfl hhold hkey hcool)
  have hlast := congrArg (List.map fun p => p.2.drop 3) (hsent rfl hroom)
  rw [heldWithWideClock_claim, List.map_append, List.map_map] at hlast
  exact absurd (heldWithWideClock_words.symm.trans ((List.map_congr_left fun m _ => by simp).trans hlast)) (by decide)

end Sys2Proof.Machine
end

section
/-! PROOF. BAR0, the configuration space and SPI frames reach what their paths say; O56 from them. -/
namespace Sys2Proof.Machine
open Sys2Proof.Safety

/-! ### A read by any path (R547) -/

theorem softRead_at {a : Nat} (h : wholeAddr a ∉ readActs) (ecc : List (Nat × Nat)) (d : Dev) :
    softRead ecc d a = (d.seenWord (wholeAddr a), ecc, d) := by
  show ((readEffect ecc d (wholeAddr a)).2.seenWord (wholeAddr a), readEffect ecc d (wholeAddr a)) = _
  rw [readEffect_of_quiet h]

theorem wholeAddr_of_lt {a : Nat} (h : a < 65536) : wholeAddr a = a / 4 * 4 := by
  rw [wholeAddr]; omega

theorem seenWord_of_settled {d : Dev} (h : d.pw.shown = []) (a : Nat) : d.seenWord a = d.regWord a := by
  rw [Dev.seenWord, h]
  rfl

/-! ### BAR0 (R555, R556) -/

theorem exec_bar0Access (r : BarReq) (s : State) : exec (.bar0Access r) s = onEcc (bar0Access s.fuses r) s := rfl

section
variable {d : Dev} (hup : d.up = true) (hrole : d.role = .hub) (hlink : d.linkUp = true)
include hup hrole hlink

theorem bar0_refused {r : BarReq} (hbad : barOk r = false) (f : Fuses) (ecc : List (Nat × Nat)) : bar0Access f r ecc d = (ecc, d.emit .barUr) := by
  unfold bar0Access
  rw [hup, hrole, hlink, hbad]
  rfl

theorem bar0_write {r : BarReq} {v : Word} (hok : barOk r = true) (hone : r.dws = 1) (hv : r.data = some [v]) (f : Fuses) (ecc : List (Nat × Nat)) :
    bar0Access f r ecc d = (ecc, barWrite f r.offset d v.toNat) := by
  unfold bar0Access
  rw [hup, hrole, hlink, hok, hv, hone]
  rfl

theorem bar0_read {r : BarReq} (hok : barOk r = true) (hone : r.dws = 1) (hnone : r.data = none) (f : Fuses) (ecc : List (Nat × Nat)) :
    bar0Access f r ecc d = ((barRead ecc d r.offset).2.1, (barRead ecc d r.offset).2.2.emit (.barData [w32 (barRead ecc d r.offset).1])) := by
  unfold bar0Access
  rw [hup, hrole, hlink, hok, hnone, hone]
  rfl

end

theorem bar0_unserved {d : Dev} (h : ¬ (d.up = true ∧ d.role = .hub ∧ d.linkUp = true)) (f : Fuses) (r : BarReq) (ecc : List (Nat × Nat)) :
    bar0Access f r ecc d = (ecc, d) := by
  refine if_pos ?_
  by_contra hserved
  exact h (by simpa [and_assoc] using hserved)

theorem barOk_register {r : BarReq} (h : r.offset < 0x10000) : barOk r = (r.dws == 1 && r.allBe) := if_pos h

theorem msixPlace_table {k : Nat} (h : k < 256) : msixPlace (0x10000 + 4 * k) = some k := by
  rw [msixPlace, if_pos (by omega)]
  congr 1
  omega

theorem barOk_table {k : Nat} (h : k < 256) (data : Option (List Word)) : barOk ⟨0x10000 + 4 * k, 1, true, data⟩ = true := by
  rw [barOk, if_neg (by dsimp only; omega), msixPlace_table h]
  rfl

theorem barWrite_table {k : Nat} (h : k < 256) (f : Fuses) (d : Dev) (w : Nat) : barWrite f (0x10000 + 4 * k) d w = d.setMsix k w := by
  rw [barWrite, if_neg (by omega), msixPlace_table h]
  exact if_pos h

theorem barRead_table {k : Nat} (h : k < 256) (ecc : List (Nat × Nat)) (d : Dev) : barRead ecc d (0x10000 + 4 * k) = (d.msixWord k, ecc, d) := by
  rw [barRead, if_neg (by omega), msixPlace_table h]

/-! ### Configuration requests (R301, R522, R557) -/

theorem cfgReady_of_late {d : Dev} (hup : d.up = true) (hrole : d.role = .hub) (hperst : d.pins.perst = false) (h : d.pins.perstFn + 30000 ≤ d.pw.frames) :
    d.cfgReady = true := by
  rw [Dev.cfgReady, hup, hrole, hperst, decide_eq_true h]
  rfl

theorem exec_configRequest (q : CfgReq) (s : State) : exec (.configRequest q) s = .next { s with dev := s.dev.configRequest q } := rfl

section
variable {d : Dev} (hup : d.up = true) (hrole : d.role = .hub) (htrained : d.hr.trained = true) (hperst : d.pins.perst = false)
include hup hrole htrained hperst

theorem configRequest_early (h : d.pw.frames < d.pins.perstFn + 30000) (q : CfgReq) : d.configRequest q = d.emit .cfgRetry := by
  have hready : d.cfgReady = false := by
    rw [Dev.cfgReady, decide_eq_false (by omega), Bool.and_false]
  unfold Dev.configRequest
  rw [hup, hrole, htrained, hperst, hready]
  rfl

theorem configRequest_read (h : d.pins.perstFn + 30000 ≤ d.pw.frames) (a : Nat) :
    d.configRequest (.read a) = if (d.cfgFixed a).2 = 2 ^ 32 - 1 then d.emit (.cfgData (w32 (d.cfgFixed a).1))
      else d.draw.2.emit (.cfgData (w32 (((d.cfgFixed a).1 &&& (d.cfgFixed a).2) ||| (d.draw.1 % 2 ^ 32 &&& (2 ^ 32 - 1 - (d.cfgFixed a).2))))) := by
  unfold Dev.configRequest
  rw [hup, hrole, htrained, hperst, cfgReady_of_late hup hrole hperst h]
  rfl

theorem configRequest_cap (h : d.pins.perstFn + 30000 ≤ d.pw.frames) (c : CfgCap) :
    d.configRequest (.cap c) = d.emit (.cfgData (w32 (d.cfgCap c))) := by
  unfold Dev.configRequest
  rw [hup, hrole, htrained, hperst, cfgReady_of_late hup hrole hperst h]
  rfl

theorem configRequest_write (h : d.pins.perstFn + 30000 ≤ d.pw.frames) {q : CfgReq} (hread : ∀ a, q ≠ .read a) (hcap : ∀ c, q ≠ .cap c) :
    d.configRequest q = (d.cfgWrite q).emit .cfgDone := by
  unfold Dev.configRequest
  rw [hup, hrole, htrained, hperst, cfgReady_of_late hup hrole hperst h]
  cases q with
  | read a => exact absurd rfl (hread a)
  | cap c => exact absurd rfl (hcap c)
  | deviceControl p r => rfl
  | bar0 high v => rfl
  | msix e m => rfl
  | powerD0 => rfl

end

/-- The offsets whose word the manual gives in full. -/
theorem cfgFixed_open {d : Dev} {a : Nat} (h : a / 4 ∉ [0, 2, 4, 5, 6, 7, 8, 9, 11, 12]) : (d.cfgFixed a).2 ≠ 2 ^ 32 - 1 := by
  unfold Dev.cfgFixed
  dsimp only
  generalize a / 4 = k at h
  split
  case h_3 => decide
  case h_12 => decide
  case h_13 => decide
  all_goals exact absurd (by decide) h

theorem cfgWrite_bar0Low (d : Dev) (v : Word) : d.cfgWrite (.bar0 false v)
    = { d with hr := { d.hr with bar0 := d.hr.bar0 / 2 ^ 32 * 2 ^ 32 + v.toNat / 2 ^ 20 * 2 ^ 20 } } := by
  unfold Dev.cfgWrite
  simp only [Bool.false_eq_true, if_false]

theorem cfgWrite_bar0High (d : Dev) (v : Word) : d.cfgWrite (.bar0 true v)
    = { d with hr := { d.hr with bar0 := d.hr.bar0 % 2 ^ 32 + v.toNat * 2 ^ 32 } } := by
  unfold Dev.cfgWrite
  simp only [if_true]

theorem bar0_low (b v : Nat) (hv : v < 2 ^ 32) :
    (b / 2 ^ 32 * 2 ^ 32 + v / 2 ^ 20 * 2 ^ 20) % 2 ^ 32 = v / 2 ^ 20 * 2 ^ 20 ∧ (b / 2 ^ 32 * 2 ^ 32 + v / 2 ^ 20 * 2 ^ 20) / 2 ^ 32 = b / 2 ^ 32 := by
  omega

theorem bar0_high (b v : Nat) : (b % 2 ^ 32 + v * 2 ^ 32) / 2 ^ 32 = v ∧ (b % 2 ^ 32 + v * 2 ^ 32) % 2 ^ 32 = b % 2 ^ 32 := by
  omega

theorem unholdGroup_spec (d : Dev) (g : Nat) :
    ((d.unholdGroup g).xing g).held = false ∧ d.unholdGroup g = { d with cross := (d.unholdGroup g).cross } := by
  unfold Dev.unholdGroup
  split
  next => exact ⟨congrArg Cross.held (Dev.xing_setXing_same d g _), rfl⟩
  next h => exact ⟨by simpa using h, rfl⟩

/-! ### SPI frames (R553, R554) -/

theorem bitOf_succ (n i : Nat) : bitOf n (i + 1) = bitOf (n / 2) i := by
  rw [bitOf, bitOf, Nat.pow_succ, Nat.mul_comm, Nat.div_div_eq_div_mul]

/-- Bits sent most significant first give back the number. -/
theorem bitsToNat_bits (w n : Nat) : bitsToNat ((List.range w).map fun i => bitOf n (w - 1 - i)) = n % 2 ^ w := by
  induction w generalizing n with
  | zero => simp [bitsToNat, Nat.mod_one]
  | succ w ih =>
    have hinit : ((List.range w).map fun i => bitOf n (w + 1 - 1 - i)) = (List.range w).map fun i => bitOf (n / 2) (w - 1 - i) :=
      List.map_congr_left fun i hi => by
        have hlt := List.mem_range.1 hi
        rw [show w + 1 - 1 - i = w - 1 - i + 1 by omega, bitOf_succ]
    have hlast : b2n (bitOf n (w + 1 - 1 - w)) = n % 2 := by
      rw [show w + 1 - 1 - w = 0 by omega, bitOf, Nat.pow_zero, Nat.div_one, b2n]
      rcases Nat.mod_two_eq_zero_or_one n with h | h <;> simp [h]
    rw [List.range_succ, List.map_append, hinit]
    show List.foldl _ _ _ = _
    rw [List.foldl_append]
    show 2 * bitsToNat _ + b2n (bitOf n (w + 1 - 1 - w)) = _
    rw [ih, hlast, Nat.pow_succ, Nat.mul_comm (2 ^ w) 2, Nat.mod_mul]
    omega

theorem bitsToNat_bits32 {n : Nat} (h : n < 2 ^ 32) : bitsToNat (bits32 n) = n :=
  (bitsToNat_bits 32 n).trans (Nat.mod_eq_of_lt h)

theorem length_bits32 (n : Nat) : (bits32 n).length = 32 := by simp [bits32]

theorem flushSpi_spec (d : Dev) :
    ((d.flushGroup 49 false).xing 49).flushes = ((d.xing 49).flushes + 1) % 65536
      ∧ d.flushGroup 49 false = { d with cross := (d.flushGroup 49 false).cross } := by
  have huses : d.usesGroup 49 = true := rfl
  have hflush : d.flushGroup 49 false = d.setXing 49 { d.xing 49 with
      val := (d.xing 49).val.flush, cnt := (d.xing 49).cnt.flush, flushes := ((d.xing 49).flushes + 1) % 65536, held := false } := by
    rw [Dev.flushGroup, huses]
    rfl
  rw [hflush]
  exact ⟨congrArg Cross.flushes (Dev.xing_setXing_same d 49 _), rfl⟩

/-- How a frame ends: its status is kept for the next head word, the crossing is flushed and the answer goes out. -/
theorem spiEnd_spec {d : Dev} {denied short : Bool} (o : Out) :
    (let t := ((d.spiStatus denied short).flushGroup 49 false).emit o
     t.out = o :: d.out ∧ t.pins = { d.pins with spiDenied := denied, spiShort := short } ∧ (t.xing 49).flushes = ((d.xing 49).flushes + 1) % 65536
      ∧ t = { d with out := t.out, pins := t.pins, cross := t.cross }) := by
  obtain ⟨hflushes, hframe⟩ := flushSpi_spec (d.spiStatus denied short)
  generalize (d.spiStatus denied short).flushGroup 49 false = e at hflushes hframe
  generalize e.cross = c at hframe
  subst hframe
  exact ⟨rfl, rfl, hflushes, rfl⟩

theorem exec_spiFrame (mosi : List Bool) (n : Nat) (s : State) : exec (.spiFrame mosi n) s = onEcc (spiFrame s.fuses mosi n) s := rfl

section
variable {d : Dev} (hon : d.boot ≠ .off)
include hon

theorem spiFrame_short {mosi : List Bool} (h : mosi.length < 32) (f : Fuses) (n : Nat) (ecc : List (Nat × Nat)) :
    spiFrame f mosi n ecc d = (ecc, ((d.spiStatus false true).flushGroup 49 false).emit (.miso d.misoHead [])) := by
  rw [spiFrame, if_neg hon]
  dsimp only
  rw [if_pos h]
  rfl

theorem spiFrame_read {a : Nat} (ha : a < 65536) (hquiet : a / 4 * 4 ∉ readActs) (f : Fuses) (ecc : List (Nat × Nat)) :
    spiFrame f (bits32 (2 ^ 31 + a)) 1 ecc d = (ecc, ((d.spiStatus false false).flushGroup 49 false).emit
      (.miso d.misoHead [w32 (if d.spiReads (a / 4 * 4) then d.seenWord (a / 4 * 4) else 0)])) := by
  have hcmd : bitsToNat ((bits32 (2 ^ 31 + a)).take 32) = 2 ^ 31 + a := by
    rw [List.take_of_length_le (length_bits32 _).le, bitsToNat_bits32 (by omega)]
  have hop : (2 ^ 31 + a) / 2 ^ 30 = 2 := by omega
  have haddr : (2 ^ 31 + a) % 65536 = a := by omega
  have hread : spiRead ecc d a = (if d.spiReads (a / 4 * 4) then d.seenWord (a / 4 * 4) else 0, ecc, d) := by
    rw [spiRead, wholeAddr_of_lt ha]
    split
    · rw [softRead_at (by rwa [wholeAddr_of_lt ha]), wholeAddr_of_lt ha]
    · rfl
  rw [spiFrame, if_neg hon]
  dsimp only
  rw [hcmd, hop, haddr, if_neg (by rw [length_bits32]; decide), if_pos rfl, spiReadN, spiReadN]
  dsimp only
  rw [hread]
  rfl

theorem spiFrame_write {a : Nat} (ha : a < 65536) (v : Word) (f : Fuses) (n : Nat) (ecc : List (Nat × Nat)) :
    spiFrame f (bits32 (2 ^ 30 + a) ++ bits32 v.toNat) n ecc d
      = (ecc, ((d.spiWrite f a v.toNat).flushGroup 49 false).emit (.miso d.misoHead [])) := by
  have hcmd : bitsToNat ((bits32 (2 ^ 30 + a) ++ bits32 v.toNat).take 32) = 2 ^ 30 + a := by
    rw [List.take_left' (length_bits32 _), bitsToNat_bits32 (by omega)]
  have hval : bitsToNat (((bits32 (2 ^ 30 + a) ++ bits32 v.toNat).drop 32).take 32) = v.toNat := by
    rw [List.drop_left' (length_bits32 _), List.take_of_length_le (length_bits32 _).le, bitsToNat_bits32 v.isLt]
  have hop : (2 ^ 30 + a) / 2 ^ 30 = 1 := by omega
  have haddr : (2 ^ 30 + a) % 65536 = a := by omega
  have hlen : (bits32 (2 ^ 30 + a) ++ bits32 v.toNat).length = 64 := by
    rw [List.length_append, length_bits32, length_bits32]
  rw [spiFrame, if_neg hon]
  dsimp only
  rw [hcmd, hop, haddr, hval, hlen, if_neg (by decide), if_neg (by decide), if_pos rfl, if_neg (by decide)]
  rfl

end

/-- A whole write frame is the gated write, and the status bits that the next frame shows. -/
theorem spiWrite_eq {a : Nat} (ha : a < 65536) (f : Fuses) (d : Dev) (w : Nat) :
    d.spiWrite f a w = (d.gated .spi (wholeAddr a) fun d => softWrite f d .spi (wholeAddr a) w).spiStatus
      (d.open? .spi (a / 4 * 4) && !d.mayWrite .spi (a / 4 * 4)) false := by
  unfold Dev.spiWrite Dev.gated
  rw [wholeAddr_of_lt ha]
  dsimp only
  cases d.open? .spi (a / 4 * 4) with
  | false => rfl
  | true =>
    cases d.mayWrite .spi (a / 4 * 4) with
    | false => rfl
    | true => rfl

theorem misoHead_spec (d : Dev) :
    d.misoHead.toNat / 2 ^ 24 = 0x5A ∧ bitOf d.misoHead.toNat 22 = d.pins.spiDenied ∧ bitOf d.misoHead.toNat 21 = d.pins.spiShort := by
  have hword : d.misoHead.toNat = 0x5A * 2 ^ 24 + d.get Reg.GLB_ROLE_STATUS_ROLE_FIXED % 2 * 2 ^ 23 + b2n d.pins.spiDenied * 2 ^ 22
      + b2n d.pins.spiShort * 2 ^ 21 := by
    have hbit (b : Bool) : b2n b % 2 ^ 1 = b2n b ∧ b2n b < 2 := by cases b <;> decide
    rw [Dev.misoHead, w32, BitVec.toNat_ofNat, pack_cons, pack_cons, pack_cons, pack_cons, (hbit _).1, (hbit _).1]
    have hden := (hbit d.pins.spiDenied).2
    have hshort := (hbit d.pins.spiShort).2
    have hnil : pack [] = 0 := rfl
    rw [hnil]
    omega
  have hone (b : Bool) : (b2n b == 1) = b := by cases b <;> rfl
  have hlt (b : Bool) : b2n b < 2 := by cases b <;> decide
  have hden := hlt d.pins.spiDenied
  have hshort := hlt d.pins.spiShort
  refine ⟨by omega, ?_, ?_⟩
  · have hbit : d.misoHead.toNat / 2 ^ 22 % 2 = b2n d.pins.spiDenied := by omega
    rw [bitOf, hbit, hone]
  · have hbit : d.misoHead.toNat / 2 ^ 21 % 2 = b2n d.pins.spiShort := by omega
    rw [bitOf, hbit, hone]

theorem cfgFixed_id {d : Dev} {a : Nat} (h : a < 4) : d.cfgFixed a = (0x00481D7C, 2 ^ 32 - 1) := by
  rw [Dev.cfgFixed, show a / 4 = 0 by omega]
  rfl

/-- PowerState D0 over a trained link: the link is up in D0, and the crossing to it runs (R344). -/
theorem powerD0_spec {d : Dev} (h : d.hr.trained = true) :
    (let t := d.cfgWrite .powerD0
     t.get Reg.HR_LINK_STATUS_D3HOT = 0 ∧ t.get Reg.HR_LINK_STATUS_LINK_UP = 1 ∧ (t.xing 48).held = false
      ∧ t = { d with regs := t.regs, cross := t.cross } ∧ RegsKeepAll [Reg.HR_LINK_STATUS_D3HOT.key, Reg.HR_LINK_STATUS_LINK_UP.key] d t) := by
  have hwrite : d.cfgWrite .powerD0 = ((d.set Reg.HR_LINK_STATUS_D3HOT 0).set Reg.HR_LINK_STATUS_LINK_UP 1).unholdGroup 48 := if_pos h
  obtain ⟨hheld, hframe⟩ := unholdGroup_spec ((d.set Reg.HR_LINK_STATUS_D3HOT 0).set Reg.HR_LINK_STATUS_LINK_UP 1) 48
  have hget (f : Fld) := get_of_regs (congrArg Dev.regs hframe) f
  rw [hwrite]
  refine ⟨?_, ?_, hheld, ?_, fun f hf => ?_⟩
  · rw [hget]
    exact (Dev.get_set_ne _ (by decide) _).trans (Dev.get_set_same _ _ _)
  · rw [hget]
    exact Dev.get_set_same _ _ _
  · rw [hframe]
    rfl
  · rw [hget]
    exact regsKeepAll_trans (regsKeepAll_set_of_mem (by simp)) (regsKeepAll_set_of_mem (by simp)) f hf

/-- Settles O56: each path by what one request of it does, and a write of the host or of SPI by the gated write that it is. -/
theorem hostAndSpiAccess : Obligations.HostAndSpiAccess := by
  refine ⟨fun r s h => ?_, fun r s hup hrole hlink hoff => ⟨fun hform => ?_, fun hone hbe hnone hquiet => ?_, fun v hone hbe hv => ?_⟩,
    fun k v s hup hrole hlink hk => ?_, fun k s hup hrole hlink hk => ?_, fun q s hup hrole htrained hperst hearly => ?_,
    fun s hup hrole htrained hperst hlate => ⟨fun a ha => ?_, fun a ha => ?_, fun c => ?_, fun p r => ?_, fun e m => ?_, fun v => ?_, fun v => ?_, ?_⟩,
    fun mosi n s hon hshort => ?_, fun a s hon ha hquiet => ?_, fun a n v s hon ha => ?_, fun a d h => seenWord_of_settled h a, misoHead_spec⟩
  · rw [exec_bar0Access, onEcc, bar0_unserved h]
  · have hbad : barOk r = false := by
      rw [barOk_register hoff]
      rcases hform with h | h
      · simp [h]
      · simp [h]
    rw [exec_bar0Access, onEcc, bar0_refused hup hrole hlink hbad]
    rfl
  · have hok : barOk r = true := by rw [barOk_register hoff, hone, hbe]; rfl
    have hword : barRead s.ecc s.dev r.offset = (s.dev.seenWord (r.offset / 4 * 4), s.ecc, s.dev) := by
      rw [barRead, if_pos hoff, softRead_at (by rwa [wholeAddr_of_lt hoff]), wholeAddr_of_lt hoff]
    rw [exec_bar0Access, onEcc, bar0_read hup hrole hlink hok hone hnone, hword]
    rfl
  · have hok : barOk r = true := by rw [barOk_register hoff, hone, hbe]; rfl
    rw [exec_bar0Access, onEcc, bar0_write hup hrole hlink hok hone hv, barWrite, if_pos hoff]
    rfl
  · rw [Answers, exec_bar0Access, onEcc, bar0_write hup hrole hlink (barOk_table hk _) rfl rfl, barWrite_table hk]
    exact ⟨_, rfl, (msixWord_setMsix_same _ _ _).trans (Nat.mod_eq_of_lt v.isLt), fun j hj => msixWord_setMsix_ne _ hj _, rfl⟩
  · rw [exec_bar0Access, onEcc, bar0_read hup hrole hlink (barOk_table hk _) rfl rfl, barRead_table hk]
    rfl
  · rw [exec_configRequest, configRequest_early hup hrole htrained hperst hearly]
    rfl
  · rw [exec_configRequest, configRequest_read hup hrole htrained hperst hlate, cfgFixed_id ha]
    rfl
  · rw [Answers, exec_configRequest, configRequest_read hup hrole htrained hperst hlate, if_neg (cfgFixed_open ha)]
    exact ⟨_, rfl, rfl, rfl⟩
  · rw [exec_configRequest, configRequest_cap hup hrole htrained hperst hlate]
    cases c <;> rfl
  · rw [exec_configRequest, configRequest_write hup hrole htrained hperst hlate (by simp) (by simp)]
    rfl
  · rw [exec_configRequest, configRequest_write hup hrole htrained hperst hlate (by simp) (by simp)]
    rfl
  · obtain ⟨hlow, hhigh⟩ := bar0_low s.dev.hr.bar0 v.toNat v.isLt
    rw [Answers, exec_configRequest, configRequest_write hup hrole htrained hperst hlate (by simp) (by simp), cfgWrite_bar0Low]
    generalize s.dev.hr.bar0 / 2 ^ 32 * 2 ^ 32 + v.toNat / 2 ^ 20 * 2 ^ 20 = b at hlow hhigh ⊢
    exact ⟨_, rfl, hlow, hhigh, rfl⟩
  · obtain ⟨hhigh, hlow⟩ := bar0_high s.dev.hr.bar0 v.toNat
    rw [Answers, exec_configRequest, configRequest_write hup hrole htrained hperst hlate (by simp) (by simp), cfgWrite_bar0High]
    generalize s.dev.hr.bar0 % 2 ^ 32 + v.toNat * 2 ^ 32 = b at hlow hhigh ⊢
    exact ⟨_, rfl, hhigh, hlow, rfl⟩
  · obtain ⟨hd3, hup1, hheld, hframe, hkeep⟩ := powerD0_spec htrained
    rw [Answers, exec_configRequest, configRequest_write hup hrole htrained hperst hlate (by simp) (by simp)]
    refine ⟨_, rfl, hd3, hup1, hheld, ?_, hkeep⟩
    dsimp only
    rw [hframe]
    rfl
  · obtain ⟨hout, hpins, hflushes, hframe⟩ := spiEnd_spec (d := s.dev) (denied := false) (short := true) (.miso s.dev.misoHead [])
    rw [Answers, exec_spiFrame, onEcc, spiFrame_short hon hshort]
    exact ⟨_, rfl, hout, hpins, hflushes, congrArg (fun d => { s with dev := d }) hframe⟩
  · obtain ⟨hout, hpins, -, hframe⟩ := spiEnd_spec (d := s.dev) (denied := false) (short := false)
      (.miso s.dev.misoHead [w32 (if s.dev.spiReads (a / 4 * 4) then s.dev.seenWord (a / 4 * 4) else 0)])
    rw [Answers, exec_spiFrame, onEcc, spiFrame_read hon ha hquiet]
    exact ⟨_, rfl, hout, hpins, congrArg (fun d => { s with dev := d }) hframe⟩
  · obtain ⟨hout, hpins, -, hframe⟩ := spiEnd_spec (d := s.dev.gated .spi (wholeAddr a) fun d => softWrite s.fuses d .spi (wholeAddr a) v.toNat)
      (denied := s.dev.open? .spi (a / 4 * 4) && !s.dev.mayWrite .spi (a / 4 * 4)) (short := false) (.miso s.dev.misoHead [])
    refine ⟨_, rfl, ?_⟩
    beta_reduce
    rw [Answers, exec_spiFrame, onEcc, spiFrame_write hon ha, spiWrite_eq ha]
    refine ⟨_, rfl, ?_⟩
    rw [hout, hpins] at hframe
    exact congrArg (fun d => { s with dev := d }) hframe

end Sys2Proof.Machine
end

section
/-! PROOF. The housekeeping converter: what a change of its phase does, and each of its rows by that; O58 from them. -/
namespace Sys2Proof.Machine
open Sys2Proof.Safety

/-! ### A step of the converter -/

/-- A step that changes the registers at the keys `ks` and the converter's own state, and nothing else. -/
structure HkStep (ks : List Nat) (d t : Dev) : Prop where
  frame : t = { d with regs := t.regs, hk := t.hk }
  keeps : RegsKeepAll ks d t

section
variable {ks : List Nat}

theorem HkStep.refl (d : Dev) : HkStep ks d d := ⟨rfl, fun _ _ => rfl⟩

theorem HkStep.trans {a b c : Dev} (h : HkStep ks a b) (k : HkStep ks b c) : HkStep ks a c := by
  refine ⟨?_, regsKeepAll_trans h.keeps k.keeps⟩
  have hframe := k.frame
  rw [h.frame] at hframe
  exact hframe

theorem HkStep.set (d : Dev) {f : Fld} (v : Nat) (hf : f.key ∈ ks) : HkStep ks d (d.set f v) := ⟨rfl, regsKeepAll_set_of_mem hf⟩

theorem HkStep.setHk (d : Dev) (h : Hk) : HkStep ks d { d with hk := h } := ⟨rfl, fun _ _ => rfl⟩

theorem HkStep.mark (d : Dev) (n : Nat) : HkStep ks d (d.hkMark n) := .setHk d _

theorem HkStep.mono {ls : List Nat} {d t : Dev} (h : HkStep ks d t) (sub : ∀ k ∈ ks, k ∈ ls) : HkStep ls d t := ⟨h.frame, regsKeepAll_mono h.keeps sub⟩

end

def phaseKeys : List Nat := [Reg.HK_STATUS_PHASE.key, Reg.HK_STATUS_EXC_ON.key]

/-! ### The excitation, the phase and the discards -/

theorem setMon_hk (d : Dev) : d.setMon.hk = { d.hk with mon := d.setMon.hk.mon } := rfl

/-- EXC_ON is the one register that the excitation changes, and HKMON the one part of the converter's state. -/
theorem setExc_spec (d : Dev) : HkStep [Reg.HK_STATUS_EXC_ON.key] d d.setExc ∧ d.setExc.hk = { d.hk with mon := d.setExc.hk.mon } := by
  unfold Dev.setExc
  dsimp only
  generalize (if (!d.excMode) = true then false else _ : Bool) = on
  exact ⟨(HkStep.set d (b2n on) (List.mem_singleton_self _)).trans (.setHk _ _), rfl⟩

theorem setExc_phase (d : Dev) : d.setExc.hkPhase = d.hkPhase := (setExc_spec d).1.keeps _ (by decide)

/-- What a change of the phase does (R454, R457). -/
theorem hkGo_spec (d : Dev) {p : Nat} (hp : p < 8) :
    HkStep phaseKeys d (d.hkGo p) ∧ (d.hkGo p).hkPhase = p ∧ (d.hkGo p).hk = { d.hk with since := d.pw.frames, mon := (d.hkGo p).hk.mon } := by
  obtain ⟨hstep, hhk⟩ := setExc_spec ((d.set Reg.HK_STATUS_PHASE p).hkMark d.pw.frames)
  have hset : HkStep phaseKeys d ((d.set Reg.HK_STATUS_PHASE p).hkMark d.pw.frames) := (HkStep.set d p (by decide)).trans (.setHk _ _)
  refine ⟨hset.trans (hstep.mono (by decide)), ?_, hhk⟩
  rw [Dev.hkGo, setExc_phase]
  exact (Dev.get_set_same _ _ _).trans (Nat.mod_eq_of_lt hp)

/-- Three discards follow while HKBLANK is released (R455, R457). -/
theorem hkDiscard_spec {d : Dev} (hblank : d.pins.hkBlank = false) (blank : Bool) :
    HkStep phaseKeys d (d.hkDiscard blank) ∧ (d.hkDiscard blank).hkPhase = 2 ∧ (d.hkDiscard blank).hk.disc = 3
      ∧ (d.hkDiscard blank).hk.discBlank = blank := by
  rw [Dev.hkDiscard, hblank]
  obtain ⟨hstep, hphase, hhk⟩ := hkGo_spec { d with hk := { d.hk with disc := 3, discBlank := blank } } (p := 2) (by decide)
  exact ⟨(HkStep.setHk _ _).trans hstep, hphase, congrArg Hk.disc hhk, congrArg Hk.discBlank hhk⟩

/-- The step of any discard, blanked or not. -/
theorem hkDiscard_step (d : Dev) (blank : Bool) : HkStep phaseKeys d (d.hkDiscard blank) := by
  unfold Dev.hkDiscard
  split
  · exact (HkStep.setHk _ _).trans (hkGo_spec _ (by decide)).1
  · exact (HkStep.setHk _ _).trans (hkGo_spec _ (by decide)).1

/-- A change of the phase leaves the settings in force as they are. -/
theorem hkGo_cfg (d : Dev) (p : Nat) : (d.hkGo p).hk.cfg = d.hk.cfg := by
  obtain ⟨-, hhk⟩ := setExc_spec ((d.set Reg.HK_STATUS_PHASE p).hkMark d.pw.frames)
  exact (congrArg Hk.cfg hhk :)

/-- A discard leaves the settings in force as they are. -/
theorem hkDiscard_cfg (d : Dev) (blank : Bool) : (d.hkDiscard blank).hk.cfg = d.hk.cfg := by
  unfold Dev.hkDiscard
  split
  · exact hkGo_cfg _ _
  · exact hkGo_cfg _ _

theorem hkStart_cfg (d : Dev) : d.hkStart.hk.cfg = d.hk.cfg := by
  unfold Dev.hkStart
  dsimp only
  split
  · exact hkGo_cfg _ _
  · split
    · exact hkGo_cfg _ _
    · exact hkDiscard_cfg _ _

theorem hkStart_step (d : Dev) : HkStep phaseKeys d d.hkStart := by
  unfold Dev.hkStart
  refine (HkStep.setHk d { d.hk with keep := d.hkKeep, blanked := none }).trans ?_
  dsimp only
  split
  · exact (hkGo_spec _ (by decide)).1
  · split
    · exact (hkGo_spec _ (by decide)).1
    · exact hkDiscard_step _ _

/-! ### HK_CTRL and HK_MON_CFG (R459, R460, R464, R474) -/

theorem fieldsAt_hkCtrl : fieldsAt 0xB000 = [Reg.HK_CTRL_ENABLE, Reg.HK_CTRL_SELFCAL, Reg.HK_CTRL_EVT_EVERY] := by decide +kernel

theorem fieldsAt_hkMon : fieldsAt 0xB028 = [Reg.HK_MON_CFG_ENABLE, Reg.HK_MON_CFG_MP, Reg.HK_MON_CFG_MN, Reg.HK_MON_CFG_MGAIN] := by decide +kernel

theorem syncAt_hkCtrl : syncAt 0xB000 = true := by decide +kernel

/-- A request for a self-calibration: taken, or refused while one runs. -/
theorem hkSelfcal_taken {d : Dev} (h : d.calRuns = false) : d.hkSelfcal = { d with hk := { d.hk with calReq := true } } := by
  rw [Dev.hkSelfcal, h]
  rfl

theorem hkSelfcal_refused {d : Dev} (h : d.calRuns = true) : d.hkSelfcal = d.set Reg.HK_STATUS_CAL_REFUSED 1 := if_pos h

theorem exec_hkEnable {src : Source} {v : Word} {s : State} (hp : Passes s.dev src 0xB000) :
    exec (.hkEnable src v) s = .next { s with dev := s.dev.writeHkCtrl src v.toNat } := by
  show onDev (fun d => d.gated src 0xB000 fun d => d.writeHkCtrl src v.toNat) s = _
  rw [onDev, gated_of_passes hp]

theorem exec_hkSelfcal {src : Source} {s : State} (hp : Passes s.dev src 0xB000) :
    exec (.hkSelfcal src) s = .next { s with dev := s.dev.hkSelfcal } := by
  show onDev (fun d => d.gated src 0xB000 Dev.hkSelfcal) s = _
  rw [onDev, gated_of_passes hp]

theorem exec_hkMonCfgWrite {src : Source} {v : Word} {s : State} (hp : Passes s.dev src 0xB028) :
    exec (.hkMonCfgWrite src v) s = .next { s with dev := s.dev.writeHkMon v.toNat } := by
  show onDev (fun d => d.gated src 0xB028 fun d => d.writeHkMon v.toNat) s = _
  rw [onDev, gated_of_passes hp]

/-- The plain part of a write of HK_CTRL. -/
theorem plainHkCtrl_spec (d : Dev) (src : Source) (v : Word) :
    (let t := d.plainWrite src 0xB000 v.toNat
     t.get Reg.HK_CTRL_ENABLE = v.toNat % 2 ∧ t.get Reg.HK_CTRL_EVT_EVERY = v.toNat / 256 % 256 ∧ t.queue = d.queue ++ [.reg src 0xB000 v]
      ∧ t = { d with regs := t.regs, queue := t.queue } ∧ RegsKeepAll [Reg.HK_CTRL_ENABLE.key, Reg.HK_CTRL_EVT_EVERY.key] d t) := by
  have hwrite : d.writeFields [Reg.HK_CTRL_ENABLE, Reg.HK_CTRL_SELFCAL, Reg.HK_CTRL_EVT_EVERY] v.toNat
      = d.writeFields [Reg.HK_CTRL_ENABLE, Reg.HK_CTRL_EVT_EVERY] v.toNat := rfl
  have hdev := writeFields_regs d [Reg.HK_CTRL_ENABLE, Reg.HK_CTRL_EVT_EVERY] v.toNat
  rw [plainWrite_of_sync syncAt_hkCtrl, w32_toNat, fieldsAt_hkCtrl, hwrite]
  refine ⟨(get_writeFields_rw v.toNat (by decide) (by decide) (by decide) rfl).trans ?_,
    get_writeFields_rw v.toNat (by decide) (by decide) (by decide) rfl, ?_, congrArg (fun e : Dev => e.enqueue (.reg src 0xB000 v)) hdev,
    regsKeepAll_writeFields (d := d) (w := v.toNat) rfl⟩
  · exact congrArg (· % 2) (Nat.div_one _)
  · exact congrArg (· ++ [Queued.reg src 0xB000 v]) (congrArg Dev.queue hdev :)

theorem calRuns_congr {d e : Dev} (hhk : e.hk = d.hk) (hphase : e.hkPhase = d.hkPhase) : e.calRuns = d.calRuns := by
  rw [Dev.calRuns, Dev.calRuns, hhk, hphase]

theorem hkCfg_congr {d e : Dev} (hcfg : e.hk.cfg = d.hk.cfg) (a : Nat) : e.hkCfg a = d.hkCfg a := by
  rw [Dev.hkCfg, Dev.hkCfg, hcfg]

theorem hkF_congr {d e : Dev} (hcfg : e.hk.cfg = d.hk.cfg) (f : Fld) : e.hkF f = d.hkF f := by
  rw [Dev.hkF, Dev.hkF, hkCfg_congr hcfg]

theorem bursts_congr {d e : Dev} (hcfg : e.hk.cfg = d.hk.cfg) : e.bursts = d.bursts := by
  rw [Dev.bursts, Dev.bursts, hkF_congr hcfg, hkF_congr hcfg]

theorem excMode_congr {d e : Dev} (hcfg : e.hk.cfg = d.hk.cfg) : e.excMode = d.excMode := by
  rw [Dev.excMode, Dev.excMode, hkF_congr hcfg]

theorem monTracks_congr {d e : Dev} (hhk : e.hk = d.hk) (hphase : e.hkPhase = d.hkPhase) : e.monTracks = d.monTracks := by
  have hcfg : e.hk.cfg = d.hk.cfg := by rw [hhk]
  rw [Dev.monTracks, Dev.monTracks, hkF_congr hcfg, bursts_congr hcfg, Dev.monPhase, Dev.monPhase, hphase, hhk]

/-- What HK_CTRL does: its plain fields, and SELFCAL. -/
theorem hkEnable_spec {src : Source} {v : Word} {s : State} (hp : Passes s.dev src 0xB000) :
    Answers (.hkEnable src v) s fun t =>
      t.dev.get Reg.HK_CTRL_ENABLE = v.toNat % 2 ∧ t.dev.get Reg.HK_CTRL_EVT_EVERY = v.toNat / 256 % 256
      ∧ t.dev.eff Reg.HK_CTRL_ENABLE = s.dev.eff Reg.HK_CTRL_ENABLE ∧ t.dev.queue = s.dev.queue ++ [.reg src 0xB000 v]
      ∧ (bitOf v.toNat 1 = false → t.dev.hk = s.dev.hk ∧ t.dev.get Reg.HK_STATUS_CAL_REFUSED = s.dev.get Reg.HK_STATUS_CAL_REFUSED)
      ∧ (bitOf v.toNat 1 = true → s.dev.calRuns = false → t.dev.hk.calReq = true)
      ∧ (bitOf v.toNat 1 = true → s.dev.calRuns = true → t.dev.get Reg.HK_STATUS_CAL_REFUSED = 1 ∧ t.dev.hk = s.dev.hk)
      ∧ t = { s with dev := { s.dev with regs := t.dev.regs, queue := t.dev.queue, hk := { s.dev.hk with calReq := t.dev.hk.calReq } } }
      ∧ RegsKeepAll [Reg.HK_CTRL_ENABLE.key, Reg.HK_CTRL_EVT_EVERY.key, Reg.HK_STATUS_CAL_REFUSED.key] s.dev t.dev := by
  obtain ⟨hen, hevery, hqueue, hframe, hkeep⟩ := plainHkCtrl_spec s.dev src v
  refine ⟨_, exec_hkEnable hp, ?_⟩
  rw [Dev.writeHkCtrl]
  generalize s.dev.plainWrite src 0xB000 v.toNat = e at hen hevery hqueue hframe hkeep ⊢
  have hkeep' : RegsKeepAll [Reg.HK_CTRL_ENABLE.key, Reg.HK_CTRL_EVT_EVERY.key, Reg.HK_STATUS_CAL_REFUSED.key] s.dev e := regsKeepAll_mono hkeep (by decide)
  generalize e.regs = r, e.queue = q at hframe
  subst hframe
  generalize he : ({ s.dev with regs := r, queue := q } : Dev) = e at *
  have hhk : e.hk = s.dev.hk := by rw [← he]
  have heff : e.eff Reg.HK_CTRL_ENABLE = s.dev.eff Reg.HK_CTRL_ENABLE := eff_eq_of_force rfl (by rw [← he])
  have hruns : e.calRuns = s.dev.calRuns := calRuns_congr hhk (hkeep _ (by decide))
  have hrefused : e.get Reg.HK_STATUS_CAL_REFUSED = s.dev.get Reg.HK_STATUS_CAL_REFUSED := hkeep _ (by decide)
  dsimp only
  by_cases hbit : bitOf v.toNat 1 = true
  · rw [if_pos hbit]
    cases hrun : s.dev.calRuns with
    | false =>
      rw [hkSelfcal_taken (hruns.trans hrun)]
      refine ⟨hen, hevery, heff, hqueue, fun h => absurd (hbit.symm.trans h) (by decide), fun _ _ => rfl, fun _ h => absurd h (by decide), ?_, hkeep'⟩
      rw [← he]
    | true =>
      rw [hkSelfcal_refused (hruns.trans hrun)]
      refine ⟨(Dev.get_set_ne _ (by decide) _).trans hen, (Dev.get_set_ne _ (by decide) _).trans hevery, heff, hqueue,
        fun h => absurd (hbit.symm.trans h) (by decide), fun _ h => absurd h (by decide), fun _ _ => ⟨Dev.get_set_same _ _ _, hhk⟩, ?_,
        regsKeepAll_trans hkeep' (regsKeepAll_set_of_mem (by decide))⟩
      rw [← he]
      rfl
  · rw [if_neg hbit]
    refine ⟨hen, hevery, heff, hqueue, fun _ => ⟨hhk, hrefused⟩, fun h => absurd h hbit, fun h => absurd h hbit, ?_, hkeep'⟩
    rw [← he]

/-- HKMON is at 0 V while it is disabled or the excitation is off, follows its pair while it tracks, and else holds (R464, R465). -/
theorem setMon_mon (d : Dev) :
    ((d.get Reg.HK_MON_CFG_ENABLE = 0 ∨ d.excMode = false) → d.setMon.hk.mon = .ground)
    ∧ (d.get Reg.HK_MON_CFG_ENABLE ≠ 0 → d.excMode = true → d.monTracks = true → d.setMon.hk.mon
        = .tracking (d.get Reg.HK_MON_CFG_MP) (d.get Reg.HK_MON_CFG_MN) (d.get Reg.HK_MON_CFG_MGAIN))
    ∧ (d.get Reg.HK_MON_CFG_ENABLE ≠ 0 → d.excMode = true → d.monTracks = false →
        (∀ a b c : Nat, d.hk.mon = .tracking a b c → d.setMon.hk.mon = .holding a b c)
        ∧ ((∀ a b c : Nat, d.hk.mon ≠ .tracking a b c) → d.setMon.hk.mon = d.hk.mon)) := by
  have hflag : d.flag Reg.HK_MON_CFG_ENABLE = (d.get Reg.HK_MON_CFG_ENABLE != 0) := rfl
  have hmon : d.setMon.hk.mon = if !d.flag Reg.HK_MON_CFG_ENABLE || !d.excMode then .ground
    else if d.monTracks then .tracking (d.get Reg.HK_MON_CFG_MP) (d.get Reg.HK_MON_CFG_MN) (d.get Reg.HK_MON_CFG_MGAIN)
    else match d.hk.mon with
      | .tracking mp mn gain => .holding mp mn gain
      | m => m := rfl
  refine ⟨fun hoff => ?_, fun hen hexc htracks => ?_, fun hen hexc htracks => ⟨fun a b c hwas => ?_, fun hwas => ?_⟩⟩
  · rw [hmon, if_pos]
    rcases hoff with h | h <;> simp [hflag, h]
  · rw [hmon, if_neg (by simp [hflag, hen, hexc]), if_pos htracks]
  · rw [hmon, if_neg (by simp [hflag, hen, hexc]), if_neg (by simp [htracks]), hwas]
  · rw [hmon, if_neg (by simp [hflag, hen, hexc]), if_neg (by simp [htracks])]
    split
    next mp mn gain h => exact absurd h (hwas mp mn gain)
    next => rfl

/-- What HK_MON_CFG does: its fields, and HKMON at once. -/
theorem hkMonCfgWrite_spec {src : Source} {v : Word} {s : State} (hp : Passes s.dev src 0xB028) :
    Answers (.hkMonCfgWrite src v) s fun t =>
        t.dev.get Reg.HK_MON_CFG_ENABLE = v.toNat % 2 ∧ t.dev.get Reg.HK_MON_CFG_MP = v.toNat / 2 % 16
        ∧ t.dev.get Reg.HK_MON_CFG_MN = v.toNat / 32 % 16 ∧ t.dev.get Reg.HK_MON_CFG_MGAIN = v.toNat / 512 % 8
        ∧ ((v.toNat % 2 = 0 ∨ s.dev.excMode = false) → t.dev.hk.mon = .ground)
        ∧ (v.toNat % 2 = 1 → s.dev.excMode = true → s.dev.monTracks = true →
            t.dev.hk.mon = .tracking (v.toNat / 2 % 16) (v.toNat / 32 % 16) (v.toNat / 512 % 8))
        ∧ (v.toNat % 2 = 1 → s.dev.excMode = true → s.dev.monTracks = false →
            (∀ a b c : Nat, s.dev.hk.mon = .tracking a b c → t.dev.hk.mon = .holding a b c)
            ∧ ((∀ a b c : Nat, s.dev.hk.mon ≠ .tracking a b c) → t.dev.hk.mon = s.dev.hk.mon))
        ∧ t = { s with dev := { s.dev with regs := t.dev.regs, hk := { s.dev.hk with mon := t.dev.hk.mon } } }
        ∧ RegsKeepAll ((fieldsAt 0xB028).map Fld.key) s.dev t.dev := by
  refine ⟨_, exec_hkMonCfgWrite hp, ?_⟩
  have hget {f : Fld} (hf : f ∈ [Reg.HK_MON_CFG_ENABLE, Reg.HK_MON_CFG_MP, Reg.HK_MON_CFG_MN, Reg.HK_MON_CFG_MGAIN]) (hacc : f.acc = .rw) :
      (s.dev.writeFields (fieldsAt 0xB028) v.toNat).get f = bits v.toNat f.lo f.width := by
    rw [fieldsAt_hkMon]
    exact get_writeFields_rw v.toNat hf (by decide) (by decide) hacc
  have hen : (s.dev.writeFields (fieldsAt 0xB028) v.toNat).get Reg.HK_MON_CFG_ENABLE = v.toNat % 2 :=
    (hget (by decide) rfl).trans (congrArg (· % 2) (Nat.div_one _))
  have hmp : (s.dev.writeFields (fieldsAt 0xB028) v.toNat).get Reg.HK_MON_CFG_MP = v.toNat / 2 % 16 := hget (by decide) rfl
  have hmn : (s.dev.writeFields (fieldsAt 0xB028) v.toNat).get Reg.HK_MON_CFG_MN = v.toNat / 32 % 16 := hget (by decide) rfl
  have hgain : (s.dev.writeFields (fieldsAt 0xB028) v.toNat).get Reg.HK_MON_CFG_MGAIN = v.toNat / 512 % 8 := hget (by decide) rfl
  have hframe := writeFields_regs s.dev (fieldsAt 0xB028) v.toNat
  have hkeep : RegsKeepAll ((fieldsAt 0xB028).map Fld.key) s.dev (s.dev.writeFields (fieldsAt 0xB028) v.toNat) :=
    regsKeepAll_writeFields (by rw [fieldsAt_hkMon]; rfl)
  rw [Dev.writeHkMon]
  generalize s.dev.writeFields (fieldsAt 0xB028) v.toNat = e at hen hmp hmn hgain hframe hkeep ⊢
  generalize e.regs = r at hframe
  subst hframe
  generalize he : ({ s.dev with regs := r } : Dev) = e at *
  have hhk : e.hk = s.dev.hk := by rw [← he]
  have hcfg : e.hk.cfg = s.dev.hk.cfg := congrArg Hk.cfg hhk
  have hphase : e.hkPhase = s.dev.hkPhase := hkeep _ (by rw [fieldsAt_hkMon]; decide)
  obtain ⟨hground, htrack, hhold⟩ := setMon_mon e
  rw [hen, excMode_congr hcfg] at hground htrack hhold
  rw [monTracks_congr hhk hphase, hmp, hmn, hgain] at htrack
  rw [monTracks_congr hhk hphase, hhk] at hhold
  refine ⟨hen, hmp, hmn, hgain, hground, fun h => htrack (by omega), fun h => hhold (by omega), ?_, hkeep⟩
  rw [← he]
  rfl

/-! ### V(HKMON) (R464) -/

theorem volts_ground (now held : Int × Int × List Int) : HkMon.ground.volts now held = 0 := rfl

theorem volts_tracking (mp mn g : Nat) (now held : Int × Int × List Int) :
    (HkMon.tracking mp mn g).volts now held = max 100000 (min 3500000 (now.1 + now.2.1 + 2 * 2 ^ g * (now.2.2.getD mp 0 - now.2.2.getD mn 0))) := by
  have hsum : 2 * now.2.1 + (now.1 - now.2.1) + (2 : Int) ^ (g + 1) * ((now.2.2[mp]?).getD 0 - (now.2.2[mn]?).getD 0)
      = now.1 + now.2.1 + 2 * 2 ^ g * (now.2.2.getD mp 0 - now.2.2.getD mn 0) := by
    rw [List.getD_eq_getElem?_getD, List.getD_eq_getElem?_getD, pow_succ]
    ring
  show clampI 100000 3500000 _ = _
  rw [hsum, clampI, min_comm]

/-! ### Conversions (R452, R455, R457) -/

/-- A conversion boundary at which nothing waits and no burst runs leaves the excitation to follow. -/
theorem hkConvBoundary_quiet {d : Dev} (hwait : d.hk.atConv = []) (hcal : d.hk.calReq = false) (hburst : d.bursts = false) :
    d.hkConvBoundary = d.setExc := by
  have hsame {l : List (Nat × Word)} (h : d.hk.atConv = l) : ({ d with hk := { d.hk with atConv := l } } : Dev).hkPut [] = d := by
    subst h
    rfl
  have hchange : d.hkChanges [] = false := by simp [Dev.hkChanges, Dev.hkPut, Dev.hkCfg]
  unfold Dev.hkConvBoundary
  rw [hwait]
  dsimp only
  rw [hsame hwait, hcal, hburst, hchange]
  rfl

theorem exec_hkConversionEnd (raw : Int) (a b c : Bool) (s : State) :
    exec (.hkConversionEnd raw a b c) s = .next { s with dev := s.dev.hkConvEnd raw a b c } := rfl

def Dev.discardFld (d : Dev) : Fld := if d.hk.discBlank then Reg.HK_COUNTS_BLANKED else Reg.HK_COUNTS_DISCARDED

/-- A conversion of phase 2 that is not the last one to discard. -/
def Dev.discardOne (d : Dev) : Dev :=
  { d.addWrap d.discardFld 1 with hk := { d.hk with disc := d.hk.disc - 1, since := d.pw.frames } }

section
variable {d : Dev} (hup : d.up = true) (hover : 1000 * d.hk.since + d.convNs < 1000 * d.pw.frames + 1000) (hwait : d.hk.atConv = [])
  (hcal : d.hk.calReq = false) (hburst : d.bursts = false) (raw : Int) (a b c : Bool)
include hup hover hwait hcal hburst

theorem hkConvEnd_discard (hphase : d.hkPhase = 2) (hdisc : 1 < d.hk.disc) : d.hkConvEnd raw a b c = d.discardOne.setExc := by
  have hruns : ¬ ((!d.hkRuns || !d.hkOver d.convNs) = true) := by simp [Dev.hkRuns, Dev.hkOver, hup, hover]
  have hone : (if (d.hkMark d.pw.frames).hk.discBlank then (d.hkMark d.pw.frames).addWrap Reg.HK_COUNTS_BLANKED 1
      else (d.hkMark d.pw.frames).addWrap Reg.HK_COUNTS_DISCARDED 1) = (d.hkMark d.pw.frames).addWrap d.discardFld 1 := by
    rw [Dev.discardFld]
    show (if d.hk.discBlank then _ else _) = _
    split <;> rfl
  unfold Dev.hkConvEnd
  rw [if_neg hruns, if_pos hphase]
  dsimp only
  rw [hone]
  have hmore : ((d.hkMark d.pw.frames).addWrap d.discardFld 1).hk.disc - 1 ≠ 0 := by
    show d.hk.disc - 1 ≠ 0
    omega
  rw [if_neg hmore]
  exact hkConvBoundary_quiet hwait hcal hburst

theorem hkConvEnd_keep (hphase : d.hkPhase = 3) :
    d.hkConvEnd raw a b c = ({ d with hk := { d.hk with post := some (d.hkWords raw a b c), since := d.pw.frames } } : Dev).setExc := by
  have hruns : ¬ ((!d.hkRuns || !d.hkOver d.convNs) = true) := by simp [Dev.hkRuns, Dev.hkOver, hup, hover]
  have hnext : d.hkPhase ≠ 2 := by omega
  have hgo : ¬ ((d.hkMark d.pw.frames).hk.calReq = true) := by
    show ¬ (d.hk.calReq = true)
    rw [hcal]
    decide
  have hkeep : (if (d.hkMark d.pw.frames).bursts = true then (d.hkMark d.pw.frames).hk.keep - 1 else (d.hkMark d.pw.frames).hk.keep) = d.hk.keep := by
    rw [bursts_congr (d := d) (e := d.hkMark d.pw.frames) rfl, hburst]
    rfl
  unfold Dev.hkConvEnd
  rw [if_neg hruns, if_neg hnext, if_pos hphase]
  dsimp only
  rw [if_neg hgo, hkeep]
  exact hkConvBoundary_quiet hwait hcal hburst

end

theorem discardFld_mem (d : Dev) : d.discardFld = Reg.HK_COUNTS_BLANKED ∨ d.discardFld = Reg.HK_COUNTS_DISCARDED := by
  unfold Dev.discardFld
  split
  · exact .inl rfl
  · exact .inr rfl

/-- What a discarded conversion leaves: one count, and one discard fewer. -/
theorem discardOne_spec (d : Dev) :
    (let t := d.discardOne.setExc
     t.hk = { d.hk with disc := d.hk.disc - 1, since := d.pw.frames, mon := t.hk.mon } ∧ t.hkPhase = d.hkPhase
      ∧ t.get Reg.HK_COUNTS_BLANKED = (if d.hk.discBlank then (d.get Reg.HK_COUNTS_BLANKED + 1) % 65536 else d.get Reg.HK_COUNTS_BLANKED)
      ∧ t.get Reg.HK_COUNTS_DISCARDED = (if d.hk.discBlank then d.get Reg.HK_COUNTS_DISCARDED else (d.get Reg.HK_COUNTS_DISCARDED + 1) % 65536)
      ∧ HkStep [Reg.HK_COUNTS_BLANKED.key, Reg.HK_COUNTS_DISCARDED.key, Reg.HK_STATUS_EXC_ON.key] d t) := by
  have hmem : d.discardFld.key ∈ [Reg.HK_COUNTS_BLANKED.key, Reg.HK_COUNTS_DISCARDED.key, Reg.HK_STATUS_EXC_ON.key] := by
    rcases discardFld_mem d with h | h <;> rw [h] <;> decide
  have hone : HkStep [Reg.HK_COUNTS_BLANKED.key, Reg.HK_COUNTS_DISCARDED.key, Reg.HK_STATUS_EXC_ON.key] d d.discardOne := (HkStep.set d _ hmem).trans (.setHk _ _)
  obtain ⟨hstep, hhk⟩ := setExc_spec d.discardOne
  have hphase : d.discardOne.hkPhase = d.hkPhase := Dev.get_set_ne _ (by rcases discardFld_mem d with h | h <;> rw [h] <;> decide) _
  have hget (f : Fld) (hf : f.key ∉ [Reg.HK_STATUS_EXC_ON.key]) : d.discardOne.setExc.get f = (d.addWrap d.discardFld 1).get f := hstep.keeps f hf
  refine ⟨hhk, (setExc_phase _).trans hphase, ?_, ?_, hone.trans (hstep.mono (by decide))⟩
  · rw [hget _ (by decide), Dev.discardFld]
    split
    · exact Dev.get_set_same _ _ _
    · exact Dev.get_set_ne _ (by decide) _
  · rw [hget _ (by decide), Dev.discardFld]
    split
    · exact Dev.get_set_ne _ (by decide) _
    · exact Dev.get_set_same _ _ _

/-- The parts of the result words of a kept conversion (R461, R472). -/
theorem hkWords_spec (d : Dev) (raw : Int) (ovld refLow limit : Bool) :
    (let x := d.hkExact raw
     let v := clampI (-8388608) 8388607 x
     let p := d.hkWords raw ovld refLow limit
     p.1 % 2 ^ 24 = (v % 2 ^ 24).toNat ∧ bitOf p.1 24 = (ovld || x != v) ∧ bitOf p.1 26 = !d.flag Reg.HK_STATUS_CAL_VALID
      ∧ bitOf p.1 28 = limit ∧ p.2 % 65536 = (d.hk.live.2 + 1) % 65536) := by
  have hnil : pack [] = 0 := rfl
  have hlt (b : Bool) : b2n b < 2 := by cases b <;> decide
  have hone (b : Bool) : (b2n b == 1) = b := by cases b <;> rfl
  unfold Dev.hkWords
  extract_lets x v p
  have hclamp := hlt (ovld || x != v)
  have hlow := hlt (d.hkF Reg.HK_CONV_CFG_REF_SEL == 1 && refLow)
  have hcal := hlt (!d.flag Reg.HK_STATUS_CAL_VALID)
  have hlimit := hlt limit
  have hval : ofSigned 24 v < 2 ^ 24 := by rw [ofSigned]; omega
  have hvalue : (v % 2 ^ 24).toNat = ofSigned 24 v := rfl
  have hfst : p.1 = ofSigned 24 v % 2 ^ 24 * 2 ^ 0 + (b2n (ovld || x != v) % 2 ^ 1 * 2 ^ 24
      + (b2n (d.hkF Reg.HK_CONV_CFG_REF_SEL == 1 && refLow) % 2 ^ 1 * 2 ^ 25 + (b2n (!d.flag Reg.HK_STATUS_CAL_VALID) % 2 ^ 1 * 2 ^ 26
      + (d.hkF Reg.HK_CONV_CFG_OW_EN % 2 ^ 1 * 2 ^ 27 + (b2n limit % 2 ^ 1 * 2 ^ 28 + 0))))) := by
    show pack _ = _
    rw [pack_cons, pack_cons, pack_cons, pack_cons, pack_cons, pack_cons, hnil]
  have hsnd : p.2 = (d.hk.live.2 + 1) % 2 ^ 16 * 2 ^ 0 + (d.hkF Reg.HK_CONV_CFG_P_SEL % 2 ^ 5 * 2 ^ 16
      + (d.hkF Reg.HK_CONV_CFG_N_SEL % 2 ^ 5 * 2 ^ 21 + (d.hkF Reg.HK_CONV_CFG_GAIN % 2 ^ 3 * 2 ^ 26 + (d.hkF Reg.HK_CONV_CFG_REF_SEL % 2 ^ 1 * 2 ^ 29 + 0)))) := by
    show pack _ = _
    rw [pack_cons, pack_cons, pack_cons, pack_cons, pack_cons, hnil]
  clear_value p
  rw [hvalue]
  clear hvalue
  generalize ofSigned 24 v = o at hval hfst ⊢
  have h24 : p.1 / 2 ^ 24 % 2 = b2n (ovld || x != v) := by omega
  have h26 : p.1 / 2 ^ 26 % 2 = b2n (!d.flag Reg.HK_STATUS_CAL_VALID) := by omega
  have h28 : p.1 / 2 ^ 28 % 2 = b2n limit := by omega
  exact ⟨by omega, by rw [bitOf, h24, hone], by rw [bitOf, h26, hone], by rw [bitOf, h28, hone], by omega⟩

/-- What a kept conversion leaves: its words wait for the boundary. -/
theorem keptConversion_spec (d : Dev) (p : Nat × Nat) :
    (let t := ({ d with hk := { d.hk with post := some p, since := d.pw.frames } } : Dev).setExc
     t.hk = { d.hk with post := some p, since := d.pw.frames, mon := t.hk.mon } ∧ HkStep [Reg.HK_STATUS_EXC_ON.key] d t) := by
  obtain ⟨hstep, hhk⟩ := setExc_spec { d with hk := { d.hk with post := some p, since := d.pw.frames } }
  exact ⟨hhk, (HkStep.setHk _ _).trans hstep⟩

/-- A kept conversion: floor((raw − OFS) × GAIN_F / 2^22), clamped, waits with its flags and sequence number. -/
theorem keptConversion_answers {raw : Int} {ovld refLow limit : Bool} {s : State} (hup : s.dev.up = true) (hphase : s.dev.hkPhase = 3)
    (hwait : s.dev.hk.atConv = []) (hcal : s.dev.hk.calReq = false) (hburst : s.dev.bursts = false)
    (hover : 1000 * s.dev.hk.since + s.dev.convNs < 1000 * s.dev.pw.frames + 1000) :
    (let g := s.dev.hkF Reg.HK_CONV_CFG_GAIN
     let x := ((raw - s.dev.hkI (Reg.HK_CAL_OFS_OFS g)) * (s.dev.hkF (Reg.HK_CAL_GAIN_GAIN_F g) : Int)).fdiv 4194304
     let v := max (-8388608) (min 8388607 x)
     Answers (.hkConversionEnd raw ovld refLow limit) s fun t =>
      (∃ p ∈ t.dev.hk.post, p.1 % 2 ^ 24 = (v % 2 ^ 24).toNat ∧ bitOf p.1 24 = (ovld || decide (x ≠ v))
        ∧ bitOf p.1 26 = !s.dev.flag Reg.HK_STATUS_CAL_VALID ∧ bitOf p.1 28 = limit ∧ p.2 % 65536 = (s.dev.hk.live.2 + 1) % 65536)
      ∧ t = { s with dev := { s.dev with regs := t.dev.regs, hk := { s.dev.hk with post := t.dev.hk.post, since := s.dev.pw.frames, mon := t.dev.hk.mon } } }
      ∧ RegsKeepAll [Reg.HK_STATUS_EXC_ON.key] s.dev t.dev) := by
  intro g x v
  have hx : s.dev.hkExact raw = x := rfl
  have hv : clampI (-8388608) 8388607 (s.dev.hkExact raw) = v := by
    show max (-8388608) (min x 8388607) = max (-8388608) (min 8388607 x)
    rw [min_comm]
  obtain ⟨hvalue, hclamp, hvalid, hlimit, hseq⟩ := hkWords_spec s.dev raw ovld refLow limit
  rw [hv] at hvalue hclamp
  rw [hx] at hclamp
  obtain ⟨hhk, hframe, hkeep⟩ := keptConversion_spec s.dev (s.dev.hkWords raw ovld refLow limit)
  rw [Answers, exec_hkConversionEnd, hkConvEnd_keep hup hover hwait hcal hburst raw ovld refLow limit hphase]
  generalize s.dev.hkWords raw ovld refLow limit = p at *
  generalize ({ s.dev with hk := { s.dev.hk with post := some p, since := s.dev.pw.frames } } : Dev).setExc = e at *
  have hpost : e.hk.post = some p := congrArg Hk.post hhk
  refine ⟨_, rfl, ⟨p, hpost, hvalue, hclamp.trans ?_, hvalid, hlimit, hseq⟩, ?_, hkeep⟩
  · have hne : (x != v) = decide (x ≠ v) := by rw [Bool.eq_iff_iff, bne_iff_ne, decide_eq_true_eq]
    rw [hne]
  · rw [hhk] at hframe
    dsimp only
    rw [hpost]
    exact congrArg (fun d => { s with dev := d }) hframe

/-! ### Bursts (R454, R455) -/

theorem exec_hkLeadEnd (s : State) : exec .hkLeadEnd s = .next { s with dev := s.dev.hkLeadEnd } := rfl

theorem exec_hkRestEnd (s : State) : exec .hkRestEnd s = .next { s with dev := s.dev.hkRestEnd } := rfl

theorem usNs_eq (v : Nat) : usNs v = 1000 * max 1 (min 100000 v) := by rw [usNs, clampN, min_comm]

theorem hkLeadEnd_eq {d : Dev} (hup : d.up = true) (hphase : d.hkPhase = 1)
    (hover : 1000 * d.hk.since + 1000 * max 1 (min 100000 (d.hkF Reg.HK_EXC_LEAD_LEAD_US)) < 1000 * d.pw.frames + 1000) :
    d.hkLeadEnd = d.hkDiscard false :=
  if_pos (by simp [Dev.hkRuns, Dev.hkOver, usNs_eq, hup, hphase, hover])

theorem hkRestEnd_eq {d : Dev} (hup : d.up = true) (hphase : d.hkPhase = 4)
    (hover : 1000 * d.hk.since + 1000 * max 1 (min 100000 (d.hkF Reg.HK_EXC_REST_REST_US)) < 1000 * d.pw.frames + 1000) :
    d.hkRestEnd = d.hkStart :=
  if_pos (by simp [Dev.hkRuns, Dev.hkOver, usNs_eq, hup, hphase, hover])

theorem hkStart_eq {d : Dev} (hen : d.effB Reg.HK_CTRL_ENABLE = true) :
    d.hkStart = (let e := { d with hk := { d.hk with keep := d.hkKeep, blanked := none } }
      if d.bursts then e.hkGo 1 else e.hkDiscard false) := by
  have hen' : ({ d with hk := { d.hk with keep := d.hkKeep, blanked := none } } : Dev).effB Reg.HK_CTRL_ENABLE = true := hen
  unfold Dev.hkStart
  dsimp only
  rw [hen', bursts_congr (d := d) (e := { d with hk := { d.hk with keep := d.hkKeep, blanked := none } }) rfl]
  rfl

/-- The excitation of a burst is on from its lead (R454). -/
theorem hkGo_lead_excOn {d : Dev} (hburst : d.bursts = true) : (d.hkGo 1).get Reg.HK_STATUS_EXC_ON = if d.excMode then 1 else 0 := by
  have hpulsed : d.hkF Reg.HK_EXC_CTRL_PULSED = 1 := by
    rw [Dev.bursts, Bool.and_eq_true] at hburst
    exact eq_of_beq hburst.1
  have hphase : ((d.set Reg.HK_STATUS_PHASE 1).hkMark d.pw.frames).hkPhase = 1 := Dev.get_set_same _ _ _
  rw [Dev.hkGo, Dev.setExc]
  generalize he : (d.set Reg.HK_STATUS_PHASE 1).hkMark d.pw.frames = e at hphase ⊢
  have hcfg : e.hk.cfg = d.hk.cfg := by rw [← he]; rfl
  rw [excMode_congr hcfg, bursts_congr hcfg, hkF_congr hcfg, hburst, hpulsed, hphase]
  refine (Dev.get_set_same e _ _).trans ?_
  cases d.excMode <;> rfl

/-- A lead ends, or a rest where no bursts are asked: three discards (R455). -/
theorem threeDiscards_spec {c : Instr} {s : State} (hup : s.dev.up = true) (hblank : s.dev.pins.hkBlank = false)
    (h : c = .hkLeadEnd ∧ s.dev.hkPhase = 1
          ∧ 1000 * s.dev.hk.since + 1000 * max 1 (min 100000 (s.dev.hkF Reg.HK_EXC_LEAD_LEAD_US)) < 1000 * s.dev.pw.frames + 1000
        ∨ c = .hkRestEnd ∧ s.dev.hkPhase = 4 ∧ s.dev.effB Reg.HK_CTRL_ENABLE = true ∧ s.dev.bursts = false
          ∧ 1000 * s.dev.hk.since + 1000 * max 1 (min 100000 (s.dev.hkF Reg.HK_EXC_REST_REST_US)) < 1000 * s.dev.pw.frames + 1000) :
    Answers c s fun t =>
      t.dev.hkPhase = 2 ∧ t.dev.hk.disc = 3 ∧ t.dev.hk.discBlank = false
      ∧ t = { s with dev := { s.dev with regs := t.dev.regs, hk := t.dev.hk } }
      ∧ RegsKeepAll [Reg.HK_STATUS_PHASE.key, Reg.HK_STATUS_EXC_ON.key] s.dev t.dev := by
  rcases h with ⟨rfl, hphase, hover⟩ | ⟨rfl, hphase, hen, hburst, hover⟩
  · obtain ⟨hstep, hgo, hdisc, hcount⟩ := hkDiscard_spec hblank false
    rw [Answers, exec_hkLeadEnd, hkLeadEnd_eq hup hphase hover]
    exact ⟨_, rfl, hgo, hdisc, hcount, congrArg (fun d => { s with dev := d }) hstep.frame, hstep.keeps⟩
  · obtain ⟨hstep, hgo, hdisc, hcount⟩ := hkDiscard_spec (d := { s.dev with hk := { s.dev.hk with keep := s.dev.hkKeep, blanked := none } }) hblank false
    have hfull := (HkStep.setHk s.dev { s.dev.hk with keep := s.dev.hkKeep, blanked := none }).trans hstep
    rw [Answers, exec_hkRestEnd, hkRestEnd_eq hup hphase hover, hkStart_eq hen, hburst]
    exact ⟨_, rfl, hgo, hdisc, hcount, congrArg (fun d => { s with dev := d }) hfull.frame, hfull.keeps⟩

/-- A rest ends where bursts are asked: the lead of the next one (R454). -/
theorem nextBurst_spec {s : State} (hup : s.dev.up = true) (hphase : s.dev.hkPhase = 4) (hen : s.dev.effB Reg.HK_CTRL_ENABLE = true)
    (hburst : s.dev.bursts = true)
    (hover : 1000 * s.dev.hk.since + 1000 * max 1 (min 100000 (s.dev.hkF Reg.HK_EXC_REST_REST_US)) < 1000 * s.dev.pw.frames + 1000) :
    Answers .hkRestEnd s fun t =>
      t.dev.hkPhase = 1 ∧ t.dev.hk.keep = s.dev.hkKeep ∧ t.dev.get Reg.HK_STATUS_EXC_ON = (if s.dev.excMode then 1 else 0)
      ∧ t = { s with dev := { s.dev with regs := t.dev.regs, hk := t.dev.hk } }
      ∧ RegsKeepAll [Reg.HK_STATUS_PHASE.key, Reg.HK_STATUS_EXC_ON.key] s.dev t.dev := by
  have hcfg : ({ s.dev with hk := { s.dev.hk with keep := s.dev.hkKeep, blanked := none } } : Dev).hk.cfg = s.dev.hk.cfg := rfl
  obtain ⟨hstep, hgo, hhk⟩ := hkGo_spec { s.dev with hk := { s.dev.hk with keep := s.dev.hkKeep, blanked := none } } (p := 1) (by decide)
  have hexc := hkGo_lead_excOn ((bursts_congr hcfg).trans hburst)
  have hfull := (HkStep.setHk s.dev { s.dev.hk with keep := s.dev.hkKeep, blanked := none }).trans hstep
  rw [excMode_congr hcfg] at hexc
  rw [Answers, exec_hkRestEnd, hkRestEnd_eq hup hphase hover, hkStart_eq hen, hburst]
  exact ⟨_, rfl, hgo, congrArg Hk.keep hhk, hexc, congrArg (fun d => { s with dev := d }) hfull.frame, hfull.keeps⟩

/-! ### Blanking (R457) -/

theorem exec_hkblankAssert (s : State) : exec .hkblankAssert s = .next { s with dev := s.dev.hkBlankOn } := rfl

theorem exec_hkblankRelease (s : State) : exec .hkblankRelease s = .next { s with dev := s.dev.hkBlankOff } := rfl

def Dev.blankCut (d : Dev) : Dev :=
  ({ d with pins := { d.pins with hkBlank := true }, hk := { d.hk with blanked := some d.hkPhase } } : Dev).addWrap Reg.HK_COUNTS_BLANKED 1

/-- The phases that HKBLANK interrupts. -/
theorem hkBlankOn_cut {d : Dev} (hup : d.up = true) (hblank : d.pins.hkBlank = false) (h : d.hkPhase = 2 ∨ d.hkPhase = 3 ∨ d.hkPhase = 6) :
    d.hkBlankOn = if d.hkPhase = 6 then (d.blankCut.hkGo 5).hkMark (d.pw.frames - d.hk.since) else d.blankCut.hkGo 5 := by
  have hcut : (({ d with pins := { d.pins with hkBlank := true } } : Dev).hkRuns && (d.hkPhase == 2 || d.hkPhase == 3 || d.hkPhase == 6)) = true := by
    show (d.up && _) = true
    rcases h with h | h | h <;> simp [hup, h]
  unfold Dev.hkBlankOn
  rw [if_neg (by simp [hblank])]
  dsimp only
  rw [if_pos hcut]
  rfl

theorem hkBlankOn_idle {d : Dev} (hblank : d.pins.hkBlank = false) (h2 : d.hkPhase ≠ 2) (h3 : d.hkPhase ≠ 3) (h6 : d.hkPhase ≠ 6) :
    d.hkBlankOn = { d with pins := { d.pins with hkBlank := true } } := by
  unfold Dev.hkBlankOn
  rw [if_neg (by simp [hblank])]
  exact if_neg (by simp [h2, h3, h6])

def blankKeys : List Nat := [Reg.HK_STATUS_PHASE.key, Reg.HK_STATUS_EXC_ON.key, Reg.HK_COUNTS_BLANKED.key]

/-- What the interruption leaves: the phase, one count, and the time that a self-calibration has run. -/
theorem hkBlankOn_spec {d : Dev} (hup : d.up = true) (hblank : d.pins.hkBlank = false) (h : d.hkPhase = 2 ∨ d.hkPhase = 3 ∨ d.hkPhase = 6) :
    (let t := d.hkBlankOn
     t.hkPhase = 5 ∧ t.get Reg.HK_COUNTS_BLANKED = (d.get Reg.HK_COUNTS_BLANKED + 1) % 65536
      ∧ t.hk = { d.hk with
          blanked := some d.hkPhase, mon := t.hk.mon, since := if d.hkPhase = 6 then d.pw.frames - d.hk.since else d.pw.frames }
      ∧ t = { d with regs := t.regs, pins := { d.pins with hkBlank := true }, hk := t.hk } ∧ RegsKeepAll blankKeys d t) := by
  obtain ⟨⟨hframe, hkeep⟩, hgo, hhk⟩ := hkGo_spec d.blankCut (p := 5) (by decide)
  have hcount : (d.blankCut.hkGo 5).get Reg.HK_COUNTS_BLANKED = (d.get Reg.HK_COUNTS_BLANKED + 1) % 65536 :=
    (hkeep _ (by decide)).trans (Dev.get_set_same _ _ _)
  have hcut : RegsKeepAll blankKeys d d.blankCut :=
    regsKeepAll_trans (b := { d with pins := { d.pins with hkBlank := true }, hk := { d.hk with blanked := some d.hkPhase } }) (fun _ _ => rfl)
      (regsKeepAll_set_of_mem (by decide))
  have hkeep' : RegsKeepAll blankKeys d (d.blankCut.hkGo 5) := regsKeepAll_trans hcut (regsKeepAll_mono hkeep (by decide))
  rw [hkBlankOn_cut hup hblank h]
  generalize d.blankCut.hkGo 5 = e at hframe hgo hhk hcount hkeep' ⊢
  dsimp only
  split
  · exact ⟨hgo, hcount, congrArg (fun x : Hk => { x with since := d.pw.frames - d.hk.since }) hhk,
      congrArg (fun x : Dev => x.hkMark (d.pw.frames - d.hk.since)) hframe, hkeep'⟩
  · exact ⟨hgo, hcount, hhk, hframe, hkeep'⟩

theorem hkBlankOff_idle {d : Dev} (h : d.hkPhase ≠ 5) : d.hkBlankOff = { d with pins := { d.pins with hkBlank := false } } := if_neg h

def Dev.unblanked (d : Dev) : Dev := { d with pins := { d.pins with hkBlank := false }, hk := { d.hk with blanked := none } }

theorem hkBlankOff_cal {d : Dev} (h : d.hkPhase = 5) (hcal : d.hk.blanked = some 6) :
    d.hkBlankOff = (d.unblanked.hkGo 6).hkMark (d.pw.frames - d.hk.since) := by
  unfold Dev.hkBlankOff
  dsimp only
  rw [if_pos (show ({ d with pins := { d.pins with hkBlank := false } } : Dev).hkPhase = 5 from h), hcal]
  rfl

theorem hkBlankOff_conv {d : Dev} (h : d.hkPhase = 5) (hconv : d.hk.blanked ≠ some 6) : d.hkBlankOff = d.unblanked.hkDiscard true := by
  unfold Dev.hkBlankOff
  dsimp only
  rw [if_pos (show ({ d with pins := { d.pins with hkBlank := false } } : Dev).hkPhase = 5 from h), if_neg hconv]
  rfl

/-- A step of the converter after HKBLANK was released is a step from the device as it was, but for the pin. -/
theorem unblanked_frame {d t : Dev} (h : HkStep phaseKeys d.unblanked t) :
    t = { d with regs := t.regs, pins := { d.pins with hkBlank := false }, hk := t.hk } ∧ RegsKeepAll phaseKeys d t := ⟨h.frame, h.keeps⟩

theorem hkblankRelease_spec (s : State) :
    Answers .hkblankRelease s fun t =>
      t.dev.pins = { s.dev.pins with hkBlank := false }
      ∧ (s.dev.hkPhase = 5 → s.dev.hk.blanked ≠ some 6 → t.dev.hkPhase = 2 ∧ t.dev.hk.disc = 3 ∧ t.dev.hk.discBlank = true)
      ∧ (s.dev.hkPhase = 5 → s.dev.hk.blanked = some 6 → t.dev.hkPhase = 6)
      ∧ (s.dev.hkPhase ≠ 5 → t.dev.hk = s.dev.hk ∧ t.dev.regs = s.dev.regs)
      ∧ t = { s with dev := { s.dev with regs := t.dev.regs, pins := t.dev.pins, hk := t.dev.hk } }
      ∧ RegsKeepAll [Reg.HK_STATUS_PHASE.key, Reg.HK_STATUS_EXC_ON.key] s.dev t.dev := by
  rw [Answers, exec_hkblankRelease]
  refine ⟨_, rfl, ?_⟩
  by_cases hphase : s.dev.hkPhase = 5
  · by_cases hcal : s.dev.hk.blanked = some 6
    · obtain ⟨hstep, hgo, -⟩ := hkGo_spec s.dev.unblanked (p := 6) (by decide)
      rw [hkBlankOff_cal hphase hcal]
      obtain ⟨hframe, hkeep⟩ := unblanked_frame (hstep.trans (.mark _ (s.dev.pw.frames - s.dev.hk.since)))
      have hphase6 : ((s.dev.unblanked.hkGo 6).hkMark (s.dev.pw.frames - s.dev.hk.since)).hkPhase = 6 := hgo
      generalize (s.dev.unblanked.hkGo 6).hkMark (s.dev.pw.frames - s.dev.hk.since) = t at hframe hkeep hphase6 ⊢
      have hpins : t.pins = { s.dev.pins with hkBlank := false } := by rw [hframe]
      refine ⟨hpins, fun _ h => absurd hcal h, fun _ _ => hphase6, fun h => absurd hphase h, ?_, hkeep⟩
      dsimp only
      rw [hpins]
      exact congrArg (fun d => { s with dev := d }) hframe
    · obtain ⟨hstep, hgo, hdisc, hcount⟩ := hkDiscard_spec (d := s.dev.unblanked) rfl true
      obtain ⟨hframe, hkeep⟩ := unblanked_frame hstep
      rw [hkBlankOff_conv hphase hcal]
      generalize s.dev.unblanked.hkDiscard true = t at hgo hdisc hcount hframe hkeep ⊢
      have hpins : t.pins = { s.dev.pins with hkBlank := false } := by rw [hframe]
      refine ⟨hpins, fun _ _ => ⟨hgo, hdisc, hcount⟩, fun _ h => absurd h hcal, fun h => absurd hphase h, ?_, hkeep⟩
      dsimp only
      rw [hpins]
      exact congrArg (fun d => { s with dev := d }) hframe
  · rw [hkBlankOff_idle hphase]
    exact ⟨rfl, fun h => absurd h hphase, fun h => absurd h hphase, fun _ => ⟨rfl, rfl⟩, rfl, fun _ _ => rfl⟩

theorem hkblankAssert_spec {s : State} (hup : s.dev.up = true) (hblank : s.dev.pins.hkBlank = false) :
    Answers .hkblankAssert s fun t =>
      t.dev.pins = { s.dev.pins with hkBlank := true }
      ∧ (s.dev.hkPhase = 2 ∨ s.dev.hkPhase = 3 ∨ s.dev.hkPhase = 6 →
          t.dev.hkPhase = 5 ∧ t.dev.get Reg.HK_COUNTS_BLANKED = (s.dev.get Reg.HK_COUNTS_BLANKED + 1) % 65536
          ∧ t.dev.hk = { s.dev.hk with
              blanked := some s.dev.hkPhase, mon := t.dev.hk.mon
              since := if s.dev.hkPhase = 6 then s.dev.pw.frames - s.dev.hk.since else s.dev.pw.frames })
      ∧ (s.dev.hkPhase ≠ 2 → s.dev.hkPhase ≠ 3 → s.dev.hkPhase ≠ 6 → t.dev.regs = s.dev.regs ∧ t.dev.hk = s.dev.hk)
      ∧ t = { s with dev := { s.dev with regs := t.dev.regs, pins := t.dev.pins, hk := t.dev.hk } }
      ∧ RegsKeepAll [Reg.HK_STATUS_PHASE.key, Reg.HK_STATUS_EXC_ON.key, Reg.HK_COUNTS_BLANKED.key] s.dev t.dev := by
  rw [Answers, exec_hkblankAssert]
  refine ⟨_, rfl, ?_⟩
  by_cases h : s.dev.hkPhase = 2 ∨ s.dev.hkPhase = 3 ∨ s.dev.hkPhase = 6
  · obtain ⟨hgo, hcount, hhk, hframe, hkeep⟩ := hkBlankOn_spec hup hblank h
    generalize s.dev.hkBlankOn = t at hgo hcount hhk hframe hkeep ⊢
    have hpins : t.pins = { s.dev.pins with hkBlank := true } := by rw [hframe]
    refine ⟨hpins, fun _ => ⟨hgo, hcount, hhk⟩, fun h2 h3 h6 => (h.elim h2 (·.elim h3 h6)).elim, ?_, hkeep⟩
    dsimp only
    rw [hpins]
    exact congrArg (fun d => { s with dev := d }) hframe
  · have hidle := hkBlankOn_idle hblank (fun e => h (.inl e)) (fun e => h (.inr (.inl e))) (fun e => h (.inr (.inr e)))
    rw [hidle]
    exact ⟨rfl, fun e => absurd e h, fun _ _ _ => ⟨rfl, rfl⟩, rfl, fun _ _ => rfl⟩

/-! ### Limits and captures (R453, R472) -/

theorem exec_excLimit (s : State) : exec .excLimit s = .next { s with dev := s.dev.excLimit } := rfl

theorem excLimit_off {d : Dev} (h : d.flag Reg.HK_STATUS_EXC_ON = false) : d.excLimit = d :=
  if_neg (by simp [h])

theorem excLimit_on {d : Dev} (hup : d.up = true) (h : d.flag Reg.HK_STATUS_EXC_ON = true) :
    d.excLimit.flag Reg.HK_STATUS_EXC_LIMIT = true ∧ d.excLimit = talked d d.excLimit ∧ RegsKeep [Reg.HK_STATUS_EXC_LIMIT.key] d d.excLimit := by
  have hset : RegsKeep [Reg.HK_STATUS_EXC_LIMIT.key] d (d.set Reg.HK_STATUS_EXC_LIMIT 1) := regsKeep_set_of_mem (by simp)
  have hflag : (d.set Reg.HK_STATUS_EXC_LIMIT 1).get Reg.HK_STATUS_EXC_LIMIT = 1 := Dev.get_set_same _ _ _
  have hlimit : d.excLimit = if d.flag Reg.HK_STATUS_EXC_LIMIT then d.set Reg.HK_STATUS_EXC_LIMIT 1
      else (d.set Reg.HK_STATUS_EXC_LIMIT 1).raise 10 4 [(d.set Reg.HK_STATUS_EXC_LIMIT 1).readFields (fieldsAt 0xB00C)] :=
    if_pos (by simp [Dev.hkRuns, hup, h])
  rw [hlimit]
  split
  · exact ⟨by rw [Dev.flag, hflag]; rfl, rfl, hset⟩
  · obtain ⟨htalk, hkeep⟩ := raise_talks (d.set Reg.HK_STATUS_EXC_LIMIT 1) 10 4 [(d.set Reg.HK_STATUS_EXC_LIMIT 1).readFields (fieldsAt 0xB00C)]
    generalize (d.set Reg.HK_STATUS_EXC_LIMIT 1).raise 10 4 _ = e at htalk hkeep ⊢
    refine ⟨?_, htalk, fun f hf hcount => (hkeep f (by simp) hcount).trans (hset f hf hcount)⟩
    rw [Dev.flag, hkeep _ (by simp) (notTalk (.inr (by decide)) (by decide)), hflag]
    rfl

theorem exec_hkResultCapture (s : State) :
    exec .hkResultCapture s = .next { s with dev := whenD (s.dev.up || s.dev.boot == .held) Dev.hkCapture s.dev } := rfl

/-- A capture sets the fields of both registers to their bits of the result. -/
theorem hkCapture_eq (d : Dev) :
    d.hkCapture = (d.setAll ((fieldsAt 0xB01C).map fun f => (f, bits d.hk.live.1 f.lo f.width))).setAll
      ((fieldsAt 0xB020).map fun f => (f, bits d.hk.live.2 f.lo f.width)) := by
  have hfold (p : Nat × Nat → Nat) (fs : List Fld) (e : Dev) :
      fs.foldl (fun d f => d.set f (bits (p d.hk.live) f.lo f.width)) e = e.setAll (fs.map fun f => (f, bits (p e.hk.live) f.lo f.width)) := by
    induction fs generalizing e with
    | nil => rfl
    | cons f fs ih => exact ih (e.set f (bits (p e.hk.live) f.lo f.width))
  have hlive : (d.setAll ((fieldsAt 0xB01C).map fun f => (f, bits d.hk.live.1 f.lo f.width))).hk = d.hk := (congrArg Dev.hk (setAll_regs d _) :)
  unfold Dev.hkCapture
  rw [hfold Prod.fst, hfold Prod.snd, hlive]

theorem captured_keys_distinct : (fieldsAt 0xB01C).Pairwise (fun a b => a.key ≠ b.key) ∧ (fieldsAt 0xB020).Pairwise (fun a b => a.key ≠ b.key)
    ∧ ∀ f ∈ fieldsAt 0xB01C, ∀ g ∈ fieldsAt 0xB020, f.key ≠ g.key := by decide +kernel

theorem hkCapture_spec (d : Dev) :
    (let t := d.hkCapture
     (∀ f ∈ fieldsAt 0xB01C, t.get f = bits d.hk.live.1 f.lo f.width) ∧ (∀ f ∈ fieldsAt 0xB020, t.get f = bits d.hk.live.2 f.lo f.width)
      ∧ t = { d with regs := t.regs } ∧ RegsKeepAll ((fieldsAt 0xB01C ++ fieldsAt 0xB020).map Fld.key) d t) := by
  obtain ⟨hfst, hsnd, hcross⟩ := captured_keys_distinct
  have hmod (n lo w : Nat) : bits n lo w % 2 ^ w = bits n lo w := Nat.mod_mod _ _
  have hflds (n : Nat) (fs : List Fld) : (fs.map fun f => (f, bits n f.lo f.width)).map Prod.fst = fs := by
    rw [List.map_map]
    exact List.map_id fs
  have hkeys (n : Nat) (fs : List Fld) : (fs.map fun f => (f, bits n f.lo f.width)).map (fun p => p.1.key) = fs.map Fld.key := by simp
  rw [hkCapture_eq]
  refine ⟨fun f hf => ?_, fun f hf => ?_, ?_, ?_⟩
  · rw [get_setAll_ne, get_setAll_of_mem (hflds _ _) hfst (List.mem_map_of_mem hf), hmod]
    intro p hp
    obtain ⟨g, hg, rfl⟩ := List.mem_map.1 hp
    exact hcross f hf g hg
  · rw [get_setAll_of_mem (hflds _ _) hsnd (List.mem_map_of_mem hf), hmod]
  · have hframe := setAll_regs (d.setAll ((fieldsAt 0xB01C).map fun f => (f, bits d.hk.live.1 f.lo f.width)))
      ((fieldsAt 0xB020).map fun f => (f, bits d.hk.live.2 f.lo f.width))
    rw [hframe, setAll_regs d]
  · rw [List.map_append]
    exact regsKeepAll_trans (regsKeepAll_mono (regsKeepAll_setAll (hkeys _ _)) fun _ => List.mem_append_left _)
      (regsKeepAll_mono (regsKeepAll_setAll (hkeys _ _)) fun _ => List.mem_append_right _)

/-! ### Self-calibration (R459, R460) -/

/-- The factors of one gain taken. -/
def Dev.calTake (d : Dev) (p : (Int × Int) × Nat) : Dev :=
  ((d.set (Reg.HK_CAL_OFS_OFS p.2) (ofSigned 24 p.1.1)).set (Reg.HK_CAL_GAIN_GAIN_F p.2) ((hkGainF p.1).getD 0).toNat).hkPut
    [((Reg.HK_CAL_OFS_OFS p.2).addr, w32 (ofSigned 24 p.1.1)), ((Reg.HK_CAL_GAIN_GAIN_F p.2).addr, w32 ((hkGainF p.1).getD 0).toNat)]

/-- The factors in force of one gain shown. -/
def Dev.calShow (d : Dev) (g : Nat) : Dev :=
  (d.set (Reg.HK_CAL_OFS_OFS g) (d.hkF (Reg.HK_CAL_OFS_OFS g))).set (Reg.HK_CAL_GAIN_GAIN_F g) (d.hkF (Reg.HK_CAL_GAIN_GAIN_F g))

/-- How conversions resume. -/
def Dev.calResume (d : Dev) (was : Bool) : Dev :=
  if !d.effB Reg.HK_CTRL_ENABLE then d.hkGo 0
  else if d.bursts == was && (d.hk.calFrom == 2 || d.hk.calFrom == 3) then
    if d.bursts && d.hk.keep == 0 then d.hkGo 4 else d.hkDiscard false
  else d.hkStart

def calKeys : List Nat := (List.range 8).flatMap fun g => [(Reg.HK_CAL_OFS_OFS g).key, (Reg.HK_CAL_GAIN_GAIN_F g).key]

theorem calResume_spec (d : Dev) (was : Bool) : HkStep phaseKeys d (d.calResume was) ∧ (d.calResume was).hk.cfg = d.hk.cfg := by
  unfold Dev.calResume
  split
  · exact ⟨(hkGo_spec d (by decide)).1, hkGo_cfg d _⟩
  · split
    · split
      · exact ⟨(hkGo_spec d (by decide)).1, hkGo_cfg d _⟩
      · exact ⟨hkDiscard_step d _, hkDiscard_cfg d _⟩
    · exact ⟨hkStart_step d, hkStart_cfg d⟩

theorem mem_calKeys {g : Nat} (h : g < 8) : (Reg.HK_CAL_OFS_OFS g).key ∈ calKeys ∧ (Reg.HK_CAL_GAIN_GAIN_F g).key ∈ calKeys :=
  ⟨List.mem_flatMap.2 ⟨g, List.mem_range.2 h, by simp⟩, List.mem_flatMap.2 ⟨g, List.mem_range.2 h, by simp⟩⟩

theorem calTake_step (d : Dev) {p : (Int × Int) × Nat} (h : p.2 < 8) : HkStep calKeys d (d.calTake p) := by
  obtain ⟨hofs, hgain⟩ := mem_calKeys h
  exact ((HkStep.set d _ hofs).trans (.set _ _ hgain)).trans (.setHk _ _)

/-- The settings in force of each gain after one gain's factors are taken. -/
theorem calTake_cfg (d : Dev) (p : (Int × Int) × Nat) (g : Nat) :
    (d.calTake p).hkCfg (0xB040 + 8 * g) = (if g = p.2 then ofSigned 24 p.1.1 % 2 ^ 32 else d.hkCfg (0xB040 + 8 * g))
    ∧ (d.calTake p).hkCfg (0xB044 + 8 * g) = if g = p.2 then ((hkGainF p.1).getD 0).toNat % 2 ^ 32 else d.hkCfg (0xB044 + 8 * g) := by
  have hcfg : (d.calTake p).hk.cfg = putT (0xB044 + 8 * p.2) (((hkGainF p.1).getD 0).toNat % 2 ^ 32) (putT (0xB040 + 8 * p.2) (ofSigned 24 p.1.1 % 2 ^ 32) d.hk.cfg) := rfl
  constructor
  · rw [Dev.hkCfg, hcfg, getT_putT_ne _ (by omega)]
    split
    next h => rw [h, getT_putT_same]
    next h => exact getT_putT_ne _ (by omega) _ _
  · rw [Dev.hkCfg, hcfg]
    split
    next h => rw [h, getT_putT_same]
    next h =>
      rw [getT_putT_ne _ (by omega)]
      exact getT_putT_ne _ (by omega) _ _

/-- Of several gains each that is taken has the factors of its own means, and the others keep theirs. -/
theorem calTakes_spec (m : Nat → Int × Int) {l : List ((Int × Int) × Nat)} (hm : ∀ p ∈ l, p.1 = m p.2) (hlt : ∀ p ∈ l, p.2 < 8) (d : Dev) :
    HkStep calKeys d (l.foldl Dev.calTake d) ∧ ∀ g : Nat,
      (l.foldl Dev.calTake d).hkCfg (0xB040 + 8 * g) = (if g ∈ l.map Prod.snd then ofSigned 24 (m g).1 % 2 ^ 32 else d.hkCfg (0xB040 + 8 * g))
      ∧ (l.foldl Dev.calTake d).hkCfg (0xB044 + 8 * g)
          = if g ∈ l.map Prod.snd then ((hkGainF (m g)).getD 0).toNat % 2 ^ 32 else d.hkCfg (0xB044 + 8 * g) := by
  induction l generalizing d with
  | nil => exact ⟨HkStep.refl d, fun g => ⟨rfl, rfl⟩⟩
  | cons p l ih =>
    obtain ⟨hstep, hcfg⟩ := ih (fun q hq => hm q (.tail _ hq)) (fun q hq => hlt q (.tail _ hq)) (d.calTake p)
    refine ⟨(calTake_step d (hlt p (.head _))).trans hstep, fun g => ?_⟩
    obtain ⟨hofs, hgain⟩ := hcfg g
    obtain ⟨hofs1, hgain1⟩ := calTake_cfg d p g
    have hp := hm p (.head _)
    rw [List.foldl_cons, hofs, hgain, hofs1, hgain1, List.map_cons]
    by_cases hg : g ∈ l.map Prod.snd
    · rw [if_pos hg, if_pos hg, if_pos (.tail _ hg), if_pos (.tail _ hg)]
      exact ⟨rfl, rfl⟩
    · rw [if_neg hg, if_neg hg]
      by_cases hgp : g = p.2
      · rw [if_pos hgp, if_pos hgp, if_pos (hgp ▸ .head _), if_pos (hgp ▸ .head _), hp, hgp]
        exact ⟨rfl, rfl⟩
      · have hnone : g ∉ p.2 :: l.map Prod.snd := by simp [hgp] at hg ⊢; exact hg
        rw [if_neg hgp, if_neg hgp, if_neg hnone, if_neg hnone]
        exact ⟨rfl, rfl⟩

/-- The factors shown are fields set to the settings in force. -/
theorem calShows_eq (l : List Nat) (d : Dev) :
    l.foldl Dev.calShow d = d.setAll (l.flatMap fun g =>
      [(Reg.HK_CAL_OFS_OFS g, d.hkF (Reg.HK_CAL_OFS_OFS g)), (Reg.HK_CAL_GAIN_GAIN_F g, d.hkF (Reg.HK_CAL_GAIN_GAIN_F g))]) := by
  induction l generalizing d with
  | nil => rfl
  | cons g l ih => exact ih (d.calShow g)

/-- The fields shown. -/
def calFields : List Fld := (rangeFrom 0 8).flatMap fun g => [Reg.HK_CAL_OFS_OFS g, Reg.HK_CAL_GAIN_GAIN_F g]

theorem calFields_distinct : calFields.Pairwise fun a b => a.key ≠ b.key := by decide +kernel

theorem calFields_keys : calFields.map Fld.key = calKeys := by decide +kernel

theorem calShows_fields (d : Dev) : ((rangeFrom 0 8).flatMap fun g =>
      [(Reg.HK_CAL_OFS_OFS g, d.hkF (Reg.HK_CAL_OFS_OFS g)), (Reg.HK_CAL_GAIN_GAIN_F g, d.hkF (Reg.HK_CAL_GAIN_GAIN_F g))])
    = calFields.map fun f => (f, d.hkF f) := by
  rw [calFields, List.map_flatMap]
  rfl

theorem mem_calFields {g : Nat} (h : g < 8) : Reg.HK_CAL_OFS_OFS g ∈ calFields ∧ Reg.HK_CAL_GAIN_GAIN_F g ∈ calFields := by
  have hg : g ∈ rangeFrom 0 8 := by simpa [rangeFrom] using h
  exact ⟨List.mem_flatMap.2 ⟨g, hg, by simp⟩, List.mem_flatMap.2 ⟨g, hg, by simp⟩⟩

theorem calShows_spec (d : Dev) :
    (let t := (rangeFrom 0 8).foldl Dev.calShow d
     HkStep calKeys d t ∧ t.hk = d.hk ∧ ∀ g : Nat, g < 8 → t.get (Reg.HK_CAL_OFS_OFS g) = d.hkF (Reg.HK_CAL_OFS_OFS g)
      ∧ t.get (Reg.HK_CAL_GAIN_GAIN_F g) = d.hkF (Reg.HK_CAL_GAIN_GAIN_F g)) := by
  have hframe := setAll_regs d (calFields.map fun f => (f, d.hkF f))
  have hfst : (calFields.map fun f => (f, d.hkF f)).map Prod.fst = calFields := by
    rw [List.map_map]
    exact List.map_id _
  have hkeys : (calFields.map fun f => (f, d.hkF f)).map (fun p => p.1.key) = calKeys := by
    rw [List.map_map, ← calFields_keys]
    rfl
  have hget {f : Fld} (hf : f ∈ calFields) : (d.setAll (calFields.map fun f => (f, d.hkF f))).get f = d.hkF f :=
    (get_setAll_of_mem hfst calFields_distinct (List.mem_map_of_mem hf)).trans (Nat.mod_mod _ _ : d.hkF f % 2 ^ f.width = d.hkF f)
  have hkeep : RegsKeepAll calKeys d (d.setAll (calFields.map fun f => (f, d.hkF f))) := regsKeepAll_setAll hkeys
  rw [calShows_eq, calShows_fields]
  generalize d.setAll (calFields.map fun f => (f, d.hkF f)) = e at hframe hget hkeep ⊢
  have hhk : e.hk = d.hk := by rw [hframe]
  refine ⟨⟨?_, hkeep⟩, hhk, fun g hg => ?_⟩
  · rw [hhk]
    exact hframe
  · obtain ⟨hofs, hgain⟩ := mem_calFields hg
    exact ⟨hget hofs, hget hgain⟩

/-- The factors that pass are taken, and all are shown. -/
def Dev.calShown (d : Dev) (ms : List (Int × Int)) : Dev :=
  (rangeFrom 0 8).foldl Dev.calShow ((ms.zipIdx.filter fun p => hkFactorsOk p.1).foldl Dev.calTake d)

/-- Nothing waits any more for the conversion boundary. -/
def Dev.calKept (d : Dev) : Dev := ({ d with hk := { d.hk with atConv := [] } } : Dev).hkPut []

/-- The calibration is done and valid. -/
def Dev.calValid (d : Dev) : Dev := (d.setB Reg.HK_STATUS_CAL_DONE true).setB Reg.HK_STATUS_CAL_VALID true

/-- A self-calibration that ends: the factors that pass are taken and all shown, the event tells it, and conversions resume. -/
theorem hkCalDone_eq {d : Dev} {ms : List (Int × Int)} (hup : d.up = true) (hphase : d.hkPhase = 6) (hlen : ms.length = 8) (hwait : d.hk.atConv = [])
    (hover : 1000 * d.hk.since + 144 * 256 * 977 < 1000 * d.pw.frames + 1000) :
    ∃ (was : Bool) (failed : Nat), d.hkCalDone ms = ((d.calShown ms).calKept.calValid.raise 10 2 [failed]).calResume was := by
  have hover' : d.hkOver calNs = true := decide_eq_true hover
  have hgo : ¬ ((!d.hkRuns || d.hkPhase != 6 || ms.length != 8 || !d.hkOver calNs) = true) := by
    simp [Dev.hkRuns, hup, hphase, hlen, hover']
  unfold Dev.hkCalDone
  rw [if_neg hgo, hwait]
  extract_lets good failed rest d1 d2 was waiting d3 d4
  have hshown : d2 = d.calShown ms := rfl
  have hkept : d3 = d2.calKept := rfl
  have hvalid : d4 = d3.calValid.raise 10 2 [failed] := rfl
  clear_value d4
  refine ⟨was, failed, ?_⟩
  rw [← hshown, ← hkept, ← hvalid]
  rfl

/-- The factors that are taken fit their fields (R460). -/
theorem hkFactorsOk_some {m : Int × Int} (h : hkFactorsOk m = true) :
    m.1.natAbs ≤ 131072 ∧ ∃ f : Int, hkGainF m = some f ∧ 20 * (f - 4194304).natAbs ≤ 4194304 := by
  unfold hkFactorsOk at h
  split at h
  next => cases h
  next f hf =>
    rw [Bool.and_eq_true, decide_eq_true_eq, decide_eq_true_eq] at h
    obtain ⟨hofs, hgain⟩ := h
    exact ⟨hofs, f, hf, hgain⟩

theorem toSigned_ofSigned {i : Int} (h : i.natAbs ≤ 131072) : toSigned 24 (bits (ofSigned 24 i % 2 ^ 32) 0 24) = i := by
  rw [toSigned, bits, ofSigned]
  split <;> omega

theorem bits_gain {f : Int} (h : 20 * (f - 4194304).natAbs ≤ 4194304) : bits (f.toNat % 2 ^ 32) 0 24 = f.toNat := by
  rw [bits]
  omega

/-- The gains whose factors pass, among the eight. -/
theorem mem_passing {ms : List (Int × Int)} (hlen : ms.length = 8) {g : Nat} (hg : g < 8) :
    g ∈ (ms.zipIdx.filter fun p => hkFactorsOk p.1).map Prod.snd ↔ hkFactorsOk (ms.getD g (0, 0)) = true := by
  have hat : ms[g]? = some (ms.getD g (0, 0)) := by
    rw [List.getD_eq_getElem?_getD, List.getElem?_eq_getElem (by omega)]
    rfl
  constructor
  · intro h
    obtain ⟨⟨m, j⟩, hp, rfl⟩ := List.mem_map.1 h
    obtain ⟨hmem, hok⟩ := List.mem_filter.1 hp
    have hm : ms[j]? = some m := List.mem_zipIdx_iff_getElem?.1 hmem
    rw [hat, Option.some.injEq] at hm
    rw [hm]
    exact hok
  · exact fun h => List.mem_map.2 ⟨(ms.getD g (0, 0), g), List.mem_filter.2 ⟨List.mem_zipIdx_iff_getElem?.2 hat, h⟩, rfl⟩

/-- What is shown and in force after the factors that pass are taken. -/
theorem calShown_spec (d : Dev) {ms : List (Int × Int)} (hlen : ms.length = 8) :
    HkStep calKeys d (d.calShown ms) ∧ ∀ g : Nat, g < 8 →
      (d.calShown ms).get (Reg.HK_CAL_OFS_OFS g) = (d.calShown ms).hkF (Reg.HK_CAL_OFS_OFS g)
      ∧ (d.calShown ms).get (Reg.HK_CAL_GAIN_GAIN_F g) = (d.calShown ms).hkF (Reg.HK_CAL_GAIN_GAIN_F g)
      ∧ (hkFactorsOk (ms.getD g (0, 0)) = true → (d.calShown ms).hkI (Reg.HK_CAL_OFS_OFS g) = (ms.getD g (0, 0)).1
          ∧ (hkGainF (ms.getD g (0, 0))).map Int.toNat = some ((d.calShown ms).hkF (Reg.HK_CAL_GAIN_GAIN_F g)))
      ∧ (hkFactorsOk (ms.getD g (0, 0)) = false → (d.calShown ms).hkF (Reg.HK_CAL_OFS_OFS g) = d.hkF (Reg.HK_CAL_OFS_OFS g)
          ∧ (d.calShown ms).hkF (Reg.HK_CAL_GAIN_GAIN_F g) = d.hkF (Reg.HK_CAL_GAIN_GAIN_F g)) := by
  have hat {p : (Int × Int) × Nat} (hp : p ∈ ms.zipIdx.filter fun p => hkFactorsOk p.1) : ms[p.2]? = some p.1 :=
    List.mem_zipIdx_iff_getElem?.1 (List.mem_filter.1 hp).1
  obtain ⟨htake, hcfg⟩ := calTakes_spec (fun g => ms.getD g (0, 0)) (l := ms.zipIdx.filter fun p => hkFactorsOk p.1)
    (fun p hp => by rw [List.getD_eq_getElem?_getD, hat hp]; rfl)
    (fun p hp => by obtain ⟨hlt, -⟩ := List.getElem?_eq_some_iff.1 (hat hp); omega) d
  obtain ⟨hshow, hhk, hget⟩ := calShows_spec ((ms.zipIdx.filter fun p => hkFactorsOk p.1).foldl Dev.calTake d)
  have hf (f : Fld) : (d.calShown ms).hkF f = ((ms.zipIdx.filter fun p => hkFactorsOk p.1).foldl Dev.calTake d).hkF f := hkF_congr (congrArg Hk.cfg hhk) f
  refine ⟨htake.trans hshow, fun g hg => ?_⟩
  obtain ⟨hofs, hgain⟩ := hcfg g
  obtain ⟨hgetO, hgetG⟩ := hget g hg
  rw [Dev.hkI, hf, hf]
  refine ⟨hgetO, hgetG, fun hok => ?_, fun hbad => ?_⟩
  · obtain ⟨hsmall, f, hsome, hband⟩ := hkFactorsOk_some hok
    rw [if_pos ((mem_passing hlen hg).2 hok)] at hofs hgain
    constructor
    · show toSigned 24 (bits (Dev.hkCfg _ (0xB040 + 8 * g)) 0 24) = _
      rw [hofs, toSigned_ofSigned hsmall]
    · show _ = some (bits (Dev.hkCfg _ (0xB044 + 8 * g)) 0 24)
      rw [hgain, hsome, Option.getD_some, bits_gain hband, Option.map_some]
  · have hnot := mt (mem_passing hlen hg).1 (by rw [hbad]; decide)
    rw [if_neg hnot] at hofs hgain
    exact ⟨congrArg (bits · 0 24) hofs, congrArg (bits · 0 24) hgain⟩

theorem exec_hkSelfcalDone (ms : List (Int × Int)) (s : State) : exec (.hkSelfcalDone ms) s = .next { s with dev := s.dev.hkCalDone ms } := rfl

/-- A step of the converter, an event, and a step again change what each of them may. -/
theorem hkStep_talks_hkStep {ks ls : List Nat} {a b c e : Dev} (h : HkStep ks a b) (ht : Talks b c) (k : HkStep ls c e) :
    e = { talked a e with hk := e.hk } ∧ RegsKeep (ls ++ ks) a e := by
  obtain ⟨htalk, hkeep⟩ := ht
  refine ⟨?_, fun f hf hcount => ?_⟩
  · have hframe := k.frame
    rw [htalk, h.frame] at hframe
    rw [hframe]
    rfl
  · rw [List.mem_append, not_or] at hf
    obtain ⟨hls, hks⟩ := hf
    rw [k.keeps f hls, hkeep f (by simp) hcount, h.keeps f hks]

/-- The factors are none of the registers that the converter or an event changes besides. -/
theorem calField_other {g : Nat} (hg : g < 8) {f : Fld} (hf : f = Reg.HK_CAL_OFS_OFS g ∨ f = Reg.HK_CAL_GAIN_GAIN_F g) :
    f.key ∉ phaseKeys ∧ f.key ∉ [Reg.HK_STATUS_CAL_DONE.key, Reg.HK_STATUS_CAL_VALID.key] ∧ ¬ countsTalk f.key := by
  have hmem : f ∈ calFields := by
    obtain ⟨hofs, hgain⟩ := mem_calFields hg
    rcases hf with rfl | rfl
    · exact hofs
    · exact hgain
  have hkeys : ∀ f ∈ calFields, f.key ∉ phaseKeys ∧ f.key ∉ [Reg.HK_STATUS_CAL_DONE.key, Reg.HK_STATUS_CAL_VALID.key] ∧ 0xB000 * 32 ≤ f.key
      ∧ f.key ∉ [Reg.HR_DROP_STATS_EVT_DROPPED.key, Reg.EGR_POOL_FREE_PAGES.key, Reg.EGR_POOL_LOW_WATER.key] := by decide +kernel
  obtain ⟨hphase, hvalid, hhigh, hcount⟩ := hkeys f hmem
  exact ⟨hphase, hvalid, notTalk (.inr (by omega)) (by simpa using hcount)⟩

theorem hkSelfcalDone_spec {ms : List (Int × Int)} {s : State} (hup : s.dev.up = true) (hphase : s.dev.hkPhase = 6) (hlen : ms.length = 8)
    (hwait : s.dev.hk.atConv = []) (hover : 1000 * s.dev.hk.since + 144 * 256 * 977 < 1000 * s.dev.pw.frames + 1000) :
    Answers (.hkSelfcalDone ms) s fun t =>
      t.dev.get Reg.HK_STATUS_CAL_DONE = 1 ∧ t.dev.get Reg.HK_STATUS_CAL_VALID = 1
      ∧ (∀ g : Nat, g < 8 → let m := ms.getD g (0, 0)
          (hkFactorsOk m = true → t.dev.hkI (Reg.HK_CAL_OFS_OFS g) = m.1
            ∧ (hkGainF m).map Int.toNat = some (t.dev.hkF (Reg.HK_CAL_GAIN_GAIN_F g)))
          ∧ (hkFactorsOk m = false → t.dev.hkF (Reg.HK_CAL_OFS_OFS g) = s.dev.hkF (Reg.HK_CAL_OFS_OFS g)
            ∧ t.dev.hkF (Reg.HK_CAL_GAIN_GAIN_F g) = s.dev.hkF (Reg.HK_CAL_GAIN_GAIN_F g))
          ∧ t.dev.get (Reg.HK_CAL_OFS_OFS g) = t.dev.hkF (Reg.HK_CAL_OFS_OFS g)
          ∧ t.dev.get (Reg.HK_CAL_GAIN_GAIN_F g) = t.dev.hkF (Reg.HK_CAL_GAIN_GAIN_F g))
      ∧ t = { s with dev := { talked s.dev t.dev with hk := t.dev.hk } }
      ∧ RegsKeep ([Reg.HK_STATUS_PHASE.key, Reg.HK_STATUS_EXC_ON.key, Reg.HK_STATUS_CAL_DONE.key, Reg.HK_STATUS_CAL_VALID.key]
          ++ (List.range 8).flatMap fun g => [(Reg.HK_CAL_OFS_OFS g).key, (Reg.HK_CAL_GAIN_GAIN_F g).key]) s.dev t.dev := by
  obtain ⟨was, failed, heq⟩ := hkCalDone_eq hup hphase hlen hwait hover
  obtain ⟨hshown, hfactors⟩ := calShown_spec s.dev hlen
  have hvalid : HkStep [Reg.HK_STATUS_CAL_DONE.key, Reg.HK_STATUS_CAL_VALID.key] (s.dev.calShown ms) (s.dev.calShown ms).calKept.calValid :=
    (((HkStep.setHk _ _).trans (.setHk _ _)).trans (.set _ _ (by decide))).trans (.set _ _ (by decide))
  have hcfg : (s.dev.calShown ms).calKept.calValid.hk.cfg = (s.dev.calShown ms).hk.cfg := rfl
  have hdone : (s.dev.calShown ms).calKept.calValid.get Reg.HK_STATUS_CAL_DONE = 1 := (Dev.get_set_ne _ (by decide) _).trans (Dev.get_set_same _ _ _)
  have hgood : (s.dev.calShown ms).calKept.calValid.get Reg.HK_STATUS_CAL_VALID = 1 := Dev.get_set_same _ _ _
  have hstep : HkStep ([Reg.HK_STATUS_CAL_DONE.key, Reg.HK_STATUS_CAL_VALID.key] ++ calKeys) s.dev (s.dev.calShown ms).calKept.calValid :=
    (hshown.mono fun _ => List.mem_append_right _).trans (hvalid.mono fun _ => List.mem_append_left _)
  have htalks := raise_talks (s.dev.calShown ms).calKept.calValid 10 2 [failed]
  have htalkHk := Dev.raise_hk (s.dev.calShown ms).calKept.calValid 10 2 [failed]
  obtain ⟨hresume, hresumeCfg⟩ := calResume_spec ((s.dev.calShown ms).calKept.calValid.raise 10 2 [failed]) was
  obtain ⟨hframe, hkeep⟩ := hkStep_talks_hkStep hstep htalks hresume
  rw [Answers, exec_hkSelfcalDone, heq]
  generalize s.dev.calShown ms = a at *
  generalize a.calKept.calValid = b at *
  generalize b.raise 10 2 [failed] = c at *
  generalize c.calResume was = e at *
  obtain ⟨-, htalkKeep⟩ := htalks
  have hf (f : Fld) : e.hkF f = a.hkF f := hkF_congr (by rw [hresumeCfg, htalkHk, hcfg]) f
  have hback {f : Fld} (h : f.key ∉ phaseKeys) (hcount : ¬ countsTalk f.key) : e.get f = b.get f :=
    (hresume.keeps f h).trans (htalkKeep f (by simp) hcount)
  refine ⟨_, rfl, ?_, ?_, fun g hg => ?_, congrArg (fun d => { s with dev := d }) hframe, hkeep⟩
  · exact (hback (by decide) (notTalk (.inr (by decide)) (by decide))).trans hdone
  · exact (hback (by decide) (notTalk (.inr (by decide)) (by decide))).trans hgood
  · obtain ⟨hgetO, hgetG, hpass, hfail⟩ := hfactors g hg
    obtain ⟨hO1, hO2, hO3⟩ := calField_other hg (.inl rfl)
    obtain ⟨hG1, hG2, hG3⟩ := calField_other hg (.inr rfl)
    have hi : e.hkI (Reg.HK_CAL_OFS_OFS g) = a.hkI (Reg.HK_CAL_OFS_OFS g) := congrArg (toSigned _) (hf _)
    dsimp only
    rw [hi, hf, hf, hback hO1 hO3, hback hG1 hG3, hvalid.keeps _ hO2, hvalid.keeps _ hG2]
    exact ⟨hpass, hfail, hgetO, hgetG⟩

/-- Settles O58: each row is one step of the converter, and each step is what its rule says of the phase, the settings and the counts. -/
theorem housekeeping : Obligations.Housekeeping := by
  refine ⟨fun src v s hp => hkEnable_spec hp, fun src s hp => ⟨fun hidle => ?_, fun hruns => ?_⟩, fun src v s hp => hkMonCfgWrite_spec hp,
    fun mp mn g now held => ⟨volts_ground now held, volts_tracking mp mn g now held, rfl⟩,
    fun raw a b c s hup hphase hdisc hwait hover hcal hburst => ?_, fun raw ovld refLow limit s hup hphase hwait hcal hburst hover => ?_,
    fun c s hup hblank h => threeDiscards_spec hup hblank h, fun s hup hphase hen hburst hover => nextBurst_spec hup hphase hen hburst hover,
    fun s hup hblank => hkblankAssert_spec hup hblank, hkblankRelease_spec,
    fun ms s hup hphase hlen hwait hover => hkSelfcalDone_spec hup hphase hlen hwait hover, fun s hup => ⟨fun hoff => ?_, fun hon => ?_⟩, fun s h => ?_⟩
  · rw [exec_hkSelfcal hp, hkSelfcal_taken hidle]
  · rw [Answers, exec_hkSelfcal hp, hkSelfcal_refused hruns]
    exact ⟨_, rfl, Dev.get_set_same _ _ _, rfl, regsKeepAll_set _ _ _⟩
  · obtain ⟨hhk, hgo, hblanked, hdiscarded, hframe, hkeep⟩ := discardOne_spec s.dev
    rw [Answers, exec_hkConversionEnd, hkConvEnd_discard hup hover hwait hcal hburst raw a b c hphase hdisc]
    exact ⟨_, rfl, hhk, hgo.trans hphase, hblanked, hdiscarded, congrArg (fun d => { s with dev := d }) hframe, hkeep⟩
  · exact keptConversion_answers hup hphase hwait hcal hburst hover
  · rw [exec_excLimit, excLimit_off hoff]
  · obtain ⟨hflag, hframe, hkeep⟩ := excLimit_on hup hon
    rw [Answers, exec_excLimit]
    exact ⟨_, rfl, hflag, congrArg (fun d => { s with dev := d }) hframe, hkeep⟩
  · obtain ⟨hfst, hsnd, hframe, hkeep⟩ := hkCapture_spec s.dev
    have hgo : (s.dev.up || s.dev.boot == .held) = true := by simpa using h
    rw [Answers, exec_hkResultCapture, hgo]
    exact ⟨_, rfl, hfst, hsnd, congrArg (fun d => { s with dev := d }) hframe, hkeep⟩

end Sys2Proof.Machine
end

section
/-! PROOF. A trip begins: its ledger entry, the records it writes off, what it abandons, and the first channel that goes dark. -/
namespace Sys2Proof.Machine
open Sys2Proof.Safety

/-! ### Folds -/

/-- What one element's step brings about and every step keeps holds after the fold. -/
theorem foldl_attains {α : Type} {P : Dev → Prop} {step : Dev → α → Dev} {l : List α} (hkeep : ∀ a ∈ l, ∀ d, P d → P (step d a)) {m : α}
    (hset : ∀ d, P (step d m)) (hm : m ∈ l) (d : Dev) : P (l.foldl step d) := by
  induction l generalizing d with
  | nil => cases hm
  | cons a l ih =>
    have hrest : ∀ b ∈ l, ∀ e, P e → P (step e b) := fun b hb => hkeep b (.tail _ hb)
    rcases List.mem_cons.1 hm with rfl | hm
    · exact List.foldlRecOn (motive := P) l step (hset d) fun e he b hb => hrest b hb e he
    · exact ih hrest hm (step d a)

/-- A relation that composes and that every step meets is met by the fold. -/
theorem foldl_step {α : Type} {R : Dev → Dev → Prop} {step : Dev → α → Dev} {l : List α} (hrefl : ∀ d, R d d)
    (htrans : ∀ {a b c}, R a b → R b c → R a c) (hstep : ∀ a ∈ l, ∀ d, R d (step d a)) (d : Dev) : R d (l.foldl step d) :=
  List.foldlRecOn (motive := R d) l step (hrefl d) fun e he a ha => htrans he (hstep a ha e)

/-! ### Records lost with a trip (R220, R497) -/

theorem lostKey_isSome (d : Dev) (c f : Nat) (s : Bool) :
    (d.lostKey c f s).isSome = true ↔ ∃ k ∈ d.rcd.lostKeys, k.1 = c ∧ k.2.1 = f ∧ k.2.2.1 = s := by
  rw [Dev.lostKey, Option.isSome_map, List.find?_isSome]
  simp [and_assoc]

theorem withhold_lostKeys (d : Dev) (fn : Nat) : (d.withhold fn).rcd.lostKeys = d.rcd.lostKeys := by
  unfold Dev.withhold
  split
  · rfl
  · split
    · rfl
    · split
      · rfl
      · split <;> rfl

theorem lose_lostKeys (d : Dev) (l : Loss) : (d.lose l).rcd.lostKeys = d.rcd.lostKeys := by
  unfold Dev.lose
  split
  · rfl
  · split
    · rfl
    · split
      · rfl
      · split
        · rfl
        · exact withhold_lostKeys d _

/-- A loss of its channel, frame and kind entered in the list of those known. -/
def Dev.knowLoss (d : Dev) (chan fn : Nat) (stream : Bool) (p : Nat × Nat) : Dev :=
  { d with rcd := { d.rcd with
      lostKeys := (chan, fn, stream, p) :: d.rcd.lostKeys.filter fun k => !(k.1 == chan && k.2.1 == fn && k.2.2.1 == stream) } }

theorem knowLoss_lostKey (d : Dev) (chan fn : Nat) (stream : Bool) (p : Nat × Nat) :
    ((d.knowLoss chan fn stream p).lostKey chan fn stream).isSome = true
    ∧ ∀ c f s, (d.lostKey c f s).isSome = true → ((d.knowLoss chan fn stream p).lostKey c f s).isSome = true := by
  refine ⟨(lostKey_isSome ..).2 ⟨(chan, fn, stream, p), .head _, rfl, rfl, rfl⟩, fun c f s h => (lostKey_isSome ..).2 ?_⟩
  obtain ⟨k, hk, rfl, rfl, rfl⟩ := (lostKey_isSome d c f s).1 h
  by_cases hown : k.1 = chan ∧ k.2.1 = fn ∧ k.2.2.1 = stream
  · obtain ⟨rfl, rfl, rfl⟩ := hown
    exact ⟨_, .head _, rfl, rfl, rfl⟩
  · refine ⟨k, .tail _ (List.mem_filter.2 ⟨hk, ?_⟩), rfl, rfl, rfl⟩
    rw [Bool.not_eq_true', ← Bool.not_eq_true]
    simpa [and_assoc] using hown

/-- A loss of the device's own is entered, unless one is known already. -/
theorem loseOwn_cases (d : Dev) (chan fn reason seq : Nat) (stream : Bool) :
    ∃ e : Dev, e.rcd.lostKeys = d.rcd.lostKeys ∧ ((∃ p, d.loseOwn chan fn reason seq stream = e.knowLoss chan fn stream p)
      ∨ d.loseOwn chan fn reason seq stream = e ∧ (e.lostKey chan fn stream).isSome = true) := by
  unfold Dev.loseOwn
  dsimp only
  generalize (d.lostReason chan fn seq stream).getD reason = why
  refine ⟨d.lose (d.ownLoss chan fn why seq 1 stream), lose_lostKeys d _, ?_⟩
  generalize d.lose (d.ownLoss chan fn why seq 1 stream) = e
  cases hkey : e.lostKey chan fn stream with
  | none => exact .inl ⟨(why, seq), rfl⟩
  | some k =>
    by_cases hfirst : seqAfter k.2 seq = true
    · exact .inl ⟨(why, seq), if_pos hfirst⟩
    · exact .inr ⟨if_neg hfirst, rfl⟩

/-- A loss is known from then on, and so are those known before. -/
theorem loseOwn_lostKey (d : Dev) (chan fn reason seq : Nat) (stream : Bool) :
    ((d.loseOwn chan fn reason seq stream).lostKey chan fn stream).isSome = true
    ∧ ∀ c f s, (d.lostKey c f s).isSome = true → ((d.loseOwn chan fn reason seq stream).lostKey c f s).isSome = true := by
  obtain ⟨e, hkeys, h⟩ := loseOwn_cases d chan fn reason seq stream
  have hsame (c f : Nat) (s : Bool) : e.lostKey c f s = d.lostKey c f s := by rw [Dev.lostKey, Dev.lostKey, hkeys]
  rcases h with ⟨p, h⟩ | ⟨h, hknown⟩
  · obtain ⟨hnew, hold⟩ := knowLoss_lostKey e chan fn stream p
    rw [h]
    exact ⟨hnew, fun c f s hl => hold c f s ((hsame c f s).symm ▸ hl)⟩
  · rw [h]
    exact ⟨hknown, fun c f s hl => (hsame c f s).symm ▸ hl⟩

def CapsOff (d : Dev) (n : Nat) : Prop := ∀ k ∈ (d.chan n).caps, k.stage = 2

def StreamOff (d : Dev) (k : Nat) : Prop := d.get (Reg.TRG_STREAM_CFG_ENABLE k) = 0 ∧ d.eff (Reg.TRG_STREAM_CFG_ENABLE k) = 0

def tripRecKeys : List Nat := lossKeys ++ (List.range 4).map fun k => (Reg.TRG_STREAM_CFG_ENABLE k).key

/-- What writing off records changes, and what of it goes only one way: losses become known, captures and streams end. -/
structure TripLoss (d t : Dev) : Prop where
  work : t = { d with regs := t.regs, force := t.force, rcd := t.rcd, acq := t.acq }
  regs : RegsKeepAll tripRecKeys d t
  asm : t.rcd.asm = d.rcd.asm
  ready : t.rcd.ready = d.rcd.ready
  lost : ∀ c f s, (d.lostKey c f s).isSome = true → (t.lostKey c f s).isSome = true
  caps : ∀ n, CapsOff d n → CapsOff t n
  streams : ∀ k < 4, StreamOff d k → StreamOff t k

theorem TripLoss.refl (d : Dev) : TripLoss d d := ⟨rfl, fun _ _ => rfl, rfl, rfl, fun _ _ _ h => h, fun _ h => h, fun _ _ h => h⟩

theorem TripLoss.trans {a b c : Dev} (h : TripLoss a b) (k : TripLoss b c) : TripLoss a c where
  work := by
    have hwork := k.work
    rw [h.work] at hwork
    exact hwork
  regs := regsKeepAll_trans h.regs k.regs
  asm := k.asm.trans h.asm
  ready := k.ready.trans h.ready
  lost c f s hl := k.lost c f s (h.lost c f s hl)
  caps n hn := k.caps n (h.caps n hn)
  streams j hj hs := k.streams j hj (h.streams j hj hs)

theorem TripLoss.foldl {α : Type} {step : Dev → α → Dev} {l : List α} (h : ∀ a ∈ l, ∀ d, TripLoss d (step d a)) (d : Dev) :
    TripLoss d (l.foldl step d) := foldl_step TripLoss.refl TripLoss.trans h d

theorem streamEnable_free : ∀ k < 4, (Reg.TRG_STREAM_CFG_ENABLE k).key ∉ lossKeys := by decide +kernel

theorem TripLoss.of_lost {d t : Dev} (h : LossKept d t) (hlost : ∀ c f s, (d.lostKey c f s).isSome = true → (t.lostKey c f s).isSome = true) :
    TripLoss d t where
  work := by rw [h.work]
  regs := regsKeepAll_mono h.regs fun _ => List.mem_append_left _
  asm := h.asm
  ready := h.ready
  lost := hlost
  caps n hn := by
    have hchan : t.chan n = d.chan n := by rw [h.work]; rfl
    rw [CapsOff, hchan]
    exact hn
  streams k hk hs := by
    obtain ⟨hget, heff⟩ := hs
    have hforce : t.force = d.force := by rw [h.work]
    exact ⟨(h.regs _ (streamEnable_free k hk)).trans hget, (eff_eq_of_force rfl hforce).trans heff⟩

theorem TripLoss.loseOwn (d : Dev) (chan fn reason seq : Nat) (stream : Bool) : TripLoss d (d.loseOwn chan fn reason seq stream) :=
  .of_lost (loseOwn_kept d ..) (loseOwn_lostKey d ..).2

theorem TripLoss.withAcq (d : Dev) (x : Acq) (h : x.chans = d.acq.chans) : TripLoss d { d with acq := x } := by
  refine ⟨rfl, fun _ _ => rfl, rfl, rfl, fun _ _ _ hl => hl, fun n hn => ?_, fun _ _ hs => hs⟩
  have hchan : ({ d with acq := x } : Dev).chan n = d.chan n := by rw [Dev.chan, Dev.chan, h]
  rw [CapsOff, hchan]
  exact hn

/-- A record of the next SEQ number lost, where the device records its frame. -/
theorem TripLoss.loseNext (d : Dev) (k chan fn : Nat) (stream : Bool) :
    TripLoss d (if !d.recording fn then d else (d.nextSeq k).2.loseOwn chan fn 7 ((d.nextSeq k).1 % 65536) stream) := by
  split
  · exact .refl d
  · exact (TripLoss.mk rfl (fun _ _ => rfl) rfl rfl (fun _ _ _ h => h) (fun _ h => h) (fun _ _ h => h) : TripLoss d (d.nextSeq k).2).trans (.loseOwn ..)

def Cap.offAt (x : Int) (y : Cap) : Cap := if y.x = x then { y with stage := 2, off := true } else y

def Dev.markCap (d : Dev) (n : Nat) (x : Int) : Dev := d.updChan n fun c => { c with caps := c.caps.map (Cap.offAt x) }

theorem offAt_stage (x : Int) (y : Cap) : (y.offAt x).stage = 2 ∨ y.offAt x = y ∧ y.x ≠ x := by
  unfold Cap.offAt
  split
  · exact .inl rfl
  next h => exact .inr ⟨rfl, h⟩

theorem TripLoss.markCap (d : Dev) (n : Nat) (x : Int) : TripLoss d (d.markCap n x) := by
  refine ⟨rfl, fun _ _ => rfl, rfl, rfl, fun _ _ _ hl => hl, fun m hm k hk => ?_, fun _ _ hs => hs⟩
  rw [Dev.markCap, Dev.updChan_eq, Dev.chan_setChan] at hk
  split at hk
  next hmn =>
    obtain ⟨y, hy, rfl⟩ := List.mem_map.1 hk
    rcases offAt_stage x y with h | ⟨h, -⟩
    · exact h
    · rw [h]
      exact hm y (hmn ▸ hy)
  next => exact hm k hk

/-- One capture written off, with its record where there is to be one. -/
def Dev.writeOffCap (n : Nat) (d : Dev) (k : Cap) : Dev :=
  if !(d.markCap n k.x).recording k.fn then d.markCap n k.x
  else ((d.markCap n k.x).nextSeq n).2.loseOwn n k.fn 7 (((d.markCap n k.x).nextSeq n).1 % 65536) false

def Dev.writeOffChan (d : Dev) (n : Nat) : Dev := ((d.chan n).caps.filter fun k => k.stage != 2).foldl (Dev.writeOffCap n) d

def Dev.writeOffJob (k : Nat) (d : Dev) (j : Job) : Dev :=
  if !d.recording j.fn then d else (d.nextSeq (100 + k)).2.loseOwn j.chan j.fn 7 ((d.nextSeq (100 + k)).1 % 65536) true

/-- A stream stops, and its records under way are written off. -/
def Dev.writeOffSlot (d : Dev) (k : Nat) : Dev :=
  (d.slot k).jobs.foldl (Dev.writeOffJob k) ((if (d.slot k).jobs.isEmpty then d else d.setSlot k Slot.init).setBoth (Reg.TRG_STREAM_CFG_ENABLE k) 0)

def Dev.writeOffAsm (d : Dev) (a : Asm) : Dev := d.loseOwn a.chan a.fn 7 a.seq (a.typ == 2)

def Dev.dropOpen (d : Dev) : Dev := { d with rcd := { d.rcd with asm := [], ready := [] } }

theorem tripRecords_eq (d : Dev) :
    d.tripRecords = (List.range 4).foldl Dev.writeOffSlot
      ((((List.range 48).foldl Dev.writeOffChan d).rcd.asm ++ ((List.range 48).foldl Dev.writeOffChan d).rcd.ready).foldl Dev.writeOffAsm
        ((List.range 48).foldl Dev.writeOffChan d).dropOpen) := by
  unfold Dev.tripRecords Dev.writeOffSlot Dev.writeOffChan Dev.writeOffJob Dev.writeOffAsm Dev.dropOpen Dev.writeOffCap Dev.markCap Cap.offAt
  dsimp only

theorem writeOffCap_step (n : Nat) (d : Dev) (k : Cap) : TripLoss d (d.writeOffCap n k) :=
  (TripLoss.markCap d n k.x).trans (.loseNext _ n n k.fn false)

theorem writeOffChan_step (d : Dev) (n : Nat) : TripLoss d (d.writeOffChan n) := .foldl (fun k _ d => writeOffCap_step n d k) d

theorem writeOffCap_chan (n : Nat) (d : Dev) (k : Cap) : (d.writeOffCap n k).chan n = (d.markCap n k.x).chan n := by
  unfold Dev.writeOffCap
  split
  · rfl
  · have hwork := (loseOwn_kept ((d.markCap n k.x).nextSeq n).2 n k.fn 7 (((d.markCap n k.x).nextSeq n).1 % 65536) false).work
    rw [hwork]
    rfl

/-- Of captures written off one after another each is off, unless none of them has its place. -/
theorem writeOffCaps_caps (n : Nat) (l : List Cap) (d : Dev) :
    ∀ y ∈ ((l.foldl (Dev.writeOffCap n) d).chan n).caps, y.stage = 2 ∨ y ∈ (d.chan n).caps ∧ ∀ k ∈ l, y.x ≠ k.x := by
  induction l generalizing d with
  | nil => exact fun y hy => .inr ⟨hy, by simp⟩
  | cons k l ih =>
    intro y hy
    rcases ih (d.writeOffCap n k) y hy with h | ⟨hmem, hne⟩
    · exact .inl h
    · rw [writeOffCap_chan, Dev.markCap, Dev.updChan_eq, Dev.chan_setChan_same] at hmem
      obtain ⟨z, hz, rfl⟩ := List.mem_map.1 hmem
      rcases offAt_stage k.x z with h | ⟨h, hx⟩
      · exact .inl h
      · rw [h] at hne ⊢
        exact .inr ⟨hz, fun j hj => (List.mem_cons.1 hj).elim (fun e => e ▸ hx) (hne j)⟩

theorem writeOffChan_caps (d : Dev) (n : Nat) : CapsOff (d.writeOffChan n) n := by
  intro y hy
  rcases writeOffCaps_caps n _ d y hy with h | ⟨hmem, hne⟩
  · exact h
  · by_contra hstage
    exact hne y (List.mem_filter.2 ⟨hmem, by simpa using hstage⟩) rfl

theorem writeOffAsm_step (d : Dev) (a : Asm) : TripLoss d (d.writeOffAsm a) := .loseOwn ..

theorem streamEnable_mem : ∀ k < 4, (Reg.TRG_STREAM_CFG_ENABLE k).key ∈ tripRecKeys := by decide +kernel

/-- A stream's ENABLE cleared as read and in force: it is off, and no other stream comes on. -/
theorem TripLoss.streamOff (d : Dev) {k : Nat} (hk : k < 4) :
    TripLoss d (d.setBoth (Reg.TRG_STREAM_CFG_ENABLE k) 0) ∧ StreamOff (d.setBoth (Reg.TRG_STREAM_CFG_ENABLE k) 0) k := by
  have hget : (d.setBoth (Reg.TRG_STREAM_CFG_ENABLE k) 0).get (Reg.TRG_STREAM_CFG_ENABLE k) = 0 := Dev.get_set_same d _ _
  have heff : (d.setBoth (Reg.TRG_STREAM_CFG_ENABLE k) 0).eff (Reg.TRG_STREAM_CFG_ENABLE k) = 0 := by
    rw [eff_of_sync rfl]
    exact getT_putT_same _ _ _ _
  refine ⟨⟨rfl, regsKeepAll_set_of_mem (d := d) (streamEnable_mem k hk), rfl, rfl, fun _ _ _ h => h, fun _ h => h, fun j _ hs => ?_⟩, hget, heff⟩
  by_cases hjk : j = k
  · subst hjk
    exact ⟨hget, heff⟩
  · obtain ⟨hg, he⟩ := hs
    have hne : (Reg.TRG_STREAM_CFG_ENABLE j).key ≠ (Reg.TRG_STREAM_CFG_ENABLE k).key := by
      simp only [Fld.key, Reg.TRG_STREAM_CFG_ENABLE]
      omega
    refine ⟨(Dev.get_set_ne d hne _).trans hg, ?_⟩
    rw [eff_of_sync rfl] at he ⊢
    exact (getT_putT_ne _ hne _ _).trans he

theorem writeOffSlot_step (d : Dev) {k : Nat} (hk : k < 4) : TripLoss d (d.writeOffSlot k) ∧ StreamOff (d.writeOffSlot k) k := by
  have hslot : TripLoss d (if (d.slot k).jobs.isEmpty then d else d.setSlot k Slot.init) := by
    split
    · exact .refl d
    · exact .withAcq d _ rfl
  obtain ⟨hset, hoff⟩ := TripLoss.streamOff (if (d.slot k).jobs.isEmpty then d else d.setSlot k Slot.init) hk
  have hjobs := TripLoss.foldl (l := (d.slot k).jobs) (step := Dev.writeOffJob k) (fun j _ d => .loseNext d (100 + k) j.chan j.fn true)
    ((if (d.slot k).jobs.isEmpty then d else d.setSlot k Slot.init).setBoth (Reg.TRG_STREAM_CFG_ENABLE k) 0)
  exact ⟨(hslot.trans hset).trans hjobs, hjobs.streams k hk hoff⟩

/-- What a trip writes off: open records and records that wait are gone and known as lost, captures are off, streams are disabled. -/
theorem tripRecords_spec (d : Dev) :
    (let t := d.tripRecords
     t = { d with regs := t.regs, force := t.force, rcd := t.rcd, acq := t.acq } ∧ RegsKeepAll tripRecKeys d t
      ∧ t.rcd.asm = [] ∧ t.rcd.ready = [] ∧ (∀ n < 48, CapsOff t n) ∧ (∀ k < 4, StreamOff t k)
      ∧ ∀ a ∈ d.rcd.asm ++ d.rcd.ready, (t.lostKey a.chan a.fn (a.typ == 2)).isSome = true) := by
  rw [tripRecords_eq]
  have hcaps : TripLoss d ((List.range 48).foldl Dev.writeOffChan d) := .foldl (fun n _ d => writeOffChan_step d n) d
  have hoff (n : Nat) (hn : n < 48) : CapsOff ((List.range 48).foldl Dev.writeOffChan d) n :=
    foldl_attains (fun m _ e he => (writeOffChan_step e m).caps n he) (fun e => writeOffChan_caps e n) (List.mem_range.2 hn) d
  generalize (List.range 48).foldl Dev.writeOffChan d = e at hcaps hoff ⊢
  have hopen : TripLoss e.dropOpen ((e.rcd.asm ++ e.rcd.ready).foldl Dev.writeOffAsm e.dropOpen) := .foldl (fun a _ d => writeOffAsm_step d a) _
  have hlost (a : Asm) (ha : a ∈ e.rcd.asm ++ e.rcd.ready) :
      (((e.rcd.asm ++ e.rcd.ready).foldl Dev.writeOffAsm e.dropOpen).lostKey a.chan a.fn (a.typ == 2)).isSome = true :=
    foldl_attains (P := fun d => (d.lostKey a.chan a.fn (a.typ == 2)).isSome = true) (fun b _ x hx => (writeOffAsm_step x b).lost _ _ _ hx)
      (fun x => (loseOwn_lostKey x a.chan a.fn 7 a.seq (a.typ == 2)).1) ha _
  rw [hcaps.asm, hcaps.ready] at hopen hlost ⊢
  generalize (d.rcd.asm ++ d.rcd.ready).foldl Dev.writeOffAsm e.dropOpen = x at hopen hlost ⊢
  have hslots : TripLoss x ((List.range 4).foldl Dev.writeOffSlot x) := .foldl (fun k hk d => (writeOffSlot_step d (List.mem_range.1 hk)).1) x
  have hstreams (k : Nat) (hk : k < 4) : StreamOff ((List.range 4).foldl Dev.writeOffSlot x) k :=
    foldl_attains (fun j hj y hy => (writeOffSlot_step y (List.mem_range.1 hj)).1.streams k hk hy) (fun y => (writeOffSlot_step y hk).2)
      (List.mem_range.2 hk) x
  generalize (List.range 4).foldl Dev.writeOffSlot x = t at hslots hstreams ⊢
  have hall := hopen.trans hslots
  refine ⟨?_, regsKeepAll_trans hcaps.regs hall.regs, hall.asm, hall.ready, fun n hn => hall.caps n (hoff n hn), hstreams,
    fun a ha => hslots.lost _ _ _ (hlost a ha)⟩
  have hwork := hall.work
  rw [Dev.dropOpen, hcaps.work] at hwork
  exact hwork

/-! ### What a trip abandons, and the channel that goes dark (R497) -/

/-- Nothing changes but acquisition and the registers at `ks`, and captures that are off stay off. -/
structure TripAcq (ks : List Nat) (d t : Dev) : Prop where
  work : t = { d with regs := t.regs, acq := t.acq }
  regs : RegsKeepAll ks d t
  caps : ∀ n, CapsOff d n → CapsOff t n

section
variable {ks : List Nat}

theorem TripAcq.refl (d : Dev) : TripAcq ks d d := ⟨rfl, fun _ _ => rfl, fun _ h => h⟩

theorem TripAcq.trans {a b c : Dev} (h : TripAcq ks a b) (k : TripAcq ks b c) : TripAcq ks a c where
  work := by
    have hwork := k.work
    rw [h.work] at hwork
    exact hwork
  regs := regsKeepAll_trans h.regs k.regs
  caps n hn := k.caps n (h.caps n hn)

theorem TripAcq.mono {ls : List Nat} {d t : Dev} (h : TripAcq ks d t) (sub : ∀ k ∈ ks, k ∈ ls) : TripAcq ls d t :=
  ⟨h.work, regsKeepAll_mono h.regs sub, h.caps⟩

theorem TripAcq.set (d : Dev) {f : Fld} (v : Nat) (hf : f.key ∈ ks) : TripAcq ks d (d.set f v) := ⟨rfl, regsKeepAll_set_of_mem hf, fun _ h => h⟩

theorem TripAcq.withAcq (d : Dev) (x : Acq) (h : x.chans = d.acq.chans) : TripAcq ks d { d with acq := x } :=
  ⟨rfl, fun _ _ => rfl, (TripLoss.withAcq d x h).caps⟩

theorem TripAcq.updChan (d : Dev) (n : Nat) {g : Chan → Chan} (hg : (g (d.chan n)).caps = (d.chan n).caps) : TripAcq ks d (d.updChan n g) := by
  refine ⟨rfl, fun _ _ => rfl, fun m hm k hk => ?_⟩
  rw [Dev.updChan_eq, Dev.chan_setChan] at hk
  split at hk
  next hmn => exact hm k (by rw [hmn, ← hg]; exact hk)
  next => exact hm k hk

end

/-- A field that reads 0 stays so under a set to 0. -/
theorem get_set_zero {d : Dev} {f : Fld} (g : Fld) (h : d.get f = 0) : (d.set g 0).get f = 0 := by
  by_cases hkey : f.key = g.key
  · show getT f.reset f.key (putT g.key (0 % 2 ^ g.width) d.regs) = 0
    rw [hkey, getT_putT_same, Nat.zero_mod]
  · exact (Dev.get_set_ne d hkey _).trans h

def tripLinKeys : List Nat := [Reg.TDC_CAL_STATUS_ACTIVE.key, Reg.TDC_CAL_STATUS_BOOT_DONE.key]

theorem linAbandon_eq (d : Dev) (n : Nat) :
    d.linAbandon n = if d.flag (Reg.CH_TDC_STATUS_LIN_ACTIVE n) then
      let e := (d.set (Reg.CH_TDC_STATUS_LIN_ACTIVE n) 0).setLinRun (delT n d.acq.linRun)
      e.setLinBoot (e.acq.linBoot.filter (· != n)) else d := rfl

theorem setLinRun_step (d : Dev) (l : List (Nat × Nat)) : TripAcq tripLinKeys d (d.setLinRun l) :=
  (TripAcq.withAcq d { d.acq with linRun := l } rfl).trans (.set _ _ (by simp [tripLinKeys]))

theorem setLinBoot_step (d : Dev) (l : List Nat) : TripAcq tripLinKeys d (d.setLinBoot l) := by
  unfold Dev.setLinBoot
  dsimp only
  split
  · exact (TripAcq.withAcq d { d.acq with linBoot := l } rfl).trans (.set _ _ (by simp [tripLinKeys]))
  · exact .withAcq d { d.acq with linBoot := l } rfl

/-- A linearity calibration abandoned: LIN_ACTIVE reads 0, and what else read 0 still does. -/
theorem linAbandon_spec (d : Dev) {n : Nat} (hn : n < 48) :
    TripAcq ((Reg.CH_TDC_STATUS_LIN_ACTIVE n).key :: tripLinKeys) d (d.linAbandon n) ∧ (d.linAbandon n).get (Reg.CH_TDC_STATUS_LIN_ACTIVE n) = 0
    ∧ ∀ f : Fld, f.key ∉ tripLinKeys → d.get f = 0 → (d.linAbandon n).get f = 0 := by
  have hfree : ∀ n < 48, (Reg.CH_TDC_STATUS_LIN_ACTIVE n).key ∉ tripLinKeys := by decide +kernel
  rw [linAbandon_eq]
  split
  · dsimp only
    have hset : (d.set (Reg.CH_TDC_STATUS_LIN_ACTIVE n) 0).get (Reg.CH_TDC_STATUS_LIN_ACTIVE n) = 0 := Dev.get_set_same d _ _
    have hrun := (setLinRun_step (d.set (Reg.CH_TDC_STATUS_LIN_ACTIVE n) 0) (delT n d.acq.linRun)).trans
      (setLinBoot_step _ (((d.set (Reg.CH_TDC_STATUS_LIN_ACTIVE n) 0).setLinRun (delT n d.acq.linRun)).acq.linBoot.filter (· != n)))
    exact ⟨(TripAcq.set d 0 (.head _)).trans (hrun.mono fun _ => List.mem_cons_of_mem _), (hrun.regs _ (hfree n hn)).trans hset,
      fun f hf h0 => (hrun.regs f hf).trans (get_set_zero _ h0)⟩
  next hflag =>
    exact ⟨.refl d, by simpa [Dev.flag] using hflag, fun _ _ h => h⟩

def Dev.abandonChan (d : Dev) (n : Nat) : Dev := (if d.flag (Reg.CH_STATUS_CAL_ACTIVE n) then d.calClear n else d).linAbandon n

def abandonKeys : List Nat :=
  tripLinKeys ++ (List.range 48).flatMap fun n => [(Reg.CH_STATUS_CAL_ACTIVE n).key, (Reg.CH_TDC_STATUS_LIN_ACTIVE n).key]

theorem mem_abandonKeys {n : Nat} (h : n < 48) : (Reg.CH_STATUS_CAL_ACTIVE n).key ∈ abandonKeys ∧ (Reg.CH_TDC_STATUS_LIN_ACTIVE n).key ∈ abandonKeys :=
  ⟨List.mem_append_right _ (List.mem_flatMap.2 ⟨n, List.mem_range.2 h, by simp⟩),
    List.mem_append_right _ (List.mem_flatMap.2 ⟨n, List.mem_range.2 h, by simp⟩)⟩

theorem calActive_free : ∀ n < 48, (Reg.CH_STATUS_CAL_ACTIVE n).key ∉ tripLinKeys ∧ (Reg.CH_TDC_STATUS_LIN_ACTIVE n).key ∉ tripLinKeys := by decide +kernel

/-- One channel's calibrations abandoned. -/
theorem abandonChan_spec (d : Dev) {n : Nat} (hn : n < 48) :
    TripAcq abandonKeys d (d.abandonChan n) ∧ (d.abandonChan n).get (Reg.CH_STATUS_CAL_ACTIVE n) = 0
    ∧ (d.abandonChan n).get (Reg.CH_TDC_STATUS_LIN_ACTIVE n) = 0 ∧ ∀ f : Fld, f.key ∉ tripLinKeys → d.get f = 0 → (d.abandonChan n).get f = 0 := by
  obtain ⟨hcal, hlin⟩ := mem_abandonKeys hn
  have hclear : TripAcq abandonKeys d (if d.flag (Reg.CH_STATUS_CAL_ACTIVE n) then d.calClear n else d)
      ∧ (if d.flag (Reg.CH_STATUS_CAL_ACTIVE n) then d.calClear n else d).get (Reg.CH_STATUS_CAL_ACTIVE n) = 0
      ∧ ∀ f : Fld, d.get f = 0 → (if d.flag (Reg.CH_STATUS_CAL_ACTIVE n) then d.calClear n else d).get f = 0 := by
    split
    · exact ⟨(TripAcq.set d 0 hcal).trans (.updChan _ n rfl), Dev.get_set_same d _ _, fun f h0 => get_set_zero _ h0⟩
    next hflag => exact ⟨.refl d, by simpa [Dev.flag] using hflag, fun _ h => h⟩
  obtain ⟨hstep, hzero, hother⟩ := hclear
  obtain ⟨hstep', hzero', hother'⟩ := linAbandon_spec (if d.flag (Reg.CH_STATUS_CAL_ACTIVE n) then d.calClear n else d) hn
  have hsub : ∀ k ∈ (Reg.CH_TDC_STATUS_LIN_ACTIVE n).key :: tripLinKeys, k ∈ abandonKeys := fun k hk =>
    (List.mem_cons.1 hk).elim (fun e => e ▸ hlin) (List.mem_append_left _)
  exact ⟨hstep.trans (hstep'.mono hsub), hother' _ (calActive_free n hn).1 hzero, hzero', fun f hf h0 => hother' f hf (hother f h0)⟩

def Dev.assayOff (d : Dev) (l : Nat) : Dev := if d.flag (Reg.LN_STATUS_ASSAY_ACTIVE l) then d.setB (Reg.LN_STATUS_ASSAY_ACTIVE l) false else d

def assayOffKeys : List Nat := (List.range 48).map fun l => (Reg.LN_STATUS_ASSAY_ACTIVE l).key

theorem assayOff_spec (d : Dev) {l : Nat} (hl : l < 48) :
    TripAcq assayOffKeys d (d.assayOff l) ∧ (d.assayOff l).get (Reg.LN_STATUS_ASSAY_ACTIVE l) = 0 ∧ ∀ f : Fld, d.get f = 0 → (d.assayOff l).get f = 0 := by
  unfold Dev.assayOff
  split
  · exact ⟨.set d _ (List.mem_map_of_mem (List.mem_range.2 hl)), Dev.get_set_same d _ _, fun f h0 => get_set_zero _ h0⟩
  next hflag => exact ⟨.refl d, by simpa [Dev.flag] using hflag, fun _ h => h⟩

/-- Calibrations of every kind are over, and nothing retires or waits to power. -/
def Dev.tripIdle (d : Dev) : Dev :=
  { d with acq := { d.acq with rot := [], rotReq := none, fgDue := none, linReq := [] }, flt := { d.flt with retiring := [] },
           pw := { d.pw with ramp := [], req := [] } }

def Dev.rotOff (d : Dev) : Dev :=
  ((d.fgDone.setB Reg.CH_CAL_STATUS_ROT_ACTIVE false).set Reg.CH_CAL_STATUS_CUR_QUAD 15).setB Reg.MEM_RETIRE_OP_BUSY false

theorem tripAbandon_eq (d : Dev) :
    d.tripAbandon = ((List.range 48).foldl Dev.assayOff ((List.range 48).foldl Dev.abandonChan d).tripIdle.rotOff).setAssays [] := by
  unfold Dev.tripAbandon Dev.assayOff Dev.rotOff Dev.tripIdle Dev.abandonChan
  dsimp only

def rotOffKeys : List Nat :=
  [Reg.CH_CAL_STATUS_FG_DONE.key, Reg.CH_CAL_STATUS_ROT_ACTIVE.key, Reg.CH_CAL_STATUS_CUR_QUAD.key, Reg.MEM_RETIRE_OP_BUSY.key]

theorem rotOff_spec (d : Dev) :
    TripAcq rotOffKeys d d.rotOff ∧ d.rotOff.get Reg.CH_CAL_STATUS_ROT_ACTIVE = 0 ∧ d.rotOff.get Reg.CH_CAL_STATUS_CUR_QUAD = 15
    ∧ d.rotOff.get Reg.MEM_RETIRE_OP_BUSY = 0 := by
  have hdone : TripAcq rotOffKeys d d.fgDone := by
    unfold Dev.fgDone
    split
    · exact (TripAcq.withAcq d { d.acq with fgWait := some (d.get Reg.CH_CAL_CTRL_FG_WAIT) } rfl).trans (.set _ _ (by simp [rotOffKeys]))
    · exact .refl d
  unfold Dev.rotOff
  generalize d.fgDone = e at hdone ⊢
  refine ⟨((hdone.trans (.set _ _ (by simp [rotOffKeys]))).trans (.set _ _ (by simp [rotOffKeys]))).trans (.set _ _ (by simp [rotOffKeys])), ?_, ?_,
    Dev.get_set_same _ _ _⟩
  · exact (Dev.get_set_ne _ (by decide) _).trans ((Dev.get_set_ne _ (by decide) _).trans (Dev.get_set_same _ _ _))
  · exact (Dev.get_set_ne _ (by decide) _).trans (Dev.get_set_same _ _ _)

def tripAbandonKeys : List Nat :=
  abandonKeys ++ (rotOffKeys ++ (assayOffKeys ++ [Reg.FLT_STATUS_ASSAYS_WAITING.key, Reg.FLT_STATUS_ASSAY_ACTIVE.key]))

/-- The fields that the abandoning of calibrations, retirements and assays leaves at 0. -/
structure TripQuiet (t : Dev) : Prop where
  cal : ∀ n < 48, t.get (Reg.CH_STATUS_CAL_ACTIVE n) = 0
  lin : ∀ n < 48, t.get (Reg.CH_TDC_STATUS_LIN_ACTIVE n) = 0
  rot : t.get Reg.CH_CAL_STATUS_ROT_ACTIVE = 0
  quad : t.get Reg.CH_CAL_STATUS_CUR_QUAD = 15
  retire : t.get Reg.MEM_RETIRE_OP_BUSY = 0
  assay : ∀ l < 48, t.get (Reg.LN_STATUS_ASSAY_ACTIVE l) = 0

/-- Later parts do not touch what an earlier one ended. -/
theorem tripQuiet_free :
    (∀ n < 48, ((Reg.CH_STATUS_CAL_ACTIVE n).key ∉ rotOffKeys ++ (assayOffKeys ++ [Reg.FLT_STATUS_ASSAYS_WAITING.key, Reg.FLT_STATUS_ASSAY_ACTIVE.key]))
      ∧ (Reg.CH_TDC_STATUS_LIN_ACTIVE n).key ∉ rotOffKeys ++ (assayOffKeys ++ [Reg.FLT_STATUS_ASSAYS_WAITING.key, Reg.FLT_STATUS_ASSAY_ACTIVE.key]))
    ∧ (∀ f ∈ [Reg.CH_CAL_STATUS_ROT_ACTIVE, Reg.CH_CAL_STATUS_CUR_QUAD, Reg.MEM_RETIRE_OP_BUSY],
        f.key ∉ assayOffKeys ++ [Reg.FLT_STATUS_ASSAYS_WAITING.key, Reg.FLT_STATUS_ASSAY_ACTIVE.key])
    ∧ ∀ l < 48, (Reg.LN_STATUS_ASSAY_ACTIVE l).key ∉ [Reg.FLT_STATUS_ASSAYS_WAITING.key, Reg.FLT_STATUS_ASSAY_ACTIVE.key] := by decide +kernel

theorem setAssays_spec (d : Dev) :
    d.setAssays [] = { d with regs := (d.setAssays []).regs, flt := { d.flt with assays := [] } }
    ∧ RegsKeepAll [Reg.FLT_STATUS_ASSAYS_WAITING.key, Reg.FLT_STATUS_ASSAY_ACTIVE.key] d (d.setAssays []) := by
  refine ⟨rfl, ?_⟩
  have hfst : RegsKeepAll [Reg.FLT_STATUS_ASSAYS_WAITING.key, Reg.FLT_STATUS_ASSAY_ACTIVE.key] d
      (({ d with flt := { d.flt with assays := [] } } : Dev).set Reg.FLT_STATUS_ASSAYS_WAITING 0) := regsKeepAll_set_of_mem (d := d) (by simp)
  exact regsKeepAll_trans hfst (regsKeepAll_set_of_mem (by simp))

theorem tripAbandon_spec (d : Dev) :
    (let t := d.tripAbandon
     t = { d with regs := t.regs, acq := t.acq, flt := { d.flt with retiring := [], assays := [] }, pw := { d.pw with ramp := [], req := [] } }
      ∧ RegsKeepAll tripAbandonKeys d t ∧ (∀ n, CapsOff d n → CapsOff t n) ∧ TripQuiet t) := by
  obtain ⟨hfree, hfree', hfree''⟩ := tripQuiet_free
  rw [tripAbandon_eq]
  have hchans : TripAcq abandonKeys d ((List.range 48).foldl Dev.abandonChan d) :=
    foldl_step TripAcq.refl TripAcq.trans (fun n hn e => (abandonChan_spec e (List.mem_range.1 hn)).1) d
  have hcal (n : Nat) (hn : n < 48) : ((List.range 48).foldl Dev.abandonChan d).get (Reg.CH_STATUS_CAL_ACTIVE n) = 0 :=
    foldl_attains (P := fun e => e.get (Reg.CH_STATUS_CAL_ACTIVE n) = 0)
      (fun m hm e => (abandonChan_spec e (List.mem_range.1 hm)).2.2.2 _ (calActive_free n hn).1) (fun e => (abandonChan_spec e hn).2.1)
      (List.mem_range.2 hn) d
  have hlin (n : Nat) (hn : n < 48) : ((List.range 48).foldl Dev.abandonChan d).get (Reg.CH_TDC_STATUS_LIN_ACTIVE n) = 0 :=
    foldl_attains (P := fun e => e.get (Reg.CH_TDC_STATUS_LIN_ACTIVE n) = 0)
      (fun m hm e => (abandonChan_spec e (List.mem_range.1 hm)).2.2.2 _ (calActive_free n hn).2) (fun e => (abandonChan_spec e hn).2.2.1)
      (List.mem_range.2 hn) d
  generalize (List.range 48).foldl Dev.abandonChan d = e at hchans hcal hlin ⊢
  obtain ⟨hrot, hrot0, hquad, hbusy⟩ := rotOff_spec e.tripIdle
  generalize e.tripIdle.rotOff = x at hrot hrot0 hquad hbusy ⊢
  have hassays : TripAcq assayOffKeys x ((List.range 48).foldl Dev.assayOff x) :=
    foldl_step TripAcq.refl TripAcq.trans (fun l hl e => (assayOff_spec e (List.mem_range.1 hl)).1) x
  have hassay (l : Nat) (hl : l < 48) : ((List.range 48).foldl Dev.assayOff x).get (Reg.LN_STATUS_ASSAY_ACTIVE l) = 0 :=
    foldl_attains (P := fun e => e.get (Reg.LN_STATUS_ASSAY_ACTIVE l) = 0) (fun m hm e => (assayOff_spec e (List.mem_range.1 hm)).2.2 _)
      (fun e => (assayOff_spec e hl).2.1) (List.mem_range.2 hl) x
  generalize (List.range 48).foldl Dev.assayOff x = y at hassays hassay ⊢
  obtain ⟨hset, hsetKeep⟩ := setAssays_spec y
  generalize y.setAssays [] = t at hset hsetKeep ⊢
  have hlate : RegsKeepAll (assayOffKeys ++ [Reg.FLT_STATUS_ASSAYS_WAITING.key, Reg.FLT_STATUS_ASSAY_ACTIVE.key]) x t :=
    regsKeepAll_trans (regsKeepAll_mono hassays.regs fun _ => List.mem_append_left _) (regsKeepAll_mono hsetKeep fun _ => List.mem_append_right _)
  have hidle : RegsKeepAll (rotOffKeys ++ (assayOffKeys ++ [Reg.FLT_STATUS_ASSAYS_WAITING.key, Reg.FLT_STATUS_ASSAY_ACTIVE.key])) e t :=
    regsKeepAll_trans (regsKeepAll_mono hrot.regs fun _ => List.mem_append_left _) (regsKeepAll_mono hlate fun _ => List.mem_append_right _)
  have hcaps (n : Nat) (hn : CapsOff d n) : CapsOff t n := by
    have hchan : t.chan n = y.chan n := by rw [hset]; rfl
    rw [CapsOff, hchan]
    exact hassays.caps n (hrot.caps n (hchans.caps n hn))
  refine ⟨?_, regsKeepAll_trans (regsKeepAll_mono hchans.regs fun _ => List.mem_append_left _) (regsKeepAll_mono hidle fun _ => List.mem_append_right _), hcaps, ?_⟩
  · have hacq : t.acq = y.acq := by rw [hset]
    have hwork := hset
    rw [hacq]
    rw [hassays.work, hrot.work, Dev.tripIdle, hchans.work] at hwork
    exact hwork
  · exact ⟨fun n hn => (hidle _ (hfree n hn).1).trans (hcal n hn), fun n hn => (hidle _ (hfree n hn).2).trans (hlin n hn),
      (hlate _ (hfree' _ (by simp))).trans hrot0, (hlate _ (hfree' _ (by simp))).trans hquad, (hlate _ (hfree' _ (by simp))).trans hbusy,
      fun l hl => (hsetKeep _ (hfree'' l hl)).trans (hassay l hl)⟩

/-! ### A channel goes dark with a trip -/

def tripDarkKeys (n : Nat) : List Nat :=
  [(Reg.CH_MERGE_STATS_SEAMS n).key, (Reg.CH_MERGE_STATS_CLIPS n).key, (Reg.CH_TDC_STATUS_SLOW_LOCK n).key, (Reg.CH_TDC_STATUS_FAST_LOCK n).key,
    (Reg.CH_TDC_STATUS_LIN_ACTIVE n).key, (Reg.PWR_CH_STATE n).key] ++ tripLinKeys

/-- A channel that stops keeps its captures, and counts what it merged. -/
theorem stopChan_trip (d : Dev) (n : Nat) : TripAcq [(Reg.CH_MERGE_STATS_SEAMS n).key, (Reg.CH_MERGE_STATS_CLIPS n).key] d (d.stopChan n) := by
  unfold Dev.stopChan
  dsimp only
  split
  · exact .refl d
  · have hchan : TripAcq [(Reg.CH_MERGE_STATS_SEAMS n).key, (Reg.CH_MERGE_STATS_CLIPS n).key] d
        (d.setChan n { ((d.chan n).mergeIn none []).2.2 with acquiring := false }) :=
      .updChan d n (g := fun c => { (c.mergeIn none []).2.2 with acquiring := false }) rfl
    exact ((hchan.trans (.set _ _ (by simp))).trans (.set _ _ (by simp))).trans (.withAcq _ _ rfl)

/-- The fields that the first dark channel leaves at 0 where they read 0. -/
theorem tripDark_free : (∀ n < 48, (Reg.CH_TDC_STATUS_LIN_ACTIVE n).key ∉ [(Reg.CH_MERGE_STATS_SEAMS 47).key, (Reg.CH_MERGE_STATS_CLIPS 47).key]
      ∧ (Reg.CH_TDC_STATUS_LIN_ACTIVE n).key ∉ tripLinKeys ∧ (Reg.CH_TDC_STATUS_LIN_ACTIVE n).key ≠ (Reg.PWR_CH_STATE 47).key
      ∧ (Reg.CH_STATUS_CAL_ACTIVE n).key ∉ tripDarkKeys 47 ∧ (Reg.LN_STATUS_ASSAY_ACTIVE n).key ∉ tripDarkKeys 47)
    ∧ ∀ f ∈ [Reg.CH_CAL_STATUS_ROT_ACTIVE, Reg.CH_CAL_STATUS_CUR_QUAD, Reg.MEM_RETIRE_OP_BUSY], f.key ∉ tripDarkKeys 47 := by decide +kernel

theorem darkChan_spec (d : Dev) {n : Nat} (hn : n < 48) :
    TripAcq (tripDarkKeys n) d (d.darkChan n 6) ∧ (d.darkChan n 6).chState n = 6
    ∧ ∀ f : Fld, f.key ∉ [(Reg.CH_MERGE_STATS_SEAMS n).key, (Reg.CH_MERGE_STATS_CLIPS n).key] → f.key ∉ tripLinKeys →
        f.key ≠ (Reg.PWR_CH_STATE n).key → d.get f = 0 → (d.darkChan n 6).get f = 0 := by
  have hstop := stopChan_trip d n
  unfold Dev.darkChan
  generalize d.stopChan n = e at hstop ⊢
  obtain ⟨hlin, -, hzero⟩ := linAbandon_spec ((e.setB (Reg.CH_TDC_STATUS_SLOW_LOCK n) false).setB (Reg.CH_TDC_STATUS_FAST_LOCK n) false) hn
  have hlocks (f : Fld) (h : e.get f = 0) :
      ((e.setB (Reg.CH_TDC_STATUS_SLOW_LOCK n) false).setB (Reg.CH_TDC_STATUS_FAST_LOCK n) false).get f = 0 := get_set_zero _ (get_set_zero _ h)
  have hset : TripAcq (tripDarkKeys n) e ((e.setB (Reg.CH_TDC_STATUS_SLOW_LOCK n) false).setB (Reg.CH_TDC_STATUS_FAST_LOCK n) false) :=
    (TripAcq.set e _ (by simp [tripDarkKeys])).trans (.set _ _ (by simp [tripDarkKeys]))
  generalize (e.setB (Reg.CH_TDC_STATUS_SLOW_LOCK n) false).setB (Reg.CH_TDC_STATUS_FAST_LOCK n) false = x at hlin hzero hlocks hset ⊢
  dsimp only
  generalize x.linAbandon n = y at hlin hzero ⊢
  have hupd : TripAcq (tripDarkKeys n) y (y.updChan n fun c => { c with checks := [], lockLost := false, lastE := none, fgDue := none }) := .updChan y n rfl
  refine ⟨((((hstop.mono ?_).trans hset).trans (hlin.mono ?_)).trans hupd).trans (.set _ _ (by simp [tripDarkKeys])), Dev.get_set_same _ _ _,
    fun f hcount hl hstate h0 => ?_⟩
  · simp [tripDarkKeys]
  · simp only [tripDarkKeys]
    exact fun k hk => (List.mem_cons.1 hk).elim (fun h => by simp [h]) (List.mem_append_right _)
  · exact (Dev.get_set_ne _ hstate _).trans (hzero f hl (hlocks f ((hstop.regs f hcount).trans h0)))

theorem chState_lt_free : ∀ n < 47, (Reg.PWR_CH_STATE n).key ∉ tripDarkKeys 47 := by decide +kernel

/-- Channel 47 goes dark with the frame that opens the trip; what was quiet stays so. -/
theorem tripChan_spec (d : Dev) :
    (let t := d.tripChan 47
     TripAcq (tripDarkKeys 47) d t ∧ t.chState 47 = (if d.chState 47 = 0 then 0 else 6) ∧ (∀ n < 47, t.chState n = d.chState n)
      ∧ (TripQuiet d → TripQuiet t)) := by
  obtain ⟨hfree, hfree'⟩ := tripDark_free
  unfold Dev.tripChan
  dsimp only
  split
  next h => exact ⟨.refl d, h, fun _ _ => rfl, fun hq => hq⟩
  next h =>
    obtain ⟨hstep, hstate, hzero⟩ := darkChan_spec d (n := 47) (by decide)
    refine ⟨hstep, hstate, fun n hn => hstep.regs _ (chState_lt_free n hn), fun hq => ⟨fun n hn => ?_, fun n hn => ?_, ?_, ?_, ?_, fun l hl => ?_⟩⟩
    · obtain ⟨-, -, -, hkey, -⟩ := hfree n hn
      exact (hstep.regs _ hkey).trans (hq.cal n hn)
    · obtain ⟨hcount, hlin, hstate', -, -⟩ := hfree n hn
      exact hzero _ hcount hlin hstate' (hq.lin n hn)
    · exact (hstep.regs _ (hfree' _ (by simp))).trans hq.rot
    · exact (hstep.regs _ (hfree' _ (by simp))).trans hq.quad
    · exact (hstep.regs _ (hfree' _ (by simp))).trans hq.retire
    · obtain ⟨-, -, -, -, hkey⟩ := hfree l hl
      exact (hstep.regs _ hkey).trans (hq.assay l hl)

/-! ### A trip begins (R497) -/

def tripKeys : List Nat :=
  ledgerKeys ++ ([Reg.PWR_THERM_STATUS_STATE.key, Reg.PWR_THERM_STATUS_CAUSE.key] ++ (tripRecKeys ++ (tripAbandonKeys ++ tripDarkKeys 47)))

/-- What the frame that opens a trip leaves. -/
structure TripBegun (d : Dev) (cause : Nat) (t : Dev) : Prop where
  frame : t = { d with regs := t.regs, force := t.force, ledger := t.ledger, acq := t.acq, rcd := t.rcd, flt := t.flt, pins := t.pins, pw := t.pw }
  regs : RegsKeepAll tripKeys d t
  state : t.thermState = 3
  why : t.get Reg.PWR_THERM_STATUS_CAUSE = cause
  pins : t.pins = { d.pins with trip := true }
  pw : t.pw = { d.pw with trip := some ⟨d.fn, cause, (d.ldgEntry 1 (d.tripPayload cause)).1, 0⟩, release := false, ramp := [], req := [] }
  ledger : t.ledger = (d.ldgEntry 1 (d.tripPayload cause)).2.ledger
  dark : t.chState 47 = if d.chState 47 = 0 then 0 else 6
  others : ∀ n < 47, t.chState n = d.chState n
  flt : t.flt = { d.flt with retiring := [], assays := [] }
  quiet : TripQuiet t
  asm : t.rcd.asm = []
  ready : t.rcd.ready = []
  caps : ∀ n < 48, CapsOff t n
  lost : ∀ a ∈ d.rcd.asm ++ d.rcd.ready, (t.lostKey a.chan a.fn (a.typ == 2)).isSome = true
  streams : ∀ k < 4, StreamOff t k

/-- The entry of the trip, the trip held, its state and cause, and the frame closed to records. -/
def Dev.tripOpen (d : Dev) (cause seq : Nat) : Dev :=
  ((({ d with pw := { d.pw with trip := some ⟨d.fn, cause, seq, 0⟩, release := false }, pins := { d.pins with trip := true } } : Dev).set
    Reg.PWR_THERM_STATUS_STATE 3).set Reg.PWR_THERM_STATUS_CAUSE cause).updFrame d.fn fun s => { s with accept := [], gone := true }

theorem tripBegin_eq (d : Dev) (cause : Nat) :
    d.tripBegin cause = (((d.ldgEntry 1 (d.tripPayload cause)).2.tripOpen cause (d.ldgEntry 1 (d.tripPayload cause)).1).tripRecords.tripAbandon).tripChan 47 := by
  unfold Dev.tripBegin Dev.tripOpen
  rfl

/-- What the later parts of a trip's first frame leave of the earlier ones. -/
theorem tripLate_free :
    (∀ f ∈ [Reg.PWR_THERM_STATUS_STATE, Reg.PWR_THERM_STATUS_CAUSE], f.key ∉ tripRecKeys ++ (tripAbandonKeys ++ tripDarkKeys 47))
    ∧ (∀ n < 48, (Reg.PWR_CH_STATE n).key ∉ ledgerKeys ++ ([Reg.PWR_THERM_STATUS_STATE.key, Reg.PWR_THERM_STATUS_CAUSE.key] ++ (tripRecKeys ++ tripAbandonKeys)))
    ∧ ∀ k < 4, (Reg.TRG_STREAM_CFG_ENABLE k).key ∉ tripAbandonKeys ++ tripDarkKeys 47 := by decide +kernel

theorem tripBegin_spec (d : Dev) {cause : Nat} (hcause : cause < 16) : TripBegun d cause (d.tripBegin cause) := by
  obtain ⟨htherm, hch, hstream⟩ := tripLate_free
  have hentry := ldgEntry_step d 1 (d.tripPayload cause)
  rw [tripBegin_eq]
  generalize hpair : d.ldgEntry 1 (d.tripPayload cause) = p at hentry ⊢
  obtain ⟨seq, e⟩ := p
  dsimp only at hentry ⊢
  have hfn : e.fn = d.fn := by rw [hentry.work]; rfl
  have hopenKeep : RegsKeepAll [Reg.PWR_THERM_STATUS_STATE.key, Reg.PWR_THERM_STATUS_CAUSE.key] e (e.tripOpen cause seq) :=
    regsKeepAll_trans (b := e.set Reg.PWR_THERM_STATUS_STATE 3) (regsKeepAll_set_of_mem (by simp))
      (regsKeepAll_set_of_mem (d := e.set Reg.PWR_THERM_STATUS_STATE 3) (f := Reg.PWR_THERM_STATUS_CAUSE) (v := cause) (by simp))
  have hopenState : (e.tripOpen cause seq).thermState = 3 := (Dev.get_set_ne _ (by decide) _).trans (Dev.get_set_same _ _ _)
  have hopenCause : (e.tripOpen cause seq).get Reg.PWR_THERM_STATUS_CAUSE = cause := (Dev.get_set_same _ _ _).trans (Nat.mod_eq_of_lt hcause)
  have hopenWork : e.tripOpen cause seq = { e with
      regs := (e.tripOpen cause seq).regs, acq := (e.tripOpen cause seq).acq, pins := { e.pins with trip := true }
      pw := { e.pw with trip := some ⟨e.fn, cause, seq, 0⟩, release := false } } := rfl
  have hopenRcd : (e.tripOpen cause seq).rcd = e.rcd := rfl
  generalize e.tripOpen cause seq = x at hopenKeep hopenState hopenCause hopenWork hopenRcd ⊢
  obtain ⟨hrec, hrecKeep, hasm, hready, hcaps, hstreams, hlost⟩ := tripRecords_spec x
  generalize x.tripRecords = y at hrec hrecKeep hasm hready hcaps hstreams hlost ⊢
  obtain ⟨hab, habKeep, habCaps, hquiet⟩ := tripAbandon_spec y
  generalize y.tripAbandon = z at hab habKeep habCaps hquiet ⊢
  obtain ⟨hdark, hdarkState, hdarkOthers, hdarkQuiet⟩ := tripChan_spec z
  generalize z.tripChan 47 = t at hdark hdarkState hdarkOthers hdarkQuiet ⊢
  have hpins : t.pins = { d.pins with trip := true } := by rw [hdark.work, hab, hrec, hopenWork, hentry.work]
  have hpw : t.pw = { d.pw with trip := some ⟨d.fn, cause, seq, 0⟩, release := false, ramp := [], req := [] } := by
    rw [hdark.work, hab, hrec, hopenWork, hfn, hentry.work]
  have hledger : t.ledger = e.ledger := by rw [hdark.work, hab, hrec, hopenWork]
  have hflt : t.flt = { d.flt with retiring := [], assays := [] } := by rw [hdark.work, hab, hrec, hopenWork, hentry.work]
  have hforce : t.force = y.force := by rw [hdark.work, hab]
  have hrcd : t.rcd = y.rcd := by rw [hdark.work, hab]
  have hframe : t = { d with regs := t.regs, force := t.force, ledger := t.ledger, acq := t.acq, rcd := t.rcd, flt := t.flt, pins := t.pins, pw := t.pw } := by
    have hwork := hdark.work
    rw [hpins, hpw, hledger, hflt, hforce, hrcd]
    rw [hab, hrec, hopenWork, hfn, hentry.work] at hwork
    exact hwork
  have hlate : RegsKeepAll (tripAbandonKeys ++ tripDarkKeys 47) y t :=
    regsKeepAll_trans (regsKeepAll_mono habKeep fun _ => List.mem_append_left _) (regsKeepAll_mono hdark.regs fun _ => List.mem_append_right _)
  have hopened : RegsKeepAll (tripRecKeys ++ (tripAbandonKeys ++ tripDarkKeys 47)) x t :=
    regsKeepAll_trans (regsKeepAll_mono hrecKeep fun _ => List.mem_append_left _) (regsKeepAll_mono hlate fun _ => List.mem_append_right _)
  have hall : RegsKeepAll tripKeys d t :=
    regsKeepAll_trans (regsKeepAll_mono hentry.regs fun _ => List.mem_append_left _) (regsKeepAll_mono
      (regsKeepAll_trans (regsKeepAll_mono hopenKeep fun _ => List.mem_append_left _) (regsKeepAll_mono hopened fun _ => List.mem_append_right _))
      fun _ => List.mem_append_right _)
  have hearly : RegsKeepAll (ledgerKeys ++ ([Reg.PWR_THERM_STATUS_STATE.key, Reg.PWR_THERM_STATUS_CAUSE.key] ++ (tripRecKeys ++ tripAbandonKeys))) d z :=
    regsKeepAll_trans (regsKeepAll_mono hentry.regs fun _ => List.mem_append_left _) (regsKeepAll_mono
      (regsKeepAll_trans (regsKeepAll_mono hopenKeep fun _ => List.mem_append_left _) (regsKeepAll_mono
        (regsKeepAll_trans (regsKeepAll_mono hrecKeep fun _ => List.mem_append_left _) (regsKeepAll_mono habKeep fun _ => List.mem_append_right _))
        fun _ => List.mem_append_right _)) fun _ => List.mem_append_right _)
  have hlostKey (c f : Nat) (st : Bool) : t.lostKey c f st = y.lostKey c f st := by rw [Dev.lostKey, Dev.lostKey, hrcd]
  have hopenAsm : x.rcd = d.rcd := by rw [hopenRcd, hentry.work]
  refine ⟨hframe, hall, (hopened _ (htherm _ (by simp))).trans hopenState, (hopened _ (htherm _ (by simp))).trans hopenCause, hpins, by rw [hpair]; exact hpw,
    by rw [hpair]; exact hledger, ?_, fun n hn => ?_, hflt, hdarkQuiet hquiet, by rw [hrcd]; exact hasm, by rw [hrcd]; exact hready,
    fun n hn => hdark.caps n (habCaps n (hcaps n hn)), fun a ha => ?_, fun k hk => ?_⟩
  · rw [hdarkState]
    exact congrArg (fun v => if v = 0 then 0 else 6) (hearly _ (hch 47 (by decide)))
  · exact (hdarkOthers n hn).trans (hearly _ (hch n (by omega)))
  · rw [hlostKey]
    exact hlost a (by rw [hopenAsm]; exact ha)
  · obtain ⟨hget, heff⟩ := hstreams k hk
    exact ⟨(hlate _ (hstream k hk)).trans hget, (eff_eq_of_force rfl hforce).trans heff⟩

end Sys2Proof.Machine
end

section
/-! PROOF. Power over for long, cold hold, what may end it, and the ledger's read port. -/
namespace Sys2Proof.Machine
open Sys2Proof.Safety

theorem pwrEvent_talks (d : Dev) (code : Nat) (data : List Nat) : Talks d (d.pwrEvent code data) := raise_talks d 11 code data

/-! ### A trip by power (R489, R497) -/

theorem exec_powerOverTrip (s : State) :
    exec .powerOverTrip s = .next { s with dev := if (s.dev.up && s.dev.flag Reg.PWR_STATUS_POWER_OVER && decide (65536 ≤ s.dev.pw.overFrames)
        && s.dev.pw.trip.isNone) = true then s.dev.tripCause 2 else s.dev } := rfl

theorem tripCause_none {d : Dev} (h : d.pw.trip = none) (cause : Nat) : d.tripCause cause = d.tripBegin cause := by
  rw [Dev.tripCause, h]

theorem tripCause_some {d : Dev} {tr : Trip} (h : d.pw.trip = some tr) (cause : Nat) :
    d.tripCause cause = if d.thermState = 4 then d.pwrEvent 2 [cause, d.tjWord, tr.seq] else d := by
  rw [Dev.tripCause, h]

theorem powerOverTrip_none {s : State}
    (h : ¬ (s.dev.up = true ∧ s.dev.flag Reg.PWR_STATUS_POWER_OVER = true ∧ 65536 ≤ s.dev.pw.overFrames ∧ s.dev.pw.trip = none)) :
    exec .powerOverTrip s = .next s := by
  have hgo : ¬ ((s.dev.up && s.dev.flag Reg.PWR_STATUS_POWER_OVER && decide (65536 ≤ s.dev.pw.overFrames) && s.dev.pw.trip.isNone) = true) := by
    simpa [and_assoc] using h
  rw [exec_powerOverTrip, if_neg hgo]

/-- A frame that leaves messages, rings and lanes alone is a frame of what talks. -/
theorem talked_of_silent {d t : Dev} (hmg : t.mg = d.mg) (hhr : t.hr = d.hr) (hlanes : t.lanes = d.lanes) : talked d t = { d with regs := t.regs } := by
  rw [talked, hmg, hhr, hlanes]

theorem powerOverTrip_begins {s : State} (hup : s.dev.up = true) (hover : s.dev.flag Reg.PWR_STATUS_POWER_OVER = true)
    (hlong : 65536 ≤ s.dev.pw.overFrames) (hnone : s.dev.pw.trip = none) :
    ∃ t : Dev, exec .powerOverTrip s = .next { s with dev := t } ∧ TripBegun s.dev 2 t := by
  have hgo : (s.dev.up && s.dev.flag Reg.PWR_STATUS_POWER_OVER && decide (65536 ≤ s.dev.pw.overFrames) && s.dev.pw.trip.isNone) = true := by
    simp [hup, hover, hlong, hnone]
  refine ⟨s.dev.tripBegin 2, ?_, tripBegin_spec s.dev (by decide)⟩
  rw [exec_powerOverTrip, if_pos hgo, tripCause_none hnone]

/-- The frame of a device in which a trip begins, in the form of an act that may talk. -/
theorem TripBegun.frame_talked {d t : Dev} {cause : Nat} (h : TripBegun d cause t) :
    t = { talked d t with
      force := t.force, ledger := t.ledger, acq := t.acq, rcd := t.rcd, flt := t.flt, pins := t.pins, pw := t.pw } := by
  have hmg : t.mg = d.mg := by rw [h.frame]
  have hhr : t.hr = d.hr := by rw [h.frame]
  have hlanes : t.lanes = d.lanes := by rw [h.frame]
  rw [talked_of_silent hmg hhr hlanes]
  exact h.frame

/-! ### Cold hold (R497, R498, R516) -/

theorem exec_coldHoldEntry (s : State) : exec .coldHoldEntry s = .next { s with dev := s.dev.coldHold } := rfl

theorem coldHold_idle {d : Dev} (h : d.thermState ≠ 3) : d.coldHold = d := by
  unfold Dev.coldHold
  split
  · rfl
  · exact if_neg (by simp [h])

theorem coldHold_eq {d : Dev} {tr : Trip} (hup : d.up = true) (hstate : d.thermState = 3) (htrip : d.pw.trip = some tr) (hlong : tr.fn + 48 ≤ d.fn)
    (hch : ∀ n : Nat, n < 48 → d.chState n = 0 ∨ d.chState n = 6) (hlq : ∀ q : Nat, q < 12 → d.keptQuad q = true ∨ d.get (Reg.PWR_DOM_LQ q) = 0)
    (hmd : ∀ m : Nat, m < 4 → d.get (Reg.PWR_DOM_MD m) = 0) :
    d.coldHold = (let e := ({ d with pw := { d.pw with trip := some { tr with holdFn := d.fn } } } : Dev).set Reg.PWR_THERM_STATUS_STATE 4
      e.pwrEvent 2 [tr.cause, e.tjWord, tr.seq]) := by
  have hdark : ((List.range 48).all (fun n => d.chState n == 0 || d.chState n == 6)
      && (List.range 12).all (fun q => d.keptQuad q || d.get (Reg.PWR_DOM_LQ q) == 0) && (List.range 4).all fun m => d.get (Reg.PWR_DOM_MD m) == 0) = true := by
    simp only [Bool.and_eq_true, List.all_eq_true, List.mem_range, Bool.or_eq_true, beq_iff_eq]
    exact ⟨⟨hch, hlq⟩, hmd⟩
  unfold Dev.coldHold
  rw [htrip]
  dsimp only
  rw [if_pos (by rw [hdark, hup, hstate, decide_eq_true hlong]; rfl)]

/-- A register set and an event: what talks, and the registers that keep. -/
theorem talks_after {d e t : Dev} {ks : List Nat} {x : Pw} (he : e = { d with regs := e.regs, pw := x }) (hkeep : RegsKeepAll ks d e) (h : Talks e t) :
    t = { talked d t with pw := x } ∧ RegsKeep ks d t ∧ t.pw = x := by
  obtain ⟨htalk, htalkKeep⟩ := h
  have hwork := htalk
  rw [he] at hwork
  have hpw : t.pw = x := by rw [hwork]; rfl
  exact ⟨hwork, fun f hf hcount => (htalkKeep f (by simp) hcount).trans (hkeep f hf), hpw⟩

theorem notTalk_power {f : Fld} (h : f ∈ [Reg.PWR_THERM_STATUS_STATE, Reg.PWR_THERM_STATUS_CAUSE, Reg.PWR_HOLD_HOLD_REQ, Reg.PWR_HOLD_RELEASE_RESULT]) :
    ¬ countsTalk f.key := by
  have hkeys : ∀ f ∈ [Reg.PWR_THERM_STATUS_STATE, Reg.PWR_THERM_STATUS_CAUSE, Reg.PWR_HOLD_HOLD_REQ, Reg.PWR_HOLD_RELEASE_RESULT], 917504 ≤ f.key
      ∧ f.key ≠ Reg.HR_DROP_STATS_EVT_DROPPED.key ∧ f.key ≠ Reg.EGR_POOL_FREE_PAGES.key ∧ f.key ≠ Reg.EGR_POOL_LOW_WATER.key := by decide +kernel
  obtain ⟨hhigh, hcount⟩ := hkeys f h
  exact notTalk (.inr hhigh) hcount

theorem coldHold_spec {tr : Trip} {s : State} (hup : s.dev.up = true) (hstate : s.dev.thermState = 3) (htrip : s.dev.pw.trip = some tr)
    (hlong : tr.fn + 48 ≤ s.dev.fn) (hch : ∀ n : Nat, n < 48 → s.dev.chState n = 0 ∨ s.dev.chState n = 6)
    (hlq : ∀ q : Nat, q < 12 → s.dev.keptQuad q = true ∨ s.dev.get (Reg.PWR_DOM_LQ q) = 0) (hmd : ∀ m : Nat, m < 4 → s.dev.get (Reg.PWR_DOM_MD m) = 0) :
    Answers .coldHoldEntry s fun t =>
      t.dev.thermState = 4 ∧ t.dev.pw = { s.dev.pw with trip := some { tr with holdFn := s.dev.fn } }
      ∧ t = { s with dev := { talked s.dev t.dev with pw := t.dev.pw } } ∧ RegsKeep [Reg.PWR_THERM_STATUS_STATE.key] s.dev t.dev := by
  rw [Answers, exec_coldHoldEntry, coldHold_eq hup hstate htrip hlong hch hlq hmd]
  refine ⟨_, rfl, ?_⟩
  dsimp only
  have hset : (({ s.dev with pw := { s.dev.pw with trip := some { tr with holdFn := s.dev.fn } } } : Dev).set Reg.PWR_THERM_STATUS_STATE 4).thermState = 4 :=
    Dev.get_set_same _ _ _
  have hkeep : RegsKeepAll [Reg.PWR_THERM_STATUS_STATE.key] s.dev
      (({ s.dev with pw := { s.dev.pw with trip := some { tr with holdFn := s.dev.fn } } } : Dev).set Reg.PWR_THERM_STATUS_STATE 4) :=
    regsKeepAll_set_of_mem (d := s.dev) (by simp)
  have hframe : ({ s.dev with pw := { s.dev.pw with trip := some { tr with holdFn := s.dev.fn } } } : Dev).set Reg.PWR_THERM_STATUS_STATE 4
      = { s.dev with
          regs := (({ s.dev with pw := { s.dev.pw with trip := some { tr with holdFn := s.dev.fn } } } : Dev).set Reg.PWR_THERM_STATUS_STATE 4).regs
          pw := { s.dev.pw with trip := some { tr with holdFn := s.dev.fn } } } := rfl
  generalize ({ s.dev with pw := { s.dev.pw with trip := some { tr with holdFn := s.dev.fn } } } : Dev).set Reg.PWR_THERM_STATUS_STATE 4 = e at hset hkeep hframe ⊢
  have htalks := pwrEvent_talks e 2 [tr.cause, e.tjWord, tr.seq]
  have hget := htalks.2 Reg.PWR_THERM_STATUS_STATE (by simp) (notTalk_power (by simp))
  obtain ⟨hwork, hkeep', hpw⟩ := talks_after hframe hkeep htalks
  refine ⟨hget.trans hset, hpw, ?_, hkeep'⟩
  rw [hpw]
  exact congrArg (fun d => { s with dev := d }) hwork

theorem exec_holdReqWrite {src : Source} {s : State} (hp : Passes s.dev src 0xA054) :
    exec (.holdReqWrite src) s = .next { s with dev := s.dev.writeHoldReq } := by
  show onDev (fun d => d.gated src 0xA054 Dev.writeHoldReq) s = _
  rw [onDev, gated_of_passes hp]

theorem writeHoldReq_eq (d : Dev) :
    d.writeHoldReq = if d.thermState = 4 then (d.set Reg.PWR_HOLD_HOLD_REQ 1).tripCause 4 else d.set Reg.PWR_HOLD_HOLD_REQ 1 := by
  have hstate : (d.set Reg.PWR_HOLD_HOLD_REQ 1).thermState = d.thermState := Dev.get_set_ne _ (by decide) _
  show (if (d.set Reg.PWR_HOLD_HOLD_REQ 1).thermState = 4 then _ else _) = _
  rw [hstate]
  rfl

/-- A hold request where no trip is in question: the request sticks, and in cold hold it is a further cause. -/
theorem holdReqWrite_kept {src : Source} {s : State} (hp : Passes s.dev src 0xA054) (htrip : s.dev.thermState = 4 → s.dev.pw.trip ≠ none) :
    Answers (.holdReqWrite src) s fun t =>
      t.dev.get Reg.PWR_HOLD_HOLD_REQ = 1 ∧ (s.dev.thermState ≠ 4 → RegsKeepAll [Reg.PWR_HOLD_HOLD_REQ.key] s.dev t.dev)
      ∧ t = { s with dev := talked s.dev t.dev } ∧ RegsKeep [Reg.PWR_HOLD_HOLD_REQ.key] s.dev t.dev := by
  have hkeep : RegsKeepAll [Reg.PWR_HOLD_HOLD_REQ.key] s.dev (s.dev.set Reg.PWR_HOLD_HOLD_REQ 1) := regsKeepAll_set _ _ _
  have hreq : (s.dev.set Reg.PWR_HOLD_HOLD_REQ 1).get Reg.PWR_HOLD_HOLD_REQ = 1 := Dev.get_set_same _ _ _
  rw [Answers, exec_holdReqWrite hp, writeHoldReq_eq]
  refine ⟨_, rfl, ?_⟩
  dsimp only
  by_cases hstate : s.dev.thermState = 4
  · obtain ⟨tr, htr⟩ := Option.ne_none_iff_exists'.1 (htrip hstate)
    have hstate' : (s.dev.set Reg.PWR_HOLD_HOLD_REQ 1).thermState = 4 := (Dev.get_set_ne _ (by decide) _).trans hstate
    rw [if_pos hstate, tripCause_some (d := s.dev.set Reg.PWR_HOLD_HOLD_REQ 1) htr, if_pos hstate']
    have htalks := pwrEvent_talks (s.dev.set Reg.PWR_HOLD_HOLD_REQ 1) 2 [4, (s.dev.set Reg.PWR_HOLD_HOLD_REQ 1).tjWord, tr.seq]
    have hget := htalks.2 Reg.PWR_HOLD_HOLD_REQ (by simp) (notTalk_power (by simp))
    obtain ⟨hwork, hkeep', -⟩ := talks_after (x := s.dev.pw) rfl hkeep htalks
    exact ⟨hget.trans hreq, fun h => absurd hstate h, congrArg (fun d => { s with dev := d }) hwork, hkeep'⟩
  · rw [if_neg hstate]
    exact ⟨hreq, fun _ => hkeep, rfl, regsKeep_of_regsKeepAll hkeep⟩

theorem holdReq_not_tripKey : Reg.PWR_HOLD_HOLD_REQ.key ∉ tripKeys := by decide +kernel

/-- A hold request in cold hold without a trip begins one. -/
theorem holdReqWrite_begins {src : Source} {s : State} (hp : Passes s.dev src 0xA054) (hstate : s.dev.thermState = 4) (hnone : s.dev.pw.trip = none) :
    Answers (.holdReqWrite src) s fun t =>
      t.dev.get Reg.PWR_HOLD_HOLD_REQ = 1 ∧ t.dev.thermState = 3 ∧ t.dev.get Reg.PWR_THERM_STATUS_CAUSE = 4 ∧ t.dev.pins.trip = true
      ∧ (t.dev.pw.trip.map fun x => x.cause) = some 4 ∧ t.fuses = s.fuses ∧ t.ecc = s.ecc ∧ t.pending = s.pending := by
  have hbegun := tripBegin_spec (s.dev.set Reg.PWR_HOLD_HOLD_REQ 1) (cause := 4) (by decide)
  have hreq : (s.dev.set Reg.PWR_HOLD_HOLD_REQ 1).get Reg.PWR_HOLD_HOLD_REQ = 1 := Dev.get_set_same _ _ _
  rw [Answers, exec_holdReqWrite hp, writeHoldReq_eq, if_pos hstate, tripCause_none (d := s.dev.set Reg.PWR_HOLD_HOLD_REQ 1) hnone]
  generalize (s.dev.set Reg.PWR_HOLD_HOLD_REQ 1).tripBegin 4 = t at hbegun ⊢
  have htrip : t.pw.trip.map (fun x => x.cause) = some 4 := by rw [hbegun.pw]; rfl
  have hpin : t.pins.trip = true := by rw [hbegun.pins]
  exact ⟨_, rfl, (hbegun.regs _ holdReq_not_tripKey).trans hreq, hbegun.state, hbegun.why, hpin, htrip, rfl, rfl, rfl⟩

/-! ### A write of PWR_RELEASE (R500, R516) -/

theorem exec_pwrReleaseWrite {src : Source} {key : Word} {s : State} (hp : Passes s.dev src 0xA050) :
    exec (.pwrReleaseWrite src key) s = .next { s with dev := s.dev.writeRelease src key.toNat } := by
  show onDev (fun d => d.gated src 0xA050 fun d => d.writeRelease src key.toNat) s = _
  rw [onDev, gated_of_passes hp]

theorem releaseCheck_none {d : Dev} (h : d.pw.trip = none) (key : Nat) : d.releaseCheck key = 2 := by
  rw [Dev.releaseCheck, h]

theorem releaseCheck_some {d : Dev} {tr : Trip} (h : d.pw.trip = some tr) (key : Nat) :
    d.releaseCheck key = if d.thermState ≠ 4 ∨ key ≠ tr.seq % 2 ^ 32 then 2 else if 1440 ≤ d.tj then 1 else 0 := by
  rw [Dev.releaseCheck, h]
  simp only [Bool.or_eq_true, bne_iff_ne]

theorem writeRelease_refused {d : Dev} {key : Nat} (src : Source) (h : d.releaseCheck key ≠ 0) :
    d.writeRelease src key = d.set Reg.PWR_HOLD_RELEASE_RESULT (d.releaseCheck key) := by
  unfold Dev.writeRelease
  dsimp only
  split
  next h0 _ => exact absurd h0 h
  next => rfl

theorem writeRelease_taken {d : Dev} {key : Nat} {tr : Trip} (src : Source) (h : d.releaseCheck key = 0) (htrip : d.pw.trip = some tr) :
    d.writeRelease src key = ((d.set Reg.PWR_HOLD_RELEASE_RESULT 0).releaseOk src tr).2 := by
  unfold Dev.writeRelease
  dsimp only
  rw [h, Dev.set_pw, htrip]
  rfl

/-- An accepted release: its ledger entry, the request to leave the hold, and its event. -/
theorem releaseOk_spec (d : Dev) (src : Source) (tr : Trip) :
    (let t := (d.releaseOk src tr).2
     t = { talked d t with ledger := t.ledger, pw := { d.pw with release := true } } ∧ RegsKeep ledgerKeys d t ∧ t.pw = { d.pw with release := true }) := by
  have hentry := fun payload => ldgEntry_step d 3 payload
  obtain ⟨payload, heq⟩ : ∃ payload, (d.releaseOk src tr).2 = ({ (d.ldgEntry 3 payload).2 with
      pw := { (d.ldgEntry 3 payload).2.pw with release := true } } : Dev).pwrEvent 3 [(d.ldgEntry 3 payload).1] := ⟨_, rfl⟩
  specialize hentry payload
  rw [heq]
  generalize d.ldgEntry 3 payload = entry at hentry ⊢
  obtain ⟨htalk, hkeep⟩ := pwrEvent_talks { entry.2 with pw := { entry.2.pw with release := true } } 3 [entry.1]
  generalize ({ entry.2 with pw := { entry.2.pw with release := true } } : Dev).pwrEvent 3 [entry.1] = t at htalk hkeep ⊢
  have hledger : t.ledger = entry.2.ledger := by rw [htalk]; rfl
  have hpw : t.pw = { d.pw with release := true } := by rw [htalk, hentry.work]; rfl
  refine ⟨?_, fun f hf hcount => (hkeep f (by simp) hcount).trans (hentry.regs f hf), hpw⟩
  rw [hledger]
  rw [hentry.work] at htalk
  exact htalk

/-- A write of PWR_RELEASE while a trip is held: its outcome, and what an accepted one asks for. -/
theorem pwrReleaseWrite_spec {src : Source} {key : Word} {tr : Trip} {s : State} (hp : Passes s.dev src 0xA050) (htrip : s.dev.pw.trip = some tr) :
    Answers (.pwrReleaseWrite src key) s fun t =>
      (let r : Nat := if s.dev.thermState ≠ 4 ∨ key.toNat ≠ tr.seq % 2 ^ 32 then 2 else if 1440 ≤ s.dev.tj then 1 else 0
       t.dev.get Reg.PWR_HOLD_RELEASE_RESULT = r ∧ t.dev.pw = { s.dev.pw with release := if r = 0 then true else s.dev.pw.release }
       ∧ (r ≠ 0 → t.dev.ledger = s.dev.ledger ∧ RegsKeepAll [Reg.PWR_HOLD_RELEASE_RESULT.key] s.dev t.dev))
      ∧ t = { s with dev := { talked s.dev t.dev with ledger := t.dev.ledger, pw := t.dev.pw } }
      ∧ RegsKeep [Reg.PWR_HOLD_RELEASE_RESULT.key, Reg.LDG_STATUS_NEXT_SLOT.key, Reg.LDG_STATUS_WRITE_ERR.key] s.dev t.dev := by
  have hcheck := releaseCheck_some htrip key.toNat
  have hlt : s.dev.releaseCheck key.toNat < 4 := by rw [hcheck]; split <;> [decide; (split <;> decide)]
  dsimp only
  rw [← hcheck, Answers, exec_pwrReleaseWrite hp]
  refine ⟨_, rfl, ?_⟩
  dsimp only
  by_cases hr : s.dev.releaseCheck key.toNat = 0
  · obtain ⟨hwork, hkeep, hpw⟩ := releaseOk_spec (s.dev.set Reg.PWR_HOLD_RELEASE_RESULT 0) src tr
    rw [writeRelease_taken src hr htrip, hr]
    have hset : RegsKeepAll [Reg.PWR_HOLD_RELEASE_RESULT.key, Reg.LDG_STATUS_NEXT_SLOT.key, Reg.LDG_STATUS_WRITE_ERR.key] s.dev
        (s.dev.set Reg.PWR_HOLD_RELEASE_RESULT 0) := regsKeepAll_set_of_mem (by simp)
    have hget := hkeep Reg.PWR_HOLD_RELEASE_RESULT (by decide) (notTalk_power (by simp))
    generalize ((s.dev.set Reg.PWR_HOLD_RELEASE_RESULT 0).releaseOk src tr).2 = t at hwork hkeep hpw hget ⊢
    refine ⟨⟨hget.trans (Dev.get_set_same _ _ _), hpw, fun h => absurd rfl h⟩, ?_, fun f hf hcount => (hkeep f ?_ hcount).trans (hset f hf)⟩
    · rw [hpw]
      exact congrArg (fun d => { s with dev := d }) hwork
    · exact fun h => hf (List.mem_cons_of_mem _ h)
  · have hset : RegsKeepAll [Reg.PWR_HOLD_RELEASE_RESULT.key] s.dev (s.dev.set Reg.PWR_HOLD_RELEASE_RESULT (s.dev.releaseCheck key.toNat)) :=
      regsKeepAll_set _ _ _
    rw [writeRelease_refused src hr, if_neg hr]
    exact ⟨⟨(Dev.get_set_same _ _ _).trans (Nat.mod_eq_of_lt hlt), rfl, fun _ => ⟨rfl, hset⟩⟩, rfl,
      regsKeep_of_regsKeepAll (regsKeepAll_mono hset (by simp))⟩

theorem pwrReleaseWrite_idle {src : Source} {key : Word} {s : State} (hp : Passes s.dev src 0xA050) (htrip : s.dev.pw.trip = none) :
    Answers (.pwrReleaseWrite src key) s fun t =>
      t.dev.get Reg.PWR_HOLD_RELEASE_RESULT = 2 ∧ t = { s with dev := { s.dev with regs := t.dev.regs } }
      ∧ RegsKeepAll [Reg.PWR_HOLD_RELEASE_RESULT.key] s.dev t.dev := by
  have hcheck := releaseCheck_none htrip key.toNat
  rw [Answers, exec_pwrReleaseWrite hp, writeRelease_refused src (by rw [hcheck]; decide), hcheck]
  exact ⟨_, rfl, Dev.get_set_same _ _ _, rfl, regsKeepAll_set _ _ _⟩

/-! ### The ledger's read port (R517) -/

theorem ldgDataRead_spec {s : State} (h : s.dev.up = true ∨ s.dev.boot = .held) :
    Answers .ldgDataRead s fun t =>
      t.dev.get Reg.LDG_DATA_DATA = s.dev.ldgWord (s.dev.get Reg.LDG_ADDR_WORD) % 2 ^ 32
      ∧ t.dev.get Reg.LDG_ADDR_WORD = (s.dev.get Reg.LDG_ADDR_WORD + 1) % 4096
      ∧ t = { s with dev := { s.dev with regs := t.dev.regs } } ∧ RegsKeepAll [Reg.LDG_DATA_DATA.key, Reg.LDG_ADDR_WORD.key] s.dev t.dev := by
  have hgo : (s.dev.up || s.dev.boot == .held) = true := by simpa using h
  have hexec : exec .ldgDataRead s = .next { s with dev := if (s.dev.up || s.dev.boot == .held) = true then s.dev.ldgRead.2 else s.dev } := rfl
  rw [Answers, hexec, if_pos hgo]
  exact ⟨_, rfl, (Dev.get_set_ne _ (by decide) _).trans (Dev.get_set_same _ _ _), Dev.get_set_same _ _ _, rfl,
    regsKeepAll_trans (regsKeepAll_set_of_mem (by simp)) (regsKeepAll_set_of_mem (by simp))⟩

/-! ### The hold is released (R501) -/

/-- Whether a device asks for the same domains is read off what it has in force, its role, its time ports and its link. -/
structure SameWish (d t : Dev) : Prop where
  force : t.force = d.force
  hr : t.hr = d.hr
  regs : ∀ f : Fld, f.key < 0xA018 * 32 ∨ 0xB000 * 32 ≤ f.key → t.get f = d.get f

theorem SameWish.refl (d : Dev) : SameWish d d := ⟨rfl, rfl, fun _ _ => rfl⟩

theorem SameWish.trans {a b c : Dev} (h : SameWish a b) (k : SameWish b c) : SameWish a c :=
  ⟨k.force.trans h.force, k.hr.trans h.hr, fun f hf => (k.regs f hf).trans (h.regs f hf)⟩

section
variable {d t : Dev} (h : SameWish d t)
include h

theorem SameWish.role : t.role = d.role := congrArg roleOfNat (h.regs _ (.inl (by decide)))

theorem SameWish.chEn (n : Nat) : t.chEn n = d.chEn n := congrArg (· != 0) (eff_eq_of_force (f := Reg.CH_CTRL_ENABLE n) rfl h.force)

theorem SameWish.mdEn (m : Nat) : t.mdEn m = d.mdEn m := congrArg (bitOf · m) (eff_eq_of_force (f := Reg.PWR_MEM_CTRL_MD_EN) rfl h.force)

theorem SameWish.lender (k : Nat) : t.lender k = d.lender k := by
  rw [Dev.lender, Dev.lender, h.role, eff_eq_of_force (f := Reg.TDC_LEND_LEND_A) rfl h.force, eff_eq_of_force (f := Reg.TDC_LEND_LEND_B) rfl h.force]

theorem SameWish.lends (n : Nat) : t.lends n = d.lends n := by
  have hport (k : Nat) (hk : k < 2) : t.flag (Reg.TIM_DOM_CFG_ENABLE k) = d.flag (Reg.TIM_DOM_CFG_ENABLE k) := by
    rw [Dev.flag, Dev.flag, h.regs _ (.inl (by simp only [Fld.key, Reg.TIM_DOM_CFG_ENABLE]; omega))]
  have hlending : t.lending n = d.lending n := by
    rw [Dev.lending, Dev.lending, show List.range 2 = [0, 1] from rfl, List.any_cons, List.any_cons, List.any_cons, List.any_cons, hport 0 (by decide),
      hport 1 (by decide), h.lender, h.lender]
    rfl
  rw [Dev.lends, Dev.lends, h.role, hlending]

theorem SameWish.lqWanted (q : Nat) : t.lqWanted q = d.lqWanted q := by
  have hlane (l : Nat) : t.effB (Reg.LN_CTRL_ENABLE l) = d.effB (Reg.LN_CTRL_ENABLE l) :=
    congrArg (· != 0) (eff_eq_of_force (f := Reg.LN_CTRL_ENABLE l) rfl h.force)
  have hfail : t.get Reg.FLT_SELFTEST_LQ_FAIL = d.get Reg.FLT_SELFTEST_LQ_FAIL := h.regs _ (.inr (by decide))
  have hlink : t.linkUp = d.linkUp := congrArg (· != 0) (h.regs Reg.HR_LINK_STATUS_LINK_UP (.inl (by decide)))
  rw [Dev.lqWanted, Dev.lqWanted, h.role, hfail, hlink, h.hr]
  simp only [hlane]

end

/-- A power-on of domain `code` waits (R479). -/
def Asked (d : Dev) (code : Nat) : Prop := ∃ c ∈ d.pw.req, c % 64 = code

def chStateKeys : List Nat := (List.range 48).map fun n => (Reg.PWR_CH_STATE n).key

/-- Power-ons may be asked for, and channel states change; what waits goes on waiting. -/
structure Asks (d t : Dev) : Prop where
  frame : t = { d with regs := t.regs, pw := { d.pw with req := t.pw.req } }
  regs : RegsKeepAll chStateKeys d t
  asked : ∀ code, Asked d code → Asked t code

theorem Asks.refl (d : Dev) : Asks d d := ⟨rfl, fun _ _ => rfl, fun _ h => h⟩

theorem Asks.trans {a b c : Dev} (h : Asks a b) (k : Asks b c) : Asks a c := by
  refine ⟨?_, regsKeepAll_trans h.regs k.regs, fun code hc => k.asked code (h.asked code hc)⟩
  have hframe := k.frame
  rw [h.frame] at hframe
  exact hframe

theorem chStateKeys_between : ∀ k ∈ chStateKeys, 0xA018 * 32 ≤ k ∧ k < 0xB000 * 32 := by decide +kernel

theorem Asks.sameWish {d t : Dev} (h : Asks d t) : SameWish d t := by
  refine ⟨by rw [h.frame], by rw [h.frame], fun f hf => h.regs f fun hmem => ?_⟩
  have hbetween := chStateKeys_between _ hmem
  omega

theorem powerReq_asks (d : Dev) (code : Nat) : Asks d (d.powerReq code true) ∧ (code < 64 → Asked (d.powerReq code true) code) := by
  unfold Dev.powerReq
  split
  next h =>
    obtain ⟨c, hc, hcode⟩ := List.any_eq_true.1 h
    exact ⟨.refl d, fun _ => ⟨c, hc, by simpa using hcode⟩⟩
  next =>
    refine ⟨⟨rfl, fun _ _ => rfl, fun j ⟨c, hc, hj⟩ => ⟨c, List.mem_append_left _ hc, hj⟩⟩, fun hlt => ?_⟩
    exact ⟨code + 64, List.mem_append_right _ (List.mem_singleton_self _), by omega⟩

def Dev.askMd (d : Dev) (m : Nat) : Dev := if d.mdEn m then d.powerReq (60 + m) true else d
def Dev.askLq (d : Dev) (q : Nat) : Dev := if d.lqWanted q then d.powerReq (48 + q) true else d
def Dev.untrip (d : Dev) (n : Nat) : Dev := if d.chState n = 6 then d.setCh n 0 else d
def Dev.askCh (d : Dev) (n : Nat) : Dev :=
  if (d.untrip n).role == .frontEnd && (d.untrip n).chEn n || (d.untrip n).lends n then (d.untrip n).powerReq n true else d.untrip n

theorem askMd_asks (d : Dev) (m : Nat) : Asks d (d.askMd m) := by
  unfold Dev.askMd
  split
  · exact (powerReq_asks d _).1
  · exact .refl d

theorem askLq_asks (d : Dev) (q : Nat) : Asks d (d.askLq q) := by
  unfold Dev.askLq
  split
  · exact (powerReq_asks d _).1
  · exact .refl d

theorem untrip_asks (d : Dev) {n : Nat} (hn : n < 48) : Asks d (d.untrip n) := by
  unfold Dev.untrip
  split
  · exact ⟨rfl, regsKeepAll_set_of_mem (d := d) (f := Reg.PWR_CH_STATE n) (v := 0) (List.mem_map_of_mem (List.mem_range.2 hn)), fun _ h => h⟩
  · exact .refl d

theorem askCh_asks (d : Dev) {n : Nat} (hn : n < 48) : Asks d (d.askCh n) := by
  unfold Dev.askCh
  split
  · exact (untrip_asks d hn).trans (powerReq_asks _ _).1
  · exact untrip_asks d hn

/-- Whether channel `n` is asked for: enabled in a front-end, or a lender. -/
def Dev.chWanted (d : Dev) (n : Nat) : Prop := d.role = .frontEnd ∧ d.chEn n = true ∨ d.lends n = true

theorem SameWish.chWanted {d t : Dev} (h : SameWish d t) (n : Nat) : t.chWanted n ↔ d.chWanted n := by
  rw [Dev.chWanted, Dev.chWanted, h.role, h.chEn, h.lends]

theorem askMd_asked {d : Dev} {m : Nat} (hm : m < 4) (hen : d.mdEn m = true) : Asked (d.askMd m) (60 + m) := by
  rw [Dev.askMd, if_pos hen]
  exact (powerReq_asks d (60 + m)).2 (by omega)

theorem askLq_asked {d : Dev} {q : Nat} (hq : q < 12) (hen : d.lqWanted q = true) : Asked (d.askLq q) (48 + q) := by
  rw [Dev.askLq, if_pos hen]
  exact (powerReq_asks d (48 + q)).2 (by omega)

theorem askCh_asked {d : Dev} {n : Nat} (hn : n < 48) (hw : d.chWanted n) : Asked (d.askCh n) n := by
  have hgo : ((d.untrip n).role == .frontEnd && (d.untrip n).chEn n || (d.untrip n).lends n) = true := by
    have hw' := ((untrip_asks d hn).sameWish.chWanted n).2 hw
    simpa [Dev.chWanted] using hw'
  rw [Dev.askCh, if_pos hgo]
  exact (powerReq_asks (d.untrip n) n).2 (by omega)

theorem powerReq_regs (d : Dev) (code : Nat) (adm : Bool) : (d.powerReq code adm).regs = d.regs := by
  unfold Dev.powerReq
  split <;> rfl

theorem askMd_regs (d : Dev) (m : Nat) : (d.askMd m).regs = d.regs := by
  unfold Dev.askMd
  split
  · exact powerReq_regs d _ _
  · rfl

theorem askLq_regs (d : Dev) (q : Nat) : (d.askLq q).regs = d.regs := by
  unfold Dev.askLq
  split
  · exact powerReq_regs d _ _
  · rfl

theorem askCh_untrips (d : Dev) (n m : Nat) :
    (d.askCh n).chState m = if m = n then (if d.chState m = 6 then 0 else d.chState m) else d.chState m := by
  have hask : (d.askCh n).chState m = (d.untrip n).chState m := by
    unfold Dev.askCh
    split
    · exact get_of_regs (powerReq_regs _ _ _) _
    · rfl
  rw [hask, Dev.untrip]
  by_cases hmn : m = n
  · subst hmn
    rw [if_pos rfl]
    split
    · exact chState_setCh d m (by decide)
    · rfl
  · rw [if_neg hmn]
    split
    · exact Dev.get_set_ne d (PWR_CH_STATE_ne hmn) _
    · rfl

/-- What all the requests of a release leave. -/
theorem askAll_spec (d : Dev) :
    (let t := (List.range 48).foldl Dev.askCh ((List.range 12).foldl Dev.askLq ((List.range 4).foldl Dev.askMd d))
     Asks d t ∧ (∀ m < 4, d.mdEn m = true → Asked t (60 + m)) ∧ (∀ q < 12, d.lqWanted q = true → Asked t (48 + q))
      ∧ (∀ n < 48, d.chWanted n → Asked t n) ∧ ∀ n < 48, t.chState n = if d.chState n = 6 then 0 else d.chState n) := by
  have hmd : Asks d ((List.range 4).foldl Dev.askMd d) := foldl_step Asks.refl Asks.trans (fun m _ e => askMd_asks e m) d
  have hmdRegs : ((List.range 4).foldl Dev.askMd d).regs = d.regs :=
    List.foldlRecOn (motive := fun y => y.regs = d.regs) _ _ rfl fun y hy m _ => (askMd_regs y m).trans hy
  have hmdAsked (m : Nat) (hm : m < 4) (hen : d.mdEn m = true) : Asked ((List.range 4).foldl Dev.askMd d) (60 + m) := by
    have hkept := foldl_attains (P := fun e => e.mdEn m = true → Asked e (60 + m)) (step := Dev.askMd)
      (fun a _ e he hw => (askMd_asks e a).asked _ (he (((askMd_asks e a).sameWish.mdEn m).symm.trans hw)))
      (fun e hw => askMd_asked hm (((askMd_asks e m).sameWish.mdEn m).symm.trans hw)) (List.mem_range.2 hm) d
    exact hkept ((hmd.sameWish.mdEn m).trans hen)
  generalize (List.range 4).foldl Dev.askMd d = e at hmd hmdRegs hmdAsked ⊢
  have hlq : Asks e ((List.range 12).foldl Dev.askLq e) := foldl_step Asks.refl Asks.trans (fun q _ x => askLq_asks x q) e
  have hlqRegs : ((List.range 12).foldl Dev.askLq e).regs = e.regs :=
    List.foldlRecOn (motive := fun y => y.regs = e.regs) _ _ rfl fun y hy q _ => (askLq_regs y q).trans hy
  have hlqAsked (q : Nat) (hq : q < 12) (hw : e.lqWanted q = true) : Asked ((List.range 12).foldl Dev.askLq e) (48 + q) := by
    have hkept := foldl_attains (P := fun x => x.lqWanted q = true → Asked x (48 + q)) (step := Dev.askLq)
      (fun a _ x hx hw => (askLq_asks x a).asked _ (hx (((askLq_asks x a).sameWish.lqWanted q).symm.trans hw)))
      (fun x hw => askLq_asked hq (((askLq_asks x q).sameWish.lqWanted q).symm.trans hw)) (List.mem_range.2 hq) e
    exact hkept ((hlq.sameWish.lqWanted q).trans hw)
  generalize (List.range 12).foldl Dev.askLq e = x at hlq hlqRegs hlqAsked ⊢
  have hch : Asks x ((List.range 48).foldl Dev.askCh x) := foldl_step Asks.refl Asks.trans (fun n hn y => askCh_asks y (List.mem_range.1 hn)) x
  have hchAsked (n : Nat) (hn : n < 48) (hw : x.chWanted n) : Asked ((List.range 48).foldl Dev.askCh x) n := by
    have hkept := foldl_attains (P := fun y => y.chWanted n → Asked y n) (step := Dev.askCh)
      (fun a ha y hy hw => (askCh_asks y (List.mem_range.1 ha)).asked _ (hy (((askCh_asks y (List.mem_range.1 ha)).sameWish.chWanted n).1 hw)))
      (fun y hw => askCh_asked hn (((askCh_asks y hn).sameWish.chWanted n).1 hw)) (List.mem_range.2 hn) x
    exact hkept ((hch.sameWish.chWanted n).2 hw)
  have hstate (n : Nat) (hn : n < 48) : ((List.range 48).foldl Dev.askCh x).chState n = if d.chState n = 6 then 0 else d.chState n := by
    have hfold := foldl_observed (step := Dev.askCh) (obs := fun y => y.chState n) (g := fun v => if v = 6 then 0 else v) (m := n)
      (fun y => (askCh_untrips y n n).trans (if_pos rfl)) (fun y a ha => (askCh_untrips y a n).trans (if_neg (Ne.symm ha)))
      (List.range 48) List.nodup_range x
    rw [if_pos (List.mem_range.2 hn)] at hfold
    have hsame : x.chState n = d.chState n := get_of_regs (hlqRegs.trans hmdRegs) _
    rw [hfold, hsame]
  have hall := (hmd.trans hlq).trans hch
  exact ⟨hall, fun m hm hen => hch.asked _ (hlq.asked _ (hmdAsked m hm hen)),
    fun q hq hw => hch.asked _ (hlqAsked q hq ((hmd.sameWish.lqWanted q).trans hw)),
    fun n hn hw => hchAsked n hn (((hmd.trans hlq).sameWish.chWanted n).2 hw), hstate⟩

/-- The trip is over: the hold and its request are gone. -/
def Dev.holdLeft (d : Dev) : Dev :=
  (({ d with pw := { d.pw with trip := none, release := false, resume := true }, pins := { d.pins with trip := false } } : Dev).set
    Reg.PWR_THERM_STATUS_STATE 0).setB Reg.PWR_HOLD_HOLD_REQ false

/-- A front-end whose bring-up calibration has not begun waits for the channels enabled now (log entry 56). -/
def Dev.rampAgain (d : Dev) : Dev :=
  if d.role == .frontEnd && d.acq.fgFn.isNone then { d with pw := { d.pw with ramp := (List.range 48).filter d.chEn } } else d

def Dev.afterHold (d : Dev) : Dev := (if d.role == .frontEnd then d else d.resumeRecords).throttleOff

theorem exec_holdReleased (s : State) : exec .holdReleased s = .next { s with dev := s.dev.holdReleased } := rfl

theorem holdReleased_idle {d : Dev} (h : d.thermState ≠ 4 ∨ d.pw.release = false) : d.holdReleased = d := by
  refine if_pos ?_
  rcases h with h | h
  · simp [h]
  · simp [h]

theorem holdReleased_eq {d : Dev} (hup : d.up = true) (hstate : d.thermState = 4) (hrel : d.pw.release = true) :
    d.holdReleased = ((List.range 48).foldl Dev.askCh ((List.range 12).foldl Dev.askLq ((List.range 4).foldl Dev.askMd d.holdLeft))).rampAgain.afterHold := by
  have hgo : ¬ ((!d.up || d.thermState != 4 || !d.pw.release) = true) := by simp [hup, hstate, hrel]
  unfold Dev.holdReleased
  rw [if_neg hgo]
  unfold Dev.holdLeft Dev.rampAgain Dev.afterHold Dev.askCh Dev.untrip Dev.askLq Dev.askMd
  dsimp only

theorem rampAgain_eq (d : Dev) : d.rampAgain = { d with pw := { d.pw with
    ramp := if d.role = .frontEnd ∧ d.acq.fgFn = none then (List.range 48).filter d.chEn else d.pw.ramp } } := by
  unfold Dev.rampAgain
  by_cases h : d.role = .frontEnd ∧ d.acq.fgFn = none
  · rw [if_pos (by simpa using h), if_pos h]
  · rw [if_neg (by simpa using h), if_neg h]

theorem throttleOff_eq {d : Dev} (hstate : d.thermState = 0) :
    d.throttleOff = { d with pw := { d.pw with throttle := d.pw.throttle && d.flag Reg.PWR_STATUS_POWER_OVER } } := by
  unfold Dev.throttleOff
  cases hover : d.flag Reg.PWR_STATUS_POWER_OVER with
  | true => rw [if_pos (.inr rfl), Bool.and_true]
  | false => rw [if_neg (by simp [hstate]), Bool.and_false]

/-- What is left to do after the hold: records resume in a cell or hub, and the throttle ends unless the power is still over. -/
theorem afterHold_spec {d : Dev} (hres : d.pw.resume = true) (hstate : d.thermState = 0) :
    d.afterHold = { d with
      pw := { d.pw with resume := d.role == .frontEnd, throttle := d.pw.throttle && d.flag Reg.PWR_STATUS_POWER_OVER }
      acq := { d.acq with fstats := d.afterHold.acq.fstats } } ∧ (d.role = .frontEnd → d.afterHold.acq.fstats = d.acq.fstats) := by
  unfold Dev.afterHold
  by_cases hrole : d.role = .frontEnd
  · have hbeq : (d.role == .frontEnd) = true := by simpa using hrole
    rw [if_pos hbeq, throttleOff_eq hstate, hbeq, ← hres]
    exact ⟨rfl, fun _ => rfl⟩
  · have hbeq : (d.role == .frontEnd) = false := by simpa using hrole
    have hresume : d.resumeRecords = ({ d with pw := { d.pw with resume := false } } : Dev).updFrame d.fn fun s => { s with gone := false } := if_pos hres
    have hstate' : d.resumeRecords.thermState = 0 := by
      rw [hresume]
      exact hstate
    rw [if_neg (by rw [hbeq]; decide), throttleOff_eq hstate', hbeq, hresume]
    exact ⟨rfl, fun h => absurd h hrole⟩

theorem holdLeft_spec (d : Dev) :
    (let t := d.holdLeft
     t.thermState = 0 ∧ t.get Reg.PWR_HOLD_HOLD_REQ = 0
      ∧ t = { d with regs := t.regs, pw := { d.pw with trip := none, release := false, resume := true }, pins := { d.pins with trip := false } }
      ∧ RegsKeepAll [Reg.PWR_THERM_STATUS_STATE.key, Reg.PWR_HOLD_HOLD_REQ.key] d t) := by
  refine ⟨(Dev.get_set_ne _ (by decide) _).trans (Dev.get_set_same _ _ _), Dev.get_set_same _ _ _, rfl, ?_⟩
  exact regsKeepAll_trans (b := d.set Reg.PWR_THERM_STATUS_STATE 0) (regsKeepAll_set_of_mem (by simp))
    (regsKeepAll_set_of_mem (d := d.set Reg.PWR_THERM_STATUS_STATE 0) (f := Reg.PWR_HOLD_HOLD_REQ) (v := 0) (by simp))

theorem hold_not_chStateKey : Reg.PWR_THERM_STATUS_STATE.key ∉ chStateKeys ∧ Reg.PWR_HOLD_HOLD_REQ.key ∉ chStateKeys := by decide +kernel

theorem chState_not_hold : ∀ n < 48, (Reg.PWR_CH_STATE n).key ∉ [Reg.PWR_THERM_STATUS_STATE.key, Reg.PWR_HOLD_HOLD_REQ.key] := by decide +kernel

/-- The hold ends: its state, its pin and its request, the domains that ask for power again, and what waits for them. -/
theorem holdReleased_spec {d t : Dev} (hup : d.up = true) (hstate : d.thermState = 4) (hrel : d.pw.release = true) (ht : t = d.holdReleased) :
    t.thermState = 0 ∧ t.pins = { d.pins with trip := false } ∧ t.get Reg.PWR_HOLD_HOLD_REQ = 0
    ∧ (∀ n : Nat, n < 48 → t.chState n = if d.chState n = 6 then 0 else d.chState n)
    ∧ (∀ m : Nat, m < 4 → d.mdEn m = true → Asked t (60 + m)) ∧ (∀ q : Nat, q < 12 → d.lqWanted q = true → Asked t (48 + q))
    ∧ (∀ n : Nat, n < 48 → d.chWanted n → Asked t n)
    ∧ t.pw = { d.pw with
        trip := none, release := false, resume := d.role == .frontEnd, req := t.pw.req
        throttle := d.pw.throttle && d.flag Reg.PWR_STATUS_POWER_OVER
        ramp := if d.role = .frontEnd ∧ d.acq.fgFn = none then (List.range 48).filter d.chEn else d.pw.ramp }
    ∧ t = { d with regs := t.regs, pins := t.pins, pw := t.pw, acq := { d.acq with fstats := t.acq.fstats } }
    ∧ (d.role = .frontEnd → t.acq.fstats = d.acq.fstats)
    ∧ RegsKeepAll ([Reg.PWR_THERM_STATUS_STATE.key, Reg.PWR_HOLD_HOLD_REQ.key] ++ chStateKeys) d t := by
  obtain ⟨hfree, hfree'⟩ := hold_not_chStateKey
  obtain ⟨hL0, hLreq, hLframe, hLkeep⟩ := holdLeft_spec d
  rw [holdReleased_eq hup hstate hrel] at ht
  have hLwish : SameWish d d.holdLeft := ⟨rfl, rfl, fun f hf => hLkeep f (by
    have hstateKey : Reg.PWR_THERM_STATUS_STATE.key = 0xA03C * 32 + 20 := rfl
    have hreqKey : Reg.PWR_HOLD_HOLD_REQ.key = 0xA054 * 32 := rfl
    simp only [List.mem_cons, List.not_mem_nil, or_false, hstateKey, hreqKey]
    omega)⟩
  generalize d.holdLeft = l at hL0 hLreq hLframe hLkeep hLwish ht
  obtain ⟨hask, hmd, hlq, hch, hchState⟩ := askAll_spec l
  generalize (List.range 48).foldl Dev.askCh ((List.range 12).foldl Dev.askLq ((List.range 4).foldl Dev.askMd l)) = a at hask hmd hlq hch hchState ht
  have hwish := hLwish.trans hask.sameWish
  have hramp := rampAgain_eq a
  have hres : a.rampAgain.pw.resume = true := by rw [hramp, hask.frame, hLframe]
  have hstate0 : a.rampAgain.thermState = 0 := by
    rw [hramp]
    exact (hask.regs _ hfree).trans hL0
  obtain ⟨hafter, hfstats⟩ := afterHold_spec hres hstate0
  rw [← ht] at hafter hfstats
  have hrole : a.rampAgain.role = d.role := by
    rw [hramp]
    exact hwish.role
  have hover : a.rampAgain.flag Reg.PWR_STATUS_POWER_OVER = d.flag Reg.PWR_STATUS_POWER_OVER := by
    rw [hramp]
    exact congrArg (· != 0) (hwish.regs Reg.PWR_STATUS_POWER_OVER (.inl (by decide)))
  have hacq : a.acq = d.acq := by rw [hask.frame, hLframe]
  have hchEn : (List.range 48).filter a.chEn = (List.range 48).filter d.chEn := List.filter_congr fun n _ => hwish.chEn n
  rw [hrole] at hfstats
  rw [hrole, hover] at hafter
  rw [hwish.role, hacq, hchEn] at hramp
  rw [hramp] at hafter hfstats
  have hregs : t.regs = a.regs := by rw [hafter]
  have hreq : t.pw.req = a.pw.req := by rw [hafter]
  have hpins : t.pins = { d.pins with trip := false } := by rw [hafter, hask.frame, hLframe]
  have hpw : t.pw = { d.pw with
      trip := none, release := false, resume := d.role == .frontEnd, req := a.pw.req
      throttle := d.pw.throttle && d.flag Reg.PWR_STATUS_POWER_OVER
      ramp := if d.role = .frontEnd ∧ d.acq.fgFn = none then (List.range 48).filter d.chEn else d.pw.ramp } := by
    rw [hafter, hask.frame, hLframe]
  have hkeep : RegsKeepAll ([Reg.PWR_THERM_STATUS_STATE.key, Reg.PWR_HOLD_HOLD_REQ.key] ++ chStateKeys) d a :=
    regsKeepAll_trans (regsKeepAll_mono hLkeep fun _ => List.mem_append_left _) (regsKeepAll_mono hask.regs fun _ => List.mem_append_right _)
  have hasked (code : Nat) (h : Asked a code) : Asked t code := by
    rw [Asked, hreq]
    exact h
  refine ⟨(get_of_regs hregs _).trans ((hask.regs _ hfree).trans hL0), hpins, (get_of_regs hregs _).trans ((hask.regs _ hfree').trans hLreq),
    fun n hn => ?_, fun m hm hen => hasked _ (hmd m hm ((hLwish.mdEn m).trans hen)), fun q hq hw => hasked _ (hlq q hq ((hLwish.lqWanted q).trans hw)),
    fun n hn hw => hasked _ (hch n hn ((hLwish.chWanted n).2 hw)), hreq ▸ hpw, ?_, hfstats,
    fun f hf => (get_of_regs hregs f).trans (hkeep f hf)⟩
  · have hl : l.chState n = d.chState n := hLkeep _ (chState_not_hold n hn)
    rw [← hl]
    exact (get_of_regs hregs _).trans (hchState n hn)
  · rw [hregs, hpins, hpw]
    rw [hask.frame, hLframe] at hafter
    exact hafter

end Sys2Proof.Machine
end

section
/-! PROOF. Temperature readings: which are accepted, the hottest of them, and what it brings about; O59 from this and what a trip does. -/
namespace Sys2Proof.Machine
open Sys2Proof.Safety

/-! ### The smallest of a list -/

theorem minBy?_none {α : Type} {key : α → Int} {l : List α} (h : minBy? key l = none) : l = [] := by
  cases l with
  | nil => rfl
  | cons x t =>
    rw [minBy?] at h
    split at h
    · cases h
    · split at h <;> cases h

theorem minBy?_some {α : Type} {key : α → Int} {l : List α} {y : α} (h : minBy? key l = some y) : y ∈ l ∧ ∀ x ∈ l, key y ≤ key x := by
  induction l generalizing y with
  | nil => cases h
  | cons x t ih =>
    rw [minBy?] at h
    split at h
    next hnone =>
      obtain rfl : x = y := Option.some.inj h
      rw [minBy?_none hnone]
      exact ⟨.head _, fun z hz => by rw [List.mem_singleton.1 hz]⟩
    next z hz =>
      obtain ⟨hmem, hle⟩ := ih hz
      split at h
      next hxz =>
        obtain rfl : x = y := Option.some.inj h
        exact ⟨.head _, fun w hw => (List.mem_cons.1 hw).elim (fun e => e ▸ le_refl _) fun hw => hxz.trans (hle w hw)⟩
      next hxz =>
        obtain rfl : z = y := Option.some.inj h
        exact ⟨.tail _ hmem, fun w hw => (List.mem_cons.1 hw).elim (fun e => e ▸ (not_le.1 hxz).le) (hle w)⟩

theorem bitOf_mod {n i w : Nat} (h : i < w) : bitOf (n % 2 ^ w) i = bitOf n i := by
  rw [bitOf_eq_testBit, bitOf_eq_testBit, Nat.testBit_mod_two_pow, decide_eq_true h, Bool.true_and]

/-! ### What readings and their events leave (R491, R492) -/

/-- Events go out, the registers at `ks` change, and the counts of rejections. -/
structure GateTalk (ks : List Nat) (d t : Dev) : Prop where
  work : t = { talked d t with pw := { d.pw with rejects := t.pw.rejects } }
  regs : RegsKeep ks d t

section
variable {ks : List Nat}

theorem GateTalk.refl (d : Dev) : GateTalk ks d d := ⟨rfl, fun _ _ _ => rfl⟩

theorem GateTalk.trans {a b c : Dev} (h : GateTalk ks a b) (k : GateTalk ks b c) : GateTalk ks a c := by
  refine ⟨?_, regsKeep_trans h.regs k.regs⟩
  have hwork := k.work
  rw [h.work] at hwork
  exact hwork

theorem GateTalk.set (d : Dev) {f : Fld} (v : Nat) (hf : f.key ∈ ks) : GateTalk ks d (d.set f v) := ⟨rfl, regsKeep_set_of_mem hf⟩

theorem GateTalk.of_talks {d t : Dev} (h : Talks d t) : GateTalk ks d t := by
  obtain ⟨hwork, hkeep⟩ := h
  have hpw : t.pw = d.pw := by rw [hwork]; rfl
  refine ⟨?_, fun f _ hcount => hkeep f (by simp) hcount⟩
  rw [hpw]
  exact hwork

theorem GateTalk.withRejects (d : Dev) (x : List (Nat × Nat)) : GateTalk ks d { d with pw := { d.pw with rejects := x } } := ⟨rfl, fun _ _ _ => rfl⟩

theorem GateTalk.mono {ls : List Nat} {d t : Dev} (h : GateTalk ks d t) (sub : ∀ k ∈ ks, k ∈ ls) : GateTalk ls d t := ⟨h.work, regsKeep_mono h.regs sub⟩

theorem GateTalk.reading {d t : Dev} (h : GateTalk ks d t) (s : Nat) : t.reading s = d.reading s := by
  rw [h.work]
  rfl

end

def gateFields : List Fld :=
  [Reg.PWR_SENSOR_FLAGS_REJECTED, Reg.PWR_SENSOR_FLAGS_BAD, Reg.PWR_THERM_STATUS_ACCEPTED, Reg.PWR_THERM_STATUS_T_J, Reg.PWR_THERM_STATUS_HOT_SENSOR]

def gateKeys : List Nat := gateFields.map Fld.key ++ [Reg.FLT_STATUS_JUNCTION.key, Reg.FLT_STATUS_BEYOND_MODEL.key]

/-- No event counts on a thermal field. -/
theorem notTalk_thermal {f : Fld} (h : f ∈ gateFields ++ [Reg.PWR_THERM_STATUS_STATE, Reg.PWR_THERM_CFG_WARN, Reg.PWR_THERM_CFG_THROTTLE]) :
    ¬ countsTalk f.key := by
  have hkeys : ∀ f ∈ gateFields ++ [Reg.PWR_THERM_STATUS_STATE, Reg.PWR_THERM_CFG_WARN, Reg.PWR_THERM_CFG_THROTTLE], 917504 ≤ f.key
      ∧ f.key ≠ Reg.HR_DROP_STATS_EVT_DROPPED.key ∧ f.key ≠ Reg.EGR_POOL_FREE_PAGES.key ∧ f.key ≠ Reg.EGR_POOL_LOW_WATER.key := by decide +kernel
  obtain ⟨hhigh, hcount⟩ := hkeys f h
  exact notTalk (.inr hhigh) hcount

def badKeys : List Nat := [Reg.PWR_SENSOR_FLAGS_BAD.key]

def countKeys : List Nat := [Reg.PWR_SENSOR_FLAGS_REJECTED.key, Reg.PWR_SENSOR_FLAGS_BAD.key]

/-- A rejected reading: one more of its sensor in a row, which is bad at the fourth. -/
theorem rejectReading_step (d : Dev) (s : Nat) : GateTalk badKeys d (d.rejectReading s) := by
  unfold Dev.rejectReading
  refine (GateTalk.withRejects d (putT s (getT 0 s d.pw.rejects + 1) d.pw.rejects)).trans (GateTalk.trans ?_ (.of_talks (pwrEvent_talks _ _ _)))
  split
  · exact .set _ _ (by simp [badKeys])
  · exact .refl _

/-- What a sensor shows of its rejections: whether it is bad, and how many in a row. -/
def Dev.sensorMarks (d : Dev) (k : Nat) : Bool × Nat := (bitOf (d.get Reg.PWR_SENSOR_FLAGS_BAD) k, getT 0 k d.pw.rejects)

theorem rejectReading_marks (d : Dev) (s : Nat) {k : Nat} (hk : k < 16) :
    (d.rejectReading s).sensorMarks k = if k = s then (bitOf (d.get Reg.PWR_SENSOR_FLAGS_BAD) k || decide (4 ≤ getT 0 k d.pw.rejects + 1), getT 0 k d.pw.rejects + 1)
      else d.sensorMarks k := by
  have hevent (e : Dev) (data : List Nat) : (e.pwrEvent 4 data).sensorMarks k = e.sensorMarks k := by
    obtain ⟨hwork, hkeep⟩ := pwrEvent_talks e 4 data
    have hpw : (e.pwrEvent 4 data).pw = e.pw := by rw [hwork]; rfl
    rw [Dev.sensorMarks, Dev.sensorMarks, hpw, hkeep _ (by simp) (notTalk_thermal (by decide))]
  unfold Dev.rejectReading
  dsimp only
  rw [hevent]
  have hset (e : Dev) : (e.set Reg.PWR_SENSOR_FLAGS_BAD (setBit (e.get Reg.PWR_SENSOR_FLAGS_BAD) s)).sensorMarks k
      = (bitOf (e.get Reg.PWR_SENSOR_FLAGS_BAD) k || decide (k = s), getT 0 k e.pw.rejects) := by
    rw [Dev.sensorMarks, Dev.get_set_same, bitOf_mod (w := Reg.PWR_SENSOR_FLAGS_BAD.width) hk, bitOf_setBit]
    rfl
  by_cases hks : k = s
  · subst hks
    rw [if_pos rfl]
    by_cases hbad : 4 ≤ getT 0 k d.pw.rejects + 1
    · rw [if_pos (decide_eq_true hbad), hset, decide_eq_true hbad, decide_eq_true rfl, Bool.or_true, Bool.or_true, getT_putT_same]
    · rw [if_neg (by simpa using hbad), decide_eq_false hbad, Bool.or_false, Dev.sensorMarks, getT_putT_same]
      rfl
  · rw [if_neg hks]
    split
    · rw [hset, decide_eq_false hks, Bool.or_false, getT_putT_ne _ hks]
      rfl
    · rw [Dev.sensorMarks, getT_putT_ne _ hks]
      rfl

/-! ### A gate's readings applied (R491 to R493) -/

def Dev.accepts (d : Dev) : List Nat := (List.range 16).filter fun s => !d.senBad s && !d.rejects s

def Dev.refuses (d : Dev) : List Nat := (List.range 16).filter fun s => !d.senBad s && d.rejects s

/-- The readings of a gate, and those rejected among them. -/
def Dev.gateCount (d : Dev) (rej : List Nat) : Dev :=
  rej.foldl Dev.rejectReading
    { d.set Reg.PWR_SENSOR_FLAGS_REJECTED (maskOf rej) with pw := { d.pw with rejects := d.pw.rejects.filter fun p => rej.contains p.1 } }

/-- The hottest accepted sensor shown. -/
def Dev.gateHot (d : Dev) (ok : List Nat) : Dev :=
  match minBy? (fun s => -d.reading s) ok with
  | some s => (d.setI Reg.PWR_THERM_STATUS_T_J (d.reading s)).set Reg.PWR_THERM_STATUS_HOT_SENSOR s
  | none => d

def Dev.gateBreach (d : Dev) (ok : List Nat) : Dev :=
  if !ok.isEmpty && (decide ((1680 : Int) < d.tj) || decide (d.tj < (-720 : Int))) then d.breach Reg.FLT_STATUS_JUNCTION else d

/-- What the readings bring about. -/
def Dev.gateTherm (d : Dev) (ok : List Nat) : Dev :=
  if (1920 : Int) ≤ d.tj ∧ ok.isEmpty = false then d.tripCause 1
  else if ok.length < 4 then d.tripCause 3
  else whenD (d.thermState < 3) Dev.thermStep d

/-- The device with a gate's counts as its newest readings. -/
def Dev.newGate (d : Dev) (cs : List Nat) : Dev := { d with pw := { d.pw with gate := none, counts := cs } }

theorem applyGate_eq {d : Dev} {cs : List Nat} (h : d.pw.gate = some cs) :
    d.applyGate = ((((((d.newGate cs).gateCount (d.newGate cs).refuses).set Reg.PWR_THERM_STATUS_ACCEPTED (d.newGate cs).accepts.length).gateHot
      (d.newGate cs).accepts).gateBreach (d.newGate cs).accepts).gateTherm (d.newGate cs).accepts).autoDt := by
  unfold Dev.applyGate
  rw [h]
  rfl

theorem gateCount_spec (d : Dev) :
    (let t := d.gateCount d.refuses
     GateTalk countKeys d t
      ∧ (∀ k < 16, bitOf (t.get Reg.PWR_SENSOR_FLAGS_REJECTED) k = (!d.senBad k && d.rejects k))
      ∧ ∀ k < 16, d.senBad k = false → d.rejects k = true → bitOf (t.get Reg.PWR_SENSOR_FLAGS_BAD) k = decide (4 ≤ getT 0 k d.pw.rejects + 1)) := by
  have hstart : GateTalk countKeys d { d.set Reg.PWR_SENSOR_FLAGS_REJECTED (maskOf d.refuses) with
      pw := { d.pw with rejects := d.pw.rejects.filter fun p => d.refuses.contains p.1 } } :=
    (GateTalk.set d _ (by decide)).trans (.withRejects _ _)
  have hshown : (d.set Reg.PWR_SENSOR_FLAGS_REJECTED (maskOf d.refuses)).get Reg.PWR_SENSOR_FLAGS_REJECTED = maskOf d.refuses % 2 ^ 16 := Dev.get_set_same _ _ _
  have hmem (k : Nat) (hk : k < 16) : decide (k ∈ d.refuses) = (!d.senBad k && d.rejects k) := by
    rw [Bool.eq_iff_iff, decide_eq_true_eq, Dev.refuses, List.mem_filter, List.mem_range]
    exact ⟨fun h => h.2, fun h => ⟨hk, h⟩⟩
  have hmarks (k : Nat) (hk : k < 16) (hbad : d.senBad k = false) (hrej : d.rejects k = true) :
      ({ d.set Reg.PWR_SENSOR_FLAGS_REJECTED (maskOf d.refuses) with
        pw := { d.pw with rejects := d.pw.rejects.filter fun p => d.refuses.contains p.1 } } : Dev).sensorMarks k = (false, getT 0 k d.pw.rejects) := by
    have hin : d.refuses.contains k = true := by
      have hk' := hmem k hk
      rw [hbad, hrej] at hk'
      simpa using hk'
    have hsame : (d.set Reg.PWR_SENSOR_FLAGS_REJECTED (maskOf d.refuses)).get Reg.PWR_SENSOR_FLAGS_BAD = d.get Reg.PWR_SENSOR_FLAGS_BAD :=
      Dev.get_set_ne _ (by decide) _
    exact congrArg₂ Prod.mk ((congrArg (bitOf · k) hsame).trans hbad) (getT_filter_of_pos 0 (fun _ => hin) _)
  unfold Dev.gateCount
  have hget : ({ d.set Reg.PWR_SENSOR_FLAGS_REJECTED (maskOf d.refuses) with
      pw := { d.pw with rejects := d.pw.rejects.filter fun p => d.refuses.contains p.1 } } : Dev).get Reg.PWR_SENSOR_FLAGS_REJECTED = maskOf d.refuses % 2 ^ 16 := hshown
  generalize ({ d.set Reg.PWR_SENSOR_FLAGS_REJECTED (maskOf d.refuses) with
      pw := { d.pw with rejects := d.pw.rejects.filter fun p => d.refuses.contains p.1 } } : Dev) = e at hstart hget hmarks ⊢
  have hfold : GateTalk badKeys e (d.refuses.foldl Dev.rejectReading e) := foldl_step GateTalk.refl GateTalk.trans (fun s _ x => rejectReading_step x s) e
  have hnodup : d.refuses.Nodup := List.nodup_range.filter _
  refine ⟨hstart.trans (hfold.mono (by decide)), fun k hk => ?_, fun k hk hbad hrej => ?_⟩
  · rw [hfold.regs _ (by decide) (notTalk_thermal (by decide)), hget, bitOf_mod hk, bitOf_maskOf, hmem k hk]
  · have hall := foldl_observed (step := Dev.rejectReading) (obs := fun x => x.sensorMarks k) (g := fun m => (m.1 || decide (4 ≤ m.2 + 1), m.2 + 1)) (m := k)
      (fun x => (rejectReading_marks x k hk).trans (if_pos rfl)) (fun x s hs => (rejectReading_marks x s hk).trans (if_neg (Ne.symm hs)))
      d.refuses hnodup e
    have hin : k ∈ d.refuses := by
      have hk' := hmem k hk
      rw [hbad, hrej] at hk'
      simpa using hk'
    rw [if_pos hin, hmarks k hk hbad hrej] at hall
    exact congrArg Prod.fst hall

/-- The readings of a gate as shown: how many were accepted, which were rejected, and the hottest of them. -/
structure GateShown (d t : Dev) : Prop where
  accepted : t.get Reg.PWR_THERM_STATUS_ACCEPTED = d.accepts.length
  rejected : ∀ k < 16, bitOf (t.get Reg.PWR_SENSOR_FLAGS_REJECTED) k = (!d.senBad k && d.rejects k)
  marked : ∀ k < 16, d.senBad k = false → d.rejects k = true → bitOf (t.get Reg.PWR_SENSOR_FLAGS_BAD) k = decide (4 ≤ getT 0 k d.pw.rejects + 1)
  hottest : ∀ k ∈ d.accepts, d.reading k ≤ t.tj
  hot : d.accepts ≠ [] → t.get Reg.PWR_THERM_STATUS_HOT_SENSOR ∈ d.accepts ∧ t.tj = d.reading (t.get Reg.PWR_THERM_STATUS_HOT_SENSOR)
  unread : d.accepts = [] → t.tj = d.tj

/-- Where the fields of a gate stand, so does what they show. -/
theorem GateShown.of_kept {d t t' : Dev} (h : GateShown d t) (hkeep : ∀ f ∈ gateFields, t'.get f = t.get f) : GateShown d t' := by
  have htj : t'.tj = t.tj := congrArg (toSigned 16) (hkeep Reg.PWR_THERM_STATUS_T_J (by simp [gateFields]))
  have hhot := hkeep Reg.PWR_THERM_STATUS_HOT_SENSOR (by simp [gateFields])
  refine ⟨(hkeep _ (by simp [gateFields])).trans h.accepted, fun k hk => ?_, fun k hk hbad hrej => ?_, fun k hk => ?_, fun hne => ?_, fun hnil => ?_⟩
  · rw [hkeep _ (by simp [gateFields])]
    exact h.rejected k hk
  · rw [hkeep _ (by simp [gateFields])]
    exact h.marked k hk hbad hrej
  · rw [htj]
    exact h.hottest k hk
  · rw [htj, hhot]
    exact h.hot hne
  · rw [htj]
    exact h.unread hnil

theorem mem_accepts {d : Dev} {k : Nat} : k ∈ d.accepts ↔ k < 16 ∧ d.senBad k = false ∧ d.rejects k = false := by
  simp [Dev.accepts]

theorem accepts_length_le (d : Dev) : d.accepts.length ≤ 16 := (List.length_filter_le _ _).trans List.length_range.le

/-- A reading that is not rejected is in band. -/
theorem reading_of_accepted {d : Dev} {k : Nat} (h : d.rejects k = false) : -960 ≤ d.reading k ∧ d.reading k ≤ 2400 := by
  simp only [Dev.rejects, inBand, Bool.or_eq_false_iff, Bool.not_eq_false', Bool.and_eq_true, decide_eq_true_eq] at h
  exact h.1

/-- A temperature in band reads back from T_J. -/
theorem tj_setI {d : Dev} {i : Int} (hlo : -960 ≤ i) (hhi : i ≤ 2400) : (d.setI Reg.PWR_THERM_STATUS_T_J i).tj = i := by
  have hfits : toSigned 16 (ofSigned 16 i % 2 ^ 16) = i := by
    unfold toSigned ofSigned
    by_cases hneg : i < 0
    · rw [if_neg (by omega)]
      omega
    · rw [if_pos (by omega)]
      omega
  have hget : (d.setI Reg.PWR_THERM_STATUS_T_J i).get Reg.PWR_THERM_STATUS_T_J = ofSigned 16 i % 2 ^ 16 := Dev.get_set_same d _ _
  rw [Dev.tj, Dev.getI, hget]
  exact hfits

/-- The hottest of the accepted readings is shown with its sensor. -/
theorem gateHot_spec {d e : Dev} (he : GateTalk gateKeys d e) (htj : e.tj = d.tj) :
    (let t := e.gateHot d.accepts
     GateTalk gateKeys e t ∧ (∀ f : Fld, f.key ∉ [Reg.PWR_THERM_STATUS_T_J.key, Reg.PWR_THERM_STATUS_HOT_SENSOR.key] → t.get f = e.get f)
      ∧ (∀ k ∈ d.accepts, d.reading k ≤ t.tj)
      ∧ (d.accepts ≠ [] → t.get Reg.PWR_THERM_STATUS_HOT_SENSOR ∈ d.accepts ∧ t.tj = d.reading (t.get Reg.PWR_THERM_STATUS_HOT_SENSOR))
      ∧ (d.accepts = [] → t.tj = d.tj)) := by
  have hreading : e.reading = d.reading := funext he.reading
  unfold Dev.gateHot
  dsimp only
  rw [hreading]
  cases hmin : minBy? (fun s => -d.reading s) d.accepts with
  | none =>
    have hnil := minBy?_none hmin
    rw [hnil]
    exact ⟨.refl e, fun _ _ => rfl, fun k hk => (List.not_mem_nil hk).elim, fun h => absurd rfl h, fun _ => htj⟩
  | some s =>
    obtain ⟨hs, hle⟩ := minBy?_some hmin
    obtain ⟨hs16, -, hok⟩ := mem_accepts.1 hs
    obtain ⟨hlo, hhi⟩ := reading_of_accepted hok
    dsimp only
    have hhot : ((e.setI Reg.PWR_THERM_STATUS_T_J (d.reading s)).set Reg.PWR_THERM_STATUS_HOT_SENSOR s).get Reg.PWR_THERM_STATUS_HOT_SENSOR = s :=
      (Dev.get_set_same _ _ _).trans (Nat.mod_eq_of_lt hs16)
    have htj' : ((e.setI Reg.PWR_THERM_STATUS_T_J (d.reading s)).set Reg.PWR_THERM_STATUS_HOT_SENSOR s).tj = d.reading s :=
      (congrArg (toSigned 16) (Dev.get_set_ne _ (by decide) _)).trans (tj_setI hlo hhi)
    refine ⟨(GateTalk.set e _ (by decide)).trans (.set _ _ (by decide)), fun f hf => ?_, fun k hk => ?_, fun _ => ?_, fun hnil => ?_⟩
    · simp only [List.mem_cons, List.not_mem_nil, or_false, not_or] at hf
      exact (Dev.get_set_ne _ hf.2 _).trans (Dev.get_set_ne _ hf.1 _)
    · rw [htj']
      exact Int.neg_le_neg_iff.1 (hle k hk)
    · rw [hhot, htj']
      exact ⟨hs, rfl⟩
    · rw [hnil] at hs
      exact (List.not_mem_nil hs).elim

/-- A breach of the junction's limit leaves the fields of a gate. -/
theorem gateBreach_spec (d : Dev) (ok : List Nat) :
    GateTalk gateKeys d (d.gateBreach ok) ∧ ∀ f : Fld, f.key ∉ [Reg.FLT_STATUS_JUNCTION.key, Reg.FLT_STATUS_BEYOND_MODEL.key] → ¬ countsTalk f.key →
      (d.gateBreach ok).get f = d.get f := by
  unfold Dev.gateBreach
  split
  · obtain ⟨-, hkeep, hwork⟩ := breach_spec d Reg.FLT_STATUS_JUNCTION rfl (notTalk (by decide) (by decide)) (by decide)
    generalize d.breach Reg.FLT_STATUS_JUNCTION = t at hkeep hwork ⊢
    have hpw : t.pw = d.pw := by rw [hwork]; rfl
    refine ⟨⟨?_, regsKeep_mono hkeep (by decide)⟩, hkeep⟩
    rw [hpw]
    exact hwork
  · exact ⟨.refl d, fun _ _ _ => rfl⟩

/-- The device once a gate's readings are shown, before what they bring about. -/
def Dev.gateRead (d : Dev) : Dev :=
  (((d.gateCount d.refuses).set Reg.PWR_THERM_STATUS_ACCEPTED d.accepts.length).gateHot d.accepts).gateBreach d.accepts

theorem gateRead_spec (d : Dev) : GateTalk gateKeys d d.gateRead ∧ GateShown d d.gateRead := by
  obtain ⟨hcountTalk, hrej, hmark⟩ := gateCount_spec d
  have htj : (d.gateCount d.refuses).tj = d.tj :=
    congrArg (toSigned 16) (hcountTalk.regs Reg.PWR_THERM_STATUS_T_J (by decide) (notTalk_thermal (by decide)))
  have htalk := hcountTalk.mono (ls := gateKeys) (by decide)
  clear hcountTalk
  unfold Dev.gateRead
  generalize d.gateCount d.refuses = e at htalk hrej hmark htj ⊢
  have hcount : (e.set Reg.PWR_THERM_STATUS_ACCEPTED d.accepts.length).get Reg.PWR_THERM_STATUS_ACCEPTED = d.accepts.length :=
    (Dev.get_set_same _ _ _).trans (Nat.mod_eq_of_lt ((accepts_length_le d).trans_lt (by decide)))
  have hother (f : Fld) (hf : f.key ≠ Reg.PWR_THERM_STATUS_ACCEPTED.key) : (e.set Reg.PWR_THERM_STATUS_ACCEPTED d.accepts.length).get f = e.get f :=
    Dev.get_set_ne _ hf _
  have hset : GateTalk gateKeys d (e.set Reg.PWR_THERM_STATUS_ACCEPTED d.accepts.length) := htalk.trans (.set _ _ (by decide))
  have htj' : (e.set Reg.PWR_THERM_STATUS_ACCEPTED d.accepts.length).tj = d.tj := (congrArg (toSigned 16) (hother _ (by decide))).trans htj
  generalize e.set Reg.PWR_THERM_STATUS_ACCEPTED d.accepts.length = x at hcount hother hset htj' ⊢
  obtain ⟨hhot, hhotKeep, hle, hhottest, hnone⟩ := gateHot_spec hset htj'
  generalize x.gateHot d.accepts = y at hhot hhotKeep hle hhottest hnone ⊢
  obtain ⟨hbreach, hbreachKeep⟩ := gateBreach_spec y d.accepts
  have hread : GateShown d y := ⟨(hhotKeep _ (by decide)).trans hcount, fun k hk => by
      rw [hhotKeep _ (by decide), hother _ (by decide)]
      exact hrej k hk, fun k hk hbad hr => by
      rw [hhotKeep _ (by decide), hother _ (by decide)]
      exact hmark k hk hbad hr, hle, hhottest, hnone⟩
  refine ⟨(hset.trans hhot).trans hbreach, hread.of_kept fun f hf => hbreachKeep f ?_ (notTalk_thermal (List.mem_append_left _ hf))⟩
  have hfree : ∀ f ∈ gateFields, f.key ∉ [Reg.FLT_STATUS_JUNCTION.key, Reg.FLT_STATUS_BEYOND_MODEL.key] := by decide +kernel
  exact hfree f hf

end Sys2Proof.Machine
end

section
/-! PROOF. What a gate's readings bring about, and O59 from this, from a trip's first frame and from the hold. -/
namespace Sys2Proof.Machine
open Sys2Proof.Safety

/-! ### What later steps of a gate leave -/

/-- Time, the Hallmark and the gate's counts stay, and the fields of `fs`. -/
structure LateKept (fs : List Fld) (d t : Dev) : Prop where
  tm : t.tm = d.tm
  hm : t.hm = d.hm
  gate : t.pw.gate = d.pw.gate
  counts : t.pw.counts = d.pw.counts
  shown : ∀ f ∈ fs, t.get f = d.get f

section
variable {fs : List Fld}

theorem LateKept.refl (d : Dev) : LateKept fs d d := ⟨rfl, rfl, rfl, rfl, fun _ _ => rfl⟩

theorem LateKept.trans {a b c : Dev} (h : LateKept fs a b) (k : LateKept fs b c) : LateKept fs a c :=
  ⟨k.tm.trans h.tm, k.hm.trans h.hm, k.gate.trans h.gate, k.counts.trans h.counts, fun f hf => (k.shown f hf).trans (h.shown f hf)⟩

theorem LateKept.mono {gs : List Fld} {d t : Dev} (h : LateKept fs d t) (sub : ∀ f ∈ gs, f ∈ fs) : LateKept gs d t :=
  ⟨h.tm, h.hm, h.gate, h.counts, fun f hf => h.shown f (sub f hf)⟩

theorem LateKept.set (d : Dev) {f : Fld} (v : Nat) (hf : ∀ g ∈ fs, g.key ≠ f.key) : LateKept fs d (d.set f v) :=
  ⟨rfl, rfl, rfl, rfl, fun g hg => Dev.get_set_ne d (hf g hg) v⟩

theorem LateKept.setBoth (d : Dev) {f : Fld} (v : Nat) (hf : ∀ g ∈ fs, g.key ≠ f.key) : LateKept fs d (d.setBoth f v) :=
  ⟨rfl, rfl, rfl, rfl, fun g hg => Dev.get_set_ne d (hf g hg) v⟩

theorem LateKept.withThrottle (d : Dev) (b : Bool) : LateKept fs d { d with pw := { d.pw with throttle := b } } := ⟨rfl, rfl, rfl, rfl, fun _ _ => rfl⟩

theorem LateKept.withAcq (d : Dev) (x : Acq) : LateKept fs d { d with acq := x } := ⟨rfl, rfl, rfl, rfl, fun _ _ => rfl⟩

theorem LateKept.of_talks {d t : Dev} (h : Talks d t) (hf : ∀ f ∈ fs, ¬ countsTalk f.key) : LateKept fs d t := by
  obtain ⟨hwork, hkeep⟩ := h
  have hpw : t.pw = d.pw := by rw [hwork]; rfl
  have htm : t.tm = d.tm := by rw [hwork]; rfl
  have hhm : t.hm = d.hm := by rw [hwork]; rfl
  exact ⟨htm, hhm, by rw [hpw], by rw [hpw], fun f h => hkeep f (by simp) (hf f h)⟩

theorem LateKept.foldl {α : Type} {step : Dev → α → Dev} {l : List α} (h : ∀ a ∈ l, ∀ d, LateKept fs d (step d a)) (d : Dev) :
    LateKept fs d (l.foldl step d) := foldl_step LateKept.refl LateKept.trans h d

end

/-- What a gate shows, and the thermal state with its cause. -/
def shownFields : List Fld := Reg.PWR_THERM_STATUS_STATE :: Reg.PWR_THERM_STATUS_CAUSE :: gateFields

theorem gateFields_shown {f : Fld} (h : f ∈ gateFields) : f ∈ shownFields := .tail _ (.tail _ h)

theorem notTalk_shown : ∀ f ∈ shownFields, ¬ countsTalk f.key := by
  have hkeys : ∀ f ∈ shownFields, 917504 ≤ f.key
      ∧ f.key ≠ Reg.HR_DROP_STATS_EVT_DROPPED.key ∧ f.key ≠ Reg.EGR_POOL_FREE_PAGES.key ∧ f.key ≠ Reg.EGR_POOL_LOW_WATER.key := by decide +kernel
  intro f h
  obtain ⟨hhigh, hcount⟩ := hkeys f h
  exact notTalk (.inr hhigh) hcount

/-! ### Throttling and the thermal states (R494, R495) -/

theorem throttle_free : ∀ g ∈ shownFields, ∀ n < 48,
    g.key ≠ (Reg.LN_EYE_CTRL_BUSY n).key ∧ g.key ≠ (Reg.CH_CTRL_ENABLE n).key ∧ g.key ≠ (Reg.LN_CTRL_ENABLE n).key := by decide +kernel

/-- Throttling shuts down eye scans, channels and lanes; what a gate shows stays. -/
theorem throttleOn_kept (d : Dev) : LateKept shownFields d d.throttleOn := by
  have heye (e : Dev) {l : Nat} (hl : l < 48) :
      LateKept shownFields e (if e.flag (Reg.LN_EYE_CTRL_BUSY l) then e.setB (Reg.LN_EYE_CTRL_BUSY l) false else e) := by
    split
    · exact .set e _ fun g hg => (throttle_free g hg l hl).1
    · exact .refl e
  have hshed (l : List Nat) (hl : ∀ n ∈ l, n < 48) (e : Dev) : LateKept shownFields e (l.foldl Dev.shedChan e) :=
    .foldl (fun n hn x => .setBoth x 0 fun g hg => (throttle_free g hg n (hl n hn)).2.1) e
  have hlanes (e : Dev) {q : Nat} (hq : q < 12) :
      LateKept shownFields e ((rangeFrom (4 * q) (4 * q + 4)).foldl (fun d l => d.setBoth (Reg.LN_CTRL_ENABLE l) 0) e) := by
    refine .foldl (fun l hl x => .setBoth x 0 fun g hg => (throttle_free g hg l ?_).2.2) e
    have hquad := (mem_quad q l).1 hl
    omega
  unfold Dev.throttleOn
  dsimp only
  refine ((LateKept.withThrottle d true).trans (.foldl (fun l hl e => heye e (List.mem_range.1 hl)) _)).trans ?_
  generalize (List.range 48).foldl _ _ = e
  refine LateKept.trans (b := if e.role == .frontEnd then _ else e) ?_ (.foldl (fun q hq x => hlanes x ?_) _)
  · split
    · exact hshed _ (fun n hn => (mem_setBits.1 hn).1) e
    · exact .refl e
  · exact (mem_setBits.1 (List.mem_filter.1 hq).1).1

theorem throttleOff_kept (d : Dev) : LateKept shownFields d d.throttleOff := by
  unfold Dev.throttleOff
  split
  · exact .refl d
  · exact .withThrottle d false

theorem state_ne_gateField : ∀ g ∈ gateFields, g.key ≠ Reg.PWR_THERM_STATUS_STATE.key := by decide +kernel

theorem enterTherm_spec (d : Dev) {st : Nat} (hst : st < 8) : LateKept gateFields d (d.enterTherm st) ∧ (d.enterTherm st).thermState = st := by
  unfold Dev.enterTherm
  have hset : LateKept gateFields d (d.set Reg.PWR_THERM_STATUS_STATE st) := .set d st state_ne_gateField
  have hstate : (d.set Reg.PWR_THERM_STATUS_STATE st).thermState = st := (Dev.get_set_same _ _ _).trans (Nat.mod_eq_of_lt hst)
  have hevent : LateKept shownFields _ _ := .of_talks
    (pwrEvent_talks (d.set Reg.PWR_THERM_STATUS_STATE st) 1 [st, d.tjWord, d.get Reg.PWR_THERM_STATUS_HOT_SENSOR]) notTalk_shown
  exact ⟨hset.trans (hevent.mono fun _ => gateFields_shown), (hevent.shown _ (.head _)).trans hstate⟩

/-- The thermal state that follows from the temperature and the state before (R494). -/
def Dev.thermNext (d : Dev) : Nat :=
  if d.throttleAt ≤ d.tj ∧ d.thermState ≠ 2 then 2
  else if d.warnAt ≤ d.tj ∧ d.thermState = 0 then 1 else if d.tj < 1440 then 0 else d.thermState

theorem thermStep_spec (d : Dev) : LateKept gateFields d d.thermStep ∧ d.thermStep.thermState = d.thermNext := by
  unfold Dev.thermStep Dev.thermNext
  dsimp only
  by_cases hthrottle : d.throttleAt ≤ d.tj ∧ d.thermState ≠ 2
  · rw [if_pos hthrottle, if_pos hthrottle.symm]
    obtain ⟨henter, hstate⟩ := enterTherm_spec d (st := 2) (by decide)
    have hon := throttleOn_kept (d.enterTherm 2)
    exact ⟨henter.trans (hon.mono fun _ => gateFields_shown), (hon.shown _ (.head _)).trans hstate⟩
  rw [if_neg hthrottle, if_neg (fun h => hthrottle h.symm)]
  by_cases hwarn : d.warnAt ≤ d.tj ∧ d.thermState = 0
  · rw [if_pos hwarn, if_pos hwarn.symm]
    exact enterTherm_spec d (by decide)
  rw [if_neg hwarn, if_neg (fun h => hwarn h.symm)]
  by_cases hcool : d.tj < 1440
  · rw [if_pos hcool]
    by_cases hzero : d.thermState = 0
    · rw [if_neg (fun h => h.1 hzero)]
      exact ⟨.refl d, hzero⟩
    · rw [if_pos ⟨hzero, hcool⟩]
      have hoff := throttleOff_kept (d.set Reg.PWR_THERM_STATUS_STATE 0)
      exact ⟨(LateKept.set d 0 state_ne_gateField).trans (hoff.mono fun _ => gateFields_shown),
        (hoff.shown _ (.head _)).trans (Dev.get_set_same _ _ _)⟩
  · rw [if_neg hcool, if_neg (fun h => hcool h.2)]
    exact ⟨.refl d, rfl⟩

/-! ### A trip of a gate (R494, R497) -/

theorem gateField_not_tripKey : ∀ f ∈ gateFields, f.key ∉ tripKeys := by decide +kernel

theorem TripBegun.late {d t : Dev} {cause : Nat} (h : TripBegun d cause t) : LateKept gateFields d t := by
  have htm : t.tm = d.tm := by rw [h.frame]
  have hhm : t.hm = d.hm := by rw [h.frame]
  exact ⟨htm, hhm, by rw [h.pw], by rw [h.pw], fun f hf => h.regs f (gateField_not_tripKey f hf)⟩

/-- A trip cause: a trip begins where none is in hand, and what a gate shows stays either way. -/
theorem tripCause_spec (d : Dev) {cause : Nat} (hcause : cause < 16) :
    LateKept gateFields d (d.tripCause cause) ∧ (d.pw.trip = none → (d.tripCause cause).thermState = 3 ∧ (d.tripCause cause).get Reg.PWR_THERM_STATUS_CAUSE = cause) := by
  cases htrip : d.pw.trip with
  | none =>
    rw [tripCause_none htrip]
    have hbegun := tripBegin_spec d hcause
    exact ⟨hbegun.late, fun _ => ⟨hbegun.state, hbegun.why⟩⟩
  | some tr =>
    rw [tripCause_some htrip]
    refine ⟨?_, fun h => nomatch h⟩
    split
    · exact .of_talks (pwrEvent_talks _ _ _) fun f hf => notTalk_shown f (gateFields_shown hf)
    · exact .refl d

/-- What the readings bring about: a trip by heat or for want of readings, else the next thermal state. -/
theorem gateTherm_spec (d : Dev) (ok : List Nat) :
    (let t := d.gateTherm ok
     LateKept gateFields d t
      ∧ (1920 ≤ d.tj → ok ≠ [] → d.pw.trip = none → t.thermState = 3 ∧ t.get Reg.PWR_THERM_STATUS_CAUSE = 1)
      ∧ (ok.length < 4 → (ok = [] ∨ d.tj < 1920) → d.pw.trip = none → t.thermState = 3 ∧ t.get Reg.PWR_THERM_STATUS_CAUSE = 3)
      ∧ (4 ≤ ok.length → d.tj < 1920 → d.thermState < 3 → t.thermState = d.thermNext)) := by
  unfold Dev.gateTherm
  dsimp only
  by_cases hhot : (1920 : Int) ≤ d.tj ∧ ok.isEmpty = false
  · obtain ⟨hkeep, htrip⟩ := tripCause_spec d (cause := 1) (by decide)
    obtain ⟨htj, hne⟩ := hhot
    rw [if_pos ⟨htj, hne⟩]
    exact ⟨hkeep, fun _ _ => htrip, fun _ h => h.elim (fun h => by simp [h] at hne) (fun h => absurd htj (not_le.2 h)), fun _ h => absurd htj (not_le.2 h)⟩
  rw [if_neg hhot]
  have hcold : 1920 ≤ d.tj → ok ≠ [] → False := fun htj hne => hhot ⟨htj, by simpa using hne⟩
  by_cases hfew : ok.length < 4
  · obtain ⟨hkeep, htrip⟩ := tripCause_spec d (cause := 3) (by decide)
    rw [if_pos hfew]
    exact ⟨hkeep, fun htj hne => (hcold htj hne).elim, fun _ _ => htrip, fun h => absurd hfew (not_lt.2 h)⟩
  · obtain ⟨hkeep, hstate⟩ := thermStep_spec d
    rw [if_neg hfew]
    refine ⟨?_, fun htj hne => (hcold htj hne).elim, fun h => absurd h hfew, fun _ _ hst => ?_⟩
    · unfold whenD
      split
      · exact hkeep
      · exact .refl d
    · rw [whenD, if_pos (decide_eq_true hst)]
      exact hstate

/-- A quad's request for a linearity calibration leaves what a gate shows (R134). -/
theorem autoDt_kept (d : Dev) : LateKept shownFields d d.autoDt := by
  unfold Dev.autoDt
  dsimp only
  split
  · exact .refl d
  · refine .foldl (fun q _ e => ?_) d
    split
    · split
      · exact .withAcq e _
      · exact .refl e
    · exact .refl e

/-! ### SENSOR_GATE_END (R491) -/

/-- The device with the counts of a gate waiting. -/
def Dev.heldGate (d : Dev) (cs : List Nat) : Dev := { d with pw := { d.pw with gate := some (cs.map (min 65535)) } }

theorem gateEnd_eq {d : Dev} {cs : List Nat} (hup : d.up = true) (hlen : cs.length = 16) :
    d.gateEnd cs = if d.fi % 64 = 0 then (d.heldGate cs).applyGate else d.heldGate cs := by
  have hgo : ¬ ((!d.up || cs.length != 16) = true) := by simp [hup, hlen]
  unfold Dev.gateEnd
  rw [if_neg hgo]
  rfl

theorem exec_sensorGateEnd {cs : List Nat} {s : State} (hup : s.dev.up = true) (hlen : cs.length = 16) :
    exec (.sensorGateEnd cs) s
      = .next { s with dev := if s.dev.fi % 64 = 0 then (s.dev.heldGate cs).applyGate else s.dev.heldGate cs } := by
  rw [← gateEnd_eq hup hlen]
  rfl

theorem sensorGateEnd_waits {cs : List Nat} {s : State} (hup : s.dev.up = true) (hlen : cs.length = 16) (hfi : s.dev.fi % 64 ≠ 0) :
    exec (.sensorGateEnd cs) s = .next { s with dev := { s.dev with pw := { s.dev.pw with gate := some (cs.map (min 65535)) } } } := by
  rw [exec_sensorGateEnd hup hlen, if_neg hfi]
  rfl

theorem newGate_reading (d : Dev) (cs : List Nat) (k : Nat) :
    (d.newGate (cs.map (min 65535))).reading k
      = 400 + (((d.senSlope k : Nat) : Int) * ((d.senN0 k : Nat) - (min 65535 (cs.getD k 0) : Nat))).fdiv 65536 := by
  have hcount : nth (cs.map (min 65535)) k = min 65535 (cs.getD k 0) := List.getD_map (f := min 65535) (d := 0) (n := k) cs
  show d.t16 k (nth (cs.map (min 65535)) k) = _
  rw [hcount]
  rfl

/-- The thermal state and its thresholds as they were before the readings. -/
theorem GateTalk.thermNext {d t : Dev} (h : GateTalk gateKeys d t) : t.thermState = d.thermState
    ∧ t.thermNext = if d.throttleAt ≤ t.tj ∧ d.thermState ≠ 2 then 2 else if d.warnAt ≤ t.tj ∧ d.thermState = 0 then 1 else if t.tj < 1440 then 0 else d.thermState := by
  have hkeep {f : Fld} (hf : f ∈ [Reg.PWR_THERM_STATUS_STATE, Reg.PWR_THERM_CFG_WARN, Reg.PWR_THERM_CFG_THROTTLE]) : t.get f = d.get f := by
    have hfree : ∀ f ∈ [Reg.PWR_THERM_STATUS_STATE, Reg.PWR_THERM_CFG_WARN, Reg.PWR_THERM_CFG_THROTTLE], f.key ∉ gateKeys := by decide +kernel
    exact h.regs f (hfree f hf) (notTalk_thermal (List.mem_append_right _ hf))
  have hstate : t.thermState = d.thermState := hkeep (by simp)
  have hwarn : t.warnAt = d.warnAt := by rw [Dev.warnAt, Dev.warnAt, hkeep (by simp)]
  have hthrottle : t.throttleAt = d.throttleAt := by rw [Dev.throttleAt, Dev.throttleAt, hwarn, hkeep (by simp)]
  rw [Dev.thermNext, hstate, hwarn, hthrottle]
  exact ⟨rfl, rfl⟩

/-- A gate's readings applied: what they show, and what they bring about. -/
theorem applyGate_spec {d e t : Dev} {cs : List Nat} (hgate : e.pw.gate = some cs) (hd : d = e.newGate cs) (ht : t = e.applyGate) :
    GateShown d t ∧ t.pw.gate = none ∧ t.pw.counts = cs
    ∧ (d.accepts ≠ [] → 1920 ≤ t.tj → d.pw.trip = none → t.thermState = 3 ∧ t.get Reg.PWR_THERM_STATUS_CAUSE = 1)
    ∧ (d.accepts.length < 4 → (d.accepts = [] ∨ t.tj < 1920) → d.pw.trip = none → t.thermState = 3 ∧ t.get Reg.PWR_THERM_STATUS_CAUSE = 3)
    ∧ (4 ≤ d.accepts.length → t.tj < 1920 → d.thermState < 3 →
        t.thermState = if d.throttleAt ≤ t.tj ∧ d.thermState ≠ 2 then 2
          else if d.warnAt ≤ t.tj ∧ d.thermState = 0 then 1 else if t.tj < 1440 then 0 else d.thermState)
    ∧ t.tm = d.tm ∧ t.hm = d.hm := by
  have hnew : d.pw.gate = none ∧ d.pw.counts = cs := by
    rw [hd]
    exact ⟨rfl, rfl⟩
  have heq : t = (d.gateRead.gateTherm d.accepts).autoDt := by
    rw [ht, hd]
    exact applyGate_eq hgate
  clear ht hd hgate
  obtain ⟨hnone, hcounts⟩ := hnew
  obtain ⟨htalk, hshown⟩ := gateRead_spec d
  generalize d.gateRead = x at htalk hshown heq
  obtain ⟨hstate, hnext⟩ := htalk.thermNext
  have htrip : x.pw.trip = d.pw.trip := by rw [htalk.work]
  have hstart : LateKept [] d x := by
    have htm : x.tm = d.tm := by rw [htalk.work]; rfl
    have hhm : x.hm = d.hm := by rw [htalk.work]; rfl
    have hgate : x.pw.gate = d.pw.gate := by rw [htalk.work]
    have hcount : x.pw.counts = d.pw.counts := by rw [htalk.work]
    exact ⟨htm, hhm, hgate, hcount, by simp⟩
  obtain ⟨htherm, hheat, hfew, hbelow⟩ := gateTherm_spec x d.accepts
  generalize x.gateTherm d.accepts = y at htherm hheat hfew hbelow heq
  have hauto := autoDt_kept y
  rw [← heq] at hauto
  have hlate : LateKept gateFields x t := htherm.trans (hauto.mono fun _ => gateFields_shown)
  have htj : t.tj = x.tj := congrArg (toSigned 16) (hlate.shown Reg.PWR_THERM_STATUS_T_J (by simp [gateFields]))
  have hstate' : t.thermState = y.thermState := hauto.shown _ (.head _)
  have hcause : t.get Reg.PWR_THERM_STATUS_CAUSE = y.get Reg.PWR_THERM_STATUS_CAUSE := hauto.shown _ (.tail _ (.head _))
  have hall := hstart.trans (hlate.mono (by simp))
  rw [htj, hstate', hcause, ← hnext, ← htrip, ← hstate]
  exact ⟨hshown.of_kept hlate.shown, hall.gate.trans hnone, hall.counts.trans hcounts, fun hne h => hheat h hne, hfew, hbelow, hall.tm, hall.hm⟩

theorem sensorGateEnd_applies {cs : List Nat} {s : State} (hup : s.dev.up = true) (hlen : cs.length = 16) (hfi : s.dev.fi % 64 = 0) :
    (let temp (k : Nat) : Int := 400 + (((s.dev.senSlope k : Nat) : Int) * ((s.dev.senN0 k : Nat) - (min 65535 (cs.getD k 0) : Nat))).fdiv 65536
     let new : Dev := s.dev.newGate (cs.map (min 65535))
     let bad (k : Nat) : Bool := bitOf (s.dev.get Reg.PWR_SENSOR_FLAGS_BAD) k
     let n : Nat := ((List.range 16).filter fun k => !bad k && !new.rejects k).length
     Answers (.sensorGateEnd cs) s fun t =>
      t.dev.pw.gate = none ∧ t.dev.pw.counts = cs.map (min 65535) ∧ t.dev.get Reg.PWR_THERM_STATUS_ACCEPTED = n
      ∧ (∀ k : Nat, k < 16 → bitOf (t.dev.get Reg.PWR_SENSOR_FLAGS_REJECTED) k = (!bad k && new.rejects k))
      ∧ (∀ k : Nat, k < 16 → (temp k < -960 ∨ 2400 < temp k) → new.rejects k = true)
      ∧ (∀ k : Nat, k < 16 → bad k = false → new.rejects k = true →
          bitOf (t.dev.get Reg.PWR_SENSOR_FLAGS_BAD) k = decide (4 ≤ getT 0 k s.dev.pw.rejects + 1))
      ∧ (∀ k : Nat, k < 16 → bad k = false → new.rejects k = false → temp k ≤ t.dev.tj)
      ∧ (0 < n → t.dev.get Reg.PWR_THERM_STATUS_HOT_SENSOR < 16 ∧ t.dev.tj = temp (t.dev.get Reg.PWR_THERM_STATUS_HOT_SENSOR)
          ∧ bad (t.dev.get Reg.PWR_THERM_STATUS_HOT_SENSOR) = false ∧ new.rejects (t.dev.get Reg.PWR_THERM_STATUS_HOT_SENSOR) = false)
      ∧ (n = 0 → t.dev.tj = s.dev.tj)
      ∧ (0 < n → 1920 ≤ t.dev.tj → s.dev.pw.trip = none → t.dev.thermState = 3 ∧ t.dev.get Reg.PWR_THERM_STATUS_CAUSE = 1)
      ∧ (n < 4 → (n = 0 ∨ t.dev.tj < 1920) → s.dev.pw.trip = none → t.dev.thermState = 3 ∧ t.dev.get Reg.PWR_THERM_STATUS_CAUSE = 3)
      ∧ (4 ≤ n → t.dev.tj < 1920 → s.dev.thermState < 3 →
          t.dev.thermState = if s.dev.throttleAt ≤ t.dev.tj ∧ s.dev.thermState ≠ 2 then 2
            else if s.dev.warnAt ≤ t.dev.tj ∧ s.dev.thermState = 0 then 1 else if t.dev.tj < 1440 then 0 else s.dev.thermState)
      ∧ t.dev.tm = s.dev.tm ∧ t.dev.hm = s.dev.hm ∧ t.fuses = s.fuses ∧ t.ecc = s.ecc ∧ t.pending = s.pending) := by
  have htemp := newGate_reading s.dev cs
  obtain ⟨hshown, hgate, hcounts, hheat, hfew, hbelow, htm, hhm⟩ := applyGate_spec (d := s.dev.newGate (cs.map (min 65535))) (e := s.dev.heldGate cs) rfl rfl rfl
  dsimp only
  rw [Answers, exec_sensorGateEnd hup hlen, if_pos hfi]
  generalize (s.dev.heldGate cs).applyGate = t at hshown hgate hcounts hheat hfew hbelow htm hhm ⊢
  refine ⟨_, rfl, hgate, hcounts, hshown.accepted, hshown.rejected, fun k _ hout => ?_, hshown.marked, fun k hk hbad hok => ?_, fun hn => ?_, fun hn => ?_,
    fun hn => hheat (List.ne_nil_of_length_pos hn), fun hn h => hfew hn (h.imp_left List.eq_nil_of_length_eq_zero), hbelow, htm, hhm, rfl, rfl, rfl⟩
  · by_contra hok
    rw [← htemp] at hout
    have hband := reading_of_accepted (Bool.eq_false_iff.2 hok)
    omega
  · rw [← htemp]
    exact hshown.hottest k (mem_accepts.2 ⟨hk, hbad, hok⟩)
  · obtain ⟨hmem, htj⟩ := hshown.hot (List.ne_nil_of_length_pos hn)
    obtain ⟨hlt, hbad, hok⟩ := mem_accepts.1 hmem
    exact ⟨hlt, htj.trans (htemp _), hbad, hok⟩
  · exact hshown.unread (List.eq_nil_of_length_eq_zero hn)

/-! ### The obligation -/

/-- Settles O59: a trip's first frame, a gate's readings and the hold, each by its own lemma above. -/
theorem thermalTripsAndHold : Obligations.ThermalTripsAndHold := by
  unfold Obligations.ThermalTripsAndHold
  refine ⟨fun s hup hover hlong hnone => ?_, fun s h => powerOverTrip_none h, fun cs s => sensorGateEnd_waits, fun cs s => sensorGateEnd_applies,
    fun tr s => coldHold_spec, fun s h => ?_, fun src s => holdReqWrite_kept, fun src s => holdReqWrite_begins, fun src key tr s => pwrReleaseWrite_spec,
    fun src key s => pwrReleaseWrite_idle, fun s hup hstate hrel => ?_, fun s h => ?_, fun s => ldgDataRead_spec⟩
  · obtain ⟨t, hexec, hbegun⟩ := powerOverTrip_begins hup hover hlong hnone
    have hquiet := hbegun.quiet
    exact ⟨_, hexec, hbegun.state, hbegun.why, hbegun.pins, hbegun.pw, hbegun.ledger, hbegun.dark, hbegun.others, hbegun.flt, hquiet.retire, hbegun.asm,
      hbegun.ready, hbegun.caps, hbegun.lost, hbegun.streams, fun n hn => ⟨hquiet.cal n hn, hquiet.lin n hn⟩, hquiet.rot, hquiet.quad, hquiet.assay,
      congrArg (fun d => { s with dev := d }) hbegun.frame_talked⟩
  · rw [exec_coldHoldEntry, coldHold_idle h]
  · have hspec := holdReleased_spec hup hstate hrel rfl
    rw [Answers, exec_holdReleased]
    generalize s.dev.holdReleased = t at hspec ⊢
    obtain ⟨hzero, hpins, hreq, hch, hmd, hlq, hwanted, hpw, hframe, hfstats, hkeep⟩ := hspec
    exact ⟨_, rfl, hzero, hpins, hreq, hch, hmd, hlq, hwanted, hpw, congrArg (fun d => { s with dev := d }) hframe, hfstats, hkeep⟩
  · rw [exec_holdReleased, holdReleased_idle h]

end Sys2Proof.Machine
end
